-- ==== Sys2Proof/Word.lean ====
section
/-! DEFINITION. The word types and the sparse table every numbered resource is held in. -/

namespace Sys2Proof

/-- A 32-bit value: a register, a socket, a core address (R3, R49). -/
abbrev Word := BitVec 32

/-- An octet (R4). -/
abbrev Byte := BitVec 8

/-- Octets in increasing address or transmission order (R4, R231, R323). -/
abbrev Octets := List Byte

/-- A sparse table: pairs of a number and a value in rising order of the numbers; a number that is not listed
has the value its table's default gives. -/
abbrev Tab (α : Type) := List (Nat × α)

/-- The value of entry `k`, `d k` where the table lists none. -/
def Tab.get {α : Type} (d : Nat → α) (k : Nat) : Tab α → α
  | [] => d k
  | (i, v) :: t => if i = k then v else if k < i then d k else Tab.get d k t

/-- The table with entry `k` set to `v`, in rising order. -/
def Tab.put {α : Type} (k : Nat) (v : α) : Tab α → Tab α
  | [] => [(k, v)]
  | (i, w) :: t => if i = k then (k, v) :: t else if k < i then (k, v) :: (i, w) :: t else (i, w) :: Tab.put k v t

/-- The table without entry `k`. -/
def Tab.del {α : Type} (k : Nat) : Tab α → Tab α
  | [] => []
  | (i, w) :: t => if i = k then t else if k < i then (i, w) :: t else (i, w) :: Tab.del k t

/-- Entry `k` as it is listed, if it is. -/
def Tab.find {α : Type} (k : Nat) : Tab α → Option α
  | [] => none
  | (i, v) :: t => if i = k then some v else if k < i then none else Tab.find k t

/-- The numbers rise strictly from one listed entry to the next. -/
def Tab.sorted {α : Type} : Tab α → Bool
  | [] => true
  | [_] => true
  | (i, _) :: (j, w) :: t => decide (i < j) && Tab.sorted ((j, w) :: t)

end Sys2Proof
end

