-- ==== Sys2Proof/Terms.lean ====
section
/-! DEFINITION. The operands the commands carry: who makes an access, where a PDU comes from, a frame as it arrives
on a lane, a memory and a word of it. -/

namespace Sys2Proof

/-- Who makes an access to a register block: a core (0 to 127, W0 = 128, W1 = 129; R17, R145), the dictionary engine
(R319, R342) or the Loupe (R463). -/
inductive Master where
  | core (n : Nat)
  | engine
  | loupe
  deriving DecidableEq, Repr

/-- One of the two copies of the alu (R87). -/
inductive AluUnit where
  | alu0
  | alu1
  deriving DecidableEq, Repr

/-- The endpoint an EDP request comes from (R325): the CAN FD source node; the arrival facet and source node of a
Beam link; the facet and source MAC of Ethernet; for UDP also the source address and port, and `dev`, the device's own address the request was
sent to (R339), which is no part of the endpoint. -/
inductive Endpoint where
  | can (src : Nat)
  | beamLink (facet src : Nat)
  | ether (facet mac : Nat)
  | udp (facet mac ip port dev : Nat)
  deriving DecidableEq, Repr

/-- A frame as a facet receives it: on a Beam link the three header words, the payload and the CRC (R237); on
Ethernet the octets from the destination address to the end of the payload, and whether the FCS is good (R232). -/
inductive Frame where
  | beam (h0 h1 h2 : Word) (payload : Octets) (crc : Word)
  | ether (octets : Octets) (fcsGood : Bool)
  deriving DecidableEq, Repr

/-- A received frame with what the lane shows of it: the timebase at its timestamp point (R234) and whether a code
violation or an ABT fell between SOF and EOF (R238). -/
structure RxFrame where
  frame : Frame
  sof   : Nat
  viol  : Bool
  deriving DecidableEq, Repr

/-- A memory of the integrity rules (R166), with the number of the unit it belongs to. -/
inductive MemId where
  | scratch (core : Nat)
  | mgmtXram
  | bank (cluster k : Nat)
  | xram (cluster : Nat)
  | bitStore (cluster : Nat)
  | beamSram (quadrant : Nat)
  deriving DecidableEq, Repr

/-- Where a register write with no row of its own goes: a device register at a core physical address (R145), or a
dictionary entry (R322). -/
inductive RegDest where
  | device (addr value : Word)
  | entry (idx sub : Nat) (value : Octets)
  deriving DecidableEq, Repr

/-- Why a core has a core fault (R266, R283): a parity error, a second watchdog expiry, an entry fault. -/
inductive FaultWhy where
  | parity
  | watchdog
  | entryFault
  | selfTest
  deriving DecidableEq, Repr

/-- The supplies with a monitor (R398). -/
inductive Rail where
  | vcore | vsd09 | vsd12 | vio18 | vio33 | avdd
  deriving DecidableEq, Repr

/-- The kinds of fabric packet (R288). -/
inductive PacketKind where
  | management | reflex | txDesc | txRead | relay | fostered | completion | remoteCopy
  deriving DecidableEq, Repr

/-- What is wrong with a fabric flit at a hop (R294). -/
inductive FlitError where
  | none | correctable | dataUncorrectable | headerUncorrectable
  deriving DecidableEq, Repr

/-- An Announce message as the PTP servo takes it (R421): the order of its clock in the best-master comparison (lower
is better), currentUtcOffset and the leap flags. -/
structure Announce where
  rank      : Nat
  utcOffset : Int
  leap61    : Bool
  leap59    : Bool
  deriving DecidableEq, Repr

end Sys2Proof
end

