-- ==== Sys2Proof/Syntax.lean ====
section
/-! DEFINITION. The commands: one constructor for each row of spec/opcode_table.json, in the table's order, with the
operands the rule of the row needs. -/

namespace Sys2Proof

/-- A command: one of the indivisible steps of the opcode table (95_what_each_step_holds). `n` is a core (0 to 127,
W0 = 128, W1 = 129; R13, R17), `c` a cluster, `p` a facet, `q` a quadrant, `b` a beam, `k` a bank or a key slot, `a` the
value moved into a trigger socket, `v` a value written. -/
inductive Instr where
  /-- BUNDLE_ISSUE (R44): A bundle, or a pair of bundles, issues in one step: it reads sources and guards, makes the checks of R81, R51 and R47, and writes destinations and triggers at the end of the step. -/
  | bundleIssue (n : Nat)
  /-- FILL_BUNDLE (R114): In a step where no program bundle can issue, a fill bundle issues; it executes no move and counts as a step. -/
  | fillBundle (n : Nat)
  /-- REPEAT_ITERATION (R137): One iteration of a repeated full bundle executes, re-checks orders 5 and 6 and counts REPC down when N is taken from REPC. -/
  | repeatIteration (n : Nat)
  /-- BREAK_BUNDLE (R83): A break bundle either halts the core under an armed Loupe break-halt or traps with cause 0x1A, with SWCODE set to TAG. -/
  | breakBundle (n : Nat)
  /-- EXCEPTION_ENTRY (R192): A synchronous fault or a recognised event enters at EVEC after the fill steps of R126, writing EPC, EPSW, PSTK, CAUSE, PSW and the lsu frame. -/
  | exceptionEntry (n : Nat)
  /-- ALU_ADD (R87): alu add trigger: out := a + b. -/
  | aluAdd (n : Nat) (u : AluUnit) (a : Word)
  /-- ALU_SUB (R87): alu sub trigger: out := a - b. -/
  | aluSub (n : Nat) (u : AluUnit) (a : Word)
  /-- ALU_AND (R87): alu and trigger. -/
  | aluAnd (n : Nat) (u : AluUnit) (a : Word)
  /-- ALU_OR (R87): alu or trigger. -/
  | aluOr (n : Nat) (u : AluUnit) (a : Word)
  /-- ALU_XOR (R87): alu xor trigger. -/
  | aluXor (n : Nat) (u : AluUnit) (a : Word)
  /-- ALU_ANDN (R87): alu andn trigger: out := a AND NOT b. -/
  | aluAndn (n : Nat) (u : AluUnit) (a : Word)
  /-- ALU_SHL (R87): alu logical shift left trigger; the result is 0 when b >= 32. -/
  | aluShl (n : Nat) (u : AluUnit) (a : Word)
  /-- ALU_SHR (R87): alu logical shift right trigger. -/
  | aluShr (n : Nat) (u : AluUnit) (a : Word)
  /-- ALU_SAR (R87): alu arithmetic shift right trigger. -/
  | aluSar (n : Nat) (u : AluUnit) (a : Word)
  /-- ALU_ROTL (R87): alu rotate left trigger, by b AND 31. -/
  | aluRotl (n : Nat) (u : AluUnit) (a : Word)
  /-- ALU_EQ (R88): alu equality compare; writes out and direct bit b[kd]. -/
  | aluEq (n : Nat) (u : AluUnit) (a : Word)
  /-- ALU_LT (R88): alu signed less-than compare; writes out and b[kd]. -/
  | aluLt (n : Nat) (u : AluUnit) (a : Word)
  /-- ALU_LTU (R88): alu unsigned less-than compare; writes out and b[kd]. -/
  | aluLtu (n : Nat) (u : AluUnit) (a : Word)
  /-- MUL_MULU (R89): Unsigned multiply into MHI:MLO. -/
  | mulMulu (n : Nat) (a : Word)
  /-- MUL_MULS (R89): Signed multiply into MHI:MLO. -/
  | mulMuls (n : Nat) (a : Word)
  /-- MUL_MULSU (R89): Signed-by-unsigned multiply into MHI:MLO. -/
  | mulMulsu (n : Nat) (a : Word)
  /-- MUL_PRODUCT_DELIVERY (R89): A product is written into MLO and MHI at the end of step s + 2 after its trigger. -/
  | mulProductDelivery (n : Nat)
  /-- DIV_QUO (R90): Unsigned divide trigger, interlocked with a contract latency of 20 st. -/
  | divQuo (n : Nat) (a : Word)
  /-- DIV_QUOS (R90): Signed divide trigger, truncating toward zero. -/
  | divQuos (n : Nat) (a : Word)
  /-- DIV_DELIVERY (R91): The divider delivers quotient and remainder and sets sticky b16 or b17 on edge cases. -/
  | divDelivery (n : Nat)
  /-- LSU_LD8U (R92): Load of a byte, zero-extended, checked under R150. -/
  | lsuLd8u (n : Nat) (a : Word)
  /-- LSU_LD8S (R92): Load of a byte, sign-extended. -/
  | lsuLd8s (n : Nat) (a : Word)
  /-- LSU_LD16U (R92): Load of 16 bits, zero-extended. -/
  | lsuLd16u (n : Nat) (a : Word)
  /-- LSU_LD16S (R92): Load of 16 bits, sign-extended. -/
  | lsuLd16s (n : Nat) (a : Word)
  /-- LSU_LD32 (R92): Load of 32 bits. -/
  | lsuLd32 (n : Nat) (a : Word)
  /-- LSU_ST8 (R95): Store of d[7:0] into the store buffer. -/
  | lsuSt8 (n : Nat) (a : Word)
  /-- LSU_ST16 (R95): Store of d[15:0] into the store buffer. -/
  | lsuSt16 (n : Nat) (a : Word)
  /-- LSU_ST32 (R95): Store of d[31:0] into the store buffer; a split store takes two linked entries. -/
  | lsuSt32 (n : Nat) (a : Word)
  /-- LSU_XCHG32 (R93): Atomic exchange of a 32-bit word, performed after the store buffer drains. -/
  | lsuXchg32 (n : Nat) (a : Word)
  /-- LOAD_DELIVERY (R94): An outstanding load delivers its data, or a poison mark, into lsu.out. -/
  | loadDelivery (n : Nat) (i : Nat)
  /-- BITU_TST (R96): bitu tst: out and b[kd] := the addressed bit. -/
  | bituTst (n : Nat) (a : Word)
  /-- BITU_SET (R96): bitu set: out := old bit; the bit := 1. -/
  | bituSet (n : Nat) (a : Word)
  /-- BITU_CLR (R96): bitu clr: out := old bit; the bit := 0. -/
  | bituClr (n : Nat) (a : Word)
  /-- BITU_TGL (R96): bitu tgl: out := old bit; the bit is inverted. -/
  | bituTgl (n : Nat) (a : Word)
  /-- BITU_TAS (R97): Atomic test-and-set of a bit, with b[kd] := old bit. -/
  | bituTas (n : Nat) (a : Word)
  /-- BITU_AND (R96): bitu and of direct bits into out and b[kd]. -/
  | bituAnd (n : Nat) (a : Word)
  /-- BITU_OR (R96): bitu or of direct bits into out and b[kd]. -/
  | bituOr (n : Nat) (a : Word)
  /-- BITU_XOR (R96): bitu xor of direct bits into out and b[kd]. -/
  | bituXor (n : Nat) (a : Word)
  /-- BITU_ANDN (R96): bitu andn of direct bits into out and b[kd]. -/
  | bituAndn (n : Nat) (a : Word)
  /-- CTL_JMP (R121): Transfer to a after one delay bundle, with refill fill steps. -/
  | ctlJmp (n : Nat) (a : Word)
  /-- CTL_JR (R98): Relative transfer to the transfer bundle's offset + a. -/
  | ctlJr (n : Nat) (a : Word)
  /-- CTL_CALL (R98): Transfer to a, writing lr with the offset after the delay bundle. -/
  | ctlCall (n : Nat) (a : Word)
  /-- CTL_CALLR (R98): Relative transfer that writes lr. -/
  | ctlCallr (n : Nat) (a : Word)
  /-- CTL_RET (R98): Transfer to a with no BTB allocation. -/
  | ctlRet (n : Nat) (a : Word)
  /-- CTL_ERET (R197): Return from exception with the privilege restore check; it chains, returns or traps with cause 0x1B. -/
  | ctlEret (n : Nat) (a : Word)
  /-- CTL_TRAP (R100): Software trap with cause 0x1A and SWCODE := a[7:0]. -/
  | ctlTrap (n : Nat) (a : Word)
  /-- CTL_LOOP (R130): Sets up a new loop level with count a and end x, or ends the innermost level when a = 0. -/
  | ctlLoop (n : Nat) (a : Word)
  /-- CTL_FLUSH (R101): Invalidates line-cache lines and BTB entries over a range and holds issue. -/
  | ctlFlush (n : Nat) (a : Word)
  /-- CTL_FENCE (R160): Holds the next bundle until the store buffer is empty. -/
  | ctlFence (n : Nat) (a : Word)
  /-- CTL_HUSH (R200): Opens a hush window of a[7:0] steps, if the allowance remains. -/
  | ctlHush (n : Nat) (a : Word)
  /-- HUSH_WINDOW_CLOSE (R200): A hush window closes when REM reaches 0 or 200 ns of timebase have passed. -/
  | hushWindowClose (n : Nat)
  /-- CTL_SLEEP (R100): The core stops issuing until it is woken. -/
  | ctlSleep (n : Nat) (a : Word)
  /-- SLEEP_WAKE (R100): An enabled event routed to a sleeping core ends the sleep, taken or not according to PSW.IE. -/
  | sleepWake (n : Nat)
  /-- CTL_HALT (R100): Stops the core and its watchdog until a reset or a Loupe resume. -/
  | ctlHalt (n : Nat) (a : Word)
  /-- COPY_MOVE (R104): Starts a copy of len bytes from src to a through port B. -/
  | copyMove (n : Nat) (a : Word)
  /-- COPY_FILL (R104): Starts a fill of len bytes with pat. -/
  | copyFill (n : Nat) (a : Word)
  /-- COPY_CRC (R104): Starts a CRC-32C over len bytes. -/
  | copyCrc (n : Nat) (a : Word)
  /-- COPY_PARK (R105): Suspends the active copy operation into a 32-byte record. -/
  | copyPark (n : Nat) (a : Word)
  /-- COPY_RESUME (R105): Restarts a parked copy operation from its record, after checking it. -/
  | copyResume (n : Nat) (a : Word)
  /-- COPY_COMPLETION (R105): A copy operation completes and sets st and out. -/
  | copyCompletion (n : Nat)
  /-- COPY_DATA_ERROR_STOP (R104): A poisoned or uncorrectable source word stops the copy with st = 3 and sets CLEVT.COPYERR. -/
  | copyDataErrorStop (n : Nat)
  /-- REMOTE_COPY_REFUSAL (R168): A bank with FOPEN = 0 refuses a remote copy, and the sending unit's st becomes 5. -/
  | remoteCopyRefusal (n : Nat)
  /-- BEAM_FIND (R215): Searches both candidate sets for a key. -/
  | beamFind (n : Nat) (a : Word)
  /-- BEAM_LOCK (R216): Locks a beam, validates its cached copy and writes the context to buf. -/
  | beamLock (n : Nat) (a : Word)
  /-- BEAM_COMMIT (R217): Writes buf back, advances VERSION, releases held frames and unlocks, or ends stale. -/
  | beamCommit (n : Nat) (a : Word)
  /-- BEAM_DROP (R217): Unlocks a beam without writing it back and discards its held transmit descriptors. -/
  | beamDrop (n : Nat) (a : Word)
  /-- BEAM_NEW (R215): Creates a beam for a key, locks it and writes its initial context. -/
  | beamNew (n : Nat) (a : Word)
  /-- BEAM_OPERATION_DELIVERY (R214): A beam operation delivers its st and out values. -/
  | beamOperationDelivery (n : Nat)
  /-- FPU_ADD (R109): binary32 add. -/
  | fpuAdd (n : Nat) (a : Word)
  /-- FPU_SUB (R109): binary32 subtract. -/
  | fpuSub (n : Nat) (a : Word)
  /-- FPU_MUL (R109): binary32 multiply. -/
  | fpuMul (n : Nat) (a : Word)
  /-- FPU_FMA (R109): Fused multiply-add, rounded once. -/
  | fpuFma (n : Nat) (a : Word)
  /-- FPU_DIV (R109): binary32 divide, 16 st. -/
  | fpuDiv (n : Nat) (a : Word)
  /-- FPU_SQRT (R109): binary32 square root, 16 st. -/
  | fpuSqrt (n : Nat) (a : Word)
  /-- FPU_EQ (R109): binary32 equality compare. -/
  | fpuEq (n : Nat) (a : Word)
  /-- FPU_LT (R109): binary32 less-than compare. -/
  | fpuLt (n : Nat) (a : Word)
  /-- FPU_LE (R109): binary32 less-or-equal compare. -/
  | fpuLe (n : Nat) (a : Word)
  /-- FPU_ITOF (R109): Signed integer to binary32. -/
  | fpuItof (n : Nat) (a : Word)
  /-- FPU_UTOF (R109): Unsigned integer to binary32. -/
  | fpuUtof (n : Nat) (a : Word)
  /-- FPU_FTOI (R109): binary32 to signed integer, rounding toward zero. -/
  | fpuFtoi (n : Nat) (a : Word)
  /-- FPU_DELIVERY (R109): An fpu operation delivers out and fl. -/
  | fpuDelivery (n : Nat)
  /-- FETCH_LINE_DELIVERY (R116): A requested code line is delivered to fetch from its source, or a fetch error is marked. -/
  | fetchLineDelivery (n : Nat)
  /-- STORE_DRAIN (R154): The oldest store-buffer entry, or linked pair, drains into a merge buffer, memory, a device or an alias operation. -/
  | storeDrain (n : Nat)
  /-- DEVICE_ACCESS_COMPLETION (R156): A device block acknowledges a device store, or returns a device load. -/
  | deviceAccessCompletion (n : Nat)
  /-- MERGE_WRITE_OUT (R157): An incomplete merge entry is written by read-modify-write at the end of its 16th step. -/
  | mergeWriteOut (c : Nat) (k : Nat)
  /-- BANKOWN_WRITE (R169): A write to BANKOWN is accepted and starts a handover, or is refused. -/
  | bankownWrite (m : Master) (c : Nat) (k : Nat) (v : Word)
  /-- HANDOVER_COMPLETION (R170): Merge entries are written out, OWNER changes, PEND clears and HOVER is set. -/
  | handoverCompletion (c : Nat) (k : Nat)
  /-- BANKCFG_WRITE (R178): A write to BANKCFG is accepted only from the owner or the active warden. -/
  | bankcfgWrite (m : Master) (c : Nat) (k : Nat) (v : Word)
  /-- MEMORY_FILL (R181): Every memory word is written with zero and valid check bits at power-up. -/
  | memoryFill
  /-- SCRUB_WORD (R182): The Polisher reads, corrects and writes back one word of a memory. -/
  | scrubWord (m : MemId) (w : Nat)
  /-- SCRUB_PERIOD_END (R182): A scrub period ends, and an unfinished pass is counted late. -/
  | scrubPeriodEnd
  /-- CORRECTION_HISTORY_EXPIRY (R183): A correction-history entry older than 86,400 s is freed. -/
  | correctionHistoryExpiry (m : MemId)
  /-- LOAN_START (R185): At each loan interval the Polisher lends the next 256-byte window of a bank for a march test. -/
  | loanStart (c : Nat) (k : Nat)
  /-- LOAN_RETURN (R185): A loan's test ends, and the window is restored from the shadow and returned. -/
  | loanReturn (c : Nat) (k : Nat) (bad : List Nat)
  /-- EVRAISE_WRITE (R194): A write of EVRAISE raises a doorbell or software event, or sets BADRAISE. -/
  | evraiseWrite (n : Nat) (v : Word)
  /-- EVENT_DELIVERY (R203): A raised event becomes pending at its routed target, or is coalesced and counted in EVOVF. -/
  | eventDelivery (src : Nat)
  /-- ROUTE_WRITE (R204): A write of an event route in 0x7000 to 0x7007 is checked and moves or discards the pending state. -/
  | routeWrite (src : Nat) (v : Nat)
  /-- WATCHDOG_FIRST_EXPIRY (R202): The watchdog count reaches PERIOD the first time, sets FIRST and makes cause 0x20 pending. -/
  | watchdogFirstExpiry (n : Nat)
  /-- WATCHDOG_SECOND_EXPIRY (R202): A second expiry stops the core and raises event 800 + n, or is a warden fault. -/
  | watchdogSecondExpiry (n : Nat)
  /-- WATCHDOG_KICK (R202): A write of WDCTL.KICK or PERIOD restarts the watchdog count. -/
  | watchdogKick (n : Nat) (v : Word)
  /-- SKVAL_READ (R194): A read of the socket window returns the selected socket, waiting for undelivered results. -/
  | skvalRead (n : Nat)
  /-- SKVAL_WRITE (R194): A write of the socket window loads the selected socket, or is refused. -/
  | skvalWrite (n : Nat) (v : Word)
  /-- REGISTER_WRITE (R7): A write to a device register, W1C field or dictionary entry with no row of its own acts under its access code. -/
  | registerWrite (m : Master) (dst : RegDest)
  /-- PACE_WRITE (R33): A write of a cluster's pace code in 0x2010 is checked and refused, or carried out. -/
  | paceWrite (c : Nat) (v : Nat)
  /-- MODE_SWITCH_RESUME (R35): Once every core has stopped, operations complete, buffers drain, cache and arbitration switch, and issue resumes. -/
  | modeSwitchResume (c : Nat)
  /-- ARRIVAL_LOOKUP (R221): The engine looks up the beam of an arriving non-management frame from its header. -/
  | arrivalLookup (p : Nat) (f : Frame)
  /-- BEAM_WINDOW_STORE (R223): A warden store to the beam window updates one context word indivisibly and advances VERSION. -/
  | beamWindowStore (n : Nat) (addr : Word) (v : Word)
  /-- BEAM_SELECTOR_WRITE (R224): A write of 0x6001 selects the beam for the dictionary window. -/
  | beamSelectorWrite (v : Nat)
  /-- BEAM_WINDOW_ACCESS (R224): A read or write of 0x6000 acts as a warden window access. -/
  | beamWindowAccess (sub : Nat) (wr : Option Word)
  /-- MODE_WRITE (R229): A write of a facet's MODE is checked against the lane budget and the role. -/
  | modeWrite (p : Nat) (v : Nat)
  /-- ROLE_WRITE (R235): An accepted ROLE write ends the link and starts it again from OFF. -/
  | roleWrite (p : Nat) (v : Nat)
  /-- EXPOSURE_TABLE_WRITE (R241): A write of the exposure table domain is checked whole and held as pending. -/
  | exposureTableWrite (p : Nat) (t : Octets)
  /-- CYCLE_BOUNDARY (R242): At each cycle boundary the facet sends CYC, aborts margin attempts and defers unfinished frames. -/
  | cycleBoundary (p : Nat)
  /-- PREPARATION_INSTANT (R242): At boundary minus LEAD the facet raises FEVT.PREP. -/
  | preparationInstant (p : Nat)
  /-- SLOT_OPENING (R242): A slot opens; its ACK sets are sent, then one eligible frame chosen by KIND. -/
  | slotOpening (p : Nat) (i : Nat)
  /-- UNSCHEDULED_FRAME_START (R243): An eligible unscheduled frame starts outside slots, when it fits before the next slot with GUARD. -/
  | unscheduledFrameStart (p : Nat)
  /-- RETRY_ATTEMPT (R245): A failed frame is retried in the margin, when it fits with AW before the boundary. -/
  | retryAttempt (p : Nat)
  /-- TRANSMIT_COMPLETION (R253): A sent frame reaches its EOF, and its descriptor completes with its result. -/
  | transmitCompletion (p : Nat)
  /-- TRANSMIT_DATA_ERROR (R254): The transmit DMA reads a bad word, ends the frame with ABT and completes with result 12. -/
  | transmitDataError (p : Nat)
  /-- FRAME_RECEPTION (R238): A received frame is checked in order, classified, acknowledged and stored in its ring or discarded. -/
  | frameReception (p : Nat) (f : RxFrame)
  /-- ACK_RECEPTION (R244): An ACK arrives and completes or fails its frame by STATUS. -/
  | ackReception (p : Nat) (slot : Nat) (status : Nat) (seq : Nat)
  /-- ACK_DEADLINE (R244): No ACK has arrived by the deadline, so the frame is failed and queued for retry. -/
  | ackDeadline (p : Nat)
  /-- TRN_PROBE (R247): In TRAIN the head sends a TRN probe every 1 µs. -/
  | trnProbe (p : Nat)
  /-- TRN_PROBE_RECEPTION (R248): The tail receives a probe and sends an echo. -/
  | trnProbeReception (p : Nat) (pos : Nat) (ts : Nat)
  /-- TRN_ECHO_RECEPTION (R247): The head receives an echo; after 16 it measures d and checks REVGAP. -/
  | trnEchoReception (p : Nat) (pos : Nat) (sent : Nat) (arrived : Nat)
  /-- TRN_READY_RECEPTION (R248): The tail receives TRN ready, takes d and enters SYNC. -/
  | trnReadyReception (p : Nat) (d : Nat)
  /-- TRAINING_TIMEOUT (R247): Ten ms without completing training counts a failed attempt, or restarts after a REVGAP error. -/
  | trainingTimeout (p : Nat)
  /-- CYC_RECEPTION (R248): A CYC from the other end is received and compared against the local boundary. -/
  | cycReception (p : Nat) (cyc : Nat) (ts : Nat) (arrived : Nat)
  /-- LOSS_OF_SYNCHRONISATION (R236): Four code violations within 16 characters send the link to RETRAIN. -/
  | lossOfSynchronisation (p : Nat)
  /-- LOSS_OF_SIGNAL (R247): Signal detect falls, and the link goes to RETRAIN. -/
  | lossOfSignal (p : Nat)
  /-- ETHERNET_LINK_UP (R248): In modes 4 and 5, PCS synchronisation and auto-negotiation complete, and STATE reads RUN. -/
  | ethernetLinkUp (p : Nat)
  /-- TXPOST_WRITE (R253): A write of TXPOST posts a transmit descriptor after the checks of R253. -/
  | txpostWrite (p : Nat) (lc : Nat) (v : Word)
  /-- RXFREE_WRITE (R250): A write of RXFREE frees a buffer posted with MISS = 1. -/
  | rxfreeWrite (p : Nat) (v : Word)
  /-- TXDONE_READ (R255): A read of TXDONE returns and removes a completion entry. -/
  | txdoneRead (p : Nat) (lc : Nat)
  /-- TXTS2_READ (R255): A read of TXTS2 removes the two-step timestamp entry. -/
  | txts2Read (p : Nat)
  /-- RQCFG_WRITE (R255): A write of RQCFG sets a receive queue, or is refused and sets RQREF. -/
  | rqcfgWrite (n : Nat) (v : Word)
  /-- RX_POST (R251): A good frame's descriptor is written into the owner core's queue once there is room, and RQHEAD advances. -/
  | rxPost (p : Nat)
  /-- RING_RELOAD (R250): When no buffer of the ring in force is held, the facet loads the stored RXBASE and RXN. -/
  | ringReload (p : Nat)
  /-- ERROR_WINDOW_END (R261): At each whole second the error window closes, ERRWIN is judged and the retirement criterion is checked. -/
  | errorWindowEnd (p : Nat)
  /-- SIGNAL_LOSS_TIMEOUT (R261): Signal detect stays false for more than 10 ms, a permanent facet fault. -/
  | signalLossTimeout (p : Nat)
  /-- CORE_FAULT (R266): A parity error stops the core at once and raises event 800 + n. -/
  | coreFault (n : Nat) (why : FaultWhy)
  /-- CORE_FAULT_DECISION (R268): The warden receives event 800 + n and restarts the core or retires it by its fault history. -/
  | coreFaultDecision (n : Nat)
  /-- RETIREMENT_REQUEST (R283): A write of 0x4000 + n:06 requests the retirement of a core. -/
  | retirementRequest (n : Nat) (v : Nat)
  /-- WARDEN_FAULT (R277): A warden fault of the active warden starts a failover; one of the standby raises event 778. -/
  | wardenFault (w : Nat) (why : FaultWhy) (pass : Bool)
  /-- FACET_REQUALIFICATION (R284): A write of 1 to 0x9001:05 starts a PRBS requalification of a retired facet. -/
  | facetRequalification (v : Nat)
  /-- REQUALIFICATION_END (R284): The PRBS run ends, passing and clearing the retirement, or failing. -/
  | requalificationEnd (locked : Bool) (errors : Nat)
  /-- CORE_REQUALIFICATION (R285): 0x9002 runs the ROM self-test on a retired core or warden. -/
  | coreRequalification (v : Nat) (pass : Bool)
  /-- CHANNEL_REQUALIFICATION (R285): 0x9003 runs the self-checks 16 times on a failed instrument channel. -/
  | channelRequalification (v : Nat) (pass : Bool)
  /-- FABRIC_PACKET_HOP (R289): A packet leaves a hop when the next hop has credits for it; header errors discard it. -/
  | fabricPacketHop (hop : Nat) (vc : Nat) (e : FlitError)
  /-- REMOTE_TIMEOUT (R294): A remote transmit or copy not answered within 10 µs completes with result 12, or st = 3. -/
  | remoteTimeout (n : Nat) (copy : Bool)
  /-- RTXPOST_WRITE (R293): A write of RTXPOST posts a descriptor to a facet in another cluster, or locally. -/
  | rtxpostWrite (n : Nat) (v : Word)
  /-- RTXDONE_READ (R292): A read of RTXDONE returns and removes a remote completion entry. -/
  | rtxdoneRead (n : Nat)
  /-- PRE_QUEUE_DRAIN (R296): A management frame leaves the pre-queue on VC0 when the token bucket allows. -/
  | preQueueDrain (p : Nat)
  /-- REFLEX_REQUEST (R298): The reflex unit checks a reflex body and writes its counter, or refuses it. -/
  | reflexRequest (p : Nat)
  /-- DISABLE_FACET (R299): Reflex OP 1: the facet stops as if ROLE were 0. -/
  | disableFacet (p : Nat)
  /-- KILL_BEAM (R299): Reflex OP 2: the beam is deleted as by a window store that clears VALID. -/
  | killBeam (b : Nat)
  /-- QUIESCE_CLUSTER (R299): Reflex OP 3: the cluster's cores halt at boundaries and its slots idle. -/
  | quiesceCluster (c : Nat)
  /-- WARDEN_DISABLE_FACET (R301): A write of 0x2080:01 disables a facet as OP 1, executed by the warden. -/
  | wardenDisableFacet (v : Nat)
  /-- WARDEN_KILL_BEAM (R301): A write of 0x2080:02 kills a beam as OP 2. -/
  | wardenKillBeam (v : Nat)
  /-- WARDEN_QUIESCE_CLUSTER (R301): A write of 0x2080:03 quiesces a cluster as OP 3. -/
  | wardenQuiesceCluster (v : Nat)
  /-- RELEASE_QUIESCE (R301): A write of 0x2080:04 releases a quiesced cluster. -/
  | releaseQuiesce (v : Nat)
  /-- MANAGEMENT_KEY_WRITE (R301): A write of the management key stores it and copies it into every reflex unit. -/
  | managementKeyWrite (key : Octets)
  /-- CONVERSION (R308): The converter completes a conversion every 500 ns. -/
  | channelConversion (n : Nat) (code : Int)
  /-- LOOP_BOUNDARY (R311): At each loop period boundary m, yf and OUT are computed. -/
  | loopBoundary (n : Nat)
  /-- DAC_UPDATE (R309): The DAC takes a new code at each 1 µs instant. -/
  | dacUpdate (n : Nat)
  /-- OPEN_LOOP_DETECTION (R309): In current mode, after 100 µs out of bound, OPEN changes. -/
  | openLoopDetection (n : Nat) (isOpen : Bool)
  /-- SELF_CHECK (R315): Every 10 ms the monitor checks the reference and the read-back, and counts failures. -/
  | selfCheck (n : Nat) (refOk : Bool) (backOk : Bool) (parity : Bool)
  /-- OSAFE_FORCE (R310): A write of OSAFE.FORCE, or of 0x5100 + n:08, forces the safe value. -/
  | osafeForce (n : Nat) (v : Word)
  /-- SAFE_RELEASE (R310): A write of 1 to ISTAT.SAFE releases the output, or is refused. -/
  | safeRelease (n : Nat)
  /-- ICFG_WRITE (R313): A write of ICFG changes range, drive, loop enable or filter, subject to refusal. -/
  | icfgWrite (n : Nat) (v : Word)
  /-- SCFG_WRITE (R317): A write of SCFG sets streaming and restarts SEQ at 1. -/
  | scfgWrite (n : Nat) (v : Word)
  /-- UTX_WRITE (R316): An octet is written to the RS-485 transmit FIFO, or TXOVF is set. -/
  | utxWrite (n : Nat) (v : Word)
  /-- RS485_TRANSMISSION_END (R316): TA bit times after the last stop bit the driver is disabled, and DONE is set. -/
  | rs485TransmissionEnd (n : Nat)
  /-- RS485_CHARACTER_RECEPTION (R316): A received character enters the receive FIFO with its error bits. -/
  | rs485CharacterReception (n : Nat) (d : Byte) (perr : Bool) (ferr : Bool)
  /-- URX_READ (R318): A read of URX returns and removes a received entry. -/
  | urxRead (n : Nat)
  /-- READ (R332): EDP READ returns an entry's length and first 32 octets. -/
  | edpRead (ep : Endpoint) (pdu : Octets)
  /-- WRITE (R332): EDP WRITE sets a whole value of at most 32 octets after the checks of R331. -/
  | edpWrite (ep : Endpoint) (pdu : Octets)
  /-- BLOCK_READ (R333): EDP BLOCK READ returns a segment of a long entry. -/
  | edpBlockRead (ep : Endpoint) (pdu : Octets)
  /-- BLOCK_WRITE (R333): EDP BLOCK WRITE stages a segment and writes the whole value at LAST. -/
  | edpBlockWrite (ep : Endpoint) (pdu : Octets)
  /-- STORE (R334): EDP STORE writes a new parameter-store copy with the next generation. -/
  | edpStore (ep : Endpoint) (pdu : Octets)
  /-- RESTORE (R334): EDP RESTORE writes a copy with defaults for its scope. -/
  | edpRestore (ep : Endpoint) (pdu : Octets)
  /-- SUBSCRIBE (R335): EDP SUBSCRIBE creates a periodic or on-change subscription. -/
  | edpSubscribe (ep : Endpoint) (pdu : Octets)
  /-- UNSUBSCRIBE (R335): EDP UNSUBSCRIBE ends a subscription. -/
  | edpUnsubscribe (ep : Endpoint) (pdu : Octets)
  /-- OPEN (R326): EDP OPEN allots a SID and returns the device nonce. -/
  | edpOpen (ep : Endpoint) (pdu : Octets)
  /-- PROOF (R326): EDP PROOF checks PC, answers PD and proves the session. -/
  | edpProof (ep : Endpoint) (pdu : Octets)
  /-- CLOSE (R330): EDP CLOSE ends the session it names. -/
  | edpClose (ep : Endpoint) (pdu : Octets)
  /-- PDU_FORWARD (R340): A PDU addressed to another chain node is forwarded along the relay facets, or aborted as unreachable. -/
  | pduForward (ep : Endpoint) (pdu : Octets)
  /-- SESSION_IDLE_EXPIRY (R325): A session with no valid request for the idle time ends. -/
  | sessionIdleExpiry (sid : Nat)
  /-- PROOF_TIMEOUT (R326): An opening not proved within 1 s frees its SID. -/
  | proofTimeout (sid : Nat)
  /-- STAGING_TIMEOUT (R333): A staging transfer with no segment for 10 s is discarded. -/
  | stagingTimeout (sid : Nat)
  /-- NOTIFY (R335): A subscription's interval or sample finds a notification due, and NOTIFY is sent. -/
  | edpNotify (h : Nat)
  /-- HEARTBEAT (R337): HEARTBEAT is sent every period. -/
  | edpHeartbeat
  /-- EMERGENCY (R336): A queued emergency is sent on CAN FD and to every open session. -/
  | edpEmergency
  /-- CALENDAR_WRITE (R424): A write of CALSEC, through 0x2200:01 or CALSLO, sets the calendar and clears CALSUB. -/
  | calendarWrite (v : Nat)
  /-- LOUPE_GATE_WRITE (R360): A write of 0x9000:01 changes the gate and resumes halted cores when lowered. -/
  | loupeGateWrite (v : Nat)
  /-- FACET_TEST (R361): 0x9004 runs a PRBS test on an unused facet in service. -/
  | facetTest (v : Nat)
  /-- ERROR_HISTORY_CLEAR (R348): A write of 0 to 0x1200:02 empties the error history. -/
  | errorHistoryClear
  /-- BUDGET_WRITE (R366): A write of the package budget or of a request is checked against the paced reserves. -/
  | budgetWrite (idx : Nat) (sub : Nat) (v : Nat)
  /-- KEY_SLOT_WRITE (R347): A write of a link cipher key stores it for frames more than 1 µs after the answer. -/
  | keySlotWrite (k : Nat) (key : Octets)
  /-- SESSION_KEY_WRITE (R328): A write of the operator or engineer key is stored at once. -/
  | sessionKeyWrite (sub : Nat) (key : Octets)
  /-- IMAGE_COMMIT (R392): A write of 1 to 0x2300:07 starts a commit by erasing the target slot. -/
  | imageCommit (sid : Nat) (v : Nat)
  /-- COMMIT_ERASE_END (R392): Erasure completes, and the commit moves to programming. -/
  | commitEraseEnd
  /-- COMMIT_VERIFY (R392): After the last segment the image is read back and checked, then its header is programmed. -/
  | commitVerify
  /-- COMMIT_DONE (R392): The header is programmed and verified, and the slot reads valid. -/
  | commitDone
  /-- COMMIT_INTERRUPTION (R393): No segment arrives for 10 s, and the commit is interrupted with state 3. -/
  | commitInterruption
  /-- IRIS_MEASUREMENT (R368): Every 1 µs the Iris measures each cluster and adjusts its stop-down level. -/
  | irisMeasurement (meas : List Nat) (shared : Nat) (vcore : Nat)
  /-- ALLOTMENT_RECOMPUTATION (R364): Every 1 ms, or after a change, the warden recomputes the allotments. -/
  | allotmentRecomputation
  /-- THERMAL_READING (R372): Every 100 µs the quadrant sensors are read and the thermal state changes. -/
  | thermalReading (temps : List Int)
  /-- THERMAL_PACE_DROP (R372): Each further 10 ms above 115 °C drops each paced cluster one more pace. -/
  | thermalPaceDrop (q : Nat)
  /-- POWER_ON_RESET (R404): A monitor below its falling threshold for more than 2 µs, or first power, resets the device. -/
  | powerOnReset (r : Rail)
  /-- POWER_GOOD (R400): 1 ms after every monitor is good PGOOD goes high, and stage 2 ends. -/
  | powerGood
  /-- PIN_RESET (R400): RESET_N low for 1 µs or more starts a pin reset. -/
  | pinReset
  /-- PFAIL_ASSERTION (R401): PFAIL_N asserted raises event 770, ends loans, abandons flash work and writes the last gasp. -/
  | pfailAssertion
  /-- PFAIL_RELEASE (R401): PFAIL_N released with supplies good ends abandoned operations with failure. -/
  | pfailRelease
  /-- WARM_RESET (R404): A write of 0xA55A to 0x2001:01 answers, then starts a warm reset. -/
  | warmReset (v : Nat)
  /-- CLUSTER_RESET (R407): A write of 0x2001:02 resets one cluster's cores and registers and reloads its sections. -/
  | clusterReset (v : Nat)
  /-- CORE_RESET (R406): A write of 0x2001:03 resets one core and re-releases it. -/
  | coreReset (v : Nat)
  /-- FUSE_LOAD (R408): Stage 3 loads fuses, samples the straps and reads the parameter store. -/
  | fuseLoad (straps : BitVec 3)
  /-- FLASH_DIE_WAKE (R408): Stage 4 wakes the flash die. -/
  | flashDieWake
  /-- WARDEN_ROM (R410): Stage 6: the wardens self-test, the active one is chosen, and CAN FD and the dictionary start. -/
  | wardenRom (pass0 : Bool) (pass1 : Bool)
  /-- IMAGE_SELECT (R411): Stage 7 checks candidate slots and chooses the image in force, or safe mode. -/
  | imageSelect
  /-- LOADER (R387): Stage 8 applies stored values, checks the image and instantiates, copies and relocates sections. -/
  | loaderStage
  /-- CORE_RELEASE (R389): Stage 9 releases the cores in their initial state, and the wardens clear BARE. -/
  | coreRelease
  /-- BACKUP_SUPPLY_CHANGEOVER (R398): The backup domain changes between VIO 3.3 V and VBAT. -/
  | backupSupplyChangeover (vbat : Bool)
  /-- TBADJ_WRITE (R419): A write of TBADJ sets the timebase rate offset from the next 4 ns boundary. -/
  | tbadjWrite (v : Word)
  /-- TBSTEP_WRITE (R419): A write of TBSTEP steps the timebase, or is refused while links run. -/
  | tbstepWrite (v : Word)
  /-- PTP_SYNC_MEASUREMENT (R421): A PTP Sync exchange gives an offset measurement to the servo. -/
  | ptpSyncMeasurement (p : Nat) (off : Int)
  /-- CALENDAR_SECOND (R423): The calendar counts a second, applying leap seconds, the alarm and the wrap. -/
  | calendarSecond
  /-- DISCIPLINE_TIMEOUT (R420): No measurement arrives within the source's time, so discipline unlocks into holdover. -/
  | disciplineTimeout
  /-- CALENDAR_SET_FROM_PTP (R421): Each minute with PTP locked, the warden sets the calendar from the timebase. -/
  | calendarSetFromPtp
  /-- CALTRIM_UPDATE (R424): Each hour with PTP locked, the warden sets CALTRIM. -/
  | caltrimUpdate (trim : Int)
  /-- TIMEBASE_ALARM (R426): The timebase reaches an armed alarm instant, and event 736 + i is raised. -/
  | timebaseAlarm (i : Nat)
  /-- WHOLE_SECOND (R427): The timebase passes a multiple of 10^9 ns, and event 742 is raised. -/
  | wholeSecond
  /-- VBAT_CHECK (R425): Every 10 s VBAT is checked, and VBATLOW is set below 2.2 V. -/
  | vbatCheck (mv : Nat)
  /-- OSCILLATOR_STOP (R425): No calendar crystal edge for 2 ms sets OSCSTOP. -/
  | oscillatorStop
  /-- BACKUP_POWER_LOSS (R425): VIO 3.3 V and VBAT below 1.6 V lose the backup contents and set INVALID. -/
  | backupPowerLoss
  /-- TBCLO_READ (R426): A read of TBCLO latches the upper timebase word into TBCHI. -/
  | tbcloRead
  /-- CALSLO_READ (R426): A read of CALSLO latches CALSHI, CALSUB, CALDATE and CALTIME. -/
  | calsloRead
  /-- TEST_LOGIC_RESET (R461): The TAP enters Test-Logic-Reset and loads IDCODE. -/
  | testLogicReset
  /-- IDCODE (R461): TAP instruction returning the 32-bit identity. -/
  | tapIdcode
  /-- SAMPLE_PRELOAD (R461): TAP instruction sampling or preloading the boundary register. -/
  | tapSamplePreload (pins : List Bool) (load : List Bool)
  /-- EXTEST (R461): TAP instruction driving the balls from the boundary register. -/
  | tapExtest
  /-- EXTEST_PULSE (R461): IEEE 1149.6 pulse test on the lane balls. -/
  | tapExtestPulse
  /-- EXTEST_TRAIN (R461): IEEE 1149.6 train test on the lane balls. -/
  | tapExtestTrain
  /-- HIGHZ (R461): TAP instruction placing outputs at high impedance. -/
  | tapHighz
  /-- CLAMP (R461): TAP instruction clamping outputs from the boundary register. -/
  | tapClamp
  /-- LOUPE (R462): TAP instruction selecting the access register; the first after reset counts a connection. -/
  | tapLoupe
  /-- FUSE (R469): TAP instruction selecting the fuse register. -/
  | tapFuse
  /-- BYPASS (R461): TAP bypass instruction, also taken by unlisted or disallowed codes. -/
  | tapBypass
  /-- LOUPE_READ (R463): An access-register read of a 32-bit word at Update-DR. -/
  | loupeRead (addr : Word)
  /-- LOUPE_WRITE (R463): An access-register write of a 32-bit word at Update-DR. -/
  | loupeWrite (addr : Word) (v : Word)
  /-- LOUPE_ACCESS_COMPLETION (R463): A busy Loupe access completes with its status and data. -/
  | loupeAccessCompletion
  /-- LOUPE_HALT_REQUEST (R464): A write of LCTL.HALT requests a halt. -/
  | loupeHaltRequest (n : Nat)
  /-- LOUPE_HALT (R465): A requested or breakpoint halt is taken at the next boundary. -/
  | loupeHalt (n : Nat)
  /-- BREAKPOINT_HALT (R465): An enabled breakpoint halts the core before the bundle it names. -/
  | breakpointHalt (n : Nat)
  /-- LOUPE_RESUME (R465): A write of LCTL.RESUME resumes issue. -/
  | loupeResume (n : Nat)
  /-- LOUPE_STEP (R466): A write of LCTL.STEP issues one bundle, pair or iteration, then halts. -/
  | loupeStep (n : Nat)
  /-- SETBARE (R464): A write of LCTL.SETBARE sets PSW.BARE while halted. -/
  | setbare (n : Nat)
  /-- LPC_WRITE (R466): A write of LPC while halted names the next bundle. -/
  | lpcWrite (n : Nat) (v : Word)
  /-- LSKVAL_ACCESS (R467): A halted core's socket is read or written through the Loupe window. -/
  | lskvalAccess (n : Nat) (wr : Option Word)
  /-- TRCTL_WRITE (R468): A write of TRCTL configures the trace and resets its count. -/
  | trctlWrite (c : Nat) (v : Word)
  /-- FUSE_PROGRAM (R469): Update-DR with the program bit blows a fuse, or sets the error bit. -/
  | fuseProgram (i : Nat)
  /-- FTCTL_WRITE (R470): A write of FTCTL sets loopback and pattern, or is refused. -/
  | ftctlWrite (p : Nat) (v : Word)
  /-- BIT_INJECTION (R470): FTCTL.INJ inverts one transmitted bit. -/
  | bitInjection (p : Nat)
  /-- SIGNAL_DETECT_RETURN (R261): A lane's signal detect becomes true again, ending the loss-of-signal count and letting the receiver lock and training proceed. -/
  | signalDetectReturn (p : Nat)
  /-- STORE_COMPLETION (R334): A STORE or RESTORE finishes writing and verifying its copy, makes it active or fails, and is answered. -/
  | storeCompletion (ok : Bool)
  /-- SUBSCRIPTION_IDLE_EXPIRY (R335): A SID 0 subscription ends when its endpoint has sent no request for the time of 0x1110:03. -/
  | subscriptionIdleExpiry (h : Nat)
  /-- ANNOUNCE_RECEPTION (R421): The PTP servo takes an Announce message, runs the best-master comparison and takes currentUtcOffset and the leap flags from which the warden writes CALLEAP. -/
  | announceReception (p : Nat) (a : Announce)
  /-- BUS_OFF_RECOVERY (R338): The CAN FD port leaves bus-off under ISO 11898-1 recovery, and the recovery is counted. -/
  | busOffRecovery
  deriving DecidableEq, Repr

end Sys2Proof
end

