-- ==== Sys2Proof/WellFormed.lean ====
section
/-! DEFINITION. Which commands are well formed: their operands name resources the device family has (R11, R13, R16, R17, R203). -/

namespace Sys2Proof

/-- A Lens core 0 to 127, W0 or W1 (R13, R17). -/
def wfCore (n : Nat) : Bool := decide (n < 130)

/-- A cluster, a bank or local core, a facet, an instrument channel, an event source (R11, R13, R16, R166, R203, R303). -/
def wfCluster (c : Nat) : Bool := decide (c < 32)
def wfLocal (k : Nat) : Bool := decide (k < 4)
def wfFacet (p : Nat) : Bool := decide (p < 256)
def wfChan (n : Nat) : Bool := decide (n < 16)
def wfSource (i : Nat) : Bool := decide (i < 1024)

/-- A master of a register access (R145, R319, R463). -/
def wfMaster : Master → Bool
  | .core n => wfCore n
  | .engine => true
  | .loupe => true

/-- A unit of a memory (R166). -/
def wfMem : MemId → Bool
  | .scratch n => wfCore n
  | .mgmtXram => true
  | .bank c k => wfCluster c && wfLocal k
  | .xram c => wfCluster c
  | .bitStore c => wfCluster c
  | .beamSram q => decide (q < 4)

/-- A command whose operands lie in their ranges. -/
def Instr.wf : Instr → Bool
  | .bundleIssue n => wfCore n
  | .fillBundle n => wfCore n
  | .repeatIteration n => wfCore n
  | .breakBundle n => wfCore n
  | .exceptionEntry n => wfCore n
  | .aluAdd n _ _ => wfCore n
  | .aluSub n _ _ => wfCore n
  | .aluAnd n _ _ => wfCore n
  | .aluOr n _ _ => wfCore n
  | .aluXor n _ _ => wfCore n
  | .aluAndn n _ _ => wfCore n
  | .aluShl n _ _ => wfCore n
  | .aluShr n _ _ => wfCore n
  | .aluSar n _ _ => wfCore n
  | .aluRotl n _ _ => wfCore n
  | .aluEq n _ _ => wfCore n
  | .aluLt n _ _ => wfCore n
  | .aluLtu n _ _ => wfCore n
  | .mulMulu n _ => wfCore n
  | .mulMuls n _ => wfCore n
  | .mulMulsu n _ => wfCore n
  | .mulProductDelivery n => wfCore n
  | .divQuo n _ => wfCore n
  | .divQuos n _ => wfCore n
  | .divDelivery n => wfCore n
  | .lsuLd8u n _ => wfCore n
  | .lsuLd8s n _ => wfCore n
  | .lsuLd16u n _ => wfCore n
  | .lsuLd16s n _ => wfCore n
  | .lsuLd32 n _ => wfCore n
  | .lsuSt8 n _ => wfCore n
  | .lsuSt16 n _ => wfCore n
  | .lsuSt32 n _ => wfCore n
  | .lsuXchg32 n _ => wfCore n
  | .loadDelivery n _ => wfCore n
  | .bituTst n _ => wfCore n
  | .bituSet n _ => wfCore n
  | .bituClr n _ => wfCore n
  | .bituTgl n _ => wfCore n
  | .bituTas n _ => wfCore n
  | .bituAnd n _ => wfCore n
  | .bituOr n _ => wfCore n
  | .bituXor n _ => wfCore n
  | .bituAndn n _ => wfCore n
  | .ctlJmp n _ => wfCore n
  | .ctlJr n _ => wfCore n
  | .ctlCall n _ => wfCore n
  | .ctlCallr n _ => wfCore n
  | .ctlRet n _ => wfCore n
  | .ctlEret n _ => wfCore n
  | .ctlTrap n _ => wfCore n
  | .ctlLoop n _ => wfCore n
  | .ctlFlush n _ => wfCore n
  | .ctlFence n _ => wfCore n
  | .ctlHush n _ => wfCore n
  | .hushWindowClose n => wfCore n
  | .ctlSleep n _ => wfCore n
  | .sleepWake n => wfCore n
  | .ctlHalt n _ => wfCore n
  | .copyMove n _ => wfCore n
  | .copyFill n _ => wfCore n
  | .copyCrc n _ => wfCore n
  | .copyPark n _ => wfCore n
  | .copyResume n _ => wfCore n
  | .copyCompletion n => wfCore n
  | .copyDataErrorStop n => wfCore n
  | .remoteCopyRefusal n => wfCore n
  | .beamFind n _ => wfCore n
  | .beamLock n _ => wfCore n
  | .beamCommit n _ => wfCore n
  | .beamDrop n _ => wfCore n
  | .beamNew n _ => wfCore n
  | .beamOperationDelivery n => wfCore n
  | .fpuAdd n _ => wfCore n
  | .fpuSub n _ => wfCore n
  | .fpuMul n _ => wfCore n
  | .fpuFma n _ => wfCore n
  | .fpuDiv n _ => wfCore n
  | .fpuSqrt n _ => wfCore n
  | .fpuEq n _ => wfCore n
  | .fpuLt n _ => wfCore n
  | .fpuLe n _ => wfCore n
  | .fpuItof n _ => wfCore n
  | .fpuUtof n _ => wfCore n
  | .fpuFtoi n _ => wfCore n
  | .fpuDelivery n => wfCore n
  | .fetchLineDelivery n => wfCore n
  | .storeDrain n => wfCore n
  | .deviceAccessCompletion n => wfCore n
  | .mergeWriteOut c k => wfCluster c && wfLocal k
  | .bankownWrite m c k _ => wfMaster m && wfCluster c && wfLocal k
  | .handoverCompletion c k => wfCluster c && wfLocal k
  | .bankcfgWrite m c k _ => wfMaster m && wfCluster c && wfLocal k
  | .memoryFill => true
  | .scrubWord m _ => wfMem m
  | .scrubPeriodEnd => true
  | .correctionHistoryExpiry m => wfMem m
  | .loanStart c k => wfCluster c && wfLocal k
  | .loanReturn c k _ => wfCluster c && wfLocal k
  | .evraiseWrite n _ => wfCore n
  | .eventDelivery src => wfSource src
  | .routeWrite src v => wfSource src && decide (v < 65536)
  | .watchdogFirstExpiry n => wfCore n
  | .watchdogSecondExpiry n => wfCore n
  | .watchdogKick n _ => wfCore n
  | .skvalRead n => wfCore n
  | .skvalWrite n _ => wfCore n
  | .registerWrite m _ => wfMaster m
  | .paceWrite c v => wfCluster c && decide (v < 4294967296)
  | .modeSwitchResume c => wfCluster c
  | .arrivalLookup p _ => wfFacet p
  | .beamWindowStore n _ _ => wfCore n
  | .beamSelectorWrite v => decide (v < 4294967296)
  | .beamWindowAccess sub _ => decide (sub < 256)
  | .modeWrite p v => wfFacet p && decide (v < 4294967296)
  | .roleWrite p v => wfFacet p && decide (v < 4294967296)
  | .exposureTableWrite p _ => wfFacet p
  | .cycleBoundary p => wfFacet p
  | .preparationInstant p => wfFacet p
  | .slotOpening p i => wfFacet p && decide (i < 512)
  | .unscheduledFrameStart p => wfFacet p
  | .retryAttempt p => wfFacet p
  | .transmitCompletion p => wfFacet p
  | .transmitDataError p => wfFacet p
  | .frameReception p _ => wfFacet p
  | .ackReception p _ _ _ => wfFacet p
  | .ackDeadline p => wfFacet p
  | .trnProbe p => wfFacet p
  | .trnProbeReception p _ _ => wfFacet p
  | .trnEchoReception p _ _ _ => wfFacet p
  | .trnReadyReception p _ => wfFacet p
  | .trainingTimeout p => wfFacet p
  | .cycReception p _ _ _ => wfFacet p
  | .lossOfSynchronisation p => wfFacet p
  | .lossOfSignal p => wfFacet p
  | .ethernetLinkUp p => wfFacet p
  | .txpostWrite p lc _ => wfFacet p && wfLocal lc
  | .rxfreeWrite p _ => wfFacet p
  | .txdoneRead p lc => wfFacet p && wfLocal lc
  | .txts2Read p => wfFacet p
  | .rqcfgWrite n _ => wfCore n
  | .rxPost p => wfFacet p
  | .ringReload p => wfFacet p
  | .errorWindowEnd p => wfFacet p
  | .signalLossTimeout p => wfFacet p
  | .coreFault n _ => wfCore n
  | .coreFaultDecision n => wfCore n
  | .retirementRequest n v => wfCore n && decide (v < 256)
  | .wardenFault w _ _ => w == 128 || w == 129
  | .facetRequalification v => decide (v < 4294967296)
  | .requalificationEnd _ _ => true
  | .coreRequalification v _ => decide (v < 4294967296)
  | .channelRequalification v _ => decide (v < 4294967296)
  | .fabricPacketHop hop vc _ => decide (hop < 88) && decide (vc < 3)
  | .remoteTimeout n _ => wfCore n
  | .rtxpostWrite n _ => wfCore n
  | .rtxdoneRead n => wfCore n
  | .preQueueDrain p => wfFacet p
  | .reflexRequest p => wfFacet p
  | .disableFacet p => wfFacet p
  | .killBeam b => decide (b < 65536)
  | .quiesceCluster c => wfCluster c
  | .wardenDisableFacet v => decide (v < 4294967296)
  | .wardenKillBeam v => decide (v < 4294967296)
  | .wardenQuiesceCluster v => decide (v < 4294967296)
  | .releaseQuiesce v => decide (v < 4294967296)
  | .managementKeyWrite _ => true
  | .channelConversion n _ => wfChan n
  | .loopBoundary n => wfChan n
  | .dacUpdate n => wfChan n
  | .openLoopDetection n _ => wfChan n
  | .selfCheck n _ _ _ => wfChan n
  | .osafeForce n _ => wfChan n
  | .safeRelease n => wfChan n
  | .icfgWrite n _ => wfChan n
  | .scfgWrite n _ => wfChan n
  | .utxWrite n _ => wfChan n
  | .rs485TransmissionEnd n => wfChan n
  | .rs485CharacterReception n _ _ _ => wfChan n
  | .urxRead n => wfChan n
  | .edpRead _ _ => true
  | .edpWrite _ _ => true
  | .edpBlockRead _ _ => true
  | .edpBlockWrite _ _ => true
  | .edpStore _ _ => true
  | .edpRestore _ _ => true
  | .edpSubscribe _ _ => true
  | .edpUnsubscribe _ _ => true
  | .edpOpen _ _ => true
  | .edpProof _ _ => true
  | .edpClose _ _ => true
  | .pduForward _ _ => true
  | .sessionIdleExpiry _ => true
  | .proofTimeout _ => true
  | .stagingTimeout _ => true
  | .edpNotify _ => true
  | .edpHeartbeat => true
  | .edpEmergency => true
  | .calendarWrite v => decide (v < 18446744073709551616)
  | .loupeGateWrite v => decide (v < 4294967296)
  | .facetTest v => decide (v < 4294967296)
  | .errorHistoryClear => true
  | .budgetWrite idx sub _ => (idx == 0x2100 && sub == 1) || (idx == 0x2101 && decide (1 ≤ sub) && decide (sub ≤ 32))
  | .keySlotWrite k _ => decide (1 ≤ k) && decide (k ≤ 8)
  | .sessionKeyWrite sub _ => sub == 1 || sub == 2
  | .imageCommit _ v => decide (v < 4294967296)
  | .commitEraseEnd => true
  | .commitVerify => true
  | .commitDone => true
  | .commitInterruption => true
  | .irisMeasurement _ _ _ => true
  | .allotmentRecomputation => true
  | .thermalReading _ => true
  | .thermalPaceDrop q => decide (q < 4)
  | .powerOnReset _ => true
  | .powerGood => true
  | .pinReset => true
  | .pfailAssertion => true
  | .pfailRelease => true
  | .warmReset v => decide (v < 4294967296)
  | .clusterReset v => decide (v < 4294967296)
  | .coreReset v => decide (v < 4294967296)
  | .fuseLoad _ => true
  | .flashDieWake => true
  | .wardenRom _ _ => true
  | .imageSelect => true
  | .loaderStage => true
  | .coreRelease => true
  | .backupSupplyChangeover _ => true
  | .tbadjWrite _ => true
  | .tbstepWrite _ => true
  | .ptpSyncMeasurement p _ => wfFacet p
  | .calendarSecond => true
  | .disciplineTimeout => true
  | .calendarSetFromPtp => true
  | .caltrimUpdate _ => true
  | .timebaseAlarm i => decide (i < 4)
  | .wholeSecond => true
  | .vbatCheck _ => true
  | .oscillatorStop => true
  | .backupPowerLoss => true
  | .tbcloRead => true
  | .calsloRead => true
  | .testLogicReset => true
  | .tapIdcode => true
  | .tapSamplePreload pins load => decide (pins.length = load.length)
  | .tapExtest => true
  | .tapExtestPulse => true
  | .tapExtestTrain => true
  | .tapHighz => true
  | .tapClamp => true
  | .tapLoupe => true
  | .tapFuse => true
  | .tapBypass => true
  | .loupeRead _ => true
  | .loupeWrite _ _ => true
  | .loupeAccessCompletion => true
  | .loupeHaltRequest n => wfCore n
  | .loupeHalt n => wfCore n
  | .breakpointHalt n => wfCore n
  | .loupeResume n => wfCore n
  | .loupeStep n => wfCore n
  | .setbare n => wfCore n
  | .lpcWrite n _ => wfCore n
  | .lskvalAccess n _ => wfCore n
  | .trctlWrite c _ => wfCluster c
  | .fuseProgram i => decide (i < 257)
  | .ftctlWrite p _ => wfFacet p
  | .bitInjection p => wfFacet p
  | .signalDetectReturn p => wfFacet p
  | .storeCompletion _ => true
  | .subscriptionIdleExpiry _ => true
  | .announceReception p _ => wfFacet p
  | .busOffRecovery => true

end Sys2Proof
end

