-- ==== Sys2Proof/Config.lean ====
section
/-! DEFINITION. What an implementation fixes and the spec leaves open: constants with no body. Nothing can be proved about
their values, so a statement holds whatever they are. -/

namespace Sys2Proof

/-- FREE VALUE: the words a copy operation has processed when it is parked; R104 promises only that the number grows
(log entry 8). Applied to the free-value counter and the words of the whole operation. -/
opaque Config.copyProgress : Nat → Nat → Nat

/-- FREE VALUE: which of the free SIDs an OPEN is answered with (R326; log entry 9). -/
opaque Config.pickSid : Nat → Nat

/-- FREE VALUE: which of the free handles a SUBSCRIBE is answered with (R330, R335; log entry 9). -/
opaque Config.pickHandle : Nat → Nat

/-- FREE VALUE: the device's 16-octet nonce of an OPEN (R326; log entry 9). -/
opaque Config.nonce : Nat → BitVec 128

/-- IMPLEMENTATION: the contents of the warden ROM, which the spec does not list (R143, R410; log entry 10). -/
opaque Config.romByte : Nat → Byte

/-- IMPLEMENTATION: the die number of 0x1000:05, unique to each part (R345; log entry 11). -/
opaque Config.dieNumber : Nat

/-- IMPLEMENTATION: whether Ed25519 verification checks the group equation multiplied by its cofactor, which RFC 8032 leaves open (R385; log
entry 12). -/
opaque Config.edCofactor : Bool

/-- FREE VALUE: the rate offset the discipline servo sets from a measured offset; R420 names the register it sets and no
control law (log entry 13). Applied to the free-value counter and the offset. -/
opaque Config.servoAdj : Nat → Int → Int

/-- FREE VALUE: the data field of a Loupe access that reads nothing (R463; log entry 30). -/
opaque Config.loupeData : Nat → Word

/-- FREE VALUE: header fields of an answer that no rule names (log entry 26): SEQ, CHAN and CLASS of a Beam link answer, TOS, identification and
DF of an IPv4 one, TID of a PDU sent unrequested. Applied to the free-value counter. -/
opaque Config.answerField : Nat → Word

/-- FREE VALUE: points of the fpu flags that R109 leaves open (log entry 15): 0 tininess is found before rounding, 1 a
signalling NaN operand sets invalid, 2 a quiet NaN operand of `lt` or `le` sets invalid, 3 `fma` of a zero, an infinity and a
NaN addend sets invalid. -/
opaque Config.flagChoice : Nat → Bool

/-- FREE VALUE: whether a step of a paced cluster was late in the time that a measurement of VCORE below 0.70 V covers (R37; log entry 48).
Applied to the free-value counter and the cluster. -/
opaque Config.lateStep : Nat → Nat → Bool

/-- FREE VALUE: whether the write of a copy in flight to a word is pending as another master's write of it is granted (R172, R175; log entry 109).
Applied to the free-value counter, the core of the copy and the word. -/
opaque Config.pendingWrite : Nat → Nat → Nat → Bool

/-- FREE VALUE: whether the link partner of a facet advertises full duplex in clause 37 auto-negotiation (R232; log entry 116): the partner's
choice. Applied to the free-value counter and the facet. -/
opaque Config.partnerFd : Nat → Nat → Bool

/-- FREE VALUE: the code violations inside a frame that failed order 1 of R238 (R236, R261; log entry 117): FRAME_RECEPTION says only that there
was one, or an ABT. Applied to the free-value counter. -/
opaque Config.violations : Nat → Nat

end Sys2Proof
end

