-- ==== Sys2Proof/Machine/StateChannel.lean ====
section
/-! DEFINITION. The state of an instrument channel (R306 to R318). The RWS fields of its registers are the entries of 0x5000 + n and are held
there (R319). -/

namespace Sys2Proof.Machine

/-- A received RS-485 character with its error bits (R316, R318). -/
structure RxChar where
  data : Byte
  perr : Bool
  ferr : Bool
  deriving DecidableEq, Repr

/-- The configuration the loop takes at its next boundary: SP, KP, KI, KD, OLO, OHI, SLEW, FILT (R313). -/
structure LoopCfg where
  sp   : Int
  kp   : Int
  ki   : Int
  kd   : Int
  olo  : Nat
  ohi  : Nat
  slew : Nat
  filt : Nat
  deriving DecidableEq, Repr

/-- A channel: SP and OMAN as written; the loop values in force and each write since, with its instant (R313); OMAN as the DAC takes it and
its writes since; MEAS, YF, the integrator and yprev (`started`: a first boundary has been); conversions of the period (count and sum); OUT, the
code computed and not yet taken by the DAC; ISTAT, IEVEN; the trip conditions; whether the loop restarts at the next boundary and whether a
change of OMODE waits for the DAC; when the DAC last changed and OPEN last changed; the instants of the last conversion, boundary, DAC update
and self-check; streaming (boundaries since a record, a record due, SEQ, the entry); the RS-485 line: FIFOs, driver, when the last character
started ends (250 ps), octets sent and not yet echoed, the W1C bits of USTAT. -/
structure Channel where
  sp     : Int
  oman   : Nat
  cfgNow : LoopCfg
  snaps  : List (Nat × LoopCfg)
  omanNow : Nat
  omans  : List (Nat × Nat)
  meas   : Int
  yf     : Int
  i      : Int
  yprev  : Int
  started : Bool
  convN  : Nat
  convSum : Int
  out    : Nat
  next   : Option Nat
  istat  : BitVec 11
  ieven  : BitVec 11
  hiAct  : Bool
  loAct  : Bool
  restart : Bool
  modeNew : Bool
  dacAt  : Nat
  openAt : Nat
  lastConv : Nat
  lastLoop : Nat
  lastDac : Nat
  lastCheck : Nat
  recCnt : Nat
  recDue : Bool
  seq    : Nat
  entry  : Nat
  txf    : Octets
  driver : Bool
  txEnd  : Nat
  echo   : Octets
  rxf    : List RxChar
  ustat  : BitVec 21
  deriving DecidableEq, Repr

def LoopCfg.reset : LoopCfg := { sp := 0, kp := 0, ki := 0, kd := 0, olo := 0, ohi := 0, slew := 0, filt := 0 }

/-- A channel after power-on and pin reset (R318). -/
def Channel.reset : Channel :=
  { sp := 0, oman := 0, cfgNow := LoopCfg.reset, snaps := [], omanNow := 0, omans := [], meas := 0, yf := 0, i := 0, yprev := 0, started := false,
    convN := 0, convSum := 0, out := 0, next := none, istat := 0, ieven := 0x400#11, hiAct := false, loAct := false, restart := false,
    modeNew := false, dacAt := 0, openAt := 0, lastConv := 0, lastLoop := 0, lastDac := 0, lastCheck := 0, recCnt := 0, recDue := false, seq := 1,
    entry := 0, txf := [], driver := false, txEnd := 0, echo := [], rxf := [], ustat := 0 }

end Sys2Proof.Machine
end

