-- ==== Sys2Proof/Machine/StateCluster.lean ====
section
/-! DEFINITION. The state of the shared memories and of the beam engines: banks, clusters, beam contexts, quadrants. -/

namespace Sys2Proof.Machine

/-- A merge-buffer entry (R157): global word number (byte address div 8), byte mask, data, the core whose store opened it
and the step of that core in which it opened. -/
structure MergeEntry where
  word   : Nat
  mask   : Byte
  data   : BitVec 64
  core   : Nat
  opened : Nat
  deriving DecidableEq, Repr

/-- A correction-history entry (R183): the word (its global number names its memory too), the corrections counted and the
timebase of the first. -/
structure Corr where
  word  : Nat
  count : Nat
  first : Nat
  deriving DecidableEq, Repr

/-- An active Polisher loan (R185): the window (256-byte number within the bank) and the shadow buffer, the 32 words with
their ECC state. -/
structure Loan where
  win    : Nat
  shadow : List (BitVec 64 × Nat)
  deriving DecidableEq, Repr

/-- One bank with its registers (R178), merge buffer, remap table (words now in a spare), correction history and loan. `pend` is the new
owner of a handover in progress; entries of the old owner's store buffer numbered below `pendId` go before it (R170). -/
structure Bank where
  owner   : Nat
  pend    : Option Nat
  pendId  : Nat
  noloan  : Bool
  fopen   : Bool
  degr    : Bool
  refused : Bool
  hovf    : Nat
  col0    : Word
  col1    : Word
  merge   : List MergeEntry
  remap   : List Nat
  hist    : List Corr
  loan    : Option Loan
  nextWin : Nat
  lastLoan : Nat
  deriving DecidableEq, Repr

/-- A trace entry of the cluster trace (R468): local core, kind, the two offsets and the timebase low word. -/
structure TraceEntry where
  w0 : Word
  w1 : Word
  w2 : Word
  w3 : Word
  deriving DecidableEq, Repr

/-- A beam context (R212) with, for the holder of the lock, the version at the lock (R217). -/
structure BeamCtx where
  key      : Word
  valid    : Bool
  relay    : Bool
  locked   : Bool
  poison   : Bool
  egress   : Byte
  owner    : Byte
  locker   : Byte
  version  : BitVec 16
  rxseq    : BitVec 16
  txseq    : BitVec 16
  rxframes : Word
  rxbytes  : Word
  txframes : Word
  drops    : Word
  heldrx   : Byte
  heldtx   : Byte
  user     : List Word
  lockVer  : BitVec 16
  deriving DecidableEq, Repr

/-- A copy of a context in a cluster's beam cache, with its version and ID (R220). -/
structure CacheLine where
  beam    : Nat
  version : Nat
  copy    : BeamCtx
  deriving DecidableEq, Repr

/-- The kinds of request of the flash read channel, in the order one core's are served (R117). -/
inductive FlashKind where
  | demand | load | speculative
  deriving DecidableEq, Repr

/-- A request the flash read channel has started: the core, the 512-bit line (physical address div 64), the kind (R117). -/
structure FlashReq where
  core : Nat
  line : Nat
  kind : FlashKind
  deriving DecidableEq, Repr

/-- What an answer sent later needs of its request (R331, R335): the endpoint and the node ID it goes to, CMD, TID and SID, the index and
subindex the request named, and its SEQ when it carried a tail. -/
structure Reply where
  ep   : Endpoint
  node : Nat
  cmd  : Nat
  tid  : Nat
  sid  : Nat
  idx  : Nat
  sub  : Nat
  seq  : Option Nat
  deriving DecidableEq, Repr

/-- One cluster: pace status (R32), the code of the mode switch in progress with the request it
answers, the writes waiting for it, oldest first (R35), the contract-overrun
counter (R42), the line the flash read channel serves and the local core it served last (R117), the registers of R178, the shared correction history (R183), the beam cache (R220), the trace (R468), whether a
reflex holds it quiesced (R299), its copy of the management key's accepted counter is in the reflex unit. -/
structure Cluster where
  pace    : Nat
  broken  : Bool
  why     : Nat
  sw      : Option Nat
  swAns   : Option Reply
  sw2     : List (Nat × Option Reply)
  overrun : Nat
  flash   : Option FlashReq
  flashLast : Nat
  classic : Bool
  clevt   : Word
  cleven  : Word
  xcol0   : Word
  xcol1   : Word
  bcol0   : Word
  bcol1   : Word
  conf    : Tab Nat
  banks   : Tab Bank
  hist    : List Corr
  cache   : List CacheLine
  quiesced : Bool
  trctl   : Word
  trsel   : Byte
  trace   : List TraceEntry
  deriving DecidableEq, Repr

/-- The beam engine of a quadrant (R226), its correction history and remapped words (R225). -/
structure Quad where
  bethr  : BitVec 16
  beevt  : Byte
  beeven : Byte
  bemiss : Word
  degr   : Bool
  remap  : List Nat
  hist   : List Corr
  deriving DecidableEq, Repr

/-- Bank `k` after reset: owned by local core `k` (R168). -/
def Bank.reset (k : Nat) : Bank :=
  { owner := k, pend := none, pendId := 0, noloan := false, fopen := false, degr := false, refused := false, hovf := 0, col0 := 0,
    col1 := 0, merge := [], remap := [], hist := [], loan := none, nextWin := 0, lastLoan := 0 }

/-- A cluster after reset (R32, R178): CLARB.CLASSIC 1; the always-enabled CLEVEN bits [11:8], [19:16], [26:24] read 1. -/
def Cluster.reset : Cluster :=
  { pace := 0, broken := false, why := 0, sw := none, swAns := none, sw2 := [], overrun := 0, flash := none, flashLast := 3, classic := true, clevt := 0,
    cleven := 0x070F0F00#32, xcol0 := 0, xcol1 := 0, bcol0 := 0, bcol1 := 0, conf := [], banks := [], hist := [],
    cache := [], quiesced := false, trctl := 0, trsel := 0, trace := [] }

/-- A context after the power-up fill: every field 0 (R212). -/
def BeamCtx.free : BeamCtx :=
  { key := 0, valid := false, relay := false, locked := false, poison := false, egress := 0, owner := 0, locker := 0,
    version := 0, rxseq := 0, txseq := 0, rxframes := 0, rxbytes := 0, txframes := 0, drops := 0, heldrx := 0,
    heldtx := 0, user := [0, 0, 0, 0, 0, 0, 0], lockVer := 0 }

/-- A quadrant's engine after reset (R226). -/
def Quad.reset : Quad :=
  { bethr := 0x3800#16, beevt := 0, beeven := 0x21#8, bemiss := 0, degr := false, remap := [], hist := [] }

end Sys2Proof.Machine
end

