-- ==== Sys2Proof/Machine/StateCore.lean ====
section
/-! DEFINITION. The state of one Lens core or warden: registers, sockets, units in flight, store buffer, issue, exception,
event and debug registers. -/

namespace Sys2Proof.Machine

/-- One aperture descriptor (R147): base word, limit word, rights word bits [7:0]. -/
structure Aperture where
  base   : Word
  limit  : Word
  rights : Byte
  deriving DecidableEq, Repr

/-- The special registers of R56 to R62. PSW.DET is not held here: it reads from the cluster's pace (R32); PSW.RP reads
from the repeat in progress (R58). -/
structure Regs where
  psw    : Word
  epsw   : Word
  epc    : Word
  cause  : Word
  evnum  : Word
  badaddr : Word
  evec   : Word
  pstk   : Byte
  grant  : Bool
  hushRem : Byte
  hushIgn : Byte
  chainc : BitVec 16
  repc   : BitVec 16
  mlo    : Word
  mhi    : Word
  inst   : Byte
  ncores : Byte
  tbhi   : Word
  ls     : Tab Word
  le     : Tab Word
  lc     : Tab Word
  ap     : Tab Aperture
  deriving DecidableEq, Repr

/-- A product on its way to MHI:MLO, readable from step `due` (R89). -/
structure Product where
  due : Nat
  hi  : Word
  lo  : Word
  deriving DecidableEq, Repr

/-- A divide in flight: trigger step, results, and the sticky bit it sets at delivery, if any (R90, R91). -/
structure DivOp where
  trig : Nat
  quo  : Word
  rem  : Word
  flag : Option Nat
  deriving DecidableEq, Repr

/-- An fpu operation in flight: trigger step, contract latency, result and flags (R109). -/
structure FpuOp where
  trig : Nat
  lat  : Nat
  out  : Word
  fl   : Word
  deriving DecidableEq, Repr

/-- The kind of an access through an aperture (R147, R154). -/
inductive AccKind where
  | normal | device | setAlias | clrAlias
  deriving DecidableEq, Repr

/-- What a performed load found: the value, and the address of the failed word when it is poisoned (R93). -/
structure LoadData where
  val  : Word
  pois : Option Word
  deriving DecidableEq, Repr

/-- A load from its trigger until it has delivered and is no longer outstanding (R94). `snap` is the number of stores
triggered before it; `late` the steps an exchange-RAM or bit-store access waits for the cores ahead of it (R42); `toFrame` the lsu frame entry
that receives it (R195). -/
structure Load where
  trig  : Nat
  addr  : Word
  size  : Nat
  sext  : Bool
  kind  : AccKind
  xchg  : Option Word
  snap  : Nat
  late  : Nat
  bare  : Bool
  data  : Option LoadData
  deliv : Bool
  outst : Bool
  toFrame : Option Nat
  deriving DecidableEq, Repr

/-- A store-buffer entry (R154): its number in store order, word address, byte mask, data, kind, whether it is linked with
the entry after it (R153), and whether its device target has been started. -/
structure StoreEntry where
  id   : Nat
  word : Nat
  mask : Byte
  data : BitVec 64
  kind : AccKind
  linked : Bool
  deriving DecidableEq, Repr

/-- The operation an active copy performs (R102, R105); `none` is the park of an idle unit. -/
inductive CopyKind where
  | none | move | fill | crc
  deriving DecidableEq, Repr

/-- An active copy operation (R104, R105): physical addresses as checked at its trigger, the aperture offsets for the park
record, bytes left and done, direction, `seg`, the fill word or CRC register, of a remote copy how it stands (0 local, 1 in flight,
2 accepted, 3 refused,
4 accepted with a poisoned word) and since when (R103, R294), and the global address of the record of a `park` under way. -/
structure CopyOp where
  kind : CopyKind
  trig : Nat
  lat  : Nat
  src  : Word
  dst  : Word
  srcP : Nat
  dstP : Nat
  left : Nat
  done : Nat
  down : Bool
  seg  : Word
  word : Word
  remote : Nat
  since : Nat
  park : Option Nat
  deriving DecidableEq, Repr

/-- The operations of the beam unit (R107). -/
inductive BeamKind where
  | find | lock | commit | drop | new
  deriving DecidableEq, Repr

/-- A beam operation in flight: its argument, the scratch offset of `buf`, the 64 octets of `buf` a commit read at its
trigger (R217), and, once the engine has served it, its `st`, `out` and poison mark (R222). -/
structure BeamOp where
  kind : BeamKind
  trig : Nat
  arg  : Word
  buf  : Nat
  data : Octets
  res  : Option (Nat × Word × Option Word)
  deriving DecidableEq, Repr

/-- A synchronous fault waiting for its entry (R189): cause, slot, second, software code, BADADDR and resume point; and
whether it was raised by an iteration of a repeat, with the iterations left (R139). -/
structure PFault where
  cause  : Nat
  slot   : Nat
  second : Bool
  sw     : Nat
  bad    : Option Word
  epc    : Word
  rep    : Option Nat
  deriving DecidableEq, Repr

/-- A word of a delivered line, and whether it read poisoned or uncorrectable (R116). -/
structure FWord where
  w   : BitVec 64
  bad : Bool
  deriving DecidableEq, Repr

/-- A delivered 256-bit line: AP0 offset, its four words, and the fetch error of the whole line, if any, with its cause and
BADADDR (R67, R116). -/
structure FLine where
  off : Nat
  ws  : List FWord
  err : Option (Nat × Option Word)
  deriving DecidableEq, Repr

/-- A branch-target-buffer entry: transfer offset, the bytes of the transfer bundle (R125), target offset, stored line (R119). -/
structure BtbEntry where
  xoff   : Nat
  size   : Nat
  target : Nat
  line   : FLine
  deriving DecidableEq, Repr

/-- Whether and why a core is not issuing (R100, R266, R283). -/
inductive RunState where
  | notReleased | running | sleeping | halted | stopped | restarting | retired
  deriving DecidableEq, Repr

/-- A repeat in progress: iterations left, whether REPC counts with them, whether one has executed (R137, R139), and the words of its
bundle, which passed the fetch and decode checks before the first iteration (R81). -/
structure Rep where
  left  : Nat
  useRepc : Bool
  rint  : Bool
  begun : Bool
  w0    : BitVec 64
  w1    : BitVec 64
  deriving DecidableEq, Repr

/-- The issue stage (R113, R114, R121): next bundle, step count, fill steps still due, the transfer a delay bundle
completes (`some none`: a transfer whose guard was false), the transfer whose BTB entry waits for its target line with the bytes of its
bundle, the repeat and the step in which an iteration of it wrote an AP0 word (R122),
the fault waiting, the hold of `fence`, whether the fill steps now issued are of a hold that is no boundary (`drain`), the step in which
the bundle now stalled was first due, which matches its read of `lsu.out` (R94), the trigger step of the load a held fifth load waits for
(R95), the offset of an `eret` bundle whose return waits for the loads of its handler (R195), whether the next bundle is the first of a handler, the delivered lines, the line cache and the BTB (most recent first), the loop-start
buffers (valid where listed; an empty list before its lines are captured) and the level whose buffer waits for its lines. -/
structure Issue where
  run    : RunState
  pc     : Word
  steps  : Nat
  fills  : Nat
  delay  : Option (Option Word)
  xferOff : Option Nat
  xferSize : Nat
  rep    : Option Rep
  ap0Step : Option Nat
  resumeRep : Bool
  fault  : Option PFault
  fence  : Bool
  first  : Bool
  drain  : Bool
  dueStep : Option Nat
  wait5  : Option Nat
  ret    : Option Nat
  lines  : List FLine
  cache  : List (Nat × List FWord)
  btb    : List BtbEntry
  loopBuf : Tab (List FLine)
  loopWait : Option Nat
  deriving DecidableEq, Repr

/-- The units beside the pipe: sockets by code, and what is in flight (R45, R86 to R109). -/
structure Units where
  sk     : Tab Word
  prods  : List Product
  div    : Option DivOp
  fpu    : List FpuOp
  loads  : List Load
  stores : List StoreEntry
  nstore : Nat
  copy   : Option CopyOp
  beam   : Option BeamOp
  beamPois : Option Word
  deriving DecidableEq, Repr

/-- One entry of the lsu frame (R195): the fields of LFCTL, LFQ and LFBA. -/
structure FrameEntry where
  valid : Bool
  age   : BitVec 2
  deliv : Bool
  pois  : Bool
  val   : Word
  ba    : Word
  deriving DecidableEq, Repr

/-- The exception and event registers of the core block (R194), the hush window (R200: its end in timebase and, in a paced
cluster, in steps) and the watchdog (R202: when the count began and the ns counted before a halt). -/
structure Events where
  badraise : Bool
  skref    : Bool
  skbad    : Bool
  rqref    : Bool
  sksel    : BitVec 12
  evovf    : Word
  lfval    : Word
  frame    : Tab FrameEntry
  hushEnd  : Option Nat
  hushStop : Nat
  hushOk   : Bool
  wdPeriod : BitVec 16
  wdFirst  : Bool
  wdStart  : Nat
  wdAcc    : Nat
  wd20     : Bool
  deriving DecidableEq, Repr

/-- A completion entry of a transmit descriptor (R253): cookie and result. -/
structure Done where
  cookie : Nat
  result : Nat
  deriving DecidableEq, Repr

/-- A remote transmit descriptor that is not yet answered (R293, R294): its number, its cookie, when it was sent. -/
structure RtxOut where
  id     : Nat
  cookie : Nat
  since  : Nat
  answered : Bool
  deriving DecidableEq, Repr

/-- The receive queue and remote transmit registers of the core block (R255, R292). -/
structure Queues where
  rqBase : BitVec 10
  rqDben : Bool
  rqN    : Byte
  rqHead : Nat
  rqTail : Nat
  rtxa   : Word
  rtxl   : Word
  rtxdest : Byte
  rtxdone : List Done
  rtxOut : List RtxOut
  deriving DecidableEq, Repr

/-- The Loupe-only registers of the core block (R464). `stepping`: 0 none, 1 a STEP whose bundle has not issued, 2 it has and the halt
follows at the next boundary; `pass`: the breakpoint at the next bundle is passed once after a resume (log entry 20). -/
structure LoupeCore where
  halted  : Bool
  why     : Nat
  pending : Bool
  skerr   : Bool
  stepping : Nat
  pass    : Bool
  stepie  : Bool
  brken   : Bool
  sksel   : BitVec 12
  lbp     : Tab Word
  deriving DecidableEq, Repr

/-- What the loader gave a core at its last release (R269, R387, R389): apertures, INST, NCORES, entry offset, PAIR. -/
structure Release where
  aps    : Tab Aperture
  inst   : Nat
  ncores : Nat
  pc     : Word
  pair   : Bool
  deriving DecidableEq, Repr

/-- The status object of the core (R283, R357) and what the warden keeps for R268: the timebase of the last faults, newest first, whether a
fault waits for its decision, whether a retirement was requested. -/
structure CoreStatus where
  reason   : Nat
  faults   : Nat
  restarts : Nat
  parity   : Nat
  history  : List Nat
  decide   : Bool
  request  : Bool
  release  : Option Release
  deriving DecidableEq, Repr

/-- One Lens core or warden. -/
structure LensCore where
  g     : Tab Word
  bits  : Tab Bool
  r     : Regs
  u     : Units
  i     : Issue
  e     : Events
  q     : Queues
  lp    : LoupeCore
  st    : CoreStatus
  deriving DecidableEq, Repr

/-- The aperture values after reset (R148). -/
def apReset (n i : Nat) : Aperture :=
  if i = 0 then
    if n < 128 then { base := 0, limit := 0xFFFF#32, rights := 0x28#8 }
    else { base := 0x40000000#32, limit := 0xFFFF#32, rights := 0x28#8 }
  else if i = 1 then { base := 0, limit := 0xFFFF#32, rights := 0x18#8 }
  else { base := 0, limit := 0, rights := 0 }

/-- The socket values after reset: 0, but `lsu.seg` 1 (R92) and `copy.seg` 0x11 (R102). -/
def skReset (code : Nat) : Word :=
  if code = 0x240 then 1#32 else if code = 0x272 then 0x11#32 else 0#32

/-- The special registers after reset (R58 to R62): PSW has S = 1 and BARE = 1. -/
def Regs.reset : Regs :=
  { psw := 5#32, epsw := 0, epc := 0, cause := 0, evnum := 0, badaddr := 0, evec := 0, pstk := 0, grant := false,
    hushRem := 0, hushIgn := 0, chainc := 0, repc := 0, mlo := 0, mhi := 0, inst := 0, ncores := 0, tbhi := 0,
    ls := [], le := [], lc := [], ap := [] }

def Units.reset : Units :=
  { sk := [], prods := [], div := none, fpu := [], loads := [], stores := [], nstore := 0, copy := none, beam := none,
    beamPois := none }

def Issue.reset : Issue :=
  { run := .notReleased, pc := 0, steps := 0, fills := 0, delay := none, xferOff := none, xferSize := 8, rep := none,
    ap0Step := none, resumeRep := false, fault := none, fence := false, first := false, drain := false, dueStep := none, wait5 := none, ret := none, lines := [], cache := [],
    btb := [], loopBuf := [], loopWait := none }

def FrameEntry.empty : FrameEntry := { valid := false, age := 0, deliv := false, pois := false, val := 0, ba := 0 }

/-- The event registers after reset; a warden's PERIOD resets to 1,000 (R202). -/
def Events.reset (n : Nat) : Events :=
  { badraise := false, skref := false, skbad := false, rqref := false, sksel := 0, evovf := 0, lfval := 0, frame := [],
    hushEnd := none, hushStop := 0, hushOk := true, wdPeriod := if n < 128 then 0 else 1000, wdFirst := false, wdStart := 0, wdAcc := 0,
    wd20 := false }

def Queues.reset : Queues :=
  { rqBase := 0, rqDben := false, rqN := 64, rqHead := 0, rqTail := 0, rtxa := 0, rtxl := 0x1FF000#32, rtxdest := 0,
    rtxdone := [], rtxOut := [] }

def LoupeCore.reset : LoupeCore :=
  { halted := false, why := 0, pending := false, skerr := false, stepping := 0, pass := false, stepie := false, brken := false,
    sksel := 0, lbp := [] }

def CoreStatus.reset : CoreStatus :=
  { reason := 0, faults := 0, restarts := 0, parity := 0, history := [], decide := false, request := false, release := none }

/-- Core `n` after power-on reset. -/
def LensCore.reset (n : Nat) : LensCore :=
  { g := [], bits := [], r := Regs.reset, u := Units.reset, i := Issue.reset, e := Events.reset n, q := Queues.reset,
    lp := LoupeCore.reset, st := CoreStatus.reset }

end Sys2Proof.Machine
end

