-- ==== Sys2Proof/Machine/StateFacet.lean ====
section
/-! DEFINITION. The state of a facet: exposure tables, transmit queue, receive ring, link (R229 to R258, R261). -/

namespace Sys2Proof.Machine

/-- One entry of an exposure table (R240). -/
structure SlotEnt where
  start : Nat
  dir   : Nat
  latest : Bool
  cls   : Nat
  dur   : Nat
  chan  : Nat
  rev   : Nat
  ackroom : Nat
  deriving DecidableEq, Repr

/-- An exposure table (R240). -/
structure Expo where
  cycle  : Nat
  margin : Nat
  phase  : Nat
  lead   : Nat
  act    : Nat
  revgap : Nat
  guard  : Nat
  slots  : List SlotEnt
  raw    : Octets
  deriving DecidableEq, Repr

/-- Who posted a transmit descriptor: a core's staging set, a core through the fabric (R293), the relay of an ingress buffer
(R249), or the facet itself for an answer (R296, R300). -/
inductive Poster where
  | staging (lc : Nat)
  | fabric (core : Nat)
  | relay (facet idx : Nat)
  | own
  deriving DecidableEq, Repr

/-- A transmit descriptor from its post to its completion (R242 to R246, R253): `addr` is the global address of the frame, `held` whether
it waits for its beam, `defers` how often it was deferred, `tries` the attempts of this cycle, `cyc` the cycle of its first
transmission, `seq` its sequence number. `id` tells descriptors apart, `face` is the facet it was posted to (R264, R284) and `got` counts the
octets held in the facet (R293). -/
structure TxDesc where
  id     : Nat
  face   : Nat
  got    : Nat
  poster : Poster
  addr   : Nat
  len    : Nat
  slot   : Nat
  tsreq  : Bool
  onestep : Bool
  tag    : Option Nat
  cookie : Nat
  held   : Bool
  defers : Nat
  tries  : Nat
  sent   : Bool
  cyc    : Nat
  seq    : Nat
  deriving DecidableEq, Repr

/-- The frame on the lane: its descriptor, whether it is a margin attempt, when it started and ends (tenths of ns of timebase), the
octets sent. -/
structure LaneTx where
  desc   : TxDesc
  margin : Bool
  start  : Nat
  stop   : Nat
  octets : Octets
  deriving DecidableEq, Repr

/-- How the last frame sent on a lane ended (R236, R249, R254): good, with ABT, with an inverted FCS and /V/ (mode 4), or with an inverted
FCS and an error control block (mode 5). -/
inductive FrameEnd where
  | good
  | abt
  | badFcs
  | errorBlock
  deriving DecidableEq, Repr

/-- The CYC set sent last (R236, R242): the cycle number it carries and the sender's timebase. -/
structure CycSet where
  cyc  : Nat
  time : Nat
  deriving DecidableEq, Repr

/-- The TRN set sent last (R236, R247, R248): TYPE, chain position, bytes 2 to 9, and when its first character leaves. -/
structure TrnSet where
  type  : Nat
  pos   : Nat
  value : Nat
  leave : Nat
  deriving DecidableEq, Repr

/-- A slot frame awaiting its acknowledgement, with the deadline (tenths of ns; R244). -/
structure AwaitAck where
  desc     : TxDesc
  margin   : Bool
  deadline : Nat
  deriving DecidableEq, Repr

/-- An ACK set due (R244). -/
structure AckDue where
  slot   : Nat
  status : Nat
  seq    : Nat
  deriving DecidableEq, Repr

/-- A ring buffer: free, held for a beam, for a frame posted with MISS = 1, or for a relay (R250). -/
inductive BufUse where
  | free
  | beam (b : Nat)
  | miss
  | relay
  deriving DecidableEq, Repr

/-- What the engine's lookup of an arriving frame found (R221): a management frame is not looked up (R295); `e` is the egress and `id` the descriptor of
a relay forward begun at the egress. -/
inductive Lookup where
  | mgmt
  | found (b : Nat)
  | relay (b e : Nat) (id : Option Nat)
  | poisoned (b : Nat)
  | miss
  deriving DecidableEq, Repr

/-- A descriptor posted, or waiting to be posted, to a receive queue (R251): the beam it is posted for (none: MISS), its four words less
BEAM and MISS, whether its post waits for queue space, and whether it is a re-post (R271). -/
structure RxPost where
  beam  : Option Nat
  idx   : Nat
  retry : Bool
  len   : Nat
  slot  : Nat
  ts    : Nat
  waited : Bool
  again : Bool
  deriving DecidableEq, Repr

/-- A two-step timestamp (R234, R255). -/
structure TxTs where
  beam : Nat
  slot : Nat
  ts   : Nat
  deriving DecidableEq, Repr

/-- A local core's staging set (R253, R255): TXA, TXL and the completion FIFO of 32 entries. -/
structure Staging where
  txa  : Word
  txl  : Word
  done : List Done
  deriving DecidableEq, Repr

/-- Training and link supervision (R247, R248): when the attempt began, probes sent, echoes and the sum of their delays, whether RUN was
reached since OFF, CYC in time and CYC missed in a row, the number the last good CYC carried, whether a CYC came in this cycle, and how many
attempts failed. -/
structure Training where
  start  : Nat
  probes : Nat
  echoes : Nat
  sum    : Nat
  ready  : Bool
  reached : Bool
  good   : Nat
  missed : Nat
  seen   : Bool
  fails  : Nat
  peer   : Byte
  delay  : Nat
  holdTo : Nat
  lastCyc : Option Nat
  deriving DecidableEq, Repr

/-- A reflex request waiting for the cluster's reflex unit (R297, R298): the 24-octet body, whether the octets after it are as R297 asks
(LEN 24, Ethernet padding 0), the timebase at its last octet, the key held then (R305), and the octets before the body, to address the
answer. -/
structure RfxReq where
  body  : Octets
  shape : Bool
  time  : Nat
  key   : Option Octets
  beamLink : Bool
  head  : Octets
  deriving DecidableEq, Repr

/-- A facet. `state` is FSTAT.STATE. `reload`: the stored ring waits for the ring in force to empty (R250); `held`: frames posted for a beam
and not yet released (R219). `ownTab`: the own table of a facet that stands in for another (R264, R284). `cyc` is the number of the cycle
whose boundary was handled last, `opened` the slots opened in it, `carried` those that carried a frame, `prep` the boundary whose preparation
instant was raised. `lastAcc` maps a slot to the SEQ last accepted in it; `look` is the lookup of the frame now arriving; `ackOut` the ACK
sets sent last. `winSec` is the second whose error window runs (R261). `back` is the frame a mirror sends as tail (R235); `cycOut`, `trnOut` and
`endOut` are the CYC and TRN sets and the frame ending sent last; `gapTo` is the earliest start of the next frame in tenths of ns and `dic` the
deficit idle count (R232, R237). -/
structure Facet where
  state  : Nat
  fevt   : BitVec 16
  feven  : BitVec 16
  train  : Training
  ringBase : Nat
  ringN  : Nat
  reload : Bool
  bufs   : Tab BufUse
  nextBuf : Nat
  posts  : List RxPost
  held   : List RxPost
  look   : Option Lookup
  active : Expo
  pendTab : Option Expo
  ownTab : Option Expo
  cyc    : Nat
  prep   : Nat
  opened : List Nat
  carried : List Nat
  queue  : List TxDesc
  lane   : Option LaneTx
  back   : Option LaneTx
  cycOut : Option CycSet
  trnOut : Option TrnSet
  endOut : Option FrameEnd
  gapTo  : Nat
  dic    : Nat
  await  : List AwaitAck
  retry  : List TxDesc
  deferred : List TxDesc
  acks   : List AckDue
  ackOut : List AckDue
  lastAcc : Tab Nat
  txts   : List TxTs
  staging : Tab Staging
  signal : Bool
  lostAt : Option Nat
  winErrs : Nat
  winBad : Nat
  winSec : Nat
  retired : Bool
  criterion : Nat
  standsFor : Option Nat
  deputy : Option Nat
  stopped : Bool
  tokens : Nat
  preq   : List Octets
  lastFill : Nat
  rfx    : List RfxReq
  answers : List Octets
  ftctl  : Word
  fterr  : Word
  deriving DecidableEq, Repr

def Staging.reset : Staging := { txa := 0, txl := 0x1FF000#32, done := [] }

def Training.reset : Training :=
  { start := 0, probes := 0, echoes := 0, sum := 0, ready := false, reached := false, good := 0, missed := 0, seen := false,
    fails := 0, peer := 0xFF#8, delay := 0, holdTo := 0, lastCyc := none }

/-- The default exposure table, which holds no slot (R356). -/
def Expo.dflt : Expo :=
  { cycle := 1000000, margin := 1000, phase := 0, lead := 0, act := 0, revgap := 0, guard := 0, slots := [],
    raw := [1, 0, 0, 0, 0x40, 0x42, 0x0F, 0, 0xE8, 3, 0, 0, 0, 0, 0, 0, 0, 0, 0, 0, 0, 0, 0, 0, 0, 0, 0, 0, 0, 0, 0, 0] }

/-- Facet `p` after reset (R255, R256). -/
def Facet.reset (p : Nat) : Facet :=
  { state := 0, fevt := 0, feven := 0x2100#16, train := Training.reset, ringBase := 0x1C0000 + (p % 8) * 0x4000, ringN := 8,
    reload := false, bufs := [], nextBuf := 0, posts := [], held := [], look := none, active := Expo.dflt, pendTab := none, ownTab := none,
    cyc := 0, prep := 0, opened := [], carried := [], queue := [],
    lane := none, back := none, cycOut := none, trnOut := none, endOut := none, gapTo := 0, dic := 0, await := [], retry := [], deferred := [], acks := [], ackOut := [], lastAcc := [], txts := [], staging := [],
    signal := true, lostAt := none, winErrs := 0, winBad := 0, winSec := 0, retired := false, criterion := 0, standsFor := none, deputy := none,
    stopped := false, tokens := 2048, preq := [], lastFill := 0, rfx := [], answers := [], ftctl := 0, fterr := 0 }

end Sys2Proof.Machine
end

