-- ==== Sys2Proof/Machine/StateFabric.lean ====
section
/-! DEFINITION. The Prism fabric and the reflex objects (R287 to R302). -/

namespace Sys2Proof.Machine

/-- A reflex action accepted and not yet performed (R298 to R300): the operation, its target, and the facet whose request it answers. -/
structure RfxAct where
  op     : Nat
  target : Nat
  facet  : Nat
  req    : RfxReq
  deriving DecidableEq, Repr

/-- What a fabric packet carries (R288); of a remote descriptor the three words as they were posted. -/
inductive PktBody where
  | toWarden (facet : Nat) (octets : Octets)
  | toFacet (facet : Nat) (octets : Octets)
  | reflex (act : RfxAct)
  | desc (core facet : Nat) (txa txl v : Word) (d : TxDesc)
  | data (core facet id octets : Nat)
  | relay (facet : Nat) (d : TxDesc)
  | relayEnd (facet id : Nat) (good : Bool)
  | fostered (addr : Nat) (octets : Octets)
  | done (core id : Nat) (d : Done)
  | copy (core : Nat)
  deriving DecidableEq, Repr

/-- A fabric packet: its kind, its flits, the hops still before it, whether a data flit travels with a poison mark (R288, R294). -/
structure Packet where
  kind   : PacketKind
  flits  : Nat
  route  : List Nat
  poison : Bool
  body   : PktBody
  deriving DecidableEq, Repr

/-- What the management port injects towards one facet: the frames that wait, oldest first, and its token bucket with the time of its last fill
(R290). -/
structure PortOut where
  frames : List Octets
  tokens : Nat
  fill   : Nat
  deriving DecidableEq, Repr

/-- The fabric: per hop and virtual channel (3 * hop + vc) the packets in its buffer, oldest first (R289); flits an output has served since
its last VC2 flit; per output and virtual channel (3 * output + vc) the first hop its round-robin looks at; what the management port injects towards
each facet. A hop is one input of an element, an output is the hop it leads to, or 256 + the last hop. Hops: 0-31 cluster port out, 32-63 cluster port
in, 64 + 4q + r the mesh link from quadrant q to r, 80 + q management port out of a crossbar, 84 + q into it, and the inputs of the crossbars: 96 + c from
cluster c, 128 + 4q + r of crossbar r from quadrant q, 144 + q from the management port (log entry 18). -/
structure Fabric where
  queues : Tab (List Packet)
  since2 : Tab Nat
  turns  : Tab Nat
  ports  : Tab PortOut
  deriving DecidableEq, Repr

/-- The management key, the reflex counter and log, the actions under way, the facets a reflex holds disabled (R298 to R302). -/
structure Reflex where
  key    : Option Octets
  ctr    : Nat
  log0   : Word
  log1   : Word
  done   : Nat
  refused : Nat
  acts   : List RfxAct
  deriving DecidableEq, Repr

def PortOut.reset : PortOut := { frames := [], tokens := 2048, fill := 0 }

def Fabric.reset : Fabric := { queues := [], since2 := [], turns := [], ports := [] }

def Reflex.reset : Reflex := { key := none, ctr := 0, log0 := 0, log1 := 0, done := 0, refused := 0, acts := [] }

end Sys2Proof.Machine
end

