-- ==== Sys2Proof/Machine/StateManage.lean ====
section
/-! DEFINITION. The state of the management block: the Polisher, the Iris. -/

namespace Sys2Proof.Machine

/-- The Polisher's scrub pass (R182): words read in it, when its period began, and the next word of each memory begun (log entry 112). -/
structure Polisher where
  done  : Nat
  since : Nat
  pos   : Tab Nat
  deriving DecidableEq, Repr

/-- A link cipher key slot (R347): the key in force, and the key it replaces until 1 µs after the write is answered. -/
structure LinkKey where
  key  : Option Octets
  prev : Option Octets
  at_  : Nat
  deriving DecidableEq, Repr

/-- The keys the dictionary keeps, none readable (R328, R347): link cipher slots 1 to 8, the operator and the engineer key. -/
structure Keys where
  link : Tab LinkKey
  oper : Option Octets
  eng  : Option Octets
  deriving DecidableEq, Repr

def LinkKey.unset : LinkKey := { key := none, prev := none, at_ := 0 }

def Keys.reset : Keys := { link := [], oper := none, eng := none }

def Polisher.reset : Polisher := { done := 0, since := 0, pos := [] }

/-! ### The Iris (R363 to R374) -/

/-- What the Iris holds for one cluster (R374): the registers IRCLA and IRCLM, and how many measurements in a row lay 2 steps below. -/
structure IrisCl where
  allot : Nat
  meas  : Nat
  level : Nat
  stop  : Bool
  pbrk  : Bool
  satur : Bool
  ovres : Bool
  low   : Nat
  deriving DecidableEq, Repr

/-- The Iris: supply and package measured, temperatures (0.1 °C) and thermal states of the quadrants, since when a quadrant stands above
115 °C, IRSTAT flags, measurements over budget in a row, since when the package stays within budget, the shared draw of the last 1 ms (time,
mA), H, P, IRCLEN, the clusters, the instants of the last measurement, recomputation and reading, whether a recomputation is due at once, and
whether the device is in thermal shutdown. -/
structure Iris where
  vcore  : Nat
  pkg    : Nat
  temps  : Tab Int
  tstate : Tab Nat
  hot    : Tab Nat
  excess : Bool
  emerg  : Bool
  short  : Bool
  overs  : Nat
  within : Nat
  shared : List (Nat × Nat)
  h      : Nat
  pool   : Nat
  clen   : Word
  cl     : Tab IrisCl
  lastMeas : Nat
  lastAllot : Nat
  lastTemp : Nat
  fresh  : Bool
  shutdown : Bool
  deriving DecidableEq, Repr

def IrisCl.reset : IrisCl :=
  { allot := 27, meas := 0, level := 0, stop := false, pbrk := false, satur := false, ovres := false, low := 0 }

def Iris.reset : Iris :=
  { vcore := 0, pkg := 0, temps := [], tstate := [], hot := [], excess := false, emerg := false, short := false, overs := 0, within := 0,
    shared := [], h := 0, pool := 0, clen := 2, cl := [], lastMeas := 0, lastAllot := 0, lastTemp := 0, fresh := false, shutdown := false }

/-! ### Timebase and calendar (R418 to R428) -/

/-- The timebase block: TBADJ, the step waiting for its 4 ns boundary, TBSTAT flags, the discipline state, TBOFF, TBCHI, alarms, the servo's
counts of measurements in and out of lock and the instant of the last, the last whole second passed, the leaps applied since the calendar was
written, the latest Announce and its facet, the instants of the last calendar set and trim. -/
structure Clock where
  adj     : Int
  stepref : Bool
  stepped : Bool
  lock    : Nat
  off     : Int
  chi     : Word
  alm     : Tab Nat
  arm     : Nat
  inCnt   : Nat
  outCnt  : Nat
  lastMeas : Nat
  second  : Nat
  leaps   : Int
  announce : Option (Nat × Announce)
  lastSet : Nat
  lastTrim : Nat
  deriving DecidableEq, Repr

/-- The backup domain (R423 to R426): CALSEC, the timebase of its last second edge (CALSUB counts from there), the latches a CALSLO read
takes, the staged CALSHI, CALTRIM, the alarm, CALSTAT, CALLEAP, whether a second is being held for a leap, the BKUP words, the supply in use,
and the instant of the last VBAT check. -/
structure Calendar where
  sec    : Nat
  edge   : Int
  lhi    : Word
  lsub   : Word
  ldate  : Word
  ltime  : Word
  staged : Nat
  trim   : Int
  alm    : Nat
  armed  : Bool
  invalid : Bool
  oscstop : Bool
  vbatlow : Bool
  wrap   : Bool
  alarm  : Bool
  leap   : Nat
  hold   : Bool
  bkup   : Tab Word
  onVbat : Bool
  lastVbat : Nat
  seen744 : Bool
  deriving DecidableEq, Repr

def Clock.reset : Clock :=
  { adj := 0, stepref := false, stepped := false, lock := 0, off := 0, chi := 0, alm := [], arm := 0, inCnt := 0, outCnt := 0, lastMeas := 0,
    second := 0, leaps := 0, announce := none, lastSet := 0, lastTrim := 0 }

/-- The calendar block after the backup domain has lost power (R426). -/
def Calendar.reset : Calendar :=
  { sec := 0, edge := 0, lhi := 0, lsub := 0, ldate := 0x000C1100#32, ltime := 0, staged := 0, trim := 0, alm := 0, armed := false, invalid := true,
    oscstop := true, vbatlow := false, wrap := false, alarm := false, leap := 0, hold := false, bkup := [], onVbat := false, lastVbat := 0,
    seen744 := false }

/-! ### The dictionary engine (R325 to R340) -/

/-- A session (R325 to R327): its role, endpoint and node ID, nonces, whether it is proved and any tailed request was accepted, the session key (the role key until the PROOF), the PROOF
that proved it (TID and body), the last SEQ with its TID and stored answer, the notification counter, the instant of the last valid request. -/
structure Session where
  role   : Nat
  ep     : Endpoint
  node   : Nat
  nc     : Octets
  nd     : Octets
  proved : Bool
  used   : Bool
  ks     : Octets
  proof  : Nat × Octets
  seq    : Nat
  tid    : Nat
  answer : Option Octets
  notes  : Nat
  last   : Nat
  deriving DecidableEq, Repr

/-- A staging transfer (R333): of a session, or of an endpoint outside any. -/
structure Transfer where
  sid  : Nat
  ep   : Endpoint
  idx  : Nat
  sub  : Nat
  data : Octets
  last : Nat
  deriving DecidableEq, Repr

/-- A subscription (R335): its session or endpoint and node ID, entry, mode, interval, the last value notified and when, the instant of its endpoint's last
request. -/
structure Subscription where
  handle : Nat
  sid    : Nat
  ep     : Endpoint
  node   : Nat
  idx    : Nat
  sub    : Nat
  mode   : Nat
  interval : Nat
  val    : Octets
  sent   : Nat
  heard  : Nat
  deriving DecidableEq, Repr

/-- A PDU the device sends, and where to. -/
structure OutPdu where
  ep  : Endpoint
  pdu : Octets
  deriving DecidableEq, Repr

/-- A copy of the stored dictionary (R334): generation, whether its CRC is good, the RWS entries, the exposure tables, and which keys it
unsets: bit 0 the operator key, bit 1 the engineer key, bit 2 the management key. -/
structure StoreCopy where
  gen    : Nat
  good   : Bool
  ents   : Tab Nat
  tables : Tab Octets
  unset  : Nat
  deriving DecidableEq, Repr

/-- A STORE (kind 0) or a RESTORE of scope 0 or 1 (kind 1, 2): the request it answers, and the copy being written once it has begun. -/
structure StoreJob where
  ans  : Reply
  kind : Nat
  copy : Option StoreCopy
  deriving DecidableEq, Repr

/-- A request in the warden's log (R278): 0 received, 1 executed, 2 answered. -/
structure LoggedReq where
  ans   : Reply
  state : Nat
  deriving DecidableEq, Repr

/-- The dictionary engine: sessions by SID, staging transfers, subscriptions, PDUs sent (the most recent last), the parameter store's active
and inactive copy and the stores waiting, management frames delivered to it, the quadrant and per
quadrant the facet its round-robin looks at first (R296), the instant of the last heartbeat, discarded PDUs, the endpoint
each node whose requests it forwards along the chain was last heard at (R340), the CAN FD bus-off recoveries, the log of requests (R278) and the
steps of the latest retirement in the warden's log, as core and step (R270). -/
structure Edp where
  sessions : Tab Session
  transfers : List Transfer
  subs   : List Subscription
  out    : List OutPdu
  active : StoreCopy
  other  : StoreCopy
  jobs   : List StoreJob
  inbox  : List (Nat × Octets)
  turnQ  : Nat
  turnF  : Tab Nat
  beat   : Nat
  discarded : Nat
  routes : List (Nat × Endpoint)
  recovered : Nat
  reqs   : List LoggedReq
  steps  : List (Nat × Nat)
  deriving DecidableEq, Repr

def StoreCopy.empty : StoreCopy := { gen := 0, good := true, ents := [], tables := [], unset := 0 }

def Edp.reset : Edp :=
  { sessions := [], transfers := [], subs := [], out := [], active := StoreCopy.empty, other := StoreCopy.empty, jobs := [], inbox := [], turnQ := 0, turnF := [],
    beat := 0, discarded := 0, routes := [], recovered := 0, reqs := [], steps := [] }

/-! ### Images, start-up, faults (R353, R392, R398 to R415) -/

/-- A slot of code flash: its state (0 invalid, 1 valid, 2 in force, 3 commit interrupted) and VERSION. -/
structure Slot where
  state   : Nat
  version : Nat
  deriving DecidableEq, Repr

/-- Images and the commit: the image in force, the slots, the declared peak, the commit stage with its session, target, held header, octets
received and the instant of the last segment; the commit marker; the slots refused and the next candidates at this start-up. -/
structure Images where
  force  : Nat
  slotA  : Slot
  slotB  : Slot
  peak   : Nat
  stage  : Nat
  sid    : Nat
  target : Nat
  hdr    : Octets
  got    : Nat
  lastSeg : Nat
  marker : Option Nat
  refused : List Nat
  trying : Option Nat
  ncores : Nat
  deriving DecidableEq, Repr

/-- Supplies, pins and start-up: rails below their falling threshold, PGOOD, PFAIL_N asserted, the straps sampled, the stage of R408 the
device stands in (2 to 9; 10 running; 1 held in a thermal shutdown, R373), safe mode, ALARM_N, a warm reset that has been answered and waits,
the fuse bits (0 to 255 the key digest, 256 the lock), the digest and lock as the last fuse load read them, whether free-running clusters use
classic arbitration, as the loader took it from 0x2000:01 (R349), whether this start-up follows a warm reset, and whether the stored values have
been applied in it (R472). -/
structure Power where
  low    : List Rail
  pgood  : Bool
  pfail  : Bool
  straps : BitVec 3
  stage  : Nat
  safe   : Bool
  alarm  : Bool
  warm   : Bool
  fuses  : BitVec 257
  loaded : BitVec 257
  arb    : Bool
  warmUp : Bool
  applied : Bool
  deriving DecidableEq, Repr

/-- A requalification or facet test under way (R284, R361): the object (0x9001 or 0x9004), the facet, when it began. -/
structure Prbs where
  obj   : Nat
  facet : Nat
  since : Nat
  deriving DecidableEq, Repr

def Slot.empty : Slot := { state := 0, version := 0 }

def Images.reset : Images :=
  { force := 2, slotA := Slot.empty, slotB := Slot.empty, peak := 0, stage := 0, sid := 0, target := 0, hdr := [], got := 0, lastSeg := 0,
    marker := none, refused := [], trying := none, ncores := 0 }

def Power.reset : Power :=
  { low := [], pgood := false, pfail := false, straps := 0, stage := 2, safe := false, alarm := false, warm := false, fuses := 0, loaded := 0,
    arb := false, warmUp := false, applied := false }

/-! ### The test access port (R461 to R469) -/

/-- The instructions of the TAP. -/
inductive TapIr where
  | idcode | sample | extest | extestPulse | extestTrain | highz | clamp | loupe | fuse | bypass
  deriving DecidableEq, Repr

/-- An access of the LOUPE register under way. -/
structure LoupeAcc where
  addr : Word
  wr   : Option Word
  deriving DecidableEq, Repr

/-- The TAP: its instruction, the levels sampled and the boundary register, whether LOUPE was loaded since Test-Logic-Reset, the access register's status, data and
busy access, the fuse register's selection, value and error bit. -/
structure Tap where
  ir     : TapIr
  cap    : List Bool
  bsr    : List Bool
  linked : Bool
  status : Nat
  data   : Word
  busy   : Option LoupeAcc
  fsel   : Nat
  ferr   : Bool
  deriving DecidableEq, Repr

def Tap.reset : Tap :=
  { ir := .idcode, cap := [], bsr := [], linked := false, status := 0, data := 0, busy := none, fsel := 0, ferr := false }

end Sys2Proof.Machine
end

