-- ==== Sys2Proof/Machine/State.lean ====
section
/-! DEFINITION. The state of the whole device, what stops a run, and the device right after power-on reset. -/

namespace Sys2Proof.Machine

/-- The part (R1, R11, R345, R433): whether it is an LV256 (else LV128), an -F part (else -N), of grade -X (else -I), of
stepping B0 (else A0). The model's part is an LV256-F-I of stepping B0 (DESIGN CHOICE, log entry 1). -/
structure Part where
  lv256 : Bool
  full  : Bool
  gradeX : Bool
  b0    : Bool
  deriving DecidableEq, Repr

/-- An entry of the error history (R348). -/
structure ErrEntry where
  code   : Nat
  origin : Nat
  time   : Nat
  data   : Octets
  deriving DecidableEq, Repr

/-- The event router (R203): sources raised and not yet delivered, oldest first, and sources pending, rising. -/
structure Router where
  raised  : List Nat
  pending : List Nat
  deriving DecidableEq, Repr

/-- The state of the device. `pending` is the queue of commands that are waiting, first in first out. `free` is the MODEL'S
OWN counter that picks the free values (log entry 7); `rdata` the MODEL'S OWN record of what the last device-register or Loupe
read answered (log entry 6); `lastAbort` the abort code the last dictionary write was answered with, if it was refused. `chain` is the chain
position of a member of a relay chain and `node` the EDP node ID, both taken at the last reset (R23, R328, R349). -/
structure State where
  pending : List Instr
  part    : Part
  tb      : Nat
  free    : Nat
  cores   : Tab LensCore
  clusters : Tab Cluster
  quads   : Tab Quad
  beams   : Tab BeamCtx
  facets  : Tab Facet
  fabric  : Fabric
  rfx     : Reflex
  foster  : Tab Nat
  nextId  : Nat
  mem     : List Host.Cell
  ecc     : Tab Nat
  router  : Router
  active  : Option Nat
  mhist   : List Corr
  ent     : Tab Nat
  errs    : List ErrEntry
  emerg   : List ErrEntry
  rdata   : Option Word
  lastAbort : Option Word
  polisher : Polisher
  keys    : Keys
  chain   : Option Nat
  node    : Nat
  chans   : Tab Channel
  iris    : Iris
  clock   : Clock
  cal     : Calendar
  edp     : Edp
  img     : Images
  power   : Power
  prbs    : Option Prbs
  tap     : Tap
  deriving DecidableEq, Repr

/-- Why a run stops with a fault. No rule of the spec ends the device's run, so no meaning raises one (safe). -/
inductive Fault where
  /-- Raised by nobody: every command of the table has an effect the spec gives (safe). -/
  | noFault
  deriving DecidableEq, Repr

/-- Why a command is refused. -/
inductive Refusal where
  /-- The command of this mnemonic has no meaning yet (safe: it stops where the hardware goes on). -/
  | notModelled (mnemonic : String)
  deriving DecidableEq, Repr

/-- The device after power-on reset, before stage 3 of start-up (R404, R408). -/
def State.reset : State :=
  { pending := [],
    part := { lv256 := true, full := true, gradeX := false, b0 := true },
    tb := 0, free := 0, cores := [], clusters := [], quads := [], beams := [], facets := [], fabric := Fabric.reset, rfx := Reflex.reset, foster := [], nextId := 0,
    mem := [], ecc := [],
    router := { raised := [], pending := [] }, active := none, mhist := [], ent := [], errs := [], emerg := [], rdata := none, lastAbort := none,
    polisher := Polisher.reset, keys := Keys.reset, chain := none, node := 1,
    chans := [], iris := Iris.reset, clock := Clock.reset, cal := Calendar.reset, edp := Edp.reset, img := Images.reset, power := Power.reset,
    prbs := none, tap := Tap.reset }

end Sys2Proof.Machine
end

