-- ==== Sys2Proof/Machine/Ops.lean ====
section
/-! DEFINITION. The named operations over the state: which resources are present, reading and updating one of them, memory
with its error-correcting code, events and the error history. -/

namespace Sys2Proof.Machine

/-! ### What is present (R11, R16, R19, R429) -/

def nCores (s : State) : Nat := if s.part.lv256 then 128 else 64
def nClusters (s : State) : Nat := if s.part.lv256 then 32 else 16
def nFacets (s : State) : Nat := if s.part.lv256 then 256 else 128
def nQuads (s : State) : Nat := if s.part.lv256 then 4 else 2
def nBeams (s : State) : Nat := if s.part.lv256 then 65536 else 32768
def nChans (s : State) : Nat := if s.part.full then (if s.part.lv256 then 16 else 8) else 0

/-- Core `n` is a Lens core of the part or a warden (R13, R17). -/
def corePresent (s : State) (n : Nat) : Bool := decide (n < nCores s) || n == 128 || n == 129

def isWarden (n : Nat) : Bool := decide (128 ≤ n)

/-- The cluster of Lens core `n` (R13). -/
def clusterOf (n : Nat) : Nat := n / 4

/-! ### One resource of a kind -/

def getCore (s : State) (n : Nat) : LensCore := Tab.get LensCore.reset n s.cores
def setCore (s : State) (n : Nat) (k : LensCore) : State := { s with cores := Tab.put n k s.cores }
def modCore (s : State) (n : Nat) (f : LensCore → LensCore) : State := setCore s n (f (getCore s n))

def getCluster (s : State) (c : Nat) : Cluster := Tab.get (fun _ => Cluster.reset) c s.clusters
def setCluster (s : State) (c : Nat) (v : Cluster) : State := { s with clusters := Tab.put c v s.clusters }
def modCluster (s : State) (c : Nat) (f : Cluster → Cluster) : State := setCluster s c (f (getCluster s c))

def Cluster.bank (v : Cluster) (k : Nat) : Bank := Tab.get Bank.reset k v.banks
def Cluster.setBank (v : Cluster) (k : Nat) (b : Bank) : Cluster := { v with banks := Tab.put k b v.banks }

def getBank (s : State) (c k : Nat) : Bank := (getCluster s c).bank k
def modBank (s : State) (c k : Nat) (f : Bank → Bank) : State :=
  modCluster s c fun v => v.setBank k (f (v.bank k))

def getQuad (s : State) (q : Nat) : Quad := Tab.get (fun _ => Quad.reset) q s.quads
def setQuad (s : State) (q : Nat) (v : Quad) : State := { s with quads := Tab.put q v s.quads }
def modQuad (s : State) (q : Nat) (f : Quad → Quad) : State := setQuad s q (f (getQuad s q))

def getBeam (s : State) (b : Nat) : BeamCtx := Tab.get (fun _ => BeamCtx.free) b s.beams
def setBeam (s : State) (b : Nat) (v : BeamCtx) : State := { s with beams := Tab.put b v s.beams }
def modBeam (s : State) (b : Nat) (f : BeamCtx → BeamCtx) : State := setBeam s b (f (getBeam s b))

/-! ### Words and octets (R3, R4) -/

/-- `x + 1`, saturating at `top`. -/
def satInc (top x : Nat) : Nat := if x < top then x + 1 else top

/-- The low `n` octets of `x`, least significant first (R4). -/
def leOctets : Nat → Nat → Octets
  | 0, _ => []
  | n + 1, x => BitVec.ofNat 8 x :: leOctets n (x / 256)

/-- The value of octets, least significant first (R4). -/
def ofLe : Octets → Nat
  | [] => 0
  | b :: bs => b.toNat + 256 * ofLe bs

/-- Bit `i` of a word, as a number. -/
def bitN (w : Word) (i : Nat) : Nat := if w.getLsbD i then 1 else 0

/-- The field of `len` bits of `w` from bit `lo`. -/
def field (w : Word) (lo len : Nat) : Nat := (w.toNat / 2 ^ lo) % 2 ^ len

def boolWord (b : Bool) : Word := if b then 1#32 else 0#32

/-- Word `w` with the bits of `mask` taken from `v`. -/
def blend (w v mask : Word) : Word := (w &&& ~~~mask) ||| (v &&& mask)

/-- A register whose written ones clear bits of `mask` (W1C, R7). -/
def w1c (w v mask : Word) : Word := w &&& ~~~(v &&& mask)

/-- Octet `i` of a 64-bit word. -/
def byteOf (w : BitVec 64) (i : Nat) : Byte := (w >>> (8 * i)).setWidth 8

/-- A 64-bit word with octet `i` replaced. -/
def setByteOf (w : BitVec 64) (i : Nat) (b : Byte) : BitVec 64 :=
  (w &&& ~~~(0xFF#64 <<< (8 * i))) ||| (b.setWidth 64 <<< (8 * i))

/-- The 64 bits a byte mask selects. -/
def maskBits (m : Byte) : BitVec 64 :=
  (List.range 8).foldl (fun acc i => if m.getLsbD i then acc ||| (0xFF#64 <<< (8 * i)) else acc) 0

/-- `new` in the bytes of `m`, `old` elsewhere. -/
def mergeBytes (old new : BitVec 64) (m : Byte) : BitVec 64 := (old &&& ~~~maskBits m) ||| (new &&& maskBits m)

/-! ### Memory: one canonical list of bytes by global address

A global address names a byte of any memory of the device (log entry 3): code flash and the banks at the warden addresses of
R143, the memories a core sees under one address of its own at 0x1_0000_0000 and up. -/

/-- What a byte nothing has written reads as: erased code flash all ones (R69), every other memory zero after the power-up
fill (R181). -/
def memDflt (a : Nat) : Byte := if 0x08000000 ≤ a ∧ a < 0x0C000000 then 0xFF#8 else 0#8

def Mem.read (a : Nat) (m : List Host.Cell) : Byte := Tab.get memDflt a m

def Mem.write (a : Nat) (v : Byte) (m : List Host.Cell) : List Host.Cell :=
  if v = memDflt a then Tab.del a m else Tab.put a v m

/-- The canonical form: addresses strictly rising, no byte listed that reads so anyway. -/
def Mem.wf (m : List Host.Cell) : Bool := Tab.sorted m && m.all fun c => decide (c.2 ≠ memDflt c.1)

/-- The bytes `v` from address `a` up. -/
def Mem.writeAll (a : Nat) : Octets → List Host.Cell → List Host.Cell
  | [], m => m
  | b :: bs, m => Mem.writeAll (a + 1) bs (Mem.write a b m)

/-- `n` bytes from address `a` up. -/
def Mem.readAll (a : Nat) : Nat → List Host.Cell → Octets
  | 0, _ => []
  | n + 1, m => Mem.read a m :: Mem.readAll (a + 1) n m

/-- The 64-bit word number `w` as memory holds it. -/
def rawWord (s : State) (w : Nat) : BitVec 64 := BitVec.ofNat 64 (ofLe (Mem.readAll (8 * w) 8 s.mem))

def setRawWord (s : State) (w : Nat) (v : BitVec 64) : State :=
  { s with mem := Mem.writeAll (8 * w) (leOctets 8 v.toNat) s.mem }

/-- The bytes of memory `v` written from address `a` up. -/
def writeMem (s : State) (a : Nat) (v : Octets) : State := { s with mem := Mem.writeAll a v s.mem }

def scratchBase (n : Nat) : Nat := 0x100000000 + n * 0x10000
def xramBase (c : Nat) : Nat := 0x200000000 + c * 0x4000
def bitBase (c : Nat) : Nat := 0x210000000 + c * 0x2000
def mgmtXram : Nat := 0x220000000
def bankBase (c k : Nat) : Nat := 0x01000000 + c * 0x100000 + k * 0x40000
def beamBase : Nat := 0x04000000

/-- The bank a global address lies in. -/
def bankAt (a : Nat) : Option (Nat × Nat) :=
  if 0x01000000 ≤ a ∧ a < 0x03000000 then
    some ((a - 0x01000000) / 0x100000, (a % 0x100000) / 0x40000)
  else none

/-- The merge-buffer entry of word `w`, if there is one. -/
def mergeOf (s : State) (w : Nat) : Option MergeEntry :=
  match bankAt (8 * w) with
  | none => none
  | some (c, k) => (getBank s c k).merge.find? fun e => e.word == w

/-- The word as every reader sees it: memory with a merge entry's bytes in place (R157). -/
def visWord (s : State) (w : Nat) : BitVec 64 :=
  match mergeOf s w with
  | none => rawWord s w
  | some e => mergeBytes (rawWord s w) e.data e.mask

/-- The ECC state of word `w`: 0 clean, 1 correctable, 2 uncorrectable, 3 poisoned (R179). -/
def eccOf (s : State) (w : Nat) : Nat := Tab.get (fun _ => 0) w s.ecc

def setEcc (s : State) (w v : Nat) : State :=
  { s with ecc := if v = 0 then Tab.del w s.ecc else Tab.put w v s.ecc }

/-! ### Dictionary entries held as numbers -/

def entKey (idx sub : Nat) : Nat := idx * 256 + sub

/-- The default of route `src` (R205). -/
def routeDflt (src : Nat) : Nat :=
  if 560 ≤ src ∧ src ≤ 687 then (src - 560) + 4 * 256 + 2048
  else if src = 768 ∨ src = 769 then (src - 640) + 4 * 256 + 2048
  else if src = 770 ∨ src = 771 ∨ src = 772 ∨ src = 778 then 130 + 7 * 256 + 2048
  else if 800 ≤ src ∧ src ≤ 927 then 130 + 7 * 256 + 2048
  else 130

/-- The default of a facet's configuration entry 0x3000 + p (R256). -/
def facetDflt (p sub : Nat) : Nat :=
  if sub = 5 then 1 else if sub = 9 then 8 else if sub = 0x0A then 0xFFFF else if sub = 0x0B then 1000
  else if sub = 0x0C then 0x001C0000 + (p % 8) * 0x4000 else if sub = 0x0D then 8 else 0

/-- The default of a channel's configuration entry 0x5000 + n, as its register holds it (R318, R319). -/
def channelDflt (sub : Nat) : Nat :=
  if sub = 5 then 100 else if sub = 0x0D then 0x1FFFF else if sub = 0x0E then 0x20000 else if sub = 0x10 then 0x100000
  else if sub = 0x11 then 0x1FF000 else if sub = 0x12 then 0x8087A2 else 0

/-- The default of the entry of a key: the values the object reference gives. -/
def entDflt (key : Nat) : Nat :=
  let idx := key / 256
  let sub := key % 256
  if 0x7000 ≤ idx ∧ idx ≤ 0x7007 then routeDflt ((idx - 0x7000) * 128 + (sub - 1))
  else if 0x3000 ≤ idx ∧ idx < 0x3100 then facetDflt (idx - 0x3000) sub
  else if 0x5000 ≤ idx ∧ idx < 0x5010 then channelDflt sub
  else if 0x4100 ≤ idx ∧ idx < 0x4120 then (if sub = 1 then 0xFF else if sub = 2 then 2 else 0)
  else if idx = 0x1100 then (if sub = 1 then 1 else 0)
  else if idx = 0x1101 then (if sub = 1 ∨ sub = 2 then 2 else if sub = 3 then 1 else 0)
  else if idx = 0x1102 then (if sub = 1 then 48620 else 0)
  else if idx = 0x1103 then (if sub = 1 then 100 else 0)
  else if idx = 0x1110 then (if sub = 3 then 60 else if sub = 4 then 1 else 0)
  else if idx = 0x2100 then (if sub = 1 then 960 else 0)
  else if idx = 0x2200 then (if sub = 4 then 2 else if sub = 9 then 0xFFFF else 0)
  else if idx = 0x2400 then (if sub = 1 then 1000 else if sub = 3 then 100 else 0)
  else if 0x4200 ≤ idx ∧ idx < 0x4204 then (if sub = 3 then 0x3800 else 0)
  else if idx = 0x9000 then (if sub = 1 then 2 else 0)
  else if idx = 0x9001 ∨ idx = 0x9004 then (if sub = 1 then 0xFFFF else if sub = 2 then 1 else if sub = 3 then 1000 else 0)
  else if idx = 0x9002 ∨ idx = 0x9003 then (if sub = 1 then 0xFF else 0)
  else 0

def ent (s : State) (idx sub : Nat) : Nat := Tab.get entDflt (entKey idx sub) s.ent

def setEnt (s : State) (idx sub v : Nat) : State := { s with ent := Tab.put (entKey idx sub) v s.ent }

/-- A 32-bit counter entry counts, saturating (R344). -/
def bumpEnt (s : State) (idx sub : Nat) : State := setEnt s idx sub (satInc 0xFFFFFFFF (ent s idx sub))

/-! ### Events and the error history -/

/-- Source `src` raises (R203): the raise reaches the router, which EVENT_DELIVERY then delivers. -/
def raise (s : State) (src : Nat) : State :=
  { s with router := { s.router with raised := s.router.raised ++ [src] } }

/-- An entry is added to the error history (R348): the newest 64 are kept. -/
def logErr (s : State) (code origin : Nat) (data : Octets) : State :=
  bumpEnt { s with errs := ({ code, origin, time := s.tb, data } :: s.errs).take 64 } 0x1200 2

/-- An emergency (R336): logged, and queued 16 deep; one that finds the queue full is counted at 0x1200:03. -/
def emergency (s : State) (code origin : Nat) (data : Octets) : State :=
  let s1 := logErr s code origin data
  if s1.emerg.length < 16 then { s1 with emerg := s1.emerg ++ [{ code, origin, time := s.tb, data }] }
  else bumpEnt s1 0x1200 3

/-! ### The Iris registers of a cluster and its pace (R37, R374) -/

def getIr (s : State) (c : Nat) : IrisCl := Tab.get (fun _ => IrisCl.reset) c s.iris.cl
def setIr (s : State) (c : Nat) (v : IrisCl) : State := { s with iris := { s.iris with cl := Tab.put c v s.iris.cl } }
def modIr (s : State) (c : Nat) (f : IrisCl → IrisCl) : State := setIr s c (f (getIr s c))

/-- Bits [23:20] of IRCLM c as a number: STOP, PBRK, SATUR, OVRES. -/
def irBits (v : IrisCl) : Nat :=
  (if v.stop then 1 else 0) + (if v.pbrk then 2 else 0) + (if v.satur then 4 else 0) + (if v.ovres then 8 else 0)

/-- Bit `i` of those is set; event 704 + c is raised when it rises while enabled. -/
def setIrBit (s : State) (c i : Nat) : State :=
  let v := getIr s c
  let up := irBits v / 2 ^ i % 2 = 0 ∧ s.iris.clen.getLsbD i
  let s1 := setIr s c
    { v with stop := v.stop || i == 0, pbrk := v.pbrk || i == 1, satur := v.satur || i == 2, ovres := v.ovres || i == 3 }
  if up then raise s1 (704 + c) else s1

def isPaced (s : State) (c : Nat) : Bool := (getCluster s c).pace != 0

/-- The pace of a paced cluster is broken (R37, R38): 1 thermal, 2 late handshake. -/
def breakPace (s : State) (c why : Nat) : State :=
  setIrBit (modCluster s c fun v => { v with broken := true, why }) c 1

/-! ### Event bits of a cluster and of a quadrant -/

/-- CLEVT bits of cluster `c` are set; event 512 + c is raised when an enabled one was 0 (R178). -/
def setClevt (s : State) (c : Nat) (mask : Word) : State :=
  let v := getCluster s c
  let s1 := setCluster s c { v with clevt := v.clevt ||| mask }
  if mask &&& ~~~v.clevt &&& v.cleven ≠ 0 then raise s1 (512 + c) else s1

/-- BEEVT bits of quadrant `q` are set; event 544 + 4q + i is raised for each enabled one that was 0 (R226). -/
def setBeevt (s : State) (q : Nat) (bit i : Nat) : State :=
  let v := getQuad s q
  let m : Byte := 1#8 <<< bit
  let s1 := setQuad s q { v with beevt := v.beevt ||| m }
  if m &&& ~~~v.beevt &&& v.beeven ≠ 0 then raise s1 (544 + 4 * q + i) else s1

/-! ### Data integrity (R179, R180, R183, R184) -/

/-- The memory a word belongs to. -/
inductive Place where
  | bank (c k : Nat)
  | beam (q : Nat)
  | xram (c : Nat)
  | bits (c : Nat)
  | scratch (n : Nat)
  | mgmt
  | other
  deriving DecidableEq, Repr

def placeOf (w : Nat) : Place :=
  let a := 8 * w
  if 0x01000000 ≤ a ∧ a < 0x03000000 then .bank ((a - 0x01000000) / 0x100000) ((a % 0x100000) / 0x40000)
  else if 0x04000000 ≤ a ∧ a < 0x04400000 then .beam ((a - 0x04000000) / 0x100000)
  else if 0x100000000 ≤ a ∧ a < 0x200000000 then .scratch ((a - 0x100000000) / 0x10000)
  else if 0x200000000 ≤ a ∧ a < 0x210000000 then .xram ((a - 0x200000000) / 0x4000)
  else if 0x210000000 ≤ a ∧ a < 0x220000000 then .bits ((a - 0x210000000) / 0x2000)
  else if 0x220000000 ≤ a ∧ a < 0x220004000 then .mgmt
  else .other

/-- The index of a word within its memory. -/
def wordIndex (w : Nat) : Nat :=
  match placeOf w with
  | .bank _ _ => w % 0x8000
  | .beam _ => w % 0x20000
  | .xram _ => w % 0x800
  | .bits _ => w % 0x400
  | .scratch _ => w % 0x2000
  | .mgmt => w % 0x800
  | .other => w

/-- The memory and place octets of log code 0x4101 (R348). -/
def placeData (p : Place) : Octets :=
  match p with
  | .bank c k => [BitVec.ofNat 8 k, BitVec.ofNat 8 c]
  | .beam q => [4#8, BitVec.ofNat 8 q]
  | .xram c => [5#8, BitVec.ofNat 8 c]
  | .bits c => [6#8, BitVec.ofNat 8 c]
  | .scratch n => [7#8, BitVec.ofNat 8 n]
  | .mgmt => [8#8, 0xFF#8]
  | .other => [0xFF#8, 0xFF#8]

/-- What reporting a newly poisoned word of a memory does (R180, R210, R225). -/
def reportPlace (s : State) (w : Nat) : Place → State
  | .bank c k => setClevt s c (1#32 <<< (8 + k))
  | .beam q =>
    let b := (8 * w - beamBase) / 64
    let x := getBeam s b
    let s1 := setBeam s b { x with poison := true }
    if x.poison then s1 else setBeevt s1 q 0 0
  | .xram c => setClevt s c (1#32 <<< 24)
  | .bits c => setClevt s c (1#32 <<< 24)
  | .scratch n => if isWarden n then raise s 779 else setClevt s (clusterOf n) (1#32 <<< 25)
  | .mgmt => raise s 779
  | .other => s

/-- Word `w` is newly made poisoned: reported, logged with 0x4101 and counted at 0x2400:07 (R180). -/
def newPoison (s : State) (w : Nat) : State :=
  let p := placeOf w
  let s1 := setEcc s w 3
  bumpEnt (logErr (reportPlace s1 w p) 0x4101 0 (placeData p ++ leOctets 4 (wordIndex w))) 0x2400 7

/-- The depth of a correction history: 32 entries, 16 on A0 (R183). -/
def histDepth (s : State) : Nat := if s.part.b0 then 32 else 16

def historyAt (s : State) : Place → List Corr
  | .bank c k => (getBank s c k).hist
  | .beam q => (getQuad s q).hist
  | .xram c => (getCluster s c).hist
  | .bits c => (getCluster s c).hist
  | .scratch n => if isWarden n then s.mhist else (getCluster s (clusterOf n)).hist
  | .mgmt => s.mhist
  | .other => []

def setHistory (s : State) (p : Place) (h : List Corr) : State :=
  match p with
  | .bank c k => modBank s c k fun b => { b with hist := h }
  | .beam q => modQuad s q fun v => { v with hist := h }
  | .xram c => modCluster s c fun v => { v with hist := h }
  | .bits c => modCluster s c fun v => { v with hist := h }
  | .scratch n => if isWarden n then { s with mhist := h } else modCluster s (clusterOf n) fun v => { v with hist := h }
  | .mgmt => { s with mhist := h }
  | .other => s

/-- 86,400 s in ns (R183). -/
def dayNs : Nat := 86400000000000

/-- The history without the entries older than 86,400 s. -/
def freshHist (tb : Nat) (h : List Corr) : List Corr := h.filter fun e => decide (tb ≤ e.first + dayNs)

/-- The history without its entry of the oldest first correction. -/
def dropOldest (h : List Corr) : List Corr :=
  match h with
  | [] => []
  | e :: t =>
    let o := t.foldl (fun m x => if x.first < m.first then x else m) e
    h.erase o

/-- A permanent word (R184, R225): a bank or beam SRAM word goes to a free spare, or its memory is degraded; a word of another
memory is counted at 0x2400:08. -/
def permanentWord (s : State) (w : Nat) : State :=
  match placeOf w with
  | .bank c k =>
    let b := getBank s c k
    if b.remap.length < 16 then setClevt (modBank s c k fun b => { b with remap := b.remap ++ [w] }) c (1#32 <<< (12 + k))
    else emergency (setClevt (modBank s c k fun b => { b with degr := true }) c (1#32 <<< (16 + k))) 0x8150 0
      [BitVec.ofNat 8 c, BitVec.ofNat 8 k]
  | .beam q =>
    let v := getQuad s q
    if v.remap.length < 64 then modQuad s q fun v => { v with remap := v.remap ++ [w] }
    else emergency (setBeevt (modQuad s q fun v => { v with degr := true }) q 5 0) 0x8150 0 [BitVec.ofNat 8 q, 4#8]
  | .other => s
  | _ => bumpEnt s 0x2400 8

/-- A correction of word `w` is counted against it (R183): the third within 86,400 s makes it permanent, and its entry is freed (DESIGN CHOICE: the
spec does not say whether the entry stays; log entry 110). -/
def noteCorrection (s0 : State) (w : Nat) : State :=
  let s := bumpEnt s0 0x2400 6
  let p := placeOf w
  let h := freshHist s.tb (historyAt s p)
  match h.find? fun e => e.word == w with
  | some e =>
    if e.count + 1 = 3 then permanentWord (setHistory s p (h.filter fun x => x.word != w)) w
    else setHistory s p (h.map fun x => if x.word = w then { x with count := x.count + 1 } else x)
  | none =>
    let new : Corr := { word := w, count := 1, first := s.tb }
    if h.length < histDepth s then setHistory s p (h ++ [new])
    else
      let s1 := setHistory s p (dropOldest h ++ [new])
      match p with
      | .bank c k => modBank s1 c k fun b => { b with hovf := satInc 255 b.hovf }
      | _ => s1

/-- The check of a read of word `w` (R180): the state after it and whether the word reads uncorrectable or poisoned. -/
def checkWord (s : State) (w : Nat) : State × Bool :=
  match eccOf s w with
  | 0 => (s, false)
  | 1 => (noteCorrection (setEcc s w 0) w, false)
  | 2 => (newPoison s w, true)
  | _ => (s, true)

/-- A read-modify-write of word `w` (R158, R179). -/
def rmwWord (s : State) (w : Nat) (data : BitVec 64) (mask : Byte) : State :=
  let r := checkWord s w
  setRawWord r.1 w (mergeBytes (rawWord r.1 w) data mask)

/-- A write of the whole word stores fresh check bits and removes poison (R179). -/
def wholeWord (s : State) (w : Nat) (data : BitVec 64) : State := setEcc (setRawWord s w data) w 0

/-- A write of the bytes of `mask` of word `w` at memory. -/
def memWrite (s : State) (w : Nat) (data : BitVec 64) (mask : Byte) : State :=
  if mask = 0xFF#8 then wholeWord s w data else rmwWord s w data mask

/-- The merge entry of word `w`, if any, is written out (R157). -/
def forceMerge (s : State) (w : Nat) : State :=
  match bankAt (8 * w) with
  | none => s
  | some (c, k) =>
    match (getBank s c k).merge.find? fun e => e.word == w with
    | none => s
    | some e => memWrite (modBank s c k fun b => { b with merge := b.merge.filter fun x => x.word != w }) w e.data e.mask

/-- Every merge entry of the bank is written out, oldest first (R157). -/
def flushMerge (s : State) (c k : Nat) : State :=
  (getBank s c k).merge.foldl (fun t e => forceMerge t e.word) s

/-- The contents of a loaned window are restored from the shadow and the window is returned: poisoned words stay poisoned, an uncorrectable
one is written poisoned, the others get fresh check bits (R185 to R187). -/
def restoreLoan (s : State) (c k : Nat) : State :=
  match (getBank s c k).loan with
  | none => s
  | some l =>
    let w0 := (bankBase c k + l.win * 256) / 8
    let s1 := (l.shadow.zipIdx).foldl (fun t e =>
      let t1 := setEcc (setRawWord t (w0 + e.2) e.1.1) (w0 + e.2) (if e.1.2 = 3 then 3 else 0)
      if e.1.2 = 2 then newPoison t1 (w0 + e.2) else t1) s
    modBank s1 c k fun b => { b with loan := none }

/-- An access to word `w` ends a loan of its window (R186). -/
def endLoanAt (s : State) (w : Nat) : State :=
  match bankAt (8 * w) with
  | none => s
  | some (c, k) =>
    match (getBank s c k).loan with
    | none => s
    | some l => if (8 * w % 0x40000) / 256 = l.win then restoreLoan s c k else s

/-- The collision registers after a collision on word `idx` of master `i` (granted first) with facet field `fi` and master `j`, `fj`
(R175, R178). -/
def recordCol (c0 c1 : Word) (idx i fi j fj : Nat) : Word × Word :=
  if c0.getLsbD 16 then (c0, blend c1 (BitVec.ofNat 32 (satInc 255 (field c1 16 8) * 0x10000)) 0xFF0000#32)
  else (BitVec.ofNat 32 (0x10000 + idx % 0x8000), BitVec.ofNat 32 (i % 16 + fi % 8 * 16 + j % 16 * 256 + fj % 8 * 4096))

/-- The conflict counter of master `m` counts (R176). -/
def bumpConf (v : Cluster) (m : Nat) : Cluster :=
  { v with conf := Tab.put m (satInc 0xFFFFFFFF (Tab.get (fun _ => 0) m v.conf)) v.conf }

/-- The master code of the core whose store opened a merge entry (R177). -/
def coreMaster (n : Nat) : Nat := if n < 128 then n % 4 else n - 124

/-- Two writes of word `w` meet (R175, R176, R178): that of master `i` (of facet `fi`) is granted, that of master `j` (of facet `fj`) waits and its
counter counts; in native arbitration the collision is recorded. On A0 exchange RAM and bit store have no collision registers. -/
def clash (s : State) (w i fi j fj : Nat) : State :=
  let on (c : Nat) (put : Cluster → Word → Word → Cluster) (cols : Cluster → Word × Word) (bit : Nat) (there : Bool) : State :=
    let v := bumpConf (getCluster s c) j
    let r := recordCol (cols v).1 (cols v).2 (wordIndex w) i fi j fj
    if v.classic || !there then setCluster s c v else setClevt (setCluster s c (put v r.1 r.2)) c (1#32 <<< bit)
  match placeOf w with
  | .bank c k =>
    let v := modCluster s c fun v => bumpConf v j
    let x := getBank s c k
    let r := recordCol x.col0 x.col1 (wordIndex w) i fi j fj
    if (getCluster s c).classic then v else setClevt (modBank v c k fun b => { b with col0 := r.1, col1 := r.2 }) c (1#32 <<< k)
  | .xram c => on c (fun v a b => { v with xcol0 := a, xcol1 := b }) (fun v => (v.xcol0, v.xcol1)) 4 s.part.b0
  | .bits c => on c (fun v a b => { v with bcol0 := a, bcol1 := b }) (fun v => (v.bcol0, v.bcol1)) 5 s.part.b0
  | _ => s

/-- The master code of the copy unit of core `n` at a memory of cluster `c`: its own, or the fabric's from another cluster; a warden's copy goes
under the warden's code (R177; log entry 109). -/
def copyMaster (c n : Nat) : Nat := if isWarden n then coreMaster n else if clusterOf n = c then 12 + n % 4 else 10

/-- The copies in flight that have word `w` of cluster `c` among the words they are still to write, those of master `m` apart. -/
def copyRivals (s : State) (c m w : Nat) : List Nat :=
  (s.cores.filter fun e =>
    copyMaster c e.1 != m &&
    match e.2.u.copy with
    | some o => (o.kind == .move || o.kind == .fill) && (o.remote == 0 || o.remote == 2) && decide (o.dstP < 8 * w + 8) && decide (8 * w < o.dstP + o.left)
    | none => false).map Prod.fst

/-- A write of master `m` to word `w` of a memory of cluster `c` meets the copies that have the word before them (R173, R175). Whether such a copy's
own write is pending just then is free (log entry 109); it is made after this one, so that the copy stands. In classic arbitration it cannot
pend where its master goes first. -/
def meetCopies (s : State) (c m f w : Nat) : State :=
  match copyRivals s c m w with
  | [] => s
  | rs =>
    (rs.filter fun n => Config.pendingWrite s.free n w && (!(getCluster s c).classic || decide (m < copyMaster c n))).foldl
      (fun t n => clash t w m f (copyMaster c n) 0) { s with free := s.free + 1 }

/-- A write of master `m` (R177; `f` its local facet number, if it is a facet) at a memory: a waiting merge entry is forced out first
(R157, R175), and copies under way are met. -/
def portWrite (s0 : State) (m f w : Nat) (data : BitVec 64) (mask : Byte) : State :=
  let s := endLoanAt s0 w
  let s1 := match mergeOf s w with | some e => if coreMaster e.core = m then s else clash s w (coreMaster e.core) 0 m f | none => s
  let s2 := match placeOf w with | .bank c _ | .xram c | .bits c => meetCopies s1 c m f w | _ => s1
  memWrite (forceMerge s2 w) w data mask

/-- A checked read of word `w` as every reader sees it. -/
def portRead (s : State) (w : Nat) : State × BitVec 64 × Bool :=
  let s1 := endLoanAt s w
  let r := checkWord s1 w
  (r.1, visWord r.1 w, r.2)

/-- Bytes `v` from address `a` written word by word through a port. -/
def portWriteBytes (m f : Nat) : Nat → State → Nat → Octets → State
  | 0, s, _, _ => s
  | n + 1, s, a, v =>
    match v with
    | [] => s
    | _ =>
      let off := a % 8
      let k := min (8 - off) v.length
      let part := v.take k
      let data := BitVec.ofNat 64 (ofLe part * 256 ^ off)
      let mask := BitVec.ofNat 8 ((2 ^ k - 1) * 2 ^ off)
      portWriteBytes m f n (portWrite s m f (a / 8) data mask) (a + k) (v.drop k)

/-- `n` bytes from address `a` as a port reads them; whether any word failed. -/
def portReadBytes : Nat → State → Nat → Nat → State × Octets × Bool
  | 0, s, _, _ => (s, [], false)
  | f + 1, s, a, n =>
    if n = 0 then (s, [], false)
    else
      let off := a % 8
      let k := min (8 - off) n
      let r := portRead s (a / 8)
      let bytes := ((leOctets 8 r.2.1.toNat).drop off).take k
      let t := portReadBytes f r.1 (a + k) (n - k)
      (t.1, bytes ++ t.2.1, r.2.2 || t.2.2)

end Sys2Proof.Machine
end

