-- ==== Sys2Proof/Machine/FacetOps.lean ====
section
/-! DEFINITION. Operations on facets the other families share: events, completion of a transmit descriptor, packets into the
fabric. -/

namespace Sys2Proof.Machine

def getFacet (s : State) (p : Nat) : Facet := Tab.get Facet.reset p s.facets
def setFacet (s : State) (p : Nat) (f : Facet) : State := { s with facets := Tab.put p f s.facets }
def modFacet (s : State) (p : Nat) (g : Facet → Facet) : State := setFacet s p (g (getFacet s p))

/-- The facet a facet stands in for, else itself (R264). -/
def faceOf (s : State) (q : Nat) : Nat := ((getFacet s q).standsFor).getD q

/-- The facet whose lane serves facet `p`: its standby once that has taken over (R264). -/
def laneOf (s : State) (p : Nat) : Nat :=
  match (getFacet s p).deputy with
  | some q => if (getFacet s q).standsFor = some p then q else p
  | none => p

/-- FEVT bits are set; an enabled one that was 0 raises service event p ([7:0]) or link event 256 + p ([15:8]) (R255). -/
def setFevt (s : State) (p : Nat) (mask : BitVec 16) : State :=
  let f := getFacet s p
  let up := mask &&& ~~~f.fevt &&& f.feven
  let s1 := setFacet s p { f with fevt := f.fevt ||| mask }
  let s2 := if up &&& 0xFF#16 ≠ 0 then raise s1 p else s1
  if up &&& 0xFF00#16 ≠ 0 then raise s2 (256 + p) else s2

def fevtBit (i : Nat) : BitVec 16 := 1#16 <<< i

/-- FSTAT.STATE changes: FEVT.STATE is set (R247). -/
def setLinkState (s : State) (p st : Nat) : State :=
  if (getFacet s p).state = st then s
  else setFevt (modFacet s p fun f => { f with state := st }) p (fevtBit 8)

/-- A U64 counter of 0x3100 + p counts up by `n`; it wraps. A retired facet's counters hold (R344, R355). -/
def bumpCounter (s : State) (p sub n : Nat) : State :=
  if (getFacet s p).retired then s else setEnt s (0x3100 + p) sub ((ent s (0x3100 + p) sub + n) % 2 ^ 64)

/-- A U32 counter of 0x3100 + p counts, saturating. A retired facet's counters hold (R344, R355). -/
def countFacet (s : State) (p sub : Nat) : State := if (getFacet s p).retired then s else bumpEnt s (0x3100 + p) sub

/-- The same by `n`. -/
def countFacetBy (s : State) (p sub n : Nat) : State :=
  if (getFacet s p).retired then s else setEnt s (0x3100 + p) sub (min 0xFFFFFFFF (ent s (0x3100 + p) sub + n))

def stagingOf (f : Facet) (lc : Nat) : Staging := Tab.get (fun _ => Staging.reset) lc f.staging

/-- An entry of a completion FIFO of 32 entries; a full FIFO loses its oldest (R253). -/
def pushDone (l : List Done) (d : Done) : List Done := if l.length < 32 then l ++ [d] else l.drop 1 ++ [d]

/-- The quadrant of a cluster (R14) and the route of a packet between clusters (R287). -/
def quadOf (c : Nat) : Nat := c / 8

/-- The mesh link from quadrant `q` to `r`, then the crossbar of `r`. -/
def meshHops (q r : Nat) : List Nat := if q = r then [] else [64 + 4 * q + r, 128 + 4 * q + r]

def routeBetween (a b : Nat) : List Nat := [a, 96 + a] ++ meshHops (quadOf a) (quadOf b) ++ [32 + b]

/-- The management port of the facet's own quadrant joins it to the warden (R287). -/
def routeToWarden (c : Nat) : List Nat := [c, 96 + c, 80 + quadOf c]
def routeFromWarden (c : Nat) : List Nat := [84 + quadOf c, 144 + quadOf c, 32 + c]

/-- The credits of a virtual channel at a hop (R289). -/
def vcCredits (vc : Nat) : Nat := if vc = 1 then 256 else 128

/-- The virtual channel of a packet kind; a transmit descriptor, its data and its completion use VC2 when the slot is 0x1FF (R288). -/
def kindVc (k : PacketKind) (unscheduled : Bool) : Nat :=
  match k with
  | .management | .reflex => 0
  | .txDesc | .txRead | .completion => if unscheduled then 2 else 1
  | .relay | .fostered => 1
  | .remoteCopy => 2

def hopQueue (s : State) (hop vc : Nat) : List Packet := Tab.get (fun _ => []) (3 * hop + vc) s.fabric.queues

def setHopQueue (s : State) (hop vc : Nat) (q : List Packet) : State :=
  { s with fabric := { s.fabric with queues := Tab.put (3 * hop + vc) q s.fabric.queues } }

/-- The flits of `octets` octets of data: a header flit per 256 octets and a flit per 32 octets (R288). -/
def dataFlits (octets : Nat) : Nat := min 128 (max 1 ((octets + 255) / 256) + (octets + 31) / 32)

/-- A packet of `octets` octets of data, with or without the poison mark, enters the fabric at the first hop of its route (R288, R294); what travels as several packets in order is kept together as one (log entry 25). -/
def sendMarked (s : State) (vc : Nat) (kind : PacketKind) (route : List Nat) (octets : Nat) (poison : Bool) (body : PktBody) : State :=
  match route with
  | [] => s
  | h :: rest =>
    let p : Packet := { kind, flits := dataFlits octets, route := rest, poison, body }
    setHopQueue s h vc (hopQueue s h vc ++ [p])

/-- A packet with no poison mark enters the fabric. -/
def sendPacket (s : State) (vc : Nat) (kind : PacketKind) (route : List Nat) (octets : Nat) (body : PktBody) : State :=
  sendMarked s vc kind route octets false body

/-- The entry of a completion in a core's RTXDONE (R292). -/
def pushRtxDone (s : State) (n id : Nat) (d : Done) : State :=
  modCore s n fun k =>
    { k with q := { k.q with rtxdone := pushDone k.q.rtxdone d
                             rtxOut := k.q.rtxOut.filter fun o => o.id != id } }

/-- A completion entry enters a staging set's FIFO; an overwritten entry is counted (R253, R355). -/
def pushStaging (s : State) (p lc : Nat) (e : Done) : State :=
  let f := getFacet s p
  let st := stagingOf f lc
  let s1 := setFacet s p { f with staging := Tab.put lc { st with done := pushDone st.done e } f.staging }
  if st.done.length < 32 then s1 else countFacet s1 p 0x16

/-- What the counters of the facet keep of a completion (R355). -/
def countResult (s : State) (p : Nat) (d : TxDesc) (result : Nat) : State :=
  if result = 0 then bumpCounter (bumpCounter s p 6 1) p 7 d.len
  else if result = 1 ∨ result = 2 ∨ result = 3 ∨ result = 11 then countFacet s p 0x12
  else s

/-- The facet a descriptor was posted to shows its completion, when FEVEN.TXDONE = 1 (R253). -/
def showDone (s : State) (p : Nat) : State := if (getFacet s p).feven.getLsbD 3 then setFevt s p (fevtBit 3) else s

/-- A descriptor at facet `p` completes once with its result (R253): into its staging set's FIFO, by a packet into the posting core's RTXDONE,
or by freeing the ingress buffer of a relay (R249). -/
def completeDesc (s0 : State) (p : Nat) (d : TxDesc) (result : Nat) : State :=
  let s := if d.poster = .own then s0 else countResult s0 p d result
  let e : Done := { cookie := d.cookie, result }
  let s1 :=
    match d.poster with
    | .own => s
    | .staging lc => pushStaging s d.face lc e
    | .fabric n =>
      let c := n / 4
      if c = p / 8 then pushRtxDone s n d.id e
      else sendPacket s (kindVc .completion (d.slot == 0x1FF)) .completion (routeBetween (p / 8) c) 4 (.done n d.id e)
    | .relay g idx => modFacet s g fun f => { f with bufs := Tab.put idx .free f.bufs }
  if d.poster = .own then s1 else showDone s1 d.face

/-- The descriptors of facet `p` that wait for their beam `b` (R219). -/
def heldFor (b : Nat) (d : TxDesc) : Bool := d.held && d.tag == some b

/-- A commit makes the held transmit descriptors of the beam eligible at their facets; how many (R219). -/
def releaseTx (b : Nat) (fs : Tab Facet) : Tab Facet × Nat :=
  (fs.map fun e => (e.1, { e.2 with queue := e.2.queue.map fun d => if heldFor b d then { d with held := false } else d }),
   fs.foldl (fun n e => n + (e.2.queue.filter (heldFor b)).length) 0)

/-- A commit or a deletion frees the ring space of the beam's frames that were posted (R219, R250). -/
def freeRx (b : Nat) (fs : Tab Facet) : Tab Facet :=
  fs.map fun e =>
    let waiting := (e.2.posts.filter fun x => x.beam == some b && !x.again).map fun x => x.idx
    (e.1, { e.2 with held := e.2.held.filter fun x => x.beam != some b
                     posts := e.2.posts.filter fun x => !(x.beam == some b && x.again)
                     bufs := e.2.bufs.map fun x => if x.2 = .beam b ∧ !waiting.contains x.1 then (x.1, .free) else x })

/-- The held transmit descriptors of the beam complete with `result` (R253). -/
def discardTx (s : State) (b result : Nat) : State :=
  s.facets.foldl (fun t e =>
    let ds := (getFacet t e.1).queue.filter (heldFor b)
    let t1 := modFacet t e.1 fun f => { f with queue := f.queue.filter fun d => !heldFor b d }
    ds.foldl (fun u d => completeDesc u e.1 d result) t1) s

end Sys2Proof.Machine
end

