-- ==== Sys2Proof/Machine/Access.lean ====
section
/-! DEFINITION. The core's address map, the aperture checks in their order, bank ownership, and where an access lands
(R143 to R151, R168). -/

namespace Sys2Proof.Machine

/-- The direction of an access: an exchange needs both rights (R147). -/
inductive Dir where
  | read | write | exec | both
  deriving DecidableEq, Repr

/-- A region of R143 or a block of R145. `dev` carries the block's base address. -/
inductive Region where
  | none | scratch | xram | bits | ownBanks | allBanks | beam | flash | rom
  | dev (base : Nat)
  | setAlias (inner : Nat)
  | clrAlias (inner : Nat)
  deriving DecidableEq, Repr

/-- The regions of R143 outside the device range and the aliases. -/
def plainRegion (s : State) (n p : Nat) : Region :=
  if p < 0x10000 then .scratch
  else if p < 0x14000 then .xram
  else if 0x20000 ≤ p ∧ p < 0x22000 then (if isWarden n then .none else .bits)
  else if 0x100000 ≤ p ∧ p < 0x200000 then (if isWarden n then .none else .ownBanks)
  else if 0x01000000 ≤ p ∧ p < 0x03000000 then
    if isWarden n ∧ (p - 0x01000000) / 0x100000 < nClusters s then .allBanks else .none
  else if 0x04000000 ≤ p ∧ p < 0x04400000 then (if (p - 0x04000000) / 64 < nBeams s then .beam else .none)
  else if 0x08000000 ≤ p ∧ p < 0x0C000000 then .flash
  else if 0x40000000 ≤ p ∧ p < 0x40010000 then (if isWarden n then .rom else .none)
  else .none

/-- The device blocks (R145): the base of the block the address lies in, if core `n` reaches it. -/
def deviceRegion (s : State) (n p : Nat) : Region :=
  let w := isWarden n
  let c := clusterOf n
  if p < 0x10082000 then
    let m := (p - 0x10000000) / 0x1000
    if corePresent s m ∧ (w ∨ m = n) then .dev (0x10000000 + m * 0x1000) else .none
  else if 0x11000000 ≤ p ∧ p < 0x11200000 then
    let d := (p - 0x11000000) / 0x10000
    if d < nClusters s ∧ (w ∨ d = c) then .dev (0x11000000 + d * 0x10000) else .none
  else if 0x12000000 ≤ p ∧ p < 0x12100000 then
    let f := (p - 0x12000000) / 0x1000
    if f < nFacets s ∧ (w ∨ f / 8 = c) then .dev (0x12000000 + f * 0x1000) else .none
  else if 0x13000000 ≤ p ∧ p < 0x13400000 then
    let q := (p - 0x13000000) / 0x100000
    if q < nQuads s ∧ (w ∨ c / 8 = q) then .dev (0x13000000 + q * 0x100000) else .none
  else if 0x14000000 ≤ p ∧ p < 0x14010000 then .dev 0x14000000
  else if 0x14010000 ≤ p ∧ p < 0x14020000 then .dev 0x14010000
  else if 0x14020000 ≤ p ∧ p < 0x140A0000 then
    if w then .dev (0x14000000 + (p - 0x14000000) / 0x10000 * 0x10000) else .none
  else if 0x15000000 ≤ p ∧ p < 0x15010000 then
    let i := (p - 0x15000000) / 0x1000
    if i < nChans s ∧ (w ∨ c = 2 * i) then .dev (0x15000000 + i * 0x1000) else .none
  else .none

/-- A number for a plain region, to tell the regions behind an alias apart. -/
def Region.code : Region → Nat
  | .none => 0
  | .scratch => 1
  | .xram => 2
  | .bits => 3
  | .ownBanks => 4
  | .allBanks => 5
  | .beam => 6
  | .flash => 7
  | .rom => 8
  | .dev b => b
  | .setAlias i => i
  | .clrAlias i => i

/-- The region of core physical address `p` for core `n` (R143, R145, R161). An alias of an unmapped address is unmapped
(R144). -/
def regionOf (s : State) (n p : Nat) : Region :=
  if 0x10000000 ≤ p ∧ p < 0x20000000 then deviceRegion s n p
  else if 0x20000000 ≤ p ∧ p < 0x23000000 then
    match (plainRegion s n (p - 0x20000000)).code with
    | 0 => .none
    | i => .setAlias i
  else if 0x30000000 ≤ p ∧ p < 0x33000000 then
    match (plainRegion s n (p - 0x30000000)).code with
    | 0 => .none
    | i => .clrAlias i
  else plainRegion s n p

/-- The address an alias address stands for (R161); any other address itself. -/
def aliased (p : Nat) : Nat :=
  if 0x20000000 ≤ p ∧ p < 0x23000000 then p - 0x20000000
  else if 0x30000000 ≤ p ∧ p < 0x33000000 then p - 0x30000000
  else p

/-- The global address (log entry 3) of a core physical address that is no device register. -/
def globalOf (n p0 : Nat) : Nat :=
  let p := aliased p0
  if p < 0x10000 then scratchBase n + p
  else if p < 0x14000 then (if isWarden n then mgmtXram else xramBase (clusterOf n)) + (p - 0x10000)
  else if 0x20000 ≤ p ∧ p < 0x22000 then bitBase (clusterOf n) + (p - 0x20000)
  else if 0x100000 ≤ p ∧ p < 0x200000 then bankBase (clusterOf n) 0 + (p - 0x100000)
  else p

/-! ### Aperture descriptors (R147) -/

def apOf (k : LensCore) (n i : Nat) : Aperture := Tab.get (apReset n) i k.r.ap

def Aperture.kind (a : Aperture) : Nat := a.rights.toNat / 64

def Aperture.start (a : Aperture) : Nat := a.base.toNat / 8 * 8

/-- The right of a direction in a mode: a data access uses the read and write bits of the mode, a fetch the execute bit. -/
def Aperture.allows (a : Aperture) (sup : Bool) (d : Dir) : Bool :=
  let b := if sup then 3 else 0
  match d with
  | .read => a.rights.getLsbD b
  | .write => a.rights.getLsbD (b + 1)
  | .exec => a.rights.getLsbD (b + 2)
  | .both => a.rights.getLsbD b && a.rights.getLsbD (b + 1)

/-! ### What each region allows (R143, R145) -/

/-- Check 7 of R150: the kind, the direction and the privilege the region allows. `kind` is 0 normal, 1 device, 2 alias. -/
def regionAllows (n : Nat) (sup : Bool) (r : Region) (kind : Nat) (d : Dir) : Bool :=
  let w := isWarden n
  let wr := d == .write || d == .both
  let plain (i : Nat) : Bool :=
    match i with
    | 3 => d != .exec
    | 6 => if w then d != .exec else d == .read && sup
    | 7 => !wr
    | 8 => !wr
    | _ => true
  match r with
  | .none => false
  | .dev b => kind == 1 && d != .exec && !(wr && !w && (decide (0x13000000 ≤ b ∧ b < 0x14020000)))
  | .setAlias i => kind == 2 && d != .exec && plain i
  | .clrAlias i => kind == 2 && d != .exec && plain i
  | r => kind != 2 && plain r.code

/-- Check 8 of R150: bank ownership (R168). -/
def ownerAllows (s : State) (n p : Nat) (wr : Bool) : Bool :=
  match bankAt (globalOf n p) with
  | none => true
  | some (c, k) =>
    let o := (getBank s c k).owner
    if isWarden n then !wr || (o == 4 && s.active == some n) else o == n % 4

/-- Checks 6 to 8 of R150 over `len` bytes from `p`: the cause of the first that fails. -/
def checkHalf (s : State) (n : Nat) (sup : Bool) (kind : Nat) (d : Dir) (p len : Nat) : Option Nat :=
  let r := regionOf s n p
  if r = .none ∨ regionOf s n (p + len - 1) ≠ r then some 0x16
  else if !regionAllows n sup r kind d then some 0x11
  else if !ownerAllows s n p (d == .write || d == .both) then some 0x13
  else none

/-- The outcome of the checks of R150: the physical address of the first byte, or the cause and BADADDR (R151). -/
inductive Checked where
  | ok (p : Nat)
  | bad (cause : Nat) (addr : Nat)
  deriving DecidableEq, Repr

/-- Checks 6 to 8 for the first half of a split access, then for its second half (R150 to R153). -/
def checkHalves (s : State) (n : Nat) (sup : Bool) (kind : Nat) (d : Dir) (p z : Nat) : Checked :=
  let k := min (8 - p % 8) z
  match checkHalf s n sup kind d p k with
  | some c => .bad c p
  | none =>
    if k = z then .ok p
    else
      match checkHalf s n sup kind d (p + k) (z - k) with
      | some c => .bad c (p + k)
      | none => .ok p

/-- The checks of R150 of an lsu access of `z` bytes at offset `a` through aperture `ap`. -/
def checkAccess (s : State) (n : Nat) (sup : Bool) (ap : Aperture) (d : Dir) (a z : Nat) : Checked :=
  let p := ap.start + a
  let bad (c : Nat) : Checked := .bad c (p % 0x100000000)
  let x := d == .both
  if ap.kind = 3 then bad 0x11
  else if ap.limit.toNat < a + z - 1 then bad 0x10
  else if 0x100000000 ≤ p + z - 1 then bad 0x16
  else if !ap.allows sup d then bad 0x11
  else if x && ap.kind ≠ 0 then bad 0x11
  else if ap.kind = 1 ∧ (z ≠ 4 ∨ p % 4 ≠ 0) then bad 0x12
  else if x && a % 4 ≠ 0 then bad 0x12
  else checkHalves s n sup ap.kind d p z

/-- The checks of a fetch of one 8-byte word at AP0 offset `a` (R68, R116, R144, R149): rights, limit and map, and the kind: no region that
is mapped is fetched through an alias-kind AP0; what no line source serves is unmapped. -/
def checkFetch (s : State) (n : Nat) (sup : Bool) (a : Nat) : Checked :=
  let ap := apOf (getCore s n) n 0
  let p := ap.start + a
  if ap.kind = 3 then .bad 0x11 (p % 0x100000000)
  else if ap.limit.toNat < a + 7 then .bad 0x10 (p % 0x100000000)
  else if 0x100000000 ≤ p + 7 then .bad 0x16 (p % 0x100000000)
  else if !ap.allows sup .exec then .bad 0x11 (p % 0x100000000)
  else if ap.kind = 2 ∧ regionOf s n p ≠ .none then .bad 0x11 p
  else .ok p

/-- The first byte of a range, taken 8-byte word by word, that fails the test `t`. -/
def firstFail (t : Nat → Bool) : Nat → Nat → Nat → Option Nat
  | 0, _, _ => none
  | f + 1, p, len =>
    if len = 0 then none
    else if !t p then some p
    else
      let k := min (8 - p % 8) len
      firstFail t f (p + k) (len - k)

/-- The checks of R104 over a source or destination range of a copy through an aperture. -/
def checkCopyRange (s : State) (n : Nat) (sup : Bool) (ap : Aperture) (d : Dir) (a len : Nat) : Checked :=
  let p := ap.start + a
  let bad (c x : Nat) : Checked := .bad c (x % 0x100000000)
  if len = 0 then .ok p
  else if ap.kind = 3 then bad 0x11 p
  else if ap.limit.toNat < a + len - 1 then bad 0x10 (ap.start + max a (ap.limit.toNat + 1))
  else if 0x100000000 ≤ p + len - 1 then bad 0x16 p
  else if !ap.allows sup d then bad 0x11 p
  else if ap.kind ≠ 0 then bad 0x11 p
  else
    let f := len / 8 + 2
    let r0 := regionOf s n p
    match firstFail (fun x => r0 != .none && regionOf s n x == r0) f p len with
    | some x => .bad 0x16 x
    | none =>
      if !regionAllows n sup r0 ap.kind d then .bad 0x11 p
      else
        match firstFail (fun x => ownerAllows s n x (d == .write)) f p len with
        | some x => .bad 0x13 x
        | none => .ok p

/-- The context word `i` of a beam as the window shows it (R212). -/
def beamWord (x : BeamCtx) (i : Nat) : Word :=
  match i with
  | 0 => x.key
  | 1 => boolWord x.valid ||| (boolWord x.relay <<< 1) ||| (boolWord x.locked <<< 2) ||| (boolWord x.poison <<< 3)
          ||| (x.egress.setWidth 32 <<< 8)
  | 2 => x.owner.setWidth 32 ||| (x.locker.setWidth 32 <<< 8) ||| (x.version.setWidth 32 <<< 16)
  | 3 => x.rxseq.setWidth 32 ||| (x.txseq.setWidth 32 <<< 16)
  | 4 => x.rxframes
  | 5 => x.rxbytes
  | 6 => x.txframes
  | 7 => x.drops
  | 8 => x.heldrx.setWidth 32 ||| (x.heldtx.setWidth 32 <<< 8)
  | i => x.user.getD (i - 9) 0

/-- The 64-bit word number `w` of any memory, the beam table window and the warden ROM among them. -/
def anyWord (s : State) (w : Nat) : BitVec 64 :=
  let a := 8 * w
  if 0x04000000 ≤ a ∧ a < 0x04400000 then
    let x := getBeam s ((a - 0x04000000) / 64)
    let i := a % 64 / 4
    (beamWord x (i + 1)) ++ (beamWord x i)
  else if 0x40000000 ≤ a ∧ a < 0x40010000 then
    BitVec.ofNat 64 (ofLe ((List.range 8).map fun i => Config.romByte (a - 0x40000000 + i)))
  else visWord s w

end Sys2Proof.Machine
end

