-- ==== Sys2Proof/Machine/Flags.lean ====
section
/-! DEFINITION. Results and flags of the arithmetic units: alu, mul, div (R87 to R91), CRC-32C (R102), binary32 (R109). -/

namespace Sys2Proof.Machine

/-! ### alu (R87, R88) -/

inductive AluOp where
  | add | sub | and | or | xor | andn | shl | shr | sar | rotl | eq | lt | ltu
  deriving DecidableEq, Repr

def boolOut (b : Bool) : Word := if b then 1#32 else 0#32

/-- `out` of an alu trigger with first operand `a` and `b` operand `b` (R87). -/
def aluResult (o : AluOp) (a b : Word) : Word :=
  match o with
  | .add => a + b
  | .sub => a - b
  | .and => a &&& b
  | .or => a ||| b
  | .xor => a ^^^ b
  | .andn => a &&& ~~~b
  | .shl => if 32 ≤ b.toNat then 0 else a <<< b.toNat
  | .shr => if 32 ≤ b.toNat then 0 else a >>> b.toNat
  | .sar => if 32 ≤ b.toNat then (if a.msb then 0xFFFFFFFF#32 else 0) else a.sshiftRight b.toNat
  | .rotl => a.rotateLeft (b.toNat % 32)
  | .eq => boolOut (a == b)
  | .lt => boolOut (a.slt b)
  | .ltu => boolOut (a.ult b)

/-- The compares, which also write `b[kd]` (R88). -/
def AluOp.isCompare : AluOp → Bool
  | .eq | .lt | .ltu => true
  | _ => false

/-! ### mul (R89) -/

inductive MulOp where
  | mulu | muls | mulsu
  deriving DecidableEq, Repr

/-- The 64-bit product MHI:MLO (R89). -/
def mulResult (o : MulOp) (a b : Word) : BitVec 64 :=
  match o with
  | .mulu => a.setWidth 64 * b.setWidth 64
  | .muls => a.signExtend 64 * b.signExtend 64
  | .mulsu => a.signExtend 64 * b.setWidth 64

/-! ### div (R90, R91) -/

/-- Quotient, remainder and the sticky bit set, of dividend `a` and divisor `d` (R90, R91). -/
def divResult (signed : Bool) (a d : Word) : Word × Word × Option Nat :=
  if d = 0 then (0xFFFFFFFF#32, a, some 16)
  else if signed then
    if a = 0x80000000#32 ∧ d = 0xFFFFFFFF#32 then (0x80000000#32, 0, some 17)
    else (BitVec.ofInt 32 (a.toInt.tdiv d.toInt), BitVec.ofInt 32 (a.toInt.tmod d.toInt), none)
  else (a / d, a % d, none)

/-! ### CRC-32C (R102) -/

/-- Eight steps of the reflected polynomial 0x82F63B78. -/
def crcBits : Nat → Word → Word
  | 0, c => c
  | n + 1, c => crcBits n (if c.getLsbD 0 then (c >>> 1) ^^^ 0x82F63B78#32 else c >>> 1)

/-- The CRC register after one octet. -/
def crcByte (c : Word) (b : Byte) : Word := crcBits 8 (c ^^^ b.setWidth 32)

/-- The CRC register after octets in order. -/
def crcUpdate (c : Word) (bs : Octets) : Word := bs.foldl crcByte c

/-- CRC-32C of octets from a seed: the register starts as NOT seed and the result is NOT the register (R102). -/
def crc32c (seed : Word) (bs : Octets) : Word := ~~~(crcUpdate (~~~seed) bs)

/-! ### binary32 (R109) -/

inductive FpuOpc where
  | add | sub | mul | fma | div | sqrt | eq | lt | le | itof | utof | ftoi
  deriving DecidableEq, Repr

def qNaN : Word := 0x7FC00000#32

def fIsNaN (a : Word) : Bool := decide (0x7F800000 < a.toNat % 0x80000000)
def fIsSNaN (a : Word) : Bool := fIsNaN a && !a.getLsbD 22
def fIsInf (a : Word) : Bool := decide (a.toNat % 0x80000000 = 0x7F800000)
def fIsZero (a : Word) : Bool := decide (a.toNat % 0x80000000 = 0)
def fSign (a : Word) : Bool := a.msb

/-- The significand of a finite number: its magnitude is `fMant a * 2 ^ fExp a`. -/
def fMant (a : Word) : Nat := if (a.toNat / 0x800000) % 256 = 0 then a.toNat % 0x800000 else a.toNat % 0x800000 + 0x800000
def fExp (a : Word) : Int := if (a.toNat / 0x800000) % 256 = 0 then -149 else ((a.toNat / 0x800000) % 256 : Nat) - 150

def fSigned (a : Word) : Int := if fSign a then -(fMant a : Int) else fMant a

def signBits (neg : Bool) (m : Nat) : Word := BitVec.ofNat 32 (if neg then m + 0x80000000 else m)

/-- The flags word: invalid, divide by zero, overflow, underflow, inexact in bits 0 to 4 (R109). -/
def fFlags (nv dz of uf nx : Bool) : Word :=
  boolOut nv ||| (boolOut dz <<< 1) ||| (boolOut of <<< 2) ||| (boolOut uf <<< 3) ||| (boolOut nx <<< 4)

/-- The magnitude `m * 2 ^ e` as a multiple of `2 ^ q`, rounded to nearest, ties to even; whether it is inexact. -/
def fRoundAt (m : Nat) (e q : Int) : Nat × Bool :=
  if q ≤ e then (m * 2 ^ (e - q).toNat, false)
  else
    let d := 2 ^ (q - e).toNat
    let lo := m / d
    let rem := m % d
    (if 2 * rem > d ∨ (2 * rem = d ∧ lo % 2 = 1) then lo + 1 else lo, decide (rem ≠ 0))

/-- Tininess of a magnitude whose top bit is worth `2 ^ top`: before rounding, or after rounding to 24 bits as if the exponent had no bound (IEEE
754; which of the two is log entry 15). -/
def fTiny (m : Nat) (e top : Int) : Bool :=
  if Config.flagChoice 0 then decide (top < -126)
  else decide (top < -127) || (top == -127 && decide ((fRoundAt m e (top - 23)).1 < 0x1000000))

/-- The non-zero magnitude `m * 2 ^ e` rounded to nearest, ties to even; subnormals exact, never flushed (R109). The result
with the sign `neg`, and the flags. -/
def fRound (neg : Bool) (m : Nat) (e : Int) : Word × Word :=
  let top : Int := Nat.log2 m + e
  let q : Int := max (top - 23) (-149)
  let r := fRoundAt m e q
  let bits := (q + 149).toNat * 0x800000 + r.1
  if 0x7F800000 ≤ bits then (signBits neg 0x7F800000, fFlags false false true false true)
  else (signBits neg bits, fFlags false false false (fTiny m e top && r.2) r.2)

/-- A signed value `v * 2 ^ e` rounded; an exact zero takes the sign `zneg`. -/
def fRoundInt (v : Int) (e : Int) (zneg : Bool) : Word × Word :=
  if v = 0 then (signBits zneg 0, 0) else fRound (decide (v < 0)) v.natAbs e

def fInvalid : Word × Word := (qNaN, fFlags true false false false false)

/-- A NaN result of a NaN operand. -/
def fNaNOut (signalling : Bool) : Word × Word := (qNaN, fFlags (signalling && Config.flagChoice 1) false false false false)

/-- The sum of two finite numbers given as signed significands and exponents, with the sign of an exact zero. -/
def fSum (v1 : Int) (e1 : Int) (v2 : Int) (e2 : Int) (zneg : Bool) : Word × Word :=
  let e := min e1 e2
  fRoundInt (v1 * 2 ^ (e1 - e).toNat + v2 * 2 ^ (e2 - e).toNat) e zneg

def fAdd (a b : Word) : Word × Word :=
  if fIsNaN a || fIsNaN b then fNaNOut (fIsSNaN a || fIsSNaN b)
  else if fIsInf a then (if fIsInf b && fSign a != fSign b then fInvalid else (a, 0))
  else if fIsInf b then (b, 0)
  else fSum (fSigned a) (fExp a) (fSigned b) (fExp b) (fSign a && fSign b)

def fMul (a b : Word) : Word × Word :=
  let neg := fSign a != fSign b
  if fIsNaN a || fIsNaN b then fNaNOut (fIsSNaN a || fIsSNaN b)
  else if (fIsInf a && fIsZero b) || (fIsZero a && fIsInf b) then fInvalid
  else if fIsInf a || fIsInf b then (signBits neg 0x7F800000, 0)
  else fRoundInt ((if neg then -1 else 1) * (fMant a * fMant b : Nat)) (fExp a + fExp b) neg

/-- `a * b + c`, rounded once. -/
def fFma (a b c : Word) : Word × Word :=
  let neg := fSign a != fSign b
  let bad := (fIsInf a && fIsZero b) || (fIsZero a && fIsInf b)
  let sn := fIsSNaN a || fIsSNaN b || fIsSNaN c
  if fIsNaN a || fIsNaN b then fNaNOut sn
  else if fIsNaN c then
    (qNaN, fFlags ((sn && Config.flagChoice 1) || (bad && Config.flagChoice 3)) false false false false)
  else if bad then fInvalid
  else if fIsInf a || fIsInf b then (if fIsInf c && fSign c != neg then fInvalid else (signBits neg 0x7F800000, 0))
  else if fIsInf c then (c, 0)
  else fSum ((if neg then -1 else 1) * (fMant a * fMant b : Nat)) (fExp a + fExp b) (fSigned c) (fExp c) (neg && fSign c)

def fDiv (a b : Word) : Word × Word :=
  let neg := fSign a != fSign b
  if fIsNaN a || fIsNaN b then fNaNOut (fIsSNaN a || fIsSNaN b)
  else if fIsInf a then (if fIsInf b then fInvalid else (signBits neg 0x7F800000, 0))
  else if fIsInf b then (signBits neg 0, 0)
  else if fIsZero b then (if fIsZero a then fInvalid else (signBits neg 0x7F800000, fFlags false true false false false))
  else if fIsZero a then (signBits neg 0, 0)
  else
    let n := fMant a * 2 ^ 64
    let m := fMant b
    fRound neg (2 * (n / m) + (if n % m = 0 then 0 else 1)) (fExp a - fExp b - 65)

/-- The integer square root, one result bit at a time from bit `k` down. -/
def isqrt : Nat → Nat → Nat → Nat
  | 0, _, r => r
  | k + 1, n, r =>
    let t := r + 2 ^ k
    isqrt k n (if t * t ≤ n then t else r)

def fSqrt (a : Word) : Word × Word :=
  if fIsNaN a then fNaNOut (fIsSNaN a)
  else if fIsZero a then (a, 0)
  else if fSign a then fInvalid
  else if fIsInf a then (a, 0)
  else
    let odd := fExp a % 2 ≠ 0
    let n := if odd then fMant a * 2 ^ 65 else fMant a * 2 ^ 64
    let e : Int := if odd then fExp a - 65 else fExp a - 64
    let r := isqrt 48 n 0
    fRound false (2 * r + (if r * r = n then 0 else 1)) (e / 2 - 1)

/-- The order of two numbers that are not NaN, as integers: sign and magnitude. -/
def fOrd (a : Word) : Int := if fSign a then -((a.toNat % 0x80000000 : Nat) : Int) else (a.toNat % 0x80000000 : Nat)

def fCompare (o : FpuOpc) (a b : Word) : Word × Word :=
  if fIsNaN a || fIsNaN b then
    let sn := fIsSNaN a || fIsSNaN b
    (0, fFlags ((sn && Config.flagChoice 1) || (!sn && o != .eq && Config.flagChoice 2)) false false false false)
  else
    (boolOut (match o with
      | .lt => decide (fOrd a < fOrd b)
      | .le => decide (fOrd a ≤ fOrd b)
      | _ => decide (fOrd a = fOrd b)), 0)

/-- binary32 to signed integer, rounding toward zero (R109). A fraction that is cut off sets inexact (PRESUMED from IEEE 754, log entry 15). -/
def fToInt (a : Word) : Word × Word :=
  let nv := fFlags true false false false false
  if fIsNaN a then (0, nv)
  else if fIsInf a then (if fSign a then 0x80000000#32 else 0x7FFFFFFF#32, nv)
  else
    let e := fExp a
    let t : Nat := if 0 ≤ e then fMant a * 2 ^ e.toNat else fMant a / 2 ^ (-e).toNat
    let nx : Bool := if 0 ≤ e then false else decide (fMant a % 2 ^ (-e).toNat ≠ 0)
    if fSign a then
      if t > 0x80000000 ∨ (t = 0x80000000 ∧ nx) then (0x80000000#32, nv)
      else (BitVec.ofInt 32 (-(t : Int)), fFlags false false false false nx)
    else if 0x80000000 ≤ t then (0x7FFFFFFF#32, nv)
    else (BitVec.ofNat 32 t, fFlags false false false false nx)

/-- `out` and `fl` of an fpu operation with first operand `a` and sockets `b` and `c` (R108, R109). -/
def fpuResult (o : FpuOpc) (a b c : Word) : Word × Word :=
  match o with
  | .add => fAdd a b
  | .sub => fAdd a (if fIsNaN b then b else b ^^^ 0x80000000#32)
  | .mul => fMul a b
  | .fma => fFma a b c
  | .div => fDiv a b
  | .sqrt => fSqrt a
  | .eq => fCompare .eq a b
  | .lt => fCompare .lt a b
  | .le => fCompare .le a b
  | .itof => fRoundInt a.toInt 0 false
  | .utof => fRoundInt a.toNat 0 false
  | .ftoi => fToInt a

/-- The contract latency of an fpu operation (R108). -/
def fpuLatency : FpuOpc → Nat
  | .div | .sqrt => 16
  | _ => 4

end Sys2Proof.Machine
end

