-- ==== Sys2Proof/Machine/Operands.lean ====
section
/-! DEFINITION. Bundles and their moves (R66 to R82), the roles of the socket codes (R48 to R51, R56, R86), and every source
and destination of a move. -/

namespace Sys2Proof.Machine

/-! ### The operations of the trigger sockets -/

inductive BitOp where
  | tst | set | clr | tgl | tas | and | or | xor | andn
  deriving DecidableEq, Repr

inductive CtlOp where
  | jmp | jr | call | callr | ret | eret | trap | loop | flush | fence | hush | sleep | halt
  deriving DecidableEq, Repr

inductive CopyTrig where
  | move | fill | crc | park | resume
  deriving DecidableEq, Repr

/-- What a trigger socket starts (R86). `ld` carries the size in bytes and whether the value is sign-extended, `st` the
size. -/
inductive Op where
  | alu (u : Nat) (o : AluOp)
  | mul (o : MulOp)
  | div (signed : Bool)
  | ld (z : Nat) (sext : Bool)
  | st (z : Nat)
  | xchg
  | bitu (o : BitOp)
  | ctl (o : CtlOp)
  | copy (o : CopyTrig)
  | beam (o : BeamKind)
  | fpu (o : FpuOpc)
  deriving DecidableEq, Repr

/-- The unit an operation belongs to (R50). -/
def Op.unit : Op → Nat
  | .alu u _ => u
  | .mul _ => 2
  | .div _ => 3
  | .ld _ _ | .st _ | .xchg => 4
  | .bitu _ => 5
  | .ctl _ => 6
  | .copy _ => 7
  | .beam _ => 8
  | .fpu _ => 9

/-- The role of a port (R86). -/
inductive Role where
  | operand | result | undef
  | trig (o : Op)
  deriving DecidableEq, Repr

/-- The port tables of R87 to R108. -/
def portRole (u p : Nat) : Role :=
  match u with
  | 0 | 1 =>
    match p with
    | 0 | 1 => .operand
    | 2 => .result
    | 3 => .trig (.alu u .add) | 4 => .trig (.alu u .sub) | 5 => .trig (.alu u .and) | 6 => .trig (.alu u .or)
    | 7 => .trig (.alu u .xor) | 8 => .trig (.alu u .andn) | 9 => .trig (.alu u .shl) | 10 => .trig (.alu u .shr)
    | 11 => .trig (.alu u .sar) | 12 => .trig (.alu u .rotl) | 13 => .trig (.alu u .eq) | 14 => .trig (.alu u .lt)
    | _ => .trig (.alu u .ltu)
  | 2 =>
    match p with
    | 0 => .operand
    | 1 => .trig (.mul .mulu) | 2 => .trig (.mul .muls) | 3 => .trig (.mul .mulsu)
    | _ => .undef
  | 3 =>
    match p with
    | 0 => .operand
    | 1 => .trig (.div false) | 2 => .trig (.div true)
    | 3 | 4 => .result
    | _ => .undef
  | 4 =>
    match p with
    | 0 | 1 => .operand
    | 2 => .trig (.ld 1 false) | 3 => .trig (.ld 1 true) | 4 => .trig (.ld 2 false) | 5 => .trig (.ld 2 true)
    | 6 => .trig (.ld 4 false) | 7 => .trig (.st 1) | 8 => .trig (.st 2) | 9 => .trig (.st 4) | 10 => .trig .xchg
    | 11 | 12 => .result
    | _ => .undef
  | 5 =>
    match p with
    | 0 | 1 => .operand
    | 2 => .result
    | 3 => .trig (.bitu .tst) | 4 => .trig (.bitu .set) | 5 => .trig (.bitu .clr) | 6 => .trig (.bitu .tgl)
    | 7 => .trig (.bitu .tas) | 8 => .trig (.bitu .and) | 9 => .trig (.bitu .or) | 10 => .trig (.bitu .xor)
    | 11 => .trig (.bitu .andn)
    | _ => .undef
  | 6 =>
    match p with
    | 0 => .operand
    | 1 => .trig (.ctl .jmp) | 2 => .trig (.ctl .jr) | 3 => .trig (.ctl .call) | 4 => .trig (.ctl .callr)
    | 5 => .trig (.ctl .ret) | 6 => .trig (.ctl .eret) | 7 => .trig (.ctl .trap) | 8 => .trig (.ctl .loop)
    | 9 => .trig (.ctl .flush) | 10 => .trig (.ctl .fence) | 11 => .trig (.ctl .hush) | 12 => .trig (.ctl .sleep)
    | 13 => .trig (.ctl .halt)
    | 14 => .result
    | _ => .undef
  | 7 =>
    match p with
    | 0 | 1 | 2 | 3 => .operand
    | 4 => .trig (.copy .move) | 5 => .trig (.copy .fill) | 6 => .trig (.copy .crc) | 7 => .trig (.copy .park)
    | 8 => .trig (.copy .resume)
    | 9 | 10 => .result
    | _ => .undef
  | 8 =>
    match p with
    | 0 => .operand
    | 1 | 2 => .result
    | 3 => .trig (.beam .find) | 4 => .trig (.beam .lock) | 5 => .trig (.beam .commit) | 6 => .trig (.beam .drop)
    | 7 => .trig (.beam .new)
    | _ => .undef
  | 9 =>
    match p with
    | 0 | 1 => .operand
    | 2 | 3 => .result
    | 4 => .trig (.fpu .add) | 5 => .trig (.fpu .sub) | 6 => .trig (.fpu .mul) | 7 => .trig (.fpu .fma)
    | 8 => .trig (.fpu .div) | 9 => .trig (.fpu .sqrt) | 10 => .trig (.fpu .eq) | 11 => .trig (.fpu .lt)
    | 12 => .trig (.fpu .le) | 13 => .trig (.fpu .itof) | 14 => .trig (.fpu .utof)
    | _ => .trig (.fpu .ftoi)
  | _ => .undef

/-- The role of a unit code, `undef` outside the assigned blocks. -/
def codeRole (code : Nat) : Role :=
  if 0x200 ≤ code ∧ code < 0x400 then portRole ((code - 0x200) / 16) (code % 16) else .undef

/-- The trigger a destination code names, if it names one. -/
def trigOf (code : Nat) : Option Op :=
  match codeRole code with
  | .trig o => some o
  | _ => none

/-- Special registers a move may read, and write (R56). -/
def specialReadable (code : Nat) : Bool :=
  (decide (0x400 ≤ code) && decide (code ≤ 0x408)) || (decide (0x410 ≤ code) && decide (code ≤ 0x41B)) ||
  (decide (0x480 ≤ code) && decide (code ≤ 0x48A)) || (decide (0x490 ≤ code) && decide (code ≤ 0x4A7)) ||
  (decide (0x4B0 ≤ code) && decide (code ≤ 0x4BB))

def specialWritable (code : Nat) : Bool :=
  code == 0x401 || code == 0x480 || code == 0x481 || code == 0x482 || code == 0x486 || code == 0x487 || code == 0x488 ||
  code == 0x489 || (decide (0x490 ≤ code) && decide (code ≤ 0x4A7)) || (decide (0x4B0 ≤ code) && decide (code ≤ 0x4BB))

/-! ### Bundles -/

/-- The source of a move: a socket, or an immediate of any form (R48, R78). -/
inductive MoveSrc where
  | sock (code : Nat)
  | imm (v : Word)
  deriving DecidableEq, Repr

/-- A move (R77): its slot, whether it stands in the second bundle of a pair, its guard, source and destination. -/
structure Move where
  slot   : Nat
  second : Bool
  inv    : Bool
  ksel   : Nat
  src    : MoveSrc
  dst    : Nat
  deriving DecidableEq, Repr

/-- A decoded bundle, or the first check of orders 1 to 3 of R81 that fails with its CAUSE.SLOT. -/
inductive Decoded where
  | bad (cause slot : Nat)
  | brk (tag : Nat)
  | moves (rpt rint : Bool) (rcnt : Nat) (ms : List Move)
  deriving DecidableEq, Repr

/-- A short immediate: bits [10:0] sign-extended (R48). -/
def shortImm (code : Nat) : Word := (BitVec.ofNat 11 code).signExtend 32

/-- The moves of slots from number `i` up, or the slot that fails order 3 (R78, R79). `skip` marks a literal slot. -/
def parseSlots : Nat → Bool → List Nat → Nat ⊕ List Move
  | _, _, [] => .inr []
  | i, true, _ :: rest => parseSlots (i + 1) false rest
  | i, false, v :: rest =>
    let src := v / 0x4000 % 0x1000
    let mk (s : MoveSrc) : Move :=
      { slot := i, second := false, inv := decide (v / 0x20000000 % 2 = 1), ksel := v / 0x4000000 % 8, src := s,
        dst := v / 4 % 0x1000 }
    match v % 4 with
    | 0 =>
      match parseSlots (i + 1) false rest with
      | .inl e => .inl e
      | .inr ms => .inr (mk (if 0x800 ≤ src then .imm (shortImm src) else .sock src) :: ms)
    | 1 =>
      match rest with
      | [] => .inl i
      | lit :: _ =>
        if lit / 0x100000 ≠ 0 then .inl i
        else
          match parseSlots (i + 1) true rest with
          | .inl e => .inl e
          | .inr ms => .inr (mk (.imm (BitVec.ofNat 32 (lit % 0x100000 * 0x1000 + src))) :: ms)
    | 2 =>
      match parseSlots (i + 1) false rest with
      | .inl e => .inl e
      | .inr ms => .inr (mk (.imm (BitVec.ofNat 32 (src * 0x100000))) :: ms)
    | _ => .inl i

/-- The format bits W0[63:62] (R69). -/
def formatOf (w0 : BitVec 64) : Nat := w0.toNat / 2 ^ 62

/-- The bytes of the bundle that starts with W0: a full bundle has two words (R69). -/
def bundleSize (w0 : BitVec 64) : Nat := if formatOf w0 = 2 then 16 else 8

/-- A bundle decoded under orders 1 to 3 of R81. -/
def decodeBundle (w0 w1 : BitVec 64) : Decoded :=
  let a := w0.toNat
  let b := w1.toNat
  let slots0 := [a / 2 ^ 30 % 2 ^ 30, a % 2 ^ 30]
  match formatOf w0 with
  | 0 => .bad 0x02 0
  | 1 =>
    if a / 2 ^ 60 % 4 ≠ 0 then .bad 0x02 0
    else
      match parseSlots 0 false slots0 with
      | .inl i => .bad 0x01 i
      | .inr ms => .moves false false 0 ms
  | 2 =>
    let rpt := decide (a / 2 ^ 61 % 2 = 1)
    let rint := decide (a / 2 ^ 60 % 2 = 1)
    let rcnt := b / 2 ^ 60
    if !rpt && (rint || rcnt != 0) then .bad 0x02 0
    else
      match parseSlots 0 false (slots0 ++ [b / 2 ^ 30 % 2 ^ 30, b % 2 ^ 30]) with
      | .inl i => .bad 0x01 i
      | .inr ms => .moves rpt rint rcnt ms
  | _ => .brk (a % 256)

/-- A move that may not stand in a repeated bundle, whatever its guard: to REPC, a loop register or its view, or a ctl trigger
(order 4 of R81). -/
def repeatForbids (m : Move) : Bool :=
  m.dst == 0x401 || (decide (0x410 ≤ m.dst) && decide (m.dst ≤ 0x41B)) || (decide (0x4B0 ≤ m.dst) && decide (m.dst ≤ 0x4BB)) ||
  (match trigOf m.dst with | some o => o.unit == 6 | none => false)

/-! ### Core state: sockets, bits, registers -/

def sk (k : LensCore) (code : Nat) : Word := Tab.get skReset code k.u.sk

def setSk (k : LensCore) (code : Nat) (v : Word) : LensCore :=
  { k with u := { k.u with sk := Tab.put code v k.u.sk } }

def greg (k : LensCore) (i : Nat) : Word := Tab.get (fun _ => 0#32) i k.g

def setGreg (k : LensCore) (i : Nat) (v : Word) : LensCore := { k with g := Tab.put i v k.g }

/-- Private bit `i`; b0 always reads 1 (R53, R54). -/
def pbit (k : LensCore) (i : Nat) : Bool := if i = 0 then true else Tab.get (fun _ => false) i k.bits

/-- A write of b0 has no effect (R53). -/
def setPbit (k : LensCore) (i : Nat) (v : Bool) : LensCore :=
  if i = 0 then k else { k with bits := Tab.put i v k.bits }

/-- PSW.DET: 1 while the cluster is paced; the wardens read 0 (R32, R58). -/
def isDet (s : State) (n : Nat) : Bool := !isWarden n && (getCluster s (clusterOf n)).pace != 0

def isSup (k : LensCore) : Bool := k.r.psw.getLsbD 0
def isIE (k : LensCore) : Bool := k.r.psw.getLsbD 1
def isBare (k : LensCore) : Bool := k.r.psw.getLsbD 2
def isPair (k : LensCore) : Bool := k.r.psw.getLsbD 5

/-- PSW as a move reads it (R58): S, IE, BARE and PAIR as held, DET from the cluster, RP in a repeated bundle. -/
def readPsw (s : State) (n : Nat) (k : LensCore) (rp : Bool) : Word :=
  (k.r.psw &&& 0x27#32) ||| (if isDet s n then 8#32 else 0) ||| (if rp then 16#32 else 0)

def loopLs (k : LensCore) (i : Nat) : Word := Tab.get (fun _ => 0#32) i k.r.ls
def loopLe (k : LensCore) (i : Nat) : Word := Tab.get (fun _ => 0#32) i k.r.le
def loopLc (k : LensCore) (i : Nat) : Word := Tab.get (fun _ => 0#32) i k.r.lc

def unitsWord (s : State) : Word := if s.part.full then 0x3FF#32 else 0x1FF#32

def tbWord (s : State) (hi : Bool) : Word := BitVec.ofNat 32 (if hi then s.tb / 2 ^ 32 else s.tb)

/-- A special register as a move reads it (R56 to R62, R135, R147). -/
def readSpecial (s : State) (n : Nat) (k : LensCore) (rp : Bool) (code : Nat) : Word :=
  let r := k.r
  match code with
  | 0x400 => readPsw s n k rp
  | 0x401 => r.repc.setWidth 32
  | 0x402 => r.mlo
  | 0x403 => r.mhi
  | 0x404 => BitVec.ofNat 32 n ||| (r.inst.setWidth 32 <<< 16)
  | 0x405 => r.ncores.setWidth 32
  | 0x406 => unitsWord s
  | 0x407 => tbWord s false
  | 0x408 => r.tbhi
  | 0x480 => readPsw s n k rp
  | 0x481 => r.epc
  | 0x482 => r.epsw
  | 0x483 => r.cause
  | 0x484 => r.evnum
  | 0x485 => r.badaddr
  | 0x486 => r.evec
  | 0x487 => r.pstk.setWidth 32
  | 0x488 => boolWord r.grant
  | 0x489 => r.hushRem.setWidth 32 ||| (r.hushIgn.setWidth 32 <<< 8)
  | 0x48A => r.chainc.setWidth 32
  | _ =>
    let i := code % 8
    let j := code % 4
    if 0x490 ≤ code ∧ code < 0x498 then (apOf k n i).base
    else if 0x498 ≤ code ∧ code < 0x4A0 then (apOf k n i).limit
    else if 0x4A0 ≤ code ∧ code < 0x4A8 then (apOf k n i).rights.setWidth 32
    else if (0x410 ≤ code ∧ code < 0x414) ∨ (0x4B0 ≤ code ∧ code < 0x4B4) then loopLs k j
    else if (0x414 ≤ code ∧ code < 0x418) ∨ (0x4B4 ≤ code ∧ code < 0x4B8) then loopLe k j
    else if (0x418 ≤ code ∧ code < 0x41C) ∨ (0x4B8 ≤ code ∧ code < 0x4BC) then loopLc k j
    else 0

/-- The aperture `i` with one of its words written (R147). -/
def setApWord (k : LensCore) (n i w : Nat) (v : Word) : LensCore :=
  let a := apOf k n i
  let a' : Aperture :=
    match w with
    | 0 => { a with base := v &&& 0xFFFFFFF8#32 }
    | 1 => { a with limit := v }
    | _ => { a with rights := v.setWidth 8 }
  { k with r := { k.r with ap := Tab.put i a' k.r.ap } }

def setLoopReg (k : LensCore) (kind i : Nat) (v : Word) : LensCore :=
  match kind with
  | 0 => { k with r := { k.r with ls := Tab.put i (v &&& 0xFFFFFFF8#32) k.r.ls } }
  | 1 => { k with r := { k.r with le := Tab.put i (v &&& 0xFFFFFFF8#32) k.r.le } }
  | _ => { k with r := { k.r with lc := Tab.put i v k.r.lc } }

/-- A special register as a move writes it (R57 to R62, R135, R147): read-only and reserved bits keep their value; PSW.BARE is
cleared by writing 1; PSTK can only be lowered. Writing a non-zero count through a view invalidates the level's loop-start buffer
when the level was inactive (R134). -/
def writeSpecial (k : LensCore) (n code : Nat) (v : Word) : LensCore :=
  let r := k.r
  match code with
  | 0x401 => { k with r := { r with repc := v.setWidth 16 } }
  | 0x480 =>
    let kept := r.psw &&& 4#32
    { k with r := { r with psw := (v &&& 0x23#32) ||| (kept &&& ~~~v) } }
  | 0x481 => { k with r := { r with epc := v &&& 0xFFFFFFF8#32 } }
  | 0x482 => { k with r := { r with epsw := v &&& 0x3F#32 } }
  | 0x486 => { k with r := { r with evec := v &&& 0xFFFFFFF8#32 } }
  | 0x487 => { k with r := { r with pstk := r.pstk &&& v.setWidth 8 } }
  | 0x488 => { k with r := { r with grant := v.getLsbD 0 } }
  | 0x489 => { k with r := { r with hushIgn := (v >>> 8).setWidth 8 } }
  | _ =>
    let i := code % 8
    let j := code % 4
    if 0x490 ≤ code ∧ code < 0x498 then setApWord k n i 0 v
    else if 0x498 ≤ code ∧ code < 0x4A0 then setApWord k n i 1 v
    else if 0x4A0 ≤ code ∧ code < 0x4A8 then setApWord k n i 2 v
    else if 0x4B0 ≤ code ∧ code < 0x4B4 then setLoopReg k 0 j v
    else if 0x4B4 ≤ code ∧ code < 0x4B8 then setLoopReg k 1 j v
    else if 0x4B8 ≤ code ∧ code < 0x4BC then
      let k1 := setLoopReg k 2 j v
      if loopLc k j = 0 ∧ v ≠ 0 then { k1 with i := { k1.i with loopBuf := Tab.del j k1.i.loopBuf } } else k1
    else k

/-! ### Checks of a move (R51, R100) -/

def unitAbsent (s : State) (code : Nat) : Bool := decide (0x290 ≤ code) && decide (code < 0x2A0) && !s.part.full

/-- The user-mode triggers that check 2 of R51 refuses (R100). -/
def userForbids (code : Nat) : Bool :=
  match trigOf code with
  | some (.ctl .eret) | some (.ctl .halt) | some (.ctl .hush) => true
  | _ => false

def srcLegal (code : Nat) : Bool :=
  decide (code < 0x40) || (decide (0x100 ≤ code) && decide (code < 0x200)) || (codeRole code == .result) || specialReadable code

def dstLegal (code : Nat) : Bool :=
  decide (code < 0x40) || (decide (0x100 ≤ code) && decide (code < 0x200)) || (codeRole code == .operand) ||
  (trigOf code).isSome || specialWritable code

/-- The first check of R51 a move fails. -/
def moveCheck (s : State) (sup : Bool) (m : Move) : Option Nat :=
  let sc : Option Nat := match m.src with | .sock c => some c | .imm _ => none
  let inSv (c : Nat) : Bool := decide (0x480 ≤ c) && decide (c < 0x500)
  if (sc.any (unitAbsent s)) || unitAbsent s m.dst then some 0x05
  else if !sup && ((sc.any inSv) || inSv m.dst || userForbids m.dst) then some 0x04
  else if !(sc.all srcLegal) || !dstLegal m.dst then some 0x01
  else none

/-- The guard of a move at the start of the step (R53, R77). -/
def guardOf (k : LensCore) (m : Move) : Bool := pbit k m.ksel != m.inv

/-! ### Reading a source (R46, R63, R94, R99, R216) -/

/-- What a source gives: a value, a stall, or a poisoned result with the address for BADADDR. -/
inductive Rd where
  | val (v : Word)
  | stall
  | poison (bad : Word)
  deriving DecidableEq, Repr

/-- Whether a load is the running code's and still outstanding (R94). -/
def Load.live (l : Load) : Bool := l.outst && l.toFrame.isNone

/-- The load a read of `lsu.out` in step `st` is matched to (R94), as a predicate-found entry of the list in trigger order. In
bare mode a read waits for nothing and is matched to a delivered load (DEDUCED, log entry 16). -/
def matchLoad (bare : Bool) (st : Nat) (ls : List Load) : Option Load :=
  let live := ls.filter Load.live
  if bare then live.find? fun l => l.deliv
  else
    match (live.filter fun l => decide (l.trig + 3 ≤ st)).getLast? with
    | some l => some l
    | none => live.head?

/-- A read of `lsu.out`, matched in the step in which the bundle was first due (R94, log entry 102). -/
def readLsuOut (k : LensCore) : Rd :=
  match matchLoad (isBare k) (k.i.dueStep.getD k.i.steps) k.u.loads with
  | none => .val (sk k 0x24B)
  | some l =>
    if !l.deliv then .stall
    else
      match l.data with
      | none => .stall
      | some d => match d.pois with | some a => .poison a | none => .val d.val

/-- `lsu.rdy`: 1 when no load is undelivered (R92). -/
def lsuRdy (k : LensCore) : Word := boolWord (k.u.loads.all fun l => l.deliv)

/-- A source socket as a move reads it at the start of the step. -/
def readSock (s : State) (n : Nat) (k : LensCore) (rp : Bool) (code : Nat) : Rd :=
  if code < 0x40 then .val (greg k code)
  else if 0x100 ≤ code ∧ code < 0x200 then .val (boolWord (pbit k (code - 0x100)))
  else if 0x400 ≤ code then .val (readSpecial s n k rp code)
  else
    match code with
    | 0x24B => readLsuOut k
    | 0x24C => .val (lsuRdy k)
    | 0x233 | 0x234 => if k.u.div.isSome then .stall else .val (sk k code)
    | 0x279 | 0x27A => if k.u.copy.isSome then .stall else .val (sk k code)
    | 0x281 | 0x282 =>
      if k.u.beam.isSome then .stall
      else match k.u.beamPois with | some a => .poison a | none => .val (sk k code)
    | 0x292 | 0x293 => if k.u.fpu.isEmpty then .val (sk k code) else .stall
    | _ => .val (sk k code)

def readSrc (s : State) (n : Nat) (k : LensCore) (rp : Bool) : MoveSrc → Rd
  | .imm v => .val v
  | .sock c => readSock s n k rp c

/-- A destination that is no trigger, written at the end of the step (R49). -/
def writeDst (k : LensCore) (n code : Nat) (v : Word) : LensCore :=
  if code < 0x40 then setGreg k code v
  else if 0x100 ≤ code ∧ code < 0x200 then setPbit k (code - 0x100) (v.getLsbD 0)
  else if 0x400 ≤ code then writeSpecial k n code v
  else if codeRole code = .operand then
    setSk k code (if code = 0x272 then v &&& 0x1FF7#32 else v)
  else k

end Sys2Proof.Machine
end

