-- ==== Sys2Proof/Machine/Lsu.lean ====
section
/-! DEFINITION. The lsu: loads, the store buffer, the bank merge buffers, the alias operations (R92 to R95, R152 to R161). -/

namespace Sys2Proof.Machine

/-! ### Stores at memory -/

/-- The step count of core `n`: the index of the step about to issue. -/
def stepsOf (s : State) (n : Nat) : Nat := (getCore s n).i.steps

/-- A warden store to word `i` of beam `b` in the window (R223): the bytes of `mask` of `v`. The counters and the fields of
writers W and C take the value; VERSION advances when a field changes; clearing VALID deletes the beam. -/
def windowFields (x : BeamCtx) (i : Nat) (v mask : Word) : BeamCtx :=
  let nv := blend (beamWord x i) v mask
  if !x.valid then
    -- a free context: only the fields of writer W change, and it cannot be made valid (R223)
    match i with
    | 2 => { x with owner := nv.setWidth 8 }
    | 4 => { x with rxframes := nv }
    | 5 => { x with rxbytes := nv }
    | 6 => { x with txframes := nv }
    | 7 => { x with drops := nv }
    | _ => x
  else
    match i with
    | 1 => { x with relay := nv.getLsbD 1, egress := (nv >>> 8).setWidth 8 }
    | 2 => { x with owner := nv.setWidth 8 }
    | 3 => { x with rxseq := nv.setWidth 16, txseq := (nv >>> 16).setWidth 16 }
    | 4 => { x with rxframes := nv }
    | 5 => { x with rxbytes := nv }
    | 6 => { x with txframes := nv }
    | 7 => { x with drops := nv }
    | 0 => x
    | 8 => x
    | j => { x with user := x.user.set (j - 9) nv }

/-- A context after its deletion: every field but VERSION 0 (R223). -/
def deletedCtx (x : BeamCtx) : BeamCtx :=
  { BeamCtx.free with version := x.version + 1 }

/-- The words of beam `b` are written whole with fresh check bits (R223). -/
def cleanBeam (s : State) (b : Nat) : State :=
  (List.range 8).foldl (fun t i => setEcc t ((beamBase + b * 64) / 8 + i) 0) s

/-- The alias operation on word `w` (R161): the bytes of `mask` become OR, or AND NOT, of the mask value. -/
def aliasWord (s0 : State) (w : Nat) (setb : Bool) (data : BitVec 64) (mask : Byte) : State :=
  let s := forceMerge (endLoanAt s0 w) w
  let r := checkWord s w
  let old := rawWord r.1 w
  let m := data &&& maskBits mask
  setRawWord r.1 w (if setb then old ||| m else old &&& ~~~m)

/-- A normal store drained into a bank joins or opens a merge entry (R157). -/
def mergeStore (s0 : State) (n c k w : Nat) (data : BitVec 64) (mask : Byte) : State :=
  let s := endLoanAt s0 w
  let b := getBank s c k
  match b.merge.find? fun e => e.word == w with
  | some e =>
    let e' := { e with mask := e.mask ||| mask, data := mergeBytes e.data data mask }
    if e'.mask = 0xFF#8 then
      wholeWord (modBank s c k fun b => { b with merge := b.merge.filter fun x => x.word != w }) w e'.data
    else modBank s c k fun b => { b with merge := b.merge.map fun x => if x.word = w then e' else x }
  | none =>
    let s1 := if 4 ≤ b.merge.length then (match b.merge.head? with | some o => forceMerge s o.word | none => s) else s
    let e : MergeEntry := { word := w, mask, data := data &&& maskBits mask, core := n, opened := stepsOf s n }
    if mask = 0xFF#8 then wholeWord s1 w data else modBank s1 c k fun b => { b with merge := b.merge ++ [e] }

/-- The other cores of the cluster whose oldest store-buffer entry names the same exchange-RAM or bit-store word: the requests pending
at the memory (R172, R175; DEDUCED, log entry 17). -/
def rivalsOf (s : State) (n w : Nat) : List Nat :=
  if isWarden n then []
  else
    ((List.range 4).map fun i => clusterOf n * 4 + i).filter fun m =>
      m != n && (match (getCore s m).u.stores.head? with
        | some e => e.word == w && e.kind != .device
        | none => false)

/-- The first of them. -/
def rivalOf (s : State) (n w : Nat) : Option Nat := (rivalsOf s n w).head?

/-- The access of core `n` is granted while that of core `m` of its cluster waits (R175, R176, R178). -/
def collide (s : State) (n m w : Nat) : State := clash s w (n % 4) 0 (m % 4) 0

/-- Whether the drain of core `n`'s entry must wait for a core with a lower local number, in classic arbitration (R173). -/
def classicWait (s : State) (n w : Nat) : Bool :=
  match placeOf w with
  | .xram _ | .bits _ =>
    (getCluster s (clusterOf n)).classic && (match rivalOf s n w with | some m => decide (m < n) | none => false)
  | _ => false

/-- A store-buffer entry performed where it goes (R154, R156, R157, R161, R223): a device-kind store is written at its target, never merged. -/
def performStore (s : State) (n : Nat) (e : StoreEntry) : State :=
  match e.kind with
  | .setAlias => aliasWord s e.word true e.data e.mask
  | .clrAlias => aliasWord s e.word false e.data e.mask
  | _ =>
    match placeOf e.word with
    | .bank c k => if e.kind = .device then portWrite s (coreMaster n) 0 e.word e.data e.mask else mergeStore s n c k e.word e.data e.mask
    | .beam _ => s
    | _ => memWrite s e.word e.data e.mask

/-- The oldest entry of core `m` is granted before an access of master `i` of its cluster that waits for it (R173, R174, R176). -/
def grantHead (i : Nat) (s : State) (m : Nat) : State :=
  match (getCore s m).u.stores with
  | [] => s
  | e :: rest =>
    let s1 := performStore (modCore s m fun k => { k with u := { k.u with stores := rest } }) m e
    modCluster s1 (clusterOf m) fun v => bumpConf v i

/-- What an access of core `n` to word `w` meets pending at the memory (R55, R173 to R176; log entry 17). A read has every pending write made
before it; a write, or an indivisible access, in classic arbitration those of lower local cores, and it goes before any other, which collides
with it. -/
def meetWord (s : State) (n w : Nat) (wr : Bool) : State :=
  match placeOf w with
  | .xram _ | .bits _ =>
    let first := (rivalsOf s n w).filter fun m => !wr || ((getCluster s (clusterOf n)).classic && decide (m < n))
    let s1 := first.foldl (grantHead (n % 4)) s
    if wr then (match rivalOf s1 n w with | some m => collide s1 n m w | none => s1) else s1
  | _ => s

/-- A drain into exchange RAM or the bit store, with what it meets there. -/
def performDrain (s : State) (n : Nat) (e : StoreEntry) : State := performStore (meetWord s n e.word true) n e

/-- The first `m` entries leave the store buffer, in order, each performed by `perf`. -/
def drainFirst (perf : State → Nat → StoreEntry → State) : Nat → State → Nat → State
  | 0, s, _ => s
  | m + 1, s, n =>
    match (getCore s n).u.stores with
    | [] => s
    | e :: rest => drainFirst perf m (perf (modCore s n fun k => { k with u := { k.u with stores := rest } }) n e) n

/-! ### Loads -/

/-- The bytes of a load or store: the word, first byte in it and length of each half (R152). -/
def halvesOf (g z : Nat) : List (Nat × Nat × Nat) :=
  let o := g % 8
  if o + z ≤ 8 then [(g / 8, o, z)] else [(g / 8, o, 8 - o), (g / 8 + 1, 0, o + z - 8)]

def maskOf (o z : Nat) : Byte := BitVec.ofNat 8 ((2 ^ z - 1) * 2 ^ o)

/-- `z` bytes of a word from byte `o`. -/
def bytesOf (w : BitVec 64) (o z : Nat) : Octets := ((leOctets 8 w.toNat).drop o).take z

/-- The youngest older entry that shares a byte with the half, and its position (R155). -/
def youngestOverlap (es : List StoreEntry) (w : Nat) (m : Byte) : Option (Nat × StoreEntry) :=
  ((es.zipIdx.filter fun e => e.1.word == w && (e.1.mask &&& m) != 0#8).getLast?).map fun e => (e.2, e.1)

/-- A store the old owner of a bank triggered after a handover was accepted: it is performed after the handover (R170). -/
def heldByHandover (s : State) (n : Nat) (e : StoreEntry) : Bool :=
  match bankAt (8 * e.word) with
  | none => false
  | some (c, k) =>
    let b := getBank s c k
    b.pend.isSome && decide (b.pendId ≤ e.id) &&
    (if isWarden n then b.owner == 4 && s.active == some n else c == clusterOf n && b.owner == n % 4)

/-- The access kind of an aperture and address (R147, R161). -/
def accKind (ap : Aperture) (p : Nat) : AccKind :=
  if ap.kind = 1 then .device
  else if ap.kind = 2 then (if p < 0x30000000 then .setAlias else .clrAlias)
  else .normal

/-- Whether a bare load of this target is step-locked (R63): own scratch, or own cluster's banks through a normal aperture. -/
def stepLocked (n p : Nat) (kind : AccKind) : Bool :=
  decide (p < 0x10000) || (decide (0x100000 ≤ p) && decide (p < 0x200000) && kind == .normal && !isWarden n)

/-- Whether a load must wait before it is performed: for older device accesses (R156), but a bare step-locked load does not (R64); an
exchange or a device load for every older entry of the store buffer (R93, R156); any load for an older exchange, and for an entry of its words
that a handover holds (R170). -/
def loadBlocked (s : State) (n : Nat) (older : List Load) (l : Load) : Bool :=
  let k := getCore s n
  let free := l.bare && stepLocked n l.addr.toNat l.kind
  (k.u.stores.any fun e => decide (e.id < l.snap) &&
    ((e.kind == .device && !free) || l.kind == .device || l.xchg.isSome ||
     (heldByHandover s n e && (halvesOf (globalOf n l.addr.toNat) l.size).any fun h => h.1 == e.word))) ||
  (older.any fun x => x.data.isNone && ((x.kind == .device && !free) || x.xchg.isSome))

/-- One half of a load read (R155): forwarded from the youngest overlapping entry when it is normal and holds every byte;
otherwise every entry up to the youngest overlapping one is drained, a linked pair as one (R153), and memory is read; `wr` marks the read of an
exchange. The bytes, and the failed word by the address the load named, an alias address if it named one (DESIGN CHOICE, log entry 104). -/
def readHalf (perf : State → Nat → StoreEntry → State) (s : State) (n snap : Nat) (h : Nat × Nat × Nat) (addr : Nat) (wr : Bool) :
    State × Octets × Option Word :=
  let (w, o, z) := h
  let es := (getCore s n).u.stores.filter fun e => decide (e.id < snap)
  let m := maskOf o z
  match youngestOverlap es w m with
  | some (i, e) =>
    if e.kind = .normal ∧ e.mask &&& m = m then (s, bytesOf e.data o z, none)
    else
      let s1 := drainFirst perf (if e.linked then i + 2 else i + 1) s n
      let r := checkWord (endLoanAt (meetWord s1 n w wr) w) w
      (r.1, bytesOf (anyWord r.1 w) o z, if r.2 then some (BitVec.ofNat 32 (addr / 8 * 8)) else none)
  | none =>
    let r := checkWord (endLoanAt (meetWord s n w wr) w) w
    (r.1, bytesOf (anyWord r.1 w) o z, if r.2 then some (BitVec.ofNat 32 (addr / 8 * 8)) else none)

/-- A load's value from its bytes: zero- or sign-extended (R92). -/
def extendLoad (z : Nat) (sext : Bool) (bs : Octets) : Word :=
  let v := ofLe bs
  if sext ∧ 2 ^ (8 * z - 1) ≤ v then BitVec.ofInt 32 ((v : Int) - (2 ^ (8 * z) : Nat)) else BitVec.ofNat 32 v

/-- A load of memory performed (R93, R153, R155): every half read, the first failing half's word named; an exchange makes its
write whatever the read finds, a warden's in the beam window as a store there (R143, R223). -/
def performLoad (perf : State → Nat → StoreEntry → State) (s : State) (n : Nat) (l : Load) : State × LoadData :=
  let g := globalOf n l.addr.toNat
  match halvesOf g l.size with
  | [h] =>
    let r := readHalf perf s n l.snap h l.addr.toNat l.xchg.isSome
    let d : LoadData := { val := extendLoad l.size l.sext r.2.1, pois := r.2.2 }
    match l.xchg with
    | none => (r.1, d)
    | some v =>
      let data := BitVec.ofNat 64 (v.toNat * 256 ^ h.2.1)
      let m := maskOf h.2.1 4
      ((match placeOf h.1 with
        | .beam _ => perf r.1 n { id := 0, word := h.1, mask := m, data, kind := .normal, linked := false }
        | _ => portWrite r.1 (coreMaster n) 0 h.1 data m), d)
  | [h1, h2] =>
    let r1 := readHalf perf s n l.snap h1 l.addr.toNat false
    let r2 := readHalf perf r1.1 n l.snap h2 (l.addr.toNat + h1.2.2) false
    (r2.1, { val := extendLoad l.size l.sext (r1.2.1 ++ r2.2.1), pois := r1.2.2.orElse fun _ => r2.2.2 })
  | _ => (s, { val := 0, pois := none })

/-- The load number `i` of the list with its data. -/
def setLoad (s : State) (n i : Nat) (f : Load → Load) : State :=
  modCore s n fun k => { k with u := { k.u with loads := k.u.loads.modify i f } }

/-- A load is performed if nothing it must wait for stands before it. -/
def tryPerform (perf : State → Nat → StoreEntry → State) (s : State) (n i : Nat) : State :=
  let k := getCore s n
  match k.u.loads[i]? with
  | none => s
  | some l =>
    if l.data.isSome ∨ l.kind = .device ∨ loadBlocked s n (k.u.loads.take i) l then s
    else
      let r := performLoad perf s n l
      setLoad r.1 n i fun l => { l with data := some r.2 }

/-- The store-buffer entries of a store of `z` bytes: two linked ones when split (R153, R154). -/
def storeEntries (n p z : Nat) (v : Word) (kind : AccKind) (id : Nat) : List StoreEntry :=
  let g := if kind = .device ∧ 0x10000000 ≤ p ∧ p < 0x20000000 then p else globalOf n p
  let d := v.toNat % 256 ^ z
  match halvesOf g z with
  | [(w, o, len)] => [{ id, word := w, mask := maskOf o len, data := BitVec.ofNat 64 (d * 256 ^ o), kind, linked := false }]
  | [(w, o, len), (w2, o2, len2)] =>
    [{ id, word := w, mask := maskOf o len, data := BitVec.ofNat 64 (d % 256 ^ len * 256 ^ o), kind, linked := true },
     { id := id + 1, word := w2, mask := maskOf o2 len2, data := BitVec.ofNat 64 (d / 256 ^ len), kind, linked := false }]
  | _ => []

/-- How many entries a store takes. -/
def storeCount (p z : Nat) : Nat := if p % 8 + z ≤ 8 then 1 else 2

end Sys2Proof.Machine
end

