-- ==== Sys2Proof/Machine/BeamTable.lean ====
section
/-! DEFINITION. The beam table: keys, search, the operations of the beam unit, the warden's window (R209 to R228). -/

namespace Sys2Proof.Machine

/-! ### Keys (R209 to R211) -/

def keyFacet (k : Word) : Nat := k.toNat % 256
def keyBad (k : Word) : Bool := decide (k.toNat / 2 ^ 27 ≠ 0)

def mkKey (facet chan cls : Nat) : Word := BitVec.ofNat 32 (facet % 256 + chan % 65536 * 256 + cls % 8 * 0x1000000)

/-- The two candidate sets of a key (R210). -/
def beamSets (k : Word) : Nat × Nat :=
  let h0 := ((k * 0x9E3779B1#32) >>> 20).toNat
  let h1 := (((k ^^^ 0xA5A5A5A5#32) * 0x85EBCA6B#32) >>> 20).toNat
  (h0, if h1 = h0 then h0 ^^^ 0x800 else h1)

/-- The beam IDs a search examines, in order. -/
def beamWays (k : Word) : List Nat :=
  let q := keyFacet k / 64
  let h := beamSets k
  (List.range 4).map (fun w => q * 16384 + h.1 * 4 + w) ++ (List.range 4).map (fun w => q * 16384 + h.2 * 4 + w)

/-- The window word number of beam `b`'s first 8-byte word. -/
def beamWordNo (b : Nat) : Nat := (beamBase + b * 64) / 8

/-- The engine finds an uncorrectable or poisoned word of beam `b`: it sets POISON and raises BEEVT.POIS if POISON was 0 (R210, R225). -/
def markPoison (s : State) (b : Nat) : State :=
  let x := getBeam s b
  if x.poison then s else setBeevt (setBeam s b { x with poison := true }) (b / 16384) 0 0

/-- A check of one word of a context by the engine. -/
def engineCheck (s : State) (b i : Nat) : State × Bool :=
  let r := checkWord s (beamWordNo b + i)
  (if r.2 then markPoison r.1 b else r.1, r.2)

/-- A narrow update of a context by the engine: 8-byte word `i`, which it reads, checks and corrects, is written back with the new field (R180,
R225). -/
def engineMod (s : State) (b i : Nat) (g : BeamCtx → BeamCtx) : State := modBeam (engineCheck s b i).1 b g

/-- The search of R210: the valid way whose key matches, and the first free way. A way whose first word fails counts as valid and
matches nothing. -/
def beamSearch (k : Word) : List Nat → State → Option Nat → State × Option Nat × Option Nat
  | [], s, fr => (s, none, fr)
  | b :: bs, s, fr =>
    let r := engineCheck s b 0
    let x := getBeam r.1 b
    if r.2 then beamSearch k bs r.1 fr
    else if x.valid then (if x.key = k then (r.1, some b, fr) else beamSearch k bs r.1 fr)
    else beamSearch k bs r.1 (fr.orElse fun _ => some b)

/-- The cluster that serves a facet's cluster: its foster cluster while it is fostered (R215, R275). -/
def servingCluster (s : State) (c : Nat) : Nat :=
  match Tab.find c s.foster with
  | some f => if f < 32 then f else c
  | none => c

/-- A core present and not retired (R276). -/
def coreServes (s : State) (n : Nat) : Bool := corePresent s n && (getCore s n).i.run != .retired

/-- The cores of a cluster in service, lowest first. -/
def servingCores (s : State) (c : Nat) : List Nat := ((List.range 4).map fun i => 4 * c + i).filter (coreServes s)

/-- The locks core `n` holds (R218). -/
def lockCount (s : State) (n : Nat) : Nat :=
  (s.beams.filter fun e => e.2.locked && e.2.locker.toNat == n).length

/-- Valid beams of quadrant `q` (BECOUNT, R226). -/
def beCount (s : State) (q : Nat) : Nat := (s.beams.filter fun e => e.2.valid && e.1 / 16384 == q).length

/-! ### The beam cache (R220) -/

/-- A context of this version is in the cluster's cache: 128 entries, least recently used replaced, a locked beam's never. -/
def cacheBeam (s : State) (c b : Nat) : State :=
  let x := getBeam s b
  let l : CacheLine := { beam := b, version := x.version.toNat, copy := x }
  modCluster s c fun v =>
    let rest := v.cache.filter fun e => e.beam != b
    if rest.length < 128 then { v with cache := l :: rest }
    else
      match (rest.reverse.find? fun e => !(getBeam s e.beam).locked) with
      | some o => { v with cache := l :: rest.filter fun e => e.beam != o.beam }
      | none => v

/-! ### Operations (R213 to R217) -/

/-- The 64 octets of a context (R212). -/
def ctxOctets (x : BeamCtx) : Octets := (List.range 16).flatMap fun i => leOctets 4 (beamWord x i).toNat

/-- 64 octets written to the core's scratch at offset `off`, word by word. -/
def writeBuf (s : State) (n off : Nat) (v : Octets) : State :=
  (List.range 8).foldl (fun t i =>
    wholeWord t ((scratchBase n + off) / 8 + i) (BitVec.ofNat 64 (ofLe ((v.drop (8 * i)).take 8)))) s

/-- Unlocked: LOCKER reads 0xFF (R212). -/
def unlockCtx (x : BeamCtx) : BeamCtx := { x with locked := false, locker := 0xFF#8 }

/-- A drop by the holder, or what releases a lock as a drop would (R217, R218). -/
def dropLock (s : State) (b : Nat) : State :=
  let s1 := discardTx s b 9
  engineMod (engineCheck (engineCheck s1 b 0).1 b 1).1 b 4 fun x => { unlockCtx x with heldtx := 0 }

/-- Every lock of core `n` is released as a drop would (R218, R267). -/
def releaseLocks (s : State) (n : Nat) : State :=
  (s.beams.filter fun e => e.2.locked && e.2.locker.toNat == n).foldl (fun t e => dropLock t e.1) s

/-- A beam is deleted (R223). -/
def deleteBeam (s : State) (b : Nat) : State :=
  let s1 := discardTx s b 9
  let s2 := { s1 with facets := freeRx b s1.facets }
  cleanBeam (modBeam s2 b deletedCtx) b

/-- A warden store to word `i` of beam `b` in the window: the bytes of `mask` of `v` (R223). -/
def windowStore (s : State) (b i : Nat) (v mask : Word) : State :=
  let x := getBeam s b
  let r := engineCheck s b (i / 2)
  if x.valid && i == 1 && !(blend (beamWord x 1) v mask).getLsbD 0 then deleteBeam r.1 b
  else
    let x1 := getBeam r.1 b
    let y := windowFields x1 i v mask
    if y = x1 then r.1 else setBeam r.1 b { y with version := y.version + 1 }

/-- A store-buffer entry performed, the beam window among its targets (R154, R223). -/
def drainEntry (s : State) (n : Nat) (e : StoreEntry) : State :=
  match placeOf e.word with
  | .beam _ =>
    let a := 8 * e.word - beamBase
    let b := a / 64
    let i := a % 64 / 4
    let m := maskBits e.mask
    let lo := m.setWidth 32
    let hi := (m >>> 32).setWidth 32
    let s1 := if lo = 0#32 then s else windowStore s b i (e.data.setWidth 32) lo
    if hi = 0#32 then s1 else windowStore s1 b (i + 1) ((e.data >>> 32).setWidth 32) hi
  | _ => performDrain s n e

/-- The status and `out` of a beam operation, and whether a poison mark stands instead (R214, R216). -/
structure BeamRes where
  s   : State
  st  : Nat
  out : Word
  pois : Option Word

def noBeam : Word := 0xFFFFFFFF#32

def beamId (b : Nat) : Word := BitVec.ofNat 32 b

/-- `find` (R215). -/
def opFind (s : State) (k : Word) : BeamRes :=
  if keyBad k then { s, st := 8, out := noBeam, pois := none }
  else if nQuads s ≤ keyFacet k / 64 then { s, st := 1, out := noBeam, pois := none }
  else
    let r := beamSearch k (beamWays k) s none
    match r.2.1 with
    | some b => { s := r.1, st := 0, out := beamId b, pois := none }
    | none => { s := r.1, st := 1, out := noBeam, pois := none }

/-- Whether core `n` may make a beam for the key (check 3 of R215). -/
def mayMake (s : State) (n : Nat) (k : Word) : Bool :=
  let c := servingCluster s (keyFacet k / 8)
  if isWarden n then !(servingCores s c).isEmpty else c == clusterOf n

/-- `new` (R215): on success the context is written, locked to the requester, and written to `buf`. -/
def opNew (s : State) (n : Nat) (k : Word) (buf : Nat) : BeamRes :=
  if keyBad k then { s, st := 8, out := noBeam, pois := none }
  else if nQuads s ≤ keyFacet k / 64 then { s, st := 1, out := noBeam, pois := none }
  else if !mayMake s n k then { s, st := 3, out := noBeam, pois := none }
  else
    let r := beamSearch k (beamWays k) s none
    match r.2.1 with
    | some b => { s := r.1, st := 7, out := beamId b, pois := none }
    | none =>
      match r.2.2 with
      | none => { s := setBeevt r.1 (keyFacet k / 64) 1 1, st := 6, out := noBeam, pois := none }
      | some b =>
        if 8 ≤ lockCount r.1 n then { s := r.1, st := 9, out := noBeam, pois := none }
        else
          let old := getBeam r.1 b
          let owner := if isWarden n then ((servingCores r.1 (servingCluster r.1 (keyFacet k / 8))).headD 0) else n
          let v := old.version + 1
          let x : BeamCtx :=
            { BeamCtx.free with key := k, valid := true, owner := BitVec.ofNat 8 owner, locked := true,
                                locker := BitVec.ofNat 8 n, version := v, lockVer := v }
          let q := b / 16384
          let before := beCount r.1 q
          let s1 := cleanBeam (setBeam r.1 b x) b
          let s2 := if before ≤ (getQuad s1 q).bethr.toNat ∧ (getQuad s1 q).bethr.toNat < before + 1 then setBeevt s1 q 2 1 else s1
          let s3 := if isWarden n then s2 else cacheBeam s2 (clusterOf n) b
          { s := writeBuf s3 n buf (ctxOctets x), st := 0, out := beamId b, pois := none }

/-- The ID of a present, valid beam (R211, R216). -/
def validBeam (s : State) (a : Word) : Option Nat :=
  if a.toNat < nBeams s ∧ (getBeam s a.toNat).valid then some a.toNat else none

/-- The engine's check of every word of a context: the window address of the first that fails. -/
def checkCtx (s : State) (b : Nat) : State × Option Word :=
  (List.range 8).foldl (fun (t : State × Option Word) i =>
    let r := engineCheck t.1 b i
    (r.1, t.2.orElse fun _ => if r.2 then some (BitVec.ofNat 32 (beamBase + b * 64 + 8 * i)) else none)) (s, none)

/-- The cluster's cached copy of a beam whose version is still the SRAM version: a lock takes its software fields, and the fields the engine
writes as the SRAM holds them, since it updates both (R213, R216, R220). -/
def cachedCtx (s : State) (n b : Nat) : Option BeamCtx :=
  if isWarden n then none
  else
    let x := getBeam s b
    ((getCluster s (clusterOf n)).cache.find? fun e => e.beam == b && e.version == x.version.toNat).map fun e =>
      { x with key := e.copy.key, relay := e.copy.relay, egress := e.copy.egress, user := e.copy.user }

/-- The context a lock takes, and the window address of a failed word: of a cached copy only the SRAM word with VERSION is read (R216). -/
def lockCtx (s : State) (n b : Nat) : State × BeamCtx × Option Word :=
  match cachedCtx s n b with
  | some x =>
    let r := engineCheck s b 1
    (r.1, { x with poison := (getBeam r.1 b).poison }, if r.2 then some (BitVec.ofNat 32 (beamBase + b * 64 + 8)) else none)
  | none =>
    let r := checkCtx s b
    (r.1, getBeam r.1 b, r.2)

/-- `lock` (R216). -/
def opLock (s : State) (n : Nat) (a : Word) (buf : Nat) : BeamRes :=
  match validBeam s a with
  | none => { s, st := 1, out := noBeam, pois := none }
  | some b =>
    let x := getBeam s b
    let res (st : Nat) : BeamRes := { s, st, out := beamId b, pois := none }
    if !isWarden n && x.owner.toNat != n then res 3
    else if x.locked && x.locker.toNat == n then res 5
    else if x.locked then res 2
    else if 8 ≤ lockCount s n then res 9
    else
      let r := lockCtx s n b
      let y := r.2.1
      if y.poison then { s := r.1, st := 0, out := 0, pois := some (r.2.2.getD (BitVec.ofNat 32 (beamBase + b * 64))) }
      else
        let z : BeamCtx := { y with locked := true, locker := BitVec.ofNat 8 n, lockVer := y.version }
        let s1 := setBeam r.1 b z
        let s2 := if isWarden n then s1 else cacheBeam s1 (clusterOf n) b
        { s := writeBuf s2 n buf (ctxOctets z), st := 0, out := beamId b, pois := none }

/-- The fields a commit writes, from the 64 octets of `buf` (R213). -/
def commitFields (x : BeamCtx) (v : Octets) : BeamCtx :=
  let w (i : Nat) : Word := BitVec.ofNat 32 (ofLe ((v.drop (4 * i)).take 4))
  { x with
    relay := (w 1).getLsbD 1
    egress := (w 1 >>> 8).setWidth 8
    rxseq := (w 3).setWidth 16
    txseq := (w 3 >>> 16).setWidth 16
    user := (List.range 7).map fun i => w (9 + i) }

/-- The words of a context as a commit writes them (R179, R180, R225): words 5 to 7 whole, with fresh check bits; of the others it writes a part
of words 0, 1, 3 and 4, which it reads and checks. -/
def commitWords (s : State) (b : Nat) : State :=
  let s1 := [0, 1, 3, 4].foldl (fun t i => (engineCheck t b i).1) s
  [5, 6, 7].foldl (fun t i => setEcc t (beamWordNo b + i) 0) s1

/-- `commit` (R217, R219, R225). -/
def opCommit (s : State) (n : Nat) (a : Word) (data : Octets) : BeamRes :=
  match validBeam s a with
  | none => { s, st := if a.toNat < nBeams s then 4 else 1, out := if a.toNat < nBeams s then a else noBeam, pois := none }
  | some b =>
    let x := getBeam s b
    if !(x.locked && x.locker.toNat == n) then { s, st := 4, out := beamId b, pois := none }
    else if x.version ≠ x.lockVer then { s := dropLock s b, st := 10, out := beamId b, pois := none }
    else
      let t := releaseTx b s.facets
      let s1 := commitWords { s with facets := freeRx b t.1 } b
      let y := unlockCtx (commitFields (getBeam s1 b) data)
      let s2 := setBeam s1 b { y with version := x.version + 1, txframes := x.txframes + BitVec.ofNat 32 t.2, heldrx := 0, heldtx := 0 }
      let s3 := if isWarden n then s2 else cacheBeam s2 (clusterOf n) b
      { s := s3, st := 0, out := beamId b, pois := none }

/-- `drop` (R217). -/
def opDrop (s : State) (n : Nat) (a : Word) : BeamRes :=
  match validBeam s a with
  | none => { s, st := if a.toNat < nBeams s then 4 else 1, out := if a.toNat < nBeams s then a else noBeam, pois := none }
  | some b =>
    let x := getBeam s b
    if x.locked && x.locker.toNat == n then { s := dropLock s b, st := 0, out := beamId b, pois := none }
    else { s, st := 4, out := beamId b, pois := none }

/-- A beam operation performed by the engine (R214). -/
def beamOp (s : State) (n : Nat) (o : BeamOp) : BeamRes :=
  match o.kind with
  | .find => opFind s o.arg
  | .new => opNew s n o.arg o.buf
  | .lock => opLock s n o.arg o.buf
  | .commit => opCommit s n o.arg o.data
  | .drop => opDrop s n o.arg

/-- The quadrant whose engine performs an operation: of the key's facet, or of the beam ID (R211, R215). -/
def opQuad (o : BeamOp) : Nat :=
  match o.kind with
  | .find | .new => keyFacet o.arg / 64
  | _ => o.arg.toNat / 16384

/-- The engine serves the operation of core `n` it has not served yet; its answer waits for the delivery. -/
def beamServe (s : State) (n : Nat) : State :=
  match (getCore s n).u.beam with
  | none => s
  | some o =>
    match o.res with
    | some _ => s
    | none =>
      let r := beamOp s n o
      modCore r.s n fun k => { k with u := { k.u with beam := some { o with res := some (r.st, r.out, r.pois) } } }

/-- The cores whose unserved operation the engine of quadrant `q` serves before one of core `n`: those of paced clusters before free-running ones,
and by local core order within a cluster (R222, R228; log entry 106). -/
def servedBefore (s : State) (n q : Nat) : List Nat :=
  (s.cores.map Prod.fst).filter fun m =>
    m != n && (match (getCore s m).u.beam with
      | some o => o.res.isNone && opQuad o == q &&
        ((isDet s m && !isDet s n) || (!isWarden m && !isWarden n && clusterOf m == clusterOf n && decide (m < n)))
      | none => false)

/-- The beam operation of core `n` delivers (R214, R216): `st` and `out` are written and a standing poison mark goes; a poisoned context leaves
both and sets the mark. -/
def beamFinish (s0 : State) (n : Nat) : State :=
  match (getCore s0 n).u.beam with
  | none => s0
  | some o =>
    let s := beamServe ((if o.res.isNone then servedBefore s0 n (opQuad o) else []).foldl beamServe s0) n
    match ((getCore s n).u.beam.bind BeamOp.res) with
    | none => s
    | some (st, out, pois) =>
      modCore s n fun k =>
        let k1 : LensCore := { k with u := { k.u with beam := none, beamPois := pois } }
        match pois with
        | some _ => k1
        | none => setSk (setSk k1 0x281 out) 0x282 (BitVec.ofNat 32 st)

/-- The latency of a beam operation in steps (R41). -/
def beamLatency (s : State) (n : Nat) : Nat := if isDet s n then 64 else if s.part.b0 then 40 else 52

/-- The quadrant is over its limit: more unit operations are under way than its engine performs in the shortest latency (R222; log entry
106). -/
def beamContended (s : State) (q : Nat) : Bool :=
  decide (8 < (s.cores.filter fun e => match (getCore s e.1).u.beam with | some o => opQuad o == q | none => false).length)

/-- An uncontended operation whose latency has passed must deliver before the next step (R40, R41). -/
def beamDue (s : State) (n : Nat) : Bool :=
  match (getCore s n).u.beam with
  | none => false
  | some o => decide (o.trig + beamLatency s n ≤ (getCore s n).i.steps) && !beamContended s (opQuad o)

/-- BEAM_OPERATION_DELIVERY (R40 to R42, R214, R222, R226): not before its latency; in a paced cluster lateness is counted, and sets
BEEVT.OVR. -/
def beamDeliver (s : State) (n : Nat) : State :=
  let k := getCore s n
  match k.u.beam with
  | none => s
  | some o =>
    if k.i.steps < o.trig + beamLatency s n then s
    else
      let late := if isDet s n then k.i.steps - (o.trig + 64) else 0
      let s1 := beamFinish s n
      let s2 := if late ≠ 0 then setBeevt s1 (opQuad o) 4 3 else s1
      if isWarden n then s2 else modCluster s2 (clusterOf n) fun v => { v with overrun := min 0xFFFFFFFF (v.overrun + late) }

end Sys2Proof.Machine
end

