-- ==== Sys2Proof/Machine/Bitu.lean ====
section
/-! DEFINITION. The bitu unit: bit addresses, the shared bit store, its operations (R54, R55, R96, R97). -/

namespace Sys2Proof.Machine

/-- Whether an operation takes a bit address; the logic operations take direct bits. -/
def BitOp.byAddress : BitOp → Bool
  | .tst | .set | .clr | .tgl | .tas => true
  | _ => false

/-- What a bit address names (R54). A warden's cluster has no bit store: its shared bits are not mapped (DEDUCED, log entry 23). -/
inductive BitPlace where
  | priv (i : Nat)
  | shared (i : Nat)
  | none
  deriving DecidableEq, Repr

def bitPlace (n : Nat) (a : Word) : BitPlace :=
  let x := a.toNat
  if x < 0x1000 then .priv x
  else if 0x10000 ≤ x ∧ x < 0x20000 ∧ ¬ (128 ≤ n) then .shared (x - 0x10000)
  else .none

/-- The 8-byte word of shared bit `i`. -/
def bitWord (n i : Nat) : Nat := (bitBase (clusterOf n) + i / 64 * 8) / 8

/-- The check of a bitu trigger (R54, R96): its cause and BADADDR, and the state after the read of the word. -/
def bituCheck (s : State) (n : Nat) (o : BitOp) (a : Word) : State × Option (Nat × Word) :=
  if !o.byAddress then (s, none)
  else
    match bitPlace n a with
    | .none => (s, some (0x16, a))
    | .priv _ => (s, none)
    | .shared i =>
      let w := bitWord n i
      if 2 ≤ eccOf s w then ((checkWord s w).1, some (0x14, BitVec.ofNat 32 (0x20000 + 8 * (i / 64))))
      else (s, none)

/-- What the bit becomes; `none`: it is only read. -/
def BitOp.newBit : BitOp → Bool → Option Bool
  | .set, _ => some true
  | .clr, _ => some false
  | .tgl, b => some !b
  | .tas, _ => some true
  | _, _ => none

/-- Whether the operation writes b[kd] (R96). -/
def BitOp.writesKd : BitOp → Bool
  | .set | .clr | .tgl => false
  | _ => true

def bitLogic (o : BitOp) (x y : Bool) : Bool :=
  match o with
  | .and => x && y
  | .or => x || y
  | .xor => x != y
  | .andn => x && !y
  | _ => x

/-- `out` and b[kd] take the result (R96). -/
def bituOut (k : LensCore) (o : BitOp) (kd : Nat) (v : Bool) : LensCore :=
  let k1 := setSk k 0x252 (boolWord v)
  if o.writesKd then setPbit k1 kd v else k1

/-- Shared bit `i` read and written indivisibly: its old value and the state after (R55, R96). -/
def sharedBit (s0 : State) (n i : Nat) (o : BitOp) : State × Bool :=
  let w := bitWord n i
  let s := (checkWord (meetWord s0 n w (o.newBit false).isSome) w).1
  let v := rawWord s w
  let old := v.getLsbD (i % 64)
  match o.newBit old with
  | none => (s, old)
  | some b =>
    let m : BitVec 64 := 1#64 <<< (i % 64)
    (setRawWord s w (if b then v ||| m else v &&& ~~~m), old)

/-- A bitu operation that passed its check (R96). `k` in the state already holds the writes of the bundle; `bits` is the core at the start of
the step, whose direct bits the logic operations and the private forms read. -/
def bituDo (s : State) (n : Nat) (bits : LensCore) (o : BitOp) (a : Word) : State :=
  let k := getCore s n
  let kd := (sk k 0x251).toNat % 256
  let q := (sk k 0x250).toNat % 256
  if !o.byAddress then setCore s n (bituOut k o kd (bitLogic o (pbit bits (a.toNat % 256)) (pbit bits q)))
  else
    match bitPlace n a with
    | .priv i =>
      let old := pbit bits i
      let k1 := match o.newBit old with | some b => setPbit k i b | none => k
      setCore s n (bituOut k1 o kd old)
    | .shared i =>
      let r := sharedBit s n i o
      modCore r.1 n fun k => bituOut k o kd r.2
    | .none => s

/-- The direct bits a bitu trigger writes in its step (R47, R96, R97); b0 takes no part. -/
def bituWrites (n : Nat) (o : BitOp) (a : Word) (kd : Nat) : List Nat :=
  let named :=
    match o.byAddress, bitPlace n a with
    | true, .priv i => if i < 256 ∧ (o.newBit false).isSome then [i] else []
    | _, _ => []
  (named ++ (if o.writesKd then [kd % 256] else [])).filter fun i => i != 0

end Sys2Proof.Machine
end

