-- ==== Sys2Proof/Machine/Copy.lean ====
section
/-! DEFINITION. The copy unit: checks, words of an operation, park and resume, how an operation ends (R102 to R106). -/

namespace Sys2Proof.Machine

/-! ### Fields of `copy.seg` and `copy.len` (R102, R103) -/

def segSa (v : Word) : Nat := field v 0 3
def segDa (v : Word) : Nat := field v 4 3
def segRmt (v : Word) : Bool := v.getLsbD 7
def segCl (v : Word) : Nat := field v 8 5

/-- `len`[20:0], at most 0x10_0000. -/
def copyLen (v : Word) : Nat := min (field v 0 21) 0x100000

def CopyKind.usesSrc : CopyKind → Bool
  | .move | .crc => true
  | _ => false

def CopyKind.usesDst : CopyKind → Bool
  | .move | .fill => true
  | _ => false

/-! ### The checks of a trigger (R104, R105) -/

/-- What the check of a trigger gives: the addresses it resolved, or the cause and BADADDR. -/
inductive TrigRes where
  | ok (p q : Nat)
  | bad (cause : Nat) (addr : Option Word)
  deriving DecidableEq, Repr

def badAt (cause a : Nat) : TrigRes := .bad cause (some (BitVec.ofNat 32 a))

/-- The destination of a remote copy: the bank range of a present cluster (R103; DEDUCED, log entry 21). -/
def remoteDst (s : State) (cl a len : Nat) : Checked :=
  if cl < nClusters s ∧ 0x100000 ≤ a ∧ a + len ≤ 0x200000 then .ok (bankBase cl 0 + (a - 0x100000))
  else .bad 0x16 (if cl < nClusters s ∧ 0x100000 ≤ a ∧ a < 0x200000 then 0x200000 else a)

/-- Step 2 of R104: the source range as a load, then the destination range as a store; the global addresses of both. -/
def copyCheck (s : State) (n : Nat) (sup : Bool) (kind : CopyKind) (seg : Word) (src dst len : Nat) : TrigRes :=
  let k := getCore s n
  if len = 0 then .ok 0 0
  else
    let cs := if kind.usesSrc then checkCopyRange s n sup (apOf k n (segSa seg)) .read src len else .ok 0
    match cs with
    | .bad c x => badAt c x
    | .ok p =>
      if !kind.usesDst then .ok (globalOf n p) 0
      else if segRmt seg then
        match remoteDst s (segCl seg) dst len with
        | .bad c x => badAt c x
        | .ok q => .ok (globalOf n p) q
      else
        match checkCopyRange s n sup (apOf k n (segDa seg)) .write dst len with
        | .bad c x => badAt c x
        | .ok q => .ok (globalOf n p) (globalOf n q)

/-- The checks of the 32-byte record at AP1 offset `a` (R105): those of R150 in their order, with the two further causes of check 5. -/
def recordCheck (s : State) (n : Nat) (sup : Bool) (d : Dir) (a : Nat) : TrigRes :=
  let ap := apOf (getCore s n) n 1
  let p := ap.start + a
  let bad (c : Nat) : TrigRes := badAt c p
  if ap.kind = 3 then bad 0x11
  else if ap.limit.toNat < a + 31 then bad 0x10
  else if 0x100000000 ≤ p + 31 then bad 0x16
  else if !ap.allows sup d then bad 0x11
  else if ap.kind ≠ 0 then bad 0x11
  else if a % 8 ≠ 0 then bad 0x12
  else
    match checkHalf s n sup 0 d p 32 with
    | some c => bad c
    | none => if ownerAllows s n (p + 31) (d == .write) then .ok p 0 else bad 0x13

/-! ### The words of an operation (R104) -/

/-- What an access of the copy unit of core `n` to word `w` of exchange RAM or the bit store finds pending there (R173 to R176): before a read, and
in classic arbitration before a write, the stores of the cores that wait; in native arbitration those come later and collide. -/
def meetStores (s : State) (n w : Nat) (wr : Bool) : State :=
  match placeOf w with
  | .xram c | .bits c =>
    let heads := ((List.range 4).map fun i => 4 * c + i).filter fun m =>
      match (getCore s m).u.stores.head? with | some e => e.word == w && e.kind != .device | none => false
    if !wr || (getCluster s c).classic then heads.foldl (grantHead (copyMaster c n)) s
    else heads.foldl (fun t m => clash t w (copyMaster c n) 0 (m % 4) 0) s
  | _ => s

/-- The bytes of a source range as the copy unit of core `n` reads them; whether a word failed. -/
def copyRead (s0 : State) (n a len : Nat) : State × Octets × Bool :=
  let s := meetStores (meetStores s0 n (a / 8) false) n ((a + len - 1) / 8) false
  if (0x04000000 ≤ a ∧ a < 0x04400000) ∨ (0x40000000 ≤ a ∧ a < 0x40010000) then
    let w0 := a / 8
    let w1 := (a + len - 1) / 8
    let r0 := checkWord s w0
    let r1 := if w1 = w0 then (r0.1, false) else checkWord r0.1 w1
    let bytes := leOctets 8 (anyWord r1.1 w0).toNat ++ (if w1 = w0 then [] else leOctets 8 (anyWord r1.1 w1).toNat)
    (r1.1, (bytes.drop (a % 8)).take len, r0.2 || r1.2)
  else portReadBytes 3 s a len

/-- The bytes of one destination word written together, by the copy unit of core `n`, or in another cluster by the fabric (R177). -/
def copyWrite (s0 : State) (n a : Nat) (v : Octets) : State :=
  let s := meetStores s0 n (a / 8) true
  match placeOf (a / 8) with
  | .beam _ =>
    let data := BitVec.ofNat 64 (ofLe v * 256 ^ (a % 8))
    drainEntry s n { id := 0, word := a / 8, mask := maskOf (a % 8) v.length, data, kind := .normal, linked := false }
  | .bank c _ => portWriteBytes (copyMaster c n) 0 2 s a v
  | _ => portWriteBytes (copyMaster (clusterOf n) n) 0 2 s a v

/-- Byte `i` of the fill pattern from offset `i` of the destination (R102). -/
def fillBytes (pat : Word) (start len : Nat) : Octets :=
  (List.range len).map fun i => (pat >>> (8 * ((start + i) % 4))).setWidth 8

/-- How many bytes the next word covers: a word of the destination, for a `crc` of the source (R104). -/
def chunkLen (o : CopyOp) : Nat :=
  let a := if o.kind = .crc then o.srcP else o.dstP
  if o.down then
    let e := (a + o.left) % 8
    min o.left (if e = 0 then 8 else e)
  else min o.left (8 - a % 8)

/-- One word of the operation processed; whether its source word failed, in which case nothing of it is done. -/
def copyStep (s : State) (n : Nat) (o : CopyOp) : State × CopyOp × Bool :=
  let len := chunkLen o
  let off := if o.down then o.left - len else 0
  let r := if o.kind.usesSrc then copyRead s n (o.srcP + off) len else (s, fillBytes o.word o.done len, false)
  if r.2.2 then (r.1, o, true)
  else
    let adv := if o.down then 0 else len
    let o1 : CopyOp := { o with left := o.left - len, done := o.done + len, src := o.src + BitVec.ofNat 32 adv,
                                dst := o.dst + BitVec.ofNat 32 adv, srcP := o.srcP + adv, dstP := o.dstP + adv }
    match o.kind with
    | .crc => (r.1, { o1 with word := crcUpdate o.word r.2.1 }, false)
    | _ => (copyWrite r.1 n (o.dstP + off) r.2.1, o1, false)

/-- Up to `m` words processed, stopping at the end or before a bad source word. -/
def copyRun : Nat → State → Nat → CopyOp → State × CopyOp × Bool
  | 0, s, _, o => (s, o, false)
  | m + 1, s, n, o =>
    if o.left = 0 then (s, o, false)
    else
      let r := copyStep s n o
      if r.2.2 then r else copyRun m r.1 n r.2.1

/-- The words that are left of an operation, the part words at its ends among them: a park may fall before any of them. -/
def copyChunks (left : Nat) (o : CopyOp) : Nat :=
  let a := if o.kind = .crc then o.srcP else o.dstP
  (a + left + 7) / 8 - a / 8

/-- Words enough to finish any operation: 1 MiB is 131,073 words at most. -/
def copyWords (o : CopyOp) : Nat := o.left / 8 + 2

/-! ### Ends (R105) -/

/-- The unit delivers `st` and `out` and is idle. -/
def copyDone (s : State) (n : Nat) (st out : Word) : State :=
  modCore s n fun k => setSk (setSk { k with u := { k.u with copy := none } } 0x279 out) 0x27A st

/-- `out` of a completed operation: the CRC, or the bytes processed (R102, R105). -/
def copyOut (o : CopyOp) : Word := if o.kind = .crc then ~~~o.word else BitVec.ofNat 32 o.done

/-- A data error stops the operation before its word: `st` 3, CLEVT.COPYERR (R104). The wardens belong to no cluster. -/
def copyErr (s : State) (n : Nat) (out : Nat) : State :=
  let s1 := copyDone s n 3#32 (BitVec.ofNat 32 out)
  if isWarden n then s1 else setClevt s1 (clusterOf n) (1#32 <<< 26)

/-- The contract latency of an operation of `len` bytes (R106). -/
def copyLatency (kind : CopyKind) (src dst len : Nat) : Nat :=
  match kind with
  | .none => 8
  | .fill => 12 + (len + 7) / 8
  | .crc => 12 + (len + 3) / 4
  | .move => if src % 8 = dst % 8 then 12 + (len + 7) / 8 else 12 + (len + 3) / 4

/-! ### The record (R105) -/

def kindCode : CopyKind → Nat
  | .none => 0
  | .move => 1
  | .fill => 2
  | .crc => 3

/-- The word at +16 of the record: the CRC register, or the fill word turned so that its byte 0 comes next; 0 for a move (DEDUCED, log
entry 22). -/
def recordWord (o : CopyOp) : Word :=
  match o.kind with
  | .crc => o.word
  | .fill => o.word.rotateRight (8 * (o.done % 4))
  | _ => 0

/-- The 32 octets of the record of an operation as it stands. The next source and destination offset of a downward move are the lowest byte of
the range that is left (DESIGN CHOICE, log entry 107). -/
def recordOf (o : CopyOp) : Octets :=
  if o.kind = .none then leOctets 32 0
  else
    leOctets 4 o.src.toNat ++ leOctets 4 o.dst.toNat ++
    leOctets 4 (o.left + kindCode o.kind * 0x200000 + (if o.down then 0x1000000 else 0)) ++
    leOctets 4 (o.seg &&& 0x1FF7#32).toNat ++ leOctets 4 (recordWord o).toNat ++ leOctets 12 0

/-- The record written word by word at global address `g`, in the beam window as a warden's stores there (R143, R223). -/
def recordWrite (s : State) (n g : Nat) (v : Octets) : State :=
  (List.range 4).foldl (fun t i => copyWrite t n (g + 8 * i) ((v.drop (8 * i)).take 8)) s

/-- What a record says (R105). -/
inductive Record where
  | bad
  | none
  | op (kind : CopyKind) (src dst : Nat) (left : Nat) (down : Bool) (seg word : Word)
  deriving DecidableEq, Repr

def parseRecord (v : Octets) : Record :=
  let w (i : Nat) : Nat := ofLe ((v.drop (4 * i)).take 4)
  let left := w 2 % 0x200000
  let code := w 2 / 0x200000 % 8
  let down := decide (w 2 / 0x1000000 % 2 = 1)
  let seg := BitVec.ofNat 32 (w 3)
  if 4 ≤ code ∨ 0x100000 < left ∨ w 2 / 0x2000000 ≠ 0 ∨ seg &&& ~~~0x1FF7#32 ≠ 0#32 ∨ w 5 ≠ 0 ∨ w 6 ≠ 0 ∨ w 7 ≠ 0 then .bad
  else
    match code with
    | 0 => .none
    | 1 => .op .move (w 0) (w 1) left down seg (BitVec.ofNat 32 (w 4))
    | 2 => .op .fill (w 0) (w 1) left down seg (BitVec.ofNat 32 (w 4))
    | _ => .op .crc (w 0) (w 1) left down seg (BitVec.ofNat 32 (w 4))

/-! ### Starts -/

/-- A remote copy sends its packet to the cluster of its destination (R103, R288); one to the core's own cluster meets the bank at once. -/
def banksOpen (s : State) (a len : Nat) : Bool :=
  len = 0 || ((List.range 4).all fun k =>
    match bankAt a with
    | none => false
    | some (c, _) =>
      let lo := bankBase c k
      !(decide (a < lo + 0x40000) && decide (lo < a + len)) || (getBank s c k).fopen)

/-- The bytes of a remote copy before its first closed bank, in the order the operation proceeds (R105, R168). -/
def bytesAccepted (s : State) (o : CopyOp) : Nat :=
  match bankAt o.dstP with
  | none => 0
  | some (c, _) =>
    let shut (a : Nat) : Bool := match bankAt a with | some (_, k) => !(getBank s c k).fopen | none => true
    if o.down then
      (List.range 4).foldl (fun m k =>
        let e := bankBase c k + 0x40000
        let top := o.dstP + o.left
        if shut (e - 1) ∧ o.dstP < e ∧ bankBase c k < top then min m (top - min top e) else m) o.left
    else
      (List.range 4).foldl (fun m k =>
        let lo := bankBase c k
        if shut lo ∧ lo < o.dstP + o.left ∧ o.dstP < lo + 0x40000 then min m (max lo o.dstP - o.dstP) else m) o.left

def routeOfCopy (n cl : Nat) : List Nat := if isWarden n then routeFromWarden cl else if clusterOf n = cl then [] else routeBetween (clusterOf n) cl

/-- The remote bank's answer: 2 accepted, 3 refused, in which case CLEVT.FREF of its cluster is set (R105, R168, R178). -/
def remoteAnswer (s : State) (n : Nat) : State :=
  match (getCore s n).u.copy with
  | none => s
  | some o =>
    let ok := banksOpen s o.dstP o.left
    let s1 := modCore s n fun k => { k with u := { k.u with copy := some { o with remote := if ok then 2 else 3 } } }
    if ok then s1
    else match bankAt o.dstP with | some (c, _) => setClevt s1 c (1#32 <<< 27) | none => s1

/-- An operation enters the unit. -/
def copyStart (s : State) (n : Nat) (o : CopyOp) : State :=
  let s1 := modCore s n fun k => { k with u := { k.u with copy := some o } }
  if o.remote = 0 then s1
  else
    match routeOfCopy n (segCl o.seg) with
    | [] => remoteAnswer s1 n
    | r => sendPacket s1 2 .remoteCopy r o.left (.copy n)

/-- `move`, `fill` and `crc` triggered with `a`, after their checks gave the global addresses (R102, R104). -/
def copyTrigger (s : State) (n : Nat) (kind : CopyKind) (a : Word) (p q : Nat) : State :=
  let k := getCore s n
  let src := sk k 0x270
  let seg := sk k 0x272
  let len := copyLen (sk k 0x271)
  let word := if kind = .crc then ~~~(sk k 0x273) else sk k 0x273
  copyStart s n
    { kind, trig := k.i.steps, lat := copyLatency kind src.toNat a.toNat len, src, dst := a, srcP := p, dstP := q, left := len, done := 0,
      down := kind == .move && decide (p < q) && decide (q < p + len), seg, word,
      remote := if segRmt seg ∧ kind.usesDst ∧ len ≠ 0 then 1 else 0, since := s.tb, park := none }

/-- `park` into the record at core physical address `p` (R105). The words processed before it are a free number (log entry 8); a data
error among them stops the operation first. -/
def copyPark (s : State) (n p : Nat) : State :=
  let st := (getCore s n).i.steps
  let g := globalOf n p
  let idle : CopyOp := { kind := .none, trig := st, lat := 8, src := 0, dst := 0, srcP := 0, dstP := 0, left := 0, done := 0, down := false,
                         seg := 0, word := 0, remote := 0, since := s.tb, park := some g }
  let put (t : State) (o : CopyOp) : State := modCore t n fun k => { k with u := { k.u with copy := some o } }
  match (getCore s n).u.copy with
  | none => put s idle
  | some o =>
    if o.left = 0 then put (copyDone s n 0#32 (copyOut o)) idle
    else
      let words := copyChunks o.left o
      let m := if o.remote = 0 ∨ o.remote = 2 then Config.copyProgress s.free words % words else 0
      let r := copyRun m { s with free := s.free + 1 } n o
      if r.2.2 then put (copyErr r.1 n r.2.1.done) idle
      else put r.1 { r.2.1 with trig := st, lat := 8, park := some g }

/-- `resume` of the record at core physical address `p`, after its checks (R105). `a` and `b` are the global addresses the ranges
check gave. -/
def copyResume (s : State) (n p a b : Nat) : State :=
  let r := portReadBytes 6 s (globalOf n p) 32
  if r.2.2 then copyErr r.1 n 0
  else
    match parseRecord r.2.1 with
    | .bad => copyDone r.1 n 4#32 0
    | .none => copyDone r.1 n 0#32 0
    | .op kind src dst left down seg word =>
      copyStart r.1 n
        { kind, trig := (getCore s n).i.steps, lat := 8 + copyLatency kind src dst left, src := BitVec.ofNat 32 src,
          dst := BitVec.ofNat 32 dst, srcP := a, dstP := b, left, done := 0, down, seg, word,
          remote := if segRmt seg ∧ kind.usesDst ∧ left ≠ 0 then 1 else 0, since := s.tb, park := none }

/-- The ranges check of a `resume` (R105): made only for a good record. -/
def resumeCheck (s : State) (n : Nat) (sup : Bool) (p : Nat) : TrigRes :=
  let r := portReadBytes 6 s (globalOf n p) 32
  if r.2.2 then .ok 0 0
  else
    match parseRecord r.2.1 with
    | .op kind src dst left _ seg _ => copyCheck s n sup kind seg src dst left
    | _ => .ok 0 0

/-! ### The commands -/

/-- The steps before which an operation does not deliver (R40, R106): its contract in a paced cluster; else the figure of the stepping, which a
resumed operation does not have. -/
def copyEarliest (s : State) (n : Nat) (o : CopyOp) : Nat :=
  if isDet s n ∨ o.kind = .none ∨ o.park.isSome then o.lat
  else if o.lat ≠ copyLatency o.kind o.src.toNat o.dst.toNat o.left then 0
  else if s.part.b0 then 12 + (o.left + 7) / 8
  else o.lat

def copyReady (s : State) (n : Nat) (o : CopyOp) : Bool := decide (o.trig + copyEarliest s n o ≤ (getCore s n).i.steps)

/-- Facet DMA or the fabric may occupy a bank of the cluster (R42). -/
def portBusy (s : State) (c : Nat) : Bool :=
  ((List.range 8).any fun i => let f := getFacet s (8 * c + i); f.lane.isSome || f.back.isSome || f.look.isSome) || s.fabric.queues.any fun e => !e.2.isEmpty

/-- The operation is contended (R42, R106): a source in code flash or through the fabric, a remote destination, a bank that facet DMA or the
fabric may occupy. -/
def copyContended (s : State) (n : Nat) (o : CopyOp) : Bool :=
  let at_ (used : Bool) (a : Nat) : Bool := used && (match bankAt a with | some (c, _) => isWarden n || portBusy s c | none => false)
  o.remote != 0 || (o.kind.usesSrc && decide (0x08000000 ≤ o.srcP) && decide (o.srcP < 0x0C000000)) || at_ o.kind.usesSrc o.srcP || at_ o.kind.usesDst o.dstP

/-- An uncontended operation whose contract has passed must deliver before the next step (R40). -/
def copyDue (s : State) (n : Nat) : Bool :=
  match (getCore s n).u.copy with
  | none => false
  | some o => decide (o.trig + o.lat ≤ (getCore s n).i.steps) && !copyContended s n o

/-- The lateness of a paced operation is counted (R42). -/
def countLate (s : State) (n trig lat : Nat) : State :=
  if isDet s n then
    modCluster s (clusterOf n) fun v => { v with overrun := min 0xFFFFFFFF (v.overrun + ((getCore s n).i.steps - (trig + lat))) }
  else s

/-- A remote copy whose data was poisoned on its way leaves its first word poisoned (R294; `remote` 4). -/
def taintCopy (s : State) (o : CopyOp) : State := if o.remote = 4 then newPoison s (o.dstP / 8) else s

/-- COPY_COMPLETION (R105): the words that remain are processed and `st` and `out` delivered; a park writes its record and delivers
`st` 2, unless no operation was active. The words become visible here, all at once, or at the park (DESIGN CHOICE: R104 promises no step; log
entry 108). -/
def execCopyCompletion (n : Nat) (s : State) : Host.Outcome State Fault Refusal :=
  match (getCore s n).u.copy with
  | none => .next s
  | some o =>
    if !copyReady s n o then .next s
    else
      let s0 := countLate s n o.trig o.lat
      match o.park with
      | some g =>
        let s1 := recordWrite s0 n g (recordOf o)
        .next (if o.kind = .none then modCore s1 n fun k => { k with u := { k.u with copy := none } }
          else copyDone s1 n 2#32 (BitVec.ofNat 32 o.done))
      | none =>
        if o.remote = 1 ∨ o.remote = 3 then .next s
        else
          let r := copyRun (copyWords o) s0 n o
          if r.2.2 then .next s else .next (taintCopy (copyDone r.1 n 0#32 (copyOut r.2.1)) o)

/-- COPY_DATA_ERROR_STOP (R104): the words before the bad one stand. -/
def execCopyDataErrorStop (n : Nat) (s : State) : Host.Outcome State Fault Refusal :=
  match (getCore s n).u.copy with
  | none => .next s
  | some o =>
    if o.park.isSome ∨ o.remote = 1 ∨ o.remote = 3 then .next s
    else
      let r := copyRun (copyWords o) s n o
      if r.2.2 then .next (copyErr (countLate r.1 n o.trig o.lat) n r.2.1.done) else .next s

/-- REMOTE_COPY_REFUSAL (R105, R168): the words the remote banks accepted stand, `st` becomes 5. -/
def execRemoteCopyRefusal (n : Nat) (s : State) : Host.Outcome State Fault Refusal :=
  match (getCore s n).u.copy with
  | none => .next s
  | some o =>
    if o.remote ≠ 3 ∨ o.park.isSome then .next s
    else
      let len := bytesAccepted s o
      let part : CopyOp := if o.down then { o with left := len, srcP := o.srcP + (o.left - len), dstP := o.dstP + (o.left - len) } else { o with left := len }
      let r := copyRun (copyWords part) s n part
      if r.2.2 then .next (copyErr r.1 n r.2.1.done) else .next (copyDone r.1 n 5#32 (BitVec.ofNat 32 (o.done + len)))

end Sys2Proof.Machine
end

