-- ==== Sys2Proof/Machine/Fetch.lean ====
section
/-! DEFINITION. Lines, the line cache, the branch-target buffer, the flash read channel and the loop-start buffers (R113 to R122, R125, R134). -/

namespace Sys2Proof.Machine

/-- The line of an AP0 offset (R67). -/
def lineOff (o : Nat) : Nat := o / 32 * 32

def findLine (ls : List FLine) (o : Nat) : Option FLine := ls.find? fun l => l.off == lineOff o

/-- The delivered word at AP0 offset `o`. -/
def lineWord (l : FLine) (o : Nat) : Option FWord := l.ws[(o % 32) / 8]?

/-- The set of a line in the line cache (R115) and of a transfer in the BTB (R119). -/
def cacheSet (p : Nat) : Nat := p / 32 % 256
def btbSet (o : Nat) : Nat := o / 8 % 64

/-- The least recently used entry of a full set of 4 ways goes when a new one comes: entries stand most recent first. -/
def insertLru {α : Type} (setOf : α → Nat) (ways : Nat) (x : α) (l : List α) : List α :=
  x :: (l.filter fun y => setOf y != setOf x) ++ ((l.filter fun y => setOf y == setOf x).take (ways - 1))

/-- The four words of the line at physical address `p`, as memory delivers them (R116, R180); an access to a window on loan ends
the loan (R186). -/
def readLine (s : State) (n p : Nat) : State × List FWord :=
  (List.range 4).foldl (fun (t : State × List FWord) i =>
    let w := globalOf n (p + 8 * i) / 8
    let r := checkWord (endLoanAt t.1 w) w
    (r.1, t.2 ++ [{ w := anyWord r.1 w, bad := r.2 }])) (s, [])

/-- What a line source answers for the line at physical address `p` (R116): an error with its BADADDR, or none. -/
def lineError (s : State) (n p : Nat) (dev : Bool) : Option (Nat × Option Word) :=
  let r := regionOf s n p
  let bad := some (BitVec.ofNat 32 p)
  if regionOf s n (p + 31) ≠ r then some (0x16, bad)
  else
    match r with
    | .scratch => none
    | .xram => if isDet s n && !dev then some (0x15, none) else none
    | .ownBanks => if ownerAllows s n p false && ownerAllows s n (p + 31) false then none else some (0x13, bad)
    | .allBanks => none
    | .flash => if isDet s n then some (0x15, none) else none
    | .rom => none
    | _ => some (0x16, bad)

def modIssue (k : LensCore) (f : Issue → Issue) : LensCore := { k with i := f k.i }

/-- A cached line whose parity is good, at its exact physical address (log entry 100). -/
def cachedLine (k : LensCore) (p : Nat) : Option (Nat × List FWord) :=
  k.i.cache.find? fun c => c.1 == p && !c.2.any FWord.bad

/-- A cached line with a parity error is invalidated, and the error is counted at 0x4000 + n:05 (R115, R283). -/
def parityCheck (k : LensCore) (p : Nat) : LensCore :=
  if k.i.cache.any fun c => c.1 == p && c.2.any FWord.bad then
    { k with i := { k.i with cache := k.i.cache.filter fun c => c.1 != p }, st := { k.st with parity := satInc 0xFFFFFFFF k.st.parity } }
  else k

/-- A line enters the line cache unless it is there or a word of it failed (R115, R120). -/
def cacheFill (k : LensCore) (p : Nat) (ws : List FWord) : LensCore :=
  if ws.any FWord.bad || (cachedLine k p).isSome then k
  else modIssue k fun i => { i with cache := insertLru (fun c => cacheSet c.1) 4 (p, ws) (i.cache.filter fun c => c.1 != p) }

/-- The line cache serves and fills: AP0 is normal-kind and the cluster free-running (R36, R115). -/
def cacheOn (s : State) (n : Nat) : Bool := (apOf (getCore s n) n 0).kind == 0 && !isDet s n

/-- The line at AP0 offset `o` delivered (R115, R116): from the line cache, or from its source, which then fills the cache. A line whose physical
address is no multiple of 32 is cached at that address, and is no half of a flash line (DESIGN CHOICE, log entry 100). -/
def deliverLine (s0 : State) (n o : Nat) : State × FLine :=
  let ap := apOf (getCore s0 n) n 0
  let p := ap.start + o
  if ap.limit.toNat < o + 7 ∨ 0x100000000 ≤ p + 31 then (s0, { off := o, ws := [], err := none })
  else
    match lineError s0 n p (ap.kind == 1) with
    | some e => (s0, { off := o, ws := [], err := some e })
    | none =>
      let s := if cacheOn s0 n then modCore s0 n fun k => parityCheck k p else s0
      match if cacheOn s n then cachedLine (getCore s n) p else none with
      | some c =>
        (modCore s n fun k => modIssue k fun i => { i with cache := c :: i.cache.filter fun x => x.1 != p }, { off := o, ws := c.2, err := none })
      | none =>
        let r := readLine s n p
        ((if cacheOn s n then modCore r.1 n fun k => cacheFill k p r.2 else r.1), { off := o, ws := r.2, err := none })

/-- A BTB entry is allocated or updated with its target line, least recently used replaced (R119). -/
def btbInsert (b : List BtbEntry) (e : BtbEntry) : List BtbEntry :=
  insertLru (fun x => btbSet x.xoff) 4 e (b.filter fun x => x.xoff != e.xoff)

/-- After lines arrived: the BTB entry of the transfer that waits for its target line, and the loop-start buffer that waits for
its lines (R119, R134). -/
def lineSideEffects (det normal : Bool) (i : Issue) (ls : Nat → Nat) : Issue :=
  let i1 :=
    match if i.delay.isNone then i.xferOff else none with
    | none => i
    | some x =>
      match findLine i.lines i.pc.toNat with
      | none => i
      | some l =>
        if l.err.isSome then { i with xferOff := none }
        else if normal && !det then
          { i with xferOff := none, btb := btbInsert i.btb { xoff := x, size := i.xferSize, target := i.pc.toNat, line := l } }
        else { i with xferOff := none }
  match i1.loopWait with
  | none => i1
  | some lv =>
    let o := ls lv
    match findLine i1.lines o, findLine i1.lines (lineOff o + 32) with
    | some a, some b => { i1 with loopWait := none, loopBuf := Tab.put lv [a, b] i1.loopBuf }
    | _, _ => i1

/-- Where fetch stands: the offset of the bundle that executes next. -/
def fetchPc (k : LensCore) : Nat := k.i.pc.toNat

/-- A ctl trigger stands among the moves of the word pair: the bundle may transfer, trap or return once it issues (R120). -/
def hasCtl (w0 w1 : BitVec 64) : Bool :=
  match decodeBundle w0 w1 with
  | .moves _ _ _ ms => ms.any fun m => match trigOf m.dst with | some (.ctl _) => true | _ => false
  | _ => false

/-- The bundles that stand whole in the delivered lines from offset `o` on: offset and words (R113). -/
def bundlesFrom (ls : List FLine) : Nat → Nat → List (Nat × BitVec 64 × BitVec 64)
  | 0, _ => []
  | f + 1, o =>
    let word (x : Nat) : Option (BitVec 64) := ((findLine ls x).bind fun l => lineWord l x).map FWord.w
    match word o with
    | none => []
    | some w0 =>
      if bundleSize w0 = 8 then (o, w0, 0) :: bundlesFrom ls f (o + 8)
      else
        match word (o + 8) with
        | none => []
        | some w1 => (o, w0, w1) :: bundlesFrom ls f (o + 16)

/-- The bundles F2 holds from the next one on (R113, R119). -/
def bundlesAhead (k : LensCore) : List (Nat × BitVec 64 × BitVec 64) := bundlesFrom k.i.lines 12 (fetchPc k)

/-- Fetch ahead of the delivered lines would pass a bundle with a ctl trigger that has not issued (R120). -/
def pastCtl (k : LensCore) : Bool := (bundlesAhead k).any fun b => hasCtl b.2.1 b.2.2

/-- The offsets of the lines fetch asks for on demand: the wanted line and the one after it, then one line ahead, which in a free-running
cluster is on demand only while no ctl trigger stands before it (R116, R118, R120). -/
def wantedLines (det : Bool) (k : LensCore) : List Nat :=
  let o := lineOff (fetchPc k)
  if (findLine k.i.lines o).isNone then [o, o + 32]
  else ((o + 32) :: if det || !pastCtl k then [o + 64] else []).filter fun x => (findLine k.i.lines x).isNone

/-- A BTB entry whose stored line is good (R119). -/
def btbHit (k : LensCore) (x : Nat) : Option BtbEntry := k.i.btb.find? fun b => b.xoff == x && !b.line.ws.any FWord.bad

/-- The offsets fetch asks for speculatively: the line ahead past an unissued ctl trigger, and the line after the stored line of a BTB hit
among the bundles F2 holds (R119, R120). -/
def speculativeLines (k : LensCore) : List Nat :=
  let o := lineOff (fetchPc k)
  (if (findLine k.i.lines o).isSome && pastCtl k then [o + 64] else []) ++ (bundlesAhead k).filterMap fun b => (btbHit k b.1).map fun e => e.line.off + 32

/-! ### The flash read channel of a cluster (R117) -/

/-- The 512-bit flash line that the fetch line at AP0 offset `o` of a Lens core has to come from: none where its source is another or the
line is cached. -/
def flashLineAt (s : State) (n o : Nat) : Option Nat :=
  let k := getCore s n
  let ap := apOf k n 0
  let p := ap.start + o
  if isWarden n || decide (ap.limit.toNat < o + 7) || decide (0x100000000 ≤ p + 31) || (lineError s n p (ap.kind == 1)).isSome then none
  else if regionOf s n p != .flash || (cacheOn s n && (cachedLine k p).isSome) then none
  else some (p / 64)

/-- A core that fetches: released, and not halted, stopped or retired. -/
def fetches (k : LensCore) : Bool := k.i.run == .running

/-- A load that waits for code flash (R63, R117). -/
def flashLoad (s : State) (n : Nat) (l : Load) : Bool := !isWarden n && !l.deliv && l.data.isSome && regionOf s n l.addr.toNat == .flash

/-- The request core `n` has for its cluster's channel: a demand fetch before loads, loads before speculative lines (R117). -/
def flashWant (s : State) (n : Nat) : Option FlashReq :=
  let k := getCore s n
  let on := corePresent s n && fetches k
  match if on then (wantedLines (isDet s n) k).findSome? (flashLineAt s n) else none with
  | some l => some { core := n, line := l, kind := .demand }
  | none =>
    match k.u.loads.find? (flashLoad s n) with
    | some l => some { core := n, line := l.addr.toNat / 64, kind := .load }
    | none =>
      if on && cacheOn s n then
        ((speculativeLines k).findSome? (flashLineAt s n)).map fun l => { core := n, line := l, kind := .speculative }
      else none

/-- The next turn of the channel of cluster `c`: round-robin, beginning after the core last served (R117). -/
def flashNext (s : State) (c : Nat) : Option FlashReq :=
  (List.range 4).findSome? fun i => flashWant s (4 * c + ((getCluster s c).flashLast + 1 + i) % 4)

/-- The channel of core `n`'s cluster as a delivery to that core finds it: an idle channel starts the request whose turn it is; a request in
service that `mine` accepts is complete, any other goes on (R117, log entry 101). -/
def flashTurn (s : State) (n : Nat) (mine : FlashReq → Bool) : State × Option FlashReq :=
  if isWarden n then (s, none)
  else
    let c := clusterOf n
    let v := getCluster s c
    match v.flash.orElse fun _ => flashNext s c with
    | none => (s, none)
    | some r =>
      if r.core = n ∧ mine r then (setCluster s c { v with flash := none, flashLast := n % 4 }, some r)
      else if v.flash = some r then (s, none)
      else (setCluster s c { v with flash := some r }, none)

/-- One half of a served flash line fills the line cache; of a speculative one nothing is checked, counted or reported, and a word that
fails keeps it out (R115, R120). -/
def fillHalf (s : State) (n : Nat) (spec : Bool) (p : Nat) : State :=
  if !cacheOn s n || (cachedLine (getCore s n) p).isSome then s
  else if spec then
    modCore s n fun k => cacheFill k p ((List.range 4).map fun i => { w := anyWord s ((p + 8 * i) / 8), bad := decide (2 ≤ eccOf s ((p + 8 * i) / 8)) })
  else
    let r := readLine s n p
    modCore r.1 n fun k => cacheFill k p r.2

/-- A served line fills both of its halves (R116). -/
def fillFlash (s : State) (n : Nat) (r : FlashReq) : State :=
  let sp := r.kind == .speculative
  fillHalf (fillHalf s n sp (64 * r.line)) n sp (64 * r.line + 32)

/-- The lines at the offsets are delivered; one that has to come from the flash channel only where the channel has served it. -/
def deliverLines (s : State) (n : Nat) (served : Option Nat) : List Nat → State
  | [] => s
  | o :: os =>
    match flashLineAt s n o with
    | some l =>
      if served = some l then
        let r := deliverLine s n o
        deliverLines (modCore r.1 n fun k => modIssue k fun i => { i with lines := (i.lines.filter fun l => l.off != o) ++ [r.2] }) n served os
      else deliverLines s n served os
    | none =>
      let r := deliverLine s n o
      deliverLines (modCore r.1 n fun k => modIssue k fun i => { i with lines := (i.lines.filter fun l => l.off != o) ++ [r.2] }) n served os

/-- The BTB is looked up with every bundle F2 holds (R119): an entry with a parity error goes, a hit is the latest used. -/
def btbLookups (k : LensCore) : LensCore :=
  let xs := (bundlesAhead k).map fun b => b.1
  modIssue k fun i =>
    let good := i.btb.filter fun b => !(xs.contains b.xoff && b.line.ws.any FWord.bad)
    { i with btb := (good.filter fun b => xs.contains b.xoff) ++ good.filter fun b => !xs.contains b.xoff }

/-- A fetch through a device-kind AP0 goes as a device load does: behind the store buffer and the device accesses before it (R116, R156). -/
def fetchWaits (k : LensCore) (n : Nat) : Bool :=
  (apOf k n 0).kind == 1 && (!k.u.stores.isEmpty || k.u.loads.any fun l => l.kind == .device && l.data.isNone)

/-- FETCH_LINE_DELIVERY (R116, R117): the line the channel serves, whoever still wants it, and the lines of every other source. -/
def fetchDelivery (s0 : State) (n : Nat) : State :=
  let t := flashTurn s0 n fun r => r.kind != .load || !(getCore s0 n).u.loads.any fun l => flashLoad s0 n l && l.addr.toNat / 64 == r.line
  let s := match t.2 with | some r => (if r.kind == .load then t.1 else fillFlash t.1 n r) | none => t.1
  let k := getCore s n
  if !corePresent s n || !fetches k || fetchWaits k n then s
  else
    let s1 := deliverLines s n (t.2.map FlashReq.line) (wantedLines (isDet s n) k)
    modCore s1 n fun k' =>
      let o := lineOff (fetchPc k')
      let i := lineSideEffects (isDet s n) ((apOf k' n 0).kind == 0) k'.i fun lv => (loopLs k' lv).toNat
      let k2 : LensCore := { k' with i := { i with lines := i.lines.filter fun l => decide (o ≤ l.off) && decide (l.off ≤ o + 64) } }
      if isDet s n then k2 else btbLookups k2

/-- F1 to D are emptied: nothing fetched stays (R122, R125). -/
def emptyFetch (i : Issue) : Issue := { i with lines := [], xferOff := none, loopWait := none }

/-- A write of an AP0 word (R122, R134): the BTB and every loop-start buffer are invalidated, F1 to D emptied, four fill bundles
follow. -/
def ap0Written (i : Issue) : Issue := { emptyFetch i with btb := [], loopBuf := [], fills := 4 }

/-- Whether [a, a + n) and [b, b + m) share an address. -/
def overlaps (a n b m : Nat) : Bool := decide (a < b + m) && decide (b < a + n)

/-- `ctl.flush` of [a, a + x), everything when x = 0 (R98, R101, R125, R134). -/
def flushRange (k : LensCore) (n a x : Nat) : LensCore :=
  let p := (apOf k n 0).start + a
  if x = 0 then modIssue k fun i => { emptyFetch i with cache := [], btb := [], loopBuf := [] }
  else
    modIssue k fun i => { emptyFetch i with
      cache := i.cache.filter fun c => !overlaps c.1 32 p x
      btb := i.btb.filter fun b => !(overlaps b.xoff b.size a x || overlaps b.line.off 32 a x)
      loopBuf := i.loopBuf.filter fun e => !overlaps (lineOff (loopLs k e.1).toNat) 64 a x }

/-- The steps a flush holds issue (R101). -/
def flushHold (det : Bool) (a x : Nat) : Nat :=
  if det then 2
  else if x = 0 then 258
  else
    let lines := (a + x - 1) / 32 - a / 32 + 1
    if 1024 ≤ lines then 258 else 2 + (lines + 3) / 4

/-- The fill bundles between a flush and the bundle after it, which executes in step s + 1 + h or s + 5, whichever is later
(R125). -/
def flushFills (det : Bool) (a x : Nat) : Nat := max (flushHold det a x) 4

/-! ### Words as they reach D -/

/-- A word of code as it reaches D: not delivered, a fetch error, or its bits. -/
inductive FetchWord where
  | late
  | bad (cause : Nat) (addr : Option Word)
  | word (w : BitVec 64)
  deriving DecidableEq, Repr

/-- The word at AP0 offset `o` (R68, R116). -/
def fetchWord (s : State) (n o : Nat) : FetchWord :=
  let k := getCore s n
  match checkFetch s n (isSup k) o with
  | .bad c p => .bad c (some (BitVec.ofNat 32 p))
  | .ok p =>
    match findLine k.i.lines o with
    | none => .late
    | some l =>
      match l.err with
      | some e => .bad e.1 e.2
      | none =>
        match lineWord l o with
        | none => .bad 0x16 (some (BitVec.ofNat 32 p))
        | some w => if w.bad then .bad 0x15 none else .word w.w

/-- Word W0 at AP0 offset `o` as far as it is known: as delivered, or as its line would deliver it (R116). -/
def knownWord (s : State) (n o : Nat) : Option (BitVec 64) :=
  match fetchWord s n o with
  | .word w => some w
  | .bad _ _ => none
  | .late =>
    let p := (apOf (getCore s n) n 0).start + o
    if (lineError s n ((apOf (getCore s n) n 0).start + lineOff o) ((apOf (getCore s n) n 0).kind == 1)).isSome ∨ 2 ≤ eccOf s (globalOf n p / 8) then none
    else some (anyWord s (globalOf n p / 8))

/-- The bundle at `o` is known to carry no repeat prefix: EPSW.RP is ignored for it (R139). -/
def noRepeatAt (s : State) (n o : Nat) : Bool :=
  match knownWord s n o with
  | none => false
  | some w => formatOf w != 2 || !w.getLsbD 61

/-- The iterations a resumed repeat still has, for an entry that falls before its first resumed iteration (R139, log entry 103). -/
def resumedLeft (s : State) (n : Nat) : Option Nat :=
  let k := getCore s n
  if k.i.resumeRep && !noRepeatAt s n k.i.pc.toNat then some k.r.repc.toNat else none

end Sys2Proof.Machine
end

