-- ==== Sys2Proof/Machine/Exceptions.lean ====
section
/-! DEFINITION. Taking an exception and returning from one: events pending at a core, recognition, entry, the lsu frame, `eret`
(R189 to R207). -/

namespace Sys2Proof.Machine

/-! ### Routes and pending events (R203 to R205) -/

def routeOf (s : State) (src : Nat) : Nat := ent s (0x7000 + src / 128) (src % 128 + 1)

def routeTarget (v : Nat) : Nat := v % 256
def routePrio (v : Nat) : Nat := v / 256 % 8
def routeEn (v : Nat) : Bool := decide (v / 2048 % 2 = 1)

/-- A core that is retired (R269, R270). -/
def isRetired (s : State) (n : Nat) : Bool := (getCore s n).i.run == .retired

/-- The core an event goes to: TARGET 130 and a core retired, absent or stopped on a fault mean the active warden (R205, R267). -/
def targetCore (s : State) (src : Nat) : Option Nat :=
  let t := routeTarget (routeOf s src)
  if t = 130 ∨ !corePresent s t ∨ isRetired s t ∨ (getCore s t).i.run = .stopped then s.active else some t

/-- The unmaskable sources (R201). -/
def unmaskable (src : Nat) : Bool :=
  src == 770 || src == 771 || src == 772 || src == 778 || (decide (800 ≤ src) && decide (src ≤ 927))

/-- Sources that never become pending: resources absent on the part (R19, R429) and the numbers R303 leaves unassigned. -/
def neverPending (s : State) (src : Nat) : Bool :=
  (decide (src < 256) && decide (nFacets s ≤ src)) ||
  (decide (256 ≤ src) && decide (src < 512) && decide (nFacets s ≤ src - 256)) ||
  (decide (512 ≤ src) && decide (src < 544) && decide (nClusters s ≤ src - 512)) ||
  (decide (544 ≤ src) && decide (src < 560) && decide (nQuads s ≤ (src - 544) / 4)) ||
  (decide (560 ≤ src) && decide (src < 688) && decide (nCores s ≤ src - 560)) ||
  (decide (688 ≤ src) && decide (src < 704) && decide (nChans s ≤ src - 688)) ||
  (decide (704 ≤ src) && decide (src < 736) && decide (nClusters s ≤ src - 704)) ||
  (decide (780 ≤ src) && decide (src < 800)) ||
  (decide (800 ≤ src) && decide (src < 928) && decide (nCores s ≤ src - 800)) || decide (1024 ≤ src)

/-- The better of two events: the higher PRIO, then the lower number (R191). -/
def betterEvent (s : State) (a b : Nat) : Nat :=
  if routePrio (routeOf s a) < routePrio (routeOf s b) then b
  else if routePrio (routeOf s b) < routePrio (routeOf s a) then a
  else min a b

/-- The event taken first among the pending ones of core `n` that satisfy `f`. -/
def bestEvent (s : State) (n : Nat) (f : Nat → Bool) : Option Nat :=
  match s.router.pending.filter fun e => f e && targetCore s e == some n with
  | [] => none
  | e :: es => some (es.foldl (betterEvent s) e)

/-- An asynchronous cause: the core watchdog, or an event (R189). -/
inductive Async where
  | watchdog
  | event (src : Nat) (code : Nat)
  deriving DecidableEq, Repr

/-- A hush window is open (R200): steps remain and 200 ns have not passed; in a paced cluster the 200 ns are counted in steps. -/
def hushOpen (s : State) (n : Nat) : Bool :=
  let k := getCore s n
  match k.e.hushEnd with
  | none => false
  | some t => k.r.hushRem != 0 && (if isDet s n then decide (k.i.steps < k.e.hushStop) else decide (s.tb < t))

/-- The cause recognised when several are recognisable (R191): 0x20, then 0x41, then 0x40 when `ie`; during a Loupe step without STEPIE
only 0x20 and 0x41 (R466). -/
def recognisable (s : State) (n : Nat) (ie : Bool) : Option Async :=
  let k := getCore s n
  if hushOpen s n then none
  else if k.e.wd20 then some .watchdog
  else
    match bestEvent s n unmaskable with
    | some e => some (.event e 0x41)
    | none =>
      if ie && (k.lp.stepping == 0 || k.lp.stepie) then (bestEvent s n fun e => !unmaskable e).map fun e => .event e 0x40
      else none

/-! ### The lsu frame (R195) -/

def frameEntry (k : LensCore) (i : Nat) : FrameEntry := Tab.get (fun _ => FrameEntry.empty) i k.e.frame

/-- The frame entry of an outstanding load at step `st` (R195). -/
def frameOf (st : Nat) (l : Load) : FrameEntry :=
  let age := BitVec.ofNat 2 (min 3 (st - l.trig))
  match l.deliv, l.data with
  | true, some d =>
    { valid := true, age, deliv := true, pois := d.pois.isSome, val := if d.pois.isSome then 0 else d.val,
      ba := d.pois.getD 0 }
  | _, _ => { valid := true, age, deliv := false, pois := false, val := 0, ba := 0 }

/-- The loads after their capture, from frame entry `i` on: an outstanding one delivers into its entry; a load of no entry is lost to the code. -/
def captureLoads : Nat → List Load → List Load
  | _, [] => []
  | i, l :: ls =>
    if l.live then { l with toFrame := some i, outst := false } :: captureLoads (i + 1) ls
    else { l with toFrame := none, outst := false } :: captureLoads i ls

/-- The frame filled at a non-chained entry (R195). -/
def fillFrame (k : LensCore) : LensCore :=
  let live := k.u.loads.filter Load.live
  let fr := (List.range 5).foldl (fun t i =>
    match live[i]? with
    | some l => Tab.put i (frameOf k.i.steps l) t
    | none => Tab.put i FrameEntry.empty t) ([] : Tab FrameEntry)
  let loads := (captureLoads 0 k.u.loads).filter fun l => !l.deliv
  { k with
    u := { k.u with loads }
    e := { k.e with lfval := sk k 0x24B, frame := fr } }

/-- The frame reinstated at an `eret` that returns; `st` is the step of the bundle that resumes (R195). -/
def reinstateFrame (k : LensCore) (st : Nat) : LensCore :=
  let mk (i : Nat) : Option Load :=
    let f := frameEntry k i
    if !f.valid then none
    else
      match k.u.loads.find? fun l => l.toFrame == some i && !f.deliv with
      | some l => some { l with toFrame := none, outst := true, trig := st - f.age.toNat }
      | none =>
        some { trig := st - f.age.toNat, addr := 0, size := 4, sext := false, kind := .normal, xchg := none, snap := 0, late := 0,
               bare := false, data := some { val := f.val, pois := if f.pois then some f.ba else none }, deliv := true,
               outst := true, toFrame := none }
  let k1 := setSk k 0x24B k.e.lfval
  { k1 with u := { k1.u with loads := (List.range 5).filterMap mk } }

/-! ### Entry (R126, R192) -/

/-- A trace entry of the cluster trace (R468). -/
def traceOn (s : State) (n kind cause : Nat) (src dst : Word) : State :=
  if isWarden n then s
  else
    let c := clusterOf n
    let v := getCluster s c
    let en := v.trctl.getLsbD (n % 4) && (if kind = 0 then v.trctl.getLsbD 4 else v.trctl.getLsbD 5)
    if !en then s
    else
      let e : TraceEntry :=
        { w0 := BitVec.ofNat 32 (n % 4 + kind * 4 + (cause % 256) * 16), w1 := src, w2 := dst, w3 := tbWord s false }
      if v.trace.length < 256 then setCluster s c { v with trace := v.trace ++ [e] }
      else if v.trctl.getLsbD 6 then s
      else setCluster s c { v with trace := v.trace.drop 1 ++ [e] }

/-- Every product due by step `st` reaches MHI:MLO, in trigger order (R89). -/
def deliverProducts (st : Nat) (k : LensCore) : LensCore :=
  match k.u.prods with
  | [] => k
  | ps =>
    match (ps.filter fun p => decide (p.due ≤ st)).getLast? with
    | none => k
    | some p =>
      { k with r := { k.r with mhi := p.hi, mlo := p.lo }
               u := { k.u with prods := ps.filter fun p => decide (st < p.due) } }

/-- CAUSE as an entry writes it (R59, R192). -/
def causeWord (code sw slot : Nat) (second : Bool) : Word :=
  BitVec.ofNat 32 (code % 256 + (sw % 256) * 256 + (slot % 4) * 0x10000 + (if second then 0x40000 else 0))

/-- What an entry writes that a chained one writes too (R192): CAUSE, EVNUM, BADADDR, PSW, PRIVGRANT, HUSHC; the hush allowance is
renewed. -/
def entryCommon (r : Regs) (cause : Word) (evnum badaddr : Option Word) : Regs :=
  { r with
    cause := cause
    evnum := evnum.getD r.evnum
    badaddr := badaddr.getD r.badaddr
    psw := (r.psw ||| 1#32) &&& 0xFFFFFFFD#32
    grant := false
    hushRem := 0 }

/-- TAKING AN EXCEPTION, not chained (R126, R192): the fourteen fill steps pass, the products due deliver, EPC takes the resume
point, EPSW the status with RP, PSTK the mode, and fetch goes to EVEC in supervisor mode. -/
def takeEntry (s : State) (n : Nat) (epc : Word) (rp : Option Nat) (cause : Word) (evnum badaddr : Option Word) : State :=
  let k0 := getCore s n
  let psw := readPsw s n k0 false ||| (if rp.isSome then 16#32 else 0)
  let k := fillFrame k0
  let r := entryCommon k.r cause evnum badaddr
  let r1 : Regs :=
    { r with
      epc := epc &&& 0xFFFFFFF8#32
      epsw := psw
      pstk := (k.r.pstk <<< 1) ||| (if isSup k then 1#8 else 0#8)
      chainc := 0
      repc := match rp with | some m => BitVec.ofNat 16 m | none => k.r.repc }
  let k1 : LensCore :=
    { k with
      r := r1
      i := { emptyFetch k.i with pc := k.r.evec, steps := k.i.steps + 14, fills := 0, delay := none, rep := none,
                                 resumeRep := false, fault := none, fence := false, drain := false, first := true,
                                 ap0Step := none, dueStep := none, wait5 := none, ret := none }
      e := { k.e with hushEnd := none, hushOk := true }
      lp := { k.lp with stepping := if k.lp.stepping = 0 then 0 else 2 } }
  traceOn (setCore s n (deliverProducts k1.i.steps k1)) n 1 (cause.toNat % 256) epc k.r.evec

/-- A chained entry in place of a return (R192, R199): EPC, EPSW, PSTK and the frame are kept, CHAINC counts. -/
def takeChained (s : State) (n : Nat) (src : Word) (cause : Word) (evnum : Option Word) : State :=
  let k := getCore s n
  let r := entryCommon k.r cause evnum none
  let k1 : LensCore :=
    { k with
      r := { r with chainc := if k.r.chainc = 0xFFFF#16 then 0xFFFF#16 else k.r.chainc + 1 }
      i := { emptyFetch k.i with pc := k.r.evec, steps := k.i.steps + 14, fills := 0, delay := none, rep := none,
                                 resumeRep := false, fault := none, fence := false, drain := false, first := true,
                                 ap0Step := none, dueStep := none, wait5 := none, ret := none }
      e := { k.e with hushEnd := none, hushOk := true }
      lp := { k.lp with stepping := if k.lp.stepping = 0 then 0 else 2 } }
  traceOn (setCore s n (deliverProducts k1.i.steps k1)) n 3 (cause.toNat % 256) src k.r.evec

/-- The cause, EVNUM and state change of an asynchronous cause: the taken event's pending state is cleared (R192, R203). -/
def asyncTaken (s : State) (n : Nat) : Async → State × Word × Option Word
  | .watchdog => (modCore s n fun k => { k with e := { k.e with wd20 := false } }, causeWord 0x20 0 0 false, none)
  | .event src code =>
    let ev := BitVec.ofNat 32 (src + routePrio (routeOf s src) * 0x10000)
    ({ s with router := { s.router with pending := s.router.pending.filter fun e => e != src } },
      causeWord code 0 0 false, some ev)

/-- The point before the next bundle is a boundary (R190): not between a transfer and its delay bundle, not inside a repeat with
RINT = 0, not in the fill steps of R101, R121, R122, R126 and R134, not in a hush window. The fill steps of R104 are left to the issue
stage. -/
def atBoundary (s : State) (n : Nat) : Bool :=
  let k := getCore s n
  k.i.delay.isNone && k.i.fills == 0 && k.i.ret.isNone && !(k.i.fence && !k.u.stores.isEmpty) && !hushOpen s n &&
  (match k.i.rep with | some r => r.rint || !r.begun | none => true)

/-- What a repeat leaves for the entry: the iterations not yet executed, when the entry falls on one (R139). -/
def repLeft (s : State) (n : Nat) : Option Nat :=
  match (getCore s n).i.rep with
  | some r => if r.begun then some r.left else none
  | none => resumedLeft s n

/-- The core stops on a core fault (R266, R268): it issues nothing more, its status object shows why and when, event 800 + n is raised. -/
def stopCore (s : State) (n reason : Nat) : State :=
  let s1 := modCore s n fun k =>
    { k with i := { k.i with run := .stopped, fault := none }
             st := { k.st with reason, faults := satInc 0xFFFFFFFF k.st.faults, history := (s.tb :: k.st.history).take 3, decide := true } }
  if isWarden n then s1 else raise s1 (800 + n)

/-- A synchronous fault is entered, or, when it is the first bundle of a handler that failed, the core halts (R126). -/
def enterFault (s : State) (n : Nat) (f : PFault) : State :=
  if (getCore s n).i.first then stopCore s n 3
  else takeEntry s n f.epc f.rep (causeWord f.cause f.sw f.slot f.second) none f.bad

/-- An asynchronous cause is entered at the boundary before the next bundle. -/
def enterAsync (s : State) (n : Nat) (a : Async) : State :=
  let k := getCore s n
  let t := asyncTaken s n a
  takeEntry t.1 n k.i.pc (repLeft s n) t.2.1 t.2.2 none

/-! ### Return (R121, R197, R199) -/

/-- The privilege restore check of R197: a return to supervisor that neither PSTK nor a grant covers is a forgery. -/
def eretForged (k : LensCore) : Bool := k.r.epsw.getLsbD 0 && !k.r.pstk.getLsbD 0 && !k.r.grant

/-- THE RETURN FROM AN EXCEPTION after its check (R197), at the end of the `eret` bundle at offset `src`: PRIVGRANT is cleared; a
cause recognisable with EPSW.IE chains; otherwise PSW is restored, PSTK shifted, the frame reinstated, and issue resumes at EPC after
four fill bundles, with the repeat rules of R139. `k.i.steps` is the step after the `eret`. -/
def eretReturn (s0 : State) (n : Nat) (src : Word) : State :=
  let s := modCore s0 n fun k => { k with r := { k.r with grant := false, hushRem := 0 }, e := { k.e with hushEnd := none } }
  let k := getCore s n
  match recognisable s n (k.r.epsw.getLsbD 1) with
  | some a =>
    let t := asyncTaken s n a
    takeChained t.1 n src t.2.1 t.2.2
  | none =>
    let psw := (k.r.epsw &&& 0x23#32) ||| (k.r.psw &&& k.r.epsw &&& 4#32)
    let k1 := reinstateFrame k (k.i.steps + 4)
    let k2 : LensCore :=
      { k1 with
        r := { k1.r with psw := psw, pstk := k1.r.pstk >>> 1, hushRem := 0 }
        i := { emptyFetch k1.i with pc := k1.r.epc, fills := 4, rep := none, resumeRep := k1.r.epsw.getLsbD 4, first := false, ret := none } }
    traceOn (setCore s n k2) n 2 0 src k1.r.epc

end Sys2Proof.Machine
end

