-- ==== Sys2Proof/Machine/Issue.lean ====
section
/-! DEFINITION. The issue of a bundle: its checks in their order, holds, the writes and triggers of its step, transfers, loops and
repeats (R44 to R47, R74 to R85, R98 to R101, R110, R121 to R125, R129 to R139). -/

namespace Sys2Proof.Machine

/-! ### Decoded bundles at an offset -/

/-- A good bundle: its offset, bytes, words, repeat fields and moves. -/
structure Bund where
  off  : Nat
  size : Nat
  w0   : BitVec 64
  w1   : BitVec 64
  rpt  : Bool
  rint : Bool
  rcnt : Nat
  ms   : List Move
  deriving DecidableEq, Repr

/-- What stands at an offset: nothing yet, a fault of fetch or of orders 1 to 3 of R81, a break bundle, or a good bundle. -/
inductive Front where
  | late
  | bad (cause slot : Nat) (addr : Option Word)
  | brk (tag : Nat)
  | bund (b : Bund)
  deriving DecidableEq, Repr

def frontOf (o : Nat) (w0 w1 : BitVec 64) : Front :=
  match decodeBundle w0 w1 with
  | .bad c i => .bad c i none
  | .brk t => .brk t
  | .moves rpt rint rcnt ms => .bund { off := o, size := bundleSize w0, w0, w1, rpt, rint, rcnt, ms }

def frontAt (s : State) (n o : Nat) : Front :=
  match fetchWord s n o with
  | .late => .late
  | .bad c a => .bad c 0 a
  | .word w0 =>
    if bundleSize w0 = 8 then frontOf o w0 0
    else
      match fetchWord s n (o + 8) with
      | .late => .late
      | .bad c a => .bad c 0 a
      | .word w1 => frontOf o w0 w1

/-- How often a bundle with RPT = 1 executes, or `none` where order 4 of R81 refuses it (R74, R81, R139). -/
def repeatCount (k : LensCore) (b : Bund) : Option Nat :=
  let repc := k.r.repc.toNat
  if b.ms.any repeatForbids then none
  else if k.i.resumeRep ∨ b.rcnt = 0 then (if !b.rint ∧ 16 < repc then none else some repc)
  else some b.rcnt

/-! ### Pairing (R123) -/

def isCtlTrig (m : Move) : Bool := match trigOf m.dst with | some o => o.unit == 6 | none => false

def isTransfer (m : Move) : Bool := decide (0x261 ≤ m.dst) && decide (m.dst ≤ 0x265)

def unitsOf (ms : List Move) : List Nat := ms.filterMap fun m => (trigOf m.dst).map Op.unit

/-- The loop registers' depth: the unbroken run of active levels (R129). -/
def loopDepth (k : LensCore) : Nat :=
  if loopLc k 0 = 0 then 0 else if loopLc k 1 = 0 then 1 else if loopLc k 2 = 0 then 2 else if loopLc k 3 = 0 then 3 else 4

/-- The offset is the end of an active level. -/
def endsActive (k : LensCore) (o : Nat) : Bool :=
  (List.range 4).any fun i => loopLc k i != 0 && (loopLe k i).toNat == o

def srcCode (m : Move) : Option Nat := match m.src with | .sock c => some c | .imm _ => none

def resultUnit (c : Nat) : Option Nat := if codeRole c = .result then some ((c - 0x200) / 16) else none

/-- Units with an operation undelivered at the start of the step. -/
def unitPending (k : LensCore) (u : Nat) : Bool :=
  match u with
  | 2 => !k.u.prods.isEmpty
  | 3 => k.u.div.isSome
  | 4 => k.u.loads.any fun l => !l.deliv
  | 7 => k.u.copy.isSome
  | 8 => k.u.beam.isSome
  | 9 => !k.u.fpu.isEmpty
  | _ => false

/-- Condition 9 of R123: a socket the first bundle writes. -/
def firstWrites (ms : List Move) (c : Nat) : Bool :=
  let us := unitsOf ms
  ms.any (fun m => m.dst == c) ||
  (match resultUnit c with | some u => us.contains u | none => false) ||
  ((c == 0x402 || c == 0x403) && us.contains 2) ||
  (decide (0x100 ≤ c) && decide (c < 0x200) &&
    ms.any fun m => match trigOf m.dst with | some (.alu _ o) => o.isCompare | some (.bitu _) => true | _ => false)

/-- Condition 10 of R123. -/
def readsPending (k : LensCore) (c : Nat) : Bool :=
  (match resultUnit c with | some u => unitPending k u | none => false) ||
  ((c == 0x402 || c == 0x403) && unitPending k 2) || ((c == 0x110 || c == 0x111) && unitPending k 3)

def pairable (s : State) (n : Nat) (a b : Bund) : Bool :=
  let k := getCore s n
  let both := a.ms ++ b.ms
  let reads := b.ms.filterMap srcCode ++ ((b.ms.filter fun m => m.ksel != 0).map fun m => 0x100 + m.ksel)
  isPair k && !isDet s n &&
  decide (a.off % 32 + a.size + b.size ≤ 32) && !a.rpt && !b.rpt &&
  !(both.any fun m => isCtlTrig m || (decide (0x400 ≤ m.dst) && decide (m.dst < 0x500))) &&
  !endsActive k a.off &&
  !((unitsOf a.ms).any (unitsOf b.ms).contains) &&
  !(a.ms.any fun m => b.ms.any fun x => x.dst == m.dst) &&
  !(reads.any fun c => firstWrites a.ms c || readsPending k c)

/-! ### Checks over moves -/

/-- A failure of a move: cause, slot, whether it stands in the second bundle. -/
structure MoveFail where
  cause  : Nat
  slot   : Nat
  second : Bool

/-- The first check of R51 that fails, slot by slot. -/
def firstIllegal (s : State) (sup : Bool) (ms : List Move) : Option MoveFail :=
  ms.findSome? fun m => (moveCheck s sup m).map fun c => { cause := c, slot := m.slot, second := m.second }

/-- The conflicts of R47 between moves: one destination twice, one unit twice; the later move is named. -/
def firstConflict : List Move → List Nat → List Nat → Option MoveFail
  | [], _, _ => none
  | m :: ms, ds, us =>
    let bad : Option MoveFail := some { cause := 0x03, slot := m.slot, second := m.second }
    if m.dst = 0x100 then firstConflict ms ds us
    else if ds.contains m.dst then bad
    else
      match (trigOf m.dst).map Op.unit with
      | some u => if us.contains u then bad else firstConflict ms (m.dst :: ds) (u :: us)
      | none => firstConflict ms (m.dst :: ds) us

/-- The direct bits a move writes in its step: itself a bit socket, an alu compare's b[kd], a bitu result (R47, R88, R96). `k1` holds the
operand sockets as they stand at the end of the step. -/
def bitsWritten (n : Nat) (k1 : LensCore) (m : Move) (v : Word) : List Nat :=
  if 0x101 ≤ m.dst ∧ m.dst < 0x200 then [m.dst - 0x100]
  else
    match trigOf m.dst with
    | some (.alu u o) => if o.isCompare then [(sk k1 (0x201 + 16 * u)).toNat % 256].filter (· != 0) else []
    | some (.bitu o) => bituWrites n o v (sk k1 0x251).toNat
    | _ => []

def hasDup : List Nat → Bool
  | [] => false
  | x :: xs => xs.contains x || hasDup xs

/-- The conflicts of R47 that unit results make (R88, R97); `kb` holds the operand sockets the second bundle of a pair leaves. -/
def resultConflict (n : Nat) (k1 kb : LensCore) : List (Move × Word) → List Nat → Option MoveFail
  | [], _ => none
  | (m, v) :: ms, seen =>
    let bs := bitsWritten n (if m.second then kb else k1) m v
    if hasDup bs || bs.any seen.contains then some { cause := 0x03, slot := m.slot, second := m.second }
    else resultConflict n k1 kb ms (bs ++ seen)

def isView (c : Nat) : Bool := decide (0x4B0 ≤ c) && decide (c ≤ 0x4BB)

/-- R135: a write through a view that fails; `k0` is the core at the start of the step, `k1` at its end. -/
def viewFails (k0 k1 : LensCore) (m : Move) (v : Word) : Bool :=
  let i := m.dst % 4
  if m.dst < 0x4B8 then loopLc k0 i != 0
  else if v != 0 then (decide (1 ≤ i) && loopLc k1 (i - 1) == 0) || (loopLe k1 i).ult (loopLs k1 i)
  else decide (i < 3) && loopLc k1 (i + 1) != 0

/-- The checks of R131 of a loop trigger with count `a`; `succ` is the offset of the bundle after it. -/
def loopTrigFails (k0 k1 : LensCore) (a : Word) (succ : Nat) (views : Bool) : Option Nat :=
  let d := loopDepth k0
  if a ≠ 0 ∧ d = 4 then some 0x08
  else if a = 0 ∧ d = 0 then some 0x09
  else if a ≠ 0 ∧ (sk k1 0x260).toNat / 8 * 8 < succ then some 0x09
  else if views then some 0x09
  else none

/-- The uses R99 forbids in a delay bundle: the slot of the first. -/
def delayForbids (m : Move) : Bool :=
  match trigOf m.dst with
  | some (.bitu o) => o.byAddress
  | some o => o.unit == 4 || o.unit == 6 || o.unit == 7 || o.unit == 8
  | none => false

/-! ### Values, writes and results of a step's moves -/

def readAll (s : State) (n : Nat) (rp : Bool) (ms : List Move) : List (Move × Rd) :=
  let k := getCore s n
  ms.map fun m => (m, readSrc s n k rp m.src)

def valuesOf (rs : List (Move × Rd)) : List (Move × Word) :=
  rs.filterMap fun r => match r.2 with | .val v => some (r.1, v) | _ => none

def firstPoison (rs : List (Move × Rd)) : Option (Move × Word) :=
  rs.findSome? fun r => match r.2 with | .poison a => some (r.1, a) | _ => none

/-- The writes of the bundle's moves that are no triggers, at the end of the step (R44). -/
def writeMoves (k : LensCore) (n : Nat) (vs : List (Move × Word)) : LensCore :=
  vs.foldl (fun t v => if (trigOf v.1.dst).isSome then t else writeDst t n v.1.dst v.2) k

def trigMoves (vs : List (Move × Word)) : List (Move × Op × Word) :=
  vs.filterMap fun v => (trigOf v.1.dst).map fun o => (v.1, o, v.2)

/-- An alu operation: `out`, and b[kd] of a compare, at the end of the step (R87, R88). -/
def doAlu (k : LensCore) (u : Nat) (o : AluOp) (a : Word) : LensCore :=
  let base := 0x200 + 16 * u
  let r := aluResult o a (sk k base)
  let k1 := setSk k (base + 2) r
  if o.isCompare then setPbit k1 ((sk k (base + 1)).toNat % 256) (r.getLsbD 0) else k1

/-- The outstanding status of one load ends. -/
def endFirst (l : Load) : List Load → List Load
  | [] => []
  | x :: xs => if x = l then { x with outst := false } :: xs else x :: endFirst l xs

/-- A read of `lsu.out` in a bundle that takes effect ends the matched load's outstanding status (R94). -/
def consumeLoad (k0 : LensCore) (k : LensCore) : LensCore :=
  match matchLoad (isBare k0) (k0.i.dueStep.getD k0.i.steps) k0.u.loads with
  | none => k
  | some l =>
    { k with u := { k.u with loads := (endFirst l k.u.loads).filter fun x => x.outst || !x.deliv || x.toFrame.isSome } }

/-! ### The check of the delay bundle with its transfer bundle (R99, R133, R135; log entry 99) -/

/-- The core as the delay bundle's step will find it once the transfer bundle has taken effect: the bundle's writes, in `k1`, its alu and bitu
results, the reads and products of its step. Every check of the delay bundle that looks at a guard, the mode or a value looks at it there. -/
def coreAhead (s : State) (n : Nat) (reads : List Nat) (k1 : LensCore) (ts : List (Op × Word)) : LensCore :=
  let k := getCore s n
  let ka := if reads.contains 0x24B then consumeLoad k k1 else k1
  let t := ts.foldl (fun t x =>
    match x.1 with
    | .alu u o => modCore t n fun k => doAlu k u o x.2
    | .bitu o => bituDo t n k o x.2
    | _ => t) (setCore s n ka)
  deliverProducts (k.i.steps + 1)
    (modIssue (getCore t n) fun i => { i with steps := i.steps + 1, dueStep := none, resumeRep := false })

/-- What the fetch checks and the checks of orders 1 to 4 of R81 find of the bundle at `o`, in the mode it will execute in, with the uses R99
forbids. -/
inductive DelayFront where
  | late
  | bad (cause slot : Nat) (addr : Option Word)
  | ok (b : Option Bund)

def delayFront (s : State) (n : Nat) (kd : LensCore) (o : Nat) : DelayFront :=
  match frontAt (modCore s n fun k => { k with r := { k.r with psw := kd.r.psw } }) n o with
  | .late => .late
  | .bad c i a => .bad c i a
  | .brk _ => .bad 0x01 0 none
  | .bund b =>
    if b.rpt then .bad (if (repeatCount kd b).isNone then 0x07 else 0x01) 0 none
    else
      match b.ms.find? delayForbids with
      | some m => .bad 0x01 m.slot none
      | none => .ok (some b)

/-- The moves of the delay bundle that will execute, and the values that are known before the transfer bundle issues. -/
def delayMoves (kd : LensCore) (b : Bund) : List Move := (b.ms.filter (guardOf kd)).map fun m => { m with second := true }

def delayValues (s : State) (n : Nat) (kd : LensCore) (b : Bund) : List (Move × Word) :=
  valuesOf (readAll (setCore s n kd) n false (delayMoves kd b))

/-- Order 5 of R81 for the delay bundle. -/
def delayIllegal (s : State) (kd : LensCore) (b : Bund) : Option MoveFail := firstIllegal s (isSup kd) (delayMoves kd b)

/-- Order 6 of R81 for the delay bundle: the conflicts of R47, those of unit results included. -/
def delayClash (s : State) (n : Nat) (kd : LensCore) (b : Bund) : Option MoveFail :=
  let vs := delayValues s n kd b
  let kw := writeMoves kd n vs
  (firstConflict (delayMoves kd b) [] []).orElse fun _ => resultConflict n kw kw vs []

/-- R133 and R135 for the delay bundle: it must not end a level active before the transfer bundle, nor write a view that fails. -/
def delayLoops (s : State) (n : Nat) (k0 kd : LensCore) (b : Bund) : Option MoveFail :=
  let vs := delayValues s n kd b
  let kw := writeMoves kd n vs
  if endsActive k0 b.off then some { cause := 0x09, slot := 0, second := true }
  else (vs.find? fun v => isView v.1.dst && viewFails kd kw v.1 v.2).map fun v => { cause := 0x09, slot := v.1.slot, second := true }

/-- The whole check of the bundle at `o` as the delay bundle of a transfer bundle that writes nothing: its size, or what fails, or that it is
not delivered. -/
inductive DelayCheck where
  | late
  | bad (cause slot : Nat) (addr : Option Word)
  | ok (size : Nat)

def checkDelay (s : State) (n o : Nat) : DelayCheck :=
  let kd := coreAhead s n [] (getCore s n) []
  match delayFront s n kd o with
  | .late => .late
  | .bad c i a => .bad c i a
  | .ok none => .ok 8
  | .ok (some b) =>
    match (delayIllegal s kd b).orElse fun _ => (delayClash s n kd b).orElse fun _ => delayLoops s n (getCore s n) kd b with
    | some f => .bad f.cause f.slot none
    | none => .ok b.size

/-! ### Triggers: checks and holds -/

/-- The check of the `buf` range of a beam trigger (R107): the scratch offset of the 64-octet buffer. R107 names both 0x10 and 0x11 and does not say
which a buffer outside the scratch, or an AP1 of device or alias kind, gives: 0x11 (DESIGN CHOICE, log entry 113). -/
def beamCheck (s : State) (n : Nat) (sup : Bool) (buf : Word) : TrigRes :=
  let ap := apOf (getCore s n) n 1
  let a := buf.toNat / 64 * 64
  let p := ap.start + a
  if ap.kind = 3 then badAt 0x11 p
  else if ap.limit.toNat < a + 63 then badAt 0x10 p
  else if !ap.allows sup .both ∨ ap.kind ≠ 0 ∨ 0x10000 < p + 64 then badAt 0x11 p
  else .ok p 0

/-- The aperture of a data access: `lsu.seg` as it stands at the end of the step, the aperture words as at its start (R45, R57, R92). -/
def dataAp (s : State) (n : Nat) (k1 : LensCore) : Aperture := apOf (getCore s n) n ((sk k1 0x240).toNat % 8)

def lsuRes : Checked → TrigRes
  | .ok p => .ok p 0
  | .bad c x => badAt c x

def copyKindOf : CopyTrig → CopyKind
  | .move => .move
  | .fill => .fill
  | .crc => .crc
  | _ => .none

/-- The check of one trigger (R93, R96, R104, R105, R107): `s` is the state at the start of the step, `k1` the core with the bundle's
writes made. -/
def trigCheck (s : State) (n : Nat) (k1 : LensCore) (o : Op) (a : Word) : State × TrigRes :=
  let k := getCore s n
  let sup := isSup k
  match o with
  | .ld z _ => (s, lsuRes (checkAccess s n sup (dataAp s n k1) .read a.toNat z))
  | .st z => (s, lsuRes (checkAccess s n sup (dataAp s n k1) .write a.toNat z))
  | .xchg => (s, lsuRes (checkAccess s n sup (dataAp s n k1) .both a.toNat 4))
  | .bitu b =>
    match bituCheck s n b a with
    | (t, some f) => (t, .bad f.1 (some f.2))
    | (_, none) => (s, .ok 0 0)
  | .copy .park =>
    match k.u.copy with
    | some c => if c.park.isSome then (s, .bad 0x06 none) else (s, recordCheck s n sup .write a.toNat)
    | none => (s, recordCheck s n sup .write a.toNat)
  | .copy .resume =>
    if k.u.copy.isSome then (s, .bad 0x06 none)
    else
      match recordCheck s n sup .read a.toNat with
      | .bad c x => (s, .bad c x)
      | .ok p _ => (match resumeCheck s n sup p with | .bad c x => (s, .bad c x) | .ok _ _ => (s, .ok p 0))
  | .copy t =>
    if k.u.copy.isSome then (s, .bad 0x06 none)
    else (s, copyCheck s n sup (copyKindOf t) (sk k1 0x272) (sk k1 0x270).toNat a.toNat (copyLen (sk k1 0x271)))
  | .beam _ => (s, beamCheck s n sup (sk k1 0x280))
  | _ => (s, .ok 0 0)

/-- How a trigger is held (R64, R95, R104, R110, R195, R217): not, at a boundary, or by a hold that is no boundary. -/
inductive Hold where
  | none | stall | drain
  deriving DecidableEq, Repr

/-- The undelivered loads of the core, oldest first. -/
def undelivered (k : LensCore) : List Load := k.u.loads.filter fun l => !l.deliv

/-- A load of the running code has not delivered (R195). -/
def handlerLoads (k : LensCore) : Bool := (undelivered k).any fun l => l.toFrame.isNone

/-- A load trigger waits for the oldest of four undelivered loads, whatever a younger one does meanwhile (R95). -/
def fifthLoad (k : LensCore) : Bool :=
  match k.i.wait5 with
  | some t => (undelivered k).any fun l => l.trig == t
  | none => decide (4 ≤ (undelivered k).length)

def trigHold (s : State) (n : Nat) (k1 : LensCore) (o : Op) (a : Word) : Hold :=
  let k := getCore s n
  let p := (dataAp s n k1).start + a.toNat
  match o with
  | .div _ => if k.u.div.isSome then .stall else .none
  | .fpu f =>
    let slow := fpuLatency f = 16
    if (slow && !k.u.fpu.isEmpty) || k.u.fpu.any (fun x => x.lat == 16) then .stall else .none
  | .beam b =>
    if k.u.beam.isSome then .stall
    else
      match b with
      | .commit | .drop =>
        let g := scratchBase n + ((apOf k n 1).start + (sk k1 0x280).toNat / 64 * 64)
        if k.u.stores.any fun e => overlaps (8 * e.word) 8 g 64 then .drain else .none
      | _ => .none
  | .ld _ _ | .xchg =>
    let rdyKind := isBare k && !stepLocked n p (accKind (dataAp s n k1) p)
    if fifthLoad k then .stall
    else if rdyKind && (undelivered k).any (fun l => l.bare && !stepLocked n l.addr.toNat l.kind) then .stall
    else .none
  | .st z => if k.u.stores.length + storeCount p z ≤ 8 then .none else .stall
  | .copy t =>
    match t with
    | .park | .resume => .none
    | _ => if k.u.copy.isNone && !k.u.stores.isEmpty then .drain else .none
  | .ctl .eret => if handlerLoads k then .drain else .none
  | _ => .none

/-- The first hold among triggers; a trigger of the second bundle of a pair finds the operand sockets in `kb`. -/
def firstHold (s : State) (n : Nat) (k1 kb : LensCore) : List (Move × Op × Word) → Hold
  | [] => .none
  | (m, o, a) :: ts =>
    match trigHold s n (if m.second then kb else k1) o a with
    | .none => firstHold s n k1 kb ts
    | h => h

/-- A trigger that passed its check, and whether it stands in the second bundle of a pair. -/
structure Trig where
  op : Op
  a  : Word
  p  : Nat
  q  : Nat
  second : Bool

/-- Every trigger checked, in slot order. -/
def checkTrigs (s : State) (n : Nat) (k1 kb : LensCore) : List (Move × Op × Word) → (State × Nat × Option Word × Bool) ⊕ List Trig
  | [] => .inr []
  | (m, o, a) :: ts =>
    match trigCheck s n (if m.second then kb else k1) o a with
    | (t, .bad c x) => .inl (t, c, x, m.second)
    | (_, .ok p q) =>
      match checkTrigs s n k1 kb ts with
      | .inl e => .inl e
      | .inr l => .inr ({ op := o, a, p, q, second := m.second } :: l)

/-! ### The plan of a step -/

/-- A step that takes effect: the core with the bundle's writes made (of a pair, the first bundle's), the second bundle's writes, the sources read, the triggers, the offset, the bytes of the bundle or
pair, the offset of its last bundle, the bytes of the delay bundle of a transfer bundle, the repeat it belongs to, the slot and address of a
poisoned read of a delay bundle, whether it is a delay bundle. -/
structure Work where
  k1    : LensCore
  vs2   : List (Move × Word)
  reads : List Nat
  dsts  : List Nat
  trigs : List Trig
  off   : Nat
  size  : Nat
  last  : Nat
  xfer  : Option Nat
  rep   : Option Rep
  skipped : Option (Nat × Word)
  delay : Bool

/-- What the issue stage does next: nothing until something arrives, a fill bundle, a fault with whether it is a check whose failure halts
a core at the first bundle of a handler (R126), or a step. -/
inductive Plan where
  | wait
  | stall (drain : Bool)
  | fault (s : State) (f : PFault) (check : Bool)
  | go (w : Work)

def mkFault (off cause slot : Nat) (second : Bool) (bad : Option Word) (rep : Option Nat) : PFault :=
  { cause, slot, second, sw := 0, bad, epc := BitVec.ofNat 32 off, rep }

/-- The loop checks of R131, R133 and R135, made after those of R81, R51 and R47. The spec gives no order between R133 and the first check of R131:
R133 comes first (DESIGN CHOICE, log entry 122). -/
def loopChecks (k0 k1 : LensCore) (bs : List Bund) (vs : List (Move × Word)) : Option MoveFail :=
  let views := vs.filter fun v => isView v.1.dst
  let succ := bs.foldl (fun _ b => b.off + b.size) 0
  match (bs.zipIdx).find? fun b => endsActive k0 b.1.off && (b.1.ms.any isCtlTrig || !views.isEmpty) with
  | some b => some { cause := 0x09, slot := 0, second := b.2 == 1 }
  | none =>
    match (vs.find? fun v => v.1.dst == 0x268).bind fun v => loopTrigFails k0 k1 v.2 succ (!views.isEmpty) with
    | some c => some { cause := c, slot := 0, second := false }
    | none =>
      (views.find? fun v => viewFails k0 k1 v.1 v.2).map fun v => { cause := 0x09, slot := v.1.slot, second := v.1.second }

/-- The checks of orders 5 and 6 and what follows them, for a bundle or pair that is no delay bundle. A transfer bundle is checked with its
delay bundle, once its own sources are there (R99, log entry 99). -/
def planMoves (s : State) (n : Nat) (bs : List Bund) (rep : Option Rep) : Plan :=
  let k := getCore s n
  let off := (bs.headD { off := 0, size := 8, w0 := 0, w1 := 0, rpt := false, rint := false, rcnt := 0, ms := [] }).off
  let left := rep.map fun r => r.left
  let fail (c slot : Nat) (second : Bool) (bad : Option Word) (check : Bool) : Plan := .fault s (mkFault off c slot second bad left) check
  let all : List Move := match bs with
    | [a, b] => a.ms ++ (b.ms.map fun (m : Move) => { m with second := true })
    | _ => bs.flatMap fun (b : Bund) => b.ms
  let live := all.filter (guardOf k)
  match firstIllegal s (isSup k) live with
  | some f => fail f.cause f.slot f.second none true
  | none =>
  let clash := firstConflict live [] []
  let rs := readAll s n rep.isSome live
  if rs.any fun r => r.2 == .stall then
    match clash with
    | some f => fail f.cause f.slot f.second none true
    | none => .stall false
  else
  let size := bs.foldl (fun t b => t + b.size) 0
  let last := bs.foldl (fun _ b => b.off) off
  let vs := valuesOf rs
  let k1 := writeMoves k n (vs.filter fun v => !v.1.second)
  let vs2 := vs.filter fun v => v.1.second
  let kb := writeMoves k1 n vs2
  let ts := trigMoves vs
  let reads := live.filterMap srcCode
  let kd := coreAhead s n reads k1 (ts.map fun t => t.2)
  match if all.any isTransfer then delayFront s n kd (off + size) else .ok none with
  | .late => .wait
  | .bad c i a => fail c i true a true
  | .ok db =>
  match if (firstPoison rs).isNone then db.bind (delayIllegal s kd) else none with
  | some f => fail f.cause f.slot f.second none true
  | none =>
  match clash with
  | some f => fail f.cause f.slot f.second none true
  | none =>
  match firstPoison rs with
  | some p => fail 0x14 0 p.1.second (some p.2) false
  | none =>
  match resultConflict n k1 kb vs [] with
  | some f => fail f.cause f.slot f.second none true
  | none =>
  match db.bind (delayClash s n kd) with
  | some f => fail f.cause f.slot f.second none true
  | none =>
  match loopChecks k kb bs vs with
  | some f => fail f.cause f.slot f.second none false
  | none =>
  match db.bind (delayLoops s n k kd) with
  | some f => fail f.cause f.slot f.second none false
  | none =>
  match firstHold s n k1 kb ts with
  | .stall => .stall false
  | .drain => .stall true
  | .none =>
  match checkTrigs s n k1 kb ts with
  | .inl e => .fault e.1 (mkFault off e.2.1 0 e.2.2.2 e.2.2.1 left) false
  | .inr trigs =>
  if (ts.any fun t => t.2.1 == .ctl .eret) && eretForged k1 then fail 0x1B 0 false none false
  else
    .go { k1, vs2, reads, dsts := live.map fun m => m.dst, trigs, off, size, last,
          xfer := if all.any isTransfer then some (db.elim 8 Bund.size) else none, rep, skipped := none, delay := false }

/-- The plan of a delay bundle (R99): nothing in it can trap. A move with a poisoned source performs nothing; nor does one that could not have
passed the check with the transfer bundle, should the words have changed since (log entry 99). -/
def planDelay (s : State) (n : Nat) (b : Bund) : Plan :=
  let k := getCore s n
  let live := b.ms.filter fun m => guardOf k m && (moveCheck s (isSup k) m).isNone && !delayForbids m
  let rs := readAll s n false live
  if rs.any fun r => r.2 == .stall then .stall true
  else
    let ka := writeMoves k n (valuesOf rs)
    let vs := (valuesOf rs).filter fun v => !(isView v.1.dst && viewFails k ka v.1 v.2)
    let k1 := writeMoves k n vs
    let ts := trigMoves vs
    match firstHold s n k1 k1 ts with
    | .none =>
      .go { k1, vs2 := [], reads := vs.filterMap fun v => srcCode v.1, dsts := vs.map fun v => v.1.dst,
            trigs := ts.map fun t => { op := t.2.1, a := t.2.2, p := 0, q := 0, second := false }, off := b.off, size := b.size, last := b.off,
            xfer := none, rep := none, skipped := (firstPoison rs).map fun p => (p.1.slot, p.2), delay := true }
    | _ => .stall true

/-- A bundle, with the one after it when they pair. -/
def withPair (s : State) (n : Nat) (b : Bund) : List Bund :=
  match frontAt s n (b.off + b.size) with
  | .bund b2 => if pairable s n b b2 then [b, b2] else [b]
  | _ => [b]

/-- A repeat about to execute an iteration: the one in progress, or the one its header sets up; `none` where order 4 refuses it. -/
def repeatNow (k : LensCore) (b : Bund) : Option Rep :=
  match k.i.rep with
  | some r => some r
  | none => (repeatCount k b).map fun m =>
      { left := m, useRepc := k.i.resumeRep || b.rcnt == 0, rint := b.rint, begun := false, w0 := b.w0, w1 := b.w1 }

/-- The checks of orders 5 and 6 over the moves of a bundle that executes none of them (R75). -/
def idleChecks (s : State) (n : Nat) (b : Bund) : Option MoveFail :=
  let k := getCore s n
  let live := b.ms.filter (guardOf k)
  let vs := valuesOf (readAll s n true live)
  let k1 := writeMoves k n vs
  (firstIllegal s (isSup k) live).orElse fun _ => (firstConflict live [] []).orElse fun _ => resultConflict n k1 k1 vs []

/-- What stands at the front of issue: the words of a repeat in progress, which passed fetch and decode before its first iteration, or the
bundle fetched. -/
def nextFront (s : State) (n : Nat) : Front :=
  let i := (getCore s n).i
  match i.rep with
  | some r => if r.begun then frontOf i.pc.toNat r.w0 r.w1 else frontAt s n i.pc.toNat
  | none => frontAt s n i.pc.toNat

/-- What stands at the issue stage: a break bundle, a repeated bundle, or another. -/
inductive Kind where
  | plain | rpt | brk (tag : Nat)
  deriving DecidableEq, Repr

/-- The next bundle and its plan. -/
def planNext (s : State) (n : Nat) : Kind × Plan :=
  let k := getCore s n
  let o := k.i.pc.toNat
  if k.i.delay.isSome then
    match frontAt s n o with
    | .late => (.plain, .wait)
    | .bund b => (.plain, planDelay s n (if b.rpt then { b with ms := [] } else b))
    | _ => (.plain, planDelay s n { off := o, size := 8, w0 := 0, w1 := 0, rpt := false, rint := false, rcnt := 0, ms := [] })
  else
    match nextFront s n with
    | .late => (.plain, .wait)
    | .bad c i a => (.plain, .fault s (mkFault o c i false a (resumedLeft s n)) true)
    | .brk t => (.brk t, .fault s { mkFault o 0x1A 0 false none none with sw := t } false)
    | .bund b =>
      if !b.rpt then (.plain, planMoves s n (withPair s n b) none)
      else
        match repeatNow k b with
        | none => (.rpt, .fault s (mkFault o 0x07 0 false none (if k.i.resumeRep then some k.r.repc.toNat else none)) true)
        | some r =>
          if r.left ≠ 0 then (.rpt, planMoves s n [b] (some r))
          else
            -- R75: the checks are made, no move executes
            match idleChecks s n b with
            | none => (.rpt, planMoves s n [{ b with ms := [] }] (some r))
            | some f => (.rpt, .fault s (mkFault o f.cause f.slot f.second none (if k.i.resumeRep then some 0 else none)) true)

/-! ### Whether the core issues -/

/-- The latency of a divide in steps (R41): its contract in a paced cluster, else that of the stepping. -/
def divLatency (s : State) (n : Nat) : Nat := if isDet s n then 20 else if s.part.b0 then 14 else 18

/-- A load of scratch, exchange RAM, the bit store or a bank of the own cluster: its latency is 3 steps when uncontended (R41). -/
def lsuHit (n : Nat) (l : Load) : Bool :=
  let p := l.addr.toNat
  l.kind == .normal && (decide (p < 0x14000) || (!isWarden n && ((decide (0x20000 ≤ p) && decide (p < 0x22000)) ||
    (decide (0x100000 ≤ p) && decide (p < 0x200000)))))

/-- The step from which such a load is readable (R41, R42). -/
def loadDue (s : State) (n : Nat) (l : Load) : Nat := l.trig + 3 + if isDet s n then l.late else 0

/-- Results that must have reached their sockets before the next step (R39 to R42, R63): the handshake of the step waits for them. A load that
something still holds at its memory is contended, unless it is step-locked and bare or of a paced core. -/
def dueUndelivered (s : State) (n : Nat) : Bool :=
  let k := getCore s n
  let st := k.i.steps
  (k.u.prods.any fun p => decide (p.due ≤ st)) ||
  (match k.u.div with | some d => decide (d.trig + divLatency s n ≤ st) | none => false) ||
  (k.u.fpu.any fun f => decide (f.trig + f.lat ≤ st)) ||
  (k.u.loads.any fun l => !l.deliv && lsuHit n l && decide (loadDue s n l ≤ st) &&
    (l.data.isSome || ((l.bare || isDet s n) && stepLocked n l.addr.toNat l.kind))) ||
  copyDue s n || beamDue s n

/-- The cluster holds its cores at their boundaries: a mode switch (R35) or a quiesce (R299). -/
def clusterHolds (s : State) (n : Nat) : Bool :=
  !isWarden n && ((getCluster s (clusterOf n)).sw.isSome || (getCluster s (clusterOf n)).quiesced)

/-- An enabled breakpoint names the next bundle (R465). -/
def atBreakpoint (k : LensCore) : Bool :=
  !k.lp.pass && (List.range 4).any fun i =>
    let b := Tab.get (fun _ => 0#32) i k.lp.lbp
    b.getLsbD 0 && (b &&& 0xFFFFFFF8#32) == (k.i.pc &&& 0xFFFFFFF8#32)

/-- The point before the next bundle is a boundary (R190), the fill steps of R104, R195 and R217 apart. -/
def boundary (s : State) (n : Nat) : Bool :=
  atBoundary s n && !((getCore s n).i.drain && (match (planNext s n).2 with | .stall d => d | _ => false))

/-- Something is to happen at the boundary before the next bundle issues: an entry, a Loupe halt, a stop. -/
def boundaryTakes (s : State) (n : Nat) : Bool :=
  let k := getCore s n
  boundary s n && ((recognisable s n (isIE k)).isSome || k.lp.pending || k.lp.stepping == 2 || atBreakpoint k || clusterHolds s n)

/-- The core issues bundles: present, running, not halted by the Loupe, no fault waiting for its entry. -/
def issues (s : State) (n : Nat) : Bool :=
  let k := getCore s n
  corePresent s n && k.i.run == .running && !k.lp.halted && k.i.fault.isNone && !dueUndelivered s n

/-- A program bundle may issue now. -/
def mayIssue (s : State) (n : Nat) : Bool :=
  let k := getCore s n
  issues s n && k.i.fills == 0 && k.i.ret.isNone && !(k.i.fence && !k.u.stores.isEmpty) && !boundaryTakes s n

/-- A step of a paced core is due and its handshake is not complete (R37): its bundle, fetched through a device-kind AP0, has not been delivered
(R118), or a bare step-locked load that is due still waits at its memory (R63). Log entry 48. -/
def lateNow (s : State) (n : Nat) : Bool :=
  let k := getCore s n
  isDet s n && corePresent s n && k.i.run == .running && !k.lp.halted && k.i.fault.isNone &&
  ((k.u.loads.any fun l => l.data.isNone && l.bare && stepLocked n l.addr.toNat l.kind && decide (l.trig + 3 ≤ k.i.steps)) ||
   ((apOf k n 0).kind == 1 && mayIssue s n && (match (planNext s n).2 with | .wait => true | _ => false)))

/-- A pace tick at a core whose step cannot be made: where its handshake is late the pace is broken with reason 2 (R37). -/
def lateStep (s : State) (n : Nat) : State := if lateNow s n then breakPace s (clusterOf n) 2 else s

/-! ### The effects of triggers -/

/-- The cores with a lower local number whose access to exchange RAM or the bit store is under way as core `n` triggers one at `g` (R42, log
entry 105). -/
def coresAhead (s : State) (n g : Nat) : Nat :=
  match placeOf (g / 8) with
  | .xram _ | .bits _ =>
    (((List.range (n % 4)).map fun i => clusterOf n * 4 + i).filter fun m =>
      let u := (getCore s m).u
      let shared (w : Nat) : Bool := match placeOf w with | .xram _ | .bits _ => true | _ => false
      (match u.stores.head? with | some e => shared e.word | none => false) ||
      u.loads.any fun l => !l.deliv && l.kind != .device && shared (globalOf m l.addr.toNat / 8)).length
  | _ => 0

/-- A load enters the lsu, and is performed unless something stands before it (R94, R155, R156). -/
def startLoad (s : State) (n : Nat) (z : Nat) (sext : Bool) (p : Nat) (ap : Aperture) (bare : Bool) (x : Option Word) : State :=
  let k := getCore s n
  let l : Load := { trig := k.i.steps, addr := BitVec.ofNat 32 p, size := z, sext, kind := accKind ap p, xchg := x, snap := k.u.nstore,
                    late := coresAhead s n (globalOf n p), bare, data := none, deliv := false, outst := true, toFrame := none }
  let i := k.u.loads.length
  tryPerform drainEntry (setCore s n { k with u := { k.u with loads := k.u.loads ++ [l] } }) n i

def startStore (s : State) (n z p : Nat) (ap : Aperture) (v : Word) : State :=
  modCore s n fun k =>
    let es := storeEntries n p z v (accKind ap p) k.u.nstore
    { k with u := { k.u with stores := k.u.stores ++ es, nstore := k.u.nstore + es.length } }

def startDiv (k : LensCore) (signed : Bool) (a : Word) : LensCore :=
  let r := divResult signed a (sk k 0x230)
  { k with u := { k.u with div := some { trig := k.i.steps, quo := r.1, rem := r.2.1, flag := r.2.2 } } }

def startFpu (k : LensCore) (o : FpuOpc) (a : Word) : LensCore :=
  let r := fpuResult o a (sk k 0x290) (sk k 0x291)
  { k with u := { k.u with fpu := k.u.fpu ++ [{ trig := k.i.steps, lat := fpuLatency o, out := r.1, fl := r.2 }] } }

def startMul (k : LensCore) (o : MulOp) (a : Word) : LensCore :=
  let r := mulResult o a (sk k 0x220)
  { k with u := { k.u with prods := k.u.prods ++ [{ due := k.i.steps + 3, hi := (r >>> 32).setWidth 32, lo := r.setWidth 32 }] } }

def startBeam (s : State) (n : Nat) (o : BeamKind) (a : Word) (p : Nat) : State :=
  let r : State × Octets :=
    if o = .commit then (let r := portReadBytes 9 s (scratchBase n + p) 64; (r.1, r.2.1)) else (s, [])
  modCore r.1 n fun k =>
    { k with u := { k.u with beam := some { kind := o, trig := k.i.steps, arg := a, buf := p, data := r.2, res := none } } }

/-- One trigger takes effect (R45). `s0` is the state at the start of the step; the core in `s` holds the bundle's writes. -/
def trigDo (s0 s : State) (n : Nat) (k1 : LensCore) (t : Trig) : State :=
  let k0 := getCore s0 n
  match t.op with
  | .alu u o => modCore s n fun k => doAlu k u o t.a
  | .mul o => modCore s n fun k => startMul k o t.a
  | .div sg => modCore s n fun k => startDiv k sg t.a
  | .fpu o => modCore s n fun k => startFpu k o t.a
  | .ld z x => startLoad s n z x t.p (dataAp s0 n k1) (isBare k0) none
  | .xchg => startLoad s n 4 false t.p (dataAp s0 n k1) (isBare k0) (some (sk k1 0x241))
  | .st z => startStore s n z t.p (dataAp s0 n k1) (sk k1 0x241)
  | .bitu o => bituDo s n k0 o t.a
  | .copy .park => copyPark s n t.p
  | .copy .resume =>
    (match resumeCheck s0 n (isSup k0) t.p with
     | .ok a b => copyResume s n t.p a b
     | .bad _ _ => s)
  | .copy c => copyTrigger s n (copyKindOf c) t.a t.p t.q
  | .beam o => startBeam s n o t.a t.p
  | .ctl _ => s

/-! ### The end of the step -/

/-- Counting a step (R10, R200): REM falls, and the window closes when it reaches 0. -/
def countStep (k : LensCore) : LensCore :=
  let rem := if k.e.hushEnd.isSome then k.r.hushRem - 1 else k.r.hushRem
  let k1 : LensCore := { k with i := { k.i with steps := k.i.steps + 1 } }
  match k.e.hushEnd with
  | none => k1
  | some _ => { k1 with r := { k.r with hushRem := rem }, e := { k.e with hushEnd := if rem = 0 then none else k.e.hushEnd } }

/-- The window closes (R200): REM reads 0. -/
def closeHush (k : LensCore) : LensCore := { k with r := { k.r with hushRem := 0 }, e := { k.e with hushEnd := none } }

/-- The steps 200 ns hold at a pace (R30, R200). -/
def hushLimit (pace : Nat) : Nat :=
  match pace with
  | 1 => 300
  | 2 => 250
  | 3 => 200
  | 4 => 150
  | _ => 100

/-- `ctl.hush` with n = `a` (R200), at the end of its step. -/
def doHush (s : State) (n : Nat) (a : Word) : State :=
  let m : Byte := a.setWidth 8
  if m = 0 then s
  else
    modCore s n fun k =>
      if k.e.hushOk then
        { k with r := { k.r with hushRem := m }
                 e := { k.e with hushOk := false, hushEnd := some (s.tb + 200)
                                 hushStop := k.i.steps + hushLimit (getCluster s (clusterOf n)).pace } }
      else { k with r := { k.r with hushIgn := if k.r.hushIgn = 0xFF#8 then 0xFF#8 else k.r.hushIgn + 1 } }

/-- The watchdog stops counting (R202, R465). -/
def wdPause (tb : Nat) (e : Events) : Events := { e with wdAcc := e.wdAcc + (tb - e.wdStart), wdStart := tb }

/-- The loop-end check of a bundle at `p` from level `i - 1` inwards out (R132): the core, and the level that loops back. -/
def loopEnd (p : Nat) : Nat → LensCore → LensCore × Option Nat
  | 0, k => (k, none)
  | i + 1, k =>
    if (loopLe k i).toNat = p then
      if 1 < (loopLc k i).toNat then (setLoopReg k 2 i (loopLc k i - 1), some i)
      else loopEnd p i (setLoopReg k 2 i 0)
    else (k, none)

/-- The next bundle after one at `p` whose successor is `succ` (R132, R134). -/
def sequence (k : LensCore) (p succ : Nat) : LensCore :=
  match loopEnd p (loopDepth k) k with
  | (k1, none) => modIssue k1 fun i => { i with pc := BitVec.ofNat 32 succ }
  | (k1, some lv) =>
    let dest := loopLs k1 lv
    match Tab.find lv k1.i.loopBuf with
    | some ls => modIssue k1 fun i => { i with pc := dest, lines := ls }
    | none => modIssue k1 fun i => { i with pc := dest, lines := [], fills := max i.fills 4, loopWait := some lv,
                                            loopBuf := Tab.put lv [] i.loopBuf }

/-- `ctl.loop` takes effect (R130, R131, R134). -/
def doLoop (k : LensCore) (a : Word) (succ : Nat) : LensCore :=
  let d := loopDepth k
  if a = 0 then setLoopReg k 2 (d - 1) 0
  else
    let k1 := setLoopReg (setLoopReg (setLoopReg k 0 d (BitVec.ofNat 32 succ)) 1 d (sk k 0x260)) 2 d a
    modIssue k1 fun i =>
      match findLine i.lines succ, findLine i.lines (lineOff succ + 32) with
      | some x, some y => { i with loopBuf := Tab.put d [x, y] i.loopBuf }
      | _, _ => { i with loopBuf := Tab.put d [] i.loopBuf, loopWait := some d }

/-- A transfer's delay bundle at `p` has executed (R121, R132): the target follows after three fill bundles, its line from the BTB where it
hits; a transfer that was not taken leads to what follows the delay bundle in sequence. The loop-end check is made either way. -/
def afterDelay (det : Bool) (k : LensCore) (tgt : Option Word) (p succ : Nat) : LensCore :=
  match tgt with
  | none => sequence (modIssue k fun i => { i with delay := none }) p succ
  | some t =>
    modIssue (loopEnd p (loopDepth k) k).1 fun i =>
      let base : Issue := { i with delay := none, pc := t, fills := max i.fills 3, lines := [], loopWait := none }
      match i.xferOff with
      | none => base
      | some x =>
        match if det then none else (btbHit k x).filter (fun b => b.target == t.toNat) with
        | some b => { base with xferOff := none, lines := [b.line], btb := btbInsert i.btb b }
        | none => base

/-- The target of a transfer at offset `off` (R98). -/
def transferTarget (o : CtlOp) (off : Nat) (a : Word) : Word :=
  (match o with | .jr | .callr => BitVec.ofNat 32 off + a | _ => a) &&& 0xFFFFFFF8#32

/-- A core with a cause pending that ends a sleep (R100): an event routed to it, or its watchdog. -/
def wakePending (s : State) (n : Nat) : Bool :=
  (getCore s n).e.wd20 || (bestEvent s n fun _ => true).isSome

/-- The ctl trigger of the bundle takes effect, and the next bundle is chosen (R98 to R101, R121, R125, R130, R132). The step is already
counted. -/
def afterStep (s0 : State) (n : Nat) (w : Work) : State :=
  let succ := w.off + w.size
  let taken := w.trigs.any fun t => match t.op with | .ctl .jmp | .ctl .jr | .ctl .call | .ctl .callr | .ctl .ret => true | _ => false
  -- a hit entry whose transfer resolves not taken goes (R119)
  let s := if w.xfer.isSome && !taken then modCore s0 n fun k => modIssue k fun i => { i with btb := i.btb.filter fun b => b.xoff != w.off } else s0
  let seqd (t : State) : State := modCore t n fun k => sequence k w.last succ
  let delayd (t : State) (tgt : Option Word) (btb : Option Nat) : State :=
    modCore t n fun k => modIssue k fun i =>
      { i with pc := BitVec.ofNat 32 succ, delay := some tgt, xferOff := btb, xferSize := w.size }
  let base (t : State) : State := match w.xfer with | some _ => delayd t none none | none => seqd t
  match w.trigs.findSome? fun t => match t.op with | .ctl o => some (o, t.a) | _ => none with
  | none => base s
  | some (o, a) =>
    match o with
    | .jmp | .jr | .call | .callr | .ret =>
      let tgt := transferTarget o w.off a
      let link := succ + w.xfer.getD 8
      let s1 := if o = .call ∨ o = .callr then modCore s n fun k => setSk k 0x26E (BitVec.ofNat 32 link) else s
      traceOn (delayd s1 (some tgt) (if o = .ret then none else some w.off)) n 0 0 (BitVec.ofNat 32 w.off) tgt
    | .eret =>
      let s1 := modCore s n fun k => modIssue k fun i => { i with delay := none }
      if handlerLoads (getCore s n) then modCore s1 n fun k => modIssue k fun i => { i with ret := some w.off }
      else eretReturn s1 n (BitVec.ofNat 32 w.off)
    | .trap =>
      modCore (seqd s) n fun k => modIssue k fun i =>
        { i with fault := some { mkFault succ 0x1A 0 false none none with sw := a.toNat % 256 }, delay := none }
    | .loop => modCore (modCore s n fun k => doLoop k a succ) n fun k => modIssue k fun i =>
        match w.xfer with
        | some _ => { i with pc := BitVec.ofNat 32 succ, delay := some none }
        | none => { i with pc := BitVec.ofNat 32 succ }
    | .flush =>
      let k := getCore s n
      let x := (sk k 0x260).toNat
      let s1 := setCore s n (flushRange k n a.toNat x)
      modCore (base s1) n fun k => modIssue k fun i => { i with fills := max i.fills (flushFills (isDet s n) a.toNat x) }
    | .fence => modCore (base s) n fun k => modIssue k fun i => { i with fence := true }
    | .hush => doHush (base s) n a
    | .sleep =>
      let s1 := modCore (base s) n closeHush
      if wakePending s1 n then s1 else modCore s1 n fun k => modIssue k fun i => { i with run := .sleeping }
    | .halt =>
      modCore (modCore (base s) n closeHush) n fun k =>
        { k with i := { k.i with run := .halted }, e := wdPause s.tb k.e }

def writesAp0 (dsts : List Nat) : Bool := dsts.any fun c => c == 0x490 || c == 0x498 || c == 0x4A0

/-- A write of an AP0 word in the step before `i.steps` (R122): the BTB and the loop-start buffers go and F1 to D are emptied; while the
bundle repeats on, the four fill steps wait for its last iteration, less the steps its other iterations take. -/
def ap0Effect (more xfer : Bool) (i : Issue) : Issue :=
  if more then { emptyFetch i with btb := [], loopBuf := [], ap0Step := some (i.steps - 1) }
  else if xfer then { ap0Written i with fills := i.fills }
  else ap0Written i

/-- The end of a repeat (R132, R137): the successor follows, four steps after a write of an AP0 word at the earliest (R122). -/
def endRepeat (k : LensCore) (p succ : Nat) : LensCore :=
  let k1 := modIssue k fun i =>
    { i with resumeRep := false, rep := none, ap0Step := none, fills := max i.fills (i.ap0Step.elim 0 fun s => s + 5 - i.steps) }
  sequence k1 p succ

/-- A trigger that must find the store buffer drained (R104, R217). -/
def needsDrained : Op → Bool
  | .copy _ => true
  | .beam .commit => true
  | .beam .drop => true
  | _ => false

/-- The second bundle of a pair takes effect after the first, as in the step after it (R123): its writes, then its triggers. `sa` is the state
after the first. -/
def secondHalf (sa : State) (n : Nat) (w : Work) : State :=
  let ts := w.trigs.filter fun t => t.second
  if w.vs2.isEmpty && ts.isEmpty then sa
  else
    let sd := if ts.any fun t => needsDrained t.op then drainFirst drainEntry (getCore sa n).u.stores.length sa n else sa
    let sb := modCore sd n fun k => writeMoves k n w.vs2
    let kb := getCore sb n
    ts.foldl (fun t x => trigDo sa t n kb x) sb

/-- The work of a step performed: writes, triggers, counting, and what comes next. -/
def perform (s : State) (n : Nat) (w : Work) : State :=
  let k0 := getCore s n
  let ka := if w.reads.contains 0x24B then consumeLoad k0 w.k1 else w.k1
  let kb : LensCore := if w.reads.contains 0x407 then { ka with r := { ka.r with tbhi := tbWord s true } } else ka
  let s1 := setCore s n kb
  let s2 := secondHalf ((w.trigs.filter fun t => !t.second).foldl (fun t x => trigDo s t n w.k1 x) s1) n w
  let more := match w.rep with | some r => decide (1 < r.left) | none => false
  let s3 := modCore s2 n fun k =>
    let k1 := countStep k
    { k1 with
      i := { (if writesAp0 w.dsts then ap0Effect more w.xfer.isSome k1.i else k1.i) with drain := false, dueStep := none, wait5 := none, fence := false, first := false }
      lp := { k1.lp with pass := false, stepping := if k1.lp.stepping = 0 then 0 else 2 } }
  match w.rep with
  | some r =>
    let s4 := modCore s3 n fun k => if r.useRepc ∧ r.left ≠ 0 then { k with r := { k.r with repc := k.r.repc - 1 } } else k
    if 1 < r.left then
      modCore s4 n fun k => modIssue k fun i => { i with resumeRep := false, rep := some { r with left := r.left - 1, begun := true } }
    else modCore s4 n fun k => endRepeat k w.last (w.off + w.size)
  | none =>
    let s4 := modCore s3 n fun k => modIssue k fun i => { i with resumeRep := false }
    if !w.delay then afterStep s4 n w
    else
      let k := getCore s4 n
      let tgt := (k.i.delay.getD none)
      let s5 := setCore s4 n (afterDelay (isDet s n) k tgt w.last (w.off + w.size))
      match w.skipped with
      | none => s5
      | some (slot, bad) =>
        modCore s5 n fun k => modIssue k fun i =>
          { i with fault := some { cause := 0x14, slot, second := true, sw := 0, bad := some bad, epc := i.pc, rep := none } }

/-- A fault waits for its entry (R189); a check that fails at the first bundle of a handler will halt the core there (R126). -/
def recordFault (s : State) (n : Nat) (f : PFault) (check : Bool) : State :=
  modCore s n fun k => modIssue k fun i => { i with fault := some f, first := i.first && check, drain := false, dueStep := none, wait5 := none }

end Sys2Proof.Machine
end

