-- ==== Sys2Proof/Machine/CoreStop.lean ====
section
/-! DEFINITION. What becomes of a core's work when it stops (R154, R218, R267). -/

namespace Sys2Proof.Machine

/-- A beam operation already triggered completes at the engine; nothing is delivered (R267, R406). -/
def engineFinish (s : State) (n : Nat) : State :=
  match (getCore s n).u.beam with
  | none => s
  | some _ => modCore (beamServe s n) n fun k => { k with u := { k.u with beam := none } }

/-- The words of the merge entries that the core's stores opened. -/
def ownMerges (s : State) (n : Nat) : List Nat :=
  s.clusters.flatMap fun c => c.2.banks.flatMap fun b => (b.2.merge.filter fun e => e.core == n).map fun e => e.word

/-- The merge entries of the core's stores are written out (R267, R406). -/
def writeOwnMerges (s : State) (n : Nat) : State := (ownMerges s n).foldl forceMerge s

/-- Work in flight is lost: store-buffer entries, loads, products, divide and fpu operations, the copy operation (R267). -/
def dropWork (u : Units) : Units :=
  { u with prods := [], div := none, fpu := [], loads := [], stores := [], copy := none, beam := none, beamPois := none }

/-- The fate of the work of core `n` as it stops (R267): the engine finishes, the locks are released as a drop would, the merge entries are
written, the rest is lost. -/
def settleWork (s : State) (n : Nat) : State :=
  let s1 := releaseLocks (engineFinish s n) n
  let s2 := modCore s1 n fun k => { k with u := dropWork k.u }
  writeOwnMerges s2 n

/-- A core that has just stopped on a core fault has its work settled. -/
def settleStop (s : State) (n : Nat) : State := if (getCore s n).i.run = .stopped then settleWork s n else s

end Sys2Proof.Machine
end

