-- ==== Sys2Proof/Machine/Bundle.lean ====
section
/-! DEFINITION. The commands of the issue stage: bundles, fill bundles, repeats, break bundles, exception entry, sleep and hush, and the
fetch of lines (R44, R83, R114, R116, R126, R137, R190, R200, R100). -/

namespace Sys2Proof.Machine

/-- What issuing the planned step does. -/
def issuePlan (s : State) (n : Nat) : Plan → State
  | .go w => perform s n w
  | .fault t f check => recordFault t n f check
  | _ => lateStep s n

/-- BUNDLE_ISSUE (R44): a bundle without a repeat prefix, or a pair. -/
def execBundleIssue (n : Nat) (s : State) : Host.Outcome State Fault Refusal :=
  if mayIssue s n then
    match planNext s n with
    | (.plain, p) => .next (issuePlan s n p)
    | _ => .next s
  else .next (lateStep s n)

/-- REPEAT_ITERATION (R74, R75, R137): one iteration of a bundle with RPT = 1. -/
def execRepeatIteration (n : Nat) (s : State) : Host.Outcome State Fault Refusal :=
  if mayIssue s n then
    match planNext s n with
    | (.rpt, p) => .next (issuePlan s n p)
    | _ => .next s
  else .next (lateStep s n)

/-- A Loupe halt is taken (R464, R465): the watchdog stops counting. -/
def loupeHaltCore (s : State) (n why : Nat) : State :=
  modCore s n fun k =>
    { k with lp := { k.lp with halted := true, why, pending := false, stepping := 0 }
             e := if k.i.run = .halted then k.e else wdPause s.tb k.e }

/-- BREAK_BUNDLE (R83): halts the core under an armed break-halt, or traps with cause 0x1A. -/
def execBreakBundle (n : Nat) (s : State) : Host.Outcome State Fault Refusal :=
  if mayIssue s n then
    match planNext s n with
    | (.brk _, p) => .next (if (getCore s n).lp.brken then loupeHaltCore s n 4 else issuePlan s n p)
    | _ => .next s
  else .next s

/-- A step in which a fill bundle issues (R114); `d` tells whether its hold is no boundary. -/
def fillStep (s : State) (n : Nat) (d : Bool) : State :=
  modCore s n fun k =>
    let k1 := countStep k
    { k1 with i := { k1.i with fills := k1.i.fills - 1, drain := d } }

/-- A stall step of a bundle that is due: what its read of `lsu.out` is matched to stays (R94), and a fifth load waits for the oldest of the
four (R95). -/
def stallStep (s : State) (n : Nat) (d : Bool) : State :=
  let k := getCore s n
  modCore (fillStep s n d) n fun k1 => modIssue k1 fun i =>
    { i with dueStep := some (k.i.dueStep.getD k.i.steps)
             wait5 := if fifthLoad k then some (k.i.wait5.getD (((undelivered k).head?.map Load.trig).getD 0)) else none }

/-- FILL_BUNDLE (R114): in a step in which no program bundle can issue, for the refill steps and for every hold of issue. A return that waits
for its handler's loads is made once the last of them has delivered (R195). -/
def execFillBundle (n : Nat) (s : State) : Host.Outcome State Fault Refusal :=
  let k := getCore s n
  if corePresent s n && k.i.run == .running && !k.lp.halted && !dueUndelivered s n then
    if k.i.fills ≠ 0 then .next (fillStep s n false)
    else if k.i.ret.isSome then .next (if handlerLoads k then fillStep s n true else eretReturn s n (BitVec.ofNat 32 (k.i.ret.getD 0)))
    else if k.i.fault.isSome then .next s
    else if k.i.fence && !k.u.stores.isEmpty then .next (fillStep s n false)
    else if boundaryTakes s n then .next s
    else
      match (planNext s n).2 with
      | .stall d => .next (stallStep s n d)
      | _ => .next (lateStep s n)
  else .next (lateStep s n)

/-- EXCEPTION_ENTRY (R126, R189 to R192): the waiting synchronous fault, or the cause recognised at the boundary. The entry of a `ctl.trap` in the
bundle that writes AP0 comes after AP0's four fill steps (DESIGN CHOICE, log entry 114). -/
def execExceptionEntry (n : Nat) (s : State) : Host.Outcome State Fault Refusal :=
  let k := getCore s n
  if corePresent s n && k.i.run == .running && !k.lp.halted then
    match k.i.fault with
    | some f => .next (if k.i.fills = 0 then settleStop (enterFault s n f) n else s)
    | none =>
      if boundary s n && !clusterHolds s n then
        match recognisable s n (isIE k) with
        | some a => .next (enterAsync s n a)
        | none => .next s
      else .next s
  else .next s

/-- HUSH_WINDOW_CLOSE (R200): when no step of the window remains or its 200 ns have passed. -/
def execHushWindowClose (n : Nat) (s : State) : Host.Outcome State Fault Refusal :=
  let k := getCore s n
  if corePresent s n && k.e.hushEnd.isSome && !hushOpen s n then .next (modCore s n closeHush) else .next s

/-- SLEEP_WAKE (R100): a pending cause ends the sleep, taken where it is recognisable. -/
def execSleepWake (n : Nat) (s : State) : Host.Outcome State Fault Refusal :=
  let k := getCore s n
  if corePresent s n && k.i.run == .sleeping && !k.lp.halted && !clusterHolds s n && wakePending s n then
    let s1 := modCore s n fun k => modIssue k fun i => { i with run := .running }
    match recognisable s n (isIE k) with
    | some a => .next (enterAsync s1 n a)
    | none => .next s1
  else .next s

/-- FETCH_LINE_DELIVERY (R116, R118). -/
def execFetchLineDelivery (n : Nat) (s : State) : Host.Outcome State Fault Refusal := .next (fetchDelivery s n)

end Sys2Proof.Machine
end

