-- ==== Sys2Proof/Machine/EventCmds.lean ====
section
/-! DEFINITION. The event router, the watchdog and the socket window of the core block (R194, R202 to R205). -/

namespace Sys2Proof.Machine

/-! ### Raises and routes (R203 to R205) -/

/-- The sources EVRAISE may raise (R194). -/
def mayRaise (x : Nat) : Bool :=
  (decide (560 ≤ x) && decide (x ≤ 687)) || x == 768 || x == 769 || (decide (928 ≤ x) && decide (x ≤ 1023))

/-- A write of EVRAISE by core `n` (R194). -/
def evraise (s : State) (n : Nat) (v : Word) : State :=
  let x := field v 0 10
  if mayRaise x then raise s x else modCore s n fun k => { k with e := { k.e with badraise := true } }

/-- EVRAISE_WRITE (R194). -/
def execEvraiseWrite (n : Nat) (v : Word) (s : State) : Host.Outcome State Fault Refusal :=
  .next (if corePresent s n then evraise s n v else s)

/-- A number added to a rising list without repeats. -/
def insertNum (x : Nat) : List Nat → List Nat
  | [] => [x]
  | y :: ys => if x = y then y :: ys else if x < y then x :: y :: ys else y :: insertNum x ys

/-- A raise that reached the router becomes pending, is coalesced and counted in EVOVF of its target, or is discarded (R203). -/
def deliverEvent (s : State) (src : Nat) : State :=
  let s1 := { s with router := { s.router with raised := s.router.raised.erase src } }
  if neverPending s src || !routeEn (routeOf s src) then s1
  else if s.router.pending.contains src then
    match targetCore s src with
    | none => s1
    | some n => modCore s1 n fun k => { k with e := { k.e with evovf := if k.e.evovf = 0xFFFFFFFF#32 then k.e.evovf else k.e.evovf + 1 } }
  else { s1 with router := { s1.router with pending := insertNum src s1.router.pending } }

/-- EVENT_DELIVERY (R203, R205). -/
def execEventDelivery (src : Nat) (s : State) : Host.Outcome State Fault Refusal :=
  .next (if s.router.raised.contains src then deliverEvent s src else s)

/-- A write of the route of `src`: the abort code it ends with, or the state after it (R204). -/
def routeWrite (s : State) (src v : Nat) : State × Option Nat :=
  let t := routeTarget v
  if 131 ≤ t ∨ 4096 ≤ v ∨ (unmaskable src = true ∧ routeEn v = false) ∨ ((src = 772 ∨ src = 778) ∧ t ≠ 130) then (s, some 0x03000001)
  else
    let s1 := setEnt s (0x7000 + src / 128) (src % 128 + 1) v
    (if routeEn v then s1 else { s1 with router := { s1.router with pending := s1.router.pending.filter fun e => e != src } }, none)

/-- The outcome of a dictionary write kept as the answer's abort code. -/
def answered (r : State × Option Nat) : State := { r.1 with lastAbort := r.2.map (BitVec.ofNat 32) }

/-- ROUTE_WRITE (R204). -/
def execRouteWrite (src v : Nat) (s : State) : Host.Outcome State Fault Refusal :=
  .next (if src < 1024 then answered (routeWrite s src v) else s)

/-! ### The watchdog (R202) -/

/-- The watchdog counts: the core has a period and is not halted. -/
def wdCounts (k : LensCore) : Bool := k.e.wdPeriod != 0 && k.i.run != .halted && !k.lp.halted && k.i.run != .notReleased && k.i.run != .retired

/-- The ns counted since the last kick or expiry. -/
def wdElapsed (s : State) (k : LensCore) : Nat := k.e.wdAcc + (s.tb - k.e.wdStart)

def wdDue (s : State) (k : LensCore) : Bool := wdCounts k && decide (k.e.wdPeriod.toNat * 1000 ≤ wdElapsed s k)

def wdRestart (s : State) (e : Events) : Events := { e with wdStart := s.tb, wdAcc := 0 }

/-- WATCHDOG_FIRST_EXPIRY (R202). -/
def execWatchdogFirstExpiry (n : Nat) (s : State) : Host.Outcome State Fault Refusal :=
  let k := getCore s n
  if corePresent s n && wdDue s k && !k.e.wdFirst then
    .next (setCore s n { k with e := { wdRestart s k.e with wdFirst := true, wd20 := true } })
  else .next s

/-- A write of WDCTL (R194, R202): a write of PERIOD or KICK = 1 restarts the count; on a warden a PERIOD of 0 is ignored. Every write of the
register writes PERIOD. -/
def watchdogWrite (s : State) (n : Nat) (v : Word) : State :=
  modCore s n fun k =>
    let p : BitVec 16 := v.setWidth 16
    let none_ := isWarden n && p == 0
    let e := if none_ && !v.getLsbD 16 then k.e else wdRestart s k.e
    { k with e := { e with wdPeriod := if none_ then e.wdPeriod else p, wdFirst := if v.getLsbD 16 then false else e.wdFirst } }

/-- WATCHDOG_KICK (R194, R202). -/
def execWatchdogKick (n : Nat) (v : Word) (s : State) : Host.Outcome State Fault Refusal :=
  .next (if corePresent s n then watchdogWrite s n v else s)

/-! ### The socket window (R194) -/

/-- What SKSEL names: an operand socket, a result socket or MLO, MHI, or nothing of the window. -/
inductive WindowCode where
  | operand | result | none
  deriving DecidableEq, Repr

def windowCode (s : State) (c : Nat) : WindowCode :=
  if c = 0x402 ∨ c = 0x403 then .result
  else if 0x200 ≤ c ∧ c < 0x400 ∧ !unitAbsent s c then
    match codeRole c with
    | .operand => .operand
    | .result => .result
    | _ => .none
  else .none

/-- The unit of a window code has an operation undelivered. -/
def windowBusy (k : LensCore) (c : Nat) : Bool :=
  if c = 0x402 ∨ c = 0x403 then unitPending k 2
  else match resultUnit c with | some u => unitPending k u | Option.none => false

/-- A read of SKVAL by core `n` or a warden waits: for `lsu.out`, of the core's loads only for those older than its own load of SKVAL. -/
def skvalBusy (n : Nat) (k : LensCore) (c : Nat) : Bool :=
  if c = 0x24B then
    (k.u.loads.takeWhile fun l => l.deliv || l.kind != .device || l.addr.toNat != 0x10000000 + n * 0x1000 + 0x114).any fun l => !l.deliv
  else windowBusy k c

/-- A socket as the window reads it. -/
def windowValue (k : LensCore) (c : Nat) : Word :=
  if c = 0x402 then k.r.mlo else if c = 0x403 then k.r.mhi else if c = 0x24C then lsuRdy k else sk k c

def setSkbad (k : LensCore) : LensCore := { k with e := { k.e with skbad := true } }
def setSkref (k : LensCore) : LensCore := { k with e := { k.e with skref := true } }

/-- A read of SKVAL: `none` while it waits for an undelivered result. The wait does not cover copy, nor `lsu.rdy`. -/
def skvalRead (s : State) (n : Nat) : Option (State × Word) :=
  let k := getCore s n
  let c := k.e.sksel.toNat
  match windowCode s c with
  | .none => some (setCore s n (setSkbad k), 0)
  | .operand => some (s, sk k c)
  | .result =>
    if skvalBusy n k c && c != 0x24C && !(c == 0x279 || c == 0x27A) then Option.none else some (s, windowValue k c)

/-- A socket loaded through the window. Writing `beam.st` or `beam.out` removes a poison mark (R216). -/
def windowLoad (k : LensCore) (c : Nat) (v : Word) : LensCore :=
  if c = 0x402 then { k with r := { k.r with mlo := v } }
  else if c = 0x403 then { k with r := { k.r with mhi := v } }
  else if c = 0x281 ∨ c = 0x282 then setSk { k with u := { k.u with beamPois := Option.none } } c v
  else setSk k c (if c = 0x272 then v &&& 0x1FF7#32 else v)

def skvalWrite (s : State) (n : Nat) (v : Word) : State :=
  modCore s n fun k =>
    let c := k.e.sksel.toNat
    match windowCode s c with
    | .none => setSkbad k
    | .operand => windowLoad k c v
    | .result => if windowBusy k c || c == 0x24C then setSkref k else windowLoad k c v

/-- SKVAL_READ (R194). -/
def execSkvalRead (n : Nat) (s : State) : Host.Outcome State Fault Refusal :=
  if !corePresent s n then .next s
  else
    match skvalRead s n with
    | Option.none => .next s
    | some r => .next { r.1 with rdata := some r.2 }

/-- SKVAL_WRITE (R194). -/
def execSkvalWrite (n : Nat) (v : Word) (s : State) : Host.Outcome State Fault Refusal :=
  .next (if corePresent s n then skvalWrite s n v else s)

end Sys2Proof.Machine
end

