-- ==== Sys2Proof/Machine/BeamCmds.lean ====
section
/-! DEFINITION. The beam table's window: a warden's store and the dictionary objects 0x6000 and 0x6001 (R223, R224). -/

namespace Sys2Proof.Machine

/-- BEAM_WINDOW_STORE (R223): a warden's store to the window is performed by the engine as one update of the word. An address of an absent
quadrant, or of no word, is no store of the window (R150 turns it away before). -/
def execBeamWindowStore (n : Nat) (addr v : Word) (s : State) : Host.Outcome State Fault Refusal :=
  let a := addr.toNat
  if isWarden n && corePresent s n && decide (beamBase ≤ a) && decide ((a - beamBase) / 64 < nBeams s) && a % 4 == 0 then
    .next (windowStore s ((a - beamBase) / 64) (a % 64 / 4) v 0xFFFFFFFF#32)
  else .next s

/-- The beam selected for 0x6000. -/
def selectedBeam (s : State) : Nat := ent s 0x6001 0

/-- A write of 0x6001:00 (R224). -/
def selectorWrite (s : State) (v : Nat) : State × Option Nat :=
  if nBeams s ≤ v then (s, some 0x02000006) else (setEnt s 0x6001 0 v, none)

/-- BEAM_SELECTOR_WRITE (R224). -/
def execBeamSelectorWrite (v : Nat) (s : State) : Host.Outcome State Fault Refusal := .next (answered (selectorWrite s v))

/-- A read of word `i` of the selected beam: none where the word is poisoned (R223, R224). -/
def windowRead (s : State) (i : Nat) : State × Option Nat :=
  let b := selectedBeam s
  let r := engineCheck s b (i / 2)
  (r.1, if r.2 then none else some (beamWord (getBeam r.1 b) i).toNat)

/-- BEAM_WINDOW_ACCESS (R224): a read or a write of 0x6000. -/
def execBeamWindowAccess (sub : Nat) (wr : Option Word) (s : State) : Host.Outcome State Fault Refusal :=
  if 0x10 < sub then .next (answered (s, some 0x02000002))
  else
    match wr with
    | some v =>
      if sub = 0 then .next (answered (s, some 0x02000003))
      else .next (answered (windowStore s (selectedBeam s) (sub - 1) v 0xFFFFFFFF#32, none))
    | none =>
      if sub = 0 then .next { answered (s, none) with rdata := some 16 }
      else
        let r := windowRead s (sub - 1)
        match r.2 with
        | none => .next (answered (r.1, some 0x04000003))
        | some x => .next { answered (r.1, none) with rdata := some (BitVec.ofNat 32 x) }

end Sys2Proof.Machine
end

