-- ==== Sys2Proof/Machine/FacetLink.lean ====
section
/-! DEFINITION. Facets: modes, roles, exposure tables, cycles and the link state machines (R229, R230, R235, R236, R240 to R242, R247, R248). -/

namespace Sys2Proof.Machine

/-! ### Configuration, lane times and directions -/

/-- An entry of the facet's configuration object (R256). -/
def cfg (s : State) (p sub : Nat) : Nat := ent s (0x3000 + p) sub

def facetMode (s : State) (p : Nat) : Nat := cfg s p 1
def facetRole (s : State) (p : Nat) : Nat := cfg s p 2
def isEther (s : State) (p : Nat) : Bool := facetRole s p == 1

/-- One character of a mode, for mode 5 one octet of a block, in tenths of a nanosecond (R229). -/
def charTime (mode : Nat) : Nat := if mode = 1 then 64 else if mode = 2 then 32 else if mode = 3 then 16 else if mode = 4 then 80 else 8

/-- The timebase in tenths of a nanosecond. -/
def tenths (s : State) : Nat := 10 * s.tb

/-- The line rate of a mode in units of 0.0001 GBd (R229). -/
def lineRate (mode : Nat) : Nat :=
  if mode = 1 then 15625 else if mode = 2 then 31250 else if mode = 3 then 62500 else if mode = 4 then 12500
  else if mode = 5 then 103125 else 0

/-- This end of a relay link leads: the lower chain position (R235, R247); while the peer is not known, or its position is equal and the link
stays in TRAIN, either end may send probes. -/
def relayHead (s : State) (q : Nat) : Bool :=
  let peer := (getFacet s q).train.peer.toNat
  peer == 0xFF || decide (s.chain.getD 0xFF ≤ peer)

def relayTail (s : State) (q : Nat) : Bool :=
  let peer := (getFacet s q).train.peer.toNat
  peer == 0xFF || decide (peer ≤ s.chain.getD 0xFF)

/-- The facet is joined to itself or to its partner inside the device: its lane input is ignored (R235). -/
def isMirror (s : State) (q : Nat) : Bool := facetRole s q == 4 || facetRole s q == 5

/-- The facet acts as head of its segment (R235). -/
def isHead (s : State) (q : Nat) : Bool :=
  match facetRole s q with
  | 2 => true
  | 4 => true
  | 5 => q % 2 == 0
  | 6 => relayHead s q
  | _ => false

/-- The facet acts as tail (R235). -/
def isTail (s : State) (q : Nat) : Bool :=
  match facetRole s q with
  | 3 => true
  | 4 => true
  | 5 => q % 2 == 1
  | 6 => relayTail s q
  | _ => false

/-- The facet sends in slots of this DIR (R240, R242). -/
def ownDir (s : State) (q dir : Nat) : Bool :=
  if isEther s q then dir == 0 else if dir = 0 then isHead s q else isTail s q

/-- The facet receives in slots of this DIR. -/
def rxDir (s : State) (q dir : Nat) : Bool :=
  !isEther s q && (if dir = 0 then isTail s q else isHead s q)

/-! ### Cycles (R242) -/

/-- The number of the cycle at timebase `t`. -/
def cycleNo (x : Expo) (t : Nat) : Nat := (t - x.phase) / x.cycle

/-- The boundary that begins cycle `n`. -/
def boundaryAt (x : Expo) (n : Nat) : Nat := x.phase + n * x.cycle

/-- Nanoseconds since the boundary of the cycle in hand. -/
def cycleOff (s : State) (f : Facet) : Nat := s.tb - boundaryAt f.active f.cyc

/-! ### Modes and roles (R229, R230, R235) -/

def sumRates (s : State) (p mode : Nat) : Nat :=
  (List.range 8).foldl (fun n i => let x := p / 8 * 8 + i; n + lineRate (if x = p then mode else facetMode s x)) 0

/-- A write of MODE (R229, R230). -/
def modeWrite (s : State) (p v : Nat) : State × Option Nat :=
  if 5 < v then (s, some 0x03000001)
  else if facetRole s p ≠ 0 then (s, some 0x04000001)
  else if v ≠ 0 ∧ 250000 < sumRates s p v then (s, some 0x03000002)
  else (setEnt s (0x3000 + p) 1 v, none)

/-- MODE_WRITE (R229, R230). -/
def execModeWrite (p v : Nat) (s : State) : Host.Outcome State Fault Refusal :=
  .next (if p < nFacets s then answered (modeWrite s p v) else answered (s, some 0x02000006))

/-- The role a mode allows (R235). -/
def roleAllowed (mode role : Nat) : Bool :=
  role == 0 || (role == 1 && (mode == 4 || mode == 5)) || (decide (2 ≤ role) && decide (1 ≤ mode) && decide (mode ≤ 3))

/-- The other facet of a pair mirror. -/
def pairOf (p : Nat) : Nat := if p % 2 = 0 then p + 1 else p - 1

/-- ROLE 5 is refused while the partner has another role, or the same role in another mode; the first of the two may take it alone (R235). -/
def pairRefused (s : State) (p : Nat) : Bool :=
  let r := facetRole s (pairOf p)
  (r != 0 && r != 5) || (r == 5 && facetMode s (pairOf p) != facetMode s p)

/-- A pair mirror's partner matches (R235); every other role has no partner to wait for. -/
def pairReady (s : State) (q : Nat) : Bool :=
  facetRole s q != 5 || (facetRole s (pairOf q) == 5 && facetMode s (pairOf q) == facetMode s q)

/-! ### The frame on the lane -/

/-- The frames on the lane: a mirror's second one is what it sends as tail (R235). -/
def lanesOf (f : Facet) : List LaneTx := f.lane.toList ++ f.back.toList

/-- The frame of descriptor `id` leaves the lane. -/
def offLane (id : Nat) (f : Facet) : Facet :=
  { f with lane := f.lane.filter fun t => t.desc.id != id, back := f.back.filter fun t => t.desc.id != id }

/-- How a bad frame of facet `q` is ended: ABT, or on Ethernet an inverted FCS with /V/ or with an error block (R249, R254). -/
def badEnd (s : State) (q : Nat) : FrameEnd :=
  if isEther s q then (if facetMode s q = 4 then .badFcs else .errorBlock) else .abt

/-- The two lane records change places, so that what is written of one serves the tail side of a mirror. -/
def swapLanes (s : State) (q : Nat) : State := modFacet s q fun f => { f with lane := f.back, back := f.lane }

/-! ### A frame being received ends (R249, R258) -/

/-- DROPS of a beam counts (R212, R225). -/
def incDrops (s : State) (b : Nat) : State := engineMod s b 3 fun x => { x with drops := if x.drops = 0xFFFFFFFF#32 then x.drops else x.drops + 1 }

/-- A held descriptor is held no longer (R219). -/
def unhold (s : State) (d : TxDesc) : State :=
  match d.tag with
  | some b => if d.held then engineMod s b 4 fun x => { x with heldtx := x.heldtx - 1 } else s
  | none => s

def freeBuf (s : State) (face idx : Nat) : State := modFacet s face fun f => { f with bufs := Tab.put idx .free f.bufs }

/-- The ingress of a relayed frame ends (R249): a good frame may now be sent and completed; a bad one is ended with ABT or dropped. -/
def relayEnd (s : State) (e id : Nat) (good : Bool) : State :=
  let q := laneOf s e
  let f := getFacet s q
  let up (d : TxDesc) : TxDesc := if d.id = id then { d with got := d.len } else d
  if good then
    setFacet s q { f with queue := f.queue.map up, deferred := f.deferred.map up, retry := f.retry.map up,
                          lane := f.lane.map fun t => { t with desc := up t.desc },
                          back := f.back.map fun t => { t with desc := up t.desc } }
  else
    let sending := ((lanesOf f).map fun t => t.desc).any fun d => d.id == id
    let lost := (f.queue ++ f.deferred ++ f.retry ++ f.await.map (fun a => a.desc) ++ ((lanesOf f).map fun t => t.desc)).filter fun d => d.id == id
    let s1 := setFacet s q
      (offLane id { f with queue := f.queue.filter fun d => d.id != id, deferred := f.deferred.filter fun d => d.id != id,
                           retry := f.retry.filter fun d => d.id != id, await := f.await.filter fun a => a.desc.id != id,
                           endOut := if sending then some (badEnd s q) else f.endOut })
    lost.foldl (fun t d =>
      let t1 := match d.poster with | .relay p i => freeBuf t p i | _ => t
      match d.tag with | some b => incDrops t1 b | none => t1) s1

/-- The egress learns how the ingress of a relayed frame ended. -/
def relayTell (s : State) (face e id : Nat) (good : Bool) : State :=
  if e / 8 = face / 8 then relayEnd s e id good
  else sendPacket s 1 .relay (routeBetween (face / 8) (e / 8)) 0 (.relayEnd e id good)

/-- A relay forward begun for a frame that then fails is ended (R249). -/
def endRelay (s : State) (q : Nat) (l : Option Lookup) : State :=
  match l with
  | some (.relay _ e (some id)) => relayTell s (faceOf s q) e id false
  | _ => s

/-- The frame now being received is discarded (R258). -/
def dropRx (s : State) (q : Nat) : State := endRelay (modFacet s q fun f => { f with look := none }) q (getFacet s q).look

/-! ### Deferral (R246) -/

/-- A frame that has not succeeded by the end of its cycle: deferred to the same slot of the next, or discarded past DEFMAX. -/
def deferFrame (q : Nat) (s : State) (d : TxDesc) : State :=
  let face := faceOf s q
  if cfg s face 9 < d.defers + 1 then setFevt (completeDesc s q d 2) face (fevtBit 10)
  else
    let s1 := modFacet s q fun f => { f with deferred := f.deferred ++ [{ d with defers := d.defers + 1, tries := 0, sent := true }] }
    setFevt (countFacet s1 q 0x11) face (fevtBit 9)

/-- The slot frames under way: on the lane, awaiting an ACK, in the retry queue. -/
def unfinished (f : Facet) : List TxDesc :=
  f.await.map (fun a => a.desc) ++ f.retry ++
    ((lanesOf f).map fun t => t.desc).filter fun d => d.slot != 0x1FF

/-- Only an unscheduled frame stays on the lane. -/
def keepUnscheduled (l : Option LaneTx) : Option LaneTx := l.filter fun t => t.desc.slot == 0x1FF

/-- Every slot frame under way is deferred. -/
def deferAll (s : State) (q : Nat) : State :=
  let ds := unfinished (getFacet s q)
  let s1 := modFacet s q fun f =>
    { f with await := [], retry := [], lane := keepUnscheduled f.lane, back := keepUnscheduled f.back }
  ds.foldl (deferFrame q) s1

/-! ### Rings and tables coming into force (R241, R246, R250) -/

def ringEmpty (f : Facet) : Bool := f.bufs.all fun e => e.2 == .free

/-- The stored RXBASE and RXN are loaded (R250). -/
def loadRing (s : State) (p : Nat) : State :=
  modFacet s p fun f => { f with ringBase := cfg s p 0x0C, ringN := cfg s p 0x0D, bufs := [], nextBuf := 0, reload := false }

/-- The ring as a facet leaves OFF: loaded, or kept until no buffer of it is held (R250). -/
def reloadRing (s : State) (p : Nat) : State :=
  if ringEmpty (getFacet s p) then loadRing s p else modFacet s p fun f => { f with reload := true }

/-- RING_RELOAD (R250). -/
def execRingReload (p : Nat) (s : State) : Host.Outcome State Fault Refusal :=
  let f := getFacet s p
  .next (if f.reload && ringEmpty f then loadRing s p else s)

/-- Slot `i` of a table; 0x1FF names no slot: it marks an unscheduled frame and a slot with no reverse slot (R237, R240). -/
def slotAt (x : Expo) (i : Nat) : Option SlotEnt := if i = 0x1FF then none else x.slots[i]?

/-- A deferred frame keeps its slot index if the new table's entry there has the same CHAN and DIR (R246). -/
def keepsSlot (old new : Expo) (d : TxDesc) : Bool :=
  match slotAt old d.slot, slotAt new d.slot with
  | some a, some b => a.chan == b.chan && a.dir == b.dir
  | _, _ => false

/-- A table comes into force: FEVT.SCHED, and the deferred frames whose slot it removes end with result 11 (R241, R246). -/
def applyTable (s : State) (q : Nat) (t : Expo) : State :=
  let f := getFacet s q
  let gone := f.deferred.filter fun d => !keepsSlot f.active t d
  let s1 := setFacet s q { f with active := t, pendTab := none, deferred := f.deferred.filter fun d => keepsSlot f.active t d }
  setFevt (gone.foldl (fun u d => completeDesc u q d 11) s1) (faceOf s1 q) (fevtBit 12)

/-- ACT of a table has been reached at cycle `n`, modulo 2^32 (R241). -/
def actReached (t : Expo) (n : Nat) : Bool := decide ((n % 2 ^ 32 + 2 ^ 32 - t.act) % 2 ^ 32 < 2 ^ 31)

/-- A pending table whose ACT has come is in force (R241). -/
def applyReached (s : State) (q : Nat) : State :=
  match (getFacet s q).pendTab with
  | some t => if actReached t (getFacet s q).cyc then applyTable s q t else s
  | none => s

/-- A pending table is in force at once in OFF and TRAIN (R241). -/
def applyPending (s : State) (q : Nat) : State :=
  match (getFacet s q).pendTab with
  | some t => applyTable s q t
  | none => s

/-! ### Link states (R247, R248) -/

/-- Training begins (again). -/
def startTraining (s : State) (q : Nat) : State :=
  modFacet s q fun f =>
    { f with train := { f.train with start := s.tb, probes := 0, echoes := 0, sum := 0, ready := false, good := 0, missed := 0,
                                     seen := false, holdTo := 0, lastCyc := none } }

/-- The facet leaves OFF (R247, R248, R250): its ring is loaded, a pending table is in force, and training begins. -/
def leaveOff (s : State) (p : Nat) : State := startTraining (setLinkState (applyPending (reloadRing s p) p) p 1) p

/-- The link is lost: the schedule stops, descriptors are kept, the retry queue is emptied into deferral (R247). -/
def retrain (s : State) (q : Nat) : State :=
  startTraining (setLinkState (modFacet (deferAll (dropRx s q) q) q fun f => { f with acks := [], ackOut := [] }) q 4) q

/-- The present link ends in OFF; descriptors stay queued, the facet has not reached RUN since (R235, R247). -/
def linkOff (s : State) (p : Nat) : State :=
  let s1 := deferAll (dropRx s p) p
  let s2 := modFacet s1 p fun f =>
    { f with acks := [], ackOut := [], stopped := false
             train := { Training.reset with peer := 0xFF#8 }, winErrs := 0, winBad := 0
             lane := none, back := none
             queue := (((lanesOf f).map fun t => t.desc).filter fun d => d.poster != .own) ++ f.queue }
  setLinkState s2 p 0

/-- The second facet of a pair mirror takes the one table that serves both ends from the first (R240). -/
def shareTable (s : State) (p : Nat) : State :=
  if facetRole s p = 5 ∧ pairReady s p then
    let g := getFacet s (pairOf p)
    modFacet s p fun f => { f with active := g.active, pendTab := g.pendTab }
  else s

/-- A write of ROLE (R235): an accepted write ends the link and starts it again from OFF; a retired facet stays RETIRED (R260). -/
def roleWrite (s : State) (p v : Nat) : State × Option Nat :=
  if 6 < v then (s, some 0x03000001)
  else if !roleAllowed (facetMode s p) v then (s, some 0x04000001)
  else if v = 5 ∧ pairRefused s p then (s, some 0x04000001)
  else
    let s1 := setEnt s (0x3000 + p) 2 v
    if (getFacet s p).retired then (s1, none)
    else
      let s2 := linkOff s1 p
      (if v = 0 then s2 else leaveOff (shareTable s2 p) p, none)

/-- ROLE_WRITE (R235). -/
def execRoleWrite (p v : Nat) (s : State) : Host.Outcome State Fault Refusal :=
  .next (if p < nFacets s then answered (roleWrite s p v) else answered (s, some 0x02000006))

/-- SYNC is entered: the cycle in hand is the one of this instant, and a pending table whose ACT has passed is in force (R241). -/
def enterSync (s : State) (q : Nat) : State :=
  let s1 := applyReached (modFacet s q fun f => { f with cyc := cycleNo f.active s.tb }) q
  setLinkState (modFacet s1 q fun f =>
    let n := cycleNo f.active s1.tb
    { f with cyc := n, prep := n, opened := [], carried := [],
             train := { f.train with good := 0, missed := 0, seen := false, lastCyc := none } }) q 2

/-- RUN is reached: the count of failed attempts clears (R247). -/
def enterRun (s : State) (q : Nat) : State :=
  setLinkState (modFacet s q fun f => { f with train := { f.train with reached := true, fails := 0, good := 0, missed := 0 } }) q 3

def training (f : Facet) : Bool := f.state == 1 || f.state == 4

/-- A training set may be sent or taken: the facet trains, its lane is not held after a REVGAP error and has signal unless the facet is a
mirror, a pair mirror's partner matches. -/
def mayTrain (s : State) (q : Nat) : Bool :=
  let f := getFacet s q
  training f && f.train.holdTo == 0 && !isEther s q && (f.signal || isMirror s q) && pairReady s q

/-- Byte 1 of the TRN sets a facet sends: its chain position, 0xFF outside relay role (R236). -/
def trnPos (s : State) (q : Nat) : Nat := if facetRole s q = 6 then s.chain.getD 0xFF else 0xFF

/-- The facet sends a TRN set (R236). -/
def sendTrn (s : State) (q type value leave : Nat) : State :=
  modFacet s q fun f => { f with trnOut := some { type, pos := trnPos s q, value, leave } }

/-- TRN_PROBE (R247): the head sends a probe with its send time every 1 µs. -/
def execTrnProbe (p : Nat) (s : State) : Host.Outcome State Fault Refusal :=
  let f := getFacet s p
  if mayTrain s p && isHead s p && decide (f.train.start + f.train.probes * 1000 ≤ s.tb) then
    .next (modFacet (sendTrn s p 0 s.tb s.tb) p fun f => { f with train := { f.train with probes := f.train.probes + 1 } })
  else .next s

/-- The peer's chain position is taken in relay role; an equal one is shown with FEVT.STATE (R247). -/
def takePeer (s : State) (p pos : Nat) : State :=
  if facetRole s p ≠ 6 then s
  else
    let s1 := modFacet s p fun f => { f with train := { f.train with peer := BitVec.ofNat 8 pos } }
    if s.chain = some pos then setFevt s1 p (fevtBit 8) else s1

/-- The positions of a relay link's ends are equal: both stay in TRAIN (R247). -/
def samePos (s : State) (p pos : Nat) : Bool := facetRole s p == 6 && s.chain == some pos

/-- TRN_PROBE_RECEPTION (R248): the tail sends the echo with the probe's time copied, 64 ns after the probe. -/
def execTrnProbeReception (p pos ts : Nat) (s : State) : Host.Outcome State Fault Refusal :=
  if mayTrain s p && isTail s p && decide (ts < 2 ^ 64) then .next (takePeer (sendTrn s p 1 ts (s.tb + 64)) p pos) else .next s

/-- TRN_ECHO_RECEPTION (R247): after the echoes of 16 probes the delay is measured and REVGAP checked. -/
def execTrnEchoReception (p pos sent arrived : Nat) (s : State) : Host.Outcome State Fault Refusal :=
  if !(mayTrain s p && isHead s p) then .next s
  else
    let s1 := takePeer s p pos
    if samePos s p pos then .next s1
    else
      let t := (getFacet s1 p).train
      let e := t.echoes + 1
      let sum := t.sum + (arrived - sent - 64)
      if e < 16 then .next (modFacet s1 p fun f => { f with train := { f.train with echoes := e, sum } })
      else
        let d := (sum + 31) / 32
        let s2 := modFacet s1 p fun f => { f with train := { f.train with echoes := 0, sum := 0, delay := d } }
        if (getFacet s2 p).active.revgap < 2 * d + 64 then
          .next (setFevt (modFacet s2 p fun f => { f with train := { f.train with holdTo := s.tb + 10000000 } }) p (fevtBit 13))
        else .next (enterSync (modFacet (sendTrn s2 p 2 d s.tb) p fun f => { f with train := { f.train with ready := true } }) p)

/-- TRN_READY_RECEPTION (R248): the tail takes the delay and enters SYNC; ends at equal positions stay in TRAIN (R247). -/
def execTrnReadyReception (p d : Nat) (s : State) : Host.Outcome State Fault Refusal :=
  if mayTrain s p && isTail s p && !samePos s p (getFacet s p).train.peer.toNat then
    .next (enterSync (modFacet s p fun f => { f with train := { f.train with delay := d } }) p)
  else .next s

/-- A CYC lies within 32 ns of a local boundary and the link delay, and carries that cycle's number (R247, R248). -/
def cycGood (x : Expo) (d cyc arrived : Nat) : Bool :=
  let n := cycleNo x (arrived + 32 - d)
  let b := boundaryAt x n + d
  decide (b ≤ arrived + 32) && decide (arrived ≤ b + 32) && decide (n % 2 ^ 32 = cyc)

/-- Good CYCs of consecutive cycles in a row, with one of number `cyc` taken in (R247, R248): one of the same cycle counts once. -/
def goodInRow (t : Training) (cyc : Nat) : Nat :=
  match t.lastCyc with
  | none => 1
  | some c => if cyc = (c + 1) % 2 ^ 32 then t.good + 1 else if cyc = c then t.good else 1

/-- A CYC compared against the local boundary (R247, R248). -/
def cycReceive (s : State) (q cyc arrived : Nat) : State :=
  let f := getFacet s q
  let g := cycGood f.active f.train.delay cyc arrived
  let n := if g then goodInRow f.train cyc else 0
  let s1 := modFacet s q fun f =>
    { f with train := { f.train with seen := true, missed := 0, good := n, lastCyc := if g then some cyc else none } }
  if f.state = 2 then (if 2 ≤ n then enterRun s1 q else s1)
  else if !g && isTail s q then setFevt s1 (faceOf s1 q) (fevtBit 14)
  else s1

/-- Synchronisation or signal is lost (R247, R248). A link in SYNC starts its count again; training starts its echoes again; an Ethernet link
goes back to TRAIN. -/
def lostSync (s : State) (q : Nat) : State :=
  let f := getFacet s q
  if isEther s q then (if f.state = 3 then startTraining (setLinkState (deferAll (dropRx s q) q) q 1) q else s)
  else if f.state = 3 then retrain s q
  else if f.state = 2 then modFacet s q fun f => { f with train := { f.train with good := 0, lastCyc := none } }
  else if training f then modFacet s q fun f => { f with train := { f.train with echoes := 0, sum := 0 } }
  else s

/-- LOSS_OF_SYNCHRONISATION (R236, R247, R248, R261): on a Beam link its four code violations are counted; a mirror's lane input is ignored
(R235). -/
def execLossOfSynchronisation (p : Nat) (s : State) : Host.Outcome State Fault Refusal :=
  let f := getFacet s p
  if p < nFacets s ∧ f.state ≠ 0 ∧ f.state ≠ 5 ∧ ¬ isMirror s p then
    let n := if isEther s p then 1 else 4
    .next (lostSync (modFacet (countFacetBy s p 9 n) p fun f => { f with winErrs := f.winErrs + n }) p)
  else .next s

/-- Signal detect of a lane becomes false (R247, R248, R261). -/
def loseSignal (s : State) (p : Nat) : State :=
  let f := getFacet s p
  if f.signal ∧ f.state ≠ 0 ∧ f.state ≠ 5 ∧ ¬ isMirror s p then lostSync (modFacet s p fun f => { f with signal := false, lostAt := some s.tb }) p else s

/-- LOSS_OF_SIGNAL (R247, R248, R261). -/
def execLossOfSignal (p : Nat) (s : State) : Host.Outcome State Fault Refusal := .next (if p < nFacets s then loseSignal s p else s)

/-- The balls are driven from the boundary register (R461). -/
def ballsDriven (s : State) : Bool :=
  match s.tap.ir with
  | .extest => true
  | .extestPulse => true
  | .extestTrain => true
  | .highz => true
  | .clamp => true
  | _ => false

/-- SIGNAL_DETECT_RETURN (R261, R461). -/
def execSignalDetectReturn (p : Nat) (s : State) : Host.Outcome State Fault Refusal :=
  .next (if p < nFacets s ∧ !ballsDriven s then modFacet s p fun f => { f with signal := true, lostAt := none } else s)

/-- Clause 37 auto-negotiation is to be made: mode 4 with 0x3000 + p:05 = 1 (R232). -/
def negotiates (s : State) (p : Nat) : Bool := facetMode s p == 4 && cfg s p 5 == 1

/-- ETHERNET_LINK_UP (R232, R248): the PCS has its synchronisation or block lock. STATE reads RUN once auto-negotiation is complete as well; a
partner without FD leaves the link down and counts at 0x3100 + p:15. Whether it has FD is a free value (log entry 116). -/
def execEthernetLinkUp (p : Nat) (s : State) : Host.Outcome State Fault Refusal :=
  let f := getFacet s p
  if p < nFacets s ∧ isEther s p ∧ f.state = 1 ∧ f.signal then
    if negotiates s p ∧ Config.partnerFd s.free p = false then .next (countFacet { s with free := s.free + 1 } p 0x15)
    else
    let s := if negotiates s p then { s with free := s.free + 1 } else s
    .next (enterRun (modFacet s p fun f => { f with cyc := cycleNo f.active s.tb, prep := cycleNo f.active s.tb, opened := [], carried := [] }) p)
  else .next s

/-! ### Exposure tables (R240, R241) -/

/-- A little-endian field of `n` octets at `o`. -/
def leAt (v : Octets) (o n : Nat) : Nat := ofLe ((v.drop o).take n)

def slotOf (v : Octets) (i : Nat) : SlotEnt :=
  let e0 := leAt v (32 + 16 * i) 4
  let e1 := leAt v (36 + 16 * i) 4
  let e2 := leAt v (40 + 16 * i) 4
  { start := e0 % 2 ^ 22, dir := e0 / 2 ^ 22 % 2, latest := e0 / 2 ^ 23 % 2 == 1, cls := e0 / 2 ^ 24 % 8, dur := e1 % 2 ^ 22,
    chan := e2 % 2 ^ 16, rev := e2 / 2 ^ 16 % 512, ackroom := e2 / 2 ^ 25 % 8 }

/-- The reserved bits and octets of a table are 0. -/
def expoReserved (v : Octets) (n : Nat) : Bool :=
  leAt v 28 4 == 0 &&
  (List.range n).all fun i =>
    decide (leAt v (32 + 16 * i) 4 < 2 ^ 27) && decide (leAt v (36 + 16 * i) 4 < 2 ^ 22) &&
    decide (leAt v (40 + 16 * i) 4 < 2 ^ 28) && leAt v (44 + 16 * i) 4 == 0

/-- A table as it is laid out, if FORMAT, NSLOT, the length and the reserved bits are right. -/
def parseExpo (v : Octets) : Option Expo :=
  let n := leAt v 2 2
  if v.length < 32 ∨ leAt v 0 2 ≠ 1 ∨ 512 < n ∨ v.length ≠ 32 + 16 * n ∨ !expoReserved v n then none
  else
    some { cycle := leAt v 4 4, margin := leAt v 8 4, phase := leAt v 12 4, lead := leAt v 16 4, act := leAt v 20 4,
           revgap := leAt v 24 2, guard := leAt v 26 2, slots := (List.range n).map (slotOf v), raw := v }

/-- The entries of one DIR come in rising START and do not overlap. -/
def dirOrdered : List SlotEnt → Bool
  | a :: b :: t => decide (a.start < b.start) && decide (a.start + a.dur ≤ b.start) && dirOrdered (b :: t)
  | _ => true

/-- The checks of one entry against the table (R241). `c` is the character time in tenths of ns. -/
def slotGood (x : Expo) (ether : Bool) (c : Nat) (e : SlotEnt) : Bool :=
  decide (15 * c ≤ 10 * e.start) && decide (e.start + e.dur + x.margin ≤ x.cycle) &&
  decide ((5 * e.ackroom + 20) * c ≤ 10 * e.dur) &&
  (e.rev == 0x1FF ||
    match slotAt x e.rev with
    | none => false
    | some r => r.dir != e.dir && decide (e.start + e.dur + x.revgap ≤ r.start)) &&
  !(ether && (e.dir == 1 || e.rev != 0x1FF || e.ackroom != 0))

/-- Every slot that is named as a reverse slot has room for the ACK sets of the slots naming it. -/
def ackRoomGood (x : Expo) : Bool :=
  (List.range x.slots.length).all fun i =>
    match slotAt x i with
    | none => true
    | some r => decide ((x.slots.filter fun e => e.rev == i).length ≤ r.ackroom)

def expoRanges (x : Expo) : Bool :=
  decide (31250 ≤ x.cycle) && decide (x.cycle ≤ 4000000) && decide (1000 ≤ x.margin) && decide (2 * x.margin ≤ x.cycle) &&
  decide (x.phase < x.cycle) && decide (x.lead < x.cycle)

def expoGood (s : State) (p : Nat) (x : Expo) : Bool :=
  expoRanges x && dirOrdered (x.slots.filter fun e => e.dir == 0) && dirOrdered (x.slots.filter fun e => e.dir == 1) &&
  x.slots.all (slotGood x (isEther s p) (charTime (facetMode s p))) && ackRoomGood x

/-- ACT lies at least 2 cycles after the current cycle, modulo 2^32 (R241). -/
def actAhead (act now : Nat) : Bool :=
  let d := (act + 2 ^ 32 - now % 2 ^ 32) % 2 ^ 32
  decide (2 ≤ d) && decide (d < 2 ^ 31)

def linkUp (f : Facet) : Bool := f.state == 2 || f.state == 3

/-- An accepted table is held as pending, or in force at once in OFF and TRAIN (R241). -/
def pendTable (s : State) (q : Nat) (x : Expo) : State :=
  let s1 := modFacet s q fun f => { f with pendTab := some x }
  if (getFacet s q).state = 0 ∨ (getFacet s q).state = 1 then applyPending s1 q else s1

/-- A write of the exposure table domain (R241): checked whole, then held as pending, or in force at once where the link is not up. The table
of a facet that another stands in for is carried there (R265). The one table of a pair mirror serves both ends (R240). -/
def expoWrite (s : State) (p : Nat) (v : Octets) : State × Option Nat :=
  match parseExpo v with
  | none => (s, some 0x03000001)
  | some x =>
    let q := laneOf s p
    let f := getFacet s q
    if !expoGood s p x then (s, some 0x03000001)
    else if (f.standsFor.isSome && q == p) then (modFacet s p fun f => { f with ownTab := some x }, none)
    else if linkUp f && (x.cycle != f.active.cycle || x.phase != f.active.phase) then (s, some 0x04000001)
    else if linkUp f && !actAhead x.act f.cyc then (s, some 0x04000001)
    else
      (if facetRole s q = 5 ∧ facetRole s (pairOf q) = 5 then pendTable (pendTable s q x) (pairOf q) x else pendTable s q x, none)

/-- EXPOSURE_TABLE_WRITE (R241). -/
def execExposureTableWrite (p : Nat) (t : Octets) (s : State) : Host.Outcome State Fault Refusal :=
  .next (if p < nFacets s then answered (expoWrite s p t) else answered (s, some 0x02000006))

/-- What a read of the domain answers (R241). -/
def expoRead (s : State) (p : Nat) : Octets :=
  let f := getFacet s (laneOf s p)
  if f.standsFor.isSome && laneOf s p == p then (f.ownTab.getD Expo.dflt).raw
  else match f.pendTab with | some t => t.raw | none => f.active.raw

end Sys2Proof.Machine
end

