-- ==== Sys2Proof/Machine/Entries.lean ====
section
/-! DEFINITION. The entries of the dictionary with their types, access codes and roles (R322 to R324, R343 to R361), and what a STORE or a
RESTORE writes into the parameter store (R334). -/

namespace Sys2Proof.Machine

/-! ### The entries -/

/-- An access code (R324). -/
inductive Acc where
  | const | ro | wo | rw | rws
  deriving DecidableEq, Repr

/-- An entry: its type code (R323), access code and role (0 observer, 1 operator, 2 engineer). -/
structure EntInfo where
  ty   : Nat
  acc  : Acc
  role : Nat
  deriving DecidableEq, Repr

/-- The octets of a fixed-size type; 0 for VSTR, OSTR and DOMAIN (R323). -/
def tySize (ty : Nat) : Nat :=
  if ty = 1 ∨ ty = 2 ∨ ty = 6 then 1 else if ty = 3 ∨ ty = 7 then 2 else if ty = 4 ∨ ty = 8 ∨ ty = 10 then 4 else if ty = 5 ∨ ty = 9 then 8 else 0

def constU8 : EntInfo := { ty := 2, acc := .const, role := 0 }
def roOf (ty : Nat) : EntInfo := { ty, acc := .ro, role := 0 }
def constOf (ty : Nat) : EntInfo := { ty, acc := .const, role := 0 }
def countOf (ty : Nat) : EntInfo := { ty, acc := .rw, role := 1 }
def rwsOf (ty : Nat) : EntInfo := { ty, acc := .rws, role := 2 }
def rwEng (ty : Nat) : EntInfo := { ty, acc := .rw, role := 2 }
def woEng (ty : Nat) : EntInfo := { ty, acc := .wo, role := 2 }

/-- The entry at place `sub` of a list that begins at subindex 1. -/
def nthInfo (l : List EntInfo) (sub : Nat) : Option EntInfo := if sub = 0 then some constU8 else l[sub - 1]?

/-- The entries of facet configuration (R256). -/
def facetInfo : List EntInfo := [2, 2, 5, 1, 1, 2, 2, 2, 2, 3, 4, 4, 2].map rwsOf

/-- The entries of facet status (R355). -/
def facetStatInfo (sub : Nat) : Option EntInfo :=
  if sub = 0 then some constU8 else if sub = 1 ∨ sub = 3 then some (roOf 2) else if sub = 2 then some (roOf 3)
  else if sub ≤ 7 then some (countOf 5) else if sub ≤ 0x17 then some (countOf 4) else none

/-- The entries of a core's status (R283, R357). -/
def coreInfo : List EntInfo := [roOf 2, roOf 2, roOf 4, roOf 3, countOf 4, woEng 2, roOf 2, roOf 3]

/-- The entries of a cluster (R176, R274, R358). -/
def clusterInfo (sub : Nat) : Option EntInfo :=
  if sub = 0 then some constU8 else if sub ≤ 2 then some (rwsOf 2) else if sub = 3 then some (countOf 4)
  else if sub ≤ 8 then some (roOf 2) else if sub = 9 then some (roOf 1) else if sub ≤ 0x0B then some (roOf 2)
  else if sub ≤ 0x0F then none else if sub ≤ 0x1F then some (countOf 4) else none

/-- The entries of a quadrant (R359). -/
def quadInfo : List EntInfo := [roOf 7, roOf 3, rwsOf 3, countOf 4, roOf 2, roOf 1, countOf 4, countOf 4, countOf 4, countOf 4]

/-- The entries of a channel's configuration and values (R319). -/
def chanCfgInfo : List EntInfo := [2, 2, 1, 2, 3, 3, 3, 3, 3, 8, 8, 8, 8, 8, 4, 4, 4, 4].map rwsOf
def chanValInfo : List EntInfo :=
  [roOf 8, roOf 8, roOf 3, roOf 4, { ty := 8, acc := .rw, role := 1 }, { ty := 3, acc := .rw, role := 1 }, { ty := 4, acc := .wo, role := 1 },
    { ty := 1, acc := .wo, role := 1 }]

/-- The entry of an index and subindex; none where the subindex is reserved (R322, R344). The index is known. -/
def entInfo (idx sub : Nat) : Option EntInfo :=
  if 0x3000 ≤ idx ∧ idx < 0x3100 then nthInfo facetInfo sub
  else if 0x3100 ≤ idx ∧ idx < 0x3200 then facetStatInfo sub
  else if 0x3200 ≤ idx ∧ idx < 0x3300 then (if sub = 0 then some (rwsOf 13) else none)
  else if 0x4000 ≤ idx ∧ idx < 0x4082 then nthInfo coreInfo sub
  else if 0x4100 ≤ idx ∧ idx < 0x4120 then clusterInfo sub
  else if 0x4200 ≤ idx ∧ idx < 0x4204 then nthInfo quadInfo sub
  else if 0x5000 ≤ idx ∧ idx < 0x5010 then nthInfo chanCfgInfo sub
  else if 0x5100 ≤ idx ∧ idx < 0x5110 then nthInfo chanValInfo sub
  else if 0x7000 ≤ idx ∧ idx < 0x7008 then (if sub = 0 then some constU8 else if sub ≤ 128 then some (rwsOf 3) else none)
  else if 0x1131 ≤ idx ∧ idx ≤ 0x1138 then nthInfo [woEng 12, rwsOf 4, roOf 1] sub
  else
    let arr (n : Nat) (e : EntInfo) : Option EntInfo := if sub = 0 then some constU8 else if sub ≤ n then some e else none
    match idx with
    | 0x1000 => nthInfo [constOf 11, constOf 11, constOf 2, constOf 3, constOf 5, constOf 4] sub
    | 0x1010 => nthInfo [constOf 4, constOf 2, constOf 3, constOf 2, constOf 3, constOf 4, constOf 1, constOf 4] sub
    | 0x1011 => nthInfo [roOf 2, roOf 3, roOf 2, roOf 2, roOf 2, roOf 1] sub
    | 0x1100 => nthInfo [rwsOf 2] sub
    | 0x1101 => nthInfo [rwsOf 2, rwsOf 2, rwsOf 1] sub
    | 0x1102 => nthInfo [rwsOf 3] sub
    | 0x1103 => nthInfo [rwsOf 3] sub
    | 0x1110 => nthInfo [woEng 12, woEng 12, rwsOf 3, rwsOf 1, countOf 4] sub
    | 0x1120 => nthInfo [woEng 12, roOf 5, roOf 1, countOf 4] sub
    | 0x1200 => nthInfo [roOf 2, countOf 4, countOf 4] sub
    | 0x1201 => arr 64 (roOf 12)
    | 0x2000 => nthInfo [rwsOf 2, rwsOf 1, rwsOf 2] sub
    | 0x2001 => nthInfo [woEng 3, woEng 2, woEng 2] sub
    | 0x2010 => arr 32 (rwsOf 2)
    | 0x2011 => arr 32 (roOf 3)
    | 0x2080 => nthInfo [woEng 3, woEng 3, woEng 2, woEng 2, roOf 4, roOf 12] sub
    | 0x2100 => nthInfo [rwsOf 3, roOf 3, roOf 4, roOf 7, roOf 2, countOf 4] sub
    | 0x2101 => arr 32 (rwsOf 3)
    | 0x2102 => arr 32 (roOf 3)
    | 0x2103 => arr 32 (roOf 4)
    | 0x2200 => nthInfo [countOf 5, roOf 3, roOf 5, rwsOf 2, roOf 8, roOf 2, countOf 12, roOf 12, rwsOf 3, countOf 2] sub
    | 0x2300 => nthInfo [roOf 2, roOf 2, roOf 2, roOf 4, roOf 4, woEng 13, rwEng 2, rwsOf 2, roOf 4, roOf 12] sub
    | 0x2400 => nthInfo [rwsOf 4, rwsOf 1, rwsOf 3, roOf 4, countOf 4, countOf 4, countOf 4, roOf 4] sub
    | 0x6000 => arr 16 (rwEng 4)
    | 0x6001 => if sub = 0 then some (countOf 3) else none
    | 0x9000 => nthInfo [rwsOf 2, roOf 1, roOf 4] sub
    | 0x9001 => nthInfo [rwEng 3, rwEng 2, rwEng 3, rwEng 4, rwEng 2] sub
    | 0x9002 => nthInfo [rwEng 2, rwEng 2] sub
    | 0x9003 => nthInfo [rwEng 2, rwEng 2] sub
    | 0x9004 => nthInfo [rwEng 3, rwEng 2, rwEng 3, rwEng 4, rwEng 2] sub
    | _ => none

/-! ### The parameter store (R334) -/

/-- A stored number: an entry of access RWS, or the count of permanent words, which STORE keeps (R354). -/
def isStored (key : Nat) : Bool :=
  key == entKey 0x2400 8 || (match entInfo (key / 256) (key % 256) with | some e => e.acc == .rws | none => false)

/-- The exposure tables that differ from their default (R356). -/
def storedTables (s : State) : Tab Octets :=
  ((List.range (nFacets s)).map fun p => (p, expoRead s p)).filter fun e => e.2 != Expo.dflt.raw

/-- What a STORE captures at its start (R334); the remap tables and the retirements stand in the state itself (R414). -/
def captureStore (s : State) : StoreCopy :=
  { gen := (s.edp.active.gen + 1) % 2 ^ 32, good := true, ents := s.ent.filter fun e => isStored e.1, tables := storedTables s, unset := 0 }

/-- The entry at a key keeps its stored value in a RESTORE of a scope (R334, R347). -/
def outOfScope (scope key : Nat) : Bool :=
  let idx := key / 256
  key == entKey 0x2400 8 ||
  (if scope = 0 then decide (0x1100 ≤ idx) && decide (idx < 0x1200) else decide (0x1131 ≤ idx) && decide (idx < 0x1139))

/-- What a RESTORE writes (R334): scope 1 also unsets the keys of 0x1110 and 0x1120. -/
def captureRestore (s : State) (scope : Nat) : StoreCopy :=
  let a := s.edp.active
  { gen := (a.gen + 1) % 2 ^ 32, good := true, ents := a.ents.filter fun e => outOfScope scope e.1, tables := []
    unset := if scope = 1 then 7 else a.unset }

/-- The copy a job writes: kind 0 a STORE, 1 and 2 a RESTORE of scope 0 and 1. -/
def captureJob (s : State) (kind : Nat) : StoreCopy := if kind = 0 then captureStore s else captureRestore s (kind - 1)

/-- The first job begins, unless PFAIL_N keeps the parameter store from a new write (R342, R401). -/
def startJob (s : State) : State :=
  match s.edp.jobs with
  | [] => s
  | j :: rest =>
    if s.power.pfail ∨ j.copy.isSome then s
    else { s with edp := { s.edp with jobs := { j with copy := some (captureJob s j.kind) } :: rest } }

/-- A failover restarts the job under way (R278). -/
def restartJob (s : State) : State :=
  match s.edp.jobs with
  | [] => s
  | j :: rest => startJob { s with edp := { s.edp with jobs := { j with copy := none } :: rest } }

end Sys2Proof.Machine
end

