-- ==== Sys2Proof/Machine/Ed25519.lean ====
section
/-! DEFINITION. SHA-512 of FIPS 180-4 and the verification of pure Ed25519 under RFC 8032, which the spec names for image signatures (R385; log
entry 12). -/

namespace Sys2Proof.Machine

/-- The round constants of SHA-512. -/
def sha5K : List Nat :=
  [0x428a2f98d728ae22, 0x7137449123ef65cd, 0xb5c0fbcfec4d3b2f, 0xe9b5dba58189dbbc] ++
  [0x3956c25bf348b538, 0x59f111f1b605d019, 0x923f82a4af194f9b, 0xab1c5ed5da6d8118] ++
  [0xd807aa98a3030242, 0x12835b0145706fbe, 0x243185be4ee4b28c, 0x550c7dc3d5ffb4e2] ++
  [0x72be5d74f27b896f, 0x80deb1fe3b1696b1, 0x9bdc06a725c71235, 0xc19bf174cf692694] ++
  [0xe49b69c19ef14ad2, 0xefbe4786384f25e3, 0x0fc19dc68b8cd5b5, 0x240ca1cc77ac9c65] ++
  [0x2de92c6f592b0275, 0x4a7484aa6ea6e483, 0x5cb0a9dcbd41fbd4, 0x76f988da831153b5] ++
  [0x983e5152ee66dfab, 0xa831c66d2db43210, 0xb00327c898fb213f, 0xbf597fc7beef0ee4] ++
  [0xc6e00bf33da88fc2, 0xd5a79147930aa725, 0x06ca6351e003826f, 0x142929670a0e6e70] ++
  [0x27b70a8546d22ffc, 0x2e1b21385c26c926, 0x4d2c6dfc5ac42aed, 0x53380d139d95b3df] ++
  [0x650a73548baf63de, 0x766a0abb3c77b2a8, 0x81c2c92e47edaee6, 0x92722c851482353b] ++
  [0xa2bfe8a14cf10364, 0xa81a664bbc423001, 0xc24b8b70d0f89791, 0xc76c51a30654be30] ++
  [0xd192e819d6ef5218, 0xd69906245565a910, 0xf40e35855771202a, 0x106aa07032bbd1b8] ++
  [0x19a4c116b8d2d0c8, 0x1e376c085141ab53, 0x2748774cdf8eeb99, 0x34b0bcb5e19b48a8] ++
  [0x391c0cb3c5c95a63, 0x4ed8aa4ae3418acb, 0x5b9cca4f7763e373, 0x682e6ff3d6b2b8a3] ++
  [0x748f82ee5defb2fc, 0x78a5636f43172f60, 0x84c87814a1f0ab72, 0x8cc702081a6439ec] ++
  [0x90befffa23631e28, 0xa4506cebde82bde9, 0xbef9a3f7b2c67915, 0xc67178f2e372532b] ++
  [0xca273eceea26619c, 0xd186b8c721c0c207, 0xeada7dd6cde0eb1e, 0xf57d4f7fee6ed178] ++
  [0x06f067aa72176fba, 0x0a637dc5a2c898a6, 0x113f9804bef90dae, 0x1b710b35131c471b] ++
  [0x28db77f523047d84, 0x32caab7b40c72493, 0x3c9ebe0a15c9bebc, 0x431d67c49c100d4c] ++
  [0x4cc5d4becb3e42b6, 0x597f299cfc657e2a, 0x5fcb6fab3ad6faec, 0x6c44198c4a475817]

/-- The initial hash value of SHA-512. -/
def sha5Init : List (BitVec 64) :=
  [0x6a09e667f3bcc908#64, 0xbb67ae8584caa73b#64, 0x3c6ef372fe94f82b#64, 0xa54ff53a5f1d36f1#64,
   0x510e527fade682d1#64, 0x9b05688c2b3e6c1f#64, 0x1f83d9abfb41bd6b#64, 0x5be0cd19137e2179#64]

def sha5Small0 (x : BitVec 64) : BitVec 64 := x.rotateRight 1 ^^^ x.rotateRight 8 ^^^ (x >>> 7)
def sha5Small1 (x : BitVec 64) : BitVec 64 := x.rotateRight 19 ^^^ x.rotateRight 61 ^^^ (x >>> 6)

/-- The message schedule, newest word first, extended by `n` words. -/
def sha5Extend : Nat → List (BitVec 64) → List (BitVec 64)
  | 0, w => w
  | n + 1, w => sha5Extend n ((sha5Small1 (w.getD 1 0) + w.getD 6 0 + sha5Small0 (w.getD 14 0) + w.getD 15 0) :: w)

/-- One round on the eight working words. -/
def sha5Round (v : List (BitVec 64)) (kw : BitVec 64) : List (BitVec 64) :=
  match v with
  | [a, b, c, d, e, f, g, h] =>
    let t1 := h + (e.rotateRight 14 ^^^ e.rotateRight 18 ^^^ e.rotateRight 41) + ((e &&& f) ^^^ (~~~e &&& g)) + kw
    [t1 + (a.rotateRight 28 ^^^ a.rotateRight 34 ^^^ a.rotateRight 39) + ((a &&& b) ^^^ (a &&& c) ^^^ (b &&& c)), a, b, c, d + t1, e, f, g]
  | v => v

/-- Octets as a number, the first most significant. -/
def beNum (v : Octets) : Nat := v.foldl (fun (n : Nat) (b : Byte) => 256 * n + b.toNat) 0

/-- A 128-octet block is taken into the hash value. -/
def sha5Block (h : List (BitVec 64)) (blk : Octets) : List (BitVec 64) :=
  let w0 := (List.range 16).map fun i => BitVec.ofNat 64 (beNum ((blk.drop (8 * i)).take 8))
  let kw := (sha5K.zip (sha5Extend 64 w0.reverse).reverse).map fun e => BitVec.ofNat 64 e.1 + e.2
  (h.zip (kw.foldl sha5Round h)).map fun e => e.1 + e.2

/-- SHA-512: 64 octets. -/
def sha512 (v : Octets) : Octets :=
  let z := (239 - v.length % 128) % 128
  let m := v ++ [0x80#8] ++ List.replicate z 0 ++ (leOctets 16 (8 * v.length)).reverse
  ((List.range (m.length / 128)).foldl (fun h i => sha5Block h ((m.drop (128 * i)).take 128)) sha5Init).flatMap fun x => (leOctets 8 x.toNat).reverse

/-! ### The curve -/

/-- The prime of the field, the constant d, a root of -1, and the order of the base point. -/
def edP : Nat := 2 ^ 255 - 19
def edD : Nat := 37095705934669439343138083508754565189542113879843219016388785533085940283555
def edRoot : Nat := 19681161376707505956807079304988542015446066515923890162744021073123829784752
def edL : Nat := 2 ^ 252 + 27742317777372353535851937790883648493

/-- `a` to the power whose bits, most significant first, are those of `e` below bit `n`. -/
def edPow (a e : Nat) : Nat → Nat
  | 0 => 1
  | n + 1 => let r := edPow a (e / 2) n; if e % 2 = 1 then r * r % edP * a % edP else r * r % edP

def edSub (a b : Nat) : Nat := (a + edP - b % edP) % edP

/-- A point in extended coordinates: x = X/Z, y = Y/Z, T = XY/Z. -/
structure EdPoint where
  x : Nat
  y : Nat
  z : Nat
  t : Nat
  deriving DecidableEq, Repr

/-- The base point and the neutral element. -/
def edBase : EdPoint :=
  { x := 15112221349535400772501151409588531511454012693041857206046113283949847762202, y := 46316835694926478169428394003475163141307993866256225615783033603165251855960, z := 1,
    t := 46827403850823179245072216630277197565144205554125654976674165829533817101731 }

def edZero : EdPoint := { x := 0, y := 1, z := 1, t := 0 }

/-- The sum of two points (RFC 8032, 5.1.4). -/
def edAdd (p q : EdPoint) : EdPoint :=
  let a := edSub p.y p.x * edSub q.y q.x % edP
  let b := (p.y + p.x) * (q.y + q.x) % edP
  let c := p.t * 2 % edP * edD % edP * q.t % edP
  let d := p.z * 2 * q.z % edP
  let e := edSub b a
  let f := edSub d c
  let g := (d + c) % edP
  let h := (b + a) % edP
  { x := e * f % edP, y := g * h % edP, z := f * g % edP, t := e * h % edP }

/-- The multiple of a point by the `n` low bits of `k`. -/
def edMul (p : EdPoint) (k : Nat) : Nat → EdPoint
  | 0 => edZero
  | n + 1 => let r := edMul p (k / 2) n; let d := edAdd r r; if k % 2 = 1 then edAdd d p else d

/-- Two points are the same. -/
def edSame (p q : EdPoint) : Bool := decide (p.x * q.z % edP = q.x * p.z % edP) && decide (p.y * q.z % edP = q.y * p.z % edP)

/-- The point 32 octets encode, if they do (RFC 8032, 5.1.3). -/
def edDecode (v : Octets) : Option EdPoint :=
  let n := ofLe (v.take 32)
  let y := n % 2 ^ 255
  let sign := n / 2 ^ 255
  if v.length ≠ 32 ∨ edP ≤ y then none
  else
    let u := edSub (y * y) 1
    let w := (edD * (y * y % edP) + 1) % edP
    let r := u * edPow w 3 2 % edP * edPow (u * edPow w 7 3 % edP) ((edP - 5) / 8) 252 % edP
    let rr := w * (r * r % edP) % edP
    let root := if rr = u then some r else if rr = (edP - u) % edP then some (r * edRoot % edP) else none
    match root with
    | none => none
    | some x =>
      if x = 0 ∧ sign = 1 then none
      else
        let x1 := if x % 2 = sign then x else edP - x
        some { x := x1, y, z := 1, t := x1 * y % edP }

/-- Pure Ed25519 verification (RFC 8032, 5.1.7) of a signature of 64 octets over a message under a public key. RFC 8032 lets a verifier check the
group equation with or without its cofactor 8: `Config.edCofactor` (log entry 12). -/
def ed25519Verify (pub msg sig : Octets) : Bool :=
  let n := ofLe (sig.drop 32)
  match edDecode pub, edDecode (sig.take 32) with
  | some a, some r =>
    let k := ofLe (sha512 (sig.take 32 ++ pub ++ msg)) % edL
    let m := if Config.edCofactor then 8 else 1
    decide (sig.length = 64) && decide (n < edL) && edSame (edMul (edMul edBase n 253) m 4) (edMul (edAdd r (edMul a k 253)) m 4)
  | _, _ => false

end Sys2Proof.Machine
end

