-- ==== Sys2Proof/Machine/Gcm.lean ====
section
/-! DEFINITION. AES-256-GCM, which the spec names for protected frames (R239): AES-256 of FIPS 197, GCM of NIST SP 800-38D with a 96-bit IV and a
16-octet tag (log entry 12). -/

namespace Sys2Proof.Machine

/-- The S-box of AES. -/
def aesBox : List Byte :=
  [0x63, 0x7c, 0x77, 0x7b, 0xf2, 0x6b, 0x6f, 0xc5, 0x30, 0x01, 0x67, 0x2b, 0xfe, 0xd7, 0xab, 0x76] ++
  [0xca, 0x82, 0xc9, 0x7d, 0xfa, 0x59, 0x47, 0xf0, 0xad, 0xd4, 0xa2, 0xaf, 0x9c, 0xa4, 0x72, 0xc0] ++
  [0xb7, 0xfd, 0x93, 0x26, 0x36, 0x3f, 0xf7, 0xcc, 0x34, 0xa5, 0xe5, 0xf1, 0x71, 0xd8, 0x31, 0x15] ++
  [0x04, 0xc7, 0x23, 0xc3, 0x18, 0x96, 0x05, 0x9a, 0x07, 0x12, 0x80, 0xe2, 0xeb, 0x27, 0xb2, 0x75] ++
  [0x09, 0x83, 0x2c, 0x1a, 0x1b, 0x6e, 0x5a, 0xa0, 0x52, 0x3b, 0xd6, 0xb3, 0x29, 0xe3, 0x2f, 0x84] ++
  [0x53, 0xd1, 0x00, 0xed, 0x20, 0xfc, 0xb1, 0x5b, 0x6a, 0xcb, 0xbe, 0x39, 0x4a, 0x4c, 0x58, 0xcf] ++
  [0xd0, 0xef, 0xaa, 0xfb, 0x43, 0x4d, 0x33, 0x85, 0x45, 0xf9, 0x02, 0x7f, 0x50, 0x3c, 0x9f, 0xa8] ++
  [0x51, 0xa3, 0x40, 0x8f, 0x92, 0x9d, 0x38, 0xf5, 0xbc, 0xb6, 0xda, 0x21, 0x10, 0xff, 0xf3, 0xd2] ++
  [0xcd, 0x0c, 0x13, 0xec, 0x5f, 0x97, 0x44, 0x17, 0xc4, 0xa7, 0x7e, 0x3d, 0x64, 0x5d, 0x19, 0x73] ++
  [0x60, 0x81, 0x4f, 0xdc, 0x22, 0x2a, 0x90, 0x88, 0x46, 0xee, 0xb8, 0x14, 0xde, 0x5e, 0x0b, 0xdb] ++
  [0xe0, 0x32, 0x3a, 0x0a, 0x49, 0x06, 0x24, 0x5c, 0xc2, 0xd3, 0xac, 0x62, 0x91, 0x95, 0xe4, 0x79] ++
  [0xe7, 0xc8, 0x37, 0x6d, 0x8d, 0xd5, 0x4e, 0xa9, 0x6c, 0x56, 0xf4, 0xea, 0x65, 0x7a, 0xae, 0x08] ++
  [0xba, 0x78, 0x25, 0x2e, 0x1c, 0xa6, 0xb4, 0xc6, 0xe8, 0xdd, 0x74, 0x1f, 0x4b, 0xbd, 0x8b, 0x8a] ++
  [0x70, 0x3e, 0xb5, 0x66, 0x48, 0x03, 0xf6, 0x0e, 0x61, 0x35, 0x57, 0xb9, 0x86, 0xc1, 0x1d, 0x9e] ++
  [0xe1, 0xf8, 0x98, 0x11, 0x69, 0xd9, 0x8e, 0x94, 0x9b, 0x1e, 0x87, 0xe9, 0xce, 0x55, 0x28, 0xdf] ++
  [0x8c, 0xa1, 0x89, 0x0d, 0xbf, 0xe6, 0x42, 0x68, 0x41, 0x99, 0x2d, 0x0f, 0xb0, 0x54, 0xbb, 0x16]

def aesSub (b : Byte) : Byte := aesBox.getD b.toNat 0

/-- Twice an octet in the field of AES. -/
def aesTwice (b : Byte) : Byte := (b <<< 1) ^^^ (if b.getLsbD 7 then 0x1B#8 else 0#8)

/-- The octets of two lists added. -/
def xorOctets (a b : Octets) : Octets := List.zipWith (· ^^^ ·) a b

/-- One more word of the expanded key, newest first: word `i` from the words one and eight before it. -/
def aesNextWord (i : Nat) (w : List Octets) : List Octets :=
  let t := w.headD []
  let u := if i % 8 = 0 then xorOctets ((t.drop 1 ++ t.take 1).map aesSub) [(List.replicate (i / 8 - 1) ()).foldl (fun b _ => aesTwice b) 1#8, 0, 0, 0]
    else if i % 8 = 4 then t.map aesSub else t
  xorOctets (w.getD 7 []) u :: w

/-- The 15 round keys of a 32-octet key. -/
def aesKeys (key : Octets) : List Octets :=
  let w0 := ((List.range 8).map fun i => (key.drop (4 * i)).take 4).reverse
  let w := ((List.range 52).foldl (fun w i => aesNextWord (i + 8) w) w0).reverse
  (List.range 15).map fun r => ((w.drop (4 * r)).take 4).flatten

/-- SubBytes and ShiftRows, column by column. -/
def aesShiftSub (v : Octets) : Octets := (List.range 16).map fun i => aesSub (v.getD ((i + 4 * (i % 4)) % 16) 0)

/-- MixColumns. -/
def aesMix (v : Octets) : Octets :=
  (List.range 16).map fun i =>
    let b (j : Nat) : Byte := v.getD (i / 4 * 4 + (i + j) % 4) 0
    aesTwice (b 0) ^^^ (aesTwice (b 1) ^^^ b 1) ^^^ b 2 ^^^ b 3

/-- One block under expanded keys. -/
def aesBlock (ks : List Octets) (v : Octets) : Octets :=
  let a := (List.range 13).foldl (fun t r => xorOctets (aesMix (aesShiftSub t)) (ks.getD (r + 1) [])) (xorOctets v (ks.getD 0 []))
  xorOctets (aesShiftSub a) (ks.getD 14 [])

/-- Sixteen octets as a number, the first most significant. -/
def blockNum (v : Octets) : BitVec 128 := BitVec.ofNat 128 ((v ++ List.replicate (16 - v.length) 0).foldl (fun (n : Nat) (b : Byte) => 256 * n + b.toNat) 0)

/-- One bit of the product in the field of GCM: the accumulator and the shifted factor. -/
def ghashBit (x : BitVec 128) (t : BitVec 128 × BitVec 128) (i : Nat) : BitVec 128 × BitVec 128 :=
  (if x.getLsbD (127 - i) then t.1 ^^^ t.2 else t.1,
   (t.2 >>> 1) ^^^ (if t.2.getLsbD 0 then BitVec.ofNat 128 (0xE1 * 2 ^ 120) else 0))

def ghashMul (x h : BitVec 128) : BitVec 128 := ((List.range 128).foldl (ghashBit x) (0, h)).1

/-- GHASH of octets padded with zeros to whole blocks, onto `y`. -/
def ghash (h : BitVec 128) : Nat → BitVec 128 → Octets → BitVec 128
  | 0, y, _ => y
  | n + 1, y, v => if v.isEmpty then y else ghash h n (ghashMul (y ^^^ blockNum (v.take 16)) h) (v.drop 16)

/-- The keystream applied to `v` from counter `c` on. -/
def gcmStream (ks : List Octets) (iv : Octets) : Nat → Nat → Octets → Octets
  | 0, _, _ => []
  | n + 1, c, v =>
    if v.isEmpty then [] else xorOctets (v.take 16) (aesBlock ks (iv ++ (leOctets 4 c).reverse)) ++ gcmStream ks iv n (c + 1) (v.drop 16)

/-- The tag of a ciphertext. -/
def gcmTag (ks : List Octets) (iv aad c : Octets) : Octets :=
  let h := blockNum (aesBlock ks (List.replicate 16 0))
  let y := ghash h c.length (ghash h aad.length 0 aad) c
  let z := ghash h 1 y ((leOctets 8 (8 * aad.length)).reverse ++ (leOctets 8 (8 * c.length)).reverse)
  xorOctets (leOctets 16 z.toNat).reverse (aesBlock ks (iv ++ [0, 0, 0, 1]))

/-- Sealing: key, IV of 12 octets, additional data, plaintext; the ciphertext and its tag of 16 octets. -/
def gcmSeal (key iv aad p : Octets) : Octets :=
  let ks := aesKeys key
  let c := gcmStream ks iv p.length 2 p
  c ++ gcmTag ks iv aad c

/-- Opening: key, IV, additional data, ciphertext with its tag; `none` where the tag fails. -/
def gcmOpen (key iv aad v : Octets) : Option Octets :=
  let ks := aesKeys key
  let c := v.take (v.length - 16)
  if gcmTag ks iv aad c = v.drop (v.length - 16) then some (gcmStream ks iv c.length 2 c) else none

/-- What is streamed without its tag judged: a frame opened while it arrives (R239). -/
def gcmPlain (key iv v : Octets) : Octets := gcmStream (aesKeys key) iv v.length 2 (v.take (v.length - 16))

end Sys2Proof.Machine
end

