-- ==== Sys2Proof/Machine/FacetTx.lean ====
section
/-! DEFINITION. Transmission: frames on the lane, slots, unscheduled frames, acknowledgement, retry and deferral (R232, R234, R237, R239,
R242 to R246, R249, R253, R254). -/

namespace Sys2Proof.Machine

/-! ### Octets of a frame -/

/-- `n` bytes from global address `a` as they stand, merge entries in place. -/
def peekBytes (s : State) (a n : Nat) : Octets :=
  (List.range n).map fun i => byteOf (visWord s ((a + i) / 8)) ((a + i) % 8)

/-- A big-endian number of octets. -/
def ofBe (v : Octets) : Nat := v.foldl (fun n b => 256 * n + b.toNat) 0

def beOctets (n x : Nat) : Octets := (leOctets n x).reverse

/-- An Ethernet frame from the destination address on: the 802.1Q tag if there is one, the EtherType, where the octets after it begin (R232). -/
structure EthInfo where
  tag   : Option Nat
  etype : Nat
  body  : Nat
  deriving DecidableEq, Repr

def ethInfo (v : Octets) : EthInfo :=
  let t := ofBe ((v.drop 12).take 2)
  if t = 0x8100 then { tag := some (ofBe ((v.drop 14).take 2)), etype := ofBe ((v.drop 16).take 2), body := 18 }
  else { tag := none, etype := t, body := 14 }

/-- The offset of the UDP header and its destination port, of a UDP/IPv4 frame. -/
def udpAt (v : Octets) : Option (Nat × Nat) :=
  let e := ethInfo v
  let ip := v.drop e.body
  let ihl := (ip.headD 0).toNat % 16 * 4
  if e.etype = 0x0800 ∧ (ip.headD 0).toNat / 16 = 4 ∧ 20 ≤ ihl ∧ (ip.drop 9).headD 0 = 17#8 then
    some (e.body + ihl, ofBe ((v.drop (e.body + ihl + 2)).take 2))
  else none

/-- Where a PTP message begins in an Ethernet frame, and its UDP header if it has one (R233, R234). -/
def ptpAt (v : Octets) : Option (Nat × Option Nat) :=
  if (ethInfo v).etype = 0x88F7 then some ((ethInfo v).body, none)
  else match udpAt v with
    | some (u, port) => if port = 319 ∨ port = 320 then some (u + 8, some u) else none
    | none => none

/-- Octets `w` written over `v` at offset `o`. -/
def putAt (v : Octets) (o : Nat) (w : Octets) : Octets := v.take o ++ w ++ v.drop (o + w.length)

/-- A one-step Sync: originTimestamp rewritten with the timebase `t`, a UDP checksum set to 0 (R234). -/
def oneStep (v : Octets) (t : Nat) : Octets :=
  match ptpAt v with
  | none => v
  | some (o, u) =>
    if ((v.drop o).headD 0).toNat % 16 = 0 ∧ (((v.drop (o + 6)).headD 0).toNat / 2) % 2 = 0 ∧ o + 44 ≤ v.length then
      let v1 := putAt v (o + 34) (beOctets 6 (t / 1000000000) ++ beOctets 4 (t % 1000000000))
      match u with
      | some h => putAt v1 (h + 6) [0, 0]
      | none => v1
    else v

/-- The key of link cipher slot `k` for a frame whose SOF is at timebase `t` (R347). -/
def linkKeyAt (s : State) (k t : Nat) : Octets :=
  let e := Tab.get (fun _ => LinkKey.unset) k s.keys.link
  ((if t ≤ e.at_ + 1000 then e.prev else e.key).getD (List.replicate 32 0))

/-- The IV of a protected frame (R239): CYCLE, SLOT, SEQ, the slot's salt. -/
def cipherIv (s : State) (k cyc slot seq : Nat) : Octets :=
  leOctets 4 cyc ++ leOctets 2 slot ++ leOctets 2 seq ++ leOctets 4 (ent s (0x1130 + k) 2)

/-- The additional data (R239): the header with SLOT, RETRY and CYCLE taken as 0. -/
def cipherAad (h0 h1 : Word) : Octets := leOctets 4 (h0 &&& ~~~0x11FF#32).toNat ++ leOctets 4 h1.toNat ++ leOctets 4 0

/-- A Beam link frame as the facet sends it (R237, R239): the buffer's header with SLOT, RETRY, CIPH, LEN and CYCLE written, the payload,
sealed where the facet protects its frames, and the CRC. -/
def beamOctets (s : State) (face : Nat) (v : Octets) (slot : Nat) (retry : Bool) (cyc : Nat) : Octets :=
  let k := cfg s face 8
  let pay := v.drop 12
  let b0 : Word := BitVec.ofNat 32 (leAt v 0 4)
  let b1 : Word := BitVec.ofNat 32 (leAt v 4 4)
  let len := pay.length + (if k = 0 then 0 else 16)
  let h0 : Word := (b0 &&& 0xFFFF2E00#32) ||| BitVec.ofNat 32 (slot % 512) ||| (boolWord retry <<< 12) ||| (boolWord (k != 0) <<< 14)
  let h1 : Word := (b1 &&& 0xFFFF#32) ||| BitVec.ofNat 32 (len % 2048 * 65536)
  let body := if k = 0 then pay
    else gcmSeal (linkKeyAt s k s.tb) (cipherIv s k (cyc % 2 ^ 32) slot (leAt v 2 2)) (cipherAad h0 h1) pay
  let all := leOctets 4 h0.toNat ++ leOctets 4 h1.toNat ++ leOctets 4 (cyc % 2 ^ 32) ++ body
  all ++ leOctets 4 (crc32c 0 all).toNat

/-- An Ethernet frame as it is sent, without its FCS: padded to 60 octets (R232). -/
def etherOctets (v : Octets) : Octets := v ++ List.replicate (60 - v.length) 0

/-- The octets of a descriptor's frame in memory. -/
def descBytes (s : State) (d : TxDesc) : Octets := peekBytes s d.addr d.len

/-- Characters of the frame of `len` stored octets on the lane, SOF to EOF (R237); on Ethernet the octets of preamble, frame and FCS (R232). -/
def laneChars (s : State) (q len : Nat) : Nat :=
  if isEther s q then max 60 len + 12 else len + 6 + (if cfg s (faceOf s q) 8 = 0 then 0 else 16)

/-- The gap after a frame, in characters: an IDL set, or 12 octets on Ethernet (R232, R237). -/
def laneGap (s : State) (q : Nat) : Nat := if isEther s q then 12 else 2

/-- The gap after a frame of `n` octets in mode 5, and the deficit idle count after it (R232): frames start at a multiple of 4 octets, and at most 3
octets of idle are owed. PRESUMED from IEEE 802.3 clause 46 (log entry 118). -/
def deficitGap (n dic : Nat) : Nat × Nat := if dic + n % 4 ≤ 3 then (12 - n % 4, dic + n % 4) else (16 - n % 4, dic + n % 4 - 4)

/-- The gap the facet keeps after a frame of `n` characters, and its deficit idle count then. -/
def gapAfter (s : State) (q n : Nat) : Nat × Nat :=
  if isEther s q && facetMode s q == 5 then deficitGap n (getFacet s q).dic else (laneGap s q, (getFacet s q).dic)

/-- The octets before the timestamp point of a frame: preamble and SFD on Ethernet (R234). -/
def stampLead (s : State) (q : Nat) : Nat := if isEther s q then 8 else 0

def laneTime (s : State) (q : Nat) : Nat := charTime (facetMode s q)

/-- The timestamp point of a frame that starts at `start` (tenths of ns), in ns of timebase (R234). -/
def stampAt (s : State) (q start : Nat) : Nat := (start + stampLead s q * laneTime s q) / 10

/-- A loan over any octet of a frame ends, since the transmit DMA reads it (R186). -/
def endFrameLoans (s : State) (a n : Nat) : State :=
  (List.range (n / 8 + 2)).foldl (fun t i => if 8 * (a / 8 + i) < a + n then endLoanAt t (a / 8 + i) else t) s

/-- A frame of `n` characters, its gap after it kept, is put on the lane. -/
def putLane (s : State) (q n : Nat) (t : LaneTx) : State :=
  let g := gapAfter s q n
  modFacet s q fun f => { f with lane := some t, gapTo := t.stop + g.1 * laneTime s q, dic := g.2 }

/-- The earliest start of a frame now (tenths of ns): the gap after the last one is kept (R232, R237). -/
def startTime (s : State) (q : Nat) : Nat := max (tenths s) (getFacet s q).gapTo

/-- The gap after the last frame has passed. -/
def gapOver (s : State) (q : Nat) : Bool := decide ((getFacet s q).gapTo ≤ tenths s)

/-- The frame on the lane is broken off with the ending of a bad frame (R245, R249, R254), and a gap follows. -/
def breakOff (s : State) (q : Nat) : State :=
  modFacet s q fun f => { f with lane := none, endOut := some (badEnd s q), gapTo := tenths s + (1 + laneGap s q) * laneTime s q }

/-! ### A frame starts -/

/-- A frame is on the lane from `start` (tenths of ns): the first transmission fixes CYCLE and SEQ. -/
def startLane (s0 : State) (q : Nat) (d : TxDesc) (margin retry : Bool) (start : Nat) : State :=
  let s := endFrameLoans s0 d.addr d.len
  let f := getFacet s q
  let v := descBytes s d
  let cyc := if d.sent then d.cyc else f.cyc
  let oct := if isEther s q then etherOctets (if d.onestep then oneStep v (stampAt s q start) else v)
    else beamOctets s (faceOf s q) v d.slot retry cyc
  let d1 := { d with sent := true, cyc, seq := leAt v 2 2, tries := d.tries + 1 }
  let t : LaneTx := { desc := d1, margin, start, stop := start + laneChars s q d.len * laneTime s q, octets := oct }
  let s1 := modFacet (putLane s q (laneChars s q d.len) t) q fun f =>
    { f with carried := if d.slot = 0x1FF ∨ margin then f.carried else d.slot :: f.carried }
  if retry then countFacet s1 q 0x10 else s1

/-- The descriptor's data is held: its first 512 octets, or all of them (R293); a relayed frame is stored whole and found good (R249). -/
def dataReady (d : TxDesc) : Bool :=
  match d.poster with
  | .relay _ _ => decide (d.len ≤ d.got)
  | _ => decide (min d.len 512 ≤ d.got)

def eligible (d : TxDesc) : Bool := !d.held && dataReady d

/-- The cluster of the facet is quiesced: only ACK, CYC, TRN and management frames are sent (R299). -/
def quiet (s : State) (q : Nat) : Bool := (getCluster s (q / 8)).quiesced

/-- An ACK set before the first of a later slot. -/
def insertAck (a : AckDue) : List AckDue → List AckDue
  | [] => [a]
  | b :: l => if a.slot < b.slot then a :: b :: l else b :: insertAck a l

/-- The ACK sets due in slot `i`, in rising index of the slots they acknowledge (R242). -/
def acksFor (f : Facet) (i : Nat) : List AckDue :=
  (f.acks.filter fun a => match slotAt f.active a.slot with | some e => e.rev == i | none => false).foldl (fun l a => insertAck a l) []

/-- What a slot sends, and what its choice discards with which result (R242, R246). -/
structure Choice where
  send  : Option TxDesc
  retry : Bool
  drop  : List (TxDesc × Nat)

/-- The choice at an opening: `ds` the deferred frames of the slot, `cs` the eligible descriptors in post order. -/
def chooseFrame (latest : Bool) (ds cs : List TxDesc) : Choice :=
  if latest then
    match cs.getLast? with
    | some d => { send := some d, retry := false, drop := (ds ++ cs.dropLast).map fun x => (x, 1) }
    | none =>
      match ds.getLast? with
      | some d => { send := some d, retry := true, drop := ds.dropLast.map fun x => (x, 1) }
      | none => { send := none, retry := false, drop := [] }
  else
    match ds with
    | d :: _ => { send := some d, retry := true, drop := [] }
    | [] =>
      match cs with
      | d :: _ => { send := some d, retry := false, drop := [] }
      | [] => { send := none, retry := false, drop := [] }

def removeIds (ids : List Nat) (l : List TxDesc) : List TxDesc := l.filter fun d => !ids.contains d.id

/-- Descriptors leave the queues of the facet. -/
def dequeue (s : State) (q : Nat) (ids : List Nat) : State :=
  modFacet s q fun f => { f with queue := removeIds ids f.queue, deferred := removeIds ids f.deferred }

/-- The frame of a slot fits in its duration after `a` ACK sets (R237, R242). -/
def fitsSlot (s : State) (q a : Nat) (e : SlotEnt) (len : Nat) : Bool :=
  decide ((5 * a + laneChars s q len) * laneTime s q ≤ 10 * e.dur)

/-- Slot `i` opens (R242): its ACK sets, then at most one frame. -/
def openSlot (s : State) (q i : Nat) (e : SlotEnt) : State :=
  let f := getFacet s q
  let acks := acksFor f i
  let s1 := modFacet s q fun f => { f with opened := i :: f.opened, ackOut := acks, acks := f.acks.filter fun a => !acks.contains a }
  if quiet s q then s1
  else
    let ds := f.deferred.filter fun d => d.slot == i && dataReady d
    let posted := f.queue.filter fun d => d.slot == i
    let ch := chooseFrame e.latest ds (posted.filter eligible)
    let s2 := dequeue s1 q (ch.drop.map fun x => x.1.id)
    let s3 := ch.drop.foldl (fun t x => completeDesc t q x.1 x.2) s2
    match ch.send with
    | none => if posted.isEmpty then s3 else countFacet s3 q 0x13
    | some d =>
      let s4 := dequeue s3 q [d.id]
      if fitsSlot s4 q acks.length e d.len then
        startLane s4 q d false ch.retry (startTime s q + 5 * acks.length * laneTime s q)
      else completeDesc s4 q d 3

/-- SLOT_OPENING (R242, R244, R246): slot `i` of the facet's own direction opens at its START in RUN; what a mirror sends as tail runs beside what
it sends as head (R235). -/
def execSlotOpening (p i : Nat) (s : State) : Host.Outcome State Fault Refusal :=
  let f := getFacet s p
  match slotAt f.active i with
  | none => .next s
  | some e =>
    let off := cycleOff s f
    let asTail := facetRole s p == 4 && e.dir == 1
    let busy := if asTail then f.back.isSome else f.lane.isSome
    if f.state == 3 && ownDir s p e.dir && !f.opened.contains i && !busy && decide (e.start ≤ off) && decide (off < e.start + e.dur) then
      .next (if asTail then swapLanes (openSlot (swapLanes s p) p i e) p else openSlot s p i e)
    else .next s

/-! ### Unscheduled frames (R243, R296) -/

/-- A slot before the first of a later START. -/
def insertSlot (e : SlotEnt) : List SlotEnt → List SlotEnt
  | [] => [e]
  | b :: l => if e.start ≤ b.start then e :: b :: l else b :: insertSlot e l

/-- Slots in the order of their START. -/
def sortSlots (l : List SlotEnt) : List SlotEnt := l.foldr insertSlot []

/-- What slots in the order of their START leave free from `t` on, up to the margin at `stop`. -/
def gapsBetween (guard stop : Nat) : Nat → List SlotEnt → List (Nat × Nat × Nat)
  | t, [] => [(t, stop, 0)]
  | t, e :: l => (t, e.start, guard) :: gapsBetween guard stop (max t (e.start + e.dur)) l

/-- The intervals of a cycle in which an unscheduled frame of the facet may run, in ns from the boundary: start, end, and what must be kept
before the end. -/
def openIntervals (s : State) (q : Nat) : List (Nat × Nat × Nat) :=
  let x := (getFacet s q).active
  let own := sortSlots (x.slots.filter fun e => ownDir s q e.dir)
  gapsBetween x.guard (x.cycle - x.margin) (if isEther s q then 0 else (15 * laneTime s q + 9) / 10) own

/-- The lane time of an unscheduled frame of `len` stored octets with its gap, in tenths of ns. -/
def unschedTime (s : State) (q len : Nat) : Nat := (laneChars s q len + laneGap s q) * laneTime s q

/-- The frame fits some interval of the table in force (R243). -/
def everFits (s : State) (q len : Nat) : Bool :=
  (openIntervals s q).any fun t => decide (10 * t.1 + unschedTime s q len + 10 * t.2.2 ≤ 10 * t.2.1)

/-- The frame may start now (R243). -/
def fitsNow (s : State) (q len : Nat) : Bool :=
  let off := cycleOff s (getFacet s q)
  (openIntervals s q).any fun t => decide (t.1 ≤ off) && decide (10 * off + unschedTime s q len + 10 * t.2.2 ≤ 10 * t.2.1)

/-- An answer sent by the facet itself (R296, R300). -/
def answerDesc (q : Nat) (v : Octets) (id : Nat) : TxDesc :=
  { id, face := q, got := v.length, poster := .own, addr := 0, len := v.length, slot := 0x1FF, tsreq := false, onestep := false, tag := none, cookie := 0,
    held := false, defers := 0, tries := 0, sent := false, cyc := 0, seq := 0 }

/-- The answer `v`, header and payload or Ethernet octets, is on the lane. -/
def startAnswer (s : State) (q : Nat) (v : Octets) : State :=
  let f := getFacet s q
  let oct := if isEther s q then etherOctets v else beamOctets s (faceOf s q) v 0x1FF false f.cyc
  let t : LaneTx := { desc := answerDesc q v s.nextId, margin := false, start := tenths s,
                      stop := tenths s + laneChars s q v.length * laneTime s q, octets := oct }
  modFacet (putLane { s with nextId := s.nextId + 1 } q (laneChars s q v.length) t) q fun f => { f with answers := f.answers.drop 1 }

/-- The unscheduled descriptors in post order among the eligible. -/
def unscheduled (f : Facet) : List TxDesc := f.queue.filter fun d => d.slot == 0x1FF && eligible d

/-- The head of the unscheduled queue that fits no interval ends with result 3, and the one behind it is taken (R243). -/
def takeUnscheduled : Nat → State → Nat → State
  | 0, s, _ => s
  | n + 1, s, q =>
    match unscheduled (getFacet s q) with
    | [] => s
    | d :: _ =>
      if !everFits s q d.len then takeUnscheduled n (completeDesc (dequeue s q [d.id]) q d 3) q
      else if fitsNow s q d.len then startLane (dequeue s q [d.id]) q d false false (tenths s)
      else s

/-- UNSCHEDULED_FRAME_START (R243, R296): an answer first, then the oldest eligible unscheduled descriptor. -/
def execUnscheduledFrameStart (p : Nat) (s : State) : Host.Outcome State Fault Refusal :=
  let f := getFacet s p
  if f.state = 3 ∧ f.lane.isNone ∧ gapOver s p then
    match f.answers with
    | v :: _ => .next (if fitsNow s p v.length then startAnswer s p v else s)
    | [] => .next (if quiet s p then s else takeUnscheduled (f.queue.length + 1) s p)
  else .next s

/-! ### The end of a frame (R234, R244, R253, R254) -/

/-- A two-step timestamp enters the FIFO of 16; a full FIFO discards it and counts (R234, R255). -/
def pushTs (s : State) (q : Nat) (t : LaneTx) : State :=
  if !t.desc.tsreq then s
  else
    let face := t.desc.face
    let f := getFacet s face
    if f.txts.length < 16 then
      setFevt (setFacet s face { f with txts := f.txts ++ [{ beam := t.desc.tag.getD 0, slot := t.desc.slot, ts := stampAt s q t.start }] }) face
        (fevtBit 4)
    else countFacet s q 0x16

/-- The deadline of a slot frame's ACK: the end of the ACK sets of its reverse slot, as they arrive (R244), in tenths of ns. -/
def slotDeadline (s : State) (q : Nat) (r : SlotEnt) : Nat :=
  let f := getFacet s q
  10 * (boundaryAt f.active f.cyc + r.start + f.train.delay) + 5 * r.ackroom * laneTime s q

/-- AW of R244 in tenths of ns. -/
def ackWait (s : State) (q : Nat) : Nat := 20 * (getFacet s q).train.delay + 8 * laneTime s q + 400

/-- The descriptor awaits its ACK, or completes with result 0 where none is due. -/
def frameSent (s : State) (q : Nat) (t : LaneTx) : State :=
  let f := getFacet s q
  let wait (dl : Nat) : State := modFacet s q fun f => { f with await := f.await ++ [{ desc := t.desc, margin := t.margin, deadline := dl }] }
  if t.margin then wait (t.stop + ackWait s q)
  else
    match slotAt f.active t.desc.slot with
    | none => completeDesc s q t.desc 0
    | some e =>
      match slotAt f.active e.rev with
      | none => completeDesc s q t.desc 0
      | some r => wait (slotDeadline s q r)

/-- The frame on the lane has been sent: its octets are read once more for their errors, its EOF is recorded (R236, R254). -/
def finishLane (s : State) (p : Nat) (t : LaneTx) : State :=
  if t.desc.poster = .own then modFacet s p fun f => { f with lane := none, endOut := some .good }
  else
    let r := portReadBytes (t.desc.len / 8 + 3) s t.desc.addr t.desc.len
    if r.2.2 then s
    else frameSent (pushTs (modFacet r.1 p fun f => { f with lane := none, endOut := some .good }) p t) p t

/-- The frame has reached its EOF: all its octets were held, the time has come, and a margin frame ends by the boundary (R245, R258). -/
def laneDue (s : State) (p : Nat) (t : LaneTx) : Bool :=
  let f := getFacet s p
  decide (t.stop ≤ tenths s) && decide (t.desc.len ≤ t.desc.got) && !(t.margin && decide (10 * boundaryAt f.active (f.cyc + 1) < t.stop))

/-- TRANSMIT_COMPLETION (R234, R244, R249, R253): the frame on the lane reaches its EOF. A frame whose data failed ends by
TRANSMIT_DATA_ERROR; a relayed frame ends when its ingress has. A mirror's tail side is looked at second (R235). -/
def execTransmitCompletion (p : Nat) (s : State) : Host.Outcome State Fault Refusal :=
  let f := getFacet s p
  match f.lane.filter (laneDue s p) with
  | some t => .next (finishLane s p t)
  | none =>
    match f.back.filter (laneDue s p) with
    | some t => .next (swapLanes (finishLane (swapLanes s p) p t) p)
    | none => .next s

/-- The frame on the lane is broken off if its octets hold an uncorrectable or poisoned word; whether it was. -/
def failLane (s : State) (p : Nat) (t : LaneTx) : State × Bool :=
  if t.desc.poster = .own then (s, false)
  else
    let r := portReadBytes (t.desc.len / 8 + 3) s t.desc.addr t.desc.len
    if r.2.2 then (completeDesc (breakOff r.1 p) p t.desc 12, true) else (s, false)

/-- TRANSMIT_DATA_ERROR (R180, R254, R294): the DMA reads an uncorrectable or poisoned word; the frame ends as a bad one, result 12, no
retry. A mirror's tail side is looked at second (R235). -/
def execTransmitDataError (p : Nat) (s : State) : Host.Outcome State Fault Refusal :=
  let f := getFacet s p
  let r := match f.lane with | some t => failLane s p t | none => (s, false)
  if r.2 then .next r.1
  else
    match f.back with
    | some t => .next (swapLanes (failLane (swapLanes s p) p t).1 p)
    | none => .next s

/-- A failed frame enters the retry queue (R245). -/
def failFrame (s : State) (q : Nat) (a : AwaitAck) : State :=
  modFacet s q fun f => { f with await := f.await.filter fun x => x.desc.id != a.desc.id, retry := f.retry ++ [a.desc] }

/-- ACK_RECEPTION (R236, R244, R245): by its STATUS the frame completes, fails, or ends with result 4; an ACK of STATUS 5 to 7, one after its
deadline, and one that names no waiting frame are ignored. -/
def execAckReception (p slot status seq : Nat) (s : State) : Host.Outcome State Fault Refusal :=
  match (getFacet s p).await.find? fun a => a.desc.slot == slot && a.desc.seq == seq with
  | none => .next s
  | some a =>
    let gone := modFacet s p fun f => { f with await := f.await.filter fun x => x.desc.id != a.desc.id }
    if a.deadline < tenths s ∨ 4 < status then .next s
    else if status = 0 then .next (completeDesc gone p a.desc 0)
    else if status = 3 then .next (completeDesc gone p a.desc 4)
    else .next (failFrame s p a)

/-- ACK_DEADLINE (R244): the oldest frame past its deadline fails. -/
def execAckDeadline (p : Nat) (s : State) : Host.Outcome State Fault Refusal :=
  match (getFacet s p).await.find? fun a => decide (a.deadline < tenths s) with
  | none => .next s
  | some a => .next (failFrame s p a)

/-- RETRY_ATTEMPT (R245): the first frame of the retry queue with an attempt left is sent in the margin, if it fits with AW before the
boundary. -/
def execRetryAttempt (p : Nat) (s : State) : Host.Outcome State Fault Refusal :=
  let f := getFacet s p
  let x := f.active
  match f.retry.find? fun d => decide (d.tries < 3) && dataReady d with
  | none => .next s
  | some d =>
    let dur := laneChars s p d.len * laneTime s p
    if f.state == 3 && f.lane.isNone && gapOver s p && !quiet s p && decide (x.cycle - x.margin ≤ cycleOff s f) &&
       decide (tenths s + dur + ackWait s p ≤ 10 * boundaryAt x (f.cyc + 1)) then
      .next (startLane (modFacet s p fun f => { f with retry := f.retry.filter fun e => e.id != d.id }) p d true true (tenths s))
    else .next s

/-! ### Boundaries (R241, R242, R246, R264, R284) -/

/-- The next boundary has come. In RETRAIN the cycles go on for a pending table's ACT (R241). -/
def boundaryDue (s : State) (q : Nat) : Bool :=
  let f := getFacet s q
  (linkUp f || f.state == 4) && decide (boundaryAt f.active (f.cyc + 1) ≤ s.tb)

/-- Link supervision at a boundary (R247, R248): no CYC of the other end in 2 consecutive cycles sends the link to RETRAIN. -/
def superviseCyc (s : State) (q : Nat) : State :=
  let f := getFacet s q
  if isEther s q then s
  else if f.train.seen then modFacet s q fun f => { f with train := { f.train with seen := false } }
  else if f.state = 2 then modFacet s q fun f => { f with train := { f.train with good := 0, lastCyc := none } }
  else if 2 ≤ f.train.missed + 1 then retrain s q
  else modFacet s q fun f => { f with train := { f.train with missed := f.train.missed + 1 } }

/-- The retired facet this facet is to stand in for (R263, R264). -/
def charge (s : State) (q : Nat) : Option Nat :=
  if (getFacet s q).standsFor.isSome then none
  else (List.range 8).findSome? fun i =>
    let p := q / 8 * 8 + i
    let f := getFacet s p
    if f.retired && f.deputy == some q then some p else none

/-- The takeover (R264): tables, queues, answers and transmit work of `p` pass to `q`, whose own pending table is discarded (R265); the ring and
the staging sets stay where they are. -/
def takeOver (s : State) (q p : Nat) : State :=
  let f := getFacet s p
  let g := getFacet s q
  let s1 := setFacet s q { g with standsFor := some p, ownTab := some g.active, active := f.active, pendTab := f.pendTab, queue := g.queue ++ f.queue,
                                  retry := g.retry ++ f.retry, deferred := g.deferred ++ f.deferred, lastAcc := f.lastAcc,
                                  answers := g.answers ++ f.answers }
  modFacet s1 p fun f => { f with queue := [], retry := [], deferred := [], await := [], pendTab := none, answers := [] }

/-- A requalified facet takes back what its standby carried for it (R284): the schedule and the descriptors posted to it, those awaiting an ACK
among the deferred; the standby keeps its own. -/
def giveBack (s0 : State) (p : Nat) : State :=
  match (getFacet s0 p).deputy with
  | none => s0
  | some q =>
    if (getFacet s0 p).retired || (getFacet s0 q).standsFor != some p then s0
    else
      let s := deferAll s0 q
      let g := getFacet s q
      let back (l : List TxDesc) : List TxDesc := l.filter fun d => d.face == p
      let own (l : List TxDesc) : List TxDesc := l.filter fun d => d.face != p
      let s1 := modFacet s p fun f =>
        { f with deputy := none, active := g.active, pendTab := g.pendTab, queue := f.queue ++ back g.queue, retry := back g.retry,
                 deferred := back g.deferred, lastAcc := g.lastAcc }
      modFacet s1 q fun g => { g with standsFor := none, active := g.ownTab.getD Expo.dflt, ownTab := none, pendTab := none, queue := own g.queue,
                                      retry := own g.retry, deferred := own g.deferred, lastAcc := [] }

/-- A slot frame still on the lane at the boundary is ended with ABT (R245, R258). -/
def abortLane (s : State) (q : Nat) : State :=
  let f := getFacet s q
  let b := 10 * boundaryAt f.active (f.cyc + 1)
  if (lanesOf f).any fun t => t.desc.slot != 0x1FF && decide (b < t.stop) then
    modFacet s q fun f => { f with endOut := some .abt, gapTo := b + (1 + laneGap s q) * laneTime s q }
  else s

/-- A Beam link end sends CYC at the boundary of the cycle in hand, with its number and the boundary's instant (R236, R242). -/
def sendCyc (s : State) (q : Nat) : State :=
  if isEther s q then s
  else modFacet s q fun f => { f with cycOut := some { cyc := f.cyc % 2 ^ 32, time := boundaryAt f.active f.cyc } }

/-- In RETRAIN a boundary only brings a pending table into force; the cycle in hand is that of the table in force then (R241). -/
def retrainBoundary (s : State) (q : Nat) : State :=
  modFacet (applyReached (modFacet s q fun f => { f with cyc := f.cyc + 1 }) q) q fun f => { f with cyc := cycleNo f.active s.tb }

/-- The boundary that begins cycle `cyc + 1`: a takeover comes first, so that the table in force then is the retired facet's (R264, R265). -/
def crossBoundary (s : State) (q : Nat) : State :=
  let s1 := deferAll (abortLane s q) q
  let s2 := sendCyc (modFacet s1 q fun f => { f with cyc := f.cyc + 1, opened := [], carried := [], acks := [], ackOut := [] }) q
  let s3 := match charge s2 q with
    | some p => takeOver s2 q p
    | none => s2
  let s4 := applyReached s3 q
  superviseCyc (if (getFacet s4 q).state = 3 then giveBack s4 q else s4) q

/-- CYCLE_BOUNDARY (R242, R245, R246): CYC is sent, a margin attempt on the lane ends with ABT, unfinished frames are deferred. -/
def execCycleBoundary (p : Nat) (s : State) : Host.Outcome State Fault Refusal :=
  .next (if !boundaryDue s p then s else if (getFacet s p).state = 4 then retrainBoundary s p else crossBoundary s p)

/-- PREPARATION_INSTANT (R242): LEAD before the next boundary FEVT.PREP is set. -/
def execPreparationInstant (p : Nat) (s : State) : Host.Outcome State Fault Refusal :=
  let f := getFacet s p
  if linkUp f && f.prep != f.cyc + 1 && decide (boundaryAt f.active (f.cyc + 1) ≤ s.tb + f.active.lead) then
    .next (setFevt (modFacet s p fun f => { f with prep := f.cyc + 1 }) (faceOf s p) (fevtBit 0))
  else .next s

/-! ### Posting (R219, R253, R255) -/

/-- The beam is locked by core `n`. -/
def lockedBy (s : State) (b n : Nat) : Bool :=
  let x := getBeam s b
  x.valid && x.locked && x.locker.toNat == n

/-- The descriptors in a facet's transmit queue: those sent and to be sent again are in it still (R253). -/
def queuedCount (f : Facet) : Nat := f.queue.length + f.deferred.length + f.retry.length

/-- The result the checks of R253 give a post by core `n` whose frame must lie in the banks of cluster `c`. -/
def postCheck (s : State) (p n : Nat) (txa txl v : Word) : Option Nat :=
  let len := field txl 0 12
  let a := txa.toNat
  let tagged := v.getLsbD 16
  let b := field v 0 16
  let lim := if isEther s p then decide (14 ≤ len) && decide (len ≤ 2044) else decide (12 ≤ len) && decide (len ≤ 1548)
  if a < 0x100000 ∨ 0x200000 ≤ a ∨ 0x200000 < a + len then some 10
  else if !lim then some 10
  else if tagged && !lockedBy s b n then some 7
  else if tagged && decide (64 < (getBeam s b).heldtx.toNat + 1) then some 6
  else if 256 ≤ queuedCount (getFacet s (laneOf s p)) then some 8
  else none

/-- The descriptor of a post at facet `p` of a frame in the banks of cluster `c`. -/
def mkDesc (s : State) (poster : Poster) (p c : Nat) (txa txl v : Word) : TxDesc :=
  let len := field txl 0 12
  { id := s.nextId, face := p, got := len, poster, addr := bankBase c 0 + (txa.toNat - 0x100000), len, slot := field txl 12 9, tsreq := txl.getLsbD 21,
    onestep := txl.getLsbD 22, tag := if v.getLsbD 16 then some (field v 0 16) else none, cookie := field v 24 8, held := v.getLsbD 16,
    defers := 0, tries := 0, sent := false, cyc := 0, seq := 0 }

/-- A post at facet `p` (R253): it completes with the result of the first check that fails, or is queued; a tagged one is held and counted. A
retired facet without a standby completes every post with result 5 (R262). -/
def postAt (s0 : State) (p n : Nat) (txa txl v : Word) (d : TxDesc) : State :=
  let s := { s0 with nextId := s0.nextId + 1 }
  let f := getFacet s p
  if f.retired && f.deputy.isNone then completeDesc s p d 5
  else
    match postCheck s p n txa txl v with
    | some r =>
      let s1 := if r = 6 then incDrops s (field v 0 16) else s
      completeDesc s1 p d r
    | none =>
      let s1 := match d.tag with
        | some b => engineMod s b 4 fun x => { x with heldtx := x.heldtx + 1 }
        | none => s
      modFacet s1 (laneOf s1 p) fun f => { f with queue := f.queue ++ [d] }

/-- A write of TXPOST by local core `lc` (R253). -/
def txpostWrite (s : State) (p lc : Nat) (v : Word) : State :=
  let st := stagingOf (getFacet s p) lc
  postAt s p (p / 8 * 4 + lc) st.txa st.txl v (mkDesc s (.staging lc) p (p / 8) st.txa st.txl v)

/-- TXPOST_WRITE (R253). -/
def execTxpostWrite (p lc : Nat) (v : Word) (s : State) : Host.Outcome State Fault Refusal :=
  .next (if p < nFacets s ∧ lc < 4 then txpostWrite s p lc v else s)

/-- A completion entry as TXDONE and RTXDONE show it (R255). -/
def doneWord (d : Done) : Word := BitVec.ofNat 32 (d.cookie % 256 + d.result % 16 * 256) ||| 0x80000000#32

/-- A read of TXDONE (R255). -/
def txdoneRead (s : State) (p lc : Nat) : State × Word :=
  let st := stagingOf (getFacet s p) lc
  match st.done with
  | [] => (s, 0)
  | d :: ds => (modFacet s p fun f => { f with staging := Tab.put lc { st with done := ds } f.staging }, doneWord d)

/-- TXDONE_READ (R255). -/
def execTxdoneRead (p lc : Nat) (s : State) : Host.Outcome State Fault Refusal :=
  let r := txdoneRead s p lc
  .next (if p < nFacets s ∧ lc < 4 then { r.1 with rdata := some r.2 } else s)

/-- A read of TXTS2 (R255): the entry is removed. -/
def txts2Read (s : State) (p : Nat) : State × Word :=
  match (getFacet s p).txts with
  | [] => (s, 0)
  | t :: ts => (modFacet s p fun f => { f with txts := ts }, BitVec.ofNat 32 (t.ts / 2 ^ 32))

/-- TXTS2_READ (R255). -/
def execTxts2Read (p : Nat) (s : State) : Host.Outcome State Fault Refusal :=
  let r := txts2Read s p
  .next (if p < nFacets s then { r.1 with rdata := some r.2 } else s)

end Sys2Proof.Machine
end

