-- ==== Sys2Proof/Machine/FacetRx.lean ====
section
/-! DEFINITION. Reception: lookup on arrival, relay forwarding, the checks of a received frame, rings and core queues (R220, R221, R232, R233,
R238, R239, R249 to R252, R275, R276, R295 to R298). -/

namespace Sys2Proof.Machine

/-! ### What a frame is (R233, R295) -/

/-- Taken by the management classifier, a reflex request, or an ordinary frame (R295); `o` is where the payload begins. -/
inductive FrameClass where
  | management
  | reflex (o : Nat)
  | ordinary
  deriving DecidableEq, Repr

/-- The one's complement sum of an IPv4 header is 0xFFFF. -/
def ipSumGood (h : Octets) : Bool :=
  let n := (List.range (h.length / 2)).foldl (fun n i => n + ofBe ((h.drop (2 * i)).take 2)) 0
  let m := n / 65536 + n % 65536
  (m / 65536 + m % 65536) == 0xFFFF

/-- UDP in unfragmented IPv4 with a good header checksum, to port `port`: where the UDP payload begins (R295). -/
def mgmtUdp (v : Octets) (port : Nat) : Option Nat :=
  match udpAt v with
  | none => none
  | some (u, dst) =>
    let e := ethInfo v
    let hdr := (v.drop e.body).take (u - e.body)
    let frag := ofBe ((v.drop (e.body + 6)).take 2) % 0x4000
    if dst = port ∧ port ≠ 0 ∧ frag = 0 ∧ ipSumGood hdr then some (u + 8) else none

def classOf (o : Nat) (v : Octets) : FrameClass := if (v.drop o).headD 0 = 0xF0#8 ∧ o < v.length then .reflex o else .management

/-- The management classifier (R295): the stored octets of a frame, its MGMT bit on a Beam link. -/
def classify (s : State) (f : Frame) : FrameClass :=
  match f with
  | .beam h0 _ _ pay _ => if h0.getLsbD 13 then (if pay.head? = some 0xF0#8 then .reflex 12 else .management) else .ordinary
  | .ether v _ =>
    let e := ethInfo v
    if e.etype = 0x88B5 then classOf e.body v
    else
      match mgmtUdp v (ent s 0x1102 1) with
      | some o => classOf o v
      | none => .ordinary

/-- The key of an ordinary frame received for facet `face` (R233). -/
def frameKey (face : Nat) (f : Frame) : Word :=
  match f with
  | .beam h0 h1 _ _ _ => mkKey face (field h1 0 16) (field h0 9 3)
  | .ether v _ =>
    if (ptpAt v).isSome then mkKey face 0x1001 7
    else match (ethInfo v).tag with
      | some t => mkKey face (t % 4096) (t / 8192)
      | none => mkKey face 0x1000 0

/-- The octets a ring buffer holds of a frame (R250): on a Beam link header and payload, the payload opened where it was protected. -/
def storedOctets (f : Frame) (plain : Octets) : Octets :=
  match f with
  | .beam h0 h1 h2 _ _ => leOctets 4 h0.toNat ++ leOctets 4 h1.toNat ++ leOctets 4 h2.toNat ++ plain
  | .ether v _ => v

/-- Payload octets as RXBYTES counts them (R212). -/
def payloadOctets (f : Frame) : Nat :=
  match f with
  | .beam _ h1 _ _ _ => field h1 16 11
  | .ether v _ => v.length - (ethInfo v).body

/-! ### Rings (R250, R275) -/

/-- The next free buffer in cyclic order. -/
def nextFree (f : Facet) : Option Nat :=
  ((List.range f.ringN).map fun i => (f.nextBuf + i) % f.ringN).find? fun i => Tab.get (fun _ => BufUse.free) i f.bufs == .free

def takeBuf (s : State) (face idx : Nat) (u : BufUse) : State :=
  modFacet s face fun f => { f with bufs := Tab.put idx u f.bufs, nextBuf := (idx + 1) % f.ringN }

/-- The foster cluster in force of cluster `c`, if it has one. -/
def fosterOf (s : State) (c : Nat) : Option Nat :=
  match Tab.find c s.foster with
  | some f => if f < 32 then some f else none
  | none => none

/-- Cluster `c` is unserved (R276). -/
def unserved (s : State) (c : Nat) : Bool := (Tab.find c s.foster) == some 0xFF

/-- The global address of buffer `idx` of the facet's ring (R250), or of the matching buffer of the foster bank (R275). -/
def ringAddr (s : State) (face idx : Nat) : Nat :=
  let c := face / 8
  let off := (getFacet s face).ringBase - 0x100000 + idx * 2048
  match fosterOf s c with
  | some f => bankBase f (ent s (0x4100 + c) 2) + off % 0x40000
  | none => bankBase c 0 + off

/-- A frame is written into its buffer: through port B, or over VC1 into the foster bank (R250, R275). -/
def writeRing (s : State) (face idx : Nat) (v : Octets) : State :=
  let a := ringAddr s face idx
  match fosterOf s (face / 8) with
  | some f => sendPacket s 1 .fostered (routeBetween (face / 8) f) v.length (.fostered a v)
  | none => portWriteBytes 8 (face % 8) (v.length / 8 + 3) s a v

/-! ### Relay forwarding (R21, R249) -/

/-- A relay frame into or out of a facet that may not forward: disabled, quiesced, or an egress retired without a standby (R21, R299). -/
def relayBlocked (s : State) (p e : Nat) : Bool :=
  let g := getFacet s e
  (getFacet s p).stopped || g.stopped || quiet s p || quiet s e || (g.retired && g.deputy.isNone) || decide (nFacets s ≤ e)

/-- The first slot of the egress's own DIR for the channel and class which has carried no frame in this cycle (R249). -/
def relaySlot (s : State) (q chan cls : Nat) : Option (Nat × SlotEnt) :=
  let f := getFacet s q
  (f.active.slots.zipIdx.map fun t => (t.2, t.1)).find? fun t =>
    ownDir s q t.2.dir && t.2.chan == chan && t.2.cls == cls && !f.carried.contains t.1 && t.1 != 0x1FF

/-- The slot is open now, the lane is free, the frame fits in the time left and the lane is not slower than the ingress (R249). -/
def mayCutThrough (s : State) (q inMode : Nat) (e : SlotEnt) (len : Nat) : Bool :=
  let f := getFacet s q
  let off := cycleOff s f
  f.state == 3 && f.lane.isNone && !quiet s q && decide (lineRate inMode ≤ lineRate (facetMode s q)) &&
  decide (e.start ≤ off) && decide (off < e.start + e.dur) &&
  decide (10 * off + laneChars s q len * laneTime s q ≤ 10 * (e.start + e.dur))

/-- The relayed frame reaches its egress (R249): it starts now where it can, else it is queued for its slot, or unscheduled. -/
def relayStart (s : State) (e : Nat) (d : TxDesc) : State :=
  let q := laneOf s e
  let key := (getBeam s (d.tag.getD 0)).key
  let inMode := match d.poster with | .relay p _ => facetMode s p | _ => 0
  match relaySlot s q (field key 8 16) (field key 24 3) with
  | some (i, x) =>
    let d1 := { d with slot := i }
    if mayCutThrough s q inMode x d.len then startLane s q d1 false false (startTime s q)
    else modFacet s q fun f => { f with queue := f.queue ++ [d1] }
  | none => modFacet s q fun f => { f with queue := f.queue ++ [d] }

/-- A relay forward begins as the header has arrived (R249): a ring buffer is taken and written, and the egress told. -/
def relayBegin (s : State) (face b : Nat) (v : Octets) : State × Option Nat :=
  let e := (getBeam s b).egress.toNat
  match nextFree (getFacet s face) with
  | none => (s, none)
  | some idx =>
    if relayBlocked s face e then (s, none)
    else
      let id := s.nextId
      let s1 := writeRing (takeBuf { s with nextId := id + 1 } face idx .relay) face idx v
      let d : TxDesc :=
        { id, face := e, got := 0, poster := .relay face idx, addr := ringAddr s face idx, len := v.length, slot := 0x1FF, tsreq := false, onestep := false,
          tag := some b, cookie := 0, held := false, defers := 0, tries := 0, sent := false, cyc := 0, seq := 0 }
      if e / 8 = face / 8 then (relayStart s1 e d, some id)
      else (sendPacket s1 1 .relay (routeBetween (face / 8) (e / 8)) v.length (.relay e d), some id)

/-! ### Lookup on arrival (R220, R221) -/

/-- The engine's lookup of a frame of facet `q` (R221): prefetch, relay forward, PHIT, or a miss counted. -/
def arrive (s : State) (q : Nat) (f : Frame) (plain : Octets) : State × Lookup :=
  if classify s f ≠ .ordinary then (s, .mgmt)
  else
    let face := faceOf s q
    let k := frameKey face f
    let r := beamSearch k (beamWays k) s none
    match r.2.1 with
    | none =>
      let qd := keyFacet k / 64
      let s1 := modQuad r.1 qd fun v => { v with bemiss := if v.bemiss = 0xFFFFFFFF#32 then v.bemiss else v.bemiss + 1 }
      (setBeevt s1 qd 3 2, .miss)
    | some b =>
      let x := getBeam r.1 b
      if x.poison then (setBeevt r.1 (b / 16384) 6 0, .poisoned b)
      else if x.relay then
        let t := relayBegin r.1 face b (storedOctets f plain)
        (t.1, .relay b x.egress.toNat t.2)
      else (cacheBeam r.1 (servingCluster r.1 (face / 8)) b, .found b)

/-! ### The checks of R238 and R239 -/

/-- Nanoseconds of a timebase instant from its cycle boundary. -/
def offAt (x : Expo) (t : Nat) : Nat := (t - x.phase) % x.cycle

/-- The SOF lies in the slot's window, allowing d + 64 ns. -/
def inWindow (x : Expo) (d : Nat) (e : SlotEnt) (sof : Nat) : Bool :=
  let o := offAt x sof
  decide (e.start ≤ o) && decide (o ≤ e.start + e.dur + d + 64)

/-- The SOF lies in the margin, allowing d + 64 ns past the boundary. -/
def inMargin (x : Expo) (d sof : Nat) : Bool :=
  let o := offAt x sof
  decide (x.cycle - x.margin ≤ o) || decide (o < d + 64)

/-- Order 5 of R238. -/
def windowBad (s : State) (q slot : Nat) (retry : Bool) (sof : Nat) : Bool :=
  let f := getFacet s q
  let x := f.active
  let d := f.train.delay
  let own := match slotAt x slot with | some e => rxDir s q e.dir && inWindow x d e sof | none => false
  if slot = 0x1FF then
    (x.slots.any fun e => rxDir s q e.dir && decide (e.start ≤ offAt x sof) && decide (offAt x sof < e.start + e.dur)) ||
    (retry && !inMargin x d sof)
  else if retry then !inMargin x d sof && !own
  else match slotAt x slot with
    | some e => rxDir s q e.dir && !own
    | none => false

/-- Orders 1 to 5 of R238, then the tag of R239: the STATUS of the first that fails, or the payload in plain. -/
inductive RxCheck where
  | fails (status : Nat)
  | good (plain : Octets)

def rxCheck (s : State) (q : Nat) (h0 h1 h2 : Word) (pay : Octets) (crc : Word) (sof : Nat) (viol : Bool) : RxCheck :=
  let k := cfg s (faceOf s q) 8
  let len := field h1 16 11
  let all := leOctets 4 h0.toNat ++ leOctets 4 h1.toNat ++ leOctets 4 h2.toNat ++ pay
  let ciph := h0.getLsbD 14
  if viol then .fails 2
  else if 1536 < len ∨ pay.length ≠ len then .fails 1
  else if crc32c 0 all ≠ crc then .fails 1
  else if h0.getLsbD 15 ∨ field h1 27 5 ≠ 0 ∨ ciph ≠ (k != 0) then .fails 3
  else if windowBad s q (field h0 0 9) (h0.getLsbD 12) sof then .fails 3
  else if ciph then
    match (if len < 16 then none
      else gcmOpen (linkKeyAt s k sof) (cipherIv s k h2.toNat (field h0 0 9) (field h0 16 16)) (cipherAad h0 h1) pay) with
    | some p => .good p
    | none => .fails 3
  else .good pay

/-- The ACK of a slot frame: due in its reverse slot, or sent at once for a frame of the margin, between two
characters of the frame on the own lane if there is one, whose EOF it delays (R244, R258). -/
def ackFrame (s : State) (q slot status seq sof : Nat) : State :=
  let f := getFacet s q
  let a : AckDue := { slot, status, seq }
  match slotAt f.active slot with
  | none => s
  | some e =>
    if !rxDir s q e.dir then s
    else if inMargin f.active f.train.delay sof && !inWindow f.active f.train.delay e sof then
      modFacet s q fun f =>
        { f with ackOut := [a]
                 lane := f.lane.map fun t => if tenths s < t.stop then { t with stop := t.stop + 5 * laneTime s q } else t
                 gapTo := if (f.lane.any fun t => decide (tenths s < t.stop)) then f.gapTo + 5 * laneTime s q else f.gapTo }
    else if e.rev = 0x1FF then s
    else modFacet s q fun f => { f with acks := f.acks ++ [a] }

/-- A discarded frame is counted by its STATUS (R238, R355); checks 1 to 3 count in the error window, and so does each code violation
(R261; log entry 117). -/
def countBad (s : State) (q status : Nat) : State :=
  let v := if status = 2 then Config.violations s.free else 0
  let s0 := if status = 2 then countFacetBy { s with free := s.free + 1 } q 9 (max 1 v) else s
  let s1 := if status = 2 then s0 else countFacet s q (if status = 1 then 8 else if status = 3 then 0x0F else 0x0C)
  if status = 1 ∨ status = 2 then modFacet s1 q fun f => { f with winErrs := f.winErrs + 1 + v }
  else if status = 4 then setFevt s1 (faceOf s1 q) (fevtBit 2)
  else s1

def countGood (s : State) (q octets : Nat) : State := bumpCounter (bumpCounter s q 4 1) q 5 octets

/-! ### Management and reflex frames (R295 to R298) -/

def preqOctets (f : Facet) : Nat := f.preq.foldl (fun n v => n + v.length) 0

/-- A management frame enters the pre-queue, or is dropped, counted, and event 773 raised (R296). -/
def toPreq (s : State) (q : Nat) (v : Octets) : State :=
  let f := getFacet s q
  if preqOctets f + v.length ≤ 2048 then setFacet s q { f with preq := f.preq ++ [v] }
  else raise (countFacet s q 0x14) 773

/-- A refused reflex with result 1 or 6 is counted at 0x1120:04 (R298). -/
def countRfx (s : State) : State := bumpEnt s 0x1120 4

/-- A reflex request: held for the unit, passed on as a management frame when it names another node, dropped as a third (R297, R298). -/
def toReflex (s : State) (q o : Nat) (v : Octets) (beamLink : Bool) : State :=
  let body := (v.drop o).take 24 ++ List.replicate (24 - (v.length - o)) 0
  let node := ((v.drop (o + 4)).headD 0).toNat
  let shape := decide (o + 24 ≤ v.length) && (if beamLink then v.length == o + 24 else (v.drop (o + 24)).all fun b => b == 0)
  let f := getFacet s q
  if node ≠ s.node ∧ node ≠ 0xFF then toPreq s q v
  else if 2 ≤ f.rfx.length then countRfx s
  else setFacet s q { f with rfx := f.rfx ++ [{ body, shape, time := s.tb, key := s.rfx.key, beamLink, head := v.take o }] }

/-! ### Delivery of a good frame (R221, R250, R252) -/

/-- RXFRAMES and RXBYTES on a good CRC (R221). -/
def countBeam (s : State) (b : Nat) (f : Frame) : State :=
  engineMod s b 2 fun x => { x with rxframes := x.rxframes + 1, rxbytes := x.rxbytes + BitVec.ofNat 32 (payloadOctets f) }

/-- The frame is written into the ring and its post waits its turn (R250, R251). -/
def stockFrame (s : State) (q idx : Nat) (beam : Option Nat) (v : Octets) (slot : Nat) (retry : Bool) (ts : Nat) : State :=
  let face := faceOf s q
  let s1 := writeRing (takeBuf s face idx (match beam with | some b => .beam b | none => .miss)) face idx v
  modFacet (countGood s1 q v.length) face fun f =>
    { f with posts := f.posts ++ [{ beam, idx, retry, len := v.length, slot, ts, waited := false, again := false }] }

/-- A good frame of its lookup is delivered, relayed or discarded; `none` where it finds no free buffer (order 6 of R238). -/
def deliver (s : State) (q : Nat) (l : Lookup) (f : Frame) (plain : Octets) (slot : Nat) (retry : Bool) (ts : Nat) : Option State :=
  let face := faceOf s q
  let v := storedOctets f plain
  let full := (nextFree (getFacet s face)).isNone
  match l with
  | .mgmt =>
    let s1 := countGood s q v.length
    some (match classify s f with
      | .reflex o => toReflex s1 q o v (match f with | .beam _ _ _ _ _ => true | _ => false)
      | _ => toPreq s1 q v)
  | .poisoned _ => some (countFacet s q 0x17)
  | .relay b e (some id) =>
    some (relayTell (engineMod (countBeam (countGood s q v.length) b f) b 3 fun x => { x with txframes := x.txframes + 1 }) face e id true)
  | .relay b e none => if relayBlocked s face e then some (incDrops s b) else none
  | .miss =>
    if unserved s (face / 8) then some (countFacet s q 0x0D)
    else if cfg s face 6 = 0 then some (setFevt (countFacet s q 0x0D) face (fevtBit 5))
    else match nextFree (getFacet s face) with
      | none => none
      | some idx => some (stockFrame s q idx none v slot retry ts)
  | .found b =>
    if unserved s (face / 8) then some (incDrops s b)
    else if full then none
    else match nextFree (getFacet s face) with
      | none => none
      | some idx => some (stockFrame (countBeam s b f) q idx (some b) v slot retry ts)

/-- The lookup of the frame, made now if the header's arrival has not made it. -/
def lookupOf (s : State) (q : Nat) (f : Frame) (plain : Octets) : State × Lookup :=
  match (getFacet s q).look with
  | some l => (modFacet s q fun f => { f with look := none }, l)
  | none => arrive s q f plain

/-- A Beam link frame is received (R238). -/
def receiveBeam (s : State) (q : Nat) (h0 h1 h2 : Word) (pay : Octets) (crc : Word) (sof : Nat) (viol : Bool) : State :=
  let slot := field h0 0 9
  let seq := field h0 16 16
  let retry := h0.getLsbD 12
  match rxCheck s q h0 h1 h2 pay crc sof viol with
  | .fails st =>
    let s1 := dropRx s q
    ackFrame (countBad s1 q st) q slot st seq sof
  | .good plain =>
    let f : Frame := .beam h0 h1 h2 pay crc
    if retry && slot != 0x1FF && Tab.find slot (getFacet s q).lastAcc == some seq then
      let s1 := dropRx s q
      ackFrame (countFacet s1 q 0x0E) q slot 0 seq sof
    else
      let r := lookupOf s q f plain
      match deliver r.1 q r.2 f plain slot retry sof with
      | none => ackFrame (countBad r.1 q 4) q slot 4 seq sof
      | some s1 =>
        let s2 := if slot = 0x1FF then s1 else modFacet s1 q fun f => { f with lastAcc := Tab.put slot seq f.lastAcc }
        ackFrame s2 q slot 0 seq sof

/-- The address filter of R232. -/
def acceptsAddr (s : State) (face : Nat) (v : Octets) : Bool :=
  (v.headD 0).getLsbD 0 || cfg s face 4 == 1 || ofBe (v.take 6) == cfg s face 3

/-- An Ethernet frame is received (R232): length, FCS, PAUSE and address, then as any frame. -/
def receiveEther (s : State) (q : Nat) (v : Octets) (fcsGood : Bool) (sof : Nat) : State :=
  let drop (sub : Nat) : State := countFacet (dropRx s q) q sub
  if 2044 < v.length then drop 0x0B
  else if v.length < 60 then drop 0x0A
  else if !fcsGood then modFacet (drop 8) q fun f => { f with winErrs := f.winErrs + 1 }
  else if (ethInfo v).etype = 0x8808 then drop 0x15
  else if !acceptsAddr s (faceOf s q) v then drop 0x15
  else
    let f : Frame := .ether v fcsGood
    let r := lookupOf s q f v
    match deliver r.1 q r.2 f v 0x1FF false sof with
    | none => countBad r.1 q 4
    | some s1 => s1

/-- FRAME_RECEPTION (R232, R238): frames are taken in RUN. -/
def execFrameReception (p : Nat) (f : RxFrame) (s : State) : Host.Outcome State Fault Refusal :=
  if (getFacet s p).state ≠ 3 then .next (dropRx s p)
  else
    match f.frame with
    | .beam h0 h1 h2 pay crc => .next (if isEther s p then s else receiveBeam s p h0 h1 h2 pay crc f.sof f.viol)
    | .ether v good => .next (if isEther s p then receiveEther s p v (good && !f.viol) f.sof else s)

/-- The payload as it is opened while it arrives (R239): the tag is judged at the end of the frame. -/
def plainOf (s : State) (q : Nat) (sof : Nat) : Frame → Octets
  | .beam h0 _ h2 pay _ =>
    let k := cfg s (faceOf s q) 8
    if h0.getLsbD 14 ∧ k ≠ 0 ∧ 16 ≤ pay.length then
      gcmPlain (linkKeyAt s k sof) (cipherIv s k h2.toNat (field h0 0 9) (field h0 16 16)) pay
    else pay
  | .ether v _ => v

/-- ARRIVAL_LOOKUP (R220, R221, R249): the header of a frame has arrived. -/
def execArrivalLookup (p : Nat) (f : Frame) (s : State) : Host.Outcome State Fault Refusal :=
  let g := getFacet s p
  if g.state ≠ 3 then .next s
  else
    let s1 := dropRx s p
    let r := arrive s1 p f (plainOf s p s.tb f)
    .next (modFacet r.1 p fun g => { g with look := some r.2 })

/-! ### Core queues (R251, R252, R255) -/

def rqFull (q : Queues) : Bool := q.rqTail == (q.rqHead + 1) % q.rqN.toNat

/-- The four words of a posted descriptor (R251). -/
def postOctets (face : Nat) (x : RxPost) : Octets :=
  leOctets 4 (x.beam.getD 0 + face % 8 * 2 ^ 16 + x.idx % 64 * 2 ^ 19 + (if x.beam.isNone then 2 ^ 25 else 0) + (if x.retry then 2 ^ 26 else 0)) ++
  leOctets 4 (x.len % 4096 + x.slot % 512 * 2 ^ 12) ++ leOctets 8 x.ts

/-- The core a post goes to: the beam's owner; for a miss DEFCORE, or the lowest core in service (R221, R252). -/
def postTarget (s : State) (face : Nat) (x : RxPost) : Option Nat :=
  match x.beam with
  | some b => let n := (getBeam s b).owner.toNat; if coreServes s n && !isWarden n then some n else none
  | none =>
    let c := servingCluster s (face / 8)
    let n := 4 * c + cfg s face 7
    if coreServes s n then some n else (servingCores s c).head?

/-- The 16 octets are written into core `n`'s queue, RQHEAD advances, and the doorbell is raised for an empty queue (R251). -/
def queuePost (s : State) (n face : Nat) (x : RxPost) : State :=
  let q := (getCore s n).q
  let c := clusterOf n
  let a := xramBase c + q.rqBase.toNat * 16 + q.rqHead * 16
  let s1 := portWriteBytes (if (fosterOf s (face / 8)).isSome then 10 else 8) (if (fosterOf s (face / 8)).isSome then 0 else face % 8) 4 s a (postOctets face x)
  let s2 := modCore s1 n fun k => { k with q := { k.q with rqHead := (q.rqHead + 1) % q.rqN.toNat } }
  if q.rqDben && q.rqHead == q.rqTail then raise s2 (560 + n) else s2

/-- The frames of the facet still on their way to a foster bank (R275). -/
def fosterPending (s : State) : Bool :=
  s.fabric.queues.any fun e => e.2.any fun p => match p.body with | .fostered _ _ => true | _ => false

/-- RX_POST (R251, R252): the oldest post of the facet is written once its queue has room. A post whose beam is gone, or whose owner serves no
longer, frees its buffer. -/
def execRxPost (p : Nat) (s : State) : Host.Outcome State Fault Refusal :=
  match (getFacet s p).posts with
  | [] => .next s
  | x :: xs =>
    if (fosterOf s (p / 8)).isSome && fosterPending s then .next s
    else
      let gone := modFacet s p fun f => { f with posts := xs }
      let dead := match x.beam with | some b => !(getBeam s b).valid | none => false
      if dead then .next (freeBuf gone p x.idx)
      else
        match postTarget s p x with
        | none => .next (freeBuf (match x.beam with | some b => incDrops gone b | none => gone) p x.idx)
        | some n =>
          if rqFull (getCore s n).q then
            if x.waited then .next s
            else .next (setFevt (modFacet s p fun f => { f with posts := { x with waited := true } :: xs }) p (fevtBit 1))
          else
            let s1 := queuePost gone n p x
            match x.beam with
            | none => .next s1
            | some b =>
              let s2 := modFacet s1 p fun f => { f with held := f.held ++ [{ x with waited := false, again := false }] }
              .next (if x.again then s2
                else engineMod s2 b 4 fun y => { y with heldrx := if y.heldrx = 0xFF#8 then y.heldrx else y.heldrx + 1 })

/-- A write of RXFREE: frees a buffer posted with MISS = 1; any other index has no effect (R250). -/
def rxfreeWrite (s : State) (p : Nat) (v : Word) : State :=
  let f := getFacet s p
  let i := field v 0 6
  if Tab.get (fun _ => BufUse.free) i f.bufs = .miss ∧ !(f.posts.any fun x => x.idx == i) then freeBuf s p i else s

/-- RXFREE_WRITE (R250). -/
def execRxfreeWrite (p : Nat) (v : Word) (s : State) : Host.Outcome State Fault Refusal :=
  .next (if p < nFacets s then rxfreeWrite s p v else s)

/-- A write of RQCFG (R255): refused, with EXSTAT.RQREF, when the queue would reach past the exchange RAM. -/
def rqcfgWrite (s : State) (n : Nat) (v : Word) : State :=
  let base := field v 4 10
  let cnt := max 16 (field v 16 8)
  if 0x4000 < base * 16 + cnt * 16 then modCore s n fun k => { k with e := { k.e with rqref := true } }
  else modCore s n fun k =>
    { k with q := { k.q with rqBase := BitVec.ofNat 10 base, rqDben := v.getLsbD 14, rqN := BitVec.ofNat 8 cnt } }

/-- RQCFG_WRITE (R255). -/
def execRqcfgWrite (n : Nat) (v : Word) (s : State) : Host.Outcome State Fault Refusal :=
  .next (if corePresent s n then rqcfgWrite s n v else s)

end Sys2Proof.Machine
end

