-- ==== Sys2Proof/Machine/FacetFault.lean ====
section
/-! DEFINITION. The supervision of a facet's link and its retirement (R247, R248, R260 to R265, R281). -/

namespace Sys2Proof.Machine

/-! ### Retirement (R262 to R265) -/

/-- The standby named for facet `p` may take over (R263). -/
def standbyReady (s : State) (p : Nat) : Bool :=
  let q := cfg s p 0x0A
  let f := getFacet s p
  let g := getFacet s q
  decide (q < nFacets s) && q != p && !g.retired && g.standsFor.isNone && facetMode s q == facetMode s p && facetRole s q == facetRole s p &&
  g.state == 3 && g.active.slots.isEmpty && g.active.cycle == f.active.cycle && g.active.phase == f.active.phase &&
  !((List.range 8).any fun i => (getFacet s (p / 8 * 8 + i)).deputy == some q)

/-- A descriptor of a retired facet with no standby: it completes with result 5, a tagged one counts in DROPS and is no longer held (R228,
R262). -/
def loseDesc (p : Nat) (s : State) (d : TxDesc) : State :=
  let s1 := completeDesc s p d 5
  match d.tag, d.poster with
  | some b, .relay _ _ => incDrops s1 b
  | some b, _ => unhold (incDrops s1 b) d
  | none, _ => s1

/-- Every descriptor of the facet is lost. -/
def loseAll (s : State) (p : Nat) : State :=
  let f := getFacet s p
  let ds := (lanesOf f).map (fun t => t.desc) ++ f.await.map (fun a => a.desc) ++ f.retry ++ f.deferred ++ f.queue
  let s1 := modFacet s p fun f => { f with lane := none, back := none, await := [], retry := [], deferred := [], queue := [] }
  ds.foldl (loseDesc p) s1

/-- The descriptors of the facet wait for the takeover: slot frames under way are deferred, an unscheduled one goes back to the queue
(R264, R265). -/
def keepAll (s : State) (p : Nat) : State :=
  let s1 := deferAll s p
  modFacet s1 p fun f =>
    { f with lane := none, back := none, queue := (((lanesOf f).map fun t => t.desc).filter fun d => d.poster != .own) ++ f.queue }

/-- Octets of an emergency's facet, criterion and standby (R281). -/
def facetData (p criterion standby : Nat) : Octets := leOctets 2 p ++ [BitVec.ofNat 8 criterion] ++ leOctets 2 standby

/-- The retired facets facet `p` stands in for or is to stand in for (R263 to R265). -/
def servedBy (s : State) (p : Nat) : List Nat :=
  ((List.range 8).map fun i => p / 8 * 8 + i).filter fun r => (getFacet s r).deputy == some p

/-- Facet `p` retires (R262): stored, its state RETIRED and its lane down; its standby takes over or its descriptors are lost. One that stands in
for another facet, or was to, has no takeover in the first case, and leaves that facet without one in both (R265). -/
def retireFacet (s0 : State) (p criterion : Nat) : State :=
  let ready := standbyReady s0 p && (getFacet s0 p).standsFor.isNone
  let q := cfg s0 p 0x0A
  let s1 := (servedBy s0 p).foldl (fun t r => loseAll (modFacet t r fun f => { f with deputy := none }) r) (dropRx s0 p)
  let s2 := if ready then keepAll s1 p else loseAll s1 p
  let s3 := setLinkState s2 p 5
  let s4 := modFacet s3 p fun f =>
    { f with retired := true, criterion, deputy := if ready then some q else none, standsFor := none, acks := [], ackOut := [], answers := [],
             rfx := [], look := none }
  let s5 := emergency s4 0x8110 0 (facetData p criterion (if ready then q else 0xFFFF))
  if !ready && q != 0xFFFF then emergency s5 0x8111 0 (leOctets 2 p ++ leOctets 2 q) else s5

/-- The criteria of R261 are watched: RUN has been reached since OFF, the facet is not disabled by a reflex, no test runs (R261, R470). -/
def watched (f : Facet) : Bool := f.train.reached && !f.stopped && f.ftctl == 0 && f.state != 0 && f.state != 5

/-! ### Supervision -/

/-- A failed attempt at training (R247): it is counted once RUN has been reached; the fifth in a row retires the facet. -/
def failedAttempt (s : State) (p : Nat) : State :=
  let f := getFacet s p
  if !f.train.reached then startTraining s p
  else
    let n := f.train.fails + 1
    let s1 := modFacet (startTraining s p) p fun f => { f with train := { f.train with fails := n } }
    if 5 ≤ n ∧ watched f then retireFacet s1 p 3 else s1

/-- TRAINING_TIMEOUT (R247, R248, R261): 10 ms without completing is a failed attempt; after a REVGAP error training starts again. -/
def execTrainingTimeout (p : Nat) (s : State) : Host.Outcome State Fault Refusal :=
  let f := getFacet s p
  if p < nFacets s ∧ training f then
    if f.train.holdTo ≠ 0 then .next (if f.train.holdTo ≤ s.tb then startTraining s p else s)
    else .next (if f.train.start + 10000000 ≤ s.tb then failedAttempt s p else s)
  else .next s

/-- CYC_RECEPTION (R247, R248, R422): the CYC of the other end is compared with the local boundary; a tail that disciplines the timebase takes
its arrival as a measurement (TBEVT, in the timebase family). `cyc` is its cycle number, `ts` the timestamp it carries. -/
def cycSupervise (s : State) (p cyc arrived : Nat) : State :=
  if linkUp (getFacet s p) && !isEther s p then cycReceive s p cyc arrived else s

/-- ERROR_WINDOW_END (R261): at each whole second the window is judged; a third window in a row above the limit retires the facet. -/
def execErrorWindowEnd (p : Nat) (s : State) : Host.Outcome State Fault Refusal :=
  let f := getFacet s p
  let now := s.tb / 1000000000
  if nFacets s ≤ p ∨ now ≤ f.winSec then .next s
  else
    let s1 := setFacet s p { f with winSec := now, winErrs := 0 }
    if !watched f then .next (modFacet s1 p fun f => { f with winBad := 0 })
    else if f.winErrs ≤ cfg s p 0x0B then .next (modFacet s1 p fun f => { f with winBad := 0 })
    else
      let s2 := setFevt (modFacet s1 p fun f => { f with winBad := f.winBad + 1 }) p (fevtBit 11)
      .next (if 3 ≤ f.winBad + 1 then retireFacet s2 p 2 else s2)

/-- SIGNAL_LOSS_TIMEOUT (R261): signal detect false without a break for more than 10 ms. -/
def execSignalLossTimeout (p : Nat) (s : State) : Host.Outcome State Fault Refusal :=
  let f := getFacet s p
  match f.lostAt with
  | none => .next s
  | some t => if p < nFacets s ∧ watched f ∧ t + 10000000 < s.tb then .next (retireFacet s p 1) else .next s

end Sys2Proof.Machine
end

