-- ==== Sys2Proof/Machine/CoreReset.lean ====
section
/-! DEFINITION. The resets of a core and of a cluster, and the re-posts they lead to (R168, R187, R271, R405 to R407). -/

namespace Sys2Proof.Machine

/-! ### Re-posts (R271) -/

/-- The received frames held for the beams that satisfy `t` are posted again, in their order of arrival and before the posts that wait. -/
def repostBeams (s : State) (t : Nat → Bool) : State :=
  let owned (x : RxPost) : Bool := match x.beam with | some b => t b | none => false
  { s with facets := s.facets.map fun e =>
      (e.1, { e.2 with held := e.2.held.filter fun x => !owned x
                       posts := (e.2.held.filter owned).map (fun x => { x with again := true }) ++ e.2.posts }) }

/-- The held frames of the beams core `n` owns are re-posted. -/
def repost (s : State) (n : Nat) : State := repostBeams s fun b => (getBeam s b).valid && (getBeam s b).owner.toNat == n

/-! ### Loans and banks -/

/-- The loans of the banks of cluster `c` that `o` owns end (R187). -/
def endLoansOf (s : State) (c : Nat) (o : Nat → Bool) : State :=
  (List.range 4).foldl (fun t k => if o (getBank t c k).owner then restoreLoan t c k else t) s

/-- Every loan of the device ends (R187). -/
def endAllLoans (s : State) : State := s.clusters.foldl (fun t e => endLoansOf t e.1 fun _ => true) s

/-- Every merge entry of a cluster is written out. -/
def flushCluster (s : State) (c : Nat) : State := (List.range 4).foldl (fun t k => flushMerge t c k) s

/-! ### Core reset (R405, R406) -/

/-- The registers of a core after its reset. The event-overflow count, the receive queue, the completion FIFO and the Loupe's registers are
kept, a halt is cleared (R471), and so is the numbering of its stores. -/
def resetRegs (n : Nat) (k : LensCore) : LensCore :=
  { k with
    g := [], bits := [], r := Regs.reset
    u := { Units.reset with nstore := k.u.nstore }
    i := Issue.reset
    e := { Events.reset n with evovf := k.e.evovf }
    q := { k.q with rtxa := 0, rtxl := 0x1FF000#32, rtxdest := 0 }
    lp := { k.lp with halted := false, why := 0, pending := false, stepping := 0, pass := false } }

/-- Steps 1 to 5 of a core reset (R406): the loans in the banks it owns end, the active warden's where OWNER = 4 (R187). A retired core stays
retired. A warden's watchdog counts from its reset (R202). -/
def coreResetOp (s : State) (n : Nat) : State :=
  let was := (getCore s n).i.run
  let s1 := settleWork s n
  let s2 :=
    if isWarden n then (if s.active == some n then s1.clusters.foldl (fun t e => endLoansOf t e.1 fun o => o == 4) s1 else s1)
    else endLoansOf s1 (clusterOf n) fun o => o == n % 4
  modCore s2 n fun k =>
    let k0 := resetRegs n k
    let k1 : LensCore := { k0 with e := { k0.e with wdStart := s.tb } }
    if was = .retired then { k1 with i := { k1.i with run := .retired } } else k1

/-! ### Cluster reset (R405, R407) -/

/-- Bank `k` with its registers at their reset values; spares in use, the correction history and the next window are kept. -/
def resetBank (k : Nat) (b : Bank) : Bank :=
  { Bank.reset k with remap := b.remap, hist := b.hist, nextWin := b.nextWin, lastLoan := b.lastLoan, merge := b.merge }

/-- The cluster block registers at their reset values, and the beam cache empty. The pace is set by the caller. -/
def resetClusterRegs (v : Cluster) : Cluster :=
  { v with
    clevt := 0, cleven := Cluster.reset.cleven, xcol0 := 0, xcol1 := 0, bcol0 := 0, bcol1 := 0, conf := [], cache := []
    quiesced := false, classic := true, sw := none, swAns := none, sw2 := [], pace := 0, broken := false, why := 0
    banks := v.banks.map fun e => (e.1, resetBank e.1 e.2) }

/-- Steps 1 and 2 of a cluster reset (R407). -/
def clusterResetOp (s : State) (c : Nat) : State :=
  let cores := (List.range 4).map fun i => 4 * c + i
  let s1 := endLoansOf s c fun _ => true
  let s2 := cores.foldl coreResetOp s1
  modCluster (flushCluster s2 c) c resetClusterRegs

end Sys2Proof.Machine
end

