-- ==== Sys2Proof/Machine/Deliveries.lean ====
section
/-! DEFINITION. What the units beside the pipe deliver: products, divides, fpu results, loads, beam operations; the store buffer and the merge
buffers drain (R89 to R94, R109, R154 to R157, R214). -/

namespace Sys2Proof.Machine

/-- MUL_PRODUCT_DELIVERY (R39, R89): the products due are written into MHI:MLO. -/
def execMulProductDelivery (n : Nat) (s : State) : Host.Outcome State Fault Refusal :=
  .next (modCore s n fun k => deliverProducts k.i.steps k)

/-- DIV_DELIVERY (R40, R41, R90, R91): quotient and remainder, and the sticky bit of an edge case, once its latency has passed. -/
def execDivDelivery (n : Nat) (s : State) : Host.Outcome State Fault Refusal :=
  let k := getCore s n
  match k.u.div with
  | none => .next s
  | some d =>
    if k.i.steps < d.trig + divLatency s n then .next s
    else
      let k1 := setSk (setSk { k with u := { k.u with div := none } } 0x233 d.quo) 0x234 d.rem
      .next (setCore s n (match d.flag with | some b => setPbit k1 b true | none => k1))

/-- FPU_DELIVERY (R40, R41, R108 to R110): the oldest operation delivers `out` and `fl`, once its latency has passed. -/
def execFpuDelivery (n : Nat) (s : State) : Host.Outcome State Fault Refusal :=
  let k := getCore s n
  match k.u.fpu with
  | [] => .next s
  | f :: rest =>
    if k.i.steps < f.trig + f.lat then .next s
    else .next (setCore s n (setSk (setSk { k with u := { k.u with fpu := rest } } 0x292 f.out) 0x293 f.fl))

/-- BEAM_OPERATION_DELIVERY (R214 to R217). -/
def execBeamOperationDelivery (n : Nat) (s : State) : Host.Outcome State Fault Refusal := .next (beamDeliver s n)

/-- The frame entry a load of the interrupted code delivers into (R195). -/
def deliverToFrame (k : LensCore) (j : Nat) (d : LoadData) : LensCore :=
  let f := frameEntry k j
  let f' : FrameEntry := { f with deliv := true, pois := d.pois.isSome, val := if d.pois.isSome then 0 else d.val,
                                  ba := match d.pois with | some a => a | none => f.ba }
  { k with e := { k.e with frame := Tab.put j f' k.e.frame } }

/-- Load number `i` of the lsu delivers (R93, R94, R195): a load of the running code writes `lsu.out` unless it is poisoned, and ends the
outstanding status of every older one. A load whose status has ended delivers nothing, but a bare load of the `lsu.rdy` kind still puts its
data in `lsu.out`, as `lsu.rdy` says it does (R63). -/
def deliverLoad (s : State) (n i : Nat) (l : Load) (d : LoadData) : State :=
  modCore s n fun k =>
    match l.toFrame with
    | some j => deliverToFrame { k with u := { k.u with loads := k.u.loads.eraseIdx i } } j d
    | none =>
      if !l.outst then
        let k1 : LensCore := { k with u := { k.u with loads := k.u.loads.eraseIdx i } }
        if l.bare && !stepLocked n l.addr.toNat l.kind && d.pois.isNone then setSk k1 0x24B d.val else k1
      else
        let older := (k.u.loads.take i).map fun x => if x.toFrame.isNone then { x with outst := false } else x
        let loads := (older.filter fun x => x.outst || !x.deliv || x.toFrame.isSome) ++ { l with deliv := true } :: k.u.loads.drop (i + 1)
        let k1 : LensCore := { k with u := { k.u with loads } }
        if d.pois.isSome then k1 else setSk k1 0x24B d.val

/-- The steps by which a paced core's load of code flash or of a device register comes after the third are counted (R42). -/
def loadLate (s : State) (n : Nat) (l : Load) : State := if lsuHit n l then s else countLate s n l.trig 3

/-- LOAD_DELIVERY (R41, R42, R63, R93 to R95, R117, R155): the load is performed if it was waiting and no longer need, then delivers, one of
scratch, exchange RAM, the bit store or a bank not before its latency has passed, one of code flash when the flash channel has served it. A
device load is returned by DEVICE_ACCESS_COMPLETION. -/
def execLoadDelivery (n i : Nat) (s0 : State) : Host.Outcome State Fault Refusal :=
  let s := tryPerform drainEntry s0 n i
  let k := getCore s n
  match k.u.loads[i]? with
  | none => .next s
  | some l =>
    match l.data with
    | none => .next s
    | some d =>
      if l.deliv || (lsuHit n l && decide (k.i.steps < loadDue s n l)) || l.kind == .device then .next s
      else if flashLoad s n l then
        let t := flashTurn s n fun r => r.kind == .load && r.line == l.addr.toNat / 64
        .next (if t.2.isSome then deliverLoad (loadLate t.1 n l) n i l d else t.1)
      else .next (deliverLoad (loadLate s n l) n i l d)

/-- What stands before an entry of the store buffer: an older device load or exchange that is not yet performed (R156), an older load of its
word that is not yet performed, which must not return it (R159), or the handover of its bank (R170). -/
def storeBlocked (s : State) (n : Nat) (e : StoreEntry) : Bool :=
  heldByHandover s n e ||
  (getCore s n).u.loads.any fun l => l.data.isNone && decide (l.snap ≤ e.id) &&
    (l.kind == .device || l.xchg.isSome || overlaps (8 * e.word) 8 (globalOf n l.addr.toNat) l.size)

/-- STORE_DRAIN (R154, R157, R161, R173): the oldest entry, or the oldest linked pair, is performed. -/
def execStoreDrain (n : Nat) (s : State) : Host.Outcome State Fault Refusal :=
  let k := getCore s n
  match k.u.stores with
  | [] => .next s
  | e :: _ =>
    if e.kind == .device || storeBlocked s n e || classicWait s n e.word then .next s
    else .next (drainFirst drainEntry (if e.linked then 2 else 1) s n)

/-- MERGE_WRITE_OUT (R157): the oldest incomplete entry of the bank whose 16 steps have ended is written. -/
def execMergeWriteOut (c k : Nat) (s : State) : Host.Outcome State Fault Refusal :=
  match (getBank s c k).merge.find? fun e => decide (e.opened + 17 ≤ stepsOf s e.core) with
  | none => .next s
  | some e => .next (forceMerge s e.word)

end Sys2Proof.Machine
end

