-- ==== Sys2Proof/Machine/Iris.lean ====
section
/-! DEFINITION. The Iris: measurement, allotments, stop-down, the current emergency, paces under heat (R363 to R372, R374). -/

namespace Sys2Proof.Machine

/-! ### Budget and allotments (R364 to R367) -/

def budgetOf (s : State) : Nat := ent s 0x2100 1
def requestOf (s : State) (c : Nat) : Nat := ent s 0x2101 (c + 1)
/-- The default reserve of a pace code (R365). -/
def paceReserve (code : Nat) : Nat :=
  if code = 0 then 0 else if code = 1 then 20 else if code = 2 then 18 else if code = 3 then 16 else if code = 4 then 14 else 12

/-- The reserve of cluster `c` at pace `code` (R365). -/
def reserveOf (s : State) (c code : Nat) : Nat := if code = 0 then 0 else max (requestOf s c) (paceReserve code)

/-- H of R364: the highest shared draw of the last 1 ms, in whole steps. -/
def sharedPeak (s : State) : Nat :=
  ((s.iris.shared.filter fun e => decide (s.tb ≤ e.1 + 1000000)).foldl (fun m e => max m e.2) 0 + 124) / 125

/-- The left side of the inequality of R366, with cluster `c` at pace `code`. -/
def reserveNeed (s : State) (c code : Nat) : Nat :=
  (List.range (nClusters s)).foldl (fun t i =>
    let p := if i = c then code else (getCluster s i).pace
    t + (if p = 0 then 4 else reserveOf s i p)) (sharedPeak s)

/-- The check of R366 of a pace. -/
def reserveFits (s : State) (c code : Nat) : Bool := decide (reserveNeed s c code ≤ budgetOf s)

/-- The clusters already paced keep their reserves within the budget. -/
def pacedFit (s : State) : Bool :=
  !((List.range (nClusters s)).any (isPaced s)) || decide (reserveNeed s (nClusters s) 0 ≤ budgetOf s)

/-- Requests granted in increasing cluster number from `avail` steps above the floors: cluster and steps, and what is left (R364 step 4). -/
def grantRequests (s : State) : List Nat → Nat → List (Nat × Nat) × Nat
  | [], avail => ([], avail)
  | c :: cs, avail =>
    let more := min (max 4 (requestOf s c) - 4) avail
    let r := grantRequests s cs (avail - more)
    ((c, 4 + more) :: r.1, r.2)

/-- The allotments of R364 and R367, by cluster, before the thermal caps, with P and whether the pool is short. -/
structure AllotPlan where
  steps : List (Nat × Nat)
  pool  : Nat
  short : Bool

def allotPlan (s : State) (h : Nat) : AllotPlan :=
  let b := budgetOf s
  let cs := List.range (nClusters s)
  let paced := cs.filter (isPaced s)
  let free := cs.filter fun c => !isPaced s c
  let res := paced.map fun c => (c, reserveOf s c (getCluster s c).pace)
  let need := res.foldl (fun t e => t + e.2) 0 + 4 * free.length
  if b < h + need then { steps := res ++ free.map fun c => (c, 4), pool := b - h, short := true }
  else
    let ask := free.filter fun c => requestOf s c != 0
    let rest := free.filter fun c => requestOf s c == 0
    let g := grantRequests s ask (b - h - need)
    let left := g.2 + 4 * rest.length
    let share := if rest.isEmpty then [] else rest.zipIdx.map fun e => (e.1, left / rest.length + (if e.2 < left % rest.length then 1 else 0))
    { steps := res ++ g.1 ++ share, pool := b - h, short := false }

/-- The thermal cap of a free-running cluster's allotment (R372). -/
def thermalCap (s : State) (c a : Nat) : Nat :=
  if isPaced s c then a
  else
    let t := Tab.get (fun _ => 0) (c / 8) s.iris.tstate
    if t = 2 then 4 else if t = 1 then 4 + (a - 4) / 2 else a

/-- The allotments are computed and written into the Iris (R364). -/
def recomputeAllot (s : State) : State :=
  let h := sharedPeak s
  let p := allotPlan s h
  let s1 := p.steps.foldl (fun t e => modIr t e.1 fun v => { v with allot := thermalCap s e.1 e.2 }) s
  { s1 with iris := { s1.iris with h, pool := p.pool, short := p.short, lastAllot := s.tb, fresh := false } }

/-- ALLOTMENT_RECOMPUTATION (R364, R374): every 1 ms, and at once after what R364 names; the policy runs once the loader has. -/
def execAllotmentRecomputation (s : State) : Host.Outcome State Fault Refusal :=
  if s.active.isSome && decide (9 ≤ s.power.stage) && !s.iris.shutdown && (s.iris.fresh || decide (s.iris.lastAllot + 1000000 ≤ s.tb)) then
    .next (recomputeAllot s)
  else .next s

/-- The allotments are to be computed at once (R364). -/
def wantAllot (s : State) : State := { s with iris := { s.iris with fresh := true } }

/-- A write of 0x2100:01 or of a request (R351, R366): `none` where the entry is neither. -/
def budgetWrite (s : State) (idx sub v : Nat) : State × Option Nat :=
  let s1 := wantAllot (setEnt s idx sub v)
  if idx = 0x2100 then
    if v = 0 ∨ 960 < v then (s, some 0x03000001)
    else if !pacedFit s1 then (s, some 0x03000003)
    else ({ s1 with iris := { s1.iris with overs := 0, within := s.tb } }, none)
  else if nClusters s ≤ sub - 1 then (s, some 0x02000006)
  else if !pacedFit s1 then (s, some 0x03000003)
  else (s1, none)

/-- BUDGET_WRITE (R351, R366, R377). -/
def execBudgetWrite (idx sub v : Nat) (s : State) : Host.Outcome State Fault Refusal :=
  if (idx = 0x2100 ∧ sub = 1) ∨ (idx = 0x2101 ∧ 1 ≤ sub ∧ sub ≤ 32) then .next (answered (budgetWrite s idx sub v)) else .next s

/-! ### Measurement and stop-down (R363, R368, R369, R371) -/

/-- The level after a measurement of `m` mA against an allotment of `a` mA, and the measurements in a row at least 2 steps below (R368). -/
def nextLevel (l low m a : Nat) : Nat × Nat :=
  if 5 * a < 4 * m then (min 15 (l + 2), 0)
  else if a < m then (min 15 (l + 1), 0)
  else if m + 250 ≤ a then (if 8 ≤ low + 1 then (l - 1, 8) else (l, low + 1))
  else (l, 0)

/-- A cluster's measurement (R368, R369, R374). -/
def measureCluster (s : State) (c m : Nat) : State :=
  let v := getIr s c
  let a := 125 * max 4 v.allot
  if isPaced s c then
    let s1 := setIr s c { v with meas := m, level := 0, low := 0 }
    if a < m then setIrBit s1 c 3 else s1
  else
    let r := nextLevel v.level v.low m a
    let s1 := setIr s c { v with meas := m, level := r.1, low := r.2 }
    let s2 := if v.level = 0 ∧ r.1 ≠ 0 then bumpEnt (setIrBit s1 c 0) 0x2100 6 else s1
    if v.level = 15 ∧ a < m then setIrBit s2 c 2 else s2

/-- The over-budget test of R371; `full` tells whether every free-running cluster stood at L = 15. -/
def overBudget (s : State) (full : Bool) : State :=
  let i := s.iris
  if 125 * budgetOf s < i.pkg then
    let n := if full then min 16 (i.overs + 1) else 0
    let s1 := { s with iris := { i with overs := n, within := s.tb } }
    if 16 ≤ n ∧ !i.excess then raise { s1 with iris := { s1.iris with excess := true, emerg := true } } 771 else s1
  else { s with iris := { i with overs := 0, excess := i.excess && decide (s.tb < i.within + 1000000) } }

/-- The handshakes of the paced clusters while VCORE stands below 0.70 V (R37): the spec says that a step may be late and not which (log entry 48). -/
def lateHandshakes (s : State) : State :=
  if 700 ≤ s.iris.vcore then s
  else
    (((List.range (nClusters s)).filter (isPaced s)).filter (Config.lateStep s.free)).foldl (fun t c => breakPace t c 2) { s with free := s.free + 1 }

/-- IRIS_MEASUREMENT (R363, R368 to R371): `meas` gives the clusters' currents in mA, `shared` the shared draw in mA, `vcore` the supply in mV. -/
def execIrisMeasurement (meas : List Nat) (shared vcore : Nat) (s : State) : Host.Outcome State Fault Refusal :=
  if s.tb < s.iris.lastMeas + 1000 ∨ s.iris.shutdown then .next s
  else
    let cs := List.range (nClusters s)
    let full := cs.all fun c => isPaced s c || (getIr s c).level == 15
    let s1 := cs.foldl (fun t c => measureCluster t c (meas.getD c 0)) s
    let pkg := cs.foldl (fun t c => t + meas.getD c 0) shared
    let log := (s1.iris.shared.filter fun e => decide (s.tb < e.1 + 1000000)) ++ [(s.tb, shared)]
    .next (lateHandshakes (overBudget { s1 with iris := { s1.iris with vcore, pkg, shared := log, lastMeas := s.tb } } full))

/-! ### Paces under heat (R38, R372) -/

/-- The paced clusters of quadrant `q` drop one pace, down to 0.5 G steps/s (R38, R372). -/
def dropPaces (s : State) (q : Nat) : State :=
  ((List.range 8).map fun i => 8 * q + i).foldl (fun t c =>
    let p := (getCluster t c).pace
    if p = 0 then t else wantAllot (breakPace (modCluster t c fun v => { v with pace := min 5 (p + 1) }) c 1)) s

/-- THERMAL_PACE_DROP (R372): at the end of each further 10 ms above 115 °C. -/
def execThermalPaceDrop (q : Nat) (s : State) : Host.Outcome State Fault Refusal :=
  match Tab.find q s.iris.hot with
  | none => .next s
  | some t =>
    if q < nQuads s ∧ Tab.get (fun _ => 0) q s.iris.tstate = 2 ∧ t + 10000000 ≤ s.tb then
      .next (dropPaces { s with iris := { s.iris with hot := Tab.put q (t + 10000000) s.iris.hot } } q)
    else .next s

/-- The thermal state of a quadrant in state `st` after a reading of `t` tenths of a degree (R372). -/
def nextThermal (st : Nat) (t : Int) : Nat :=
  if 1150 < t then 2 else if st = 2 then (if t < 1100 then 1 else 2) else if st = 1 then (if t < 1000 then 0 else 1) else (if 1050 < t then 1 else 0)

/-- A reading of quadrant `q` (R372), thermal shutdown apart. -/
def thermalQuad (s : State) (q : Nat) (t : Int) : State :=
  let st := Tab.get (fun _ => 0) q s.iris.tstate
  let n := nextThermal st t
  let hot := if 1150 < t then (match Tab.find q s.iris.hot with | some x => Tab.put q x s.iris.hot | none => Tab.put q s.tb s.iris.hot)
             else Tab.del q s.iris.hot
  let s1 := { s with iris := { s.iris with temps := Tab.put q t s.iris.temps, tstate := Tab.put q n s.iris.tstate, hot } }
  if n = st then s1
  else
    let s2 := wantAllot s1
    if n = 2 then raise (dropPaces { s2 with iris := { s2.iris with emerg := true } } q) 771 else s2

/-- The highest quadrant temperature, in tenths of a degree. -/
def topTemp (s : State) : Int := (List.range (nQuads s)).foldl (fun m q => max m (Tab.get (fun _ => 0) q s.iris.temps)) (Tab.get (fun _ => 0) 0 s.iris.temps)

def topState (s : State) : Nat := (List.range (nQuads s)).foldl (fun m q => max m (Tab.get (fun _ => 0) q s.iris.tstate)) 0

end Sys2Proof.Machine
end

