-- ==== Sys2Proof/Machine/Pace.lean ====
section
/-! DEFINITION. The pace of a cluster: its write, and the switch between free-running and paced (R32 to R36, R377). -/

namespace Sys2Proof.Machine

/-- The write slows a paced cluster down: a change to a lower pace never fails the check of the reserves (R366). -/
def slowsDown (s : State) (c v : Nat) : Bool := (getCluster s c).pace != 0 && decide ((getCluster s c).pace < v)

/-- The refusals of R33 of a non-zero pace code, in its order. -/
def paceRefused (s : State) (c v : Nat) : Option Nat :=
  let q := c / 8
  if s.iris.vcore < 700 then some 0x04000001
  else if !slowsDown s c v && !reserveFits s c v then some 0x03000003
  else if (servingCores s c).isEmpty then some 0x04000001
  else if 1050 < Tab.get (fun _ => 0) q s.iris.temps ∨ Tab.get (fun _ => 0) q s.iris.tstate = 2 then some 0x04000001
  else none

/-- Every check of a write of cluster `c`'s pace code (R32, R33, R372). A lowered pace is not lifted while the quadrant is in state 2. -/
def paceCheck (s : State) (c v : Nat) : Option Nat :=
  if nClusters s ≤ c then some 0x02000006
  else if 5 < v then some 0x03000001
  else if v ≠ 0 then paceRefused s c v
  else if (getCluster s c).broken ∧ (getCluster s c).why = 1 ∧ Tab.get (fun _ => 0) (c / 8) s.iris.tstate = 2 then some 0x04000001
  else none

/-- A checked write of the entry (R34, R35, R37): it clears the broken mark, sets a new pace, or starts a mode switch. -/
def paceAccept (s : State) (c v : Nat) (r : Option Reply) : State :=
  let s1 := setEnt (modCluster s c fun x => { x with broken := false }) 0x2010 (c + 1) v
  let p := (getCluster s c).pace
  if (p = 0) = (v = 0) then (if p = v then s1 else wantAllot (modCluster s1 c fun x => { x with pace := v }))
  else modCluster s1 c fun x => { x with sw := some v, swAns := r }

/-- A write of 0x2010 (R32 to R35), with the request it answers if it came over a transport: one that finds a switch in progress waits for it. -/
def paceRequest (s : State) (c v : Nat) (r : Option Reply) : State × Option Nat :=
  if c < nClusters s ∧ (getCluster s c).sw.isSome then (modCluster s c fun x => { x with sw2 := x.sw2 ++ [(v, r)] }, none)
  else
    match paceCheck s c v with
    | some e => (s, some e)
    | none => (paceAccept s c v r, none)

def paceWrite (s : State) (c v : Nat) : State × Option Nat := paceRequest s c v none

/-- PACE_WRITE (R32 to R34). -/
def execPaceWrite (c v : Nat) (s : State) : Host.Outcome State Fault Refusal := .next (answered (paceWrite s c v))

/-! ### The mode switch (R35) -/

/-- A core has stopped at its point: a boundary, or it does not issue (R35). -/
def atPoint (s : State) (n : Nat) : Bool :=
  let k := getCore s n
  k.i.run != .running || k.lp.halted || (boundary s n && k.i.fault.isNone)

/-- Accesses to devices that have not completed (R156). -/
def deviceWaits (k : LensCore) : Bool :=
  (k.u.loads.any fun l => l.kind == .device && l.data.isNone) || (k.u.stores.any fun e => e.kind == .device)

/-- The divide and the fpu operations in flight deliver. -/
def finishMath (k : LensCore) : LensCore :=
  let k1 := match k.u.div with
    | none => k
    | some d =>
      let k0 := setSk (setSk { k with u := { k.u with div := none } } 0x233 d.quo) 0x234 d.rem
      match d.flag with | some b => setPbit k0 b true | none => k0
  match k1.u.fpu.getLast? with
  | none => k1
  | some f => setSk (setSk { k1 with u := { k1.u with fpu := [] } } 0x292 f.out) 0x293 f.fl

/-- A bare step-locked load before its third step: no interlock waits for it, so it keeps its steps over the switch (R39, R63). -/
def keepsSteps (n st : Nat) (l : Load) : Bool := l.bare && stepLocked n l.addr.toNat l.kind && decide (st < l.trig + 3)

/-- The entries of the store buffer before number `id` leave it, oldest first. -/
def drainOlder (s : State) (n id : Nat) : State :=
  drainFirst drainEntry ((getCore s n).u.stores.takeWhile fun e => decide (e.id < id)).length s n

/-- Load number `i` is performed, after the older stores that it waits for. -/
def performInOrder (s : State) (n i : Nat) : State :=
  let s1 := tryPerform drainEntry s n i
  match (getCore s1 n).u.loads[i]? with
  | none => s1
  | some l => if l.data.isSome then s1 else tryPerform drainEntry (drainOlder s1 n l.snap) n i

/-- Every load of the core is performed, oldest first, and delivers unless it keeps its steps. -/
def finishLoads : Nat → State → Nat → State
  | 0, s, _ => s
  | m + 1, s, n =>
    let k := getCore s n
    match k.u.loads.findIdx? fun l => !l.deliv && !(l.data.isSome && keepsSteps n k.i.steps l) with
    | none => s
    | some i =>
      let s1 := performInOrder s n i
      match (getCore s1 n).u.loads[i]? with
      | none => s1
      | some l =>
        match l.data with
        | none => s1
        | some d => finishLoads m (if keepsSteps n k.i.steps l then s1 else deliverLoad s1 n i l d) n

/-- Steps 2 and 3 of the switch for one core: its operations complete, loads and exchanges in program order with the stores before them, then its
store buffer drains (R35, R159). A copy is parked and goes on later. -/
def finishCore (s : State) (n : Nat) : State :=
  let s1 := finishLoads (2 * (getCore s n).u.loads.length + 1) s n
  let s2 := beamFinish (modCore s1 n finishMath) n
  drainFirst drainEntry (getCore s2 n).u.stores.length s2 n

/-- The line cache and the BTB are empty (R35 step 4). -/
def emptyCaches (k : LensCore) : LensCore := { k with i := { k.i with cache := [], btb := [] } }

/-- Steps 2 to 6 of the switch of cluster `c` to code `v` (R35, R377). -/
def switchMode (s : State) (c v : Nat) : State :=
  let cores := ((List.range 4).map fun i => 4 * c + i).filter (corePresent s)
  let s1 := endLoansOf s c fun _ => true
  let s2 := flushCluster (cores.foldl finishCore s1) c
  let s3 := cores.foldl (fun t n => modCore t n emptyCaches) s2
  let s4 := modCluster s3 c fun x => { x with pace := v, sw := none, swAns := none, sw2 := [], classic := v != 0 || s.power.arb }
  wantAllot (modIr s4 c fun x => { x with level := 0, low := 0 })

/-- The switch of cluster `c` can be made (R35): every core stands at its point and no device access waits. -/
def switchReady (s : State) (c : Nat) : Bool :=
  (((List.range 4).map fun i => 4 * c + i).filter (corePresent s)).all fun n => atPoint s n && !deviceWaits (getCore s n)

/-- The pace of cluster `c` as the loader applies it (R407, R472): set before its cores run, or 0 where the stored code is refused. -/
def loadPace (s : State) (c v : Nat) : State × Option Nat :=
  match paceCheck s c v with
  | some e => (s, some e)
  | none => (wantAllot (setEnt (modCluster s c fun x => { x with pace := v, classic := v != 0 || s.power.arb }) 0x2010 (c + 1) v), none)

end Sys2Proof.Machine
end

