-- ==== Sys2Proof/Machine/Sha.lean ====
section
/-! DEFINITION. SHA-256 and HMAC-SHA-256, which the spec names for key digests, sessions and reflexes (R298, R327, R329, R385). -/

namespace Sys2Proof.Machine

/-- The round constants of SHA-256. -/
def shaK : List Nat :=
  [0x428a2f98, 0x71374491, 0xb5c0fbcf, 0xe9b5dba5, 0x3956c25b, 0x59f111f1, 0x923f82a4, 0xab1c5ed5] ++
  [0xd807aa98, 0x12835b01, 0x243185be, 0x550c7dc3, 0x72be5d74, 0x80deb1fe, 0x9bdc06a7, 0xc19bf174] ++
  [0xe49b69c1, 0xefbe4786, 0x0fc19dc6, 0x240ca1cc, 0x2de92c6f, 0x4a7484aa, 0x5cb0a9dc, 0x76f988da] ++
  [0x983e5152, 0xa831c66d, 0xb00327c8, 0xbf597fc7, 0xc6e00bf3, 0xd5a79147, 0x06ca6351, 0x14292967] ++
  [0x27b70a85, 0x2e1b2138, 0x4d2c6dfc, 0x53380d13, 0x650a7354, 0x766a0abb, 0x81c2c92e, 0x92722c85] ++
  [0xa2bfe8a1, 0xa81a664b, 0xc24b8b70, 0xc76c51a3, 0xd192e819, 0xd6990624, 0xf40e3585, 0x106aa070] ++
  [0x19a4c116, 0x1e376c08, 0x2748774c, 0x34b0bcb5, 0x391c0cb3, 0x4ed8aa4a, 0x5b9cca4f, 0x682e6ff3] ++
  [0x748f82ee, 0x78a5636f, 0x84c87814, 0x8cc70208, 0x90befffa, 0xa4506ceb, 0xbef9a3f7, 0xc67178f2]

/-- The initial hash value of SHA-256. -/
def shaInit : List Word := [0x6a09e667#32, 0xbb67ae85#32, 0x3c6ef372#32, 0xa54ff53a#32, 0x510e527f#32, 0x9b05688c#32, 0x1f83d9ab#32, 0x5be0cd19#32]

def shaCh (x y z : Word) : Word := (x &&& y) ^^^ (~~~x &&& z)
def shaMaj (x y z : Word) : Word := (x &&& y) ^^^ (x &&& z) ^^^ (y &&& z)
def shaBig0 (x : Word) : Word := x.rotateRight 2 ^^^ x.rotateRight 13 ^^^ x.rotateRight 22
def shaBig1 (x : Word) : Word := x.rotateRight 6 ^^^ x.rotateRight 11 ^^^ x.rotateRight 25
def shaSmall0 (x : Word) : Word := x.rotateRight 7 ^^^ x.rotateRight 18 ^^^ (x >>> 3)
def shaSmall1 (x : Word) : Word := x.rotateRight 17 ^^^ x.rotateRight 19 ^^^ (x >>> 10)

/-- The message schedule, newest word first, extended by `n` words. -/
def shaExtend : Nat → List Word → List Word
  | 0, w => w
  | n + 1, w => shaExtend n ((shaSmall1 (w.getD 1 0) + w.getD 6 0 + shaSmall0 (w.getD 14 0) + w.getD 15 0) :: w)

/-- One round on the eight working words. -/
def shaRound (v : List Word) (kw : Word) : List Word :=
  match v with
  | [a, b, c, d, e, f, g, h] =>
    let t1 := h + shaBig1 e + shaCh e f g + kw
    [t1 + shaBig0 a + shaMaj a b c, a, b, c, d + t1, e, f, g]
  | v => v

/-- Octets as 32-bit words, most significant octet first. -/
def shaWords : Nat → Octets → List Word
  | 0, _ => []
  | n + 1, v => BitVec.ofNat 32 (((v.take 4) ++ List.replicate (4 - v.length) 0).foldl (fun (t : Nat) (b : Byte) => 256 * t + b.toNat) 0) :: shaWords n (v.drop 4)

/-- A 64-octet block is taken into the hash value. -/
def shaBlock (h : List Word) (blk : Octets) : List Word :=
  let w := (shaExtend 48 (shaWords 16 blk).reverse).reverse
  let kw := (shaK.zip w).map fun e => BitVec.ofNat 32 e.1 + e.2
  (h.zip (kw.foldl shaRound h)).map fun e => e.1 + e.2

def shaBlocks : Nat → List Word → Octets → List Word
  | 0, h, _ => h
  | n + 1, h, v => shaBlocks n (shaBlock h (v.take 64)) (v.drop 64)

/-- SHA-256: 32 octets. -/
def sha256 (v : Octets) : Octets :=
  let z := (119 - v.length % 64) % 64
  let m := v ++ [0x80#8] ++ List.replicate z 0 ++ (leOctets 8 (8 * v.length)).reverse
  (shaBlocks (m.length / 64) shaInit m).flatMap fun x => (leOctets 4 x.toNat).reverse

/-- HMAC-SHA-256 under a key. -/
def hmac (key v : Octets) : Octets :=
  let k0 := if 64 < key.length then sha256 key else key
  let k := k0 ++ List.replicate (64 - k0.length) 0
  sha256 (k.map (· ^^^ 0x5C#8) ++ sha256 (k.map (· ^^^ 0x36#8) ++ v))

end Sys2Proof.Machine
end

