-- ==== Sys2Proof/Machine/Image.lean ====
section
/-! DEFINITION. The program image: its layout and the checks of the loader (R378 to R386). -/

namespace Sys2Proof.Machine

/-- The code-flash base of a slot: 0 A, 1 B (R378). -/
def slotBase (slot : Nat) : Nat := if slot = 0 then 0x08000000 else 0x0A000000

/-- Octets of the slot in code flash. -/
def imgBytes (s : State) (slot off n : Nat) : Octets := Mem.readAll (slotBase slot + off) n s.mem

/-- A flash line of these octets of the slot is uncorrectable (R386). -/
def imgBad (s : State) (slot off n : Nat) : Bool :=
  let a := slotBase slot + off
  s.ecc.any fun e => decide (2 ≤ e.2) && decide (a / 64 * 8 ≤ e.1) && decide (e.1 < (a + n + 63) / 64 * 8)

def zeroOctets (v : Octets) (o n : Nat) : Bool := ((v.drop o).take n).all fun b => b == 0

/-- An aperture template (R380). -/
structure Template where
  bsect  : Nat
  rights : Byte
  boff   : Nat
  limit  : Nat
  clean  : Bool
  deriving DecidableEq, Repr

/-- A section (R381). -/
structure Section where
  foff  : Nat
  size  : Nat
  dest  : Nat
  attr  : Nat
  deriving DecidableEq, Repr

/-- A relocation record (R383). -/
structure Reloc where
  ssect : Nat
  tsect : Nat
  soff  : Nat
  type  : Nat
  aper  : Nat
  slot  : Nat
  deriving DecidableEq, Repr

/-- An image as its header describes it (R379). -/
structure Image where
  slot     : Nat
  hdr      : Octets
  version  : Nat
  length   : Nat
  nopair   : Bool
  nreloc   : Nat
  reloff   : Nat
  entsect  : Nat
  unitsreq : Nat
  entoff   : Nat
  mincores : Nat
  peakcl   : Nat
  peakcore : Nat
  apts     : List Template
  sects    : List Section
  relocs   : List Reloc
  deriving DecidableEq, Repr

def Section.kind (x : Section) : Nat := x.attr % 4
def Section.place (x : Section) : Nat := x.attr / 4 % 4
def Section.bank (x : Section) : Nat := x.attr / 16 % 4
def Section.zero (x : Section) : Bool := x.attr / 64 % 2 == 1
def Section.exec (x : Section) : Bool := x.attr / 128 % 2 == 1

def templateOf (v : Octets) (i : Nat) : Template :=
  let t := v.drop (64 + 16 * i)
  { bsect := leAt t 0 2, rights := (t.drop 2).headD 0, boff := leAt t 4 4, limit := leAt t 8 4, clean := zeroOctets t 3 1 && zeroOctets t 12 4 }

def sectionOf (v : Octets) (i : Nat) : Section :=
  { foff := leAt v (16 * i) 4, size := leAt v (16 * i + 4) 4, dest := leAt v (16 * i + 8) 4, attr := leAt v (16 * i + 12) 4 }

def relocOf (v : Octets) (i : Nat) : Reloc :=
  let o := 12 * i
  { ssect := leAt v o 2, tsect := leAt v (o + 2) 2, soff := leAt v (o + 4) 4, type := leAt v (o + 8) 2, aper := leAt v (o + 10) 1,
    slot := leAt v (o + 11) 1 }

/-- The image of a slot with the header `h`. -/
def imageWith (s : State) (slot : Nat) (h : Octets) : Image :=
  let nsect := leAt h 16 2
  let nreloc := leAt h 20 4
  let reloff := leAt h 24 4
  { slot, hdr := h, version := leAt h 8 4, length := leAt h 12 4, nopair := leAt h 18 2 % 2 == 1, nreloc, reloff, entsect := leAt h 28 2,
    unitsreq := leAt h 30 2, entoff := leAt h 32 4, mincores := leAt h 36 2, peakcl := leAt h 40 4, peakcore := leAt h 44 4,
    apts := (List.range 8).map (templateOf h)
    sects := (List.range nsect).map (sectionOf (imgBytes s slot 512 (16 * nsect)))
    relocs := (List.range nreloc).map (relocOf (imgBytes s slot reloff (12 * nreloc))) }

/-- The image of a slot (R378, R379). -/
def imageOf (s : State) (slot : Nat) : Image := imageWith s slot (imgBytes s slot 0 512)

/-! ### Check 1: the header (R379) -/

def headerGood (h : Octets) : Bool :=
  let nsect := leAt h 16 2
  let len := leAt h 12 4
  decide (h.length = 512) && leAt h 0 4 == 0x4D49564C && leAt h 4 2 == 1 && leAt h 6 2 == 512 && leAt h 8 4 != 0 && len % 64 == 0 &&
  decide (512 + 16 * nsect ≤ len) && decide (len ≤ 0x02000000) && decide (1 ≤ nsect) && decide (nsect ≤ 64) && decide (leAt h 18 2 < 2) &&
  leAt h 24 4 % 4 == 0 && (leAt h 20 4 != 0 || leAt h 24 4 == 0) && decide (leAt h 30 2 < 1024) && leAt h 32 4 % 8 == 0 &&
  decide (1 ≤ leAt h 36 2) && decide (leAt h 36 2 ≤ 128) && zeroOctets h 38 2 && zeroOctets h 48 16 && zeroOctets h 288 224

/-! ### Checks 2 and 3: key and signature (R385) -/

/-- The key digest held in fuses, in octets 0 to 31. -/
def fuseDigest (s : State) : Octets := leOctets 32 (s.power.loaded.toNat % 2 ^ 256)

def digestGood (s : State) (h : Octets) : Bool :=
  let d := fuseDigest s
  d.all (fun b => b == 0) || sha256 ((h.drop 192).take 32) == d

/-- The image's octets as they are signed, the header given. -/
def signedOctets (s : State) (m : Image) : Octets :=
  m.hdr.take 224 ++ List.replicate 64 0 ++ m.hdr.drop 288 ++ imgBytes s m.slot 512 (m.length - 512)

def signatureGood (s : State) (m : Image) : Bool :=
  !imgBad s m.slot 512 (m.length - 512) && ed25519Verify ((m.hdr.drop 192).take 32) (signedOctets s m) ((m.hdr.drop 224).take 64)

/-! ### Check 4: sections, templates, entry (R380 to R382) -/

/-- The combination of KIND and PLACE is allowed, within its limits (R382). -/
def comboGood (x : Section) : Bool :=
  match x.kind, x.place with
  | 0, 0 => x.dest == 0 && x.bank == 0 && !x.zero
  | 1, 2 => decide (x.dest + x.size ≤ 0x4000)
  | 1, 3 => decide (x.dest + x.size ≤ 0x40000) && !x.exec
  | 2, 1 => decide (x.dest + x.size ≤ 0x10000)
  | 2, 3 => decide (x.dest + x.size ≤ 0x40000) && x.bank == 0
  | _, _ => false

def spansMeet (a n b m : Nat) : Bool := decide (a < b + m) && decide (b < a + n)

/-- The octets of the section lie in the image and clear of header and tables (R382). -/
def contentsGood (m : Image) (x : Section) : Bool :=
  decide (x.size % 8 = 0) && decide (8 ≤ x.size) && x.dest % 8 == 0 && decide (x.attr < 256) &&
  (if x.zero then x.foff == 0
   else x.foff % 8 == 0 && decide (512 + 16 * m.sects.length ≤ x.foff) && decide (x.foff + x.size ≤ m.length) &&
     !spansMeet x.foff x.size m.reloff (12 * m.nreloc))

/-- Two sections share a region of some copy. -/
def shareRegion (x y : Section) : Bool :=
  match x.place, y.place with
  | 1, 1 => true
  | 2, 2 => true
  | 3, 3 => x.kind == 2 || y.kind == 2 || x.bank == y.bank
  | _, _ => false

/-- No copy of the section overlaps one of a later section. -/
def copiesApart : List Section → Bool
  | [] => true
  | x :: xs => xs.all (fun y => !(shareRegion x y && spansMeet x.dest x.size y.dest y.size)) && copiesApart xs

def templateGood (m : Image) (t : Template) : Bool :=
  t.clean && t.rights.toNat / 64 != 3 &&
  (decide (t.bsect < m.sects.length) || t.bsect == 0xFFF0 || t.bsect == 0xFFF1 || t.bsect == 0xFFF2 || t.bsect == 0xFFF3 || t.bsect == 0xFFFF) &&
  (t.bsect == 0xFFFF || t.boff % 8 == 0)

def nullSection : Section := { foff := 0, size := 0, dest := 0, attr := 0 }
def sect (m : Image) (i : Nat) : Section := m.sects.getD i nullSection
def nullTemplate : Template := { bsect := 0xFFF0, rights := 0, boff := 0, limit := 0, clean := true }
def apt (m : Image) (i : Nat) : Template := m.apts.getD i nullTemplate

/-- The copy address of a section as core `n` sees it (R382). -/
def copyAddr (m : Image) (n i : Nat) : Nat :=
  let x := sect m i
  match x.kind, x.place with
  | 0, _ => slotBase m.slot + x.foff
  | 1, 2 => 0x10000 + x.dest
  | 1, _ => 0x100000 + x.bank * 0x40000 + x.dest
  | _, 1 => x.dest
  | _, _ => 0x100000 + n % 4 * 0x40000 + x.dest

/-- The base of a template other than 0xFFFF for core `n` (R380). -/
def templateBase (m : Image) (n : Nat) (t : Template) : Nat :=
  (t.boff +
    (if t.bsect < 64 then copyAddr m n t.bsect
     else if t.bsect = 0xFFF1 then 0x10000000 + n * 0x1000
     else if t.bsect = 0xFFF2 then 0x11000000 + n / 4 * 0x10000
     else if t.bsect = 0xFFF3 then 0x12000000 + 8 * (n / 4) * 0x1000
     else 0)) % 2 ^ 32

/-- The aperture `i` of core `n` at release (R380). -/
def apertureOf (m : Image) (n i : Nat) : Aperture :=
  let t := apt m i
  if t.bsect = 0xFFFF then apReset n i
  else { base := BitVec.ofNat 32 (templateBase m n t), limit := BitVec.ofNat 32 t.limit, rights := t.rights }

/-- The base of aperture `i` as relocations take it. -/
def apertureBase (m : Image) (n i : Nat) : Nat := (apertureOf m n i).start

def entryAddr (m : Image) (n : Nat) : Nat := copyAddr m n m.entsect + m.entoff

/-- The entry of core `n` as an offset in AP0, where it lies within the limit. -/
def entryGood (m : Image) (n : Nat) : Bool :=
  decide (apertureBase m n 0 ≤ entryAddr m n) && decide (entryAddr m n - apertureBase m n 0 ≤ (apt m 0).limit)

def sectionsGood (m : Image) : Bool :=
  m.sects.all (fun x => comboGood x && contentsGood m x) && copiesApart m.sects && m.apts.all (templateGood m) &&
  (apt m 0).bsect != 0xFFFF && (apt m 0).rights.getLsbD 5 && decide (m.entsect < m.sects.length) && (sect m m.entsect).exec &&
  decide (m.entoff < (sect m m.entsect).size) && (List.range 128).all (entryGood m)

/-! ### Check 5: relocations (R383, R384) -/

/-- The octets a copy of a section begins with. -/
def sectBytes (s : State) (m : Image) (i : Nat) : Octets :=
  let x := sect m i
  if x.zero then List.replicate x.size 0 else imgBytes s m.slot x.foff x.size

/-- The 64-bit word at offset `o` of octets. -/
def wordAt (v : Octets) (o : Nat) : BitVec 64 := BitVec.ofNat 64 (leAt v o 8)

/-- The offset `a` is the start of a bundle, walking from `o` (R384). -/
def bundleStart (v : Octets) (a : Nat) : Nat → Nat → Bool
  | 0, _ => false
  | f + 1, o => if o = a then decide (a < v.length) else if a < o then false else bundleStart v a f (o + bundleSize (wordAt v o))

/-- The four slots of the bundle at `o` (two in a compact one). -/
def slotsAt (v : Octets) (o : Nat) : List Nat :=
  let a := (wordAt v o).toNat
  let two := [a / 2 ^ 30 % 2 ^ 30, a % 2 ^ 30]
  if bundleSize (wordAt v o) = 16 then
    let b := (wordAt v (o + 8)).toNat
    two ++ [b / 2 ^ 30 % 2 ^ 30, b % 2 ^ 30]
  else two

/-- The long immediate of slot `i` of the bundle at `o`, if a LONG move stands there (R78, R79, R383). -/
def longAt (v : Octets) (o i : Nat) : Option Word :=
  let w := wordAt v o
  let full := formatOf w == 2
  if o % 8 ≠ 0 ∨ v.length < o + bundleSize w ∨ (formatOf w ≠ 1 ∧ !full) ∨ (if full then 2 else 0) < i then none
  else
    match decodeBundle w (wordAt v (o + 8)) with
    | .moves _ _ _ ms =>
      match ms.find? fun x => x.slot == i with
      | none => none
      | some _ =>
        let sl := slotsAt v o
        if sl.getD i 0 % 4 = 1 then some (BitVec.ofNat 32 (sl.getD (i + 1) 0 % 0x100000 * 0x1000 + sl.getD i 0 / 0x4000 % 0x1000)) else none
    | _ => none

/-- The addend of a site, where the site is good (R383). -/
def siteAddend (v : Octets) (r : Reloc) : Option Word :=
  if r.type = 1 ∨ r.type = 3 then longAt v r.soff r.slot
  else if r.slot = 0 ∧ r.soff + 4 ≤ v.length then some (BitVec.ofNat 32 (leAt v r.soff 4))
  else none

/-- The template of an aperture gives one base to every core of a cluster (R384). -/
def sharedBase (m : Image) (i : Nat) : Bool :=
  let b := (apt m i).bsect
  b != 0xFFF1 && !(decide (b < 64) && (sect m b).kind == 2)

def relocGood (s : State) (m : Image) (r : Reloc) : Bool :=
  decide (r.ssect < m.sects.length) && (sect m r.ssect).kind != 0 && decide (r.type ≤ 5) && decide (r.aper ≤ 8) &&
  (if 4 ≤ r.type then r.tsect == 0xFFFF else decide (r.tsect < m.sects.length)) &&
  (match siteAddend (sectBytes s m r.ssect) r with
   | none => false
   | some a =>
     !(r.type == 2 || r.type == 3) ||
     (r.aper == 0 && (sect m r.tsect).exec &&
      (let v := sectBytes s m r.tsect; bundleStart v a.toNat (v.length / 8 + 1) 0))) &&
  ((sect m r.ssect).kind != 1 ||
   ((r.tsect == 0xFFFF || (sect m r.tsect).kind != 2) && (decide (8 ≤ r.aper) || sharedBase m r.aper)))

/-- The relocation table lies in the image and every record is good. -/
def relocsGood (s : State) (m : Image) : Bool := decide (m.reloff + 12 * m.nreloc ≤ m.length) && m.relocs.all (relocGood s m)

/-- Checks 1 to 5 of R386 of an image whose header is `h`: the reason of the first that fails. -/
def checkImage (s : State) (slot : Nat) (h : Octets) : Option Nat :=
  let m := imageWith s slot h
  if !headerGood h then some 1
  else if !digestGood s h then some 2
  else if !signatureGood s m then some 3
  else if !sectionsGood m then some 4
  else if !relocsGood s m then some 5
  else none

/-- Checks 1 to 5 of the slot as it stands in flash. -/
def checkSlot (s : State) (slot : Nat) : Option Nat :=
  if imgBad s slot 0 512 then some 1 else checkImage s slot (imgBytes s slot 0 512)

/-! ### Checks 6 to 9 (R386) -/

def unitsPresent (s : State) : Nat := if s.part.full then 0x3FF else 0x1FF

/-- The Lens cores present and not retired, rising (R387). -/
def liveCores (s : State) : List Nat := (List.range (nCores s)).filter (coreServes s)

/-- The clusters with a core present and not retired (R382). -/
def servedClusters (s : State) : List Nat := (List.range (nClusters s)).filter fun c => !(servingCores s c).isEmpty

/-- The declared peak of a served cluster (R386 check 8). -/
def declaredPeak (s : State) (m : Image) (c : Nat) : Nat := m.peakcl + (servingCores s c).length * m.peakcore

/-- The served cluster whose declared peak exceeds the allotment R364 gives it, if there is one. -/
def peakOver (s : State) (m : Image) : Option Nat :=
  let p := (allotPlan s (sharedPeak s)).steps
  (servedClusters s).find? fun c =>
    match p.find? fun e => e.1 == c with
    | some e => decide (125 * e.2 < declaredPeak s m c)
    | none => true

/-- Code in flash or exchange RAM (R36, R116): the entry section or the region of AP0. -/
def slowCode (m : Image) : Bool :=
  let far (x : Section) : Bool := x.place == 0 || x.place == 2
  let t := apt m 0
  let b := t.boff
  far (sect m m.entsect) ||
  (if t.bsect < 64 then far (sect m t.bsect)
   else t.bsect == 0xFFF0 && ((decide (0x08000000 ≤ b) && decide (b < 0x0C000000)) || (decide (0x10000 ≤ b) && decide (b < 0x14000))))

/-- Checks 6 to 9 of R386: the reason and the cluster, 0xFF for none. -/
def checkPart (s : State) (m : Image) : Option (Nat × Nat) :=
  if m.unitsreq &&& unitsPresent s ≠ m.unitsreq then some (6, 0xFF)
  else if (liveCores s).length < m.mincores then some (7, 0xFF)
  else
    match peakOver s m with
    | some c => some (8, c)
    | none =>
      match (servedClusters s).find? fun c => isPaced s c && slowCode m with
      | some c => some (9, c)
      | none => none

end Sys2Proof.Machine
end

