-- ==== Sys2Proof/Machine/Loader.lean ====
section
/-! DEFINITION. Loading an image: ownership, copies, relocation, release and re-release of cores (R387 to R391). -/

namespace Sys2Proof.Machine

/-! ### Copies and relocation (R384, R387) -/

/-- `v` written from global address `a`, in whole words with fresh check bits. -/
def loadBytes (s : State) (a : Nat) (v : Octets) : State :=
  { s with mem := Mem.writeAll a v s.mem
           ecc := s.ecc.filter fun e => !(decide (a / 8 ≤ e.1) && decide (e.1 < (a + v.length) / 8)) }

/-- The value of a relocation for core `n` (R384). -/
def relocValue (m : Image) (n : Nat) (r : Reloc) (addend : Word) : Word :=
  let a := addend.toNat
  if r.type = 4 then BitVec.ofNat 32 (a + n / 4)
  else if r.type = 5 then BitVec.ofNat 32 (a + 8 * (n / 4))
  else
    let b := if r.type = 2 ∨ r.type = 3 then apertureBase m n 0 else if r.aper = 8 then 0 else apertureBase m n r.aper
    BitVec.ofNat 32 (copyAddr m n r.tsect + a) - BitVec.ofNat 32 b

/-- Bits `pos` to `pos + len - 1` of `x` set to `v`. -/
def putField (x pos len v : Nat) : Nat := x - x / 2 ^ pos % 2 ^ len * 2 ^ pos + v % 2 ^ len * 2 ^ pos

/-- The bit at which slot `i` of a bundle begins, counted from bit 0 of W0 (R71, R72). -/
def slotBit (i : Nat) : Nat := if i = 0 then 30 else if i = 1 then 0 else if i = 2 then 94 else 64

/-- A site receives its value: four octets, or SRC and literal of a LONG move (R79, R384). -/
def patchSite (v : Octets) (r : Reloc) (x : Word) : Octets :=
  if r.type = 1 ∨ r.type = 3 then
    let n := bundleSize (wordAt v r.soff)
    let b := leAt v r.soff n
    putAt v r.soff (leOctets n (putField (putField b (slotBit r.slot + 14) 12 (x.toNat % 4096)) (slotBit (r.slot + 1)) 20 (x.toNat / 4096)))
  else putAt v r.soff (leOctets 4 x.toNat)

/-- The octets of section `i` patched for core `n`: addends are the initial contents. -/
def patchedBytes (s : State) (m : Image) (n i : Nat) : Octets :=
  let v := sectBytes s m i
  (m.relocs.filter fun r => r.ssect == i).foldl (fun t r =>
    match siteAddend v r with
    | some a => patchSite t r (relocValue m n r a)
    | none => t) v

/-- The sections of one KIND, a PLACE among `ps`. -/
def sectsOf (m : Image) (kind : Nat) (ps : List Nat) : List Nat :=
  (List.range m.sects.length).filter fun i => (sect m i).kind == kind && ps.contains (sect m i).place

/-- Sections are copied where core `n` sees them. -/
def copySects (s : State) (m : Image) (n : Nat) (is : List Nat) : State :=
  is.foldl (fun t i => loadBytes t (globalOf n (copyAddr m n i)) (patchedBytes s m n i)) s

def copyCluster (s : State) (m : Image) (c : Nat) : State := copySects s m (4 * c) (sectsOf m 1 [2, 3])
def copyCore (s : State) (m : Image) (n : Nat) : State := copySects s m n (sectsOf m 2 [1, 3])

/-! ### Ownership (R168, R270, R387) -/

def banksOwned (s : State) (c i : Nat) : Nat := ((List.range 4).filter fun k => (getBank s c k).owner == i).length

/-- The surviving core of cluster `c` that owns the fewest banks, the lowest-numbered among equals; 4 when none survives (R270). -/
def heirOf (s : State) (c : Nat) : Nat :=
  match servingCores s c with
  | [] => 4
  | n :: ns => (ns.foldl (fun b x => if banksOwned s c (x % 4) < banksOwned s c (b % 4) then x else b) n) % 4

/-- Step 3 of R387 for a cluster: bank k to local core k, a retired one's to its heir. -/
def setOwners (s : State) (c : Nat) : State :=
  let s1 := (List.range 4).foldl (fun t k => modBank t c k fun b => { b with owner := k, pend := none, pendId := 0 }) s
  (List.range 4).foldl (fun t k => if coreServes t (4 * c + k) then t else modBank t c k fun b => { b with owner := heirOf t c }) s1

/-! ### Release (R269, R387 to R389) -/

/-- What the loader gives core `n` (R380, R387, R388). -/
def releaseOf (m : Image) (n inst ncores : Nat) : Release :=
  { aps := (List.range 8).map fun i => (i, apertureOf m n i), inst, ncores, pc := BitVec.ofNat 32 (entryAddr m n - apertureBase m n 0),
    pair := !m.nopair }

/-- A core begins (R389). -/
def releaseCore (s : State) (n : Nat) : State :=
  match (getCore s n).st.release with
  | none => s
  | some x =>
    modCore s n fun k =>
      { k with
        r := { Regs.reset with ap := x.aps, inst := BitVec.ofNat 8 x.inst, ncores := BitVec.ofNat 8 x.ncores,
                               psw := if x.pair then 0x25#32 else 5#32 }
        g := []
        i := { Issue.reset with run := .running, pc := x.pc } }

/-- Steps 1 to 6 of R387: the image of `slot` is in force; every live core is given what it is released with. -/
def loadImage (s : State) (slot : Nat) : State :=
  let m := imageOf s slot
  let live := liveCores s
  let served := servedClusters s
  let s1 := (List.range (nClusters s)).foldl setOwners s
  let s2 := served.foldl (fun t c => copyCluster t m c) s1
  let s3 := live.foldl (fun t n => copyCore t m n) s2
  let s4 := live.zipIdx.foldl (fun t e =>
    modCore t e.1 fun k => { k with st := { k.st with release := some (releaseOf m e.1 e.2 live.length) } }) s3
  { s4 with
    foster := s4.foster.filter fun e => !served.contains e.1
    img := { s4.img with force := slot, peak := served.foldl (fun t c => t + declaredPeak s m c) 0, ncores := live.length } }

/-- A restarted or reset core is released again with its scratch sections copied anew (R269, R391, R406). -/
def reRelease (s : State) (n : Nat) : State :=
  if s.img.force ≤ 1 ∧ (getCore s n).st.release.isSome then
    let m := imageOf s s.img.force
    releaseCore (copySects s m n (sectsOf m 2 [1])) n
  else s

/-- Steps 3 to 7 of R387 for one cluster, at its reset (R391, R407). -/
def reloadCluster (s : State) (c : Nat) : State :=
  let cores := servingCores s c
  let s1 := setOwners s c
  if s.img.force ≤ 1 ∧ !cores.isEmpty then
    let m := imageOf s s.img.force
    let s2 := cores.foldl (fun t n => copyCore t m n) (copyCluster s1 m c)
    cores.foldl releaseCore s2
  else s1

end Sys2Proof.Machine
end

