-- ==== Sys2Proof/Machine/Faults.lean ====
section
/-! DEFINITION. Core faults, restarts and retirements, fostering, warden faults, requalification (R202, R260, R266 to R286, R361). -/

namespace Sys2Proof.Machine

/-! ### Core faults (R202, R266) -/

/-- The number of a reason in the status object (R283). -/
def reasonOf : FaultWhy → Nat
  | .parity => 1
  | .watchdog => 2
  | .entryFault => 3
  | .selfTest => 5

/-- The core is released and not already stopped or retired. -/
def inService (s : State) (n : Nat) : Bool :=
  corePresent s n && (match (getCore s n).i.run with | .running => true | .sleeping => true | .halted => true | _ => false)

/-- The second expiry of a core's watchdog is due (R202). -/
def wdSecondDue (s : State) (n : Nat) : Bool := let k := getCore s n; wdDue s k && k.e.wdFirst

/-- The fault of this kind can happen now: parity errors at any time, the others when their condition holds. -/
def faultHolds (s : State) (n : Nat) : FaultWhy → Bool
  | .parity => true
  | .watchdog => wdSecondDue s n
  | .entryFault => let k := getCore s n; k.i.first && k.i.fault.isSome
  | .selfTest => isWarden n

/-- The core stops and its work is settled (R266, R267). -/
def faultStop (s : State) (n : Nat) (why : FaultWhy) : State := settleStop (stopCore s n (reasonOf why)) n

/-- CORE_FAULT (R266): of a Lens core; a warden's fault is WARDEN_FAULT. -/
def execCoreFault (n : Nat) (why : FaultWhy) (s : State) : Host.Outcome State Fault Refusal :=
  .next (if inService s n && !isWarden n && faultHolds s n why then faultStop s n why else s)

/-- WATCHDOG_SECOND_EXPIRY (R202, R266, R277): the core stops with reason 2; a warden then has a warden fault. -/
def execWatchdogSecondExpiry (n : Nat) (s : State) : Host.Outcome State Fault Refusal :=
  .next (if inService s n && wdSecondDue s n then faultStop s n .watchdog else s)

/-! ### Restart and retirement (R268 to R276) -/

/-- The third fault within 86,400 s (R268). -/
def thirdFault (h : List Nat) : Bool :=
  match h with
  | t0 :: _ :: t2 :: _ => decide (t0 ≤ t2 + dayNs)
  | _ => false

/-- A core is restarted (R269). -/
def restartCore (s : State) (n : Nat) : State :=
  let s1 := repost (reRelease (coreResetOp s n) n) n
  let s2 := modCore s1 n fun k => { k with st := { k.st with restarts := satInc 0xFFFF k.st.restarts, decide := false } }
  logErr s2 0x4201 1 [BitVec.ofNat 8 n, BitVec.ofNat 8 (getCore s n).st.reason]

/-- OWNER of a beam changes, and VERSION advances (R213). -/
def giveBeam (s : State) (b n : Nat) : State :=
  engineMod s b 1 fun x => { x with owner := BitVec.ofNat 8 n, version := x.version + 1 }

/-- Beams given to the cores `to_` in rotation (R270). -/
def rotateBeams (s : State) (bs to_ : List Nat) : State :=
  bs.zipIdx.foldl (fun t e => giveBeam t e.1 (to_.getD (e.2 % to_.length) 0)) s

/-- The beams core `n` owns, in increasing ID. -/
def beamsOf (s : State) (n : Nat) : List Nat := (s.beams.filter fun e => e.2.valid && e.2.owner.toNat == n).map fun e => e.1

/-- A bank is handed over (R170): its merge entries are written out, OWNER changes, HOVER is set. -/
def handBank (s : State) (c k o : Nat) : State :=
  setClevt (modBank (flushMerge s c k) c k fun b => { b with owner := o, pend := none, pendId := 0 }) c (1#32 <<< (20 + k))

/-- The banks core `n` owns pass to the survivors, and so do those it was about to own; a handover that core `n` had begun completes to the owner it
named (R171, R270, R286). -/
def handBanks (s : State) (n : Nat) : State :=
  let c := clusterOf n
  (List.range 4).foldl (fun t k =>
    let b := getBank t c k
    if b.owner = n % 4 then handBank t c k (b.pend.getD (heirOf t c)) else if b.pend = some (n % 4) then handBank t c k (heirOf t c) else t) s

/-- The foster cluster of `c` is valid (R274, R275). -/
def fosterValid (s : State) (c : Nat) : Option Nat :=
  let f := ent s (0x4100 + c) 1
  if f < nClusters s ∧ f ≠ c ∧ f / 8 = c / 8 ∧ !(servingCores s f).isEmpty ∧ (Tab.find f s.foster).isNone then some f else none

/-- Every buffer in use of the facets of `c`, with where it lies in the facet's own bank and in the foster bank. -/
def bufferMoves (s : State) (c f : Nat) : List (Nat × Nat) :=
  (List.range 8).flatMap fun i =>
    let p := 8 * c + i
    let g := getFacet s p
    (g.bufs.filter fun e => e.2 != .free).map fun e =>
      let off := g.ringBase - 0x100000 + e.1 * 2048
      (bankBase c 0 + off, bankBase f (ent s (0x4100 + c) 2) + off % 0x40000)

/-- The warden copies the held frames into the foster bank (R275). -/
def moveBuffers (s : State) (c f : Nat) : State :=
  (bufferMoves s c f).foldl (fun t e => portWriteBytes (coreMaster (s.active.getD 128)) 0 259 t e.2 (peekBytes t e.1 2048)) s

/-- Cluster `c` is unserved (R276). -/
def leaveUnserved (s : State) (c : Nat) : State :=
  emergency { s with foster := Tab.put c 0xFF s.foster } 0x8121 1 [BitVec.ofNat 8 c, 0xFF#8]

/-- The last core `n` of its cluster has retired (R275, R276, R286). -/
def fosterCluster (s : State) (n : Nat) : State :=
  let c := clusterOf n
  let bs := beamsOf s n
  let s1 := (List.range 4).foldl (fun t k => handBank t c k 4) s
  let s2 := match fosterValid s c with
    | some f =>
      let t := moveBuffers s1 c f
      let t1 := rotateBeams { t with foster := Tab.put c f t.foster } bs (servingCores s f)
      emergency (repostBeams t1 fun b => bs.contains b) 0x8121 1 [BitVec.ofNat 8 c, BitVec.ofNat 8 f]
    | none => leaveUnserved s1 c
  (s2.foster.filter fun e => e.2 == c).foldl (fun t e => leaveUnserved t e.1) s2

/-- A step of the retirement of core `n` has completed and is written to the warden's log, whose first step begins a new record (R270;
DESIGN CHOICE, log entry 120). -/
def logStep (n i : Nat) (s : State) : State :=
  { s with edp := { s.edp with steps := if i = 1 then [(n, 1)] else s.edp.steps ++ [(n, i)] } }

/-- Steps 1 and 2 of R270: core `n` is stored as retired and held in core reset. -/
def holdRetired (s : State) (n reason : Nat) : State :=
  modCore (coreResetOp s n) n fun k =>
    { k with i := { k.i with run := .retired }, st := { k.st with reason, decide := false, request := false, release := none } }

/-- Core `n` is retired (R270): stored, held in reset, its beams and banks given away, its held frames re-posted, and
event 800 + n raised (R201, R281). Each step is logged as it completes. -/
def retireCore (s : State) (n reason : Nat) : State :=
  let s1 := logStep n 2 (logStep n 1 (holdRetired s n reason))
  let bs := beamsOf s1 n
  let heirs := servingCores s1 (clusterOf n)
  let s2 := if heirs.isEmpty then logStep n 5 (logStep n 4 (logStep n 3 (fosterCluster s1 n)))
    else logStep n 5 (repostBeams (logStep n 4 (handBanks (logStep n 3 (rotateBeams s1 bs heirs)) n)) fun b => bs.contains b)
  logStep n 6 <| wantAllot (raise (emergency s2 0x8120 1 [BitVec.ofNat 8 n, BitVec.ofNat 8 reason]) (800 + n))

/-- CORE_FAULT_DECISION (R268): the active warden restarts the core or retires it. -/
def execCoreFaultDecision (n : Nat) (s : State) : Host.Outcome State Fault Refusal :=
  let k := getCore s n
  if corePresent s n && !isWarden n && k.st.decide && k.i.run == .stopped && s.active.isSome then
    .next (if thirdFault k.st.history || k.st.request then retireCore s n k.st.reason else restartCore s n)
  else .next s

/-- A write of 0x4000 + n:06 (R283): `n` counts the core objects, 128 and 129 the wardens. -/
def retireWrite (s : State) (n v : Nat) : State × Option Nat :=
  if 130 ≤ n then (s, some 0x02000001)
  else if !corePresent s n then (s, some 0x02000006)
  else if v ≠ 1 then (s, some 0x03000001)
  else if isWarden n ∨ isRetired s n then (s, some 0x04000001)
  else
    let s1 := modCore s n fun k => { k with st := { k.st with request := true } }
    (retireCore s1 n 4, none)

/-- RETIREMENT_REQUEST (R268, R270, R283). -/
def execRetirementRequest (n v : Nat) (s : State) : Host.Outcome State Fault Refusal := .next (answered (retireWrite s n v))

/-! ### Wardens (R277 to R279) -/

/-- The other warden. -/
def otherWarden (w : Nat) : Nat := if w = 128 then 129 else 128

/-- A warden begins at the first bundle of the ROM, in bare mode (R148, R410); its watchdog counts from here, and its NCORES reads as the Lens cores'
does (R62, R202). -/
def startWarden (s : State) (w : Nat) : State :=
  modCore s w fun k => { k with i := { k.i with run := .running, pc := 0 }, e := wdRestart s k.e,
                                r := { k.r with ncores := if 10 ≤ s.power.stage then BitVec.ofNat 8 s.img.ncores else 0 } }

/-- An image commit under way is abandoned by a failover (R278, R393). -/
def abandonCommit (s : State) : State :=
  if 1 ≤ s.img.stage ∧ s.img.stage ≤ 3 then
    let x : Slot := { state := 3, version := 0 }
    { s with img := { s.img with stage := 6, slotA := if s.img.target = 0 then x else s.img.slotA, slotB := if s.img.target = 0 then s.img.slotB else x } }
  else s

/-- A warden is held in core reset and leaves service (R277, R281). -/
def retireWarden (s : State) (w reason : Nat) : State :=
  emergency (modCore s w fun k => { k with i := { k.i with run := .retired }, st := { k.st with reason, decide := false } }) 0x8131 0
    [BitVec.ofNat 8 w]

/-- No warden is left in service: ALARM_N is asserted (R279). -/
def noWarden (s : State) : State := { s with active := none, power := { s.power with alarm := true } }

/-- A warden's fault (R277): failover from the active warden, event 778 for the standby's; then core reset and self-test. A warden that has no
other to fail over to takes its role again when it passes, and its retirement raises 772 (R281). -/
def wardenFault (s : State) (w : Nat) (why : FaultWhy) (pass : Bool) : State :=
  let o := otherWarden w
  let was := s.active == some w
  let spare := (getCore s o).i.run != .retired
  let s0 := if (getCore s w).i.run = .stopped then s else stopCore s w (reasonOf why)
  let h := (getCore s0 w).st.history
  let reason := (getCore s0 w).st.reason
  let s1 := coreResetOp s0 w
  let s2 :=
    if was ∧ spare then emergency (raise (restartJob (abandonCommit { s1 with active := some o })) 772) 0x8130 0 [BitVec.ofNat 8 o, BitVec.ofNat 8 reason]
    else if was then s1
    else raise s1 778
  let out := !pass || thirdFault h
  let s3 := if out then retireWarden s2 w (if pass then reason else 5) else startWarden (modCore s2 w fun k => { k with st := { k.st with decide := false } }) w
  if was ∧ !spare ∧ out then raise (noWarden s3) 772 else s3

/-- WARDEN_FAULT (R277): `pass` tells whether the warden then passes its self-test. -/
def execWardenFault (w : Nat) (why : FaultWhy) (pass : Bool) (s : State) : Host.Outcome State Fault Refusal :=
  let k := getCore s w
  if (w = 128 ∨ w = 129) ∧ s.active.isSome ∧ ((inService s w ∧ faultHolds s w why) ∨ (k.i.run = .stopped ∧ k.st.decide)) then
    .next (wardenFault s w why pass)
  else .next s

/-! ### Requalification (R284, R285, R361) -/

/-- A write of 0x9001:05 or 0x9004:05 (R284, R361). -/
def prbsStart (s : State) (obj v : Nat) : State × Option Nat :=
  let p := ent s obj 1
  if v ≠ 1 then (s, some 0x03000001)
  else if s.prbs.isSome ∨ nFacets s ≤ p then (s, some 0x04000001)
  else if obj = 0x9001 ∧ !(getFacet s p).retired then (s, some 0x04000001)
  else if obj = 0x9004 ∧ ((getFacet s p).retired ∨ facetRole s p ≠ 0) then (s, some 0x04000001)
  else ({ setEnt s obj 5 1 with prbs := some { obj, facet := p, since := s.tb } }, none)

/-- FACET_REQUALIFICATION (R284). -/
def execFacetRequalification (v : Nat) (s : State) : Host.Outcome State Fault Refusal := .next (answered (prbsStart s 0x9001 v))

/-- FACET_TEST (R361). -/
def execFacetTest (v : Nat) (s : State) : Host.Outcome State Fault Refusal := .next (answered (prbsStart s 0x9004 v))

/-- The result of a run: 2 passed, 3 no pattern lock, 4 errors above the limit (R284). -/
def prbsResult (s : State) (obj : Nat) (locked : Bool) (errors : Nat) : Nat :=
  if !locked then 3 else if ent s obj 4 < errors then 4 else 2

/-- A retired facet that passes starts from OFF in its stored ROLE (R284). -/
def unretireFacet (s : State) (p : Nat) : State :=
  let s1 := modFacet s p fun f => { f with retired := false, criterion := 0, train := Training.reset, winErrs := 0, winBad := 0 }
  let s2 := setLinkState s1 p 0
  if facetRole s2 p = 0 then s2 else leaveOff s2 p

/-- REQUALIFICATION_END (R284, R361): the pattern has not locked within 10 ms, or the duration has passed. -/
def execRequalificationEnd (locked : Bool) (errors : Nat) (s : State) : Host.Outcome State Fault Refusal :=
  match s.prbs with
  | none => .next s
  | some x =>
    if s.tb < x.since + (if locked then ent s x.obj 3 * 1000000 else 10000000) then .next s
    else
      let r := prbsResult s x.obj locked errors
      let s1 := { setEnt s x.obj 5 r with prbs := none }
      .next (if r = 2 ∧ x.obj = 0x9001 then unretireFacet s1 x.facet else s1)

/-- A write of 0x9002:02 (R285): the ROM self-test starts on a retired core or warden. -/
def coreRequalStart (s : State) (v : Nat) : State × Option Nat :=
  let n := ent s 0x9002 1
  if v ≠ 1 then (s, some 0x03000001)
  else if !corePresent s n ∨ !isRetired s n ∨ s.active = some n ∨ ent s 0x9002 2 = 1 then (s, some 0x04000001)
  else (setEnt s 0x9002 2 1, none)

/-- The self-test ends, passed or not (R285). -/
def coreRequalEnd (s : State) (pass : Bool) : State :=
  let n := ent s 0x9002 1
  if !pass then setEnt s 0x9002 2 3
  else
    let s1 := setEnt (modCore s n fun k => { k with i := { k.i with run := .notReleased } }) 0x9002 2 2
    if isWarden n then startWarden s1 n else s1

/-- CORE_REQUALIFICATION (R285): the test a write over a transport started ends; else the write starts it and it ends. -/
def execCoreRequalification (v : Nat) (pass : Bool) (s : State) : Host.Outcome State Fault Refusal :=
  if ent s 0x9002 2 = 1 then .next (coreRequalEnd s pass)
  else
    match coreRequalStart s v with
    | (t, none) => .next (answered (coreRequalEnd t pass, none))
    | r => .next (answered r)

end Sys2Proof.Machine
end

