-- ==== Sys2Proof/Machine/Fabric.lean ====
section
/-! DEFINITION. The Prism fabric: packets from hop to hop, what they do on arrival, remote transmit, the management pre-queues (R287 to R294,
R296). -/

namespace Sys2Proof.Machine

/-! ### Service at a hop (R289) -/

/-- Flits waiting in a buffer. -/
def hopFlits (s : State) (hop vc : Nat) : Nat := (hopQueue s hop vc).foldl (fun n p => n + p.flits) 0

/-- The next hop has credits for the whole packet; a packet at its last hop is taken by its destination. -/
def hopRoom (s : State) (vc : Nat) (p : Packet) : Bool :=
  match p.route with
  | [] => true
  | h :: _ => decide (hopFlits s h vc + p.flits ≤ vcCredits vc)

/-- The output a packet at a hop wants: its next hop, or its destination. -/
def outputOf (hop : Nat) (p : Packet) : Nat := match p.route with | [] => 256 + hop | h :: _ => h

/-- The hops whose buffer of the virtual channel begins with a packet that wants the output and may go, with that packet's flits. -/
def readyFor (s : State) (out vc : Nat) : List (Nat × Nat) :=
  s.fabric.queues.filterMap fun e =>
    match e.2 with
    | [] => none
    | p :: _ => if e.1 % 3 = vc ∧ outputOf (e.1 / 3) p = out ∧ hopRoom s vc p then some (e.1 / 3, p.flits) else none

/-- Of the inputs of an output, in the order of their numbers, the one whose turn it is (log entry 18). -/
def inTurn (next : Nat) (l : List (Nat × Nat)) : Option (Nat × Nat) :=
  match l.find? fun e => decide (next ≤ e.1) with
  | some e => some e
  | none => l.head?

/-- The hop and virtual channel an output serves next: VC0 before VC1 before VC2, but a VC2 packet that waits gets the sixteenth flit; the inputs
of one channel in turn (R289). -/
def nextServed (s : State) (out : Nat) : Option (Nat × Nat) :=
  let pick := fun vc => inTurn (Tab.get (fun _ => 0) (3 * out + vc) s.fabric.turns) (readyFor s out vc)
  let since := Tab.get (fun _ => 0) out s.fabric.since2
  let two := (pick 2).map fun e => (e.1, 2)
  let before := fun (e : Nat × Nat) (vc : Nat) => if since = 0 ∨ since + e.2 ≤ 15 ∨ two.isNone then some (e.1, vc) else two
  match pick 0, pick 1 with
  | some e, _ => before e 0
  | none, some e => before e 1
  | none, none => two

/-- The packet at the head of the hop's buffer is the one its output serves next. -/
def servedNow (s : State) (hop vc : Nat) (p : Packet) : Bool := nextServed s (outputOf hop p) == some (hop, vc)

/-- A VC2 packet waits for the output. -/
def twoWaits (s : State) (out : Nat) : Bool :=
  s.fabric.queues.any fun e => e.1 % 3 == 2 && e.2.head?.any fun p => outputOf (e.1 / 3) p == out

/-- An output has served a packet: the turn goes on, and the flits since its last VC2 flit count while a VC2 packet waits. -/
def countServed (s : State) (hop vc : Nat) (p : Packet) : State :=
  let out := outputOf hop p
  let n := if vc = 2 ∨ !twoWaits s out then 0 else Tab.get (fun _ => 0) out s.fabric.since2 + p.flits
  { s with fabric := { s.fabric with since2 := Tab.put out n s.fabric.since2, turns := Tab.put (3 * out + vc) (hop + 1) s.fabric.turns } }

/-- The quadrant in whose block an error at a hop counts (R294): that of the element after it. -/
def hopQuad (hop : Nat) : Nat :=
  if hop < 32 then hop / 8 else if hop < 64 then (hop - 32) / 8 else if 96 ≤ hop ∧ hop < 128 then (hop - 96) / 8 else hop % 4

/-! ### Arrival -/

/-- A descriptor of another cluster's core is told that data came: the reads are answered while they go on, and once all is held (R294). -/
def touchRtx (s : State) (n id : Nat) (all : Bool) : State :=
  modCore s n fun k =>
    { k with q := { k.q with rtxOut := k.q.rtxOut.map fun o => if o.id = id then { o with since := s.tb, answered := all } else o } }

/-- A descriptor arrives at its egress facet (R293): the checks, then reads of its frame through port B of the posting core's cluster, 256 octets
a packet; a packet whose octets hold an uncorrectable or poisoned word carries the poison mark (R167, R180, R294). -/
def remoteDesc (s : State) (n p : Nat) (txa txl v : Word) (d : TxDesc) : State :=
  let s1 := postAt s p n txa txl v { d with got := 0 }
  let held := ((getFacet s1 (laneOf s1 p)).queue.any fun x => x.id == d.id)
  let s2 := touchRtx s1 n d.id (!held)
  if !held then s2
  else
    let vc := kindVc .txRead (d.slot == 0x1FF)
    (List.range ((d.len + 255) / 256)).foldl (fun t i =>
      let k := min 256 (d.len - 256 * i)
      let r := portReadBytes (k / 8 + 3) t (d.addr + 256 * i) k
      sendMarked r.1 vc .txRead (routeBetween (n / 4) (p / 8)) k r.2.2 (.data n p d.id k)) s2

/-- Frame data arrives at the egress facet; data with a poison mark ends the frame with result 12 (R254, R293, R294). -/
def remoteData (s : State) (n p id octets : Nat) (bad : Bool) : State :=
  let q := laneOf s p
  let f := getFacet s q
  let up (d : TxDesc) : TxDesc := if d.id = id then { d with got := min d.len (d.got + octets) } else d
  let all := f.queue ++ f.deferred ++ f.retry ++ (lanesOf f).map fun t => t.desc
  match all.find? fun d => d.id == id with
  | none => s
  | some d =>
    if bad then
      let sending := (lanesOf f).any fun t => t.desc.id == id
      let s1 := modFacet s q fun f =>
        offLane id { f with queue := removeIds [id] f.queue, deferred := removeIds [id] f.deferred, retry := removeIds [id] f.retry
                            endOut := if sending then some (badEnd s q) else f.endOut }
      completeDesc (unhold (touchRtx s1 n id true) d) q d 12
    else
      let s1 := modFacet s q fun f =>
        { f with queue := f.queue.map up, deferred := f.deferred.map up, retry := f.retry.map up
                 lane := f.lane.map fun t => { t with desc := up t.desc }
                 back := f.back.map fun t => { t with desc := up t.desc } }
      touchRtx s1 n id (decide (d.len ≤ d.got + octets))

/-- A relayed frame that can go no further: its ingress buffer is freed and the loss counted (R249, R299). -/
def relayLost (s : State) (d : TxDesc) : State :=
  let s1 := match d.poster with | .relay g i => freeBuf s g i | _ => s
  match d.tag with | some b => incDrops s1 b | none => s1

/-- What a packet does at its destination (R249, R275, R288, R293, R296, R300). -/
def arrivePacket (s : State) (p : Packet) : State :=
  match p.body with
  | .toWarden g v => if p.poison then s else { s with edp := { s.edp with inbox := s.edp.inbox ++ [(g, v)] } }
  | .toFacet g v => if p.poison then s else modFacet s (laneOf s g) fun f => { f with answers := f.answers ++ [v] }
  | .reflex a => { s with rfx := { s.rfx with acts := s.rfx.acts ++ [a] } }
  | .desc n g txa txl v d => remoteDesc s n g txa txl v d
  | .data n g id k => remoteData s n g id k p.poison
  | .relay g d =>
    let f := getFacet s g
    if p.poison ∨ f.stopped ∨ quiet s g ∨ (f.retired ∧ f.deputy.isNone) then relayLost s d else relayStart s g d
  | .relayEnd g id good => relayEnd s g id (good && !p.poison)
  | .fostered a v =>
    let s1 := portWriteBytes 10 0 (v.length / 8 + 3) s a v
    if p.poison then newPoison s1 (a / 8) else s1
  | .done n id d => pushRtxDone s n id d
  | .copy n =>
    let s1 := remoteAnswer s n
    if p.poison then modCore s1 n fun k => { k with u := { k.u with copy := k.u.copy.map fun o => if o.remote = 2 then { o with remote := 4 } else o } }
    else s1

/-- What the loss of a packet at a hop leaves behind (R294): a relayed frame frees its buffer, or is ended as bad. -/
def losePacket (s : State) (p : Packet) : State :=
  match p.body with
  | .relay _ d => relayLost s d
  | .relayEnd g id _ => relayEnd s g id false
  | _ => s

/-- A delivered packet with a poison mark raises event 777 and counts (R294, R303, R359). -/
def deliverPacket (s : State) (hop : Nat) (p : Packet) : State :=
  let s1 := arrivePacket s p
  if p.poison then raise (bumpEnt s1 (0x4200 + hopQuad hop) 0x0A) 777 else s1

/-- FABRIC_PACKET_HOP (R289, R294): the packet at the head of a buffer leaves its hop, with what the code found. -/
def hopPacket (s : State) (hop vc : Nat) (e : FlitError) (p : Packet) (rest : List Packet) : State :=
  let s1 := countServed (setHopQueue s hop vc rest) hop vc p
  let q := hopQuad hop
  let go (t : State) (x : Packet) : State :=
    match x.route with
    | [] => deliverPacket t hop x
    | h :: r => setHopQueue t h vc (hopQueue t h vc ++ [{ x with route := r }])
  match e with
  | .none => go s1 p
  | .correctable => go (bumpEnt s1 (0x4200 + q) 8) p
  | .dataUncorrectable => go s1 { p with poison := p.poison || decide (1 < p.flits) }
  | .headerUncorrectable => losePacket (raise (bumpEnt s1 (0x4200 + q) 9) 776) p

/-- FABRIC_PACKET_HOP (R289, R294). -/
def execFabricPacketHop (hop vc : Nat) (e : FlitError) (s : State) : Host.Outcome State Fault Refusal :=
  if 3 ≤ vc then .next s
  else
    match hopQueue s hop vc with
    | [] => .next s
    | p :: rest => if hopRoom s vc p && servedNow s hop vc p then .next (hopPacket s hop vc e p rest) else .next s

/-! ### Remote transmit (R292, R293) -/

/-- A completion with no facet. -/
def rtxFail (s : State) (n : Nat) (v : Word) (result : Nat) : State := pushRtxDone s n s.nextId { cookie := field v 24 8, result }

/-- A write of RTXPOST (R293). The banks of R253 are those of the posting core's cluster; a warden has none. -/
def rtxpostWrite (s : State) (n : Nat) (v : Word) : State :=
  let q := (getCore s n).q
  let p := q.rtxdest.toNat
  let c := clusterOf n
  if nFacets s ≤ p ∨ isWarden n then rtxFail s n v 10
  else
    let d := mkDesc s (.fabric n) p c q.rtxa q.rtxl v
    let s1 := modCore s n fun k =>
      { k with q := { k.q with rtxOut := k.q.rtxOut ++ [{ id := d.id, cookie := d.cookie, since := s.tb, answered := decide (p / 8 = c) }] } }
    if p / 8 = c then postAt s1 p n q.rtxa q.rtxl v d
    else
      sendPacket { s1 with nextId := s1.nextId + 1 } (kindVc .txDesc (d.slot == 0x1FF)) .txDesc (routeBetween c (p / 8)) 0
        (.desc n p q.rtxa q.rtxl v d)

/-- RTXPOST_WRITE (R293). -/
def execRtxpostWrite (n : Nat) (v : Word) (s : State) : Host.Outcome State Fault Refusal :=
  .next (if corePresent s n then rtxpostWrite s n v else s)

/-- A read of RTXDONE (R292). -/
def rtxdoneRead (s : State) (n : Nat) : State × Word :=
  match (getCore s n).q.rtxdone with
  | [] => (s, 0)
  | d :: ds => (modCore s n fun k => { k with q := { k.q with rtxdone := ds } }, doneWord d)

/-- RTXDONE_READ (R292). -/
def execRtxdoneRead (n : Nat) (s : State) : Host.Outcome State Fault Refusal :=
  let r := rtxdoneRead s n
  .next (if corePresent s n then { r.1 with rdata := some r.2 } else s)

/-- A descriptor of core `n` that is given up is taken from the facet that holds it; its beam holds it no longer (R219, R294). -/
def recallDesc (s : State) (id : Nat) : State :=
  let held := s.facets.flatMap fun e => e.2.queue.filter fun d => d.id == id
  held.foldl unhold
    { s with facets := s.facets.map fun e =>
        (e.1, offLane id { e.2 with queue := removeIds [id] e.2.queue, deferred := removeIds [id] e.2.deferred, retry := removeIds [id] e.2.retry
                                    await := e.2.await.filter fun a => a.desc.id != id }) }

/-- REMOTE_TIMEOUT (R294): what was not answered within 10 µs: a remote transmit completes with result 12, a remote copy stops with `st` 3. -/
def execRemoteTimeout (n : Nat) (copy : Bool) (s : State) : Host.Outcome State Fault Refusal :=
  let k := getCore s n
  if copy then
    match k.u.copy with
    | none => .next s
    | some o =>
      if o.remote = 1 ∧ o.park.isNone ∧ o.since + 10000 ≤ s.tb then .next (copyDone s n 3#32 (BitVec.ofNat 32 o.done)) else .next s
  else
    match k.q.rtxOut.find? fun o => !o.answered && decide (o.since + 10000 ≤ s.tb) with
    | none => .next s
    | some o => .next (pushRtxDone (recallDesc s o.id) n o.id { cookie := o.cookie, result := 12 })

/-! ### Management frames enter the fabric (R290, R296) -/

/-- Octets in a token bucket that held `tokens` at `last`: 2,048 at most, one more each 8 ns (R290). -/
def bucketAt (s : State) (tokens last : Nat) : Nat := min 2048 (tokens + (s.tb - last) / 8)

/-- The instant up to which the octets taken in by a bucket now count. -/
def filledTo (s : State) (last : Nat) : Nat := s.tb - (s.tb - last) % 8

def getPort (s : State) (p : Nat) : PortOut := Tab.get (fun _ => PortOut.reset) p s.fabric.ports
def setPort (s : State) (p : Nat) (v : PortOut) : State := { s with fabric := { s.fabric with ports := Tab.put p v s.fabric.ports } }

/-- A management frame may enter the fabric at hop `h`: the bucket holds its length and the hop has credits for it. -/
def mayInject (s : State) (h bucket : Nat) (v : Octets) : Bool :=
  decide (v.length ≤ bucket) && decide (hopFlits s h 0 + dataFlits v.length ≤ vcCredits 0)

/-- The oldest frame that waits at the management port towards facet `p` enters the fabric, if it may (R290). -/
def portDrain (s : State) (p : Nat) : State :=
  let m := getPort s p
  match m.frames with
  | [] => s
  | v :: rest =>
    let t := bucketAt s m.tokens m.fill
    if mayInject s (84 + quadOf (p / 8)) t v then
      sendPacket (setPort s p { frames := rest, tokens := t - v.length, fill := filledTo s m.fill }) 0 .management (routeFromWarden (p / 8)) v.length (.toFacet p v)
    else s

/-- A management frame for facet `p` reaches its management port, and goes on at once if it may and none waits before it. -/
def portSend (s : State) (p : Nat) (v : Octets) : State :=
  let m := getPort s p
  portDrain (setPort s p { m with frames := m.frames ++ [v] }) p

/-- PRE_QUEUE_DRAIN (R290, R296): the oldest frame of the facet's pre-queue goes towards the dictionary engine when the bucket holds its length and
the port has credits; where none goes, the oldest that waits at the management port towards the facet (log entry 58). -/
def execPreQueueDrain (p : Nat) (s : State) : Host.Outcome State Fault Refusal :=
  let f := getFacet s p
  match f.preq with
  | [] => .next (portDrain s p)
  | v :: rest =>
    let t := bucketAt s f.tokens f.lastFill
    if mayInject s (p / 8) t v then
      let s1 := setFacet s p { f with preq := rest, tokens := t - v.length, lastFill := filledTo s f.lastFill }
      .next (sendPacket s1 0 .management (routeToWarden (p / 8)) v.length (.toWarden p v))
    else .next (portDrain s p)

end Sys2Proof.Machine
end

