-- ==== Sys2Proof/Machine/Answers.lean ====
section
/-! DEFINITION. The frames the device sends of itself: management answers and reflex answers (R296, R300, R339). -/

namespace Sys2Proof.Machine

/-- Two requests come from one endpoint (R325): the device's own address does not count. -/
def sameEndpoint (a b : Endpoint) : Bool :=
  match a, b with
  | .udp f m i p _, .udp g n j q _ => f == g && m == n && i == j && p == q
  | a, b => a == b

/-- The facet an endpoint is reached through; none for CAN FD. -/
def facetOf : Endpoint → Option Nat
  | .can _ => none
  | .beamLink p _ => some p
  | .ether p _ => some p
  | .udp p _ _ _ _ => some p

/-- The complement of the one's complement sum of big-endian 16-bit words. -/
def ipChecksum (h : Octets) : Nat :=
  let n := (List.range (h.length / 2)).foldl (fun n i => n + ofBe ((h.drop (2 * i)).take 2)) 0
  let m := n / 65536 + n % 65536
  0xFFFF - (m / 65536 + m % 65536)

/-- An IPv4 header of 20 octets and a UDP header (R300, R339): TTL 64, UDP checksum 0; `x` gives the fields left open. -/
def udpHeader (x : Word) (src dst sport dport len : Nat) : Octets :=
  let h (sum : Nat) : Octets :=
    [0x45#8, x.setWidth 8] ++ beOctets 2 (28 + len) ++ beOctets 2 (field x 8 16) ++ beOctets 2 (bitN x 24 * 0x4000) ++ [64#8, 17#8] ++
    beOctets 2 sum ++ beOctets 4 src ++ beOctets 4 dst
  h (ipChecksum (h 0)) ++ beOctets 2 sport ++ beOctets 2 dport ++ beOctets 2 (8 + len) ++ [0, 0]

/-- The octets of a frame to an endpoint, as a facet's answer queue holds them: on a Beam link a header with MGMT = 1, on Ethernet the frame
from its destination address. -/
def frameTo (s : State) (ep : Endpoint) (body : Octets) : Octets :=
  let x := Config.answerField s.free
  match ep with
  | .can _ => body
  | .beamLink _ _ => leOctets 4 (0x2000#32 ||| (x &&& 0xFFFF0E00#32)).toNat ++ leOctets 4 (x &&& 0xFFFF#32).toNat ++ leOctets 4 0 ++ body
  | .ether p mac => beOctets 6 mac ++ beOctets 6 (cfg s p 3) ++ beOctets 2 0x88B5 ++ body
  | .udp p mac ip port dev =>
    beOctets 6 mac ++ beOctets 6 (cfg s p 3) ++ beOctets 2 0x0800 ++ udpHeader x dev ip (ent s 0x1102 1) port body.length ++ body

/-- The frame joins the answers of a facet (R296, R300). -/
def queueAnswer (s : State) (p : Nat) (v : Octets) : State :=
  modFacet { s with free := s.free + 1 } p fun f => { f with answers := f.answers ++ [v] }

/-- A PDU of the dictionary engine leaves (R296, R339): on CAN FD at once, else by the management port
over VC0 to its facet. -/
def sendPdu (s : State) (ep : Endpoint) (pdu : Octets) : State :=
  let s1 := { s with edp := { s.edp with out := s.edp.out ++ [{ ep, pdu }] } }
  match facetOf ep with
  | none => s1
  | some p =>
    let v := frameTo s ep pdu
    portSend { s1 with free := s.free + 1 } p v

/-- The endpoint a frame with head `v` came from at facet `p`. -/
def endpointOf (p : Nat) (v : Octets) (beamLink : Bool) : Endpoint :=
  if beamLink then .beamLink p 0
  else
    let mac := ofBe ((v.drop 6).take 6)
    match udpAt v with
    | some (u, _) =>
      let ip := (ethInfo v).body
      .udp p mac (ofBe ((v.drop (ip + 12)).take 4)) (ofBe ((v.drop u).take 2)) (ofBe ((v.drop (ip + 16)).take 4))
    | none => .ether p mac

end Sys2Proof.Machine
end

