-- ==== Sys2Proof/Machine/Reflex.lean ====
section
/-! DEFINITION. Reflex objects: the check of a request, the three actions, the warden's own, the management key (R297 to R302, R305). -/

namespace Sys2Proof.Machine

/-! ### The body (R297) -/

def rfxOp (v : Octets) : Nat := leAt v 1 1
def rfxTarget (v : Octets) : Nat := leAt v 2 2
def rfxCtr (v : Octets) : Nat := leAt v 8 8

/-- The first 8 octets of the HMAC over octets 0 to 15. -/
def rfxTag (key v : Octets) : Octets := (hmac key (v.take 16)).take 8

/-- TARGET names something the part has (order 5 of R298). -/
def rfxTargetGood (s : State) (v : Octets) : Bool :=
  let t := rfxTarget v
  match rfxOp v with
  | 1 => decide (t < nFacets s)
  | 2 => decide (t < nBeams s)
  | _ => decide (t < nClusters s)

/-- The result of the checks of R298, in their order. -/
def rfxCheck (s : State) (r : RfxReq) : Nat :=
  match r.key with
  | none => 5
  | some key =>
    if (r.body.drop 16).take 8 ≠ rfxTag key r.body then 1
    else if rfxCtr r.body ≤ s.rfx.ctr then 2
    else if rfxOp r.body < 1 ∨ 3 < rfxOp r.body ∨ !zeroOctets r.body 5 3 ∨ !r.shape then 3
    else if !rfxTargetGood s r.body then 4
    else 0

/-- The answer body (R300). -/
def rfxAnswer (r : RfxReq) (result : Nat) : Octets :=
  let v := [0xF1#8] ++ (r.body.drop 1).take 4 ++ [BitVec.ofNat 8 result, 0, 0] ++ (r.body.drop 8).take 8
  v ++ (match r.key with | some k => if result = 5 then List.replicate 8 0 else rfxTag k v | none => List.replicate 8 0)

/-- The answer is queued at the facet the request came to. -/
def rfxReply (s : State) (p : Nat) (r : RfxReq) (result : Nat) : State :=
  queueAnswer s p (frameTo s (endpointOf p r.head r.beamLink) (rfxAnswer r result))

/-- The log and the counts of R302. -/
def rfxLog (s : State) (p : Nat) (r : RfxReq) (result : Nat) : State :=
  let op := if rfxOp r.body < 1 ∨ 3 < rfxOp r.body then 0 else rfxOp r.body
  { s with rfx := { s.rfx with
      log0 := BitVec.ofNat 32 (op + result * 4 + p % 256 * 256 + rfxTarget r.body * 65536)
      log1 := BitVec.ofNat 32 r.time
      done := if result = 0 then satInc 0xFFFF s.rfx.done else s.rfx.done
      refused := if result = 0 then s.rfx.refused else satInc 0xFFFF s.rfx.refused } }

/-- An accepted action goes to its target: at once in the arrival cluster, or to the engine of its quadrant, else over VC0 (R299). -/
def rfxSend (s : State) (p : Nat) (a : RfxAct) : State :=
  let c := p / 8
  let route :=
    if a.op = 2 then (let r := a.target / 16384; if quadOf c = r then [] else [c, 96 + c] ++ meshHops (quadOf c) r)
    else
      let t := if a.op = 1 then a.target / 8 else a.target
      if t = c then [] else routeBetween c t
  if route.isEmpty then { s with rfx := { s.rfx with acts := s.rfx.acts ++ [a] } } else sendPacket s 0 .reflex route 24 (.reflex a)

/-- The oldest request of the facet is checked (R298); the answer to one that disables its own facet goes before the lane's power. -/
def rfxServe (s0 : State) (p : Nat) (r : RfxReq) : State :=
  let s := modFacet s0 p fun f => { f with rfx := f.rfx.drop 1 }
  match rfxCheck s r with
  | 0 =>
    let a : RfxAct := { op := rfxOp r.body, target := rfxTarget r.body, facet := p, req := r }
    let s1 := raise (rfxLog { s with rfx := { s.rfx with ctr := rfxCtr r.body } } p r 0) 774
    rfxSend (if a.op = 1 ∧ a.target = p then rfxReply s1 p r 0 else s1) p a
  | 1 => countRfx s
  | x => raise (rfxReply (rfxLog s p r x) p r x) 775

/-- REFLEX_REQUEST (R298): 640 ns after the frame's last octet. -/
def execReflexRequest (p : Nat) (s : State) : Host.Outcome State Fault Refusal :=
  match (getFacet s p).rfx with
  | [] => .next s
  | r :: _ => .next (if r.time + 640 ≤ s.tb then rfxServe s p r else s)

/-! ### The actions (R299, R305) -/

/-- The oldest action waiting for this operation and target. -/
def rfxWaiting (s : State) (op target : Nat) : Option RfxAct := s.rfx.acts.find? fun a => a.op == op && a.target == target

def rfxTake (s : State) (a : RfxAct) : State := { s with rfx := { s.rfx with acts := s.rfx.acts.erase a } }

/-- The completion returns to the arrival facet, which answers. -/
def rfxComplete (s : State) (a : RfxAct) : State :=
  let c := a.facet / 8
  let route :=
    if a.op = 2 then (let r := a.target / 16384; if quadOf c = r then [] else meshHops r (quadOf c) ++ [32 + c])
    else
      let t := if a.op = 1 then a.target / 8 else a.target
      if t = c then [] else routeBetween t c
  if a.op = 1 ∧ a.target = a.facet then s
  else if route.isEmpty then rfxReply s a.facet a.req 0
  else
    let v := frameTo s (endpointOf a.facet a.req.head a.req.beamLink) (rfxAnswer a.req 0)
    sendPacket { s with free := s.free + 1 } 0 .reflex route v.length (.toFacet a.facet v)

/-- The facet stops as if ROLE were 0; a retired one stays as it is (R299, R305). -/
def disableOp (s : State) (p : Nat) : State :=
  let s1 := if (getFacet s p).retired then s else linkOff s p
  modFacet s1 p fun f => { f with stopped := true }

/-- The answer of the facet to its own disabling has left, or cannot leave. -/
def ownAnswerGone (s : State) (a : RfxAct) : Bool :=
  let f := getFacet s a.facet
  a.target != a.facet || f.state != 3 ||
    (f.answers.isEmpty && (match f.lane with | some t => t.desc.poster != .own | none => true))

/-- DISABLE_FACET (R299). -/
def execDisableFacet (p : Nat) (s : State) : Host.Outcome State Fault Refusal :=
  match rfxWaiting s 1 p with
  | none => .next s
  | some a => .next (if ownAnswerGone s a then rfxComplete (disableOp (rfxTake s a) p) a else s)

/-- The home quadrant's engine deletes the beam as a window store that clears VALID (R223, R299). -/
def killOp (s : State) (b : Nat) : State := windowStore s b 1 0 1#32

/-- KILL_BEAM (R299). -/
def execKillBeam (b : Nat) (s : State) : Host.Outcome State Fault Refusal :=
  match rfxWaiting s 2 b with
  | none => .next s
  | some a => .next (rfxComplete (killOp (rfxTake s a) b) a)

/-- The cluster's cores are held at their next boundaries (R299). -/
def quiesceOp (s : State) (c : Nat) : State := modCluster s c fun v => { v with quiesced := true }

/-- Every core of the cluster has stopped (R299). -/
def allStopped (s : State) (c : Nat) : Bool := (((List.range 4).map fun i => 4 * c + i).filter (corePresent s)).all (atPoint s)

/-- QUIESCE_CLUSTER (R299): the cores are held; the action is complete once every one has stopped. -/
def execQuiesceCluster (c : Nat) (s : State) : Host.Outcome State Fault Refusal :=
  match rfxWaiting s 3 c with
  | none => .next s
  | some a =>
    let s1 := quiesceOp s c
    .next (if allStopped s1 c then rfxComplete (rfxTake s1 a) a else s1)

/-! ### The warden's own (R301) -/

def disableWrite (s : State) (v : Nat) : State × Option Nat :=
  if 255 < v then (s, some 0x03000001) else if nFacets s ≤ v then (s, some 0x02000006) else (disableOp s v, none)

def killWrite (s : State) (v : Nat) : State × Option Nat :=
  if 65535 < v then (s, some 0x03000001) else if nBeams s ≤ v then (s, some 0x02000006) else (killOp s v, none)

def quiesceWrite (s : State) (v : Nat) : State × Option Nat :=
  if 31 < v then (s, some 0x03000001) else if nClusters s ≤ v then (s, some 0x02000006) else (quiesceOp s v, none)

def releaseWrite (s : State) (v : Nat) : State × Option Nat :=
  if 31 < v then (s, some 0x03000001)
  else if nClusters s ≤ v then (s, some 0x02000006)
  else if !(getCluster s v).quiesced then (s, some 0x04000001)
  else (modCluster s v fun x => { x with quiesced := false }, none)

/-- WARDEN_DISABLE_FACET (R301). -/
def execWardenDisableFacet (v : Nat) (s : State) : Host.Outcome State Fault Refusal := .next (answered (disableWrite s v))

/-- WARDEN_KILL_BEAM (R301). -/
def execWardenKillBeam (v : Nat) (s : State) : Host.Outcome State Fault Refusal := .next (answered (killWrite s v))

/-- WARDEN_QUIESCE_CLUSTER (R301). -/
def execWardenQuiesceCluster (v : Nat) (s : State) : Host.Outcome State Fault Refusal := .next (answered (quiesceWrite s v))

/-- RELEASE_QUIESCE (R301). -/
def execReleaseQuiesce (v : Nat) (s : State) : Host.Outcome State Fault Refusal := .next (answered (releaseWrite s v))

/-- A key is written after a RESTORE that was to unset it: the copy no longer does (R334). -/
def keepKey (s : State) (i : Nat) : State :=
  let a := s.edp.active
  { s with edp := { s.edp with active := { a with unset := if a.unset.testBit i then a.unset - 2 ^ i else a.unset } } }

/-- A write of the management key (R301). -/
def mgmtKeyWrite (s : State) (key : Octets) : State × Option Nat :=
  if key.length ≠ 32 then (s, some 0x03000001) else (keepKey { s with rfx := { s.rfx with key := some key } } 2, none)

/-- MANAGEMENT_KEY_WRITE (R301). -/
def execManagementKeyWrite (key : Octets) (s : State) : Host.Outcome State Fault Refusal := .next (answered (mgmtKeyWrite s key))

end Sys2Proof.Machine
end

