-- ==== Sys2Proof/Machine/Channel.lean ====
section
/-! DEFINITION. The instrument channels (R306 to R321) and their requalification (R285). -/

namespace Sys2Proof.Machine

def getChan (s : State) (n : Nat) : Channel := Tab.get (fun _ => Channel.reset) n s.chans
def setChan (s : State) (n : Nat) (x : Channel) : State := { s with chans := Tab.put n x s.chans }
def modChan (s : State) (n : Nat) (f : Channel → Channel) : State := setChan s n (f (getChan s n))

/-- Channel `n` exists on the part (R306). -/
def chanPresent (s : State) (n : Nat) : Bool := decide (n < nChans s)

/-- A configuration field, by its subindex of 0x5000 + n (R319). -/
def chanCfg (s : State) (n sub : Nat) : Nat := ent s (0x5000 + n) sub
def setChanCfg (s : State) (n sub v : Nat) : State := setEnt s (0x5000 + n) sub v

/-- The abort codes of R319: a value out of range, the device state. -/
def outOfRange : Nat := 0x03000001
def wrongState : Nat := 0x04000001

/-- A value of `bits` bits read as two's complement. -/
def signedOf (bits v : Nat) : Int := if v % 2 ^ bits < 2 ^ (bits - 1) then (v % 2 ^ bits : Int) else (v % 2 ^ bits : Int) - 2 ^ bits

/-- The low `bits` bits of an integer. -/
def patternOf (bits : Nat) (x : Int) : Nat := (x % (2 ^ bits : Int)).toNat

def clampInt (x lo hi : Int) : Int := max lo (min x hi)

/-! ### ISTAT (R318) -/

def istatBit (i : Nat) : BitVec 11 := 1#11 <<< i

/-- ISTAT bits are set; event 688 + n is raised when an enabled one rises. -/
def setIstat (s : State) (n : Nat) (mask : BitVec 11) : State :=
  let x := getChan s n
  let t := setChan s n { x with istat := x.istat ||| mask }
  if mask &&& ~~~x.istat &&& x.ieven ≠ 0 then raise t (688 + n) else t

def Channel.failed (x : Channel) : Bool := x.istat.getLsbD 10
def Channel.safe (x : Channel) : Bool := x.istat.getLsbD 2
def Channel.isOpen (x : Channel) : Bool := x.istat.getLsbD 3
def Channel.scf (x : Channel) : Nat := x.istat.toNat / 256 % 4

def Channel.setScf (x : Channel) (v : Nat) : Channel := { x with istat := (x.istat &&& 0x4FF#11) ||| BitVec.ofNat 11 (v % 4 * 256) }

/-- A refused write changes nothing else and sets ISTAT.REFUSED (R313). -/
def chanRefuse (s : State) (n code : Nat) : State × Option Nat := (setIstat s n (istatBit 7), some code)

/-! ### Codes and limits (R309, R310) -/

/-- An output code in the coding of the mode in force: signed in voltage mode, else unsigned (R309). -/
def outVal (mode v : Nat) : Int := if mode = 1 then signedOf 16 v else (v % 65536 : Int)

/-- OMAN within the limits in force. -/
def manualOut (s : State) (n : Nat) (x : Channel) : Nat :=
  let m := chanCfg s n 2
  patternOf 16 (clampInt (outVal m x.omanNow) (outVal m x.cfgNow.olo) (outVal m x.cfgNow.ohi))

/-- The loop values as the registers hold them (R313). -/
def cfgOf (s : State) (n : Nat) : LoopCfg :=
  { sp := (getChan s n).sp, kp := signedOf 32 (chanCfg s n 0x0A), ki := signedOf 32 (chanCfg s n 0x0B), kd := signedOf 32 (chanCfg s n 0x0C),
    olo := chanCfg s n 6, ohi := chanCfg s n 7, slew := chanCfg s n 9, filt := chanCfg s n 4 }

/-- A loop value has been written: it waits for the first boundary at least 100 ns later (R313). -/
def noteCfg (s : State) (n : Nat) : State :=
  let c := cfgOf s n
  modChan s n fun x => { x with snaps := x.snaps ++ [(s.tb, c)] }

/-- The latest value written at least 100 ns before `t`, and the writes still waiting. -/
def takeAged {α : Type} (t : Nat) (now : α) (l : List (Nat × α)) : α × List (Nat × α) :=
  ((l.filter fun e => decide (e.1 + 100 ≤ t)).foldl (fun _ e => e.2) now, l.filter fun e => decide (t < e.1 + 100))

/-! ### Configuration writes (R313 to R318) -/

/-- A write of ICFG, or of one of its fields through the dictionary. -/
def icfgWrite (s : State) (n range omode loopen filt : Nat) : State × Option Nat :=
  let x := getChan s n
  let changed := range ≠ chanCfg s n 1 ∨ omode ≠ chanCfg s n 2
  if 4 < range ∨ 2 < omode ∨ 1 < loopen ∨ 15 < filt then chanRefuse s n outOfRange
  else if changed ∧ (chanCfg s n 3 = 1 ∨ x.failed) then chanRefuse s n wrongState
  else
    let starts := decide (chanCfg s n 3 = 0 ∧ loopen = 1)
    let moved := decide (omode ≠ chanCfg s n 2)
    let s1 := setChanCfg (setChanCfg (setChanCfg (setChanCfg s n 1 range) n 2 omode) n 3 loopen) n 4 filt
    let s2 := modChan s1 n fun y => { y with restart := y.restart || starts, modeNew := y.modeNew || moved, openAt := if moved then s.tb else y.openAt }
    (noteCfg s2 n, none)

def icfgWord (s : State) (n : Nat) (v : Word) : State × Option Nat := icfgWrite s n (field v 0 3) (field v 3 2) (field v 5 1) (field v 6 4)

def lperWrite (s : State) (n v : Nat) : State × Option Nat :=
  if v ≠ chanCfg s n 5 ∧ chanCfg s n 3 = 1 then chanRefuse s n wrongState else (setChanCfg s n 5 v, none)

def olimWrite (s : State) (n lo hi : Nat) : State × Option Nat :=
  let m := chanCfg s n 2
  if outVal m hi < outVal m lo then chanRefuse s n outOfRange
  else (noteCfg (setChanCfg (setChanCfg s n 6 lo) n 7 hi) n, none)

/-- SAFE is driven from the next DAC instant (R310). -/
def forceSafe (s : State) (n : Nat) : State := setIstat s n (istatBit 2)

def osafeWrite (s : State) (n : Nat) (v : Word) : State × Option Nat :=
  let s1 := setChanCfg s n 8 (field v 0 16)
  (if v.getLsbD 16 then forceSafe s1 n else s1, none)

/-- A write of SLEW or of a gain. -/
def loopFieldWrite (s : State) (n sub v : Nat) : State × Option Nat := (noteCfg (setChanCfg s n sub v) n, none)

/-- A write of SP, clamped (R311). -/
def spWrite (s : State) (n : Nat) (v : Int) : State × Option Nat :=
  (noteCfg (modChan s n fun x => { x with sp := clampInt v (-131072) 131071 }) n, none)

def omanWrite (s : State) (n v : Nat) : State × Option Nat :=
  (modChan s n fun x => { x with oman := v, omans := x.omans ++ [(s.tb, v)] }, none)

/-- The ring of N entries from `base` lies within one bank of the cluster (R317, R318). -/
def ringFits (base entries : Nat) : Bool :=
  let e := base + 16 * max 4 entries - 1
  decide (0x100000 ≤ base) && decide (e < 0x200000) && decide (base / 0x40000 = e / 0x40000)

/-- A write of SCFG (R317): streaming is set and SEQ starts at 1. -/
def scfgWrite (s : State) (n : Nat) (v : Word) : State × Option Nat :=
  if !ringFits (chanCfg s n 0x11) (field v 16 8) then chanRefuse s n outOfRange
  else (modChan (setChanCfg s n 0x10 (field v 0 24)) n fun x => { x with seq := 1, entry := 0, recCnt := 0, recDue := false }, none)

def sbaseWrite (s : State) (n : Nat) (v : Word) : State × Option Nat :=
  let b := field v 4 28 * 16
  if !ringFits b (chanCfg s n 0x10 / 65536) then chanRefuse s n outOfRange else (setChanCfg s n 0x11 b, none)

/-! ### The RS-485 line (R316) -/

def ucfg (s : State) (n : Nat) : Word := BitVec.ofNat 32 (chanCfg s n 0x12)

/-- The bit time in units of 250 ps. -/
def bitTime (u : Word) : Nat := max 200 (field u 0 20)

/-- The bits of a character. -/
def charBits (u : Word) : Nat := 9 + (if field u 20 2 = 0 then 0 else 1) + (if u.getLsbD 22 then 2 else 1)

def usOf (i : Nat) : BitVec 21 := 1#21 <<< i

/-- W1C bits of USTAT are set; one that rises sets ISTAT.UEV. -/
def setUstat (s : State) (n : Nat) (mask : BitVec 21) : State :=
  let x := getChan s n
  let s1 := setChan s n { x with ustat := x.ustat ||| mask }
  if mask &&& ~~~x.ustat ≠ 0 then setIstat s1 n (istatBit 6) else s1

/-- The octets the driver has begun by now leave the FIFO, back to back (R316). -/
def lineAdvance (u : Word) (now : Nat) : Nat → Channel → Channel
  | 0, x => x
  | f + 1, x =>
    match x.txf with
    | [] => x
    | d :: ds =>
      if x.driver ∧ x.txEnd ≤ now then lineAdvance u now f { x with txf := ds, txEnd := x.txEnd + charBits u * bitTime u, echo := x.echo ++ [d] }
      else x

def lineNow (s : State) (n : Nat) : State := modChan s n fun x => lineAdvance (ucfg s n) (4 * s.tb) 64 x

/-- The driver is enabled at the start bit of the first octet (R316), while the line runs and the channel is not failed (R280). -/
def lineStart (s : State) (n : Nat) : State :=
  let x := getChan s n
  if !(ucfg s n).getLsbD 28 ∨ x.failed ∨ x.txf.isEmpty then s
  else lineNow (setChan s n { x with driver := true, txEnd := if x.driver then x.txEnd else 4 * s.tb }) n

/-- An octet written to UTX (R316). -/
def utxWrite (s : State) (n : Nat) (v : Word) : State :=
  let s1 := lineNow s n
  let x := getChan s1 n
  if 64 ≤ x.txf.length then setUstat s1 n (usOf 16)
  else lineStart (setChan s1 n { x with txf := x.txf ++ [v.setWidth 8], txEnd := max x.txEnd (if x.txf.isEmpty then 4 * s.tb else 0) }) n

/-- A write of UCFG (R316, R318). -/
def ucfgWrite (s : State) (n : Nat) (v : Word) : State × Option Nat :=
  if field v 20 2 = 3 then chanRefuse s n outOfRange
  else if (getChan s n).failed ∧ v.getLsbD 28 ≠ (ucfg s n).getLsbD 28 then chanRefuse s n wrongState
  else
    let s1 := setChanCfg (lineNow s n) n 0x12 (field v 0 29)
    (if v.getLsbD 28 then lineStart s1 n else modChan s1 n fun x => { x with driver := false, echo := [] }, none)

/-- A read of URX: the entry is removed (R318). -/
def urxRead (s : State) (n : Nat) : State × Word :=
  let x := getChan s n
  match x.rxf with
  | [] => (s, 0)
  | c :: cs =>
    (setChan s n { x with rxf := cs },
      BitVec.ofNat 32 (c.data.toNat + 256 + (if c.perr then 512 else 0) + (if c.ferr then 1024 else 0) + (if c.ferr ∧ c.data = 0 then 2048 else 0)))

def ustatRead (s : State) (n : Nat) : Word :=
  let x := getChan (lineNow s n) n
  BitVec.ofNat 32 (x.txf.length + x.rxf.length * 256 + x.ustat.toNat / 65536 % 8 * 65536 + (if !x.driver ∧ x.txf.isEmpty then 0x80000 else 0)
    + (if x.ustat.getLsbD 20 then 0x100000 else 0))

/-! ### ISTAT writes, failure (R280, R310, R315) -/

/-- A write of ones to ISTAT: flags are cleared; a one at SAFE releases the output, or the write is refused (R310). -/
def istatWrite (s : State) (n : Nat) (v : Word) : State × Option Nat :=
  let x := getChan s n
  if v.getLsbD 2 ∧ x.safe ∧ (x.hiAct ∨ x.loAct ∨ x.failed) then chanRefuse s n wrongState
  else
    let rel := v.getLsbD 2 && x.safe
    (setChan s n { x with istat := x.istat &&& ~~~(v.setWidth 11 &&& 0xF7#11), restart := x.restart || rel }, none)

/-- The channel fails (R280, R315); `why` is 1 for the self-checks, 2 for a parity error (R281). -/
def chanFail (s : State) (n why : Nat) : State :=
  let x := getChan s n
  if x.failed then s
  else
    let s1 := setChan s n { lineAdvance (ucfg s n) (4 * s.tb) 64 x with driver := false, echo := [], next := none }
    emergency (setIstat s1 n (istatBit 10 ||| istatBit 2)) 0x8140 0 [BitVec.ofNat 8 n, BitVec.ofNat 8 why]

/-! ### The registers (R318) and the entries (R319) -/

def boolBit (b : Bool) (i : Nat) : Nat := if b then 2 ^ i else 0

/-- A read of the block; URX is read by `urxRead`. -/
def chanReg (s : State) (n off : Nat) : Word :=
  let x := getChan s n
  let c := chanCfg s n
  let v : Nat :=
    match off with
    | 0x000 => c 1 + c 2 * 8 + c 3 * 32 + c 4 * 64
    | 0x004 => c 5
    | 0x008 => c 6 + c 7 * 65536
    | 0x00C => c 8
    | 0x010 => c 9
    | 0x014 => c 0x0A
    | 0x018 => c 0x0B
    | 0x01C => c 0x0C
    | 0x020 => patternOf 32 x.sp
    | 0x024 => x.oman
    | 0x028 => c 0x0D
    | 0x02C => c 0x0E
    | 0x030 => c 0x0F
    | 0x040 => patternOf 32 x.meas
    | 0x044 => patternOf 32 x.yf
    | 0x048 => x.out
    | 0x04C => x.istat.toNat
    | 0x050 => x.ieven.toNat
    | 0x060 => c 0x10
    | 0x064 => c 0x11
    | 0x080 => c 0x12
    | 0x08C => (ustatRead s n).toNat
    | _ => 0
  BitVec.ofNat 32 v

def chanRead (s : State) (n off : Nat) : State × Word := if off = 0x088 then urxRead s n else (s, chanReg s n off)

/-- A write of a register of the block. -/
def chanWrite (s : State) (n off : Nat) (v : Word) : State × Option Nat :=
  match off with
  | 0x000 => icfgWord s n v
  | 0x004 => lperWrite s n (field v 0 16)
  | 0x008 => olimWrite s n (field v 0 16) (field v 16 16)
  | 0x00C => osafeWrite s n v
  | 0x010 => loopFieldWrite s n 9 (field v 0 16)
  | 0x014 => loopFieldWrite s n 0x0A v.toNat
  | 0x018 => loopFieldWrite s n 0x0B v.toNat
  | 0x01C => loopFieldWrite s n 0x0C v.toNat
  | 0x020 => spWrite s n v.toInt
  | 0x024 => omanWrite s n (field v 0 16)
  | 0x028 => (setChanCfg s n 0x0D (field v 0 18), none)
  | 0x02C => (setChanCfg s n 0x0E (field v 0 18), none)
  | 0x030 => (setChanCfg s n 0x0F (field v 0 17), none)
  | 0x04C => istatWrite s n v
  | 0x050 => (modChan s n fun x => { x with ieven := (v.setWidth 11 &&& 0xFF#11) ||| 0x400#11 }, none)
  | 0x060 => scfgWrite s n v
  | 0x064 => sbaseWrite s n v
  | 0x080 => ucfgWrite s n v
  | 0x084 => (utxWrite s n v, none)
  | 0x08C => (modChan s n fun x => { x with ustat := x.ustat &&& ~~~(v.setWidth 21 &&& 0x170000#21) }, none)
  | _ => (s, none)

/-- A write of 0x5000 + n as a register write; a value its field cannot hold, and one with a
reserved bit set, is out of range (R319, R341). -/
def chanEntWrite (s : State) (n sub v : Nat) : State × Option Nat :=
  let c := chanCfg s n
  let lvl := signedOf 32 v
  match sub with
  | 0x01 => icfgWrite s n v (c 2) (c 3) (c 4)
  | 0x02 => icfgWrite s n (c 1) v (c 3) (c 4)
  | 0x03 => icfgWrite s n (c 1) (c 2) v (c 4)
  | 0x04 => icfgWrite s n (c 1) (c 2) (c 3) v
  | 0x05 => lperWrite s n v
  | 0x06 => olimWrite s n v (c 7)
  | 0x07 => olimWrite s n (c 6) v
  | 0x08 => osafeWrite s n (BitVec.ofNat 32 (v % 65536))
  | 0x09 => loopFieldWrite s n 9 v
  | 0x0D | 0x0E => if lvl < -131072 ∨ 131071 < lvl then chanRefuse s n outOfRange else (setChanCfg s n sub (patternOf 18 lvl), none)
  | 0x0F => if 2 ^ 17 ≤ v then chanRefuse s n outOfRange else (setChanCfg s n 0x0F v, none)
  | 0x10 => if 2 ^ 24 ≤ v then chanRefuse s n outOfRange else scfgWrite s n (BitVec.ofNat 32 v)
  | 0x11 => if v % 16 ≠ 0 then chanRefuse s n outOfRange else sbaseWrite s n (BitVec.ofNat 32 v)
  | 0x12 => if 2 ^ 29 ≤ v then chanRefuse s n outOfRange else ucfgWrite s n (BitVec.ofNat 32 v)
  | _ => loopFieldWrite s n sub v

/-- A write of 0x5100 + n (R319). -/
def chanValWrite (s : State) (n sub v : Nat) : State × Option Nat :=
  match sub with
  | 0x05 => spWrite s n (signedOf 32 v)
  | 0x06 => omanWrite s n v
  | 0x07 => istatWrite s n (BitVec.ofNat 32 v)
  | _ => (if v = 1 then forceSafe s n else s, none)

/-- A read of 0x5000 + n or 0x5100 + n: the value as the entry's type has it. -/
def chanEntRead (s : State) (n sub : Nat) : Nat :=
  if sub = 0x0D ∨ sub = 0x0E then patternOf 32 (signedOf 18 (chanCfg s n sub)) else chanCfg s n sub

def chanValRead (s : State) (n sub : Nat) : Nat :=
  let x := getChan s n
  match sub with
  | 0x01 => patternOf 32 x.meas
  | 0x02 => patternOf 32 x.yf
  | 0x03 => x.out
  | 0x04 => x.istat.toNat
  | 0x05 => patternOf 32 x.sp
  | 0x06 => x.oman
  | _ => 0

/-! ### What the timebase does (R308 to R317) -/

/-- The loop period in ns (R318). -/
def loopPeriod (s : State) (n : Nat) : Nat := max 10 (chanCfg s n 5) * 1000

/-- A boundary at or before the last conversion has not been taken. -/
def boundaryWaits (s : State) (n : Nat) (x : Channel) : Bool :=
  let p := loopPeriod s n
  decide (x.lastLoop < x.lastConv * 500 / p * p)

/-- The trips of conversion `c` (R314). -/
def convTrips (s : State) (n : Nat) (c : Int) : State :=
  let t := BitVec.ofNat 32 (chanCfg s n 0x0F)
  let hi := signedOf 18 (chanCfg s n 0x0D)
  let lo := signedOf 18 (chanCfg s n 0x0E)
  let hy : Int := field t 0 14
  let th := t.getLsbD 14 && decide (hi < c)
  let tl := t.getLsbD 15 && decide (c < lo)
  let s1 := modChan s n fun x =>
    { x with hiAct := th || (x.hiAct && !decide (c ≤ hi - hy)), loAct := tl || (x.loAct && !decide (lo + hy ≤ c)) }
  let m : BitVec 11 := (if th then istatBit 0 else 0) ||| (if tl then istatBit 1 else 0) ||| (if (th || tl) && t.getLsbD 16 then istatBit 2 else 0)
  setIstat s1 n m

/-- CONVERSION (R307, R308, R314): `code` is the input in steps of one LSB; a result is at the engine 50 ns after its instant. -/
def execChannelConversion (n : Nat) (code : Int) (s : State) : Host.Outcome State Fault Refusal :=
  let x := getChan s n
  let k := (s.tb - 50) / 500
  if !chanPresent s n ∨ k ≤ x.lastConv ∨ boundaryWaits s n x then .next s
  else
    let c := clampInt code (-131072) 131071
    let s1 := setChan s n { x with lastConv := k, convN := x.convN + 1, convSum := x.convSum + c }
    let s2 := if c = code then s1 else setIstat s1 n (istatBit 4)
    .next (convTrips s2 n c)

/-- The loop step of R311 on a channel whose m and yf are formed, with the values in force `g`; `mode` codes the output. -/
def loopStep (x : Channel) (g : LoopCfg) (mode : Nat) (loopen : Bool) (manual : Nat) : Channel :=
  if x.failed || x.safe then x
  else if loopen then
    let out := outVal mode x.out
    let lo := outVal mode g.olo
    let hi := outVal mode g.ohi
    let i0 := if x.restart then out * 65536 else x.i
    let y0 := if x.restart then x.yf else x.yprev
    let e := g.sp - x.yf
    let i1 := clampInt (i0 + g.ki * e) (lo * 65536) (hi * 65536)
    let u := (g.kp * e + i1 + g.kd * (y0 - x.yf)) / 65536
    let u1 := if g.slew = 0 then u else clampInt u (out - g.slew) (out + g.slew)
    { x with i := i1, yprev := x.yf, next := some (patternOf 16 (clampInt u1 lo hi)), restart := false }
  else { x with yprev := x.yf, next := some manual }

/-- LOOP_BOUNDARY (R308, R311, R313). -/
def execLoopBoundary (n : Nat) (s : State) : Host.Outcome State Fault Refusal :=
  let x := getChan s n
  let p := loopPeriod s n
  let t := s.tb / p * p
  if !chanPresent s n ∨ t ≤ x.lastLoop ∨ x.lastConv * 500 < t ∨ x.convN = 0 then .next s
  else
    let g := takeAged t x.cfgNow x.snaps
    let m := x.convSum / (x.convN : Int)
    let yf := if x.started then x.yf + (m - x.yf) / (2 ^ g.1.filt : Int) else m
    let every := chanCfg s n 0x10 % 65536
    let due := decide (every ≠ 0) && decide (every ≤ x.recCnt + 1)
    let y := { x with
      meas := m, yf, started := true, convN := 0, convSum := 0, lastLoop := t, cfgNow := g.1, snaps := g.2,
      recCnt := if due then 0 else x.recCnt + 1, recDue := due }
    .next (setChan s n (loopStep y g.1 (chanCfg s n 2) (chanCfg s n 3 == 1) (manualOut s n y)))

/-- The two words of a stream record (R317). -/
def recordWords (x : Channel) : BitVec 64 × BitVec 64 :=
  (BitVec.ofNat 64 (patternOf 32 x.yf + x.out * 2 ^ 32 + x.seq * 2 ^ 48),
   BitVec.ofNat 64 (x.lastLoop % 2 ^ 32 + x.istat.toNat * 2 ^ 32 + x.seq * 2 ^ 48))

/-- A stream record is written through port B, or over VC1 into the foster bank (R317). -/
def writeRecord (s : State) (n : Nat) : State :=
  let x := getChan s n
  let cfg := BitVec.ofNat 32 (chanCfg s n 0x10)
  let a := chanCfg s n 0x11 + x.entry * 16
  let r := recordWords x
  let s1 :=
    match fosterOf s (2 * n) with
    | some f =>
      sendPacket s 1 .fostered (routeBetween (2 * n) f) 16
        (.fostered (bankBase f (ent s (0x4100 + 2 * n) 2) + a % 0x40000) (leOctets 8 r.1.toNat ++ leOctets 8 r.2.toNat))
    | none =>
      let w := (0x01000000 + 2 * n * 0x100000 + (a - 0x100000)) / 8
      portWrite (portWrite s 10 0 w r.1 0xFF#8) 10 0 (w + 1) r.2 0xFF#8
  setIstat (modChan s1 n fun y =>
    { y with recDue := false, seq := if y.seq = 0xFFFF then 1 else y.seq + 1, entry := (y.entry + 1) % max 4 (field cfg 16 8) }) n (istatBit 5)

/-- DAC_UPDATE (R309 to R313): the DAC takes its code at a 1 µs instant; a stream record that is due is written 2 µs after its boundary. -/
def execDacUpdate (n : Nat) (s : State) : Host.Outcome State Fault Refusal :=
  let x := getChan s n
  let t := s.tb / 1000 * 1000
  if !chanPresent s n ∨ t ≤ x.lastDac then .next s
  else
    let o := takeAged t x.omanNow x.omans
    let y := { x with omanNow := o.1, omans := o.2, lastDac := t }
    let settled := decide (x.lastLoop + 2000 ≤ t)
    let z :=
      if x.failed || x.safe then { y with out := chanCfg s n 8, next := none, modeNew := false }
      else if x.modeNew || chanCfg s n 3 != 1 then { y with out := manualOut s n y, modeNew := false, next := if settled then none else y.next }
      else if settled then { y with out := y.next.getD y.out, next := none }
      else y
    let s1 := setChan s n { z with dacAt := if z.out = x.out then x.dacAt else t }
    .next (if x.recDue && settled then writeRecord s1 n else s1)

/-- OPEN_LOOP_DETECTION (R309): the sensed current has stayed below the bound, or within it, for 100 µs. -/
def execOpenLoopDetection (n : Nat) (isOpen : Bool) (s : State) : Host.Outcome State Fault Refusal :=
  let x := getChan s n
  if !chanPresent s n ∨ chanCfg s n 2 ≠ 2 ∨ x.isOpen = isOpen ∨ s.tb < x.openAt + 100000 then .next s
  else
    let s1 := modChan s n fun y => { y with openAt := s.tb }
    .next (if isOpen then setIstat s1 n (istatBit 3) else modChan s1 n fun y => { y with istat := y.istat &&& ~~~istatBit 3 })

/-- The read-back check is skipped (R315). -/
def readbackSkipped (s : State) (n : Nat) : Bool :=
  let x := getChan s n
  chanCfg s n 2 == 0 || x.isOpen || decide (s.tb < x.dacAt + 20000)

/-- SELF_CHECK (R315): the checks of a 10 ms instant, or a parity error of the loop engine. -/
def execSelfCheck (n : Nat) (refOk : Bool) (backOk : Bool) (parity : Bool) (s : State) : Host.Outcome State Fault Refusal :=
  let x := getChan s n
  if !chanPresent s n then .next s
  else if parity then .next (chanFail s n 2)
  else if s.tb / 10000000 ≤ x.lastCheck then .next s
  else
    let y := { x with lastCheck := s.tb / 10000000 }
    if refOk && (backOk || readbackSkipped s n) then .next (setChan s n (y.setScf 0))
    else if 2 ≤ x.scf then .next (chanFail (setChan s n y) n 1)
    else .next (setChan s n (y.setScf (x.scf + 1)))

/-- OSAFE_FORCE (R310): a write of OSAFE. -/
def execOsafeForce (n : Nat) (v : Word) (s : State) : Host.Outcome State Fault Refusal :=
  .next (if chanPresent s n then (osafeWrite s n v).1 else s)

/-- SAFE_RELEASE (R310): a write of 1 to ISTAT.SAFE. -/
def execSafeRelease (n : Nat) (s : State) : Host.Outcome State Fault Refusal :=
  .next (if chanPresent s n then (istatWrite s n 4#32).1 else s)

/-- ICFG_WRITE (R313). -/
def execIcfgWrite (n : Nat) (v : Word) (s : State) : Host.Outcome State Fault Refusal :=
  .next (if chanPresent s n then (icfgWord s n v).1 else s)

/-- SCFG_WRITE (R317). -/
def execScfgWrite (n : Nat) (v : Word) (s : State) : Host.Outcome State Fault Refusal :=
  .next (if chanPresent s n then (scfgWrite s n v).1 else s)

/-- UTX_WRITE (R316). -/
def execUtxWrite (n : Nat) (v : Word) (s : State) : Host.Outcome State Fault Refusal :=
  .next (if chanPresent s n then utxWrite s n v else s)

/-- RS485_TRANSMISSION_END (R316): TA bit times after the last stop bit the driver is disabled and DONE is set. -/
def execRs485TransmissionEnd (n : Nat) (s : State) : Host.Outcome State Fault Refusal :=
  let s1 := lineNow s n
  let x := getChan s1 n
  let u := ucfg s n
  if chanPresent s n ∧ x.driver ∧ x.txf.isEmpty ∧ x.txEnd + field u 23 4 * bitTime u ≤ 4 * s.tb then
    .next (setUstat (setChan s1 n { x with driver := false, echo := [] }) n (usOf 20))
  else .next s

/-- RS485_CHARACTER_RECEPTION (R316). -/
def execRs485CharacterReception (n : Nat) (d : Byte) (perr : Bool) (ferr : Bool) (s : State) : Host.Outcome State Fault Refusal :=
  let s1 := lineNow s n
  let x := getChan s1 n
  let u := ucfg s n
  if !chanPresent s n ∨ !u.getLsbD 28 then .next s
  else if x.driver then
    if u.getLsbD 27 then
      let s2 := setChan s1 n { x with echo := x.echo.drop 1 }
      .next (if x.echo.head? = some d then s2 else setUstat s2 n (usOf 18))
    else .next s1
  else if 64 ≤ x.rxf.length then .next (setUstat s1 n (usOf 17))
  else .next (setChan s1 n { x with rxf := x.rxf ++ [{ data := d, perr := perr && field u 20 2 != 0, ferr }] })

/-- URX_READ (R318). -/
def execUrxRead (n : Nat) (s : State) : Host.Outcome State Fault Refusal :=
  if chanPresent s n then
    let r := urxRead s n
    .next { r.1 with rdata := some r.2 }
  else .next s

/-- A write of 0x9003:02 (R285): the self-checks start on a failed channel. -/
def chanRequalStart (s : State) (v : Nat) : State × Option Nat :=
  let n := ent s 0x9003 1
  if v ≠ 1 then (s, some outOfRange)
  else if !chanPresent s n ∨ !(getChan s n).failed ∨ ent s 0x9003 2 = 1 then (s, some wrongState)
  else (setEnt s 0x9003 2 1, none)

/-- The 16 checks end: all passed, or not (R285, R315). -/
def chanRequalEnd (s : State) (pass : Bool) : State :=
  if !pass then setEnt s 0x9003 2 3
  else setEnt (modChan s (ent s 0x9003 1) fun x => { x with istat := x.istat &&& 0x0FF#11 }) 0x9003 2 2

/-- CHANNEL_REQUALIFICATION (R285): the checks a write over a transport started end; else the write starts them and they end. -/
def execChannelRequalification (v : Nat) (pass : Bool) (s : State) : Host.Outcome State Fault Refusal :=
  if ent s 0x9003 2 = 1 then .next (chanRequalEnd s pass)
  else
    match chanRequalStart s v with
    | (t, none) => .next (answered (chanRequalEnd t pass, none))
    | r => .next (answered r)

end Sys2Proof.Machine
end

