-- ==== Sys2Proof/Machine/Clock.lean ====
section
/-! DEFINITION. The timebase, its discipline, the calendar and the backup domain (R418 to R428). -/

namespace Sys2Proof.Machine

/-! ### A step of the timebase (R419)

What a rule measures as a time since an instant goes on across a step: the instants are shifted with the timebase. What falls at a fixed value of
the timebase is not shifted; after a backward step it falls due again (log entry 27). -/

def shiftNat (d : Int) (x : Nat) : Nat := ((x : Int) + d).toNat

def shiftHist (d : Int) (h : List Corr) : List Corr := h.map fun e => { e with first := shiftNat d e.first }

def mapTab {α : Type} (f : α → α) (t : Tab α) : Tab α := t.map fun e => (e.1, f e.2)

def shiftCore (d : Int) (k : LensCore) : LensCore :=
  { k with
    e := { k.e with wdStart := shiftNat d k.e.wdStart, hushEnd := k.e.hushEnd.map (shiftNat d) }
    u := { k.u with copy := k.u.copy.map fun o => { o with since := shiftNat d o.since } }
    q := { k.q with rtxOut := k.q.rtxOut.map fun o => { o with since := shiftNat d o.since } }
    st := { k.st with history := k.st.history.map (shiftNat d) } }

def shiftCluster (d : Int) (v : Cluster) : Cluster :=
  { v with hist := shiftHist d v.hist, banks := mapTab (fun b => { b with hist := shiftHist d b.hist, lastLoan := shiftNat d b.lastLoan }) v.banks }

def shiftFacet (d : Int) (now : Nat) (f : Facet) : Facet :=
  { f with
    train := { f.train with start := shiftNat d f.train.start, holdTo := if f.train.holdTo = 0 then 0 else shiftNat d f.train.holdTo }
    lostAt := f.lostAt.map (shiftNat d)
    lane := f.lane.map fun t => { t with start := shiftNat (10 * d) t.start, stop := shiftNat (10 * d) t.stop }
    back := f.back.map fun t => { t with start := shiftNat (10 * d) t.start, stop := shiftNat (10 * d) t.stop }
    gapTo := shiftNat (10 * d) f.gapTo
    await := f.await.map fun a => { a with deadline := shiftNat (10 * d) a.deadline }
    lastFill := shiftNat d f.lastFill
    rfx := f.rfx.map fun r => { r with time := shiftNat d r.time }
    winSec := min f.winSec (now / 1000000000)
    cyc := min f.cyc (cycleNo f.active now)
    prep := min f.prep (cycleNo f.active now + 1) }

def shiftChan (d : Int) (now : Nat) (x : Channel) : Channel :=
  { x with
    snaps := x.snaps.map fun e => (shiftNat d e.1, e.2)
    omans := x.omans.map fun e => (shiftNat d e.1, e.2)
    dacAt := shiftNat d x.dacAt, openAt := shiftNat d x.openAt, txEnd := shiftNat (4 * d) x.txEnd
    lastConv := min x.lastConv (now / 500), lastLoop := min x.lastLoop now, lastDac := min x.lastDac now
    lastCheck := min x.lastCheck (now / 10000000) }

def shiftIris (d : Int) (i : Iris) : Iris :=
  { i with
    hot := mapTab (shiftNat d) i.hot, within := shiftNat d i.within, shared := i.shared.map fun e => (shiftNat d e.1, e.2)
    lastMeas := shiftNat d i.lastMeas, lastAllot := shiftNat d i.lastAllot, lastTemp := shiftNat d i.lastTemp }

def shiftEdp (d : Int) (e : Edp) : Edp :=
  { e with
    sessions := mapTab (fun x => { x with last := shiftNat d x.last }) e.sessions
    transfers := e.transfers.map fun x => { x with last := shiftNat d x.last }
    subs := e.subs.map fun x => { x with sent := shiftNat d x.sent, heard := shiftNat d x.heard }
    beat := shiftNat d e.beat }

/-- The timebase takes `now`, `d` ns from where it stood. -/
def shiftTimes (s : State) (d : Int) (now : Nat) : State :=
  { s with
    tb := now
    cores := mapTab (shiftCore d) s.cores
    clusters := mapTab (shiftCluster d) s.clusters
    quads := mapTab (fun q => { q with hist := shiftHist d q.hist }) s.quads
    mhist := shiftHist d s.mhist
    facets := mapTab (shiftFacet d now) s.facets
    fabric := { s.fabric with ports := mapTab (fun m => { m with fill := shiftNat d m.fill }) s.fabric.ports }
    chans := mapTab (shiftChan d now) s.chans
    polisher := { s.polisher with since := shiftNat d s.polisher.since }
    keys := { s.keys with link := mapTab (fun k => { k with at_ := shiftNat d k.at_ }) s.keys.link }
    iris := shiftIris d s.iris
    edp := shiftEdp d s.edp
    img := { s.img with lastSeg := shiftNat d s.img.lastSeg }
    prbs := s.prbs.map fun x => { x with since := shiftNat d x.since }
    clock := { s.clock with lastMeas := shiftNat d s.clock.lastMeas, lastSet := shiftNat d s.clock.lastSet, lastTrim := shiftNat d s.clock.lastTrim }
    cal := { s.cal with edge := s.cal.edge + d, lastVbat := shiftNat d s.cal.lastVbat } }

/-- A timebase alarm that is armed and due fires (R426). -/
def alarmOf (s : State) (i : Nat) : Nat := Tab.get (fun _ => 0) i s.clock.alm

def alarmDue (s : State) (i : Nat) : Bool := s.clock.arm.testBit i && decide (alarmOf s i ≤ s.tb)

def fireAlarm (s : State) (i : Nat) : State :=
  if alarmDue s i then raise { s with clock := { s.clock with arm := s.clock.arm - 2 ^ i } } (736 + i) else s

/-- The seconds passed since the last one that raised event 742 (R427, R428). -/
def passSeconds (s : State) : State :=
  let n := s.tb / 1000000000 - s.clock.second
  let s1 := { s with clock := { s.clock with second := s.tb / 1000000000 } }
  { s1 with router := { s1.router with raised := s1.router.raised ++ List.replicate n 742 } }

/-- A step of `4 * n` ns (R419, R428): the timebase wraps at 64 bits. -/
def stepTimebase (s : State) (n : Int) : State :=
  let now := (((s.tb : Int) + 4 * n) % (2 ^ 64 : Int)).toNat
  let s1 := passSeconds (shiftTimes s ((now : Int) - s.tb) now)
  let s2 := raise { s1 with clock := { s1.clock with stepped := true } } 741
  (List.range 4).foldl fireAlarm s2

/-- A facet of ROLE 2 to 6 is in SYNC or RUN: no step is made (R419). -/
def linksRun (s : State) : Bool :=
  (List.range (nFacets s)).any fun p => decide (2 ≤ facetRole s p) && decide (facetRole s p ≤ 6) && linkUp (getFacet s p)

def clampAdj (x : Int) : Int := clampInt x (-200000) 200000

def tbadjWrite (s : State) (v : Word) : State := { s with clock := { s.clock with adj := clampAdj (signedOf 24 v.toNat) } }

def tbstepWrite (s : State) (v : Word) : State :=
  if linksRun s then { s with clock := { s.clock with stepref := true } } else stepTimebase s v.toInt

/-- TBADJ_WRITE (R419). -/
def execTbadjWrite (v : Word) (s : State) : Host.Outcome State Fault Refusal := .next (tbadjWrite s v)

/-- TBSTEP_WRITE (R419). -/
def execTbstepWrite (v : Word) (s : State) : Host.Outcome State Fault Refusal := .next (tbstepWrite s v)

/-! ### Discipline (R420 to R422) -/

/-- The source in force (R418); 0 from a reset until the loader applies the stored values (R9, R426, R472; log entry 111). -/
def timeSource (s : State) : Nat :=
  if !s.power.applied then 0
  else match s.chain with
  | some (_ + 1) => 3
  | _ => if ent s 0x2200 4 = 3 then 0 else ent s 0x2200 4

/-- The bounds of a source (R420): in lock below, out of lock above, and how many measurements unlock. -/
def lockBounds (src : Nat) : Nat × Nat × Nat := if src = 1 then (100, 1000, 4) else if src = 2 then (10000, 100000, 1) else (50, 1000, 4)

/-- The discipline state changes (R420): event 740. -/
def setLock (s : State) (v : Nat) : State :=
  if s.clock.lock = v then s else raise { s with clock := { s.clock with lock := v } } 740

def unlock (s : State) : State := setLock { s with clock := { s.clock with inCnt := 0, outCnt := 0 } } 0

/-- The state machine of a source after a measurement (R420). -/
def judgeOffset (s : State) (src : Nat) (off : Int) : State :=
  let b := lockBounds src
  let n := off.natAbs
  let inC := if n < b.1 then min 16 (s.clock.inCnt + 1) else 0
  let outC := if b.2.1 < n then s.clock.outCnt + 1 else 0
  let s1 := { s with clock := { s.clock with inCnt := inC, outCnt := outC } }
  if s.clock.lock = 2 then (if b.2.2 ≤ outC then unlock s1 else s1)
  else if 16 ≤ inC then setLock { s1 with clock := { s1.clock with outCnt := 0 } } 2
  else setLock s1 1

/-- An offset measurement of the source in force (R419, R420): TBOFF, the state, TBADJ as the servo sets it (log entry 13), and a step when the
offset exceeds 1 ms and no link stands against it. -/
def measureOffset (s : State) (src : Nat) (off : Int) : State :=
  let adj := clampAdj (Config.servoAdj s.free off)
  let s1 := judgeOffset { s with free := s.free + 1, clock := { s.clock with off := clampInt off (-2147483648) 2147483647, adj, lastMeas := s.tb } } src off
  if 1000000 < off.natAbs ∧ !linksRun s then stepTimebase s1 (-(off / 4)) else s1

/-- The facet the PTP servo runs on (R421). -/
def ptpFacet (s : State) : Option Nat :=
  if ent s 0x2200 9 = 0xFFFF then s.clock.announce.map (fun e => e.1) else some (ent s 0x2200 9)

/-- PTP messages reach the servo through facet `p` (R421). -/
def ptpUp (s : State) (p : Nat) : Bool := decide (p < nFacets s) && isEther s p && (getFacet s (laneOf s p)).state == 3 && s.active.isSome

/-- PTP_SYNC_MEASUREMENT (R420, R421). -/
def execPtpSyncMeasurement (p : Nat) (off : Int) (s : State) : Host.Outcome State Fault Refusal :=
  .next (if timeSource s = 1 ∧ ptpUp s p ∧ ptpFacet s = some p then measureOffset s 1 off else s)

/-- The time source's state is locked to PTP. -/
def ptpLocked (s : State) : Bool := timeSource s == 1 && s.clock.lock == 2

/-- The best-master comparison (R421): the Announce of the facet in force, or of a better clock, stands. -/
def announceTaken (s : State) (p : Nat) (a : Announce) : Bool :=
  if ent s 0x2200 9 = 0xFFFF then
    match s.clock.announce with
    | none => true
    | some (q, b) => q == p || decide (a.rank < b.rank)
  else ent s 0x2200 9 == p

/-- ANNOUNCE_RECEPTION (R421, R423): with PTP locked the warden writes CALLEAP from the leap flags. -/
def execAnnounceReception (p : Nat) (a : Announce) (s : State) : Host.Outcome State Fault Refusal :=
  if ptpUp s p ∧ announceTaken s p a then
    let s1 := { s with clock := { s.clock with announce := some (p, a) } }
    let v := if a.leap61 then 1 else if a.leap59 then 2 else s1.cal.leap
    .next (if ptpLocked s1 then { s1 with cal := { s1.cal with leap := v } } else s1)
  else .next s

/-- DISCIPLINE_TIMEOUT (R420): no PTP measurement for 3 s, or no CYC for 10 ms; TBADJ keeps its value. -/
def execDisciplineTimeout (s : State) : Host.Outcome State Fault Refusal :=
  let wait := if timeSource s = 1 then 3000000000 else 10000000
  .next (if (timeSource s = 1 ∨ timeSource s = 3) ∧ s.clock.lock = 2 ∧ s.clock.lastMeas + wait ≤ s.tb then unlock s else s)

/-- CYC_RECEPTION (R247, R248, R422): supervision of the link; the tail of the relay link towards position 0 measures. `cyc` is the cycle number,
`ts` the timebase the set carries, `arrived` the local timestamp of its K28.1. -/
def execCycReception (p : Nat) (cyc : Nat) (ts : Nat) (arrived : Nat) (s : State) : Host.Outcome State Fault Refusal :=
  let f := getFacet s p
  let up := p < nFacets s ∧ linkUp f ∧ !isEther s p
  let s1 := if up then cycSupervise s p cyc arrived else s
  .next (if up ∧ timeSource s = 3 ∧ facetRole s p = 6 ∧ f.train.peer ≠ 0xFF#8 ∧ relayTail s p
    then measureOffset s1 3 ((arrived : Int) - ts - f.train.delay) else s1)

/-- TIMEBASE_ALARM (R426). -/
def execTimebaseAlarm (i : Nat) (s : State) : Host.Outcome State Fault Refusal := .next (if i < 4 then fireAlarm s i else s)

/-- WHOLE_SECOND (R427). -/
def execWholeSecond (s : State) : Host.Outcome State Fault Refusal := .next (passSeconds s)

/-! ### The calendar (R423, R424) -/

/-- The last second of the calendar, 2199-12-31 23:59:59. -/
def calLast : Nat := 6311433599

/-- The calendar alarm (R424). -/
def calAlarm (s : State) : State :=
  if s.cal.armed ∧ s.cal.sec = s.cal.alm then raise { s with cal := { s.cal with armed := false, alarm := true } } 743 else s

/-- The calendar moves on by `n` seconds, and wraps. -/
def calAdvance (c : Calendar) (n : Nat) : Calendar :=
  if calLast < c.sec + n then { c with sec := 0, wrap := true, hold := false } else { c with sec := c.sec + n, hold := false }

/-- A second edge (R423): a pending leap second is applied at the end of its day. -/
def calEdge (s : State) : State :=
  let c := { s.cal with edge := (s.tb : Int) }
  let d := c.sec % 86400
  if c.leap = 1 ∧ d = 86399 ∧ !c.hold then
    { s with cal := { c with hold := true, leap := 0 }, clock := { s.clock with leaps := s.clock.leaps + 1 } }
  else if c.leap = 2 ∧ d = 86398 then
    { s with cal := { calAdvance c 2 with leap := 0 }, clock := { s.clock with leaps := s.clock.leaps - 1 } }
  else { s with cal := calAdvance c 1 }

/-- CALENDAR_SECOND (R420, R423, R424): with time source 2 the edge is measured against the timebase, unless the calendar is INVALID (R425). -/
def execCalendarSecond (s : State) : Host.Outcome State Fault Refusal :=
  let s1 := calAlarm (calEdge s)
  .next (if timeSource s1 = 2 ∧ !s1.cal.invalid then
    measureOffset s1 2 ((s1.tb : Int) - ((s1.cal.sec : Int) + s1.clock.leaps) * 1000000000) else s1)

/-- A write of CALSEC (R424, R428): CALSUB is set to 0, the leaps of R418 count anew, source 2 unlocks, an alarm equal to the value fires. -/
def calSet (s : State) (v : Nat) : State :=
  let s1 := { s with cal := { s.cal with sec := v, edge := (s.tb : Int), hold := false }, clock := { s.clock with leaps := 0 } }
  calAlarm (if timeSource s = 2 ∧ s.clock.lock = 2 then unlock s1 else s1)

def calWrite (s : State) (v : Nat) : State × Option Nat := if calLast < v then (s, some outOfRange) else (calSet s v, none)

/-- CALENDAR_WRITE (R352, R424). -/
def execCalendarWrite (v : Nat) (s : State) : Host.Outcome State Fault Refusal := .next (answered (calWrite s v))

/-- The PTP seconds at 2000-01-01 00:00:00, in the PTP timescale of 1970 (R421; log entry 28). -/
def ptpEpoch : Int := 946684800

/-- CALENDAR_SET_FROM_PTP (R421): once per minute with PTP locked. -/
def execCalendarSetFromPtp (s : State) : Host.Outcome State Fault Refusal :=
  match s.clock.announce with
  | none => .next s
  | some (_, a) =>
    let v := ((s.tb / 1000000000 : Nat) : Int) - a.utcOffset - ptpEpoch
    if ptpLocked s ∧ s.active.isSome ∧ s.clock.lastSet + 60000000000 ≤ s.tb ∧ 0 ≤ v ∧ v ≤ calLast then
      let s1 := calSet s v.toNat
      .next { s1 with clock := { s1.clock with lastSet := s.tb } }
    else .next s

/-- CALTRIM_UPDATE (R424): every hour with PTP locked; `trim` is the correction the warden measured, in 0.1 ppm. -/
def execCaltrimUpdate (trim : Int) (s : State) : Host.Outcome State Fault Refusal :=
  .next (if ptpLocked s ∧ s.active.isSome ∧ s.clock.lastTrim + 3600000000000 ≤ s.tb then
    { s with cal := { s.cal with trim := clampInt trim (-512) 511 }, clock := { s.clock with lastTrim := s.tb } } else s)

/-! ### The backup domain (R425) -/

/-- INVALID or OSCSTOP is seen by stage 3, or rises later: event 744 (R425). -/
def see744 (s : State) : State :=
  if (s.cal.invalid ∨ s.cal.oscstop) ∧ !s.cal.seen744 then raise { s with cal := { s.cal with seen744 := true } } 744 else s

/-- VBAT_CHECK (R425): at stage 3 and every 10 s; `mv` is VBAT in mV. -/
def execVbatCheck (mv : Nat) (s : State) : Host.Outcome State Fault Refusal :=
  if s.power.stage ≠ 3 ∧ s.tb < s.cal.lastVbat + 10000000000 then .next s
  else
    let s1 := { s with cal := { s.cal with vbatlow := decide (mv < 2200), lastVbat := s.tb } }
    .next (if mv < 2200 then raise s1 745 else s1)

/-- OSCILLATOR_STOP (R425). -/
def execOscillatorStop (s : State) : Host.Outcome State Fault Refusal :=
  let s1 := { s with cal := { s.cal with oscstop := true, seen744 := s.cal.seen744 && s.cal.oscstop } }
  .next (if 3 < s.power.stage then see744 s1 else s1)

/-- BACKUP_POWER_LOSS (R425): VIO 3.3 V and VBAT below 1.6 V; the contents are lost. -/
def execBackupPowerLoss (s : State) : Host.Outcome State Fault Refusal :=
  .next (if s.power.low.contains .vio33 then { s with cal := Calendar.reset } else s)

/-- BACKUP_SUPPLY_CHANGEOVER (R398): from VIO 3.3 V while that rail is above its falling threshold, else from VBAT. -/
def execBackupSupplyChangeover (vbat : Bool) (s : State) : Host.Outcome State Fault Refusal :=
  .next (if vbat = s.power.low.contains .vio33 then { s with cal := { s.cal with onVbat := vbat } } else s)

/-! ### The registers (R426) -/

/-- CALSUB now: the crystal cycles since the second edge. -/
def calSub (s : State) : Nat := min 32767 (((s.tb : Int) - s.cal.edge).toNat * 32768 / 1000000000)

def leapYear (y : Nat) : Bool := y % 4 == 0 && y != 100

/-- The year and the day within it, of a day from 2000-01-01. -/
def yearOf : Nat → Nat → Nat → Nat × Nat
  | 0, y, d => (y, d)
  | f + 1, y, d =>
    let n := if leapYear y then 366 else 365
    if d < n then (y, d) else yearOf f (y + 1) (d - n)

/-- The month (1 to 12) and the day within it (from 0), of a day of year `y`, from the lengths of the months. -/
def monthOf (y : Nat) : List Nat → Nat → Nat → Nat × Nat
  | [], m, d => (m, d)
  | n :: ns, m, d =>
    let k := if m = 2 ∧ leapYear y then n + 1 else n
    if d < k then (m, d) else monthOf y ns (m + 1) (d - k)

/-- CALDATE of CALSEC (R423, R426). -/
def calDate (sec : Nat) : Nat :=
  let days := sec / 86400
  let y := yearOf 200 0 days
  let m := monthOf y.1 [31, 28, 31, 30, 31, 30, 31, 31, 30, 31, 30, 31] 1 y.2
  y.1 + m.1 * 2 ^ 8 + (m.2 + 1) * 2 ^ 12 + (6 + days) % 7 * 2 ^ 17

/-- CALTIME of CALSEC. -/
def calTime (sec : Nat) : Nat :=
  let t := sec % 86400
  t / 3600 + t / 60 % 60 * 2 ^ 5 + t % 60 * 2 ^ 11

/-- A read of TBCLO latches TBCHI (R426). -/
def tbcloRead (s : State) : State × Word :=
  ({ s with clock := { s.clock with chi := BitVec.ofNat 32 (s.tb / 2 ^ 32) } }, BitVec.ofNat 32 s.tb)

/-- TBCLO_READ (R426). -/
def execTbcloRead (s : State) : Host.Outcome State Fault Refusal :=
  let r := tbcloRead s
  .next { r.1 with rdata := some r.2 }

/-- A read of CALSLO latches CALSHI, CALSUB, CALDATE and CALTIME (R426). -/
def calsloRead (s : State) : State × Word :=
  let c := s.cal
  ({ s with cal := { c with
      lhi := BitVec.ofNat 32 (c.sec / 2 ^ 32), lsub := BitVec.ofNat 32 (calSub s), ldate := BitVec.ofNat 32 (calDate c.sec),
      ltime := BitVec.ofNat 32 (calTime c.sec) } }, BitVec.ofNat 32 c.sec)

/-- CALSLO_READ (R426). -/
def execCalsloRead (s : State) : Host.Outcome State Fault Refusal :=
  let r := calsloRead s
  .next { r.1 with rdata := some r.2 }

def tbstat (s : State) : Nat := timeSource s + s.clock.lock * 4 + boolBit s.clock.stepref 4 + boolBit s.clock.stepped 5

/-- A read of the timebase block. -/
def timebaseRead (s : State) (off : Nat) : State × Word :=
  let w (v : Nat) : State × Word := (s, BitVec.ofNat 32 v)
  if off = 0x000 then tbcloRead s
  else if off = 0x004 then (s, s.clock.chi)
  else if off = 0x008 then w (patternOf 24 s.clock.adj)
  else if off = 0x010 then w (tbstat s)
  else if off = 0x014 then w (patternOf 32 s.clock.off)
  else if 0x020 ≤ off ∧ off < 0x040 then w (if off % 8 = 0 then alarmOf s ((off - 0x20) / 8) else alarmOf s ((off - 0x20) / 8) / 2 ^ 32)
  else if off = 0x040 then w s.clock.arm
  else w 0

/-- A write of the timebase block. -/
def timebaseWrite (s : State) (off : Nat) (v : Word) : State :=
  if off = 0x008 then tbadjWrite s v
  else if off = 0x00C then tbstepWrite s v
  else if off = 0x010 then
    { s with clock := { s.clock with stepref := s.clock.stepref && !v.getLsbD 4, stepped := s.clock.stepped && !v.getLsbD 5 } }
  else if 0x020 ≤ off ∧ off < 0x040 then
    let i := (off - 0x20) / 8
    let old := alarmOf s i
    let new := if off % 8 = 0 then old / 2 ^ 32 * 2 ^ 32 + v.toNat else old % 2 ^ 32 + v.toNat * 2 ^ 32
    { s with clock := { s.clock with alm := Tab.put i new s.clock.alm } }
  else if off = 0x040 then { s with clock := { s.clock with arm := field v 0 4 } }
  else s

def calstat (s : State) : Nat :=
  boolBit s.cal.invalid 0 + boolBit s.cal.oscstop 1 + boolBit s.cal.vbatlow 2 + boolBit s.cal.wrap 3 + boolBit s.cal.alarm 4

def bkup (s : State) (w : Nat) : Word := Tab.get (fun _ => 0) w s.cal.bkup
def setBkup (s : State) (w : Nat) (v : Word) : State := { s with cal := { s.cal with bkup := Tab.put w v s.cal.bkup } }

/-- A read of the calendar block. -/
def calendarRead (s : State) (off : Nat) : State × Word :=
  let w (v : Nat) : State × Word := (s, BitVec.ofNat 32 v)
  if off = 0x000 then calsloRead s
  else if off = 0x004 then (s, s.cal.lhi)
  else if off = 0x008 then (s, s.cal.lsub)
  else if off = 0x00C then (s, s.cal.ldate)
  else if off = 0x010 then (s, s.cal.ltime)
  else if off = 0x014 then w (patternOf 10 s.cal.trim)
  else if off = 0x018 then w s.cal.alm
  else if off = 0x01C then w (s.cal.alm / 2 ^ 32 + boolBit s.cal.armed 1)
  else if off = 0x020 then w (calstat s)
  else if off = 0x024 then w s.cal.leap
  else if 0x100 ≤ off ∧ off < 0x180 then (s, bkup s ((off - 0x100) / 4))
  else w 0

/-- CALSTAT written: W1C bits (R426). -/
def calstatWrite (s : State) (v : Word) : State :=
  let c := s.cal
  let inv := c.invalid && !v.getLsbD 0
  let osc := c.oscstop && !v.getLsbD 1
  { s with cal := { c with invalid := inv, oscstop := osc, wrap := c.wrap && !v.getLsbD 3, alarm := c.alarm && !v.getLsbD 4,
                           seen744 := c.seen744 && (inv || osc) } }

/-- A write of the calendar block; one of CALSLO that makes no calendar second changes nothing (log entry 29). -/
def calendarWrite (s : State) (off : Nat) (v : Word) : State :=
  if off = 0x000 then (calWrite s (s.cal.staged * 2 ^ 32 + v.toNat)).1
  else if off = 0x004 then { s with cal := { s.cal with staged := bitN v 0 } }
  else if off = 0x014 then { s with cal := { s.cal with trim := signedOf 10 v.toNat } }
  else if off = 0x018 then calAlarm { s with cal := { s.cal with alm := s.cal.alm / 2 ^ 32 * 2 ^ 32 + v.toNat } }
  else if off = 0x01C then calAlarm { s with cal := { s.cal with alm := s.cal.alm % 2 ^ 32 + bitN v 0 * 2 ^ 32, armed := v.getLsbD 1 } }
  else if off = 0x020 then calstatWrite s v
  else if off = 0x024 then (if field v 0 2 = 3 then s else { s with cal := { s.cal with leap := field v 0 2 } })
  else if 0x100 ≤ off ∧ off < 0x180 then setBkup s ((off - 0x100) / 4) v
  else s

end Sys2Proof.Machine
end

