-- ==== Sys2Proof/Machine/Cluster.lean ====
section
/-! DEFINITION. The cluster's memories: ownership of banks, scrubbing, correction histories, Polisher loans (R166 to R187). -/

namespace Sys2Proof.Machine

/-! ### Ownership (R168 to R171) -/

/-- The write comes from the bank's owner, or from the active warden; the Loupe's accesses are not checked (R169, R463). -/
def masterOwns (s : State) (c k : Nat) : Master → Bool
  | .core n => if isWarden n then s.active == some n else decide (n / 4 = c) && (getBank s c k).owner == n % 4
  | .loupe => true
  | .engine => false

/-- The owner a BANKOWN value names is a core present and not retired (R169). -/
def ownerServes (s : State) (c v : Nat) : Bool :=
  if v = 4 then s.active.isSome else corePresent s (4 * c + v) && !isRetired s (4 * c + v)

def setRefused (s : State) (c k : Nat) : State := modBank s c k fun b => { b with refused := true }

/-- The core whose accesses the OWNER of bank k stands for: a local core, or the active warden. -/
def ownerCore (s : State) (c k : Nat) : Nat := let o := (getBank s c k).owner; if o = 4 then s.active.getD 128 else 4 * c + o

/-- A write of BANKOWN k (R169, R170). A handover that another than the owner starts waits for the entries the owner's store buffer then holds; the
owner's own write has let every earlier one leave. -/
def bankownWrite (s : State) (m : Master) (c k : Nat) (v : Word) : State :=
  let b := getBank s c k
  let o := field v 0 3
  if !masterOwns s c k m || b.pend.isSome || decide (4 < o) || !ownerServes s c o then setRefused s c k
  else if o = b.owner then s
  else
    let n0 := ownerCore s c k
    let id := if m = .core n0 then 0 else (getCore s n0).u.nstore
    modBank s c k fun b => { b with pend := some o, pendId := id }

/-- BANKOWN_WRITE (R169). -/
def execBankownWrite (m : Master) (c k : Nat) (v : Word) (s : State) : Host.Outcome State Fault Refusal :=
  .next (if c < nClusters s ∧ k < 4 then bankownWrite s m c k v else s)

/-- An entry of the old owner that goes before the handover is still in its store buffer (R170). -/
def handoverWaits (s : State) (c k : Nat) : Bool :=
  (getCore s (ownerCore s c k)).u.stores.any fun e => decide (e.id < (getBank s c k).pendId) && (bankAt (8 * e.word) == some (c, k))

/-- HANDOVER_COMPLETION (R170): the merge entries are written out, OWNER changes, PEND clears and HOVER is set. -/
def execHandoverCompletion (c k : Nat) (s : State) : Host.Outcome State Fault Refusal :=
  match (getBank s c k).pend with
  | none => .next s
  | some o =>
    if handoverWaits s c k then .next s
    else
      let s1 := flushMerge s c k
      .next (setClevt (modBank s1 c k fun b => { b with owner := o, pend := none, pendId := 0 }) c (1#32 <<< (20 + k)))

/-- A write of BANKCFG k (R178). -/
def bankcfgWrite (s : State) (m : Master) (c k : Nat) (v : Word) : State :=
  if masterOwns s c k m then modBank s c k fun b => { b with noloan := v.getLsbD 0, fopen := v.getLsbD 1 } else setRefused s c k

/-- BANKCFG_WRITE (R169, R178). -/
def execBankcfgWrite (m : Master) (c k : Nat) (v : Word) (s : State) : Host.Outcome State Fault Refusal :=
  .next (if c < nClusters s ∧ k < 4 then bankcfgWrite s m c k v else s)

/-! ### Scrubbing (R182) -/

/-- The words of every memory of R166. -/
def scrubTotal (s : State) : Nat :=
  nCores s * 8192 + 2 * 8192 + 2048 + nClusters s * (4 * 32768 + 2048 + 1024) + nQuads s * 131072

/-- Global word number of word `w` of a memory, if the part has it. -/
def memWord (s : State) (m : MemId) (w : Nat) : Option Nat :=
  match m with
  | .scratch n => if corePresent s n ∧ w < 8192 then some (scratchBase n / 8 + w) else none
  | .mgmtXram => if w < 2048 then some (mgmtXram / 8 + w) else none
  | .bank c k => if c < nClusters s ∧ k < 4 ∧ w < 32768 then some (bankBase c k / 8 + w) else none
  | .xram c => if c < nClusters s ∧ w < 2048 then some (xramBase c / 8 + w) else none
  | .bitStore c => if c < nClusters s ∧ w < 1024 then some (bitBase c / 8 + w) else none
  | .beamSram q => if q < nQuads s ∧ w < 131072 then some (beamBase / 8 + q * 131072 + w) else none

/-- The words of a memory of R166. -/
def memWords : MemId → Nat
  | .scratch _ => 8192
  | .mgmtXram => 2048
  | .bank _ _ => 32768
  | .xram _ => 2048
  | .bitStore _ => 1024
  | .beamSram _ => 131072

/-- The key of a memory in the Polisher's record of its pass. -/
def memKey : MemId → Nat
  | .mgmtXram => 0
  | .scratch n => 8 * n + 1
  | .bank c k => 8 * (4 * c + k) + 2
  | .xram c => 8 * c + 3
  | .bitStore c => 8 * c + 4
  | .beamSram q => 8 * q + 5

/-- The pass after a scrub of word `w` of memory `m`: each memory is passed through in address order, so that a pass covers every word once (R182;
DESIGN CHOICE, log entry 112). -/
def passOver (p : Polisher) (m : MemId) (w : Nat) : Polisher :=
  if Tab.get (fun _ => 0) (memKey m) p.pos = w ∧ w < memWords m then { p with pos := Tab.put (memKey m) (w + 1) p.pos, done := p.done + 1 } else p

/-- SCRUB_WORD (R180, R182): one indivisible read-correct-write of a word. A word out of the order of the pass is scrubbed and not counted in it. -/
def execScrubWord (m : MemId) (w : Nat) (s : State) : Host.Outcome State Fault Refusal :=
  match memWord s m w with
  | none => .next s
  | some g =>
    let r := checkWord s g
    .next { r.1 with polisher := passOver s.polisher m w }

/-- SCRUB_PERIOD_END (R182, R354): a finished pass is counted at 0x2400:04, an unfinished one is counted late at 0x2400:05 and goes on. -/
def execScrubPeriodEnd (s : State) : Host.Outcome State Fault Refusal :=
  if s.tb < s.polisher.since + ent s 0x2400 1 * 1000000 then .next s
  else if scrubTotal s ≤ s.polisher.done then
    .next { bumpEnt s 0x2400 4 with polisher := { done := 0, since := s.tb, pos := [] } }
  else .next { bumpEnt s 0x2400 5 with polisher := { s.polisher with since := s.tb } }

/-- CORRECTION_HISTORY_EXPIRY (R183): the entries older than 86,400 s of the memory's history are freed. -/
def execCorrectionHistoryExpiry (m : MemId) (s : State) : Host.Outcome State Fault Refusal :=
  match memWord s m 0 with
  | none => .next s
  | some g =>
    let p := placeOf g
    .next (setHistory s p (freshHist s.tb (historyAt s p)))

/-! ### Loans (R185, R186) -/

/-- The 32 words of a window with their ECC state. -/
def windowWords (s : State) (c k win : Nat) : List (BitVec 64 × Nat) :=
  (List.range 32).map fun i =>
    let w := (bankBase c k + win * 256) / 8 + i
    (rawWord s w, eccOf s w)

/-- Whether the bank lends a window now (R185). -/
def mayLend (s : State) (c k : Nat) : Bool :=
  let b := getBank s c k
  decide (c < nClusters s) && decide (k < 4) && ent s 0x2400 2 == 1 && decide (b.lastLoan + ent s 0x2400 3 * 1000000 ≤ s.tb) &&
  !s.power.pfail && b.loan.isNone && !b.noloan && b.pend.isNone && (getCluster s c).pace == 0

/-- LOAN_START (R185): the window's merge entries are written out and its words copied into the shadow. The next window is the one after it, so that a
loan an access ends is not made up (DESIGN CHOICE, log entry 110). -/
def execLoanStart (c k : Nat) (s : State) : Host.Outcome State Fault Refusal :=
  if mayLend s c k then
    let win := (getBank s c k).nextWin
    let w0 := (bankBase c k + win * 256) / 8
    let s1 := (List.range 32).foldl (fun t i => forceMerge t (w0 + i)) s
    .next (modBank s1 c k fun b =>
      { b with loan := some { win, shadow := windowWords s1 c k win }, nextWin := (win + 1) % 1024, lastLoan := s.tb })
  else .next s

/-- LOAN_RETURN (R185): the test ends; a word one of whose cells failed is permanent, and the window is restored and returned. -/
def execLoanReturn (c k : Nat) (bad : List Nat) (s : State) : Host.Outcome State Fault Refusal :=
  match (getBank s c k).loan with
  | none => .next s
  | some l =>
    let w0 := (bankBase c k + l.win * 256) / 8
    let s1 := (bad.filter fun i => decide (i < 32)).foldl (fun t i => permanentWord t (w0 + i)) s
    .next (restoreLoan s1 c k)

end Sys2Proof.Machine
end

