-- ==== Sys2Proof/Machine/Settings.lean ====
section
/-! DEFINITION. The checks and effects of writes to the RWS entries (R322, R324) and of the key, gate and history writes. -/

namespace Sys2Proof.Machine

def absentResource : Nat := 0x02000006

/-! ### The Loupe gate (R360, R462) -/

/-- The lock fuse as the last fuse load read it (R469). -/
def lockBlown (s : State) : Bool := s.power.loaded.getLsbD 256

/-- The gate in force: 0 with the lock fuse blown (R360, R462). -/
def loupeGate (s : State) : Nat := if lockBlown s then 0 else ent s 0x9000 1

/-- A core halted by the Loupe issues again, and its watchdog counts on (R202, R465); a breakpoint at the next bundle is passed once (log
entry 20). -/
def loupeResumeCore (s : State) (n : Nat) : State :=
  modCore s n fun k =>
    if k.lp.halted then
      { k with lp := { k.lp with halted := false, why := 0, pass := true }, e := if k.i.run = .halted then k.e else { k.e with wdStart := s.tb } }
    else k

/-- Every core the Loupe has halted issues again. -/
def resumeAll (s : State) : State := s.cores.foldl (fun t e => loupeResumeCore t e.1) s

/-- A write of 0x9000:01 (R360). -/
def gateWrite (s : State) (v : Nat) : State × Option Nat :=
  if lockBlown s then (s, some wrongState)
  else if 2 < v then (s, some outOfRange)
  else
    let s1 := setEnt s 0x9000 1 v
    (if v < 2 ∧ v ≠ ent s 0x9000 1 then resumeAll s1 else s1, none)

/-- LOUPE_GATE_WRITE (R360). -/
def execLoupeGateWrite (v : Nat) (s : State) : Host.Outcome State Fault Refusal := .next (answered (gateWrite s v))

/-! ### Keys and the error history (R328, R347, R348) -/

/-- A write of a link cipher key (R347): 32 zero octets unset the slot; frames within 1 µs of the answer still use the key before. -/
def linkKeyWrite (s : State) (k : Nat) (key : Octets) : State × Option Nat :=
  if !s.part.full then (s, some absentResource)
  else if key.length ≠ 32 then (s, some outOfRange)
  else
    let old := Tab.get (fun _ => LinkKey.unset) k s.keys.link
    let new : LinkKey := { key := if key.all (fun b => b == 0) then none else some key, prev := old.key, at_ := s.tb }
    ({ s with keys := { s.keys with link := Tab.put k new s.keys.link } }, none)

/-- KEY_SLOT_WRITE (R347). -/
def execKeySlotWrite (k : Nat) (key : Octets) (s : State) : Host.Outcome State Fault Refusal :=
  if 1 ≤ k ∧ k ≤ 8 then .next (answered (linkKeyWrite s k key)) else .next s

/-- A write of the operator key (sub 1) or the engineer key (sub 2) (R328). -/
def sessionKeyWrite (s : State) (sub : Nat) (key : Octets) : State × Option Nat :=
  if key.length ≠ 32 then (s, some outOfRange)
  else
    let s1 := keepKey s (sub - 1)
    ({ s1 with keys := if sub = 1 then { s1.keys with oper := some key } else { s1.keys with eng := some key } }, none)

/-- SESSION_KEY_WRITE (R328). -/
def execSessionKeyWrite (sub : Nat) (key : Octets) (s : State) : Host.Outcome State Fault Refusal :=
  if sub = 1 ∨ sub = 2 then .next (answered (sessionKeyWrite s sub key)) else .next s

def historyClear (s : State) : State := setEnt { s with errs := [] } 0x1200 2 0

/-- ERROR_HISTORY_CLEAR (R348). -/
def execErrorHistoryClear (s : State) : Host.Outcome State Fault Refusal := .next (answered (historyClear s, none))

/-! ### The RWS entries -/

/-- Two runs of octets share one. -/
def runsMeet (a n b m : Nat) : Bool := decide (a < b + m) && decide (b < a + n)

/-- A receive ring of facet `p` may stand here (R250). -/
def ringGood (s : State) (p base bufs : Nat) : Bool :=
  let n := bufs * 2048
  decide (base % 2048 = 0) && decide (0x100000 ≤ base) && decide (base + n ≤ 0x200000) && decide (base / 0x40000 = (base + n - 1) / 0x40000) &&
  decide (4 ≤ bufs) && decide (bufs ≤ 64) &&
  (List.range 8).all fun i =>
    let x := p / 8 * 8 + i
    x == p || (!runsMeet base n (cfg s x 0x0C) (cfg s x 0x0D * 2048) &&
      !runsMeet base n (getFacet s x).ringBase ((getFacet s x).ringN * 2048))

/-- A write of the cipher key slot of a facet (R239, R347). -/
def cipherCheck (s : State) (v : Nat) : Option Nat :=
  if v = 0 then none
  else if !s.part.full then some absentResource
  else if 8 < v then some outOfRange
  else if (Tab.get (fun _ => LinkKey.unset) v s.keys.link).key.isNone then some wrongState
  else none

/-- A write of 0x3000 + p (R256). -/
def facetCfgWrite (s : State) (p sub v : Nat) : State × Option Nat :=
  let ok : State × Option Nat := (setEnt s (0x3000 + p) sub v, none)
  let check (b : Bool) : State × Option Nat := if b then ok else (s, some outOfRange)
  match sub with
  | 0x01 => modeWrite s p v
  | 0x02 => roleWrite s p v
  | 0x03 => check (decide (v < 2 ^ 48))
  | 0x04 => check (decide (v < 2))
  | 0x05 => check (decide (v < 2))
  | 0x06 => check (decide (v < 2))
  | 0x07 => check (decide (v < 4))
  | 0x08 => match cipherCheck s v with | some e => (s, some e) | none => ok
  | 0x09 => check (decide (1 ≤ v) && decide (v < 256))
  | 0x0A => check (v == 0xFFFF || (v != p && v / 8 == p / 8))
  | 0x0C => check (ringGood s p v (cfg s p 0x0D))
  | 0x0D => check (ringGood s p (cfg s p 0x0C) v)
  | _ => ok

/-- A write of 0x4100 + c:01 or :02 (R274). -/
def fosterWrite (s : State) (c sub v : Nat) : State × Option Nat :=
  let good := if sub = 1 then v == 0xFF || (v != c && v / 8 == c / 8 && decide (v < nClusters s)) else decide (v < 4)
  if good then (setEnt s (0x4100 + c) sub v, none) else (s, some outOfRange)

/-- A facet in relay role and in SYNC or RUN reports this chain position (R349). -/
def peerHas (s : State) (v : Nat) : Bool :=
  (List.range (nFacets s)).any fun p => facetRole s p == 6 && linkUp (getFacet s p) && (getFacet s p).train.peer.toNat == v

/-- A write of 0x2200:04 (R352): a change of the source in force ends the discipline of the one before. -/
def sourceWrite (s : State) (v : Nat) : State × Option Nat :=
  if 3 < v then (s, some outOfRange)
  else
    let s1 := setEnt s 0x2200 4 v
    (if timeSource s1 = timeSource s then s1 else unlock s1, none)

def ptpFacetWrite (s : State) (v : Nat) : State × Option Nat :=
  if v = 0xFFFF then (setEnt s 0x2200 9 v, none)
  else if 255 < v then (s, some outOfRange)
  else if nFacets s ≤ v then (s, some absentResource)
  else (setEnt s 0x2200 9 v, none)

/-- A write of 0x4200 + q:03, which is written into BETHR (R226, R359). -/
def bethrWrite (s : State) (q v : Nat) : State := modQuad (setEnt s (0x4200 + q) 3 v) q fun x => { x with bethr := BitVec.ofNat 16 v }

/-- The values an RWS entry of the plain objects takes: those whose write does nothing but set it. -/
def plainGood (idx sub v : Nat) : Bool :=
  match idx, sub with
  | 0x1100, _ => decide (1 ≤ v) && decide (v ≤ 112)
  | 0x1101, 1 => decide (v < 4)
  | 0x1101, 2 => decide (v < 5)
  | 0x1101, _ => decide (v < 2)
  | 0x1103, _ => v == 0 || (decide (10 ≤ v) && decide (v ≤ 10000))
  | 0x1110, 3 => decide (10 ≤ v) && decide (v ≤ 3600)
  | 0x1110, _ => decide (v < 2)
  | 0x2000, 3 => decide (v < 16)
  | 0x2000, _ => decide (v < 2)
  | 0x2300, _ => decide (v < 3)
  | 0x2400, 1 => decide (250 ≤ v) && decide (v ≤ 60000)
  | 0x2400, 2 => decide (v < 2)
  | 0x2400, _ => decide (10 ≤ v) && decide (v ≤ 60000)
  | _, _ => true

/-- A write of an RWS entry of a number type, with the checks its chapter states (order 15 of R331): the state after it, and the abort code where
it is refused. `load` tells whether the loader applies it (R472). -/
def rwsWrite (s : State) (load : Bool) (idx sub v : Nat) : State × Option Nat :=
  if idx = 0x2010 then (if nClusters s ≤ sub - 1 then (s, some absentResource) else if load then loadPace s (sub - 1) v else paceWrite s (sub - 1) v)
  else if idx = 0x2100 ∨ idx = 0x2101 then budgetWrite s idx sub v
  else if idx = 0x2200 then (if sub = 4 then sourceWrite s v else ptpFacetWrite s v)
  else if 0x3000 ≤ idx ∧ idx < 0x3100 then facetCfgWrite s (idx - 0x3000) sub v
  else if 0x4100 ≤ idx ∧ idx < 0x4120 then fosterWrite s (idx - 0x4100) sub v
  else if 0x4200 ≤ idx ∧ idx < 0x4204 then (bethrWrite s (idx - 0x4200) v, none)
  else if 0x5000 ≤ idx ∧ idx < 0x5010 then chanEntWrite s (idx - 0x5000) sub v
  else if 0x7000 ≤ idx ∧ idx < 0x7008 then routeWrite s ((idx - 0x7000) * 128 + (sub - 1)) v
  else if idx = 0x9000 then gateWrite s v
  else if !plainGood idx sub v then (s, some outOfRange)
  else if idx = 0x2000 ∧ sub = 3 ∧ peerHas s v then (s, some wrongState)
  else (setEnt s idx sub v, none)

end Sys2Proof.Machine
end

