-- ==== Sys2Proof/Machine/Startup.lean ====
section
/-! DEFINITION. Supplies, the kinds of reset and the stages of start-up (R398 to R417, R472), and thermal shutdown (R373). -/

namespace Sys2Proof.Machine

/-! ### The last-gasp record (R402, R403) -/

/-- The 32 octets of a record of this reason. -/
def gaspRecord (s : State) (reason : Nat) : Octets :=
  let seq := (bkup s 0).toNat / 2 ^ 24 + 1
  let paced := (List.range (nClusters s)).foldl (fun n c => if isPaced s c then n + 2 ^ c else n) 0
  let flags := (if s.edp.jobs.isEmpty then 0 else 1) + (if 1 ≤ s.img.stage ∧ s.img.stage ≤ 3 then 2 else 0)
    + (if s.cores.any fun e => e.2.st.request then 4 else 0)
  let v := leOctets 2 0x4C47 ++ [BitVec.ofNat 8 reason, BitVec.ofNat 8 seq] ++ leOctets 8 s.tb ++ leOctets 4 s.cal.sec ++ leOctets 2 s.iris.vcore
    ++ leOctets 2 (patternOf 16 (topTemp s)) ++ leOctets 2 (match s.errs with | e :: _ => e.code | [] => 0)
    ++ [BitVec.ofNat 8 s.img.force, BitVec.ofNat 8 s.img.stage] ++ leOctets 4 paced ++ [BitVec.ofNat 8 flags, 0]
  v ++ leOctets 2 (crc32c 0 v).toNat

/-- The record is written by the active warden; one already written for the other reason stands (R417). -/
def writeGasp (s : State) (reason : Nat) : State :=
  if s.active.isNone ∨ s.power.pfail ∨ s.iris.shutdown then s
  else
    let v := gaspRecord s reason
    (List.range 8).foldl (fun t w => setBkup t w (BitVec.ofNat 32 (leAt v (4 * w) 4))) s

/-- PFAIL_ASSERTION (R401): event 770, every loan ends, the record; the stores and the flash die stop until PFAIL_N is released. -/
def execPfailAssertion (s : State) : Host.Outcome State Fault Refusal :=
  if s.power.pfail then .next s
  else
    let s1 := endAllLoans (raise (writeGasp s 1) 770)
    .next { s1 with power := { s1.power with pfail := true } }

/-! ### Resets of the whole device (R404, R405) -/

/-- The entries a reset keeps: the counts of the error history, and but for a power-on the Loupe connections (R348, R360); a warm reset keeps
what stage 3 read and the channels' configuration. `kind`: 0 power-on, 1 pin, 2 warm. -/
def keepsEntry (kind key : Nat) : Bool :=
  let idx := key / 256
  key == entKey 0x1200 2 || key == entKey 0x1200 3 || (decide (1 ≤ kind) && key == entKey 0x9000 3) ||
  (kind == 2 && (idx == 0x1101 || key == entKey 0x9000 1 || key == entKey 0x2400 8 || (decide (0x5000 ≤ idx) && decide (idx < 0x5010))))

/-- A core after a reset of the whole device: a retirement stands, and the counts since power-on go on but for a power-on (R260, R283). -/
def resetCore (kind n : Nat) (k : LensCore) : LensCore :=
  let out := k.i.run == .retired
  let st : CoreStatus :=
    { CoreStatus.reset with reason := if out || decide (1 ≤ kind) then k.st.reason else 0
                            faults := if kind = 0 then 0 else k.st.faults
                            restarts := if kind = 0 then 0 else k.st.restarts }
  let r := LensCore.reset n
  { r with st, i := if out then { r.i with run := .retired } else r.i }

/-- A facet after it: a retirement stands. -/
def resetFacet (p : Nat) (f : Facet) : Facet :=
  if f.retired then { Facet.reset p with retired := true, criterion := f.criterion, state := 5 } else Facet.reset p

/-- A cluster after it: the remap tables stand (R184, R414). -/
def resetClusterAll (v : Cluster) : Cluster :=
  { Cluster.reset with banks := v.banks.map fun e => (e.1, { Bank.reset e.1 with remap := e.2.remap }) }

def resetQuad (q : Quad) : Quad := { Quad.reset with remap := q.remap }

/-- The value of an RWS entry in the active copy of the parameter store (R334). -/
def storedEnt (s : State) (idx sub : Nat) : Nat := Tab.get entDflt (entKey idx sub) s.edp.active.ents

/-- The keys a RESTORE was to unset are unset (R334). -/
def unsetKeys (s : State) : State :=
  let u := s.edp.active.unset
  { s with keys := { s.keys with oper := if u.testBit 0 then none else s.keys.oper, eng := if u.testBit 1 then none else s.keys.eng }
           rfx := { s.rfx with key := if u.testBit 2 then none else s.rfx.key }
           edp := { s.edp with active := { s.edp.active with unset := 0 } } }

/-- The chain position and the node ID, from the stored values (R23, R328, R349). -/
def takeNode (s : State) : State :=
  let chain := if storedEnt s 0x2000 2 = 1 then some (storedEnt s 0x2000 3) else none
  { s with chain, node := storedEnt s 0x1100 1 + chain.getD 0 }

/-- A reset of the whole device: 0 power-on, 1 pin, 2 warm (R404, R405, R416). -/
def resetDevice (s0 : State) (kind : Nat) : State :=
  let s := if kind = 0 then s0 else s0.clusters.foldl (fun t e => flushCluster t e.1) (endAllLoans s0)
  let b := State.reset
  let t : State :=
    { b with
      pending := s.pending, part := s.part, free := s.free, nextId := s.nextId, rdata := s.rdata, lastAbort := s.lastAbort
      tb := if kind = 0 then 0 else s.tb
      cores := s.cores.map fun e => (e.1, resetCore kind e.1 e.2)
      clusters := mapTab resetClusterAll s.clusters
      quads := mapTab resetQuad s.quads
      facets := s.facets.map fun e => (e.1, resetFacet e.1 e.2)
      rfx := { Reflex.reset with key := s.rfx.key, ctr := s.rfx.ctr }
      foster := s.foster, mem := s.mem, ecc := s.ecc
      ent := s.ent.filter fun e => keepsEntry kind e.1
      errs := s.errs
      keys := { s.keys with link := mapTab (fun k => { k with prev := k.key, at_ := 0 }) s.keys.link }
      chain := s.chain, node := s.node
      chans := if kind = 2 then s.chans else []
      clock := { Clock.reset with second := if kind = 0 then 0 else s.clock.second, leaps := if kind = 0 then 0 else s.clock.leaps }
      cal := if kind = 0 then { s.cal with edge := s.cal.edge - s.tb, lastVbat := 0 } else s.cal
      edp := { Edp.reset with out := s.edp.out, active := s.edp.active, other := s.edp.other }
      img := { Images.reset with slotA := s.img.slotA, slotB := s.img.slotB, marker := s.img.marker }
      power := { s.power with stage := if kind = 0 then 2 else if kind = 1 then 3 else 5, safe := false, alarm := false, warm := false, arb := false
                              warmUp := kind == 2, applied := false, pgood := s.power.pgood && kind != 0 }
      tap := if kind = 0 then Tap.reset else s.tap }
  if kind = 2 then takeNode (unsetKeys t) else unsetKeys t

/-- POWER_ON_RESET (R398, R399, R404): a monitor stays below its falling threshold, or first power. -/
def execPowerOnReset (r : Rail) (s : State) : Host.Outcome State Fault Refusal :=
  let t := resetDevice s 0
  .next { t with power := { t.power with low := if s.power.low.contains r then s.power.low else s.power.low ++ [r] } }

/-- POWER_GOOD (R400, R408): every monitor has been good for 1 ms; PGOOD goes high and stage 2 ends. -/
def execPowerGood (s : State) : Host.Outcome State Fault Refusal :=
  if s.power.stage = 2 then .next { s with power := { s.power with low := [], pgood := true, stage := 3 } } else .next s

/-- PIN_RESET (R400, R404, R417): held off in a thermal shutdown until every quadrant reads below 100 °C (R373); a power-on reset goes on. -/
def execPinReset (s : State) : Host.Outcome State Fault Refusal :=
  if s.power.stage = 2 ∨ (s.iris.shutdown ∧ 1000 ≤ topTemp s) then .next s else .next (resetDevice s 1)

/-- A reset command is refused while an image commit runs (R362). -/
def commitRuns (s : State) : Bool := decide (1 ≤ s.img.stage) && decide (s.img.stage ≤ 3)

/-- A write of 0x2001:01 (R350): the checks. -/
def warmCheck (s : State) (v : Nat) : Option Nat := if v ≠ 0xA55A then some outOfRange else if commitRuns s then some wrongState else none

/-- WARM_RESET (R350, R362, R404): the write is answered and the reset made, or it waits for a STORE under way; a reset that was answered over a
transport, or that waits, is then made by the next of these. -/
def execWarmReset (v : Nat) (s : State) : Host.Outcome State Fault Refusal :=
  match (if s.power.warm then none else warmCheck s v) with
  | some e => .next (answered (s, some e))
  | none =>
    if s.edp.jobs.isEmpty then .next (answered (resetDevice s 2, none))
    else .next (answered ({ s with power := { s.power with warm := true } }, none))

/-! ### Resets of a core and of a cluster (R350, R362, R405 to R407) -/

/-- A write of 0x2001:03. -/
def coreResetWrite (s : State) (n : Nat) : State × Option Nat :=
  if 127 < n then (s, some outOfRange)
  else if nCores s ≤ n then (s, some absentResource)
  else if commitRuns s ∨ isRetired s n ∨ (getCluster s (clusterOf n)).quiesced then (s, some wrongState)
  else (modCore (repost (reRelease (coreResetOp s n) n) n) n fun k => { k with st := { k.st with decide := false } }, none)

/-- CORE_RESET (R350, R362, R406). -/
def execCoreReset (v : Nat) (s : State) : Host.Outcome State Fault Refusal := .next (answered (coreResetWrite s v))

/-- A stored value is applied as a write; one that fails is logged, and its entry keeps its default (R472). -/
def applyStored (s : State) (key v : Nat) : State :=
  let idx := key / 256
  let sub := key % 256
  match rwsWrite s true idx sub v with
  | (t, none) => t
  | (_, some e) => logErr s 0x4301 1 (leOctets 2 idx ++ [BitVec.ofNat 8 sub, 0] ++ leOctets 4 e)

/-- The entries of one cluster take their stored values (R407, R472). -/
def applyCluster (s : State) (c : Nat) : State :=
  let ks := [entKey 0x2010 (c + 1), entKey (0x4100 + c) 1, entKey (0x4100 + c) 2]
  ks.foldl (fun t k => applyStored { t with ent := Tab.del k t.ent } k (Tab.get entDflt k t.edp.active.ents)) s

/-- The tagged descriptors that wait for the locks of a cluster's cores end with result 9 when the locks are released (R407). -/
def clusterResetAll (s : State) (c : Nat) : State :=
  let cores := (List.range 4).map fun i => 4 * c + i
  let s1 := applyCluster (clusterResetOp s c) c
  let s2 := modCluster s1 c fun x => { x with classic := x.pace != 0 || s.power.arb }
  let s3 := cores.foldl repost (reloadCluster s2 c)
  wantAllot (cores.foldl (fun t n => modCore t n fun k => { k with st := { k.st with decide := false } }) s3)

/-- A write of 0x2001:02. -/
def clusterResetWrite (s : State) (c : Nat) : State × Option Nat :=
  if 31 < c then (s, some outOfRange)
  else if nClusters s ≤ c then (s, some absentResource)
  else if commitRuns s then (s, some wrongState)
  else (clusterResetAll s c, none)

/-- CLUSTER_RESET (R350, R362, R407). -/
def execClusterReset (v : Nat) (s : State) : Host.Outcome State Fault Refusal := .next (answered (clusterResetWrite s v))

/-! ### The stages (R408 to R412) -/

/-- Copy `a` is the greater of the two by generation (R334). -/
def newerGen (a b : Nat) : Bool := let d := (a + 2 ^ 32 - b) % 2 ^ 32; decide (1 ≤ d) && decide (d < 2 ^ 31)

/-- The copy used at start-up: of those with a good CRC the one of the greater generation (R334). -/
def chooseCopy (s : State) : State :=
  let a := s.edp.active
  let b := s.edp.other
  if b.good && (!a.good || newerGen b.gen a.gen) then { s with edp := { s.edp with active := b, other := a } } else s

/-- The settings stage 3 reads from the active copy: CAN FD rates, the Loupe gate, the permanent words (R408, R354). -/
def earlyKeys : List Nat := [entKey 0x1101 1, entKey 0x1101 2, entKey 0x1101 3, entKey 0x2400 8, entKey 0x9000 1]

/-- FUSE_LOAD (R408, R409, R425, R469): stage 3. -/
def execFuseLoad (straps : BitVec 3) (s : State) : Host.Outcome State Fault Refusal :=
  if s.power.stage = 3 then
    let s1 := see744 (takeNode (chooseCopy { s with power := { s.power with loaded := s.power.fuses, straps, stage := 4 } }))
    .next { s1 with ent := earlyKeys.foldl (fun e k => Tab.put k (Tab.get entDflt k s1.edp.active.ents) e) s1.ent }
  else .next s

/-- FLASH_DIE_WAKE (R408): stage 4. -/
def execFlashDieWake (s : State) : Host.Outcome State Fault Refusal :=
  .next (if s.power.stage = 4 then { s with power := { s.power with stage := 5 } } else s)

/-- The Loupe holds the wardens at stage 6 (R409). -/
def holdStrap (s : State) : Bool := s.power.straps == 4#3 && loupeGate s != 0

/-- The straps ask for recovery without an image (R409). -/
def recoveryStrap (s : State) : Bool := s.power.straps == 3#3 || decide (5#3 ≤ s.power.straps)

/-- A byte of code flash. -/
def inFlash (a : Nat) : Bool := decide (0x08000000 ≤ a) && decide (a < 0x0C000000)

/-- The wardens that run the ROM: those not retired; both, when a power-on or pin reset finds both retired (R279, R410). -/
def romWardens (s : State) : List Nat :=
  let on := [128, 129].filter fun w => !isRetired s w
  if on.isEmpty ∧ !s.power.warmUp then [128, 129] else on

/-- MEMORY_FILL (R181, R408): every memory word but those of code flash is 0 with valid check bits; the wardens then begin the ROM, held by the
Loupe where the strap asks for it (R409, R465). A retired one stays retired until it passes its self-test (R260, R279). -/
def execMemoryFill (s : State) : Host.Outcome State Fault Refusal :=
  if s.power.stage = 5 then
    let s1 := { s with mem := s.mem.filter (fun c => inFlash c.1), ecc := s.ecc.filter (fun e => inFlash (8 * e.1)), beams := []
                       power := { s.power with stage := 6 } }
    .next ((romWardens s).foldl (fun t w =>
      let t1 := if isRetired t w then t else startWarden t w
      if holdStrap s then loupeHaltCore t1 w 5 else t1) s1)
  else .next s

/-- A warden fails its self-test at start-up (R277, R410). -/
def failAtStart (s : State) (w : Nat) : State :=
  if isRetired s w then s else retireWarden s w 5

/-- WARDEN_ROM (R410): stage 6; `pass0` and `pass1` tell whether each tested warden passes its self-test. -/
def execWardenRom (pass0 pass1 : Bool) (s : State) : Host.Outcome State Fault Refusal :=
  let on := romWardens s
  let ok0 := on.contains 128 && pass0
  let ok1 := on.contains 129 && pass1
  let bad0 := on.contains 128 && !pass0 && !(getCore s 128).lp.halted
  if s.power.stage ≠ 6 ∨ (getCore s 128).lp.halted then .next s
  else
    let keep (t : State) (w : Nat) : State := if isRetired t w then startWarden t w else t
    let s1 := if ok0 then keep s 128 else s
    let s2 := if ok1 then keep s1 129 else s1
    let s3 := if on.contains 129 ∧ !ok1 then failAtStart s2 129 else s2
    if ok0 then
      let s4 := if on.contains 129 ∧ !ok1 ∧ !isRetired s 129 then raise s3 778 else s3
      .next { s4 with active := some 128, power := { s4.power with stage := 7 } }
    else if ok1 then
      let s4 := if bad0 ∧ !isRetired s 128 then emergency (raise (failAtStart s3 128) 772) 0x8130 0 [129#8, 5#8] else s3
      .next { s4 with active := some 129, power := { s4.power with stage := 7 } }
    else
      let s4 := if on.contains 129 ∧ !isRetired s 129 then raise s3 778 else s3
      .next (noWarden (if bad0 ∧ !isRetired s 128 then raise (failAtStart s4 128) 772 else s4))

/-! ### Image selection and the loader (R390, R411, R415, R472) -/

/-- The state of a slot at stage 7, from the commit marker and its header (R415). -/
def slotAt7 (s : State) (slot : Nat) : Slot :=
  let good := !imgBad s slot 0 512 && headerGood (imgBytes s slot 0 512)
  if good then { state := 1, version := (imageOf s slot).version }
  else { state := if s.img.marker = some slot then 3 else 0, version := 0 }

/-- Both slots are read; a marker whose slot has a valid header is cleared (R415). -/
def readSlots (s : State) : State :=
  let a := slotAt7 s 0
  let b := slotAt7 s 1
  let marker := match s.img.marker with
    | some i => if (if i = 0 then a.state else b.state) = 1 then none else some i
    | none => none
  { s with img := { s.img with slotA := a, slotB := b, marker } }

def imgSlot (s : State) (slot : Nat) : Slot := if slot = 0 then s.img.slotA else s.img.slotB

def setImgSlot (s : State) (slot : Nat) (x : Slot) : State :=
  { s with img := if slot = 0 then { s.img with slotA := x } else { s.img with slotB := x } }

/-- The candidate slots in order (R409, R411). -/
def candidates (s : State) : List Nat :=
  let order :=
    if s.power.straps = 1#3 then [0] else if s.power.straps = 2#3 then [1]
    else
      let pref := storedEnt s 0x2300 8
      if pref = 1 then [0, 1] else if pref = 2 then [1, 0]
      else if s.img.slotA.version < s.img.slotB.version then [1, 0] else [0, 1]
  if recoveryStrap s then [] else order.filter fun i => (imgSlot s i).state == 1 && !s.img.refused.contains i

/-- A refused image (R390). -/
def refuseImage (s : State) (slot reason c : Nat) : State :=
  emergency { s with img := { s.img with refused := s.img.refused ++ [slot], trying := none } } 0x8160 1
    [BitVec.ofNat 8 slot, BitVec.ofNat 8 reason, BitVec.ofNat 8 c]

/-- The candidates are tried in order with checks 1 to 5; the first that passes goes on to stage 8 (R411). -/
def trySlots : List Nat → State → State
  | [], s => { s with power := { s.power with safe := true } }
  | i :: is, s =>
    match checkSlot s i with
    | some r => trySlots is (refuseImage s i r 0xFF)
    | none => { s with img := { s.img with trying := some i } }

/-- IMAGE_SELECT (R411, R412, R415): stage 7. -/
def execImageSelect (s : State) : Host.Outcome State Fault Refusal :=
  if s.power.stage = 7 then
    let s1 := readSlots s
    let s2 := trySlots (candidates s1) s1
    .next { s2 with power := { s2.power with stage := 8 } }
  else .next s

/-- The stored value of this key is applied at stage 8: not what stage 3 read, not the channels' where they are kept or stay at their reset
values, and no ROLE under the recovery straps (R405, R412). -/
def appliesAt8 (s : State) (key : Nat) : Bool :=
  let idx := key / 256
  !earlyKeys.contains key &&
  !(decide (0x5000 ≤ idx) && decide (idx < 0x5010) && (s.power.warmUp || recoveryStrap s)) &&
  !(decide (0x3000 ≤ idx) && decide (idx < 0x3100) && key % 256 == 2 && recoveryStrap s)

/-- A stored exposure table is applied. -/
def applyTableOf (s : State) (p : Nat) (v : Octets) : State :=
  match expoWrite s p v with
  | (t, none) => t
  | (_, some e) => logErr s 0x4301 1 (leOctets 2 (0x3200 + p) ++ [0, 0] ++ leOctets 4 e)

/-- The facets that left OFF as their stored ROLE was applied load the stored ring, applied after it (R250, R472; log entry 119). -/
def loadRings (s : State) : State :=
  (List.range (nFacets s)).foldl (fun t p => if (getFacet t p).state ≠ 0 ∧ !(getFacet t p).retired then reloadRing t p else t) s

/-- The stored values are applied as writes, in increasing index and subindex (R472); the arbitration of free-running clusters is taken (R349). -/
def applyAll (s : State) : State :=
  let st := s.edp.active
  let ents := st.ents.filter fun e => appliesAt8 s e.1
  let low := ents.filter fun e => decide (e.1 < entKey 0x3200 0)
  let high := ents.filter fun e => decide (entKey 0x3200 0 ≤ e.1)
  let s0 := { s with power := { s.power with applied := true, arb := storedEnt s 0x2000 1 == 1 } }
  let s1 := low.foldl (fun t e => applyStored t e.1 e.2) s0
  let s2 := st.tables.foldl (fun t e => applyTableOf t e.1 e.2) s1
  let s3 := high.foldl (fun t e => applyStored t e.1 e.2) s2
  let s4 := (List.range (nClusters s3)).foldl (fun t c => modCluster t c fun x => { x with classic := x.pace != 0 || s3.power.arb }) (loadRings s3)
  recomputeAllot s4

/-- LOADER (R386, R387, R390, R408, R472): stage 8. A refusal returns to stage 7. -/
def execLoaderStage (s : State) : Host.Outcome State Fault Refusal :=
  if s.power.stage = 8 then
    let s1 := if s.power.applied then s else applyAll s
    let stageTo (t : State) (n : Nat) : State := { t with power := { t.power with stage := n } }
    match s1.img.trying with
    | none => .next (stageTo s1 9)
    | some i =>
      let m := imageOf s1 i
      match checkPart s1 m with
      | some (r, c) => .next (stageTo (refuseImage s1 i r c) 7)
      | none =>
        if imgBad s1 i 512 (m.length - 512) then .next (stageTo (refuseImage s1 i 3 0xFF) 7)
        else .next (stageTo (setImgSlot (loadImage s1 i) i { imgSlot s1 i with state := 2 }) 9)
  else .next s

/-- CORE_RELEASE (R389, R410, R412): stage 9; in safe mode no core is released and the wardens stay in bare mode. NCORES
reads on the wardens as on the Lens cores (R62). -/
def execCoreRelease (s : State) : Host.Outcome State Fault Refusal :=
  if s.power.stage = 9 then
    let s1 := { s with power := { s.power with stage := 10 } }
    if s.power.safe then .next s1
    else
      let s2 := (liveCores s1).foldl releaseCore s1
      .next ([128, 129].foldl (fun t w => if isRetired t w then t else
        modCore t w fun k => { k with r := { k.r with psw := k.r.psw &&& 0xFFFFFFFB#32, ncores := BitVec.ofNat 8 s.img.ncores } }) s2)
  else .next s

/-! ### Thermal readings and shutdown (R372, R373) -/

/-- Everything is held: lanes down, outputs at their safe values, cores, wardens and engines in reset (R373). -/
def thermalShutdown (s : State) : State :=
  let s1 := writeGasp { s with power := { s.power with alarm := true } } 2
  let s2 := (List.range (nFacets s1)).foldl (fun t p => if (getFacet t p).retired then t else linkOff t p) s1
  let s3 := (List.range (nChans s2)).foldl forceSafe s2
  let s4 := s3.cores.foldl (fun t e => coreResetOp t e.1) s3
  { s4 with active := none, fabric := Fabric.reset, iris := { s4.iris with shutdown := true }
            edp := { Edp.reset with out := s4.edp.out, active := s4.edp.active, other := s4.edp.other }
            power := { s4.power with stage := 1 } }

/-- THERMAL_READING (R372, R373): `temps` gives the quadrants' readings in 0.1 °C. -/
def execThermalReading (temps : List Int) (s : State) : Host.Outcome State Fault Refusal :=
  if s.tb < s.iris.lastTemp + 100000 then .next s
  else
    let s0 := { s with iris := { s.iris with lastTemp := s.tb } }
    let qs := List.range (nQuads s)
    if s.iris.shutdown then
      .next { s0 with iris := { s0.iris with temps := qs.foldl (fun t q => Tab.put q (temps.getD q 0) t) s0.iris.temps } }
    else
      let s1 := qs.foldl (fun t q => thermalQuad t q (temps.getD q 0)) s0
      .next (if qs.any fun q => decide (1250 ≤ temps.getD q 0) then thermalShutdown s1 else s1)

end Sys2Proof.Machine
end

