-- ==== Sys2Proof/Machine/Commit.lean ====
section
/-! DEFINITION. Committing a new image (R392 to R394, R397, R415). -/

namespace Sys2Proof.Machine

/-- `n` octets of code flash from `base` read all ones (R69, R394). -/
def eraseFlash (s : State) (base n : Nat) : State :=
  { s with mem := s.mem.filter (fun c => !(decide (base ≤ c.1) && decide (c.1 < base + n)))
           ecc := s.ecc.filter (fun e => !(decide (base ≤ 8 * e.1) && decide (8 * e.1 < base + n))) }

/-- The slot a commit writes (R392). -/
def commitTarget (s : State) : Nat :=
  if s.img.force = 0 then 1 else if s.img.force = 1 then 0
  else if s.img.slotA.state = 1 ∧ s.img.slotB.state ≠ 1 then 1 else 0

/-- A write of 0x2300:07 by session `sid` (R353, R392): the marker is written and the slot's header sector erased. -/
def commitWrite (s : State) (sid v : Nat) : State × Option Nat :=
  if v ≠ 1 then (s, some outOfRange)
  else if commitRuns s then (s, some wrongState)
  else
    let t := commitTarget s
    let s1 := eraseFlash (setImgSlot s t Slot.empty) (slotBase t) 0x40000
    ({ s1 with img := { s1.img with stage := 1, sid, target := t, hdr := [], got := 0, lastSeg := s.tb, marker := some t } }, none)

/-- IMAGE_COMMIT (R353, R392). -/
def execImageCommit (sid v : Nat) (s : State) : Host.Outcome State Fault Refusal := .next (answered (commitWrite s sid v))

/-- COMMIT_ERASE_END (R392): the slot's 128 sectors are erased. -/
def execCommitEraseEnd (s : State) : Host.Outcome State Fault Refusal :=
  if s.img.stage = 1 ∧ !s.power.pfail then
    let s1 := eraseFlash s (slotBase s.img.target) 0x2000000
    .next { s1 with img := { s1.img with stage := 2, lastSeg := s.tb } }
  else .next s

/-- The commit is interrupted (R393). -/
def interruptCommit (s : State) : State :=
  if commitRuns s then setImgSlot { s with img := { s.img with stage := 6 } } s.img.target { state := 3, version := 0 } else s

/-- LENGTH of a held header (R379), once it is whole. -/
def heldLength (hdr : Octets) : Nat := if hdr.length < 512 then 0x2000000 else leAt hdr 12 4

/-- A segment of 0x2300:06 (R392, R393, R397): the abort code where it is refused. -/
def commitSegment (s : State) (sid : Nat) (first last : Bool) (off : Nat) (v : Octets) : State × Option Nat :=
  if s.img.stage ≠ 2 ∨ s.img.sid ≠ sid ∨ s.power.pfail then (s, some wrongState)
  else if !first ∧ s.img.got = 0 then (s, some 0x01000005)
  else if off ≠ s.img.got then (interruptCommit s, some 0x01000003)
  else
    let hdr := s.img.hdr ++ v.take (512 - s.img.hdr.length)
    let rest := v.drop (512 - s.img.hdr.length)
    let total := off + v.length
    if 0x2000000 < total ∨ heldLength hdr < total then (interruptCommit s, some 0x01000004)
    else
      let s1 := loadBytes s (slotBase s.img.target + max off 512) rest
      ({ s1 with img := { s1.img with hdr, got := total, lastSeg := s.tb, stage := if last then 3 else 2 } }, none)

/-- COMMIT_VERIFY (R386, R392): checks 1 to 5 and 8 on the octets read back; the header is then programmed. -/
def execCommitVerify (s : State) : Host.Outcome State Fault Refusal :=
  if s.img.stage = 3 ∧ !s.power.pfail then
    let t := s.img.target
    let m := imageWith s t s.img.hdr
    let bad := s.img.hdr.length != 512 || imgBad s t 512 (s.img.got - 512) || (checkImage s t s.img.hdr).isSome
    if bad then .next { s with img := { s.img with stage := 5 } }
    else if (peakOver s m).isSome then .next { s with img := { s.img with stage := 7 } }
    else .next (loadBytes s (slotBase t) s.img.hdr)
  else .next s

/-- COMMIT_DONE (R392, R415): the header stands in flash; the slot reads valid, and the marker is cleared. -/
def execCommitDone (s : State) : Host.Outcome State Fault Refusal :=
  let t := s.img.target
  if s.img.stage = 3 ∧ !s.power.pfail ∧ s.img.hdr.length = 512 ∧ imgBytes s t 0 512 = s.img.hdr then
    let s1 := setImgSlot s t { state := 1, version := (imageOf s t).version }
    .next { s1 with img := { s1.img with stage := 4, marker := none } }
  else .next s

/-- COMMIT_INTERRUPTION (R393): no segment for 10 s in stage 2. -/
def execCommitInterruption (s : State) : Host.Outcome State Fault Refusal :=
  .next (if s.img.stage = 2 ∧ !s.power.pfail ∧ s.img.lastSeg + 10000000000 ≤ s.tb then interruptCommit s else s)

end Sys2Proof.Machine
end

