-- ==== Sys2Proof/Machine/Dict.lean ====
section
/-! DEFINITION. The object dictionary: its entries with their types, access codes and roles, what a read returns, what a write does
(R322 to R324, R331 orders 9 to 15, R343 to R361). -/

namespace Sys2Proof.Machine

/-! ### Which entries there are -/

/-- The single objects of R343. -/
def singleObjects : List Nat :=
  [0x1000, 0x1010, 0x1011, 0x1100, 0x1101, 0x1102, 0x1103, 0x1110, 0x1120, 0x1200, 0x1201, 0x2000, 0x2001, 0x2010, 0x2011, 0x2080, 0x2100, 0x2101,
    0x2102, 0x2103, 0x2200, 0x2300, 0x2400, 0x6000, 0x6001, 0x9000, 0x9001, 0x9002, 0x9003, 0x9004]

/-- The index is defined for some variant (R343). -/
def indexKnown (idx : Nat) : Bool :=
  (decide (0x3000 ≤ idx) && decide (idx < 0x3300)) || (decide (0x4000 ≤ idx) && decide (idx < 0x4082)) ||
  (decide (0x4100 ≤ idx) && decide (idx < 0x4120)) || (decide (0x4200 ≤ idx) && decide (idx < 0x4204)) ||
  (decide (0x5000 ≤ idx) && decide (idx < 0x5010)) || (decide (0x5100 ≤ idx) && decide (idx < 0x5110)) ||
  (decide (0x7000 ≤ idx) && decide (idx < 0x7008)) || (decide (0x1131 ≤ idx) && decide (idx ≤ 0x1138)) || singleObjects.contains idx

/-- The index names a resource absent on the part (R343). -/
def indexAbsent (s : State) (idx : Nat) : Bool :=
  (decide (0x3000 ≤ idx) && decide (idx < 0x3300) && decide (nFacets s ≤ idx % 256)) ||
  (decide (0x4000 ≤ idx) && decide (idx < 0x4080) && decide (nCores s ≤ idx % 256)) ||
  (decide (0x4100 ≤ idx) && decide (idx < 0x4120) && decide (nClusters s ≤ idx % 256)) ||
  (decide (0x4200 ≤ idx) && decide (idx < 0x4204) && decide (nQuads s ≤ idx % 256)) ||
  (decide (0x5000 ≤ idx) && decide (idx < 0x5110) && decide (nChans s ≤ idx % 256)) ||
  (decide (0x1131 ≤ idx) && decide (idx ≤ 0x1138) && !s.part.full)

/-- The subindex names a cluster absent on the part (R32, R351). -/
def subAbsent (s : State) (idx sub : Nat) : Bool :=
  (idx == 0x2010 || idx == 0x2011 || idx == 0x2101 || idx == 0x2102 || idx == 0x2103) && decide (nClusters s < sub) && decide (sub ≤ 32)

/-- Orders 9 to 11 of R331: the entry, or the abort code. -/
def findEntry (s : State) (idx sub : Nat) : Except Nat EntInfo :=
  if !indexKnown idx then .error 0x02000001
  else if indexAbsent s idx || subAbsent s idx sub then .error absentResource
  else match entInfo idx sub with
    | none => .error 0x02000002
    | some e => .ok e

/-! ### Reading -/

/-- The highest subindex a record or array gives at subindex 0 (R322). -/
def highestSub (idx : Nat) : Nat :=
  if 0x3000 ≤ idx ∧ idx < 0x3100 then 0x0D
  else if 0x3100 ≤ idx ∧ idx < 0x3200 then 0x17
  else if 0x4000 ≤ idx ∧ idx < 0x4082 then 8
  else if 0x4100 ≤ idx ∧ idx < 0x4120 then 0x1F
  else if 0x4200 ≤ idx ∧ idx < 0x4204 then 0x0A
  else if 0x5000 ≤ idx ∧ idx < 0x5010 then 0x12
  else if 0x5100 ≤ idx ∧ idx < 0x5110 then 8
  else if 0x7000 ≤ idx ∧ idx < 0x7008 then 128
  else if 0x1131 ≤ idx ∧ idx ≤ 0x1138 then 3
  else
    match idx with
    | 0x1000 => 6
    | 0x1010 => 8
    | 0x1011 => 6
    | 0x1101 => 3
    | 0x1110 => 5
    | 0x1120 => 4
    | 0x1200 => 3
    | 0x1201 => 64
    | 0x2000 => 3
    | 0x2001 => 3
    | 0x2010 => 32
    | 0x2011 => 32
    | 0x2080 => 6
    | 0x2100 => 6
    | 0x2101 => 32
    | 0x2102 => 32
    | 0x2103 => 32
    | 0x2200 => 0x0A
    | 0x2300 => 0x0A
    | 0x2400 => 8
    | 0x6000 => 16
    | 0x9000 => 3
    | 0x9001 => 5
    | 0x9002 => 2
    | 0x9003 => 2
    | 0x9004 => 5
    | _ => 1

/-- The number of places `x < n` that satisfy a test. -/
def countTo (n : Nat) (t : Nat → Bool) : Nat := ((List.range n).filter t).length

/-- Valid beams of quadrant `q` (R226). -/
def validBeams (s : State) (q : Nat) : Nat := (s.beams.filter fun e => e.2.valid && decide (e.1 / 16384 = q)).length

/-- The state of core `n` at 0x4000 + n:01 (R283). -/
def coreState (k : LensCore) (held : Bool) : Nat :=
  match k.i.run with
  | .notReleased => 0
  | .running => if k.lp.halted || held then 2 else 1
  | .sleeping => if k.lp.halted || held then 2 else 1
  | .halted => 2
  | .stopped => 3
  | .restarting => 4
  | .retired => 5

/-- The capacity in service (R282). -/
def capacity (s : State) (sub : Nat) : Nat :=
  match sub with
  | 1 => countTo (nCores s) (coreServes s)
  | 2 => countTo (nFacets s) fun p => !(getFacet s p).retired
  | 3 => (servedClusters s).length
  | 4 => (s.foster.filter fun e => e.2 != 0xFF).length
  | 5 => countTo (nChans s) fun n => !(getChan s n).failed
  | _ => match s.active with | some w => if isRetired s (otherWarden w) then 0 else 1 | none => 0

/-- The entries of cluster `c` (R176, R358). -/
def clusterNum (s : State) (c sub : Nat) : Nat :=
  let v := getCluster s c
  if sub ≤ 2 then ent s (0x4100 + c) sub
  else if sub = 3 then v.overrun
  else if sub ≤ 7 then (getBank s c (sub - 4)).owner
  else if sub = 8 then
    (if v.quiesced then 3 else match Tab.find c s.foster with | none => 0 | some f => if f = 0xFF then 2 else 1)
  else if sub = 9 then (if v.classic then 1 else 0)
  else if sub = 0x0A then (List.range 4).foldl (fun n k => if (getBank s c k).degr then n + 2 ^ k else n) 0
  else if sub = 0x0B then (List.range 4).foldl (fun n k => n + (getBank s c k).remap.length) 0
  else if sub = 0x17 ∨ sub = 0x1B then 0
  else Tab.get (fun _ => 0) (sub - 0x10) v.conf

def quadNum (s : State) (q sub : Nat) : Nat :=
  match sub with
  | 1 => patternOf 16 (Tab.get (fun _ => 0) q s.iris.temps)
  | 2 => validBeams s q
  | 4 => (getQuad s q).bemiss.toNat
  | 5 => (getQuad s q).remap.length
  | 6 => if (getQuad s q).degr then 1 else 0
  | _ => ent s (0x4200 + q) sub

/-- The entries of core `n` (R283, R357). -/
def coreNum (s : State) (n sub : Nat) : Nat :=
  let k := getCore s n
  let held := !isWarden n && (getCluster s (clusterOf n)).quiesced && atPoint s n
  match sub with
  | 1 => coreState k held
  | 2 => k.st.reason
  | 3 => k.st.faults
  | 4 => k.st.restarts
  | 5 => k.st.parity
  | 7 => if isWarden n then 0 else (match k.st.release with | some r => r.inst | none => 0)
  | 8 => if isWarden n then 0 else (beamsOf s n).length
  | _ => 0

def facetStatNum (s : State) (p sub : Nat) : Nat :=
  let f := getFacet s p
  match sub with
  | 1 => f.state
  | 2 => min 0xFFFF f.train.delay
  | 3 => if f.retired then f.criterion else 0
  | _ => ent s (0x3100 + p) sub

/-- The entries of the capability object (R346). -/
def capability (s : State) (sub : Nat) : Nat :=
  match sub with
  | 1 => unitsPresent s
  | 2 => 2 ^ nQuads s - 1
  | 3 => nFacets s
  | 4 => nCores s
  | 5 => 2 ^ nChans s - 1
  | 6 => nBeams s
  | 7 => if s.part.full then 1 else 0
  | _ => 0x04000000

/-- The core an object 0x4000 + n names: 0x4080 and 0x4081 are the wardens. -/
def coreOf (idx : Nat) : Nat := idx - 0x4000

/-- The value of an entry of a number type. -/
def entNum (s : State) (idx sub : Nat) : Nat :=
  if sub = 0 ∧ idx ≠ 0x6001 then highestSub idx
  else if 0x3100 ≤ idx ∧ idx < 0x3200 then facetStatNum s (idx - 0x3100) sub
  else if 0x4000 ≤ idx ∧ idx < 0x4082 then coreNum s (coreOf idx) sub
  else if 0x4100 ≤ idx ∧ idx < 0x4120 then clusterNum s (idx - 0x4100) sub
  else if 0x4200 ≤ idx ∧ idx < 0x4204 then quadNum s (idx - 0x4200) sub
  else if 0x5000 ≤ idx ∧ idx < 0x5010 then chanEntRead s (idx - 0x5000) sub
  else if 0x5100 ≤ idx ∧ idx < 0x5110 then chanValRead s (idx - 0x5100) sub
  else if 0x1131 ≤ idx ∧ idx ≤ 0x1138 ∧ sub = 3 then
    (if (Tab.get (fun _ => LinkKey.unset) (idx - 0x1130) s.keys.link).key.isSome then 1 else 0)
  else
    match idx, sub with
    | 0x1000, 3 => if s.part.gradeX then 1 else 0
    | 0x1000, 4 => if s.part.b0 then 0xB0 else 0xA0
    | 0x1000, 5 => Config.dieNumber
    | 0x1000, 6 => 0x00010000
    | 0x1010, _ => capability s sub
    | 0x1011, _ => capacity s sub
    | 0x1120, 2 => s.rfx.ctr
    | 0x1120, 3 => if s.rfx.key.isSome then 1 else 0
    | 0x1200, 1 => s.errs.length
    | 0x2011, _ =>
      let v := getCluster s (sub - 1)
      v.pace + boolBit v.broken 3 + v.why * 16
    | 0x2080, 5 => (List.range (nClusters s)).foldl (fun n c => if (getCluster s c).quiesced then n + 2 ^ c else n) 0
    | 0x2100, 2 => s.iris.vcore
    | 0x2100, 3 => s.iris.pkg
    | 0x2100, 4 => patternOf 16 (topTemp s)
    | 0x2100, 5 => topState s
    | 0x2102, _ => (getIr s (sub - 1)).allot
    | 0x2103, _ => (getIr s (sub - 1)).meas
    | 0x2200, 1 => s.cal.sec
    | 0x2200, 2 => calSub s
    | 0x2200, 3 => s.tb
    | 0x2200, 5 => patternOf 32 s.clock.off
    | 0x2200, 6 => s.clock.lock
    | 0x2200, 10 => s.cal.leap
    | 0x2300, 1 => s.img.force
    | 0x2300, 2 => s.img.slotA.state
    | 0x2300, 3 => s.img.slotB.state
    | 0x2300, 4 => s.img.slotA.version
    | 0x2300, 5 => s.img.slotB.version
    | 0x2300, 7 => s.img.stage
    | 0x2300, 9 => s.img.peak
    | 0x9000, 1 => loupeGate s
    | 0x9000, 2 => if lockBlown s then 1 else 0
    | _, _ => ent s idx sub

/-- An entry of the error history (R348). -/
def errOctets (e : ErrEntry) : Octets :=
  leOctets 2 e.code ++ [BitVec.ofNat 8 e.data.length, BitVec.ofNat 8 e.origin] ++ leOctets 8 e.time ++ (e.data ++ List.replicate (8 - e.data.length) 0)

/-- The ordering code (R345). -/
def orderCode (p : Part) : Octets :=
  [0x4C#8, 0x56#8] ++ (if p.lv256 then [0x32#8, 0x35#8, 0x36#8] else [0x31#8, 0x32#8, 0x38#8]) ++ [0x2D#8, if p.full then 0x46#8 else 0x4E#8, 0x2D#8,
    if p.gradeX then 0x58#8 else 0x49#8]

/-- Octets `a` to `a + n - 1` of the backup registers. -/
def bkupOctets (s : State) (a n : Nat) : Octets := ((List.range 32).flatMap fun w => leOctets 4 (bkup s w).toNat).drop a |>.take n

/-- The value of an entry of type VSTR, OSTR or DOMAIN. -/
def entOctets (s : State) (idx sub : Nat) : Octets :=
  if 0x3200 ≤ idx ∧ idx < 0x3300 then expoRead s (idx - 0x3200)
  else
    match idx, sub with
    | 0x1000, 1 => [0x42#8, 0x72#8, 0x65#8, 0x6C#8, 0x64#8, 0x6F#8, 0x65#8, 0x6E#8, 0x64#8]
    | 0x1000, _ => orderCode s.part
    | 0x1201, i => (s.errs[i - 1]?).elim (List.replicate 20 0) errOctets
    | 0x2080, _ => leOctets 32 ((List.range (nFacets s)).foldl (fun n p => if (getFacet s p).stopped then n + 2 ^ p else n) 0)
    | 0x2200, 7 => bkupOctets s 32 96
    | 0x2200, _ => bkupOctets s 0 32
    | 0x2300, _ => fuseDigest s
    | _, _ => []

/-- The value of an entry as it travels (R323). -/
def entValue (s : State) (idx sub ty : Nat) : Octets := if tySize ty = 0 then entOctets s idx sub else leOctets (tySize ty) (entNum s idx sub)

/-- A read of a readable entry: none where the word is poisoned (R224, order 15). -/
def dictRead (s : State) (idx sub ty : Nat) : State × Option Octets :=
  if idx = 0x6000 ∧ sub ≠ 0 then
    let r := windowRead s (sub - 1)
    (r.1, r.2.map (leOctets 4))
  else (s, some (entValue s idx sub ty))

/-! ### Writing -/

/-- A counter is cleared; only 0 may be written (R344). -/
def counterWrite (s : State) (idx sub v : Nat) : State × Option Nat :=
  if v ≠ 0 then (s, some outOfRange)
  else if idx = 0x1200 ∧ sub = 2 then (historyClear s, none)
  else if 0x4000 ≤ idx ∧ idx < 0x4082 then (modCore s (coreOf idx) fun k => { k with st := { k.st with parity := 0 } }, none)
  else if 0x4100 ≤ idx ∧ idx < 0x4120 then
    (modCluster s (idx - 0x4100) fun x => if sub = 3 then { x with overrun := 0 } else { x with conf := Tab.del (sub - 0x10) x.conf }, none)
  else if 0x4200 ≤ idx ∧ idx < 0x4204 ∧ sub = 4 then (modQuad s (idx - 0x4200) fun q => { q with bemiss := 0 }, none)
  else (setEnt s idx sub 0, none)

/-- The writes of 0x9001 to 0x9004 (R284, R285, R361). -/
def testWrite (s : State) (idx sub v : Nat) : State × Option Nat :=
  let set (b : Bool) : State × Option Nat := if b then (setEnt s idx sub v, none) else (s, some outOfRange)
  if idx = 0x9001 ∨ idx = 0x9004 then
    match sub with
    | 2 => set (decide (v < 3))
    | 3 => set (decide (100 ≤ v) && decide (v ≤ 60000))
    | 5 => prbsStart s idx v
    | _ => set true
  else if sub = 2 then (if idx = 0x9002 then coreRequalStart s v else chanRequalStart s v)
  else set (decide (v ≤ if idx = 0x9002 then 129 else 15))

/-- The backup octets 32 to 127 (R352). -/
def backupWrite (s : State) (v : Octets) : State × Option Nat :=
  if v.length ≠ 96 then (s, some outOfRange)
  else ((List.range 24).foldl (fun t w => setBkup t (8 + w) (BitVec.ofNat 32 (leAt v (4 * w) 4))) s, none)

def leapWrite (s : State) (v : Nat) : State × Option Nat :=
  if 2 < v then (s, some outOfRange) else ({ s with cal := { s.cal with leap := v } }, none)

/-- The warm reset command over a transport: it is answered first, and the reset follows (R350). -/
def warmAsk (s : State) (v : Nat) : State × Option Nat :=
  match warmCheck s v with
  | some e => (s, some e)
  | none => ({ s with power := { s.power with warm := true } }, none)

/-- A write of the entry's value as a number (order 15 of R331). -/
def numWrite (s : State) (sid idx sub v : Nat) (e : EntInfo) : State × Option Nat :=
  if e.ty = 1 ∧ 1 < v then (s, some outOfRange)
  else if e.acc = .rws then rwsWrite s false idx sub v
  else if 0x4000 ≤ idx ∧ idx < 0x4082 ∧ sub = 6 then retireWrite s (coreOf idx) v
  else if 0x5100 ≤ idx ∧ idx < 0x5110 then chanValWrite s (idx - 0x5100) sub v
  else if 0x9001 ≤ idx ∧ idx ≤ 0x9004 then testWrite s idx sub v
  else
    match idx, sub with
    | 0x2001, 1 => warmAsk s v
    | 0x2001, 2 => clusterResetWrite s v
    | 0x2001, 3 => coreResetWrite s v
    | 0x2080, 1 => disableWrite s v
    | 0x2080, 2 => killWrite s v
    | 0x2080, 3 => quiesceWrite s v
    | 0x2080, 4 => releaseWrite s v
    | 0x2200, 1 => calWrite s v
    | 0x2200, 10 => leapWrite s v
    | 0x2300, 7 => commitWrite s sid v
    | 0x6000, _ => (windowStore s (selectedBeam s) (sub - 1) (BitVec.ofNat 32 v) 0xFFFFFFFF#32, none)
    | 0x6001, _ => selectorWrite s v
    | _, _ => counterWrite s idx sub v

/-- A write of the whole value of a writable entry, its type and length checked (order 15 of R331). -/
def dictWrite (s : State) (sid idx sub : Nat) (v : Octets) (e : EntInfo) : State × Option Nat :=
  if tySize e.ty ≠ 0 then numWrite s sid idx sub (ofLe v) e
  else if 0x3200 ≤ idx ∧ idx < 0x3300 then expoWrite s (idx - 0x3200) v
  else if 0x1131 ≤ idx ∧ idx ≤ 0x1138 then linkKeyWrite s (idx - 0x1130) v
  else
    match idx with
    | 0x1110 => sessionKeyWrite s sub v
    | 0x1120 => mgmtKeyWrite s v
    | 0x2200 => backupWrite s v
    | _ => commitSegment s sid true true 0 v

/-- The entry may be written: no CONST or RO one (order 12). -/
def writable (e : EntInfo) : Bool := e.acc == .wo || e.acc == .rw || e.acc == .rws

/-- A write of a dictionary entry with orders 9 to 12, 14 and 15 of R331. -/
def entryWrite (s : State) (idx sub : Nat) (v : Octets) : State × Option Nat :=
  match findEntry s idx sub with
  | .error c => (s, some c)
  | .ok e =>
    if !writable e then (s, some 0x02000003)
    else if tySize e.ty ≠ 0 ∧ v.length ≠ tySize e.ty then (s, some 0x02000005)
    else dictWrite s 0 idx sub v e

end Sys2Proof.Machine
end

