-- ==== Sys2Proof/Machine/Loupe.lean ====
section
/-! DEFINITION. What the Loupe does to a core, to a cluster's trace and to a facet's test hooks (R464 to R468, R470). -/

namespace Sys2Proof.Machine

/-- The Loupe may write: gate 2 (R462). -/
def loupeMayWrite (s : State) : Bool := loupeGate s == 2

/-- The Loupe may read: gate 1 or 2 (R462). -/
def loupeMayRead (s : State) : Bool := loupeGate s != 0

/-! ### Halting, resuming, stepping (R464 to R466) -/

/-- LCTL.HALT: a halt is requested of a core that is not halted by the Loupe. -/
def haltRequest (s : State) (n : Nat) : State :=
  modCore s n fun k => if k.lp.halted then k else { k with lp := { k.lp with pending := true } }

/-- LOUPE_HALT_REQUEST (R464). -/
def execLoupeHaltRequest (n : Nat) (s : State) : Host.Outcome State Fault Refusal :=
  .next (if corePresent s n && loupeMayWrite s then haltRequest s n else s)

/-- A halt can be taken now (R465): the core issues nothing, or stands at a boundary of R190 with no cause recognisable at it. -/
def haltPoint (s : State) (n : Nat) : Bool :=
  let k := getCore s n
  !k.lp.halted && (k.i.run != .running || (k.i.fault.isNone && boundary s n && (recognisable s n (isIE k)).isNone))

/-- LOUPE_HALT (R465, R466): a requested halt, with WHY 3 where a breakpoint stands at the same boundary (R471), or the halt after a step. -/
def execLoupeHalt (n : Nat) (s : State) : Host.Outcome State Fault Refusal :=
  let k := getCore s n
  if corePresent s n && haltPoint s n then
    if k.lp.pending then .next (loupeHaltCore s n (if k.i.run = .running ∧ atBreakpoint k then 3 else 1))
    else if k.lp.stepping = 2 then .next (loupeHaltCore s n 2)
    else .next s
  else .next s

/-- BREAKPOINT_HALT (R465). -/
def execBreakpointHalt (n : Nat) (s : State) : Host.Outcome State Fault Refusal :=
  let k := getCore s n
  .next (if corePresent s n && k.i.run == .running && haltPoint s n && atBreakpoint k then loupeHaltCore s n 3 else s)

/-- LCTL.RESUME: a core halted by the Loupe issues again, and one stopped by `halt` too (R100). -/
def loupeResume (s : State) (n : Nat) : State :=
  modCore (loupeResumeCore s n) n fun k =>
    if k.i.run = .halted then { k with i := { k.i with run := .running }, e := { k.e with wdStart := s.tb } } else k

/-- LOUPE_RESUME (R464). -/
def execLoupeResume (n : Nat) (s : State) : Host.Outcome State Fault Refusal :=
  .next (if corePresent s n && loupeMayWrite s then loupeResume s n else s)

/-- LCTL.STEP: a core halted by the Loupe issues one bundle, pair or iteration and halts again. -/
def loupeStep (s : State) (n : Nat) : State :=
  if (getCore s n).lp.halted then modCore (loupeResumeCore s n) n fun k => { k with lp := { k.lp with stepping := 1 } } else s

/-- LOUPE_STEP (R464, R466). -/
def execLoupeStep (n : Nat) (s : State) : Host.Outcome State Fault Refusal :=
  .next (if corePresent s n && loupeMayWrite s then loupeStep s n else s)

/-- LCTL.SETBARE. -/
def setBare (s : State) (n : Nat) : State :=
  modCore s n fun k => if k.lp.halted then { k with r := { k.r with psw := k.r.psw ||| 4#32 } } else k

/-- SETBARE (R464). -/
def execSetbare (n : Nat) (s : State) : Host.Outcome State Fault Refusal :=
  .next (if corePresent s n && loupeMayWrite s then setBare s n else s)

/-- A write of LCTL (R464). -/
def lctlWrite (s : State) (n : Nat) (v : Word) : State :=
  let s1 := modCore s n fun k => { k with lp := { k.lp with stepie := v.getLsbD 3, brken := v.getLsbD 4 } }
  let s2 := if v.getLsbD 5 then setBare s1 n else s1
  let s3 := if v.getLsbD 1 then loupeResume s2 n else s2
  let s4 := if v.getLsbD 2 then loupeStep s3 n else s3
  if v.getLsbD 0 then haltRequest s4 n else s4

def lctl (k : LensCore) : Nat := boolBit k.lp.stepie 3 + boolBit k.lp.brken 4

def lstat (k : LensCore) : Nat := boolBit k.lp.halted 0 + k.lp.why * 2 + boolBit k.lp.pending 4 + boolBit k.lp.skerr 5

def setSkerr (s : State) (n : Nat) : State := modCore s n fun k => { k with lp := { k.lp with skerr := true } }

/-- A write of LPC (R464, R466): the next bundle is named and fetched afresh behind four fill bundles; a repeat in progress is abandoned. -/
def lpcWrite (s : State) (n : Nat) (v : Word) : State :=
  if (getCore s n).lp.halted then
    modCore s n fun k =>
      { k with i := { emptyFetch k.i with pc := v &&& 0xFFFFFFF8#32, fills := 4, delay := none, rep := none, resumeRep := false } }
  else setSkerr s n

/-- LPC_WRITE (R464, R466). -/
def execLpcWrite (n : Nat) (v : Word) (s : State) : Host.Outcome State Fault Refusal :=
  .next (if corePresent s n && loupeMayWrite s then lpcWrite s n v else s)

/-! ### The socket window (R467) -/

/-- The code names a socket that holds a value. -/
def lskHolds (s : State) (c : Nat) : Bool :=
  !unitAbsent s c && (decide (c < 0x40) || (decide (0x100 ≤ c) && decide (c < 0x200)) || codeRole c == .operand || codeRole c == .result || specialReadable c)

/-- A move may write the code, and it is no trigger. -/
def lskTakes (s : State) (c : Nat) : Bool :=
  !unitAbsent s c && (decide (c < 0x40) || (decide (0x100 ≤ c) && decide (c < 0x200)) || codeRole c == .operand || specialWritable c)

/-- What the window reads. -/
def lskValue (s : State) (n : Nat) (k : LensCore) (c : Nat) : Word :=
  if c < 0x40 then greg k c
  else if c < 0x200 then boolWord (pbit k (c - 0x100))
  else if c < 0x400 then windowValue k c
  else readSpecial s n k false c

/-- A read of LSKVAL: `none` while it waits for an undelivered result. A read of the timebase latches its high word, as a move does. -/
def lskRead (s : State) (n : Nat) : Option (State × Word) :=
  let k := getCore s n
  let c := k.lp.sksel.toNat
  if !k.lp.halted || !lskHolds s c then some (setSkerr s n, 0)
  else if windowBusy k c && c != 0x24C && c != 0x279 && c != 0x27A then none
  else some (if c = 0x407 then setCore s n { k with r := { k.r with tbhi := tbWord s true } } else s, lskValue s n k c)

/-- A write of LSKVAL through a loop view meets one of the four cases of R135, so that as a move it would trap. -/
def lskViewFails (k : LensCore) (n c : Nat) (v : Word) : Bool :=
  isView c && viewFails k (writeDst k n c v) { slot := 0, second := false, inv := false, ksel := 0, src := .imm v, dst := c } v

/-- A write of LSKVAL: a supervisor move to the socket. One that as a move would trap with cause 0x09 (R135) is refused and sets SKERR, so that the
active levels stay one run (R129, log entry 121). -/
def lskWrite (s : State) (n : Nat) (v : Word) : State :=
  let k := getCore s n
  let c := k.lp.sksel.toNat
  if !k.lp.halted || !lskTakes s c || lskViewFails k n c v then setSkerr s n
  else
    modCore s n fun k =>
      let k1 := writeDst k n c v
      if c = 0x490 ∨ c = 0x498 ∨ c = 0x4A0 then { k1 with i := ap0Written k1.i } else k1

/-- LSKVAL_ACCESS (R467). -/
def execLskvalAccess (n : Nat) (wr : Option Word) (s : State) : Host.Outcome State Fault Refusal :=
  if !corePresent s n then .next s
  else
    match wr with
    | some v => .next (if loupeMayWrite s then lskWrite s n v else s)
    | none =>
      if loupeMayRead s then
        match lskRead s n with
        | none => .next s
        | some r => .next { r.1 with rdata := some r.2 }
      else .next s

/-! ### The trace (R468) -/

/-- A write of TRCTL: the count goes to 0. -/
def trctlWrite (s : State) (c : Nat) (v : Word) : State := modCluster s c fun x => { x with trctl := v &&& 0x7F#32, trace := [] }

/-- TRCTL_WRITE (R468). -/
def execTrctlWrite (c : Nat) (v : Word) (s : State) : Host.Outcome State Fault Refusal :=
  .next (if c < nClusters s ∧ loupeMayWrite s then trctlWrite s c v else s)

/-- The entry TRSEL shows; 0 where none is held. -/
def traceShown (x : Cluster) : TraceEntry := x.trace.getD x.trsel.toNat { w0 := 0, w1 := 0, w2 := 0, w3 := 0 }

/-! ### The facet test hooks (R470) -/

/-- The hooks accept a write: the facet is OFF or RETIRED, and no run is in progress. -/
def hooksOpen (s : State) (p : Nat) : Bool :=
  let f := getFacet s p
  (f.state == 0 || f.state == 5) && s.prbs.isNone

/-- One transmitted bit is inverted: on a lane that runs a pattern in near-end loopback its own checker counts the error. -/
def injectBit (f : Facet) : Facet :=
  if field f.ftctl 0 2 = 1 ∧ field f.ftctl 2 3 ≠ 0 then
    { f with fterr := (f.fterr &&& 0x80000000#32) ||| BitVec.ofNat 32 (satInc 0x7FFFFFFF (field f.fterr 0 31)) }
  else f

/-- A write of FTCTL: refused where the hooks are shut, for LOOP 3 and for PAT 5 to 7. The checker of a near-end loopback locks to its own
pattern. -/
def ftctlWrite (s : State) (p : Nat) (v : Word) : State × Bool :=
  if !hooksOpen s p || field v 0 2 == 3 || decide (4 < field v 2 3) then (s, false)
  else
    let lock := decide (field v 0 2 = 1) && field v 2 3 != 0
    (modFacet s p fun f =>
      let g := { f with ftctl := v &&& 0x1F#32, fterr := (f.fterr &&& 0x7FFFFFFF#32) ||| (if lock then 0x80000000#32 else 0) }
      if v.getLsbD 5 then injectBit g else g, true)

/-- FTCTL_WRITE (R470). -/
def execFtctlWrite (p : Nat) (v : Word) (s : State) : Host.Outcome State Fault Refusal :=
  .next (if p < nFacets s ∧ loupeMayWrite s then (ftctlWrite s p v).1 else s)

/-- BIT_INJECTION (R470): INJ written with LOOP and PAT as they stand. -/
def execBitInjection (p : Nat) (s : State) : Host.Outcome State Fault Refusal :=
  .next (if p < nFacets s ∧ loupeMayWrite s ∧ hooksOpen s p then modFacet s p injectBit else s)

/-- A write of FTERR sets COUNT. -/
def fterrWrite (s : State) (p : Nat) (v : Word) : State × Bool :=
  if hooksOpen s p then (modFacet s p fun f => { f with fterr := (f.fterr &&& 0x80000000#32) ||| (v &&& 0x7FFFFFFF#32) }, true) else (s, false)

end Sys2Proof.Machine
end

