-- ==== Sys2Proof/Machine/Device.lean ====
section
/-! DEFINITION. The device register blocks of R145: what a read returns and a write does in each (R178, R194, R226, R255, R292, R302, R318,
R374, R426, R464, R468, R470), the core's device accesses, and the register write of R7. -/

namespace Sys2Proof.Machine

def natWord (n : Nat) : Word := BitVec.ofNat 32 n

/-! ### The core block (R194, R255, R292, R464) -/

def exstat (k : LensCore) : Nat := boolBit k.e.badraise 0 + boolBit k.e.skref 1 + boolBit k.e.skbad 2 + boolBit k.e.rqref 3

/-- LFCTL: entries 0 to 3 of the frame. -/
def lfctl (k : LensCore) : Nat :=
  (List.range 4).foldl (fun v i =>
    let f := frameEntry k i
    v + boolBit f.valid i + f.age.toNat * 2 ^ (4 + 2 * i) + boolBit f.deliv (12 + i) + boolBit f.pois (16 + i)) 0

def lfctl2 (k : LensCore) : Nat :=
  let f := frameEntry k 4
  boolBit f.valid 0 + f.age.toNat * 2 + boolBit f.deliv 3 + boolBit f.pois 4

def modFrame (k : LensCore) (i : Nat) (g : FrameEntry → FrameEntry) : LensCore :=
  { k with e := { k.e with frame := Tab.put i (g (frameEntry k i)) k.e.frame } }

def lfctlWrite (k : LensCore) (v : Word) : LensCore :=
  (List.range 4).foldl (fun k i => modFrame k i fun f =>
    { f with valid := v.getLsbD i, age := BitVec.ofNat 2 (field v (4 + 2 * i) 2), pois := v.getLsbD (16 + i) }) k

/-- A load in flight delivers into frame entry `i`. -/
def frameBound (k : LensCore) (i : Nat) : Bool := k.u.loads.any fun l => l.toFrame == some i

/-- A read of LFQ i: it waits for a load in flight. -/
def lfqRead (k : LensCore) (i : Nat) : Option Word :=
  let f := frameEntry k i
  if !f.deliv && frameBound k i then none else some f.val

def rqcfg (k : LensCore) : Nat := k.q.rqBase.toNat * 16 + boolBit k.q.rqDben 14 + k.q.rqN.toNat * 65536

/-- A read of the core block by a core, the engine or the Loupe; `none` while it waits. -/
def coreRead (s : State) (n off : Nat) (loupe : Bool) : Option (State × Word) :=
  let k := getCore s n
  let w (v : Nat) : Option (State × Word) := some (s, natWord v)
  let x (v : Word) : Option (State × Word) := some (s, v)
  if 0x400 ≤ off ∧ off < 0x430 ∧ !loupe then w 0
  else
    match off with
    | 0x104 => w (exstat k)
    | 0x108 => w (k.e.wdPeriod.toNat + boolBit k.e.wdFirst 17)
    | 0x10C => x k.e.evovf
    | 0x110 => w k.e.sksel.toNat
    | 0x114 => skvalRead s n
    | 0x120 => x k.e.lfval
    | 0x124 => w (lfctl k)
    | 0x128 => (lfqRead k 0).map fun v => (s, v)
    | 0x12C => (lfqRead k 1).map fun v => (s, v)
    | 0x130 => (lfqRead k 2).map fun v => (s, v)
    | 0x134 => (lfqRead k 3).map fun v => (s, v)
    | 0x138 => (lfqRead k 4).map fun v => (s, v)
    | 0x13C => w (lfctl2 k)
    | 0x140 => x (frameEntry k 0).ba
    | 0x144 => x (frameEntry k 1).ba
    | 0x148 => x (frameEntry k 2).ba
    | 0x14C => x (frameEntry k 3).ba
    | 0x150 => x (frameEntry k 4).ba
    | 0x200 => w (rqcfg k)
    | 0x204 => w (k.q.rqHead % 256)
    | 0x208 => w (k.q.rqTail % 256)
    | 0x300 => x k.q.rtxa
    | 0x304 => x k.q.rtxl
    | 0x308 => w k.q.rtxdest.toNat
    | 0x310 => some (rtxdoneRead s n)
    | 0x400 => w (lctl k)
    | 0x404 => w (lstat k)
    | 0x408 => x (k.i.pc &&& 0xFFFFFFF8#32)
    | 0x40C => w k.lp.sksel.toNat
    | 0x410 => lskRead s n
    | 0x420 => x (Tab.get (fun _ => 0#32) 0 k.lp.lbp)
    | 0x424 => x (Tab.get (fun _ => 0#32) 1 k.lp.lbp)
    | 0x428 => x (Tab.get (fun _ => 0#32) 2 k.lp.lbp)
    | 0x42C => x (Tab.get (fun _ => 0#32) 3 k.lp.lbp)
    | _ => w 0

/-- EXSTAT written: W1C bits. -/
def exstatWrite (k : LensCore) (v : Word) : LensCore :=
  { k with e := { k.e with badraise := k.e.badraise && !v.getLsbD 0, skref := k.e.skref && !v.getLsbD 1
                           skbad := k.e.skbad && !v.getLsbD 2, rqref := k.e.rqref && !v.getLsbD 3 } }

/-- A write of the core block. -/
def coreWrite (s : State) (n off : Nat) (v : Word) (loupe : Bool) : State :=
  let lfq (i : Nat) : State := modCore s n fun k => modFrame k i fun f => { f with val := v }
  let lfba (i : Nat) : State := modCore s n fun k => modFrame k i fun f => { f with ba := v }
  let lbp (i : Nat) : State := modCore s n fun k => { k with lp := { k.lp with lbp := Tab.put i (v &&& 0xFFFFFFF9#32) k.lp.lbp } }
  if 0x400 ≤ off ∧ off < 0x430 ∧ !loupe then s
  else
    match off with
    | 0x100 => evraise s n v
    | 0x104 => modCore s n fun k => exstatWrite k v
    | 0x108 => watchdogWrite s n v
    | 0x10C => modCore s n fun k => { k with e := { k.e with evovf := v } }
    | 0x110 => modCore s n fun k => { k with e := { k.e with sksel := v.setWidth 12 } }
    | 0x114 => skvalWrite s n v
    | 0x120 => modCore s n fun k => { k with e := { k.e with lfval := v } }
    | 0x124 => modCore s n fun k => lfctlWrite k v
    | 0x128 => lfq 0
    | 0x12C => lfq 1
    | 0x130 => lfq 2
    | 0x134 => lfq 3
    | 0x138 => lfq 4
    | 0x13C => modCore s n fun k => modFrame k 4 fun f => { f with valid := v.getLsbD 0, age := BitVec.ofNat 2 (field v 1 2), pois := v.getLsbD 4 }
    | 0x140 => lfba 0
    | 0x144 => lfba 1
    | 0x148 => lfba 2
    | 0x14C => lfba 3
    | 0x150 => lfba 4
    | 0x200 => rqcfgWrite s n v
    | 0x208 => modCore s n fun k => { k with q := { k.q with rqTail := field v 0 8 } }
    | 0x300 => modCore s n fun k => { k with q := { k.q with rtxa := v } }
    | 0x304 => modCore s n fun k => { k with q := { k.q with rtxl := v &&& 0x7FFFFF#32 } }
    | 0x308 => modCore s n fun k => { k with q := { k.q with rtxdest := v.setWidth 8 } }
    | 0x30C => rtxpostWrite s n v
    | 0x400 => lctlWrite s n v
    | 0x404 => modCore s n fun k => { k with lp := { k.lp with skerr := k.lp.skerr && !v.getLsbD 5 } }
    | 0x408 => lpcWrite s n v
    | 0x40C => modCore s n fun k => { k with lp := { k.lp with sksel := v.setWidth 12 } }
    | 0x410 => lskWrite s n v
    | 0x420 => lbp 0
    | 0x424 => lbp 1
    | 0x428 => lbp 2
    | 0x42C => lbp 3
    | _ => s

/-! ### The cluster block (R178, R468) -/

def bankstat (b : Bank) : Nat :=
  b.remap.length % 32 + boolBit b.degr 5 + boolBit b.loan.isSome 6 + boolBit b.refused 7 + b.hovf % 256 * 256

/-- Conflict counter `m` of R176; 7 and 11 count nothing. -/
def confOf (v : Cluster) (m : Nat) : Nat := if m = 7 ∨ m = 11 then 0 else Tab.get (fun _ => 0) m v.conf

/-- A read of the cluster block. -/
def clusterRead (s : State) (c off : Nat) (loupe : Bool) : Word :=
  let v := getCluster s c
  if off < 0x80 then
    let b := getBank s c (off / 0x20)
    match off % 0x20 with
    | 0x00 => natWord (b.owner + boolBit b.pend.isSome 3)
    | 0x04 => natWord (boolBit b.noloan 0 + boolBit b.fopen 1)
    | 0x08 => natWord (bankstat b)
    | 0x0C => b.col0
    | 0x10 => b.col1
    | _ => 0
  else if 0xC0 ≤ off ∧ off < 0x100 then natWord (confOf v ((off - 0xC0) / 4))
  else
    match off with
    | 0x080 => v.xcol0
    | 0x084 => v.xcol1
    | 0x088 => v.bcol0
    | 0x08C => v.bcol1
    | 0x090 => natWord (boolBit v.classic 0)
    | 0x0A0 => v.clevt
    | 0x0A4 => v.cleven
    | 0x800 => if loupe then v.trctl else 0
    | 0x804 => if loupe then natWord v.trace.length else 0
    | 0x808 => if loupe then natWord v.trsel.toNat else 0
    | 0x80C => if loupe then (traceShown v).w0 else 0
    | 0x810 => if loupe then (traceShown v).w1 else 0
    | 0x814 => if loupe then (traceShown v).w2 else 0
    | 0x818 => if loupe then (traceShown v).w3 else 0
    | _ => 0

/-- The collision registers after a write of the first: clearing VALID clears the second (R178). -/
def colClear (c0 c1 v : Word) : Word × Word := if v.getLsbD 16 then (c0 &&& 0xFFFEFFFF#32, 0) else (c0, c1)

/-- The CLEVEN bits that can be written (R178). -/
def clevenMask : Word := 0x08F0F03F#32

/-- A write of the cluster block. -/
def clusterWrite (s : State) (m : Master) (c off : Nat) (v : Word) : State :=
  if off < 0x80 then
    let k := off / 0x20
    match off % 0x20 with
    | 0x00 => bankownWrite s m c k v
    | 0x04 => bankcfgWrite s m c k v
    | 0x08 => modBank s c k fun b => { b with refused := b.refused && !v.getLsbD 7 }
    | 0x0C => modBank s c k fun b => { b with col0 := (colClear b.col0 b.col1 v).1, col1 := (colClear b.col0 b.col1 v).2 }
    | _ => s
  else if 0xC0 ≤ off ∧ off < 0x100 then modCluster s c fun x => { x with conf := Tab.put ((off - 0xC0) / 4) v.toNat x.conf }
  else
    match off with
    | 0x080 => modCluster s c fun x => { x with xcol0 := (colClear x.xcol0 x.xcol1 v).1, xcol1 := (colClear x.xcol0 x.xcol1 v).2 }
    | 0x088 => modCluster s c fun x => { x with bcol0 := (colClear x.bcol0 x.bcol1 v).1, bcol1 := (colClear x.bcol0 x.bcol1 v).2 }
    | 0x0A0 => modCluster s c fun x => { x with clevt := x.clevt &&& ~~~v }
    | 0x0A4 => modCluster s c fun x => { x with cleven := (v &&& clevenMask) ||| 0x070F0F00#32 }
    | 0x800 => if m = .loupe then trctlWrite s c v else s
    | 0x808 => if m = .loupe then modCluster s c fun x => { x with trsel := v.setWidth 8 } else s
    | _ => s

/-! ### The facet block (R255, R470) -/

def fstat (f : Facet) : Nat := f.state + f.train.fails % 8 * 8 + f.train.peer.toNat * 256 + min 0xFFFF f.train.delay * 65536

/-- A read of the facet block. -/
def facetRead (s : State) (p off : Nat) (loupe : Bool) : State × Word :=
  let f := getFacet s p
  if 0x100 ≤ off ∧ off < 0x140 then
    let lc := (off - 0x100) / 0x10
    match off % 0x10 with
    | 0x0 => (s, (stagingOf f lc).txa)
    | 0x4 => (s, (stagingOf f lc).txl)
    | 0xC => txdoneRead s p lc
    | _ => (s, 0)
  else
    match off with
    | 0x000 => (s, natWord (fstat f))
    | 0x004 => (s, f.fevt.setWidth 32)
    | 0x008 => (s, f.feven.setWidth 32)
    | 0x010 => (s, natWord (f.ringBase / 2048 * 2048))
    | 0x014 => (s, natWord f.ringN)
    | 0x020 => (s, match f.txts with | [] => 0 | t :: _ => natWord (t.beam % 65536 + t.slot % 512 * 65536) ||| 0x80000000#32)
    | 0x024 => (s, match f.txts with | [] => 0 | t :: _ => natWord t.ts)
    | 0x028 => txts2Read s p
    | 0x800 => (s, if loupe then f.ftctl else 0)
    | 0x804 => (s, if loupe then f.fterr else 0)
    | _ => (s, 0)

/-- A write of the facet block; false where the Loupe's test hooks refuse it. -/
def facetWrite (s : State) (m : Master) (p off : Nat) (v : Word) : State × Bool :=
  if 0x100 ≤ off ∧ off < 0x140 then
    let lc := (off - 0x100) / 0x10
    let put (g : Staging → Staging) : State × Bool := (modFacet s p fun f => { f with staging := Tab.put lc (g (stagingOf f lc)) f.staging }, true)
    match off % 0x10 with
    | 0x0 => put fun t => { t with txa := v }
    | 0x4 => put fun t => { t with txl := v &&& 0x7FFFFF#32 }
    | 0x8 => (txpostWrite s p lc v, true)
    | _ => (s, true)
  else
    match off with
    | 0x004 => (modFacet s p fun f => { f with fevt := f.fevt &&& ~~~(v.setWidth 16) }, true)
    | 0x008 => (modFacet s p fun f => { f with feven := (v.setWidth 16 &&& 0x5E3F#16) ||| 0x2100#16 }, true)
    | 0x018 => (rxfreeWrite s p v, true)
    | 0x800 => if m = .loupe then ftctlWrite s p v else (s, true)
    | 0x804 => if m = .loupe then fterrWrite s p v else (s, true)
    | _ => (s, true)

/-! ### The quadrant block (R226) -/

def quadRead (s : State) (q off : Nat) : Word :=
  let x := getQuad s q
  match off with
  | 0x000 => natWord (validBeams s q)
  | 0x004 => x.bethr.setWidth 32
  | 0x008 => x.beevt.setWidth 32
  | 0x00C => x.beeven.setWidth 32
  | 0x010 => x.bemiss
  | 0x014 => natWord (x.remap.length % 128 + boolBit x.degr 7)
  | _ => 0

def quadWrite (s : State) (q off : Nat) (v : Word) : State :=
  match off with
  | 0x004 => modQuad s q fun x => { x with bethr := v.setWidth 16 }
  | 0x008 => modQuad s q fun x => { x with beevt := x.beevt &&& ~~~(v.setWidth 8) }
  | 0x00C => modQuad s q fun x => { x with beeven := (v.setWidth 8 &&& 0x5E#8) ||| 0x21#8 }
  | 0x010 => modQuad s q fun x => { x with bemiss := v }
  | _ => s

/-! ### The Iris and the reflex log (R302, R374) -/

def irstat (s : State) : Nat := topState s + boolBit s.iris.excess 2 + boolBit s.iris.emerg 3 + boolBit s.iris.short 4

def irisRead (s : State) (off : Nat) : Word :=
  if 0x010 ≤ off ∧ off < 0x020 then
    (if nQuads s ≤ (off - 0x10) / 4 then 0 else natWord (patternOf 12 (Tab.get (fun _ => 0) ((off - 0x10) / 4) s.iris.temps)))
  else if 0x100 ≤ off ∧ off < 0x200 then
    let c := (off - 0x100) / 8
    let x := getIr s c
    if nClusters s ≤ c then 0
    else if off % 8 = 0 then natWord (x.allot % 1024 + boolBit ((getCluster s c).pace != 0) 10)
    else natWord (x.meas % 65536 + x.level % 16 * 65536 + boolBit x.stop 20 + boolBit x.pbrk 21 + boolBit x.satur 22 + boolBit x.ovres 23)
  else
    match off with
    | 0x000 => natWord (irstat s)
    | 0x004 => natWord (s.iris.h % 1024 + s.iris.pool % 1024 * 65536)
    | 0x008 => s.iris.clen
    | _ => 0

def irisWrite (s : State) (off : Nat) (v : Word) : State :=
  if 0x100 ≤ off ∧ off < 0x200 then
    let c := (off - 0x100) / 8
    if nClusters s ≤ c then s
    else if off % 8 = 0 then modIr s c fun x => { x with allot := max 4 (field v 0 10) }
    else modIr s c fun x => { x with stop := x.stop && !v.getLsbD 20, pbrk := x.pbrk && !v.getLsbD 21, satur := x.satur && !v.getLsbD 22
                                     ovres := x.ovres && !v.getLsbD 23 }
  else
    match off with
    | 0x000 => { s with iris := { s.iris with emerg := s.iris.emerg && !v.getLsbD 3 } }
    | 0x008 => { s with iris := { s.iris with clen := (v &&& 0xD#32) ||| 2#32 } }
    | _ => s

def reflexLog (s : State) (off : Nat) : Word :=
  match off with
  | 0x800 => s.rfx.log0
  | 0x804 => s.rfx.log1
  | 0x808 => natWord (s.rfx.done % 65536 + s.rfx.refused % 65536 * 65536)
  | _ => 0

/-! ### Every block (R145) -/

/-- A read of a device register at physical address `a`: the state after it and the value; `none` while it waits. -/
def devRead (s : State) (m : Master) (a : Nat) : Option (State × Word) :=
  let lp := m == .loupe
  if a < 0x11000000 then coreRead s ((a - 0x10000000) / 0x1000) (a % 0x1000) lp
  else if a < 0x12000000 then some (s, clusterRead s ((a - 0x11000000) / 0x10000) (a % 0x10000) lp)
  else if a < 0x13000000 then some (facetRead s ((a - 0x12000000) / 0x1000) (a % 0x1000) lp)
  else if a < 0x14000000 then some (s, quadRead s ((a - 0x13000000) / 0x100000) (a % 0x100000))
  else if a < 0x14010000 then some (timebaseRead s (a % 0x10000))
  else if a < 0x14020000 then some (calendarRead s (a % 0x10000))
  else if a < 0x15000000 then
    (if a / 0x10000 = 0x1403 then some (s, irisRead s (a % 0x10000))
     else if a / 0x10000 = 0x1409 then some (s, reflexLog s (a % 0x10000)) else some (s, 0))
  else some (chanRead s ((a - 0x15000000) / 0x1000) (a % 0x1000))

/-- A write of a device register; false where the block refuses it with an error (R470). -/
def devWrite (s : State) (m : Master) (a : Nat) (v : Word) : State × Bool :=
  if a < 0x11000000 then (coreWrite s ((a - 0x10000000) / 0x1000) (a % 0x1000) v (m == .loupe), true)
  else if a < 0x12000000 then (clusterWrite s m ((a - 0x11000000) / 0x10000) (a % 0x10000) v, true)
  else if a < 0x13000000 then facetWrite s m ((a - 0x12000000) / 0x1000) (a % 0x1000) v
  else if a < 0x14000000 then (quadWrite s ((a - 0x13000000) / 0x100000) (a % 0x100000) v, true)
  else if a < 0x14010000 then (timebaseWrite s (a % 0x10000) v, true)
  else if a < 0x14020000 then (calendarWrite s (a % 0x10000) v, true)
  else if a < 0x15000000 then
    (if a / 0x10000 = 0x1403 then irisWrite s (a % 0x10000) v
     else if a = 0x14090808 then { s with rfx := { s.rfx with done := 0, refused := 0 } } else s, true)
  else ((chanWrite s ((a - 0x15000000) / 0x1000) (a % 0x1000) v).1, true)

/-! ### A core's device access completes (R156, R162) -/

def isDeviceAddr (a : Nat) : Bool := decide (0x10000000 ≤ a) && decide (a < 0x20000000)

/-- The oldest store-buffer entry, a device store, is performed and leaves. -/
def deviceStore (s : State) (n : Nat) (e : StoreEntry) : State :=
  let low := e.mask &&& 0x0F#8 != 0#8
  let a := 8 * e.word + if low then 0 else 4
  let v : Word := (if low then e.data else e.data >>> 32).setWidth 32
  let s1 := modCore s n fun k => { k with u := { k.u with stores := k.u.stores.drop 1 } }
  if isDeviceAddr a then (devWrite s1 (.core n) a v).1 else drainEntry s1 n e

/-- A device load is performed: its data, `none` while the block makes it wait. -/
def deviceLoad (s : State) (n : Nat) (l : Load) : Option (State × LoadData) :=
  if isDeviceAddr l.addr.toNat then (devRead s (.core n) l.addr.toNat).map fun r => (r.1, { val := r.2, pois := none })
  else some (performLoad drainEntry s n l)

/-- Load `i` of core `n` returns. -/
def returnLoad (s : State) (n i : Nat) (l : Load) : State :=
  if (isDet s n || l.bare) && stepLocked n l.addr.toNat l.kind && decide ((getCore s n).i.steps < l.trig + 3) then s
  else
    match deviceLoad s n l with
    | none => s
    | some (t, d) =>
      let t1 := setLoad (loadLate t n l) n i fun l => { l with data := some d }
      deliverLoad t1 n i { l with data := some d } d

/-- DEVICE_ACCESS_COMPLETION (R156): the block acknowledges the device store that is the oldest entry, or else returns the oldest device load that
nothing stands before. -/
def execDeviceAccessCompletion (n : Nat) (s : State) : Host.Outcome State Fault Refusal :=
  let k := getCore s n
  let load : State :=
    match k.u.loads.findIdx? fun l => l.kind == .device && l.data.isNone with
    | none => s
    | some i =>
      match k.u.loads[i]? with
      | none => s
      | some l => if loadBlocked s n (k.u.loads.take i) l then s else returnLoad s n i l
  match k.u.stores with
  | e :: _ => .next (if e.kind == .device && !storeBlocked s n e then deviceStore s n e else load)
  | [] => .next load

/-! ### The register write of R7 -/

/-- Master `m` reaches the register at `a` for writing (R145, R463). -/
def reaches (s : State) (m : Master) (a : Nat) : Bool :=
  match m with
  | .core n => corePresent s n && (match regionOf s n a with | .dev b => regionAllows n true (.dev b) 1 .write | _ => false)
  | .engine => match regionOf s 128 a with | .dev _ => true | _ => false
  | .loupe => loupeMayWrite s && (match regionOf s 128 a with | .dev _ => true | _ => false)

/-- REGISTER_WRITE (R7, R8): a write of a device register, or of a dictionary entry with its access code and checks. -/
def execRegisterWrite (m : Master) (dst : RegDest) (s : State) : Host.Outcome State Fault Refusal :=
  match dst with
  | .device a v => .next (if a.toNat % 4 = 0 ∧ reaches s m a.toNat then (devWrite s m a.toNat v).1 else s)
  | .entry idx sub v => .next (answered (entryWrite s idx sub v))

end Sys2Proof.Machine
end

