-- ==== Sys2Proof/Machine/Edp.lean ====
section
/-! DEFINITION. The dictionary protocol: sessions, the checks of R331, reads, writes, transfers, subscriptions, stores (R325 to R342, R413). -/

namespace Sys2Proof.Machine

/-! ### PDUs the device sends -/

/-- A PDU of the device without its tail (R329). -/
def mkPdu (s : State) (cmd tid sid dst : Nat) (body : Octets) : Octets :=
  [BitVec.ofNat 8 cmd, BitVec.ofNat 8 tid, BitVec.ofNat 8 sid, BitVec.ofNat 8 dst, BitVec.ofNat 8 s.node, 0#8] ++ leOctets 2 body.length ++ body

/-- A PDU with the tail of R327. -/
def withTail (ks pdu : Octets) (seq : Nat) : Octets := pdu ++ leOctets 4 seq ++ (hmac ks (pdu ++ leOctets 4 seq)).take 8

def findSession (s : State) (sid : Nat) : Option Session := Tab.find sid s.edp.sessions

def putSession (s : State) (sid : Nat) (x : Session) : State :=
  { s with edp := { s.edp with sessions := Tab.put sid x s.edp.sessions } }

/-- The endpoints of the open sessions, CAN FD first; each once (R336, R337). -/
def openEndpoints (s : State) : List (Endpoint × Nat) :=
  s.edp.sessions.foldl (fun l e => match facetOf e.2.ep with
    | none => l
    | some _ => if e.2.proved && !(l.any fun x => sameEndpoint x.1 e.2.ep) then l ++ [(e.2.ep, e.2.node)] else l) [(.can 0, 0)]

/-- A PDU nobody asked for; its TID is a free value. -/
def unasked (s : State) (cmd sid dst : Nat) (body : Octets) : State × Octets :=
  ({ s with free := s.free + 1 }, mkPdu s cmd (field (Config.answerField s.free) 0 8) sid dst body)

/-- The body of an emergency (R336). -/
def emergBody (e : ErrEntry) : Octets :=
  leOctets 2 e.code ++ [BitVec.ofNat 8 e.data.length, 0#8] ++ leOctets 8 e.time ++ (e.data ++ List.replicate (8 - e.data.length) 0)

/-- A PDU with SID 0 and DST 0 goes out on CAN FD and to every open session's endpoint. -/
def broadcast (s : State) (cmd : Nat) (body : Octets) : State :=
  let r := unasked s cmd 0 0 body
  (openEndpoints s).foldl (fun t e => sendPdu t e.1 r.2) r.1

/-- The oldest queued emergency is sent. -/
def sendEmergency (s : State) : State :=
  match s.emerg with
  | [] => s
  | e :: rest => broadcast { s with emerg := rest } 0x60 (emergBody e)

/-- Every queued emergency is sent: they go ahead of every other PDU (R336). -/
def sendEmergencies : Nat → State → State
  | 0, s => s
  | n + 1, s => sendEmergencies n (sendEmergency s)

/-- A PDU is sent, behind the queued emergencies. -/
def edpSend (s : State) (ep : Endpoint) (pdu : Octets) : State := sendPdu (sendEmergencies s.emerg.length s) ep pdu

/-- The entry of a request in the log, among those not answered (R278). -/
def isLogged (r : Reply) (x : LoggedReq) : Bool := x.ans.ep == r.ep && x.ans.node == r.node && x.ans.sid == r.sid && x.ans.tid == r.tid && x.state != 2

/-- The log shows the request answered (R278). -/
def logAnswered (s : State) (r : Reply) : State :=
  { s with edp := { s.edp with reqs := s.edp.reqs.map fun x => if isLogged r x then { x with state := 2 } else x } }

/-- A request is logged; the entries of requests answered are no longer needed (R278; DESIGN CHOICE, log entry 120). -/
def logRequest (s : State) (r : Reply) : State :=
  { s with edp := { s.edp with reqs := s.edp.reqs.filter (fun x => x.state != 2) ++ [{ ans := r, state := 0 }] } }

/-- The log shows the request executed, if it is not answered yet (R278). -/
def logExecuted (s : State) (r : Reply) : State :=
  { s with edp := { s.edp with reqs := s.edp.reqs.map fun x => if isLogged r x then { x with state := 1 } else x } }

/-- An answer (R327, R331): logged (R278), tagged under the session key when its request was, and then kept for a retry. An answer whose session
has ended is not sent. -/
def answerTo (s0 : State) (r : Reply) (cmd : Nat) (body : Octets) : State :=
  let s := logAnswered s0 r
  let pdu := mkPdu s cmd r.tid r.sid r.node body
  match r.seq with
  | none => edpSend s r.ep pdu
  | some q =>
    match findSession s r.sid with
    | none => s
    | some x =>
      let p := withTail x.ks pdu q
      let s1 := if x.used ∧ x.seq = q ∧ x.tid = r.tid then putSession s r.sid { x with answer := some p } else s
      edpSend s1 r.ep p

/-- An abort (R330, R341). -/
def abortTo (s : State) (r : Reply) (code : Nat) : State :=
  answerTo s r 0xC0 ([BitVec.ofNat 8 r.cmd, BitVec.ofNat 8 r.sub] ++ leOctets 2 r.idx ++ leOctets 4 code)

/-- The answer to a write (R330). -/
def writeDone (s : State) (r : Reply) : State := answerTo s r 0x82 (leOctets 2 r.idx ++ [BitVec.ofNat 8 r.sub, 0#8])

/-- A write's result is answered. -/
def writeResult (x : State × Option Nat) (r : Reply) : State := match x.2 with | none => writeDone x.1 r | some e => abortTo x.1 r e

/-! ### Sessions -/

/-- A session ends (R325): its transfers and subscriptions with it, and a commit it runs is interrupted (R393). -/
def endSession (s : State) (sid : Nat) : State :=
  let s1 := { s with edp := { s.edp with sessions := Tab.del sid s.edp.sessions
                                         transfers := s.edp.transfers.filter fun x => x.sid != sid
                                         subs := s.edp.subs.filter fun x => x.sid != sid } }
  if s.img.sid = sid then interruptCommit s1 else s1

/-- The PROOF is a retry of the one that proved the session (R326). -/
def isRetry (x : Session) (tid : Nat) (body : Octets) : Bool := x.proved && !x.used && x.proof == (tid, body)

/-- Order 3 of R331; SID 0 is refused while 0x1110:04 is 0, but for an OPEN (R325). -/
def noSession (s : State) (cmd tid sid : Nat) (body : Octets) : Bool :=
  if sid = 0 then cmd == 0x0B || (cmd != 0x0A && ent s 0x1110 4 == 0)
  else
    match findSession s sid with
    | none => true
    | some x => if x.proved then cmd == 0x0B && !isRetry x tid body else cmd != 0x0B

/-- The idle time of 0x1110:03 in ns. -/
def idleTime (s : State) : Nat := ent s 0x1110 3 * 1000000000

/-! ### A request arrives -/

/-- The engine answers: stage 6 has ended, and a warden is active (R279, R413). -/
def engineUp (s : State) : Bool := decide (7 ≤ s.power.stage) && s.active.isSome

/-- `v` stands somewhere in `l`. -/
def hasInfix (v : Octets) : Octets → Bool
  | [] => v == []
  | b :: l => (b :: l).take v.length == v || hasInfix v l

/-- The least member from `next` on, else the least of all: whose turn it is in a round-robin. -/
def turnFrom (next : Nat) (l : List Nat) : Option Nat :=
  match (l.filter fun x => decide (next ≤ x)).min? with
  | some x => some x
  | none => l.min?

/-- The facet whose frame the engine takes next: the management ports in turn, within a quadrant the source facets in turn (R296). -/
def engineTurn (s : State) : Option Nat :=
  let ps := s.edp.inbox.map fun e => e.1
  (turnFrom s.edp.turnQ (ps.map fun p => quadOf (p / 8))).bind fun q =>
    turnFrom (Tab.get (fun _ => 0) q s.edp.turnF) (ps.filter fun p => quadOf (p / 8) == q)

/-- The PDU may be taken now: where frames of its facet wait at the engine, it is the oldest of them that brought it and their turn (R296). -/
def pduTurn (s : State) (ep : Endpoint) (pdu : Octets) : Bool :=
  match facetOf ep with
  | none => true
  | some p =>
    match s.edp.inbox.find? fun e => e.1 == p with
    | none => true
    | some e => hasInfix pdu e.2 && engineTurn s == some p

/-- The frame that brought the PDU leaves the engine's input, and the turn goes on (R296). -/
def takeInbox (s : State) (ep : Endpoint) (pdu : Octets) : State :=
  match facetOf ep with
  | none => s
  | some p =>
    match s.edp.inbox.findIdx? fun e => e.1 == p && hasInfix pdu e.2 with
    | none => s
    | some i =>
      let q := quadOf (p / 8)
      { s with edp := { s.edp with inbox := s.edp.inbox.eraseIdx i, turnQ := q + 1, turnF := Tab.put q (p + 1) s.edp.turnF } }

/-- The endpoint with the SRC of the PDU for its node ID (R325). -/
def epWith (ep : Endpoint) (src : Nat) : Endpoint :=
  match ep with
  | .can _ => .can src
  | .beamLink p _ => .beamLink p src
  | e => e

/-- An endpoint is heard: its SID 0 subscriptions live on (R335). -/
def hearFrom (s : State) (ep : Endpoint) : State :=
  { s with edp := { s.edp with subs := s.edp.subs.map fun x => if x.sid = 0 ∧ sameEndpoint x.ep ep then { x with heard := s.tb } else x } }

/-- CMD is a request code (R330). -/
def isRequest (cmd : Nat) : Bool := [1, 2, 3, 4, 5, 6, 7, 8, 0x0A, 0x0B, 0x0C].contains cmd

/-- The command ends in a tail (R327, R329). -/
def tailed (cmd sid : Nat) : Bool := sid != 0 && cmd != 0x0A && cmd != 0x0B

/-- Octet `i` of a PDU. -/
def pduAt (pdu : Octets) (i : Nat) : Nat := (pdu.getD i 0).toNat

/-- Order 1 of R331. -/
def isShort (pdu : Octets) : Bool :=
  decide (pdu.length < 8) || decide (pdu.length < 8 + leAt pdu 6 2 + if tailed (pduAt pdu 0) (pduAt pdu 2) then 12 else 0)

/-- Order 2 of R331: the PDU is for another node. -/
def isElsewhere (s : State) (pdu : Octets) : Bool := pduAt pdu 3 != 0 && pduAt pdu 3 != s.node

/-- The relay facet that leads towards chain position `d` (R23, R340). -/
def relayTowards (s : State) (pos d : Nat) : Option Nat :=
  (List.range (nFacets s)).find? fun p =>
    let f := getFacet s p
    let peer := f.train.peer.toNat
    facetRole s p == 6 && f.state == 3 && peer != 0xFF && (if d < pos then decide (peer < pos) else decide (pos < peer))

/-- A PDU for another node (R340): a request goes on along the chain, an answer back the way its request came. -/
def forwardPdu (s : State) (ep : Endpoint) (pdu : Octets) : State :=
  let cmd := pduAt pdu 0
  let dst := pduAt pdu 3
  let src := pduAt pdu 4
  let refuse := abortTo s { ep, node := src, cmd, tid := pduAt pdu 1, sid := 0, idx := 0, sub := 0, seq := none } 0x01000008
  let back := if 0x60 ≤ cmd then (s.edp.routes.find? fun e => e.1 == dst) else none
  match back, s.chain with
  | some e, _ => edpSend s e.2 pdu
  | none, none => refuse
  | none, some pos =>
    let base := s.node - pos
    if dst < base ∨ base + 15 < dst then refuse
    else
      match relayTowards s pos (dst - base) with
      | none => refuse
      | some p =>
        let routes := (src, epWith ep src) :: s.edp.routes.filter fun e => e.1 != src
        edpSend { s with edp := { s.edp with routes } } (.beamLink p 0) pdu

/-- A reflex body that names another node (R297). -/
def foreignReflex (s : State) (pdu : Octets) : Bool :=
  pduAt pdu 0 == 0xF0 && decide (24 ≤ pdu.length) && pduAt pdu 4 != s.node && pduAt pdu 4 != 0xFF

/-- It goes on along the relay chain (R23, R297); one that no facet leads towards is dropped (log entry 123). -/
def forwardReflex (s : State) (pdu : Octets) : State :=
  match s.chain with
  | none => s
  | some pos =>
    let base := s.node - pos
    let d := pduAt pdu 4
    if d < base ∨ base + 15 < d then s
    else
      match relayTowards s pos (d - base) with
      | none => s
      | some p => edpSend s (.beamLink p 0) (pdu.take 24)

/-- A PDU of fewer octets than it says is discarded and counted. -/
def discardPdu (s : State) : State := { s with edp := { s.edp with discarded := s.edp.discarded + 1 } }

/-- Orders 7 and 8 as they hold for every command, then the command, which the log follows (R278). -/
def dispatchPdu (s : State) (r : Reply) (role five : Nat) (body : Octets) (run : State → Reply → Nat → Octets → State) : State :=
  if !isRequest r.cmd then abortTo s r 0x01000001 else if five ≠ 0 then abortTo s r 0x01000002
  else logExecuted (run (logRequest s r) r role body) r

/-- Orders 5 and 6 (R327), for a request in session `x`. -/
def checkTail (s : State) (x : Session) (r : Reply) (pdu body : Octets) (run : State → Reply → Nat → Octets → State) : State :=
  let n := 8 + body.length
  let seq := leAt pdu n 4
  let r1 := { r with sid := r.sid, seq := some seq }
  if (hmac x.ks (pdu.take (n + 4))).take 8 ≠ (pdu.drop (n + 4)).take 8 then bumpEnt s 0x1110 5
  else if seq > x.seq then
    dispatchPdu (putSession s r.sid { x with seq, tid := r.tid, used := true, answer := none, last := s.tb }) r1 x.role (pduAt pdu 5) body run
  else if x.used ∧ seq = x.seq ∧ r.tid = x.tid then
    let s1 := putSession s r.sid { x with last := s.tb }
    match x.answer with
    | none => s1
    | some a => edpSend s1 r.ep a
  else abortTo s r1 0x05000003

/-- Orders 3 to 8 of R331. -/
def checkPdu (s : State) (ep : Endpoint) (pdu : Octets) (run : State → Reply → Nat → Octets → State) : State :=
  let cmd := pduAt pdu 0
  let tid := pduAt pdu 1
  let sid := pduAt pdu 2
  let src := pduAt pdu 4
  let body := (pdu.drop 8).take (leAt pdu 6 2)
  let r0 : Reply := { ep, node := src, cmd, tid, sid := 0, idx := 0, sub := 0, seq := none }
  if noSession s cmd tid sid body then abortTo s r0 0x05000002
  else
    match (if sid = 0 then none else findSession s sid) with
    | none => dispatchPdu s r0 0 (pduAt pdu 5) body run
    | some x =>
      if !sameEndpoint x.ep ep then abortTo s r0 0x05000005
      else if tailed cmd sid then checkTail s x { r0 with sid } pdu body run
      else if cmd = 0x0B ∧ isRetry x tid body then (match x.answer with | none => s | some a => edpSend s ep a)
      else dispatchPdu s { r0 with sid } 0 (pduAt pdu 5) body run

/-- A PDU reaches the engine (R331). -/
def receivePdu (s0 : State) (ep0 : Endpoint) (pdu : Octets) (run : State → Reply → Nat → Octets → State) : State :=
  let ep := epWith ep0 (pduAt pdu 4)
  let s := takeInbox s0 ep0 pdu
  if foreignReflex s pdu then forwardReflex s pdu
  else if isShort pdu then discardPdu s
  else if isElsewhere s pdu then forwardPdu s ep pdu
  else checkPdu (hearFrom s ep) ep pdu run

/-- A PDU of command `cmd`, or one no command claims, reaches an engine that answers. -/
def edpRow (cmd : Nat) (ep : Endpoint) (pdu : Octets) (s : State) (run : State → Reply → Nat → Octets → State) : State :=
  if engineUp s ∧ pduTurn s ep pdu ∧ (isShort pdu ∨ pduAt pdu 0 = cmd ∨ !isRequest (pduAt pdu 0)) then receivePdu s ep pdu run else s

/-! ### Reading and writing (R332, R333) -/

/-- The index and subindex at the head of a body. -/
def atEntry (r : Reply) (body : Octets) : Reply := { r with idx := leAt body 0 2, sub := pduAt body 2 }

/-- Orders 9 to 11. -/
def withEntry (s : State) (r : Reply) (body : Octets) (k : Reply → EntInfo → State) : State :=
  let r1 := atEntry r body
  match findEntry s r1.idx r1.sub with
  | .error e => abortTo s r1 e
  | .ok e => k r1 e

/-- A body that is not what the command takes (order 8). -/
def malformed (s : State) (r : Reply) : State := abortTo s r 0x01000002

def runRead (s : State) (r : Reply) (_role : Nat) (body : Octets) : State :=
  if body.length ≠ 4 ∨ pduAt body 3 ≠ 0 then malformed s r
  else withEntry s r body fun r e =>
    if e.acc = .wo then abortTo s r 0x02000004
    else
      match dictRead s r.idx r.sub e.ty with
      | (t, none) => abortTo t r 0x04000003
      | (t, some v) => answerTo t r 0x81 (leOctets 2 r.idx ++ [BitVec.ofNat 8 r.sub, BitVec.ofNat 8 e.ty] ++ leOctets 4 v.length ++ v.take 32)

/-- READ (R332). -/
def execEdpRead (ep : Endpoint) (pdu : Octets) (s : State) : Host.Outcome State Fault Refusal := .next (edpRow 1 ep pdu s runRead)

/-- A write that has passed orders 9 to 14: refused before stage 9 ends (R413); a write of a pace is answered when its switch is made (R35). -/
def doWrite (s : State) (r : Reply) (v : Octets) (e : EntInfo) : State :=
  if s.power.stage < 10 then abortTo s r 0x04000001
  else if r.idx = 0x2010 then
    let c := r.sub - 1
    match paceRequest s c (ofLe v) (some r) with
    | (t, some x) => abortTo t r x
    | (t, none) => if (getCluster t c).sw.isSome then t else writeDone t r
  else writeResult (dictWrite s r.sid r.idx r.sub v e) r

def runWrite (s : State) (r : Reply) (role : Nat) (body : Octets) : State :=
  if body.length < 5 ∨ 36 < body.length then malformed s r
  else withEntry s r body fun r e =>
    let v := body.drop 4
    if !writable e then abortTo s r 0x02000003
    else if role < e.role then abortTo s r 0x05000001
    else if pduAt body 3 ≠ e.ty ∨ (tySize e.ty ≠ 0 ∧ v.length ≠ tySize e.ty) then abortTo s r 0x02000005
    else doWrite s r v e

/-- WRITE (R332). -/
def execEdpWrite (ep : Endpoint) (pdu : Octets) (s : State) : Host.Outcome State Fault Refusal := .next (edpRow 2 ep pdu s runWrite)

/-- The segment maximum of a transport (R338, R339). -/
def segMax (ep : Endpoint) : Nat := match ep with | .can _ => 32 | _ => 1024

def runBlockRead (s : State) (r : Reply) (_role : Nat) (body : Octets) : State :=
  if body.length ≠ 12 ∨ pduAt body 3 ≠ 0 ∨ pduAt body 10 ≠ 0 ∨ pduAt body 11 ≠ 0 then malformed s r
  else withEntry s r body fun r e =>
    if e.acc = .wo then abortTo s r 0x02000004
    else
      match dictRead s r.idx r.sub e.ty with
      | (t, none) => abortTo t r 0x04000003
      | (t, some v) =>
        let off := leAt body 4 4
        let n := min (leAt body 8 2) (segMax r.ep)
        if v.length < off then abortTo t r outOfRange
        else answerTo t r 0x83 (leOctets 2 r.idx ++ [BitVec.ofNat 8 r.sub, if v.length ≤ off + n then 1#8 else 0#8] ++ leOctets 4 off ++
          (v.drop off).take n)

/-- BLOCK_READ (R333). -/
def execEdpBlockRead (ep : Endpoint) (pdu : Octets) (s : State) : Host.Outcome State Fault Refusal := .next (edpRow 3 ep pdu s runBlockRead)

/-- The most octets an entry takes by a staging transfer (R333): a key 32, the backup octets 96, an exposure table of 512 slots. -/
def mostOctets (idx : Nat) : Nat :=
  if 0x3200 ≤ idx ∧ idx < 0x3300 then 32 + 16 * 512 else if idx = 0x2200 then 96 else if idx = 0x1110 ∨ idx = 0x1120 ∨ idx / 16 = 0x113 then 32 else 16384

/-- The staging transfer of a session, and the others. -/
def isTransferOf (r : Reply) (x : Transfer) : Bool := x.sid == r.sid && (r.sid != 0 || sameEndpoint x.ep r.ep)

def dropTransfer (s : State) (r : Reply) : State :=
  { s with edp := { s.edp with transfers := s.edp.transfers.filter fun x => !isTransferOf r x } }

/-- The answer to an accepted segment. -/
def segmentDone (s : State) (r : Reply) (flags next : Nat) : State :=
  answerTo s r 0x84 (leOctets 2 r.idx ++ [BitVec.ofNat 8 r.sub, BitVec.ofNat 8 flags] ++ leOctets 4 next)

/-- A segment is appended to the transfer's octets `old`; with LAST the whole value is written. -/
def stageSegment (s : State) (r : Reply) (e : EntInfo) (flags : Nat) (old v : Octets) : State :=
  let all := old ++ v
  let s1 := dropTransfer s r
  if min 16384 (mostOctets r.idx) < all.length then abortTo s1 r 0x01000004
  else if flags.testBit 1 then
    match dictWrite s1 r.sid r.idx r.sub all e with
    | (t, some x) => abortTo t r x
    | (t, none) => segmentDone t r flags all.length
  else
    let x : Transfer := { sid := r.sid, ep := r.ep, idx := r.idx, sub := r.sub, data := all, last := s.tb }
    segmentDone { s1 with edp := { s1.edp with transfers := s1.edp.transfers ++ [x] } } r flags all.length

/-- Orders 12 to 14 for a block write, and R413. -/
def blockRefused (s : State) (role : Nat) (e : EntInfo) : Option Nat :=
  if !writable e then some 0x02000003 else if role < e.role then some 0x05000001 else if tySize e.ty ≠ 0 then some 0x02000005
  else if s.power.stage < 10 then some 0x04000001 else none

def runBlockWrite (s : State) (r : Reply) (role : Nat) (body : Octets) : State :=
  if body.length < 9 ∨ 8 + segMax r.ep < body.length then malformed s r
  else
    let flags := pduAt body 3
    let off := leAt body 4 4
    let v := body.drop 8
    if 3 < flags then abortTo s (atEntry r body) outOfRange
    else if (atEntry r body).idx = 0x2300 ∧ (atEntry r body).sub = 6 then
      withEntry s r body fun r e =>
        match blockRefused s role e with
        | some x => abortTo s r x
        | none =>
          match commitSegment s r.sid (flags.testBit 0) (flags.testBit 1) off v with
          | (t, some x) => abortTo t r x
          | (t, none) => segmentDone t r flags t.img.got
    else if flags.testBit 0 ∧ off = 0 then
      withEntry s r body fun r e =>
        match blockRefused s role e with
        | some x => abortTo s r x
        | none => stageSegment s r e flags [] v
    else
      let r1 := atEntry r body
      match s.edp.transfers.find? fun x => isTransferOf r1 x && x.idx == r1.idx && x.sub == r1.sub, entInfo r1.idx r1.sub with
      | some x, some e =>
        if off ≠ x.data.length ∨ flags.testBit 0 then abortTo s r1 0x01000003
        else stageSegment s r1 e flags x.data v
      | _, _ => abortTo s r1 (if flags.testBit 0 then 0x01000003 else 0x01000005)

/-- BLOCK_WRITE (R333). -/
def execEdpBlockWrite (ep : Endpoint) (pdu : Octets) (s : State) : Host.Outcome State Fault Refusal := .next (edpRow 4 ep pdu s runBlockWrite)

/-- STAGING_TIMEOUT (R333): no segment for 10 s. -/
def execStagingTimeout (sid : Nat) (s : State) : Host.Outcome State Fault Refusal :=
  .next { s with edp := { s.edp with transfers := s.edp.transfers.filter fun x => !(x.sid == sid && decide (x.last + 10000000000 ≤ s.tb)) } }

/-! ### Store and restore (R334, R342) -/

/-- A STORE or RESTORE joins the jobs. -/
def askStore (s : State) (r : Reply) (kind : Nat) : State :=
  startJob { s with edp := { s.edp with jobs := s.edp.jobs ++ [{ ans := r, kind, copy := none }] } }

def runStore (s : State) (r : Reply) (role : Nat) (body : Octets) : State :=
  if body ≠ [] then malformed s r
  else if role < 2 then abortTo s r 0x05000001
  else if s.power.stage < 10 then abortTo s r 0x04000001
  else askStore s r 0

/-- STORE (R334). -/
def execEdpStore (ep : Endpoint) (pdu : Octets) (s : State) : Host.Outcome State Fault Refusal := .next (edpRow 5 ep pdu s runStore)

def runRestore (s : State) (r : Reply) (role : Nat) (body : Octets) : State :=
  if body.length ≠ 4 ∨ (body.drop 1).any (· != 0#8) then malformed s r
  else if role < 2 then abortTo s r 0x05000001
  else if s.power.stage < 10 then abortTo s r 0x04000001
  else if 1 < pduAt body 0 then abortTo s r outOfRange
  else askStore s r (1 + pduAt body 0)

/-- RESTORE (R334). -/
def execEdpRestore (ep : Endpoint) (pdu : Octets) (s : State) : Host.Outcome State Fault Refusal := .next (edpRow 6 ep pdu s runRestore)

/-- The first job ends: its copy is verified and active, or it is not; the next begins (R334, R342). -/
def endJob (s : State) (ok : Bool) : State :=
  match s.edp.jobs with
  | [] => s
  | j :: rest =>
    match j.copy with
    | none => s
    | some c =>
      let e := if ok then { s.edp with jobs := rest, active := c, other := s.edp.active } else { s.edp with jobs := rest, other := { c with good := false } }
      let s1 := { s with edp := e }
      startJob (if ok then answerTo s1 j.ans (j.ans.cmd + 0x80) (leOctets 4 c.gen) else abortTo s1 j.ans 0x04000004)

/-- STORE_COMPLETION (R334): `ok` tells whether the copy verifies. -/
def execStoreCompletion (ok : Bool) (s : State) : Host.Outcome State Fault Refusal := .next (if s.power.pfail then s else endJob s ok)

/-- PFAIL_RELEASE (R401): with every monitor good, a STORE abandoned under PFAIL_N ends with its abort, a commit reads 6, and those that wait
begin. -/
def execPfailRelease (s : State) : Host.Outcome State Fault Refusal :=
  if s.power.pfail ∧ s.power.low = [] then
    .next (startJob (endJob (interruptCommit { s with power := { s.power with pfail := false } }) false))
  else .next s

/-! ### Opening and closing a session (R326) -/

/-- The free SIDs. -/
def freeSids (s : State) : List Nat := ([1, 2, 3, 4, 5, 6, 7, 8] : List Nat).filter fun i => (findSession s i).isNone

/-- The key of a role for an opening (R326, R328): over CAN FD an unset engineer key is 32 zero octets. -/
def roleKey (s : State) (role : Nat) (ep : Endpoint) : Option Octets :=
  match (if role = 1 then s.keys.oper else s.keys.eng) with
  | some k => some k
  | none => if role = 2 ∧ facetOf ep = none then some (List.replicate 32 0) else none

def runOpen (s : State) (r : Reply) (_role : Nat) (body : Octets) : State :=
  let role := pduAt body 0
  if r.sid ≠ 0 ∨ body.length ≠ 20 ∨ ((body.drop 1).take 3).any (· != 0#8) then malformed s r
  else if role ≠ 1 ∧ role ≠ 2 then abortTo s r outOfRange
  else
    match roleKey s role r.ep with
    | none => abortTo s r 0x05000004
    | some k =>
      if (freeSids s).isEmpty then abortTo s r 0x04000002
      else
        let sid := (freeSids s).getD (Config.pickSid s.free % (freeSids s).length) 0
        let nd := leOctets 16 (Config.nonce s.free).toNat
        let x : Session := { role, ep := r.ep, node := r.node, nc := body.drop 4, nd, proved := false, used := false, ks := k, proof := (0, []), seq := 0,
                             tid := 0, answer := none, notes := 0, last := s.tb }
        answerTo (putSession { s with free := s.free + 1 } sid x) r 0x8A ([BitVec.ofNat 8 sid, 0#8, 0#8, 0#8] ++ nd)

/-- OPEN (R326). -/
def execEdpOpen (ep : Endpoint) (pdu : Octets) (s : State) : Host.Outcome State Fault Refusal := .next (edpRow 0x0A ep pdu s runOpen)

def runProof (s : State) (r : Reply) (_role : Nat) (body : Octets) : State :=
  match findSession s r.sid with
  | none => abortTo s r 0x05000002
  | some x =>
    let sr : Octets := [BitVec.ofNat 8 r.sid, BitVec.ofNat 8 x.role]
    if body.length ≠ 16 then malformed s r
    else if (hmac x.ks (x.nd ++ x.nc ++ sr)).take 16 ≠ body then abortTo (endSession s r.sid) r 0x05000006
    else
      let pdu := mkPdu s 0x8B r.tid r.sid r.node ((hmac x.ks (x.nc ++ x.nd ++ sr)).take 16)
      let y := { x with proved := true, ks := hmac x.ks (x.nc ++ x.nd ++ [BitVec.ofNat 8 r.sid]), proof := (r.tid, body), answer := some pdu, last := s.tb }
      edpSend (putSession s r.sid y) r.ep pdu

/-- PROOF (R326). -/
def execEdpProof (ep : Endpoint) (pdu : Octets) (s : State) : Host.Outcome State Fault Refusal := .next (edpRow 0x0B ep pdu s runProof)

def runClose (s : State) (r : Reply) (_role : Nat) (body : Octets) : State :=
  if body ≠ [] then malformed s r
  else if r.sid = 0 then abortTo s r 0x05000002
  else endSession (answerTo s r 0x8C []) r.sid

/-- CLOSE (R330). -/
def execEdpClose (ep : Endpoint) (pdu : Octets) (s : State) : Host.Outcome State Fault Refusal := .next (edpRow 0x0C ep pdu s runClose)

/-- SESSION_IDLE_EXPIRY (R325). -/
def execSessionIdleExpiry (sid : Nat) (s : State) : Host.Outcome State Fault Refusal :=
  match findSession s sid with
  | none => .next s
  | some x => .next (if x.proved ∧ x.last + idleTime s ≤ s.tb then endSession s sid else s)

/-- PROOF_TIMEOUT (R326). -/
def execProofTimeout (sid : Nat) (s : State) : Host.Outcome State Fault Refusal :=
  match findSession s sid with
  | none => .next s
  | some x => .next (if !x.proved ∧ x.last + 1000000000 ≤ s.tb then endSession s sid else s)

/-- PDU_FORWARD (R297, R340). -/
def execPduForward (ep : Endpoint) (pdu : Octets) (s : State) : Host.Outcome State Fault Refusal :=
  if !(engineUp s && pduTurn s ep pdu) then .next s
  else if foreignReflex s pdu then .next (forwardReflex (takeInbox s ep pdu) pdu)
  else if !isShort pdu ∧ isElsewhere s pdu then .next (forwardPdu (takeInbox s ep pdu) (epWith ep (pduAt pdu 4)) pdu) else .next s

/-! ### Subscriptions (R335) -/

/-- A notification of subscription `x` with value `v` is sent; in a session it carries the session's counter (R327). -/
def sendNote (s : State) (x : Subscription) (ty : Nat) (v : Octets) : State :=
  let body := [BitVec.ofNat 8 x.handle, BitVec.ofNat 8 ty, 0#8, 0#8] ++ leOctets 8 s.tb ++ v
  let subs := s.edp.subs.map fun y => if y.handle = x.handle then { y with val := v, sent := s.tb } else y
  let r := unasked { s with edp := { s.edp with subs } } 0x62 x.sid x.node body
  if x.sid = 0 then edpSend r.1 x.ep r.2
  else
    match findSession r.1 x.sid with
    | none => r.1
    | some y => edpSend (putSession r.1 x.sid { y with notes := (y.notes + 1) % 2 ^ 32 }) x.ep (withTail y.ks r.2 ((y.notes + 1) % 2 ^ 32))

def runSubscribe (s : State) (r : Reply) (_role : Nat) (body : Octets) : State :=
  if body.length ≠ 8 ∨ pduAt body 6 ≠ 0 ∨ pduAt body 7 ≠ 0 then malformed s r
  else withEntry s r body fun r e =>
    let mode := pduAt body 3
    let interval := leAt body 4 2
    let free := (List.range 256).filter fun h => !(s.edp.subs.any fun x => x.handle == h)
    if e.acc = .wo ∨ 32 < (entValue s r.idx r.sub e.ty).length then abortTo s r 0x01000007
    else if 1 < mode ∨ (mode = 0 ∧ interval = 0) then abortTo s r outOfRange
    else if 32 ≤ s.edp.subs.length ∨ (r.sid ≠ 0 ∧ 8 ≤ (s.edp.subs.filter fun x => x.sid == r.sid).length) then abortTo s r 0x01000006
    else
      match dictRead s r.idx r.sub e.ty with
      | (t, none) => abortTo t r 0x04000003
      | (t, some v) =>
        let h := free.getD (Config.pickHandle s.free % free.length) 0
        let x : Subscription := { handle := h, sid := r.sid, ep := r.ep, node := r.node, idx := r.idx, sub := r.sub, mode, interval := max 1 interval,
                                  val := v, sent := s.tb, heard := s.tb }
        let t1 := { t with free := t.free + 1, edp := { t.edp with subs := t.edp.subs ++ [x] } }
        sendNote (answerTo t1 r 0x87 [BitVec.ofNat 8 h, 0#8, 0#8, 0#8]) x e.ty v

/-- SUBSCRIBE (R335). -/
def execEdpSubscribe (ep : Endpoint) (pdu : Octets) (s : State) : Host.Outcome State Fault Refusal := .next (edpRow 7 ep pdu s runSubscribe)

/-- The requester holds subscription `h`. -/
def ownsSub (r : Reply) (h : Nat) (x : Subscription) : Bool := x.handle == h && x.sid == r.sid && (r.sid != 0 || sameEndpoint x.ep r.ep)

def runUnsubscribe (s : State) (r : Reply) (_role : Nat) (body : Octets) : State :=
  let h := pduAt body 0
  if body.length ≠ 4 ∨ (body.drop 1).any (· != 0#8) then malformed s r
  else if !(s.edp.subs.any (ownsSub r h)) then abortTo s r outOfRange
  else
    answerTo { s with edp := { s.edp with subs := s.edp.subs.filter fun x => !ownsSub r h x } } r 0x88 [BitVec.ofNat 8 h, 0#8, 0#8, 0#8]

/-- UNSUBSCRIBE (R335). -/
def execEdpUnsubscribe (ep : Endpoint) (pdu : Octets) (s : State) : Host.Outcome State Fault Refusal := .next (edpRow 8 ep pdu s runUnsubscribe)

/-- NOTIFY (R335): a multiple of the interval has been passed, or the value sampled differs from the last one notified and the interval is
over. -/
def execEdpNotify (h : Nat) (s : State) : Host.Outcome State Fault Refusal :=
  match s.edp.subs.find? fun x => x.handle == h with
  | none => .next s
  | some x =>
    let i := x.interval * 1000000
    let due := if x.mode = 0 then decide (x.sent / i < s.tb / i) else decide (x.sent + i ≤ s.tb)
    match entInfo x.idx x.sub with
    | none => .next s
    | some e =>
      if !engineUp s ∨ !due then .next s
      else
        match dictRead s x.idx x.sub e.ty with
        | (t, none) => .next t
        | (t, some v) => .next (if x.mode = 1 ∧ v = x.val then t else sendNote t x e.ty v)

/-- SUBSCRIPTION_IDLE_EXPIRY (R335). -/
def execSubscriptionIdleExpiry (h : Nat) (s : State) : Host.Outcome State Fault Refusal :=
  .next { s with edp := { s.edp with subs := s.edp.subs.filter fun x => !(x.handle == h && x.sid == 0 && decide (x.heard + idleTime s ≤ s.tb)) } }

/-! ### Emergencies, heartbeat, the port (R336 to R338) -/

/-- A unit is retired or a memory degraded (R337). -/
def anyOut (s : State) : Bool :=
  s.facets.any (fun e => e.2.retired) || s.cores.any (fun e => e.2.i.run == .retired) || s.chans.any (fun e => e.2.failed) ||
  s.clusters.any (fun e => e.2.banks.any fun b => b.2.degr) || s.quads.any (fun e => e.2.degr)

/-- The state a heartbeat carries (R337). -/
def beatState (s : State) : Nat := if s.power.stage < 10 then 0 else if s.power.safe then 2 else if anyOut s then 3 else 1

/-- HEARTBEAT (R337): every period of 0x1103:01; 0 stops it. -/
def execEdpHeartbeat (s : State) : Host.Outcome State Fault Refusal :=
  let p := ent s 0x1103 1 * 1000000
  match s.active with
  | none => .next s
  | some w =>
    if !engineUp s ∨ p = 0 ∨ s.tb < s.edp.beat + p then .next s
    else
      let s1 := sendEmergencies s.emerg.length { s with edp := { s.edp with beat := s.tb } }
      .next (broadcast s1 0x61 ([BitVec.ofNat 8 (beatState s), BitVec.ofNat 8 w, 0#8, 0#8] ++ leOctets 8 s.tb))

/-- EMERGENCY (R336, R413). -/
def execEdpEmergency (s : State) : Host.Outcome State Fault Refusal := .next (if engineUp s then sendEmergency s else s)

/-- BUS_OFF_RECOVERY (R338): the port leaves bus-off, and the recovery is counted. -/
def execBusOffRecovery (s : State) : Host.Outcome State Fault Refusal :=
  .next { s with edp := { s.edp with recovered := s.edp.recovered + 1 } }

/-! ### Writes answered when a mode switch is made (R35) -/

/-- A pace write that waited is carried out or refused, and answered unless it began a switch of its own. -/
def paceLater (c : Nat) (s : State) (w : Nat × Option Reply) : State :=
  let x := paceRequest s c w.1 w.2
  match w.2 with
  | none => answered x
  | some r => if x.2 = none ∧ (getCluster x.1 c).sw.isSome then x.1 else writeResult x r

/-- MODE_SWITCH_RESUME (R35): the switch is made and its write answered; the writes that waited are then carried out in turn. -/
def execModeSwitchResume (c : Nat) (s : State) : Host.Outcome State Fault Refusal :=
  let x := getCluster s c
  match x.sw with
  | none => .next s
  | some v =>
    if switchReady s c then
      let s1 := switchMode s c v
      let s2 := match x.swAns with | none => s1 | some r => writeDone s1 r
      .next (x.sw2.foldl (paceLater c) s2)
    else .next s

end Sys2Proof.Machine
end

