-- ==== Sys2Proof/Machine/Tap.lean ====
section
/-! DEFINITION. The test access port: its instructions, the access register of the Loupe, the fuse register (R461 to R463, R469). -/

namespace Sys2Proof.Machine

/-! ### Instructions (R461, R462) -/

/-- The gate allows the instruction (R462). -/
def irAllowed (s : State) (i : TapIr) : Bool :=
  match i with
  | .idcode => true
  | .bypass => true
  | .fuse => loupeGate s == 2
  | _ => loupeGate s != 0

/-- The instruction is loaded; one the gate does not allow acts as BYPASS. -/
def loadIr (s : State) (i : TapIr) : State := { s with tap := { s.tap with ir := if irAllowed s i then i else .bypass } }

/-- TEST_LOGIC_RESET (R461, R462). -/
def execTestLogicReset (s : State) : Host.Outcome State Fault Refusal :=
  .next { s with tap := { s.tap with ir := .idcode, linked := false } }

/-- The identity of R461. -/
def idcode (p : Part) : Word :=
  (if p.b0 then 0xB0000000#32 else 0xA0000000#32) ||| (if p.lv256 then 0x00256000#32 else 0x00128000#32) ||| 0x000005AB#32

/-- IDCODE (R461). -/
def execTapIdcode (s : State) : Host.Outcome State Fault Refusal := .next { loadIr s .idcode with rdata := some (idcode s.part) }

/-- SAMPLE_PRELOAD (R461): `pins` are the levels captured, `load` the boundary register then held. -/
def execTapSamplePreload (pins load : List Bool) (s : State) : Host.Outcome State Fault Refusal :=
  let t := loadIr s .sample
  .next (if irAllowed s .sample then { t with tap := { t.tap with cap := pins, bsr := load } } else t)

/-- An instruction that drives the balls from the boundary register: the facets see their lanes as lost. -/
def driveBalls (s : State) (i : TapIr) : State :=
  let t := loadIr s i
  if irAllowed s i then (List.range (nFacets t)).foldl loseSignal t else t

/-- EXTEST (R461). -/
def execTapExtest (s : State) : Host.Outcome State Fault Refusal := .next (driveBalls s .extest)

/-- EXTEST_PULSE (R461). -/
def execTapExtestPulse (s : State) : Host.Outcome State Fault Refusal := .next (driveBalls s .extestPulse)

/-- EXTEST_TRAIN (R461). -/
def execTapExtestTrain (s : State) : Host.Outcome State Fault Refusal := .next (driveBalls s .extestTrain)

/-- HIGHZ (R461). -/
def execTapHighz (s : State) : Host.Outcome State Fault Refusal := .next (driveBalls s .highz)

/-- CLAMP (R461). -/
def execTapClamp (s : State) : Host.Outcome State Fault Refusal := .next (driveBalls s .clamp)

/-- LOUPE (R462): the first load after Test-Logic-Reset counts at 0x9000:03. -/
def execTapLoupe (s : State) : Host.Outcome State Fault Refusal :=
  let t := loadIr s .loupe
  .next (if irAllowed s .loupe && !s.tap.linked then bumpEnt { t with tap := { t.tap with linked := true } } 0x9000 3 else t)

/-- FUSE (R469). -/
def execTapFuse (s : State) : Host.Outcome State Fault Refusal := .next (loadIr s .fuse)

/-- BYPASS (R461). -/
def execTapBypass (s : State) : Host.Outcome State Fault Refusal := .next (loadIr s .bypass)

/-! ### The access register (R463) -/

/-- What Capture-DR shows of LOUPE: the status, and the read data. -/
def loupeCapture (s : State) : Nat × Word := (s.tap.status, s.tap.data)

/-- Update-DR of LOUPE: a busy access stays; one the gate refuses has status 2. -/
def loupeAsk (s : State) (a : Word) (wr : Option Word) : State :=
  if s.tap.ir ≠ .loupe ∨ s.tap.busy.isSome then s
  else if (if wr.isSome then loupeMayWrite s else loupeMayRead s) then
    { s with tap := { s.tap with status := 1, busy := some { addr := a, wr } } }
  else { s with tap := { s.tap with status := 2 } }

/-- LOUPE_READ (R463). -/
def execLoupeRead (addr : Word) (s : State) : Host.Outcome State Fault Refusal := .next (loupeAsk s addr none)

/-- LOUPE_WRITE (R463). -/
def execLoupeWrite (addr v : Word) (s : State) : Host.Outcome State Fault Refusal := .next (loupeAsk s addr (some v))

/-- How an access ends: it waits, it fails, it is done with its data. -/
inductive LoupeEnd where
  | waits
  | fails
  | done (v : Word)
  deriving DecidableEq, Repr

/-- The half of the 64-bit word an address names. -/
def halfOf (w : BitVec 64) (a : Nat) : Word := (if a % 8 = 0 then w else w >>> 32).setWidth 32

/-- A read of memory in the map of warden `w`. -/
def loupeMemRead (s : State) (w a : Nat) : State × LoupeEnd :=
  let g := globalOf w a
  let r :=
    match placeOf (g / 8) with
    | .beam _ => engineCheck s ((g - beamBase) / 64) (g % 64 / 8)
    | _ => checkWord (endLoanAt s (g / 8)) (g / 8)
  (r.1, if r.2 then .fails else .done (halfOf (anyWord r.1 (g / 8)) g))

/-- A write of memory in the map of warden `w`: through an alias it sets or clears bits (R161); ROM and code flash take none. -/
def loupeMemWrite (s : State) (w a : Nat) (v : Word) : State × LoupeEnd :=
  let g := globalOf w a
  let mask : Byte := if g % 8 = 0 then 0x0F#8 else 0xF0#8
  let data : BitVec 64 := if g % 8 = 0 then v.setWidth 64 else v.setWidth 64 <<< 32
  match regionOf s w a with
  | .flash => (s, .fails)
  | .rom => (s, .fails)
  | .setAlias _ => (aliasWord s (g / 8) true data mask, .done 0)
  | .clrAlias _ => (aliasWord s (g / 8) false data mask, .done 0)
  | .beam => (windowStore s ((g - beamBase) / 64) (g % 64 / 4) v 0xFFFFFFFF#32, .done 0)
  | _ => (memWrite (forceMerge (endLoanAt s (g / 8)) (g / 8)) (g / 8) data mask, .done 0)

/-- The access is made (R463): in the map of the active warden, rights and ownership not checked. -/
def loupePerform (s : State) (x : LoupeAcc) : State × LoupeEnd :=
  let a := x.addr.toNat
  let w := s.active.getD 128
  if a % 4 ≠ 0 then (s, .fails)
  else
    match regionOf s w a, x.wr with
    | .none, _ => (s, .fails)
    | .dev _, none => (match devRead s .loupe a with | none => (s, .waits) | some r => (r.1, .done r.2))
    | .dev _, some v => (let r := devWrite s .loupe a v; (r.1, if r.2 then .done 0 else .fails))
    | _, none => loupeMemRead s w a
    | _, some v => loupeMemWrite s w a v

/-- LOUPE_ACCESS_COMPLETION (R463). The data of an access that reads nothing is a free value (log entry 30). -/
def execLoupeAccessCompletion (s : State) : Host.Outcome State Fault Refusal :=
  match s.tap.busy with
  | none => .next s
  | some x =>
    let r := loupePerform s x
    let t := r.1
    let open_ (st : Nat) : State :=
      { t with free := t.free + 1, tap := { t.tap with status := st, data := Config.loupeData t.free, busy := none } }
    match r.2 with
    | .waits => .next s
    | .fails => .next (open_ 3)
    | .done v => .next (if x.wr.isSome then open_ 0 else { t with tap := { t.tap with status := 0, data := v, busy := none } })

/-! ### Fuses (R469) -/

/-- What Capture-DR shows of FUSE. -/
def fuseCapture (s : State) : Nat := s.tap.fsel % 512 + boolBit (s.power.fuses.getLsbD s.tap.fsel) 9 + boolBit s.tap.ferr 10

/-- The fuse may be programmed. -/
def fuseAllowed (s : State) (i : Nat) : Bool :=
  loupeGate s == 2 && (s.power.safe || holdStrap s) && decide (i ≤ 256) && (i == 256 || s.power.loaded.setWidth 256 == 0#256)

/-- FUSE_PROGRAM (R469). -/
def execFuseProgram (i : Nat) (s : State) : Host.Outcome State Fault Refusal :=
  if s.tap.ir ≠ .fuse then .next s
  else if fuseAllowed s i then
    .next { s with power := { s.power with fuses := s.power.fuses ||| (1#257 <<< i) }, tap := { s.tap with fsel := i, ferr := false } }
  else .next { s with tap := { s.tap with fsel := i, ferr := true } }

end Sys2Proof.Machine
end

