-- ==== Sys2Proof/Machine/Triggers.lean ====
section
/-! DEFINITION. The trigger commands of the units (R87 to R109): core n issues, as its next step, a bundle whose one unguarded move carries
the immediate `a` to the trigger socket (DESIGN CHOICE, log entry 24). -/

namespace Sys2Proof.Machine

/-- The one-move bundle of a trigger command at the core's next offset. -/
def soloBundle (s : State) (n code : Nat) (a : Word) : Bund :=
  { off := (getCore s n).i.pc.toNat, size := 8, w0 := 0, w1 := 0, rpt := false, rint := false, rcnt := 0,
    ms := [{ slot := 0, second := false, inv := false, ksel := 0, src := .imm a, dst := code }] }

/-- The command's step, where the core can issue a program bundle that is neither a delay bundle nor inside a repeat. -/
def soloTrigger (s : State) (n code : Nat) (a : Word) : State :=
  let k := getCore s n
  if mayIssue s n && k.i.delay.isNone && k.i.rep.isNone then issuePlan s n (planMoves s n [soloBundle s n code a] none) else s

/-- The block of an alu copy (R87). -/
def aluBase : AluUnit → Nat
  | .alu0 => 0x200
  | .alu1 => 0x210

/-- ALU_ADD (R87): out := a + b. -/
def execAluAdd (n : Nat) (u : AluUnit) (a : Word) (s : State) : Host.Outcome State Fault Refusal :=
  .next (soloTrigger s n (aluBase u + 3) a)

/-- ALU_SUB (R87): out := a - b. -/
def execAluSub (n : Nat) (u : AluUnit) (a : Word) (s : State) : Host.Outcome State Fault Refusal :=
  .next (soloTrigger s n (aluBase u + 4) a)

/-- ALU_AND (R87): out := a AND b. -/
def execAluAnd (n : Nat) (u : AluUnit) (a : Word) (s : State) : Host.Outcome State Fault Refusal :=
  .next (soloTrigger s n (aluBase u + 5) a)

/-- ALU_OR (R87): out := a OR b. -/
def execAluOr (n : Nat) (u : AluUnit) (a : Word) (s : State) : Host.Outcome State Fault Refusal :=
  .next (soloTrigger s n (aluBase u + 6) a)

/-- ALU_XOR (R87): out := a XOR b. -/
def execAluXor (n : Nat) (u : AluUnit) (a : Word) (s : State) : Host.Outcome State Fault Refusal :=
  .next (soloTrigger s n (aluBase u + 7) a)

/-- ALU_ANDN (R87): out := a AND NOT b. -/
def execAluAndn (n : Nat) (u : AluUnit) (a : Word) (s : State) : Host.Outcome State Fault Refusal :=
  .next (soloTrigger s n (aluBase u + 8) a)

/-- ALU_SHL (R87): logical shift left. -/
def execAluShl (n : Nat) (u : AluUnit) (a : Word) (s : State) : Host.Outcome State Fault Refusal :=
  .next (soloTrigger s n (aluBase u + 9) a)

/-- ALU_SHR (R87): logical shift right. -/
def execAluShr (n : Nat) (u : AluUnit) (a : Word) (s : State) : Host.Outcome State Fault Refusal :=
  .next (soloTrigger s n (aluBase u + 10) a)

/-- ALU_SAR (R87): arithmetic shift right. -/
def execAluSar (n : Nat) (u : AluUnit) (a : Word) (s : State) : Host.Outcome State Fault Refusal :=
  .next (soloTrigger s n (aluBase u + 11) a)

/-- ALU_ROTL (R87): rotate left. -/
def execAluRotl (n : Nat) (u : AluUnit) (a : Word) (s : State) : Host.Outcome State Fault Refusal :=
  .next (soloTrigger s n (aluBase u + 12) a)

/-- ALU_EQ (R87, R88): equality, also into b[kd]. -/
def execAluEq (n : Nat) (u : AluUnit) (a : Word) (s : State) : Host.Outcome State Fault Refusal :=
  .next (soloTrigger s n (aluBase u + 13) a)

/-- ALU_LT (R87, R88): signed less-than, also into b[kd]. -/
def execAluLt (n : Nat) (u : AluUnit) (a : Word) (s : State) : Host.Outcome State Fault Refusal :=
  .next (soloTrigger s n (aluBase u + 14) a)

/-- ALU_LTU (R87, R88): unsigned less-than, also into b[kd]. -/
def execAluLtu (n : Nat) (u : AluUnit) (a : Word) (s : State) : Host.Outcome State Fault Refusal :=
  .next (soloTrigger s n (aluBase u + 15) a)

/-- MUL_MULU (R89). -/
def execMulMulu (n : Nat) (a : Word) (s : State) : Host.Outcome State Fault Refusal :=
  .next (soloTrigger s n 0x221 a)

/-- MUL_MULS (R89). -/
def execMulMuls (n : Nat) (a : Word) (s : State) : Host.Outcome State Fault Refusal :=
  .next (soloTrigger s n 0x222 a)

/-- MUL_MULSU (R89). -/
def execMulMulsu (n : Nat) (a : Word) (s : State) : Host.Outcome State Fault Refusal :=
  .next (soloTrigger s n 0x223 a)

/-- DIV_QUO (R90). -/
def execDivQuo (n : Nat) (a : Word) (s : State) : Host.Outcome State Fault Refusal :=
  .next (soloTrigger s n 0x231 a)

/-- DIV_QUOS (R90). -/
def execDivQuos (n : Nat) (a : Word) (s : State) : Host.Outcome State Fault Refusal :=
  .next (soloTrigger s n 0x232 a)

/-- LSU_LD8U (R92, R93). -/
def execLsuLd8u (n : Nat) (a : Word) (s : State) : Host.Outcome State Fault Refusal :=
  .next (soloTrigger s n 0x242 a)

/-- LSU_LD8S (R92, R93). -/
def execLsuLd8s (n : Nat) (a : Word) (s : State) : Host.Outcome State Fault Refusal :=
  .next (soloTrigger s n 0x243 a)

/-- LSU_LD16U (R92, R93). -/
def execLsuLd16u (n : Nat) (a : Word) (s : State) : Host.Outcome State Fault Refusal :=
  .next (soloTrigger s n 0x244 a)

/-- LSU_LD16S (R92, R93). -/
def execLsuLd16s (n : Nat) (a : Word) (s : State) : Host.Outcome State Fault Refusal :=
  .next (soloTrigger s n 0x245 a)

/-- LSU_LD32 (R92, R93). -/
def execLsuLd32 (n : Nat) (a : Word) (s : State) : Host.Outcome State Fault Refusal :=
  .next (soloTrigger s n 0x246 a)

/-- LSU_ST8 (R92, R154). -/
def execLsuSt8 (n : Nat) (a : Word) (s : State) : Host.Outcome State Fault Refusal :=
  .next (soloTrigger s n 0x247 a)

/-- LSU_ST16 (R92, R154). -/
def execLsuSt16 (n : Nat) (a : Word) (s : State) : Host.Outcome State Fault Refusal :=
  .next (soloTrigger s n 0x248 a)

/-- LSU_ST32 (R92, R154). -/
def execLsuSt32 (n : Nat) (a : Word) (s : State) : Host.Outcome State Fault Refusal :=
  .next (soloTrigger s n 0x249 a)

/-- LSU_XCHG32 (R92, R93). -/
def execLsuXchg32 (n : Nat) (a : Word) (s : State) : Host.Outcome State Fault Refusal :=
  .next (soloTrigger s n 0x24A a)

/-- BITU_TST (R96). -/
def execBituTst (n : Nat) (a : Word) (s : State) : Host.Outcome State Fault Refusal :=
  .next (soloTrigger s n 0x253 a)

/-- BITU_SET (R96). -/
def execBituSet (n : Nat) (a : Word) (s : State) : Host.Outcome State Fault Refusal :=
  .next (soloTrigger s n 0x254 a)

/-- BITU_CLR (R96). -/
def execBituClr (n : Nat) (a : Word) (s : State) : Host.Outcome State Fault Refusal :=
  .next (soloTrigger s n 0x255 a)

/-- BITU_TGL (R96). -/
def execBituTgl (n : Nat) (a : Word) (s : State) : Host.Outcome State Fault Refusal :=
  .next (soloTrigger s n 0x256 a)

/-- BITU_TAS (R96, R97). -/
def execBituTas (n : Nat) (a : Word) (s : State) : Host.Outcome State Fault Refusal :=
  .next (soloTrigger s n 0x257 a)

/-- BITU_AND (R96). -/
def execBituAnd (n : Nat) (a : Word) (s : State) : Host.Outcome State Fault Refusal :=
  .next (soloTrigger s n 0x258 a)

/-- BITU_OR (R96). -/
def execBituOr (n : Nat) (a : Word) (s : State) : Host.Outcome State Fault Refusal :=
  .next (soloTrigger s n 0x259 a)

/-- BITU_XOR (R96). -/
def execBituXor (n : Nat) (a : Word) (s : State) : Host.Outcome State Fault Refusal :=
  .next (soloTrigger s n 0x25A a)

/-- BITU_ANDN (R96). -/
def execBituAndn (n : Nat) (a : Word) (s : State) : Host.Outcome State Fault Refusal :=
  .next (soloTrigger s n 0x25B a)

/-- CTL_JMP (R98, R99, R121). -/
def execCtlJmp (n : Nat) (a : Word) (s : State) : Host.Outcome State Fault Refusal :=
  .next (soloTrigger s n 0x261 a)

/-- CTL_JR (R98, R99, R121). -/
def execCtlJr (n : Nat) (a : Word) (s : State) : Host.Outcome State Fault Refusal :=
  .next (soloTrigger s n 0x262 a)

/-- CTL_CALL (R98, R99, R121). -/
def execCtlCall (n : Nat) (a : Word) (s : State) : Host.Outcome State Fault Refusal :=
  .next (soloTrigger s n 0x263 a)

/-- CTL_CALLR (R98, R99, R121). -/
def execCtlCallr (n : Nat) (a : Word) (s : State) : Host.Outcome State Fault Refusal :=
  .next (soloTrigger s n 0x264 a)

/-- CTL_RET (R98, R99, R121). -/
def execCtlRet (n : Nat) (a : Word) (s : State) : Host.Outcome State Fault Refusal :=
  .next (soloTrigger s n 0x265 a)

/-- CTL_ERET (R100, R197). -/
def execCtlEret (n : Nat) (a : Word) (s : State) : Host.Outcome State Fault Refusal :=
  .next (soloTrigger s n 0x266 a)

/-- CTL_TRAP (R100, R189). -/
def execCtlTrap (n : Nat) (a : Word) (s : State) : Host.Outcome State Fault Refusal :=
  .next (soloTrigger s n 0x267 a)

/-- CTL_LOOP (R130, R131). -/
def execCtlLoop (n : Nat) (a : Word) (s : State) : Host.Outcome State Fault Refusal :=
  .next (soloTrigger s n 0x268 a)

/-- CTL_FLUSH (R101, R125). -/
def execCtlFlush (n : Nat) (a : Word) (s : State) : Host.Outcome State Fault Refusal :=
  .next (soloTrigger s n 0x269 a)

/-- CTL_FENCE (R101, R160). -/
def execCtlFence (n : Nat) (a : Word) (s : State) : Host.Outcome State Fault Refusal :=
  .next (soloTrigger s n 0x26A a)

/-- CTL_HUSH (R200). -/
def execCtlHush (n : Nat) (a : Word) (s : State) : Host.Outcome State Fault Refusal :=
  .next (soloTrigger s n 0x26B a)

/-- CTL_SLEEP (R100). -/
def execCtlSleep (n : Nat) (a : Word) (s : State) : Host.Outcome State Fault Refusal :=
  .next (soloTrigger s n 0x26C a)

/-- CTL_HALT (R100). -/
def execCtlHalt (n : Nat) (a : Word) (s : State) : Host.Outcome State Fault Refusal :=
  .next (soloTrigger s n 0x26D a)

/-- COPY_MOVE (R102, R104). -/
def execCopyMove (n : Nat) (a : Word) (s : State) : Host.Outcome State Fault Refusal :=
  .next (soloTrigger s n 0x274 a)

/-- COPY_FILL (R102, R104). -/
def execCopyFill (n : Nat) (a : Word) (s : State) : Host.Outcome State Fault Refusal :=
  .next (soloTrigger s n 0x275 a)

/-- COPY_CRC (R102, R104). -/
def execCopyCrc (n : Nat) (a : Word) (s : State) : Host.Outcome State Fault Refusal :=
  .next (soloTrigger s n 0x276 a)

/-- COPY_PARK (R105). -/
def execCopyPark (n : Nat) (a : Word) (s : State) : Host.Outcome State Fault Refusal :=
  .next (soloTrigger s n 0x277 a)

/-- COPY_RESUME (R105). -/
def execCopyResume (n : Nat) (a : Word) (s : State) : Host.Outcome State Fault Refusal :=
  .next (soloTrigger s n 0x278 a)

/-- BEAM_FIND (R107, R215). -/
def execBeamFind (n : Nat) (a : Word) (s : State) : Host.Outcome State Fault Refusal :=
  .next (soloTrigger s n 0x283 a)

/-- BEAM_LOCK (R107, R216). -/
def execBeamLock (n : Nat) (a : Word) (s : State) : Host.Outcome State Fault Refusal :=
  .next (soloTrigger s n 0x284 a)

/-- BEAM_COMMIT (R107, R217). -/
def execBeamCommit (n : Nat) (a : Word) (s : State) : Host.Outcome State Fault Refusal :=
  .next (soloTrigger s n 0x285 a)

/-- BEAM_DROP (R107, R217). -/
def execBeamDrop (n : Nat) (a : Word) (s : State) : Host.Outcome State Fault Refusal :=
  .next (soloTrigger s n 0x286 a)

/-- BEAM_NEW (R107, R215). -/
def execBeamNew (n : Nat) (a : Word) (s : State) : Host.Outcome State Fault Refusal :=
  .next (soloTrigger s n 0x287 a)

/-- FPU_ADD (R108, R109). -/
def execFpuAdd (n : Nat) (a : Word) (s : State) : Host.Outcome State Fault Refusal :=
  .next (soloTrigger s n 0x294 a)

/-- FPU_SUB (R108, R109). -/
def execFpuSub (n : Nat) (a : Word) (s : State) : Host.Outcome State Fault Refusal :=
  .next (soloTrigger s n 0x295 a)

/-- FPU_MUL (R108, R109). -/
def execFpuMul (n : Nat) (a : Word) (s : State) : Host.Outcome State Fault Refusal :=
  .next (soloTrigger s n 0x296 a)

/-- FPU_FMA (R108, R109). -/
def execFpuFma (n : Nat) (a : Word) (s : State) : Host.Outcome State Fault Refusal :=
  .next (soloTrigger s n 0x297 a)

/-- FPU_DIV (R108, R109). -/
def execFpuDiv (n : Nat) (a : Word) (s : State) : Host.Outcome State Fault Refusal :=
  .next (soloTrigger s n 0x298 a)

/-- FPU_SQRT (R108, R109). -/
def execFpuSqrt (n : Nat) (a : Word) (s : State) : Host.Outcome State Fault Refusal :=
  .next (soloTrigger s n 0x299 a)

/-- FPU_EQ (R108, R109). -/
def execFpuEq (n : Nat) (a : Word) (s : State) : Host.Outcome State Fault Refusal :=
  .next (soloTrigger s n 0x29A a)

/-- FPU_LT (R108, R109). -/
def execFpuLt (n : Nat) (a : Word) (s : State) : Host.Outcome State Fault Refusal :=
  .next (soloTrigger s n 0x29B a)

/-- FPU_LE (R108, R109). -/
def execFpuLe (n : Nat) (a : Word) (s : State) : Host.Outcome State Fault Refusal :=
  .next (soloTrigger s n 0x29C a)

/-- FPU_ITOF (R108, R109). -/
def execFpuItof (n : Nat) (a : Word) (s : State) : Host.Outcome State Fault Refusal :=
  .next (soloTrigger s n 0x29D a)

/-- FPU_UTOF (R108, R109). -/
def execFpuUtof (n : Nat) (a : Word) (s : State) : Host.Outcome State Fault Refusal :=
  .next (soloTrigger s n 0x29E a)

/-- FPU_FTOI (R108, R109). -/
def execFpuFtoi (n : Nat) (a : Word) (s : State) : Host.Outcome State Fault Refusal :=
  .next (soloTrigger s n 0x29F a)

end Sys2Proof.Machine
end

