-- ==== Sys2Proof/Machine/Dispatch.lean ====
section
/-! DEFINITION. One arm per command: a direct call of its meaning. -/

namespace Sys2Proof.Machine

def exec (i : Instr) (s : State) : Host.Outcome State Fault Refusal :=
  match i with
  | .bundleIssue n => Sys2Proof.Machine.execBundleIssue n s
  | .fillBundle n => Sys2Proof.Machine.execFillBundle n s
  | .repeatIteration n => Sys2Proof.Machine.execRepeatIteration n s
  | .breakBundle n => Sys2Proof.Machine.execBreakBundle n s
  | .exceptionEntry n => Sys2Proof.Machine.execExceptionEntry n s
  | .aluAdd n u a => Sys2Proof.Machine.execAluAdd n u a s
  | .aluSub n u a => Sys2Proof.Machine.execAluSub n u a s
  | .aluAnd n u a => Sys2Proof.Machine.execAluAnd n u a s
  | .aluOr n u a => Sys2Proof.Machine.execAluOr n u a s
  | .aluXor n u a => Sys2Proof.Machine.execAluXor n u a s
  | .aluAndn n u a => Sys2Proof.Machine.execAluAndn n u a s
  | .aluShl n u a => Sys2Proof.Machine.execAluShl n u a s
  | .aluShr n u a => Sys2Proof.Machine.execAluShr n u a s
  | .aluSar n u a => Sys2Proof.Machine.execAluSar n u a s
  | .aluRotl n u a => Sys2Proof.Machine.execAluRotl n u a s
  | .aluEq n u a => Sys2Proof.Machine.execAluEq n u a s
  | .aluLt n u a => Sys2Proof.Machine.execAluLt n u a s
  | .aluLtu n u a => Sys2Proof.Machine.execAluLtu n u a s
  | .mulMulu n a => Sys2Proof.Machine.execMulMulu n a s
  | .mulMuls n a => Sys2Proof.Machine.execMulMuls n a s
  | .mulMulsu n a => Sys2Proof.Machine.execMulMulsu n a s
  | .mulProductDelivery n => Sys2Proof.Machine.execMulProductDelivery n s
  | .divQuo n a => Sys2Proof.Machine.execDivQuo n a s
  | .divQuos n a => Sys2Proof.Machine.execDivQuos n a s
  | .divDelivery n => Sys2Proof.Machine.execDivDelivery n s
  | .lsuLd8u n a => Sys2Proof.Machine.execLsuLd8u n a s
  | .lsuLd8s n a => Sys2Proof.Machine.execLsuLd8s n a s
  | .lsuLd16u n a => Sys2Proof.Machine.execLsuLd16u n a s
  | .lsuLd16s n a => Sys2Proof.Machine.execLsuLd16s n a s
  | .lsuLd32 n a => Sys2Proof.Machine.execLsuLd32 n a s
  | .lsuSt8 n a => Sys2Proof.Machine.execLsuSt8 n a s
  | .lsuSt16 n a => Sys2Proof.Machine.execLsuSt16 n a s
  | .lsuSt32 n a => Sys2Proof.Machine.execLsuSt32 n a s
  | .lsuXchg32 n a => Sys2Proof.Machine.execLsuXchg32 n a s
  | .loadDelivery n j => Sys2Proof.Machine.execLoadDelivery n j s
  | .bituTst n a => Sys2Proof.Machine.execBituTst n a s
  | .bituSet n a => Sys2Proof.Machine.execBituSet n a s
  | .bituClr n a => Sys2Proof.Machine.execBituClr n a s
  | .bituTgl n a => Sys2Proof.Machine.execBituTgl n a s
  | .bituTas n a => Sys2Proof.Machine.execBituTas n a s
  | .bituAnd n a => Sys2Proof.Machine.execBituAnd n a s
  | .bituOr n a => Sys2Proof.Machine.execBituOr n a s
  | .bituXor n a => Sys2Proof.Machine.execBituXor n a s
  | .bituAndn n a => Sys2Proof.Machine.execBituAndn n a s
  | .ctlJmp n a => Sys2Proof.Machine.execCtlJmp n a s
  | .ctlJr n a => Sys2Proof.Machine.execCtlJr n a s
  | .ctlCall n a => Sys2Proof.Machine.execCtlCall n a s
  | .ctlCallr n a => Sys2Proof.Machine.execCtlCallr n a s
  | .ctlRet n a => Sys2Proof.Machine.execCtlRet n a s
  | .ctlEret n a => Sys2Proof.Machine.execCtlEret n a s
  | .ctlTrap n a => Sys2Proof.Machine.execCtlTrap n a s
  | .ctlLoop n a => Sys2Proof.Machine.execCtlLoop n a s
  | .ctlFlush n a => Sys2Proof.Machine.execCtlFlush n a s
  | .ctlFence n a => Sys2Proof.Machine.execCtlFence n a s
  | .ctlHush n a => Sys2Proof.Machine.execCtlHush n a s
  | .hushWindowClose n => Sys2Proof.Machine.execHushWindowClose n s
  | .ctlSleep n a => Sys2Proof.Machine.execCtlSleep n a s
  | .sleepWake n => Sys2Proof.Machine.execSleepWake n s
  | .ctlHalt n a => Sys2Proof.Machine.execCtlHalt n a s
  | .copyMove n a => Sys2Proof.Machine.execCopyMove n a s
  | .copyFill n a => Sys2Proof.Machine.execCopyFill n a s
  | .copyCrc n a => Sys2Proof.Machine.execCopyCrc n a s
  | .copyPark n a => Sys2Proof.Machine.execCopyPark n a s
  | .copyResume n a => Sys2Proof.Machine.execCopyResume n a s
  | .copyCompletion n => Sys2Proof.Machine.execCopyCompletion n s
  | .copyDataErrorStop n => Sys2Proof.Machine.execCopyDataErrorStop n s
  | .remoteCopyRefusal n => Sys2Proof.Machine.execRemoteCopyRefusal n s
  | .beamFind n a => Sys2Proof.Machine.execBeamFind n a s
  | .beamLock n a => Sys2Proof.Machine.execBeamLock n a s
  | .beamCommit n a => Sys2Proof.Machine.execBeamCommit n a s
  | .beamDrop n a => Sys2Proof.Machine.execBeamDrop n a s
  | .beamNew n a => Sys2Proof.Machine.execBeamNew n a s
  | .beamOperationDelivery n => Sys2Proof.Machine.execBeamOperationDelivery n s
  | .fpuAdd n a => Sys2Proof.Machine.execFpuAdd n a s
  | .fpuSub n a => Sys2Proof.Machine.execFpuSub n a s
  | .fpuMul n a => Sys2Proof.Machine.execFpuMul n a s
  | .fpuFma n a => Sys2Proof.Machine.execFpuFma n a s
  | .fpuDiv n a => Sys2Proof.Machine.execFpuDiv n a s
  | .fpuSqrt n a => Sys2Proof.Machine.execFpuSqrt n a s
  | .fpuEq n a => Sys2Proof.Machine.execFpuEq n a s
  | .fpuLt n a => Sys2Proof.Machine.execFpuLt n a s
  | .fpuLe n a => Sys2Proof.Machine.execFpuLe n a s
  | .fpuItof n a => Sys2Proof.Machine.execFpuItof n a s
  | .fpuUtof n a => Sys2Proof.Machine.execFpuUtof n a s
  | .fpuFtoi n a => Sys2Proof.Machine.execFpuFtoi n a s
  | .fpuDelivery n => Sys2Proof.Machine.execFpuDelivery n s
  | .fetchLineDelivery n => Sys2Proof.Machine.execFetchLineDelivery n s
  | .storeDrain n => Sys2Proof.Machine.execStoreDrain n s
  | .deviceAccessCompletion n => Sys2Proof.Machine.execDeviceAccessCompletion n s
  | .mergeWriteOut c k => Sys2Proof.Machine.execMergeWriteOut c k s
  | .bankownWrite m c k v => Sys2Proof.Machine.execBankownWrite m c k v s
  | .handoverCompletion c k => Sys2Proof.Machine.execHandoverCompletion c k s
  | .bankcfgWrite m c k v => Sys2Proof.Machine.execBankcfgWrite m c k v s
  | .memoryFill => Sys2Proof.Machine.execMemoryFill s
  | .scrubWord m w => Sys2Proof.Machine.execScrubWord m w s
  | .scrubPeriodEnd => Sys2Proof.Machine.execScrubPeriodEnd s
  | .correctionHistoryExpiry m => Sys2Proof.Machine.execCorrectionHistoryExpiry m s
  | .loanStart c k => Sys2Proof.Machine.execLoanStart c k s
  | .loanReturn c k bad => Sys2Proof.Machine.execLoanReturn c k bad s
  | .evraiseWrite n v => Sys2Proof.Machine.execEvraiseWrite n v s
  | .eventDelivery src => Sys2Proof.Machine.execEventDelivery src s
  | .routeWrite src v => Sys2Proof.Machine.execRouteWrite src v s
  | .watchdogFirstExpiry n => Sys2Proof.Machine.execWatchdogFirstExpiry n s
  | .watchdogSecondExpiry n => Sys2Proof.Machine.execWatchdogSecondExpiry n s
  | .watchdogKick n v => Sys2Proof.Machine.execWatchdogKick n v s
  | .skvalRead n => Sys2Proof.Machine.execSkvalRead n s
  | .skvalWrite n v => Sys2Proof.Machine.execSkvalWrite n v s
  | .registerWrite m dst => Sys2Proof.Machine.execRegisterWrite m dst s
  | .paceWrite c v => Sys2Proof.Machine.execPaceWrite c v s
  | .modeSwitchResume c => Sys2Proof.Machine.execModeSwitchResume c s
  | .arrivalLookup p f => Sys2Proof.Machine.execArrivalLookup p f s
  | .beamWindowStore n addr v => Sys2Proof.Machine.execBeamWindowStore n addr v s
  | .beamSelectorWrite v => Sys2Proof.Machine.execBeamSelectorWrite v s
  | .beamWindowAccess sub wr => Sys2Proof.Machine.execBeamWindowAccess sub wr s
  | .modeWrite p v => Sys2Proof.Machine.execModeWrite p v s
  | .roleWrite p v => Sys2Proof.Machine.execRoleWrite p v s
  | .exposureTableWrite p t => Sys2Proof.Machine.execExposureTableWrite p t s
  | .cycleBoundary p => Sys2Proof.Machine.execCycleBoundary p s
  | .preparationInstant p => Sys2Proof.Machine.execPreparationInstant p s
  | .slotOpening p j => Sys2Proof.Machine.execSlotOpening p j s
  | .unscheduledFrameStart p => Sys2Proof.Machine.execUnscheduledFrameStart p s
  | .retryAttempt p => Sys2Proof.Machine.execRetryAttempt p s
  | .transmitCompletion p => Sys2Proof.Machine.execTransmitCompletion p s
  | .transmitDataError p => Sys2Proof.Machine.execTransmitDataError p s
  | .frameReception p f => Sys2Proof.Machine.execFrameReception p f s
  | .ackReception p slot status seq => Sys2Proof.Machine.execAckReception p slot status seq s
  | .ackDeadline p => Sys2Proof.Machine.execAckDeadline p s
  | .trnProbe p => Sys2Proof.Machine.execTrnProbe p s
  | .trnProbeReception p pos ts => Sys2Proof.Machine.execTrnProbeReception p pos ts s
  | .trnEchoReception p pos sent arrived => Sys2Proof.Machine.execTrnEchoReception p pos sent arrived s
  | .trnReadyReception p d => Sys2Proof.Machine.execTrnReadyReception p d s
  | .trainingTimeout p => Sys2Proof.Machine.execTrainingTimeout p s
  | .cycReception p cyc ts arrived => Sys2Proof.Machine.execCycReception p cyc ts arrived s
  | .lossOfSynchronisation p => Sys2Proof.Machine.execLossOfSynchronisation p s
  | .lossOfSignal p => Sys2Proof.Machine.execLossOfSignal p s
  | .ethernetLinkUp p => Sys2Proof.Machine.execEthernetLinkUp p s
  | .txpostWrite p lc v => Sys2Proof.Machine.execTxpostWrite p lc v s
  | .rxfreeWrite p v => Sys2Proof.Machine.execRxfreeWrite p v s
  | .txdoneRead p lc => Sys2Proof.Machine.execTxdoneRead p lc s
  | .txts2Read p => Sys2Proof.Machine.execTxts2Read p s
  | .rqcfgWrite n v => Sys2Proof.Machine.execRqcfgWrite n v s
  | .rxPost p => Sys2Proof.Machine.execRxPost p s
  | .ringReload p => Sys2Proof.Machine.execRingReload p s
  | .errorWindowEnd p => Sys2Proof.Machine.execErrorWindowEnd p s
  | .signalLossTimeout p => Sys2Proof.Machine.execSignalLossTimeout p s
  | .coreFault n why => Sys2Proof.Machine.execCoreFault n why s
  | .coreFaultDecision n => Sys2Proof.Machine.execCoreFaultDecision n s
  | .retirementRequest n v => Sys2Proof.Machine.execRetirementRequest n v s
  | .wardenFault w why pass => Sys2Proof.Machine.execWardenFault w why pass s
  | .facetRequalification v => Sys2Proof.Machine.execFacetRequalification v s
  | .requalificationEnd locked errors => Sys2Proof.Machine.execRequalificationEnd locked errors s
  | .coreRequalification v pass => Sys2Proof.Machine.execCoreRequalification v pass s
  | .channelRequalification v pass => Sys2Proof.Machine.execChannelRequalification v pass s
  | .fabricPacketHop hop vc e => Sys2Proof.Machine.execFabricPacketHop hop vc e s
  | .remoteTimeout n copy => Sys2Proof.Machine.execRemoteTimeout n copy s
  | .rtxpostWrite n v => Sys2Proof.Machine.execRtxpostWrite n v s
  | .rtxdoneRead n => Sys2Proof.Machine.execRtxdoneRead n s
  | .preQueueDrain p => Sys2Proof.Machine.execPreQueueDrain p s
  | .reflexRequest p => Sys2Proof.Machine.execReflexRequest p s
  | .disableFacet p => Sys2Proof.Machine.execDisableFacet p s
  | .killBeam b => Sys2Proof.Machine.execKillBeam b s
  | .quiesceCluster c => Sys2Proof.Machine.execQuiesceCluster c s
  | .wardenDisableFacet v => Sys2Proof.Machine.execWardenDisableFacet v s
  | .wardenKillBeam v => Sys2Proof.Machine.execWardenKillBeam v s
  | .wardenQuiesceCluster v => Sys2Proof.Machine.execWardenQuiesceCluster v s
  | .releaseQuiesce v => Sys2Proof.Machine.execReleaseQuiesce v s
  | .managementKeyWrite key => Sys2Proof.Machine.execManagementKeyWrite key s
  | .channelConversion n code => Sys2Proof.Machine.execChannelConversion n code s
  | .loopBoundary n => Sys2Proof.Machine.execLoopBoundary n s
  | .dacUpdate n => Sys2Proof.Machine.execDacUpdate n s
  | .openLoopDetection n isOpen => Sys2Proof.Machine.execOpenLoopDetection n isOpen s
  | .selfCheck n refOk backOk parity => Sys2Proof.Machine.execSelfCheck n refOk backOk parity s
  | .osafeForce n v => Sys2Proof.Machine.execOsafeForce n v s
  | .safeRelease n => Sys2Proof.Machine.execSafeRelease n s
  | .icfgWrite n v => Sys2Proof.Machine.execIcfgWrite n v s
  | .scfgWrite n v => Sys2Proof.Machine.execScfgWrite n v s
  | .utxWrite n v => Sys2Proof.Machine.execUtxWrite n v s
  | .rs485TransmissionEnd n => Sys2Proof.Machine.execRs485TransmissionEnd n s
  | .rs485CharacterReception n d perr ferr => Sys2Proof.Machine.execRs485CharacterReception n d perr ferr s
  | .urxRead n => Sys2Proof.Machine.execUrxRead n s
  | .edpRead ep pdu => Sys2Proof.Machine.execEdpRead ep pdu s
  | .edpWrite ep pdu => Sys2Proof.Machine.execEdpWrite ep pdu s
  | .edpBlockRead ep pdu => Sys2Proof.Machine.execEdpBlockRead ep pdu s
  | .edpBlockWrite ep pdu => Sys2Proof.Machine.execEdpBlockWrite ep pdu s
  | .edpStore ep pdu => Sys2Proof.Machine.execEdpStore ep pdu s
  | .edpRestore ep pdu => Sys2Proof.Machine.execEdpRestore ep pdu s
  | .edpSubscribe ep pdu => Sys2Proof.Machine.execEdpSubscribe ep pdu s
  | .edpUnsubscribe ep pdu => Sys2Proof.Machine.execEdpUnsubscribe ep pdu s
  | .edpOpen ep pdu => Sys2Proof.Machine.execEdpOpen ep pdu s
  | .edpProof ep pdu => Sys2Proof.Machine.execEdpProof ep pdu s
  | .edpClose ep pdu => Sys2Proof.Machine.execEdpClose ep pdu s
  | .pduForward ep pdu => Sys2Proof.Machine.execPduForward ep pdu s
  | .sessionIdleExpiry sid => Sys2Proof.Machine.execSessionIdleExpiry sid s
  | .proofTimeout sid => Sys2Proof.Machine.execProofTimeout sid s
  | .stagingTimeout sid => Sys2Proof.Machine.execStagingTimeout sid s
  | .edpNotify h => Sys2Proof.Machine.execEdpNotify h s
  | .edpHeartbeat => Sys2Proof.Machine.execEdpHeartbeat s
  | .edpEmergency => Sys2Proof.Machine.execEdpEmergency s
  | .calendarWrite v => Sys2Proof.Machine.execCalendarWrite v s
  | .loupeGateWrite v => Sys2Proof.Machine.execLoupeGateWrite v s
  | .facetTest v => Sys2Proof.Machine.execFacetTest v s
  | .errorHistoryClear => Sys2Proof.Machine.execErrorHistoryClear s
  | .budgetWrite idx sub v => Sys2Proof.Machine.execBudgetWrite idx sub v s
  | .keySlotWrite k key => Sys2Proof.Machine.execKeySlotWrite k key s
  | .sessionKeyWrite sub key => Sys2Proof.Machine.execSessionKeyWrite sub key s
  | .imageCommit sid v => Sys2Proof.Machine.execImageCommit sid v s
  | .commitEraseEnd => Sys2Proof.Machine.execCommitEraseEnd s
  | .commitVerify => Sys2Proof.Machine.execCommitVerify s
  | .commitDone => Sys2Proof.Machine.execCommitDone s
  | .commitInterruption => Sys2Proof.Machine.execCommitInterruption s
  | .irisMeasurement meas shared vcore => Sys2Proof.Machine.execIrisMeasurement meas shared vcore s
  | .allotmentRecomputation => Sys2Proof.Machine.execAllotmentRecomputation s
  | .thermalReading temps => Sys2Proof.Machine.execThermalReading temps s
  | .thermalPaceDrop q => Sys2Proof.Machine.execThermalPaceDrop q s
  | .powerOnReset r => Sys2Proof.Machine.execPowerOnReset r s
  | .powerGood => Sys2Proof.Machine.execPowerGood s
  | .pinReset => Sys2Proof.Machine.execPinReset s
  | .pfailAssertion => Sys2Proof.Machine.execPfailAssertion s
  | .pfailRelease => Sys2Proof.Machine.execPfailRelease s
  | .warmReset v => Sys2Proof.Machine.execWarmReset v s
  | .clusterReset v => Sys2Proof.Machine.execClusterReset v s
  | .coreReset v => Sys2Proof.Machine.execCoreReset v s
  | .fuseLoad straps => Sys2Proof.Machine.execFuseLoad straps s
  | .flashDieWake => Sys2Proof.Machine.execFlashDieWake s
  | .wardenRom pass0 pass1 => Sys2Proof.Machine.execWardenRom pass0 pass1 s
  | .imageSelect => Sys2Proof.Machine.execImageSelect s
  | .loaderStage => Sys2Proof.Machine.execLoaderStage s
  | .coreRelease => Sys2Proof.Machine.execCoreRelease s
  | .backupSupplyChangeover vbat => Sys2Proof.Machine.execBackupSupplyChangeover vbat s
  | .tbadjWrite v => Sys2Proof.Machine.execTbadjWrite v s
  | .tbstepWrite v => Sys2Proof.Machine.execTbstepWrite v s
  | .ptpSyncMeasurement p off => Sys2Proof.Machine.execPtpSyncMeasurement p off s
  | .calendarSecond => Sys2Proof.Machine.execCalendarSecond s
  | .disciplineTimeout => Sys2Proof.Machine.execDisciplineTimeout s
  | .calendarSetFromPtp => Sys2Proof.Machine.execCalendarSetFromPtp s
  | .caltrimUpdate trim => Sys2Proof.Machine.execCaltrimUpdate trim s
  | .timebaseAlarm j => Sys2Proof.Machine.execTimebaseAlarm j s
  | .wholeSecond => Sys2Proof.Machine.execWholeSecond s
  | .vbatCheck mv => Sys2Proof.Machine.execVbatCheck mv s
  | .oscillatorStop => Sys2Proof.Machine.execOscillatorStop s
  | .backupPowerLoss => Sys2Proof.Machine.execBackupPowerLoss s
  | .tbcloRead => Sys2Proof.Machine.execTbcloRead s
  | .calsloRead => Sys2Proof.Machine.execCalsloRead s
  | .testLogicReset => Sys2Proof.Machine.execTestLogicReset s
  | .tapIdcode => Sys2Proof.Machine.execTapIdcode s
  | .tapSamplePreload pins load => Sys2Proof.Machine.execTapSamplePreload pins load s
  | .tapExtest => Sys2Proof.Machine.execTapExtest s
  | .tapExtestPulse => Sys2Proof.Machine.execTapExtestPulse s
  | .tapExtestTrain => Sys2Proof.Machine.execTapExtestTrain s
  | .tapHighz => Sys2Proof.Machine.execTapHighz s
  | .tapClamp => Sys2Proof.Machine.execTapClamp s
  | .tapLoupe => Sys2Proof.Machine.execTapLoupe s
  | .tapFuse => Sys2Proof.Machine.execTapFuse s
  | .tapBypass => Sys2Proof.Machine.execTapBypass s
  | .loupeRead addr => Sys2Proof.Machine.execLoupeRead addr s
  | .loupeWrite addr v => Sys2Proof.Machine.execLoupeWrite addr v s
  | .loupeAccessCompletion => Sys2Proof.Machine.execLoupeAccessCompletion s
  | .loupeHaltRequest n => Sys2Proof.Machine.execLoupeHaltRequest n s
  | .loupeHalt n => Sys2Proof.Machine.execLoupeHalt n s
  | .breakpointHalt n => Sys2Proof.Machine.execBreakpointHalt n s
  | .loupeResume n => Sys2Proof.Machine.execLoupeResume n s
  | .loupeStep n => Sys2Proof.Machine.execLoupeStep n s
  | .setbare n => Sys2Proof.Machine.execSetbare n s
  | .lpcWrite n v => Sys2Proof.Machine.execLpcWrite n v s
  | .lskvalAccess n wr => Sys2Proof.Machine.execLskvalAccess n wr s
  | .trctlWrite c v => Sys2Proof.Machine.execTrctlWrite c v s
  | .fuseProgram j => Sys2Proof.Machine.execFuseProgram j s
  | .ftctlWrite p v => Sys2Proof.Machine.execFtctlWrite p v s
  | .bitInjection p => Sys2Proof.Machine.execBitInjection p s
  | .signalDetectReturn p => Sys2Proof.Machine.execSignalDetectReturn p s
  | .storeCompletion ok => Sys2Proof.Machine.execStoreCompletion ok s
  | .subscriptionIdleExpiry h => Sys2Proof.Machine.execSubscriptionIdleExpiry h s
  | .announceReception p a => Sys2Proof.Machine.execAnnounceReception p a s
  | .busOffRecovery => Sys2Proof.Machine.execBusOffRecovery s

end Sys2Proof.Machine
end

