-- ==== Sys2Proof/Machine/Step.lean ====
section
/-! DEFINITION. The step: the command at the front of the queue, or a tick of the timebase. -/

namespace Sys2Proof.Machine

/-- 4 ns of timebase pass (R418): what a step is when no command waits (DESIGN CHOICE, log entry 2). -/
def tick (s : State) : State := { s with tb := (s.tb + 4) % 2 ^ 64 }

/-- The block takes the command at the front of its queue and performs it on everything but the queue; on an empty queue the timebase
counts (log entry 2). -/
def step (s : State) : Host.Outcome State Fault Refusal :=
  match s.pending with
  | [] => .next (tick s)
  | c :: rest => exec c { s with pending := rest }

/-- `s` with the command a word spells at the front of its queue; `s` itself where the word spells none. -/
def State.withFetchWord (s : State) (nbits w : Nat) : State :=
  match decodeTableWord nbits w with
  | none => s
  | some c => { s with pending := c :: s.pending }

end Sys2Proof.Machine
end

