-- ==== Sys2Proof/Machine/Pins.lean ====
section
/-! DEFINITION. The output balls as functions of the state, and the ball assignment of the package (R442 to R448). -/

namespace Sys2Proof.Machine

/-- PGOOD (R400). -/
def pinPgood (s : State) : Bool := s.power.pgood

/-- ALARM_N is asserted (R279, R373, R410). -/
def pinAlarm (s : State) : Bool := s.power.alarm

/-- CANSTB is low: the port is open, from the end of stage 6 (R410, R447). -/
def canOpen (s : State) : Bool := decide (7 ≤ s.power.stage)

/-- A facet of ROLE 2 to 6 is in TRAIN, RETRAIN or RETIRED (R448). -/
def linkTrouble (s : State) : Bool :=
  (List.range (nFacets s)).any fun p =>
    let st := (getFacet s p).state
    decide (2 ≤ facetRole s p) && decide (facetRole s p ≤ 6) && (st == 1 || st == 4 || st == 5)

/-- The condition of GSIO `i` (R448). -/
def gsioWants (s : State) (i : Nat) : Bool :=
  match i with
  | 0 => s.active == some 128
  | 1 => s.active == some 129
  | 2 => s.power.safe
  | 3 => beatState s == 3
  | 4 => decide (1 ≤ topState s)
  | 5 => topState s == 2
  | 6 => s.iris.excess
  | 7 => s.clusters.any fun e => e.2.broken
  | 8 => s.clock.lock == 2
  | 9 => commitRuns s
  | 10 => s.cores.any fun e => e.2.lp.halted
  | 11 => s.edp.sessions.any fun e => e.2.proved
  | 12 => decide (s.tb % 1000000000 < 1000)
  | 13 => s.cal.alarm
  | 14 => s.cal.vbatlow
  | 15 => linkTrouble s
  | _ => false

/-- GSIO `i` pulls low; it is released until stage 3 ends (R447, R448). -/
def gsio (s : State) (i : Nat) : Bool := decide (4 ≤ s.power.stage) && gsioWants s i

/-- The ball (row, column) at depth `d` and position `a` of the band of quadrant `q` (R444). -/
def bandBall (q d a : Nat) : Nat × Nat :=
  match q with
  | 0 => (d + 1, a + 1)
  | 1 => (a + 1, 53 - d)
  | 2 => (53 - d, 53 - a)
  | _ => (53 - a, d + 1)

/-- The ball of a lane of facet `p` (R444): receive or transmit pair, N or P. -/
def laneBall (p : Nat) (rx neg : Bool) : Nat × Nat :=
  let j := p % 64
  bandBall (p / 64) (j / 13 + if rx then 7 else 0) (3 * (j % 13) + if neg then 1 else 0)

/-- The ball at position `i` of ring `k` of the centre square (R445). -/
def ringBall (k i : Nat) : Nat × Nat :=
  let w := 25 - 2 * k
  let u := i % (w - 1)
  match i / (w - 1) with
  | 0 => (15 + k, 15 + k + u)
  | 1 => (15 + k + u, 39 - k)
  | 2 => (39 - k, 39 - k - u)
  | _ => (39 - k - u, 15 + k)

/-- The ball `t` of instrument channel `n`: AINP, AINN, VOUT, IOUT, RSA, RSB (R445). -/
def channelBall (n t : Nat) : Nat × Nat := ringBall 0 (6 * n + t)

/-- What a ball is (R443, R446): a lane's signal (facet, N), a channel's signal (channel, its place among the six), a named
signal, a supply, or one that must be left open. -/
inductive Ball where
  | ftx (p : Nat) (neg : Bool)
  | frx (p : Nat) (neg : Bool)
  | channel (n t : Nat)
  | refclk (q : Nat) (neg : Bool)
  | sdrcal (g : Nat)
  | tck | tms | tdi | tdo | trstN | xtbIn | xtbOut | xcalIn | xcalOut
  | vbat | pfailN | resetN | pgood | alarmN | boot (i : Nat) | canTx
  | canRx | canStb | gsio (i : Nat)
  | vcore | vsd09 | vsd12 | avdd | agnd | vio18 | vio33 | vss | dnc
  deriving DecidableEq, Repr

/-- The ball at depth `d` and position `a` of the band of quadrant `q` (R444); slot 12 of the fifth row of lanes is VSS. -/
def bandBallAt (q d a : Nat) : Ball :=
  let lane (d' : Nat) (mk : Nat → Bool → Ball) : Ball :=
    if a % 3 == 2 || (d' == 4 && a / 3 == 12) then .vss else mk (64 * q + 13 * d' + a / 3) (a % 3 == 1)
  if d ≤ 4 then lane d .ftx
  else if d == 6 then .vsd12
  else if d == 13 then .vsd09
  else if 7 ≤ d && d ≤ 11 then lane (d - 7) .frx
  else .vss

/-- The nine signals of side `g` of ring 2, in the order of u = 6 to 14 (R446). -/
def sideSignal (g i : Nat) : Ball :=
  match g, i with
  | 0, 0 => .tck
  | 0, 1 => .tms
  | 0, 2 => .tdi
  | 0, 3 => .tdo
  | 0, 4 => .trstN
  | 0, 5 => .xtbIn
  | 0, 6 => .xtbOut
  | 0, 7 => .xcalIn
  | 0, _ => .xcalOut
  | 1, 0 => .vbat
  | 1, 1 => .pfailN
  | 1, 2 => .resetN
  | 1, 3 => .pgood
  | 1, 4 => .alarmN
  | 1, 5 => .boot 0
  | 1, 6 => .boot 1
  | 1, 7 => .boot 2
  | 1, _ => .canTx
  | 2, 0 => .canRx
  | 2, 1 => .canStb
  | 2, j => .gsio (j - 2)
  | _, j => .gsio (7 + j)

/-- The ball at `u` on side `g` of ring 2 (R446). -/
def sideBallAt (g u : Nat) : Ball :=
  if u ≤ 1 then .refclk g (u == 1)
  else if u == 2 || u == 4 then .vss
  else if u == 3 then .sdrcal g
  else if u == 5 || u == 15 then .vio18
  else if u ≤ 14 then sideSignal g (u - 6)
  else if u ≤ 18 then .vio33
  else .dnc

/-- The ball at position `i` of ring `k` (R445). -/
def ringBallAt (k i : Nat) : Ball :=
  let w := 25 - 2 * k
  let u := i % (w - 1)
  match k with
  | 0 => .channel (i / 6) (i % 6)
  | 1 => if u % 2 == 0 && decide (u < 16) then .agnd
         else if u % 2 == 1 && decide (u < 10) then .avdd
         else .vss
  | _ => sideBallAt (i / (w - 1)) u

/-- The place on its ring of a ball of the centre square that is not in the inner square (R445): ring and position. -/
def ringPlace (row col : Nat) : Nat × Nat :=
  let k := min (min (row - 15) (39 - row)) (min (col - 15) (39 - col))
  let w := 24 - 2 * k
  if row == 15 + k && decide (col < 39 - k) then (k, col - (15 + k))
  else if col == 39 - k && decide (row < 39 - k) then (k, w + (row - (15 + k)))
  else if row == 39 - k && decide (15 + k < col) then (k, 2 * w + (39 - k - col))
  else (k, 3 * w + (39 - k - row))

/-- What ball `row`-`col` is, both 1 to 53 (R442 to R446). -/
def ballAt (row col : Nat) : Ball :=
  if row ≤ 14 && col ≤ 39 then bandBallAt 0 (row - 1) (col - 1)
  else if row ≤ 39 && 40 ≤ col then bandBallAt 1 (53 - col) (row - 1)
  else if 40 ≤ row && 15 ≤ col then bandBallAt 2 (53 - row) (53 - col)
  else if 15 ≤ row && col ≤ 14 then bandBallAt 3 (col - 1) (53 - row)
  else if 18 ≤ row && row ≤ 36 && 18 ≤ col && col ≤ 36 then
    if (row + col) % 6 == 0 then .vss else .vcore
  else
    let place := ringPlace row col
    ringBallAt place.1 place.2

end Sys2Proof.Machine
end

