-- ==== Sys2Proof/Safety.lean ====
section
/-! DEFINITION. The terms statements are written in: what every step keeps, what a command leaves alone, when a core can take a trigger
command. -/

namespace Sys2Proof.Machine

/-! ### What every step keeps -/

/-- What every step keeps of a device that was of part `q` and had the fuses of `f` blown: the part stays (R1), a blown fuse stays blown and
the fuse values loaded are blown fuses (R469), memory keeps its one form, the timebase keeps its 64 bits (R418). -/
structure Sound (q : Part) (f : BitVec 257) (s : State) : Prop where
  part   : s.part = q
  grown  : f &&& s.power.fuses = f
  loaded : s.power.loaded &&& s.power.fuses = s.power.loaded
  mem    : Mem.wf s.mem = true
  tb     : s.tb < 2 ^ 64

/-- The invariant of the machine: the fuse bits that stage 3 loaded are blown (R408, R469), the memory list has its canonical form, the
timebase is a 64-bit value (R418). -/
def Inv (s : State) : Prop :=
  s.power.loaded &&& s.power.fuses = s.power.loaded ∧ Mem.wf s.mem = true ∧ s.tb < 2 ^ 64

/-! ### What a command leaves alone -/

/-- Of the state only core `n` differs. -/
def OnlyCore (n : Nat) (s t : State) : Prop := t = { s with cores := t.cores } ∧ ∀ m, m ≠ n → getCore t m = getCore s m

/-! ### Cores -/

/-- Core `n` can issue a program bundle in its next step (R44, R114, R190), and that bundle is neither a delay bundle (R99) nor an iteration of
a repeat in progress (R137): it can take a trigger command (log entry 24). -/
def takesTrigger (s : State) (n : Nat) : Bool :=
  mayIssue s n && (getCore s n).i.delay.isNone && (getCore s n).i.rep.isNone

/-- What every step of a core leaves alone in it, its units and private bits apart: the general registers, the special registers but the
counts of an ending loop level (R132) and of a hush window (R200), the queues, the status object and the debug registers but STEP; the core goes
on running, its step counted. -/
structure CoreStep (k k' : LensCore) : Prop where
  g     : k'.g = k.g
  r     : k'.r = { k.r with lc := k'.r.lc, hushRem := k'.r.hushRem }
  q     : k'.q = k.q
  st    : k'.st = k.st
  e     : k'.e = { k.e with hushEnd := k'.e.hushEnd }
  lp    : k'.lp = { k.lp with pass := false, stepping := k'.lp.stepping }
  run   : k'.i.run = k.i.run
  steps : k'.i.steps = k.i.steps + 1

/-- Command `c` completes as one step of core `n` after which its units stand as `u` and its private bits as `bits`; nothing else of the device
changes but what every step of the core changes. -/
def UnitDone (s : State) (n : Nat) (c : Instr) (u : Units) (bits : Tab Bool) : Prop :=
  ∃ t, exec c s = .next t ∧ OnlyCore n s t ∧ CoreStep (getCore s n) (getCore t n) ∧ (getCore t n).u = u ∧ (getCore t n).bits = bits

/-- The units of core `n` with socket `code` set to `v`. -/
def withSock (s : State) (n code : Nat) (v : Word) : Units :=
  { (getCore s n).u with sk := Tab.put code v (getCore s n).u.sk }

/-- The private bits of core `n` with bit `i` set to `v`; b0 takes no write (R53). -/
def withBit (s : State) (n i : Nat) (v : Bool) : Tab Bool :=
  if i = 0 then (getCore s n).bits else Tab.put i v (getCore s n).bits

/-- Socket `code` of core `n`. -/
def sockOf (s : State) (n code : Nat) : Word := sk (getCore s n) code

/-- The byte at global address `x` that the first of the store-buffer entries to name it holds. -/
def heldByte (es : List StoreEntry) (x : Nat) : Option Byte :=
  (es.find? fun e => e.word == x / 8 && e.mask.getLsbD (x % 8)).map fun e => byteOf e.data (x % 8)

/-- `Sound` of the next state, where there is one. -/
def SoundOut (q : Part) (f : BitVec 257) : Host.Outcome State Fault Refusal → Prop
  | .next t => Sound q f t
  | _ => True

end Sys2Proof.Machine
end

