-- ==== Sys2Proof/Certificates/Slice0/Obligations.lean ====
section
/-! DEFINITION. The statements for the provers. -/

open Sys2Proof Sys2Proof.Machine

/-- The queue is taken from the front; an idle step is a tick of 4 ns (R418; DESIGN CHOICE, log entry 2). -/
def Obligations.StepRunsFrontCommand : Prop :=
  (∀ (c : Instr) (rest : List Instr) (s : State), step { s with pending := c :: rest } = exec c { s with pending := rest }) ∧
  (∀ s : State, s.pending = [] → step s = .next { s with tb := (s.tb + 4) % 2 ^ 64 })

/-- The invariant at reset. -/
def Obligations.InvHoldsAtReset : Prop := Inv State.reset

/-- Every step, of every command, keeps `Inv`, the part (R1) and the blown fuses (R469), and never stops. -/
def Obligations.InvKeptByEveryStep : Prop :=
  ∀ s : State, Inv s → ∃ t, step s = .next t ∧ Inv t ∧ t.part = s.part ∧ s.power.fuses &&& t.power.fuses = s.power.fuses

/-- The reset values the spec states for the main groups of state. -/
def Obligations.ResetLeavesTheStatedValues : Prop :=
  let s := State.reset
  let route := fun src => ent s (0x7000 + src / 128) (src % 128 + 1)
  s.pending = [] ∧
  (∀ n i, Tab.get (fun _ => 0) i (getCore s n).g = 0 ∧ Tab.get (fun _ => false) i (getCore s n).bits = false) ∧
  (∀ n, (getCore s n).r.psw = 5 ∧ (getCore s n).r.epsw = 0 ∧ (getCore s n).r.epc = 0 ∧ (getCore s n).r.cause = 0 ∧
    (getCore s n).r.evec = 0 ∧ (getCore s n).r.chainc = 0 ∧ sockOf s n 0x240 = 1 ∧ sockOf s n 0x272 = 0x11) ∧
  (∀ c k, (getBank s c k).owner = k ∧ (getBank s c k).pend = none ∧ (getBank s c k).fopen = false) ∧
  (∀ c, (getCluster s c).pace = 0 ∧ (getCluster s c).classic = true ∧ (getCluster s c).clevt = 0 ∧ (getCluster s c).cleven = 0x070F0F00#32) ∧
  (∀ b, getBeam s b = BeamCtx.free) ∧
  (∀ p, (getFacet s p).state = 0 ∧ (getFacet s p).fevt = 0 ∧ (getFacet s p).feven = 0x2100#16 ∧ (getFacet s p).ringN = 8 ∧
    (getFacet s p).ringBase = (0x380 + 8 * (p % 8)) * 2048) ∧
  (∀ n, n < 128 → route (560 + n) = n + 4 * 256 + 2048) ∧ route 768 = 128 + 4 * 256 + 2048 ∧ route 769 = 129 + 4 * 256 + 2048 ∧
  (∀ src, src = 770 ∨ src = 771 ∨ src = 772 ∨ src = 778 ∨ (800 ≤ src ∧ src ≤ 927) → route src = 130 + 7 * 256 + 2048) ∧
  (∀ src, src < 560 ∨ (687 < src ∧ src < 768) ∨ (772 < src ∧ src < 778) ∨ (778 < src ∧ src < 800) ∨ (927 < src ∧ src < 1024) → route src = 130)

/-- R87, R88: the results of the alu operations, the compares also when kd names b0, with their frame. -/
def Obligations.AluTriggersWriteResult : Prop :=
  ∀ (s : State) (n : Nat) (u : AluUnit) (a : Word), takesTrigger s n = true →
    let b := sockOf s n (aluBase u)
    let done := fun (c : Instr) (v : Word) => UnitDone s n c (withSock s n (aluBase u + 2) v) (getCore s n).bits
    done (.aluAdd n u a) (a + b) ∧ done (.aluSub n u a) (a - b) ∧
    done (.aluAnd n u a) (a &&& b) ∧ done (.aluOr n u a) (a ||| b) ∧ done (.aluXor n u a) (a ^^^ b) ∧ done (.aluAndn n u a) (a &&& ~~~b) ∧
    done (.aluShl n u a) (a <<< b.toNat) ∧ done (.aluShr n u a) (a >>> b.toNat) ∧
    done (.aluSar n u a) (a.sshiftRight b.toNat) ∧ done (.aluRotl n u a) (a.rotateLeft (b.toNat % 32)) ∧
    let kd := (sockOf s n (aluBase u + 1)).toNat % 256
    let told := fun (c : Instr) (v : Bool) => UnitDone s n c (withSock s n (aluBase u + 2) (if v then 1 else 0)) (withBit s n kd v)
    told (.aluEq n u a) (decide (a = b)) ∧ told (.aluLt n u a) (decide (a.toInt < b.toInt)) ∧ told (.aluLtu n u a) (decide (a.toNat < b.toNat))

/-- R39, R89: the product each multiply starts. -/
def Obligations.MulTriggersStartProduct : Prop :=
  ∀ (s : State) (n : Nat) (a : Word), takesTrigger s n = true →
    let k := getCore s n
    let b := sockOf s n 0x220
    let done := fun (c : Instr) (p : Product) => p.due = k.i.steps + 3 ∧ UnitDone s n c { k.u with prods := k.u.prods ++ [p] } k.bits
    (∃ p, done (.mulMulu n a) p ∧ p.hi.toNat * 2 ^ 32 + p.lo.toNat = a.toNat * b.toNat) ∧
    (∃ p, done (.mulMuls n a) p ∧ p.hi.toInt * 2 ^ 32 + p.lo.toNat = a.toInt * b.toInt) ∧
    (∃ p, done (.mulMulsu n a) p ∧ p.hi.toInt * 2 ^ 32 + p.lo.toNat = a.toInt * b.toNat)

/-- R90, R91: the divide each trigger starts. -/
def Obligations.DivTriggersStartDivide : Prop :=
  ∀ (s : State) (n : Nat) (a : Word), takesTrigger s n = true → (getCore s n).u.div = none →
    let k := getCore s n
    let z := sockOf s n 0x230
    let done := fun (c : Instr) (d : DivOp) => d.trig = k.i.steps ∧ UnitDone s n c { k.u with div := some d } k.bits
    let byZero := fun (d : DivOp) => d.quo = 0xFFFFFFFF#32 ∧ d.rem = a ∧ d.flag = some 16
    (∃ d, done (.divQuo n a) d ∧
      if z = 0 then byZero d else a.toNat = d.quo.toNat * z.toNat + d.rem.toNat ∧ d.rem.toNat < z.toNat ∧ d.flag = none) ∧
    (∃ d, done (.divQuos n a) d ∧
      if z = 0 then byZero d
      else if a = 0x80000000#32 ∧ z = 0xFFFFFFFF#32 then d.quo = 0x80000000#32 ∧ d.rem = 0 ∧ d.flag = some 17
      else a.toInt = d.quo.toInt * z.toInt + d.rem.toInt ∧ d.rem.toInt.natAbs < z.toInt.natAbs ∧
        (d.rem.toInt = 0 ∨ (d.rem.toInt < 0 ↔ a.toInt < 0)) ∧ d.flag = none)

/-- R96, R97 on private bits, with the conflict of `tas`. -/
def Obligations.BituPrivateAndLogic : Prop :=
  ∀ (s : State) (n : Nat) (a : Word), takesTrigger s n = true →
    let k := getCore s n
    let kd := (sockOf s n 0x251).toNat % 256
    let x := pbit k (a.toNat % 256)
    let y := pbit k ((sockOf s n 0x250).toNat % 256)
    let out := fun (v : Bool) => withSock s n 0x252 (if v then 1 else 0)
    UnitDone s n (.bituAnd n a) (out (x && y)) (withBit s n kd (x && y)) ∧ UnitDone s n (.bituOr n a) (out (x || y)) (withBit s n kd (x || y)) ∧
    UnitDone s n (.bituXor n a) (out (x ^^ y)) (withBit s n kd (x ^^ y)) ∧
    UnitDone s n (.bituAndn n a) (out (x && !y)) (withBit s n kd (x && !y)) ∧
    (a.toNat < 0x1000 →
      let i := a.toNat
      let old := pbit k i
      UnitDone s n (.bituTst n a) (out old) (withBit s n kd old) ∧ UnitDone s n (.bituSet n a) (out old) (withBit s n i true) ∧
      UnitDone s n (.bituClr n a) (out old) (withBit s n i false) ∧ UnitDone s n (.bituTgl n a) (out old) (withBit s n i (!old)) ∧
      (i = 0 ∨ i ≠ kd → UnitDone s n (.bituTas n a) (out old) (if kd = 0 then withBit s n i true else Tab.put kd old (withBit s n i true))) ∧
      (i ≠ 0 ∧ i = kd → ∃ t, exec (.bituTas n a) s = .next t ∧ OnlyCore n s t ∧ (getCore t n).bits = k.bits ∧ (getCore t n).u = k.u ∧
        (getCore t n).i.fault.map (fun f => f.cause) = some 3))

/-- R54, R96 on the shared bit store. -/
def Obligations.BituSharedBitAtomic : Prop :=
  ∀ (s : State) (n : Nat) (a : Word), takesTrigger s n = true → n < 128 → Mem.wf s.mem = true → 0x10000 ≤ a.toNat → a.toNat < 0x20000 →
    let k := getCore s n
    let i := a.toNat - 0x10000
    let w := bitWord n i
    eccOf s w = 0 → rivalOf s n w = none →
    let old := (rawWord s w).getLsbD (i % 64)
    let kd := (sockOf s n 0x251).toNat % 256
    let done := fun (c : Instr) (new : Bool) (bits : Tab Bool) =>
      ∃ t, exec c s = .next t ∧ t = { s with cores := t.cores, mem := t.mem } ∧ (∀ m, m ≠ n → getCore t m = getCore s m) ∧
        CoreStep k (getCore t n) ∧ (getCore t n).u = withSock s n 0x252 (if old then 1 else 0) ∧ (getCore t n).bits = bits ∧
        (∀ j, j < 64 → (rawWord t w).getLsbD j = if j = i % 64 then new else (rawWord s w).getLsbD j) ∧
        ∀ x, (x < 8 * w ∨ 8 * w + 8 ≤ x) → Mem.read x t.mem = Mem.read x s.mem
    done (.bituTst n a) old (withBit s n kd old) ∧ done (.bituSet n a) true k.bits ∧ done (.bituClr n a) false k.bits ∧
    done (.bituTgl n a) (!old) k.bits ∧ done (.bituTas n a) true (withBit s n kd old)

/-- R92 to R94: what each load finds in own scratch. -/
def Obligations.LoadTriggersReadMemory : Prop :=
  ∀ (s : State) (n : Nat) (a : Word) (p : Nat), takesTrigger s n = true → (getCore s n).u.stores = [] → (getCore s n).u.loads = [] →
    let k := getCore s n
    let ap := dataAp s n k
    let g := scratchBase n + p
    let done := fun (c : Instr) (z : Nat) (sext : Bool) =>
      checkAccess s n (isSup k) ap .read a.toNat z = .ok p → ap.kind = 0 → p + z ≤ 0x10000 → eccOf s (g / 8) = 0 → eccOf s ((g + z - 1) / 8) = 0 →
        ∃ l : Load, UnitDone s n c { k.u with loads := [l] } k.bits ∧ l.trig = k.i.steps ∧ l.deliv = false ∧ l.outst = true ∧
          ∃ d, l.data = some d ∧ d.pois = none ∧
            let v := ofLe (Mem.readAll g z s.mem)
            if sext then d.val.toInt = if v < 2 ^ (8 * z - 1) then (v : Int) else (v : Int) - 2 ^ (8 * z) else d.val.toNat = v
    done (.lsuLd8u n a) 1 false ∧ done (.lsuLd8s n a) 1 true ∧ done (.lsuLd16u n a) 2 false ∧ done (.lsuLd16s n a) 2 true ∧
    done (.lsuLd32 n a) 4 false

/-- R92, R95: what each store enters into the store buffer. -/
def Obligations.StoreTriggersFillBuffer : Prop :=
  ∀ (s : State) (n : Nat) (a : Word) (p : Nat), takesTrigger s n = true →
    let k := getCore s n
    let ap := dataAp s n k
    let d := sockOf s n 0x241
    let done := fun (c : Instr) (z : Nat) =>
      checkAccess s n (isSup k) ap .write a.toNat z = .ok p → k.u.stores.length + storeCount p z ≤ 8 →
        let g := if accKind ap p = .device ∧ 0x10000000 ≤ p ∧ p < 0x20000000 then p else globalOf n p
        ∃ es : List StoreEntry, UnitDone s n c { k.u with stores := k.u.stores ++ es, nstore := k.u.nstore + es.length } k.bits ∧
          es.length = (if g % 8 + z ≤ 8 then 1 else 2) ∧ (∀ e ∈ es, e.kind = accKind ap p) ∧
          ∀ x, heldByte es x = if g ≤ x ∧ x < g + z then some (BitVec.ofNat 8 (d.toNat / 256 ^ (x - g))) else none
    done (.lsuSt8 n a) 1 ∧ done (.lsuSt16 n a) 2 ∧ done (.lsuSt32 n a) 4

/-- R92, R93: the exchange on own scratch. -/
def Obligations.ExchangeSwapsWord : Prop :=
  ∀ (s : State) (n : Nat) (a : Word) (p : Nat), takesTrigger s n = true → Mem.wf s.mem = true → (getCore s n).u.stores = [] →
    (getCore s n).u.loads = [] →
    let k := getCore s n
    let g := scratchBase n + p
    checkAccess s n (isSup k) (dataAp s n k) .both a.toNat 4 = .ok p → p + 4 ≤ 0x10000 → eccOf s (g / 8) = 0 →
    ∃ t, ∃ l : Load, ∃ d : LoadData, exec (.lsuXchg32 n a) s = .next t ∧ t = { s with cores := t.cores, mem := t.mem } ∧
      (∀ m, m ≠ n → getCore t m = getCore s m) ∧ CoreStep k (getCore t n) ∧ (getCore t n).bits = k.bits ∧
      (getCore t n).u = { k.u with loads := [l] } ∧ l.data = some d ∧ l.deliv = false ∧ d.pois = none ∧
      d.val.toNat = ofLe (Mem.readAll g 4 s.mem) ∧
      ∀ x, Mem.read x t.mem =
        if g ≤ x ∧ x < g + 4 then BitVec.ofNat 8 ((sockOf s n 0x241).toNat / 256 ^ (x - g)) else Mem.read x s.mem

/-- R93, R150, R151: the trap of an access, and the order of its first checks. -/
def Obligations.AccessChecksTrap : Prop :=
  ∀ (s : State) (n : Nat) (a : Word), takesTrigger s n = true → fifthLoad (getCore s n) = false →
    (isBare (getCore s n) = false ∨ undelivered (getCore s n) = []) →
    (getCore s n).u.stores.length ≤ 6 →
    let k := getCore s n
    let ap := dataAp s n k
    let traps := fun (c : Instr) (d : Dir) (z : Nat) => ∀ cause x, checkAccess s n (isSup k) ap d a.toNat z = .bad cause x →
      ∃ t f, exec c s = .next t ∧ OnlyCore n s t ∧ (getCore t n).i.fault = some f ∧ f.cause = cause ∧ f.bad = some (BitVec.ofNat 32 x) ∧
        f.epc = k.i.pc ∧ (getCore t n).u = k.u ∧ (getCore t n).bits = k.bits ∧ (getCore t n).g = k.g ∧ (getCore t n).r = k.r ∧
        (getCore t n).i.steps = k.i.steps
    traps (.lsuLd8u n a) .read 1 ∧ traps (.lsuLd8s n a) .read 1 ∧ traps (.lsuLd16u n a) .read 2 ∧ traps (.lsuLd16s n a) .read 2 ∧
    traps (.lsuLd32 n a) .read 4 ∧ traps (.lsuSt8 n a) .write 1 ∧ traps (.lsuSt16 n a) .write 2 ∧ traps (.lsuSt32 n a) .write 4 ∧
    traps (.lsuXchg32 n a) .both 4 ∧
    ∀ d z, checkAccess s n (isSup k) ap d a.toNat z =
      if ap.kind = 3 then .bad 0x11 ((ap.start + a.toNat) % 2 ^ 32)
      else if ap.limit.toNat < a.toNat + z - 1 then .bad 0x10 ((ap.start + a.toNat) % 2 ^ 32)
      else if 2 ^ 32 ≤ ap.start + a.toNat + z - 1 then .bad 0x16 ((ap.start + a.toNat) % 2 ^ 32)
      else if ap.allows (isSup k) d = false then .bad 0x11 ((ap.start + a.toNat) % 2 ^ 32)
      else checkAccess s n (isSup k) ap d a.toNat z

/-- R98, R121: what each transfer sets up. -/
def Obligations.TransfersGoThroughDelayBundle : Prop :=
  ∀ (s : State) (n d : Nat) (a : Word), takesTrigger s n = true →
    let k := getCore s n
    let o := k.i.pc
    endsActive k o.toNat = false → checkDelay s n (o.toNat + 8) = .ok d →
    let done := fun (c : Instr) (tgt : Word) (u : Units) (btb : Option Nat) =>
      ∃ t, exec c s = .next t ∧ t = { s with cores := t.cores, clusters := t.clusters } ∧ (∀ m, m ≠ n → getCore t m = getCore s m) ∧
        (∀ c, { getCluster t c with trace := [] } = { getCluster s c with trace := [] }) ∧ CoreStep k (getCore t n) ∧
        (getCore t n).u = u ∧ (getCore t n).bits = k.bits ∧ (getCore t n).i.pc = BitVec.ofNat 32 (o.toNat + 8) ∧
        (getCore t n).i.delay = some (some tgt) ∧ (getCore t n).i.xferOff = btb
    let even := fun (w : Word) => w &&& 0xFFFFFFF8#32
    let link := withSock s n 0x26E (BitVec.ofNat 32 (o.toNat + 8 + d))
    done (.ctlJmp n a) (even a) k.u (some o.toNat) ∧ done (.ctlJr n a) (even (o + a)) k.u (some o.toNat) ∧
    done (.ctlCall n a) (even a) link (some o.toNat) ∧ done (.ctlCallr n a) (even (o + a)) link (some o.toNat) ∧
    done (.ctlRet n a) (even a) k.u none

/-- R98, R100, R101, R160, R200: the control operations that hold, stop or open a window. -/
def Obligations.ControlTriggersHoldOrStop : Prop :=
  ∀ (s : State) (n : Nat) (a : Word), takesTrigger s n = true →
    let k := getCore s n
    let o := k.i.pc.toNat
    endsActive k o = false →
    let done := fun (c : Instr) (P : LensCore → Prop) =>
      ∃ t, exec c s = .next t ∧ OnlyCore n s t ∧ (getCore t n).g = k.g ∧ (getCore t n).bits = k.bits ∧ (getCore t n).u = k.u ∧
        (getCore t n).q = k.q ∧ (getCore t n).st = k.st ∧ (getCore t n).i.steps = k.i.steps + 1 ∧
        (getCore t n).i.pc = BitVec.ofNat 32 (o + 8) ∧ P (getCore t n)
    done (.ctlFence n a) (fun k' => CoreStep k k' ∧ k'.i.fence = true) ∧
    done (.ctlTrap n a) (fun k' => CoreStep k k' ∧
      k'.i.fault = some { cause := 0x1A, slot := 0, second := false, sw := a.toNat % 256, bad := none, epc := BitVec.ofNat 32 (o + 8), rep := none }) ∧
    done (.ctlSleep n a) (fun k' => k'.r.hushRem = 0 ∧ k'.e.hushEnd = none ∧ k'.i.run = if wakePending s n then .running else .sleeping) ∧
    done (.ctlFlush n a) (fun k' => CoreStep k k' ∧ k'.i.lines = [] ∧ 4 ≤ k'.i.fills ∧
      let x := (sockOf s n 0x260).toNat
      if x = 0 then k'.i.cache = [] ∧ k'.i.btb = []
      else ∀ c ∈ k'.i.cache, overlaps c.1 32 ((apOf k n 0).start + a.toNat) x = false) ∧
    (isSup k = true →
      done (.ctlHalt n a) (fun k' => k'.i.run = .halted ∧ k'.r.hushRem = 0 ∧ k'.e.hushEnd = none) ∧
      done (.ctlHush n a) (fun k' =>
        if a.toNat % 256 = 0 then CoreStep k k'
        else if k.e.hushOk then k'.r.hushRem.toNat = a.toNat % 256 ∧ k'.e.hushEnd = some (s.tb + 200) ∧ k'.e.hushOk = false
        else k'.r.hushIgn.toNat = min 255 (k.r.hushIgn.toNat + 1) ∧ k'.e.hushOk = false))

/-- R130, R131: the loop trigger, its effect and its checks. -/
def Obligations.LoopTriggerSetsLevel : Prop :=
  ∀ (s : State) (n : Nat) (a : Word), takesTrigger s n = true →
    let k := getCore s n
    let o := k.i.pc.toNat
    let d := loopDepth k
    let e := (sockOf s n 0x260) &&& 0xFFFFFFF8#32
    endsActive k o = false →
    let same := fun (k' : LensCore) (i : Nat) => loopLs k' i = loopLs k i ∧ loopLe k' i = loopLe k i ∧ loopLc k' i = loopLc k i
    let done := fun (P : LensCore → Prop) =>
      ∃ t, exec (.ctlLoop n a) s = .next t ∧ OnlyCore n s t ∧ (getCore t n).g = k.g ∧ (getCore t n).bits = k.bits ∧ (getCore t n).u = k.u ∧
        P (getCore t n)
    (a ≠ 0 ∧ d < 4 ∧ o + 8 ≤ e.toNat → done fun k' =>
      loopLs k' d = BitVec.ofNat 32 (o + 8) &&& 0xFFFFFFF8#32 ∧ loopLe k' d = e ∧ loopLc k' d = a ∧ (∀ i, i ≠ d → same k' i) ∧
        k'.i.pc = BitVec.ofNat 32 (o + 8) ∧ k'.i.steps = k.i.steps + 1 ∧ k'.i.fills = k.i.fills) ∧
    (a = 0 ∧ 0 < d → done fun k' =>
      loopLc k' (d - 1) = 0 ∧ loopLs k' (d - 1) = loopLs k (d - 1) ∧ loopLe k' (d - 1) = loopLe k (d - 1) ∧
        (∀ i, i ≠ d - 1 → same k' i) ∧ k'.i.pc = BitVec.ofNat 32 (o + 8) ∧ k'.i.steps = k.i.steps + 1) ∧
    ((a ≠ 0 ∧ d = 4) ∨ (a = 0 ∧ d = 0) ∨ (a ≠ 0 ∧ d < 4 ∧ e.toNat < o + 8) → done fun k' =>
      k'.i.fault.map (fun f => f.cause) = some (if a ≠ 0 ∧ d = 4 then 8 else 9) ∧ (∀ i, same k' i) ∧ k'.i.steps = k.i.steps)

/-- R197: the return from an exception and its check. -/
def Obligations.EretRestoresOrTraps : Prop :=
  ∀ (s : State) (n : Nat) (a : Word), takesTrigger s n = true →
    let k := getCore s n
    endsActive k k.i.pc.toNat = false → isSup k = true → (∀ l ∈ k.u.loads, l.deliv = true ∨ l.toFrame ≠ none) →
    let forged := k.r.epsw.getLsbD 0 = true ∧ k.r.pstk.getLsbD 0 = false ∧ k.r.grant = false
    (forged → ∃ t f, exec (.ctlEret n a) s = .next t ∧ OnlyCore n s t ∧ (getCore t n).i.fault = some f ∧ f.cause = 0x1B ∧ f.epc = k.i.pc ∧
      (getCore t n).r = k.r ∧ (getCore t n).g = k.g ∧ (getCore t n).bits = k.bits ∧ (getCore t n).u = k.u) ∧
    (¬ forged → k.e.wd20 = false → s.router.pending = [] →
      ∃ t, exec (.ctlEret n a) s = .next t ∧ t = { s with cores := t.cores, clusters := t.clusters } ∧
        (∀ m, m ≠ n → getCore t m = getCore s m) ∧
        let k' := getCore t n
        k'.g = k.g ∧ k'.bits = k.bits ∧
        k'.r.psw = (k.r.epsw &&& 0x23#32) ||| (k.r.psw &&& k.r.epsw &&& 4#32) ∧ k'.r.pstk = k.r.pstk >>> 1 ∧ k'.r.grant = false ∧
        k'.r.hushRem = 0 ∧ k'.r.epc = k.r.epc ∧ k'.r.epsw = k.r.epsw ∧ k'.r.cause = k.r.cause ∧ k'.r.evec = k.r.evec ∧
        k'.i.pc = k.r.epc ∧ k'.i.fills = 4)

/-- R102 to R106: the operation each copy trigger starts. -/
def Obligations.CopyTriggersStartOperation : Prop :=
  ∀ (s : State) (n : Nat) (a : Word) (p q : Nat), takesTrigger s n = true → (getCore s n).u.copy = none → (getCore s n).u.stores = [] →
    let k := getCore s n
    let src := sockOf s n 0x270
    let seg := sockOf s n 0x272
    let pat := sockOf s n 0x273
    let len := min ((sockOf s n 0x271).toNat % 2 ^ 21) 0x100000
    let done := fun (c : Instr) (kind : CopyKind) (word : Word) (down : Bool) (lat : Nat) =>
      copyCheck s n (isSup k) kind seg src.toNat a.toNat len = .ok p q →
        let far := segRmt seg = true ∧ kind.usesDst = true ∧ len ≠ 0
        let u := fun (remote : Nat) =>
          { k.u with copy := some { kind, trig := k.i.steps, lat, src, dst := a, srcP := p, dstP := q, left := len, done := 0, down, seg, word, remote,
                                    since := s.tb, park := none } }
        let mine := fun (t : State) (remote : Nat) => (∀ m, m ≠ n → getCore t m = getCore s m) ∧ CoreStep k (getCore t n) ∧
          (getCore t n).u = u remote ∧ (getCore t n).bits = k.bits
        (¬ far → UnitDone s n c (u 0) k.bits) ∧
        (far → ∀ h rest, routeOfCopy n (segCl seg) = h :: rest → ∃ t x, exec c s = .next t ∧ t = { s with cores := t.cores, fabric := t.fabric } ∧ mine t 1 ∧
          hopQueue t h 2 = hopQueue s h 2 ++ [x] ∧ x.kind = .remoteCopy ∧ x.route = rest ∧ x.body = .copy n ∧ x.poison = false) ∧
        (far → routeOfCopy n (segCl seg) = [] → banksOpen s q len = true → ∃ t, exec c s = .next t ∧ OnlyCore n s t ∧ mine t 2) ∧
        (far → routeOfCopy n (segCl seg) = [] → banksOpen s q len = false → ∃ t, exec c s = .next t ∧
          t = { s with cores := t.cores, clusters := t.clusters, router := t.router } ∧ mine t 3 ∧
          (getCluster t (segCl seg)).clevt = (getCluster s (segCl seg)).clevt ||| (1#32 <<< 27))
    done (.copyMove n a) .move pat (decide (p < q ∧ q < p + len))
      (if src.toNat % 8 = a.toNat % 8 then 12 + (len + 7) / 8 else 12 + (len + 3) / 4) ∧
    done (.copyFill n a) .fill pat false (12 + (len + 7) / 8) ∧ done (.copyCrc n a) .crc (~~~pat) false (12 + (len + 3) / 4)

/-- R105: `park` of an idle unit, `resume` of records that start nothing, and `resume` of a busy unit. -/
def Obligations.CopyParkAndResume : Prop :=
  ∀ (s : State) (n : Nat) (a : Word) (p : Nat), takesTrigger s n = true →
    let k := getCore s n
    let g := scratchBase n + p
    let units := fun (st : Word) =>
      { k.u with copy := none, sk := Tab.put 0x27A st (Tab.put 0x279 0 k.u.sk) }
    (k.u.copy = none → recordCheck s n (isSup k) .write a.toNat = .ok p 0 → p + 32 ≤ 0x10000 →
      ∃ o : CopyOp, o.kind = .none ∧ o.trig = k.i.steps ∧ o.lat = 8 ∧ o.park = some g ∧
        UnitDone s n (.copyPark n a) { k.u with copy := some o } k.bits) ∧
    (k.u.copy = none → recordCheck s n (isSup k) .read a.toNat = .ok p 0 → p + 32 ≤ 0x10000 → (∀ i, i < 4 → eccOf s (g / 8 + i) = 0) →
      (Mem.readAll g 32 s.mem = List.replicate 32 0 → UnitDone s n (.copyResume n a) (units 0) k.bits) ∧
      (Mem.readAll g 32 s.mem = List.replicate 31 0 ++ [1] → UnitDone s n (.copyResume n a) (units 4) k.bits)) ∧
    (k.u.copy ≠ none → ∃ t f, exec (.copyResume n a) s = .next t ∧ OnlyCore n s t ∧ (getCore t n).i.fault = some f ∧ f.cause = 6 ∧
      (getCore t n).u = k.u ∧ (getCore t n).bits = k.bits ∧ (getCore t n).g = k.g ∧ (getCore t n).r = k.r)

/-- R107, R217: the start of the beam operations. -/
def Obligations.BeamTriggersStartOperation : Prop :=
  ∀ (s : State) (n : Nat) (a : Word) (p : Nat), takesTrigger s n = true → (getCore s n).u.beam = none → (getCore s n).u.stores = [] →
    let k := getCore s n
    let buf := (sockOf s n 0x280).toNat / 64 * 64
    let op := fun (kind : BeamKind) (data : Octets) =>
      { k.u with beam := some { kind, trig := k.i.steps, arg := a, buf := p, data, res := none } }
    (beamCheck s n (isSup k) (sockOf s n 0x280) = .ok p 0 → (∀ i, i < 8 → eccOf s ((scratchBase n + p) / 8 + i) = 0) →
      UnitDone s n (.beamFind n a) (op .find []) k.bits ∧ UnitDone s n (.beamLock n a) (op .lock []) k.bits ∧
      UnitDone s n (.beamCommit n a) (op .commit (Mem.readAll (scratchBase n + p) 64 s.mem)) k.bits ∧
      UnitDone s n (.beamDrop n a) (op .drop []) k.bits ∧ UnitDone s n (.beamNew n a) (op .new []) k.bits) ∧
    ((apOf k n 1).kind ≠ 3 → (apOf k n 1).limit.toNat < buf + 63 → ∀ c ∈ [Instr.beamFind n a, .beamLock n a, .beamCommit n a, .beamDrop n a, .beamNew n a],
      ∃ t f, exec c s = .next t ∧ OnlyCore n s t ∧ (getCore t n).i.fault = some f ∧ f.cause = 0x10 ∧ (getCore t n).u = k.u)

/-- R51, R108 to R110: the start of every fpu operation. -/
def Obligations.FpuTriggersStartOperation : Prop :=
  ∀ (s : State) (n : Nat) (a : Word), takesTrigger s n = true →
    let k := getCore s n
    let b := sockOf s n 0x290
    let x := sockOf s n 0x291
    let starts := fun (c : Instr) (o : FpuOpc) (lat : Nat) =>
      UnitDone s n c { k.u with fpu := k.u.fpu ++ [{ trig := k.i.steps, lat, out := (fpuResult o a b x).1, fl := (fpuResult o a b x).2 }] } k.bits
    let all := [(Instr.fpuAdd n a, FpuOpc.add), (.fpuSub n a, .sub), (.fpuMul n a, .mul), (.fpuFma n a, .fma), (.fpuEq n a, .eq),
      (.fpuLt n a, .lt), (.fpuLe n a, .le), (.fpuItof n a, .itof), (.fpuUtof n a, .utof), (.fpuFtoi n a, .ftoi)]
    (s.part.full = true →
      ((∀ f ∈ k.u.fpu, f.lat ≠ 16) → ∀ c ∈ all, starts c.1 c.2 4) ∧
      (k.u.fpu = [] → starts (.fpuDiv n a) .div 16 ∧ starts (.fpuSqrt n a) .sqrt 16)) ∧
    (s.part.full = false → ∀ c ∈ .fpuDiv n a :: .fpuSqrt n a :: all.map Prod.fst,
      ∃ t f, exec c s = .next t ∧ OnlyCore n s t ∧ (getCore t n).i.fault = some f ∧ f.cause = 5 ∧ (getCore t n).u = k.u)

/-- R109: the rules about special values. -/
def Obligations.FpuResultsFollowTheRules : Prop :=
  ∀ a b c : Word,
    (∀ o : FpuOpc, o ≠ .ftoi → o ≠ .eq → o ≠ .lt → o ≠ .le → fIsNaN (fpuResult o a b c).1 = true → (fpuResult o a b c).1 = 0x7FC00000#32) ∧
    (∀ o ∈ [FpuOpc.eq, .lt, .le], fIsNaN a = true ∨ fIsNaN b = true → (fpuResult o a b c).1 = 0) ∧
    (fIsNaN a = true → fpuResult .ftoi a b c = (0, 1)) ∧
    (fIsNaN a = false → fSign a = false → 0x4F000000 ≤ a.toNat → fpuResult .ftoi a b c = (0x7FFFFFFF#32, 1)) ∧
    (fIsNaN a = false → 0xCF000000 < a.toNat → fpuResult .ftoi a b c = (0x80000000#32, 1)) ∧
    (∀ o : FpuOpc, (fpuResult o a b c).2.toNat < 32) ∧
    (fIsNaN a = false → fIsInf a = false → fIsZero a = false → fIsZero b = true →
      fpuResult .div a b c = (signBits (fSign a != fSign b) 0x7F800000, 2))

/-- R44, R53, R137: parallel register moves in a bundle and in an iteration of a repeat. -/
def Obligations.BundleMovesRunInParallel : Prop :=
  ∀ (s : State) (n : Nat) (b : Bund), mayIssue s n = true →
    let k := getCore s n
    k.i.delay = none → nextFront s n = .bund b → withPair s n b = [b] → endsActive k b.off = false → b.ms.any repeatForbids = false →
    (∀ m ∈ b.ms, m.dst < 0x40 ∧ ((∃ v, m.src = .imm v) ∨ ∃ c, m.src = .sock c ∧ c < 0x40)) →
    ((b.ms.filter (guardOf k)).map Move.dst).Nodup →
    let value := fun (m : Move) => match m.src with | .imm v => v | .sock c => greg k c
    let moved := fun (c : Instr) (repc : BitVec 16) (P : Issue → Prop) =>
      ∃ t, exec c s = .next t ∧ OnlyCore n s t ∧
        let k' := getCore t n
        (∀ m ∈ b.ms, guardOf k m = true → greg k' m.dst = value m) ∧
        (∀ r, (∀ m ∈ b.ms, guardOf k m = true → m.dst ≠ r) → greg k' r = greg k r) ∧
        k'.u = k.u ∧ k'.bits = k.bits ∧ k'.q = k.q ∧ k'.st = k.st ∧ k'.r = { k.r with hushRem := k'.r.hushRem, repc } ∧
        k'.e = { k.e with hushEnd := k'.e.hushEnd } ∧ k'.lp = { k.lp with pass := false, stepping := k'.lp.stepping } ∧
        k'.i.run = .running ∧ k'.i.steps = k.i.steps + 1 ∧ P k'.i
    (b.rpt = false → moved (.bundleIssue n) k.r.repc fun i => i.pc = BitVec.ofNat 32 (b.off + b.size) ∧ i.rep = k.i.rep) ∧
    (b.rpt = true → ∀ r, repeatNow k b = some r → 0 < r.left →
      moved (.repeatIteration n) (if r.useRepc then k.r.repc - 1 else k.r.repc) fun i =>
        if r.left = 1 then i.rep = none ∧ i.pc = BitVec.ofNat 32 (b.off + b.size)
        else i.rep = some { r with left := r.left - 1, begun := true } ∧ i.pc = k.i.pc)

/-- R126, R192, R203: what an entry writes, for a fault and for an event. -/
def Obligations.ExceptionEntrySavesAndGoesToEvec : Prop :=
  ∀ (s : State) (n : Nat), corePresent s n = true →
    let k := getCore s n
    k.i.run = .running → k.lp.halted = false →
    let entered := fun (epc : Word) (rp : Option Nat) (cause : Word) (ev bad : Option Word) (events : List Nat) =>
      ∃ t, exec (.exceptionEntry n) s = .next t ∧
        t = { s with cores := t.cores, clusters := t.clusters, router := { s.router with pending := events } } ∧
        (∀ m, m ≠ n → getCore t m = getCore s m) ∧ (∀ c, { getCluster t c with trace := [] } = { getCluster s c with trace := [] }) ∧
        let k' := getCore t n
        k'.g = k.g ∧ k'.bits = k.bits ∧ k'.u.sk = k.u.sk ∧ k'.q = k.q ∧ k'.st = k.st ∧
        k'.r = { k.r with
          epc := epc &&& 0xFFFFFFF8#32, epsw := readPsw s n k false ||| (if rp.isSome then 16#32 else 0), cause,
          evnum := ev.getD k.r.evnum, badaddr := bad.getD k.r.badaddr, psw := (k.r.psw ||| 1#32) &&& 0xFFFFFFFD#32,
          pstk := (k.r.pstk <<< 1) ||| (if isSup k then 1#8 else 0#8), grant := false, chainc := 0, hushRem := 0,
          repc := rp.elim k.r.repc (BitVec.ofNat 16), mlo := k'.r.mlo, mhi := k'.r.mhi } ∧
        k'.i.pc = k.r.evec ∧ k'.i.steps = k.i.steps + 14 ∧ k'.i.fault = none ∧ k'.i.run = .running
    (∀ f, k.i.fault = some f → k.i.fills = 0 → k.i.first = false →
      entered f.epc f.rep (causeWord f.cause f.sw f.slot f.second) none f.bad s.router.pending) ∧
    (∀ e code, k.i.fault = none → boundary s n = true → clusterHolds s n = false → recognisable s n (isIE k) = some (.event e code) →
      entered k.i.pc (repLeft s n) (BitVec.ofNat 32 code) (some (BitVec.ofNat 32 (e + routePrio (routeOf s e) * 0x10000))) none
        (s.router.pending.filter fun x => x != e) ∧ (code = 0x40 ∨ code = 0x41))

/-- R83, R100, R114, R200: the commands of a core that issue no program bundle. -/
def Obligations.FillBreakHushAndSleep : Prop :=
  ∀ (s : State) (n : Nat), corePresent s n = true →
    let k := getCore s n
    k.lp.halted = false →
    let same := fun (c : Instr) (P : LensCore → Prop) =>
      ∃ t, exec c s = .next t ∧ OnlyCore n s t ∧
        let k' := getCore t n
        k'.g = k.g ∧ k'.bits = k.bits ∧ k'.u = k.u ∧ k'.q = k.q ∧ k'.st = k.st ∧ k'.r = { k.r with hushRem := k'.r.hushRem } ∧ P k'
    (k.i.run = .running → dueUndelivered s n = false → 0 < k.i.fills → same (.fillBundle n) fun k' =>
      k'.i.fills = k.i.fills - 1 ∧ k'.i.steps = k.i.steps + 1 ∧ k'.i.pc = k.i.pc) ∧
    (∀ tag, mayIssue s n = true → k.i.delay = none → nextFront s n = .brk tag → same (.breakBundle n) fun k' =>
      k'.i.steps = k.i.steps ∧ k'.i.pc = k.i.pc ∧ k'.r = k.r ∧
      if k.lp.brken then k'.lp.halted = true ∧ k'.lp.why = 4 ∧ k'.i.fault = none
      else k'.lp = k.lp ∧ k'.i.fault = some { cause := 0x1A, slot := 0, second := false, sw := tag, bad := none, epc := k.i.pc, rep := none }) ∧
    (k.e.hushEnd ≠ none → hushOpen s n = false → same (.hushWindowClose n) fun k' =>
      k'.r.hushRem = 0 ∧ k'.e = { k.e with hushEnd := none } ∧ k'.i = k.i ∧ k'.lp = k.lp) ∧
    (k.i.run = .sleeping → clusterHolds s n = false → wakePending s n = true → recognisable s n (isIE k) = none → same (.sleepWake n) fun k' =>
      k'.i = { k.i with run := .running } ∧ k'.r = k.r ∧ k'.e = k.e ∧ k'.lp = k.lp)

/-- R115 to R117: the delivery of the wanted line from its source, code flash in the channel's turn. -/
def Obligations.FetchDeliversTheLine : Prop :=
  ∀ (s : State) (n : Nat), corePresent s n = true → s.ecc = [] → (∀ c b, (getBank s c b).loan = none) →
    let k := getCore s n
    let o := k.i.pc.toNat / 32 * 32
    let ap := apOf k n 0
    let p := ap.start + o
    let v := getCluster s (clusterOf n)
    k.i.run = .running → findLine k.i.lines k.i.pc.toNat = none → (∀ c ∈ k.i.cache, c.1 ≠ p ∧ c.2.any FWord.bad = false) → fetchWaits k n = false →
    let delivered := fun (t : State) => (∀ m, m ≠ n → getCore t m = getCore s m) ∧
      let k' := getCore t n
      k' = { k with i := k'.i } ∧ k'.i.pc = k.i.pc ∧ k'.i.run = .running ∧ k'.i.steps = k.i.steps ∧
      { off := o, ws := (List.range 4).map fun i => { w := anyWord s (globalOf n (p + 8 * i) / 8), bad := false }, err := none } ∈ k'.i.lines
    (o + 7 ≤ ap.limit.toNat → p + 31 < 0x100000000 → lineError s n p (ap.kind == 1) = none →
      (128 ≤ n ∨ v.flash = none ∧ flashNext s (clusterOf n) = none) →
      ∃ t, exec (.fetchLineDelivery n) s = .next t ∧ OnlyCore n s t ∧ delivered t) ∧
    (∀ l, flashLineAt s n o = some l → (v.flash.orElse fun _ => flashNext s (clusterOf n)) = some { core := n, line := l, kind := .demand } →
      ∃ t, exec (.fetchLineDelivery n) s = .next t ∧ t = { s with cores := t.cores, clusters := t.clusters } ∧ delivered t ∧
        (∀ c, c ≠ clusterOf n → getCluster t c = getCluster s c) ∧
        getCluster t (clusterOf n) = { v with flash := none, flashLast := n % 4 })

/-- R39, R40, R89 to R91, R109: deliveries into MHI:MLO and the result sockets. -/
def Obligations.PipeResultsReachTheirRegisters : Prop :=
  ∀ (s : State) (n : Nat),
    let k := getCore s n
    let becomes := fun (c : Instr) (k' : LensCore) => ∃ t, exec c s = .next t ∧ OnlyCore n s t ∧ getCore t n = k'
    (∀ p, (k.u.prods.filter fun p => decide (p.due ≤ k.i.steps)).getLast? = some p →
      becomes (.mulProductDelivery n) { k with
        r := { k.r with mhi := p.hi, mlo := p.lo }, u := { k.u with prods := k.u.prods.filter fun p => decide (k.i.steps < p.due) } }) ∧
    divLatency s n = (if isDet s n then 20 else if s.part.b0 then 14 else 18) ∧
    (∀ d, k.u.div = some d → d.trig + divLatency s n ≤ k.i.steps →
      becomes (.divDelivery n) { k with
        u := { k.u with div := none, sk := Tab.put 0x234 d.rem (Tab.put 0x233 d.quo k.u.sk) },
        bits := match d.flag with | some b => withBit s n b true | none => k.bits }) ∧
    (∀ f rest, k.u.fpu = f :: rest → f.trig + f.lat ≤ k.i.steps →
      becomes (.fpuDelivery n) { k with u := { k.u with fpu := rest, sk := Tab.put 0x293 f.fl (Tab.put 0x292 f.out k.u.sk) } })

/-- R93, R94, R154, R157: what a load delivery, a drain and a merge write-out do. -/
def Obligations.LoadsDeliverStoresDrain : Prop :=
  ∀ (s : State) (n : Nat),
    let k := getCore s n
    (∀ (i : Nat) (l : Load) (d : LoadData), k.u.loads[i]? = some l → l.data = some d → l.deliv = false → l.kind ≠ .device → l.toFrame = none →
      l.outst = true → (lsuHit n l = true → loadDue s n l ≤ k.i.steps) →
      let v := getCluster s (clusterOf n)
      let flash := flashLoad s n l
      (flash = true → (v.flash.orElse fun _ => flashNext s (clusterOf n)) = some { core := n, line := l.addr.toNat / 64, kind := .load }) →
      ∃ t ls, exec (.loadDelivery n i) s = .next t ∧ t = { s with cores := t.cores, clusters := t.clusters } ∧ (∀ m, m ≠ n → getCore t m = getCore s m) ∧
        (∀ c, c ≠ clusterOf n → getCluster t c = getCluster s c) ∧
        getCluster t (clusterOf n) = { v with
          flash := if flash then none else v.flash, flashLast := if flash then n % 4 else v.flashLast,
          overrun := if lsuHit n l || !isDet s n then v.overrun else min 0xFFFFFFFF (v.overrun + (k.i.steps - (l.trig + 3))) } ∧
        getCore t n = { k with u := { k.u with
          loads := ls ++ { l with deliv := true } :: k.u.loads.drop (i + 1),
          sk := if d.pois.isSome then k.u.sk else Tab.put 0x24B d.val k.u.sk } } ∧
        ∀ x ∈ ls, x.toFrame ≠ none ∨ x.outst = false) ∧
    (∀ (e : StoreEntry) (rest : List StoreEntry), k.u.stores = e :: rest → e.kind = .normal → e.linked = false → storeBlocked s n e = false →
      classicWait s n e.word = false → s.ecc = [] → Mem.wf s.mem = true →
      (rivalOf s n e.word = none → ((∃ m, placeOf e.word = .scratch m) ∨ (∃ c, placeOf e.word = .xram c) ∨ ∃ c, placeOf e.word = .bits c) →
        ∃ t, exec (.storeDrain n) s = .next t ∧ t = { s with cores := t.cores, mem := t.mem } ∧ (∀ m, m ≠ n → getCore t m = getCore s m) ∧
          getCore t n = { k with u := { k.u with stores := rest } } ∧
          ∀ x, Mem.read x t.mem = if x / 8 = e.word ∧ e.mask.getLsbD (x % 8) = true then byteOf e.data (x % 8) else Mem.read x s.mem) ∧
      (∀ c b, placeOf e.word = .bank c b → (getBank s c b).loan = none → (∀ x ∈ (getBank s c b).merge, x.word ≠ e.word) →
        (getBank s c b).merge.length < 4 → e.mask ≠ 0xFF →
        ∃ t, exec (.storeDrain n) s = .next t ∧ t = { s with cores := t.cores, clusters := t.clusters } ∧
          (∀ m, m ≠ n → getCore t m = getCore s m) ∧ getCore t n = { k with u := { k.u with stores := rest } } ∧
          (∀ c', c' ≠ c → getCluster t c' = getCluster s c') ∧ (∀ b', b' ≠ b → getBank t c b' = getBank s c b') ∧
          getBank t c b = { getBank s c b with merge := (getBank s c b).merge ++
            [{ word := e.word, mask := e.mask, data := e.data &&& maskBits e.mask, core := n, opened := k.i.steps }] })) ∧
    (∀ (c b : Nat) (e : MergeEntry), s.ecc = [] → Mem.wf s.mem = true →
      ((getBank s c b).merge.find? fun e => decide (e.opened + 17 ≤ stepsOf s e.core)) = some e → bankAt (8 * e.word) = some (c, b) →
      (∀ x ∈ (getBank s c b).merge, x.word = e.word → x = e) →
      ∃ t, exec (.mergeWriteOut c b) s = .next t ∧ t = { s with clusters := t.clusters, mem := t.mem } ∧
        (∀ c', c' ≠ c → getCluster t c' = getCluster s c') ∧ (∀ b', b' ≠ b → getBank t c b' = getBank s c b') ∧
        getBank t c b = { getBank s c b with merge := (getBank s c b).merge.filter fun x => x.word != e.word } ∧
        (∀ x, Mem.read x t.mem = if x / 8 = e.word ∧ e.mask.getLsbD (x % 8) = true then byteOf e.data (x % 8) else Mem.read x s.mem) ∧
        ∀ w, visWord t w = visWord s w)

/-- R214 to R219: the answers of the engine. -/
def Obligations.BeamEngineAnswers : Prop :=
  ∀ (s : State) (n : Nat) (o : BeamOp), (getCore s n).u.beam = some o → isDet s n = false → s.ecc = [] → Mem.wf s.mem = true →
    o.res = none → o.trig + (if s.part.b0 then 40 else 52) ≤ (getCore s n).i.steps → servedBefore s n (opQuad o) = [] →
    let k := getCore s n
    let b := o.arg.toNat
    let x := getBeam s b
    let answers := fun (st out : Word) (P : State → Prop) =>
      ∃ t, exec (.beamOperationDelivery n) s = .next t ∧
        t = { s with cores := t.cores, beams := t.beams, clusters := t.clusters, facets := t.facets, mem := t.mem } ∧
        (∀ m, m ≠ n → getCore t m = getCore s m) ∧
        getCore t n = { k with u := { k.u with beam := none, beamPois := none, sk := Tab.put 0x282 st (Tab.put 0x281 out k.u.sk) } } ∧
        (∀ c, { getCluster t c with cache := [], overrun := 0 } = { getCluster s c with cache := [], overrun := 0 } ∧
          ((getCluster s c).overrun ≤ 0xFFFFFFFF → (getCluster t c).overrun = (getCluster s c).overrun)) ∧ P t
    let onlyBeam := fun (t : State) => ∀ c, c ≠ b → getBeam t c = getBeam s c
    let held := x.valid = true ∧ b < nBeams s ∧ x.locked = true ∧ x.locker.toNat = n
    (o.kind = .find → keyBad o.arg = false → keyFacet o.arg / 64 < nQuads s →
      let hit := (beamWays o.arg).find? fun c => (getBeam s c).valid && (getBeam s c).key == o.arg
      answers (if hit.isSome then 0 else 1) (hit.elim noBeam (BitVec.ofNat 32)) fun t => t.beams = s.beams ∧ t.facets = s.facets ∧ t.mem = s.mem) ∧
    (o.kind = .lock → x.valid = true → b < nBeams s → x.locked = false → x.poison = false → (128 ≤ n ∨ x.owner.toNat = n) → n < 256 →
      lockCount s n < 8 → (∀ y, cachedCtx s n b = some y → y = x) → o.buf % 8 = 0 → o.buf + 64 ≤ 0x10000 →
      answers 0 o.arg fun t => onlyBeam t ∧ t.facets = s.facets ∧
        getBeam t b = { x with locked := true, locker := BitVec.ofNat 8 n, lockVer := x.version } ∧
        Mem.readAll (scratchBase n + o.buf) 64 t.mem = ctxOctets (getBeam t b) ∧
        ∀ a, (a < scratchBase n + o.buf ∨ scratchBase n + o.buf + 64 ≤ a) → Mem.read a t.mem = Mem.read a s.mem) ∧
    (o.kind = .commit → held → x.version = x.lockVer →
      answers 0 o.arg fun t => onlyBeam t ∧ t.mem = s.mem ∧
        getBeam t b = { commitFields x o.data with locked := false, locker := 0xFF, version := x.version + 1, heldrx := 0, heldtx := 0,
                                                   txframes := (getBeam t b).txframes } ∧
        ∀ p, (getFacet t p).queue = (getFacet s p).queue.map fun d => if heldFor b d then { d with held := false } else d) ∧
    (o.kind = .drop → held → (∀ p, (getFacet s p).queue.filter (heldFor b) = []) →
      answers 0 o.arg fun t => onlyBeam t ∧ t.mem = s.mem ∧ (∀ p, getFacet t p = getFacet s p) ∧
        getBeam t b = { x with locked := false, locker := 0xFF, heldtx := 0 })

/-- R102, R104, R105, R168: the three ends of a copy operation. -/
def Obligations.CopyOperationsEnd : Prop :=
  ∀ (s : State) (n : Nat) (o : CopyOp), (getCore s n).u.copy = some o → o.park = none → isDet s n = false → Mem.wf s.mem = true →
    let k := getCore s n
    let lo := scratchBase n
    let own := fun (a : Nat) => lo ≤ a ∧ a + o.left ≤ lo + 0x10000
    let ends := fun (t : State) (st out : Word) => (∀ m, m ≠ n → getCore t m = getCore s m) ∧
      getCore t n = { k with u := { k.u with copy := none, sk := Tab.put 0x27A st (Tab.put 0x279 out k.u.sk) } }
    (o.remote = 0 → copyReady s n o = true → s.ecc = [] → own o.dstP → 0 < o.left →
      (o.kind = .fill ∧ o.down = false) ∨ (o.kind = .move ∧ own o.srcP ∧ o.down = decide (o.srcP < o.dstP ∧ o.dstP < o.srcP + o.left)) →
      ∃ t, exec (.copyCompletion n) s = .next t ∧ t = { s with cores := t.cores, mem := t.mem } ∧
        ends t 0 (BitVec.ofNat 32 (o.done + o.left)) ∧
        (∀ i, i < o.left → Mem.read (o.dstP + i) t.mem =
          if o.kind = .fill then (o.word >>> (8 * ((o.done + i) % 4))).setWidth 8 else Mem.read (o.srcP + i) s.mem) ∧
        ∀ a, (a < o.dstP ∨ o.dstP + o.left ≤ a) → Mem.read a t.mem = Mem.read a s.mem) ∧
    (o.remote = 0 → (o.kind = .move ∨ o.kind = .crc) → o.down = false → own o.srcP → 0 < o.left → s.ecc = [(o.srcP / 8, 3)] →
      ∃ t, exec (.copyDataErrorStop n) s = .next t ∧ t = { s with cores := t.cores, clusters := t.clusters, router := t.router } ∧
        ends t 3 (BitVec.ofNat 32 o.done) ∧
        (n < 128 → t.router = { s.router with raised := t.router.raised } ∧ (∀ c, c ≠ clusterOf n → getCluster t c = getCluster s c) ∧
          getCluster t (clusterOf n) = { getCluster s (clusterOf n) with clevt := (getCluster s (clusterOf n)).clevt ||| 0x4000000#32 }) ∧
        (128 ≤ n → t.clusters = s.clusters ∧ t.router = s.router)) ∧
    (∀ c b, o.remote = 3 → o.down = false → 0 < o.left → bankAt o.dstP = some (c, b) → b < 4 → (getBank s c b).fopen = false →
      ∃ t, exec (.remoteCopyRefusal n) s = .next t ∧ t = { s with cores := t.cores } ∧ ends t 5 (BitVec.ofNat 32 o.done))

/-- R169: acceptance of a write of BANKOWN; and the write of BANKCFG. -/
def Obligations.BankOwnershipWrites : Prop :=
  ∀ (s : State) (n c k : Nat) (v : Word), c < nClusters s → k < 4 →
    let b := getBank s c k
    let o := field v 0 3
    let owner := (128 ≤ n ∧ s.active = some n) ∨ (n < 128 ∧ n / 4 = c ∧ b.owner = n % 4)
    let serves := if o = 4 then s.active ≠ none else corePresent s (4 * c + o) = true ∧ (getCore s (4 * c + o)).i.run ≠ .retired
    let accepted := owner ∧ b.pend = none ∧ o ≤ 4 ∧ serves
    let only := fun (cmd : Instr) (P : Bank → Prop) =>
      ∃ t, exec cmd s = .next t ∧ t = { s with clusters := t.clusters } ∧ (∀ x, x ≠ c → getCluster t x = getCluster s x) ∧
        { getCluster t c with banks := [] } = { getCluster s c with banks := [] } ∧ (∀ j, j ≠ k → getBank t c j = getBank s c j) ∧ P (getBank t c k)
    (accepted ∧ o = b.owner → exec (.bankownWrite (.core n) c k v) s = .next s) ∧
    (accepted ∧ o ≠ b.owner → only (.bankownWrite (.core n) c k v) fun x => ∃ i, x = { b with pend := some o, pendId := i }) ∧
    (¬ accepted → only (.bankownWrite (.core n) c k v) fun x => x = { b with refused := true }) ∧
    (owner → only (.bankcfgWrite (.core n) c k v) fun x => x = { b with noloan := v.getLsbD 0, fopen := v.getLsbD 1 }) ∧
    (¬ owner → only (.bankcfgWrite (.core n) c k v) fun x => x = { b with refused := true })

/-- R170, R180 to R185: what the memory block does by itself. -/
def Obligations.MemoryMaintenance : Prop :=
  ∀ (s : State) (c k : Nat),
    let b := getBank s c k
    let clean := s.ecc = [] ∧ Mem.wf s.mem = true
    let hover := (1#32 <<< (20 + k) : Word)
    (∀ o, b.pend = some o → handoverWaits s c k = false →
      (∃ t, exec (.handoverCompletion c k) s = .next t ∧ (getBank t c k).owner = o ∧ (getBank t c k).pend = none ∧ (getCluster t c).clevt &&& hover = hover) ∧
      (b.merge = [] ∨ (clean ∧ ∀ e ∈ b.merge, bankAt (8 * e.word) = some (c, k)) →
        ∃ t, exec (.handoverCompletion c k) s = .next t ∧
          t = { s with clusters := t.clusters, mem := t.mem, router := { s.router with raised := t.router.raised } } ∧
          (∀ x, x ≠ c → getCluster t x = getCluster s x) ∧ (∀ j, j ≠ k → getBank t c j = getBank s c j) ∧
          getBank t c k = { b with owner := o, pend := none, pendId := 0, merge := [] } ∧
          { getCluster t c with banks := [], clevt := 0 } = { getCluster s c with banks := [], clevt := 0 } ∧
          (getCluster t c).clevt = (getCluster s c).clevt ||| hover ∧ ∀ w, visWord t w = visWord s w)) ∧
    (∀ m w, memWord s m w = none → exec (.scrubWord m w) s = .next s) ∧
    (∀ m w g, memWord s m w = some g →
      (eccOf s g ≠ 1 ∧ eccOf s g ≠ 2 → exec (.scrubWord m w) s = .next { s with polisher := passOver s.polisher m w }) ∧
      (eccOf s g = 1 → Tab.sorted s.ecc = true →
        ∃ t, exec (.scrubWord m w) s = .next t ∧ eccOf t g = 0 ∧ t.mem = s.mem ∧ t.cores = s.cores ∧ t.polisher = passOver s.polisher m w) ∧
      (eccOf s g = 2 →
        ∃ t, exec (.scrubWord m w) s = .next t ∧ eccOf t g = 3 ∧ t.mem = s.mem ∧ t.cores = s.cores ∧ t.polisher = passOver s.polisher m w)) ∧
    (s.polisher.since + ent s 0x2400 1 * 1000000 ≤ s.tb →
      exec .scrubPeriodEnd s = .next (if scrubTotal s ≤ s.polisher.done
        then { setEnt s 0x2400 4 (min 0xFFFFFFFF (ent s 0x2400 4 + 1)) with polisher := { done := 0, since := s.tb, pos := [] } }
        else { setEnt s 0x2400 5 (min 0xFFFFFFFF (ent s 0x2400 5 + 1)) with polisher := { s.polisher with since := s.tb } })) ∧
    (∀ m g, memWord s m 0 = some g →
      ∃ t, exec (.correctionHistoryExpiry m) s = .next t ∧ t = { s with clusters := t.clusters, quads := t.quads, mhist := t.mhist } ∧
        historyAt t (placeOf g) = (historyAt s (placeOf g)).filter fun e => decide (s.tb ≤ e.first + 86400000000000)) ∧
    (mayLend s c k = true →
      (∃ t l, exec (.loanStart c k) s = .next t ∧ (getBank t c k).loan = some l ∧ l.win = b.nextWin ∧ l.shadow.length = 32 ∧
        (getBank t c k).nextWin = (b.nextWin + 1) % 1024 ∧ (getBank t c k).lastLoan = s.tb) ∧
      (b.nextWin < 1024 → clean →
        ∃ t, exec (.loanStart c k) s = .next t ∧ t = { s with clusters := t.clusters, mem := t.mem } ∧ (∀ x, x ≠ c → getCluster t x = getCluster s x) ∧
          (∀ j, j ≠ k → getBank t c j = getBank s c j) ∧
          getBank t c k = { b with
            loan := some { win := b.nextWin, shadow := (List.range 32).map fun i => (visWord s ((bankBase c k + b.nextWin * 256) / 8 + i), 0) },
            nextWin := (b.nextWin + 1) % 1024, lastLoan := s.tb, merge := (getBank t c k).merge } ∧
          ∀ w, visWord t w = visWord s w)) ∧
    (∀ l bad, b.loan = some l → ∃ t, exec (.loanReturn c k bad) s = .next t ∧ (getBank t c k).loan = none ∧ t.cores = s.cores ∧
      ∀ i, bad = [i] → i < 32 → c < 32 → k < 4 → l.win < 1024 → b.remap.length < 16 →
        (getBank t c k).remap = b.remap ++ [(bankBase c k + l.win * 256) / 8 + i]) ∧
    (∀ l, b.loan = some l → l.shadow.length = 32 → (∀ x ∈ l.shadow, x.2 = 0) → s.ecc = [] → Mem.wf s.mem = true →
      ∃ t, exec (.loanReturn c k []) s = .next t ∧ t = { s with clusters := t.clusters, mem := t.mem } ∧
        (∀ x, x ≠ c → getCluster t x = getCluster s x) ∧ (∀ j, j ≠ k → getBank t c j = getBank s c j) ∧
        getBank t c k = { b with loan := none } ∧
        let lo := bankBase c k + l.win * 256
        (∀ i, i < 32 → rawWord t (lo / 8 + i) = (l.shadow.getD i (0, 0)).1) ∧
        ∀ a, (a < lo ∨ lo + 256 ≤ a) → Mem.read a t.mem = Mem.read a s.mem) ∧
    (s.power.stage = 5 → Mem.wf s.mem = true →
      ∃ t, exec .memoryFill s = .next t ∧
        t = { s with cores := t.cores, mem := t.mem, ecc := t.ecc, beams := [], power := { s.power with stage := 6 } } ∧
        (∀ a, Mem.read a t.mem = if inFlash a then Mem.read a s.mem else 0) ∧ (∀ w, inFlash (8 * w) = false → eccOf t w = 0) ∧
        (∀ n, n < 128 → getCore t n = getCore s n) ∧
        ∀ n, n = 128 ∨ n = 129 → isRetired s n = false → (getCore t n).i.run = .running ∧ (getCore t n).i.pc = 0)

/-- R194, R202 to R204. -/
def Obligations.EventsWatchdogAndWindow : Prop :=
  ∀ (s : State) (n : Nat), corePresent s n = true →
    let k := getCore s n
    let core := fun (c : Instr) (k' : LensCore) => ∃ t, exec c s = .next t ∧ OnlyCore n s t ∧ getCore t n = k'
    (∀ v, let x := v.toNat % 1024
      if (560 ≤ x ∧ x ≤ 687) ∨ x = 768 ∨ x = 769 ∨ 928 ≤ x
      then exec (.evraiseWrite n v) s = .next { s with router := { s.router with raised := s.router.raised ++ [x] } }
      else core (.evraiseWrite n v) { k with e := { k.e with badraise := true } }) ∧
    (∀ src, s.router.raised.contains src = true → neverPending s src = false →
      let r : Router := { s.router with raised := s.router.raised.erase src };
      (routeEn (routeOf s src) = false → exec (.eventDelivery src) s = .next { s with router := r }) ∧
      (routeEn (routeOf s src) = true → src ∉ s.router.pending →
        ∃ t, exec (.eventDelivery src) s = .next t ∧ t = { s with router := { r with pending := t.router.pending } } ∧
          ∀ x, x ∈ t.router.pending ↔ x = src ∨ x ∈ s.router.pending) ∧
      (routeEn (routeOf s src) = true → src ∈ s.router.pending → targetCore s src = some n →
        ∃ t, exec (.eventDelivery src) s = .next t ∧ t = { s with router := r, cores := t.cores } ∧ (∀ m, m ≠ n → getCore t m = getCore s m) ∧
          getCore t n = { k with e := { k.e with evovf := if k.e.evovf = 0xFFFFFFFF#32 then k.e.evovf else k.e.evovf + 1 } })) ∧
    (∀ src v, src < 1024 →
      if 131 ≤ v % 256 ∨ 4096 ≤ v ∨ (unmaskable src = true ∧ v / 2048 % 2 = 0) ∨ ((src = 772 ∨ src = 778) ∧ v % 256 ≠ 130)
      then exec (.routeWrite src v) s = .next { s with lastAbort := some 0x03000001#32 }
      else ∃ t, exec (.routeWrite src v) s = .next t ∧ t = { s with ent := t.ent, router := { s.router with pending := t.router.pending }, lastAbort := none } ∧
        routeOf t src = v ∧ (∀ x, x ≠ src → routeOf t x = routeOf s x) ∧
        t.router.pending = if v / 2048 % 2 = 1 then s.router.pending else s.router.pending.filter fun e => e != src) ∧
    (wdDue s k = true → k.e.wdFirst = false →
      core (.watchdogFirstExpiry n) { k with e := { k.e with wdFirst := true, wd20 := true, wdStart := s.tb, wdAcc := 0 } }) ∧
    (∀ v : Word, core (.watchdogKick n v) { k with e := { k.e with
      wdPeriod := if 128 ≤ n ∧ v.setWidth 16 = (0 : BitVec 16) then k.e.wdPeriod else v.setWidth 16,
      wdFirst := if v.getLsbD 16 then false else k.e.wdFirst,
      wdStart := if 128 ≤ n ∧ v.setWidth 16 = (0 : BitVec 16) ∧ v.getLsbD 16 = false then k.e.wdStart else s.tb,
      wdAcc := if 128 ≤ n ∧ v.setWidth 16 = (0 : BitVec 16) ∧ v.getLsbD 16 = false then k.e.wdAcc else 0 } }) ∧
    (let c := k.e.sksel.toNat;
      (windowCode s c = .operand → exec (.skvalRead n) s = .next { s with rdata := some (sockOf s n c) } ∧
        ∀ v, core (.skvalWrite n v) { k with u := withSock s n c (if c = 0x272 then v &&& 0x1FF7#32 else v) }) ∧
      (windowCode s c = .none →
        (∃ t, exec (.skvalRead n) s = .next t ∧ t = { s with cores := t.cores, rdata := some 0 } ∧ (∀ m, m ≠ n → getCore t m = getCore s m) ∧
          getCore t n = { k with e := { k.e with skbad := true } }) ∧
        ∀ v, core (.skvalWrite n v) { k with e := { k.e with skbad := true } }) ∧
      (windowCode s c = .result → windowBusy k c = false → c ∉ [0x402, 0x403, 0x24C, 0x281, 0x282] →
        exec (.skvalRead n) s = .next { s with rdata := some (sockOf s n c) } ∧ ∀ v, core (.skvalWrite n v) { k with u := withSock s n c v }) ∧
      (windowCode s c = .result → windowBusy k c = true → ∀ v, core (.skvalWrite n v) { k with e := { k.e with skref := true } }))

/-- R202, R266 to R270, R283. -/
def Obligations.CoreFaultsStopRestartAndRetire : Prop :=
  ∀ (s : State) (n : Nat), n < nCores s →
    let k := getCore s n
    let c := n / 4
    let settled := k.u.beam = none ∧ (∀ e ∈ s.beams, ¬ (e.2.locked = true ∧ e.2.locker.toNat = n)) ∧ ownMerges s n = []
    let idle := ∀ j, j < 4 → (getBank s c j).merge = [] ∧ (getBank s c j).loan = none
    let runs := k.i.run = .running ∨ k.i.run = .sleeping ∨ k.i.run = .halted
    let mate := ∃ m, m ≠ n ∧ m / 4 = c ∧ coreServes s m = true
    let stops := fun (cmd : Instr) (reason : Nat) =>
      ∃ t, exec cmd s = .next t ∧ t = { s with cores := t.cores, router := { s.router with raised := s.router.raised ++ [800 + n] } } ∧
        (∀ m, m ≠ n → getCore t m = getCore s m) ∧
        getCore t n = { k with
          i := { k.i with run := .stopped, fault := none }, u := dropWork k.u,
          st := { k.st with reason, faults := satInc 0xFFFFFFFF k.st.faults, history := (s.tb :: k.st.history).take 3, decide := true } }
    let retires := fun (cmd : Instr) (reason : Nat) =>
      ∃ t, exec cmd s = .next t ∧
        t = { s with
          cores := t.cores, clusters := t.clusters, quads := t.quads, beams := t.beams, facets := t.facets, ecc := t.ecc, router := t.router,
          errs := t.errs, emerg := t.emerg, ent := t.ent, iris := { s.iris with fresh := true }, lastAbort := t.lastAbort,
          edp := { s.edp with steps := [(n, 1), (n, 2), (n, 3), (n, 4), (n, 5), (n, 6)] } } ∧
        (∀ m, m ≠ n → getCore t m = getCore s m) ∧ (getCore t n).i = { Issue.reset with run := .retired } ∧
        (getCore t n).st = { k.st with reason, decide := false, request := false, release := none } ∧
        t.router.raised.getLast? = some (800 + n) ∧
        t.errs.head? = some { code := 0x8120, origin := 1, time := s.tb, data := [BitVec.ofNat 8 n, BitVec.ofNat 8 reason] }
    let stopped := fun (cmd : Instr) (reason : Nat) =>
      ∃ t, exec cmd s = .next t ∧ (getCore t n).i.run = .stopped ∧ (getCore t n).st.reason = reason ∧ (getCore t n).st.decide = true ∧
        (getCore t n).u.stores = [] ∧ (getCore t n).u.loads = [] ∧ (getCore t n).u.copy = none ∧ (getCore t n).u.beam = none ∧ 800 + n ∈ t.router.raised
    let retired := fun (cmd : Instr) (reason : Nat) =>
      ∃ t, exec cmd s = .next t ∧ (getCore t n).i.run = .retired ∧ (getCore t n).st.reason = reason ∧ 800 + n ∈ t.router.raised
    (runs → stopped (.coreFault n .parity) 1) ∧
    (runs → k.i.first = true → k.i.fault ≠ none → stopped (.coreFault n .entryFault) 3) ∧
    (¬ runs → ∀ why, exec (.coreFault n why) s = .next s) ∧
    (runs → wdDue s k = true → k.e.wdFirst = true → stopped (.watchdogSecondExpiry n) 2) ∧
    (¬ (runs ∧ wdDue s k = true ∧ k.e.wdFirst = true) → exec (.watchdogSecondExpiry n) s = .next s) ∧
    (k.st.decide = true → k.i.run = .stopped → s.active ≠ none →
      let last := (∃ t0 t1 t2 l, k.st.history = t0 :: t1 :: t2 :: l ∧ t0 ≤ t2 + 86400000000000) ∨ k.st.request = true
      (last → retired (.coreFaultDecision n) k.st.reason) ∧
      (¬ last → ∃ t, exec (.coreFaultDecision n) s = .next t ∧ (getCore t n).st.restarts = satInc 0xFFFF k.st.restarts ∧ (getCore t n).st.decide = false ∧
        (∀ x, k.st.release = some x → s.img.force ≤ 1 → (getCore t n).i.run = .running ∧ (getCore t n).i.pc = x.pc) ∧
        (k.st.release = none ∨ 2 ≤ s.img.force → (getCore t n).i.run = .notReleased))) ∧
    (k.st.decide = false ∨ k.i.run ≠ .stopped ∨ s.active = none → exec (.coreFaultDecision n) s = .next s) ∧
    (k.i.run ≠ .retired → retired (.retirementRequest n 1) 4) ∧
    (settled → runs → stops (.coreFault n .parity) 1) ∧
    (settled → runs → wdDue s k = true → k.e.wdFirst = true → stops (.watchdogSecondExpiry n) 2) ∧
    (settled → idle → k.st.decide = true → k.i.run = .stopped → s.active ≠ none →
      let last := (∃ t0 t1 t2 l, k.st.history = t0 :: t1 :: t2 :: l ∧ t0 ≤ t2 + 86400000000000) ∨ k.st.request = true
      (last → mate → retires (.coreFaultDecision n) k.st.reason) ∧
      (¬ last → ∀ x, k.st.release = some x → s.img.force ≤ 1 →
        ∃ t, exec (.coreFaultDecision n) s = .next t ∧
          t = { s with cores := t.cores, facets := t.facets, mem := t.mem, ecc := t.ecc, ent := t.ent, errs := t.errs } ∧
          (∀ m, m ≠ n → getCore t m = getCore s m) ∧ (getCore t n).g = [] ∧
          (getCore t n).i = { Issue.reset with run := .running, pc := x.pc } ∧
          (getCore t n).r = { Regs.reset with ap := x.aps, inst := BitVec.ofNat 8 x.inst, ncores := BitVec.ofNat 8 x.ncores, psw := if x.pair then 0x25#32 else 5#32 } ∧
          (getCore t n).st = { k.st with restarts := satInc 0xFFFF k.st.restarts, decide := false } ∧
          t.errs.head? = some { code := 0x4201, origin := 1, time := s.tb, data := [BitVec.ofNat 8 n, BitVec.ofNat 8 k.st.reason] })) ∧
    (settled → idle → k.i.run ≠ .retired → mate → retires (.retirementRequest n 1) 4) ∧
    (∀ v, v ≠ 1 → exec (.retirementRequest n v) s = .next { s with lastAbort := some 0x03000001#32 }) ∧
    (∀ m, (m = n ∧ k.i.run = .retired) ∨ m = 128 ∨ m = 129 → exec (.retirementRequest m 1) s = .next { s with lastAbort := some 0x04000001#32 })

/-- R277, R281, R284, R285, R361. -/
def Obligations.WardenFaultsAndRequalification : Prop :=
  (∀ (s : State) (w a : Nat), w = 128 ∨ w = 129 → s.active = some a → a = 128 ∨ a = 129 →
    let k := getCore s w
    let o := if w = 128 then 129 else 128
    let settled := k.u.beam = none ∧ (∀ e ∈ s.beams, ¬ (e.2.locked = true ∧ e.2.locker.toNat = w)) ∧ ownMerges s w = [] ∧ ∀ c b, (getBank s c b).loan = none
    let calm := s.img.stage = 0 ∧ s.edp.jobs = []
    let third := ∃ t1 t2, (k.st.history.take 2 = [t1, t2]) ∧ s.tb ≤ t2 + 86400000000000
    let fresh := { Regs.reset with ncores := if 10 ≤ s.power.stage then BitVec.ofNat 8 s.img.ncores else 0 }
    let inService := k.i.run = .running ∨ k.i.run = .sleeping ∨ k.i.run = .halted
    (¬ inService → k.i.run ≠ .stopped → ∀ why pass, exec (.wardenFault w why pass) s = .next s) ∧
    (inService → ∀ pass : Bool, ∃ t, exec (.wardenFault w .parity pass) s = .next t ∧ (∀ m, m ≠ w → (getCore t m).i = (getCore s m).i) ∧
      (pass = true → ¬ third → (getCore t w).i = { Issue.reset with run := .running } ∧ (getCore t w).r = fresh) ∧
      ((pass = false ∨ third) → (getCore t w).i.run = .retired) ∧
      (a = w → (getCore s o).i.run ≠ .retired → t.active = some o ∧ 772 ∈ t.router.raised) ∧ (a = o → t.active = some o ∧ 778 ∈ t.router.raised)) ∧
    (settled → calm → (k.i.run = .running ∨ k.i.run = .sleeping ∨ k.i.run = .halted) → ∀ pass : Bool,
      (a = w → (getCore s o).i.run = .retired →
        ∃ t, exec (.wardenFault w .parity pass) s = .next t ∧ (∀ m, m ≠ w → getCore t m = getCore s m) ∧
          (pass = true → ¬ third → t = { s with cores := t.cores } ∧ (getCore t w).i = { Issue.reset with run := .running } ∧ (getCore t w).r = fresh) ∧
          ((pass = false ∨ third) → t.active = none ∧ t.power = { s.power with alarm := true } ∧ t.router.raised = s.router.raised ++ [772] ∧
            t.errs.head? = some { code := 0x8131, origin := 0, time := s.tb, data := [BitVec.ofNat 8 w] } ∧ (getCore t w).i.run = .retired)) ∧
      ((a = o ∨ (getCore s o).i.run ≠ .retired) →
      let told : State := if a = w then emergency (raise { s with active := some o } 772) 0x8130 0 [BitVec.ofNat 8 o, 1#8] else raise s 778
      ∃ t, exec (.wardenFault w .parity pass) s = .next t ∧ (∀ m, m ≠ w → getCore t m = getCore s m) ∧
        (pass = true → ¬ third → t = { told with cores := t.cores } ∧ (getCore t w).i = { Issue.reset with run := .running } ∧
          (getCore t w).r = fresh) ∧
        ((pass = false ∨ third) → t = { emergency told 0x8131 0 [BitVec.ofNat 8 w] with cores := t.cores } ∧
          (getCore t w).i.run = .retired ∧ (getCore t w).st.reason = if pass then 1 else 5)))) ∧
  (∀ (s : State) (obj : Nat) (cmd : Nat → Instr), (obj = 0x9001 ∧ cmd = .facetRequalification) ∨ (obj = 0x9004 ∧ cmd = .facetTest) →
    let p := ent s obj 1
    let fits := s.prbs = none ∧ p < nFacets s ∧ (if obj = 0x9001 then (getFacet s p).retired = true else (getFacet s p).retired = false ∧ ent s (0x3000 + p) 2 = 0)
    (fits → ∃ t, exec (cmd 1) s = .next t ∧ t = { s with ent := t.ent, prbs := some { obj, facet := p, since := s.tb }, lastAbort := none } ∧ ent t obj 5 = 1) ∧
    (¬ fits → exec (cmd 1) s = .next { s with lastAbort := some 0x04000001#32 }) ∧
    (∀ v, v ≠ 1 → exec (cmd v) s = .next { s with lastAbort := some 0x03000001#32 })) ∧
  (∀ (s : State) (x : Prbs) (locked : Bool) (errors : Nat), s.prbs = some x →
    x.since + (if locked then ent s x.obj 3 * 1000000 else 10000000) ≤ s.tb →
    let r := if locked = false then 3 else if ent s x.obj 4 < errors then 4 else 2
    (r ≠ 2 ∨ x.obj = 0x9004 → ∃ t, exec (.requalificationEnd locked errors) s = .next t ∧ t = { s with ent := t.ent, prbs := none } ∧ ent t x.obj 5 = r) ∧
    (r = 2 → x.obj = 0x9001 → ∃ t, exec (.requalificationEnd locked errors) s = .next t ∧ t.prbs = none ∧ ent t 0x9001 5 = 2 ∧
      (getFacet t x.facet).retired = false) ∧
    (r = 2 → x.obj = 0x9001 → (getFacet s x.facet).pendTab = none → ∃ t, exec (.requalificationEnd locked errors) s = .next t ∧
      t = { s with ent := t.ent, facets := t.facets, router := t.router, prbs := none } ∧ ent t 0x9001 5 = 2 ∧
      (∀ q, q ≠ x.facet → getFacet t q = getFacet s q) ∧ (getFacet t x.facet).retired = false)) ∧
  (∀ (s : State) (pass : Bool), ent s 0x9002 2 ≠ 1 →
    let n := ent s 0x9002 1
    let fits := corePresent s n = true ∧ (getCore s n).i.run = .retired ∧ s.active ≠ some n
    (fits → ∃ t, exec (.coreRequalification 1 pass) s = .next t ∧ t = { s with ent := t.ent, cores := t.cores, lastAbort := none } ∧
      (∀ m, m ≠ n → getCore t m = getCore s m) ∧ ent t 0x9002 2 = (if pass then 2 else 3) ∧
      (getCore t n).i.run = if pass then (if n < 128 then .notReleased else .running) else .retired) ∧
    (¬ fits → exec (.coreRequalification 1 pass) s = .next { s with lastAbort := some 0x04000001#32 }) ∧
    (∀ v, v ≠ 1 → exec (.coreRequalification v pass) s = .next { s with lastAbort := some 0x03000001#32 })) ∧
  (∀ (s : State) (pass : Bool), ent s 0x9003 2 ≠ 1 →
    let n := ent s 0x9003 1
    let x := getChan s n
    let fits := n < nChans s ∧ x.istat.getLsbD 10 = true
    (fits → ∃ t, exec (.channelRequalification 1 pass) s = .next t ∧ t = { s with ent := t.ent, chans := t.chans, lastAbort := none } ∧
      (∀ m, m ≠ n → getChan t m = getChan s m) ∧ ent t 0x9003 2 = (if pass then 2 else 3) ∧
      getChan t n = if pass then { x with istat := x.istat &&& 0x0FF#11 } else x) ∧
    (¬ fits → exec (.channelRequalification 1 pass) s = .next { s with lastAbort := some 0x04000001#32 }) ∧
    (∀ v, v ≠ 1 → exec (.channelRequalification v pass) s = .next { s with lastAbort := some 0x03000001#32 }))

/-- R301, R328, R347, R348, R360. -/
def Obligations.KeysGateAndHistoryWrites : Prop :=
  (∀ (s : State) (k : Nat) (key : Octets), 1 ≤ k → k ≤ 8 →
    let slot := fun (t : State) (i : Nat) => Tab.get (fun _ => LinkKey.unset) i t.keys.link
    (s.part.full = true → key.length = 32 →
      ∃ t, exec (.keySlotWrite k key) s = .next t ∧ t = { s with keys := { s.keys with link := t.keys.link }, lastAbort := none } ∧
        slot t k = { key := if key = List.replicate 32 0 then none else some key, prev := (slot s k).key, at_ := s.tb } ∧
        ∀ i, i ≠ k → slot t i = slot s i) ∧
    (s.part.full = true → key.length ≠ 32 → exec (.keySlotWrite k key) s = .next { s with lastAbort := some 0x03000001#32 }) ∧
    (s.part.full = false → exec (.keySlotWrite k key) s = .next { s with lastAbort := some 0x02000006#32 })) ∧
  (∀ (s : State) (key : Octets),
    let unset := fun (t : State) => { s.edp with active := { s.edp.active with unset := t.edp.active.unset } }
    (key.length = 32 →
      (∃ t, exec (.sessionKeyWrite 1 key) s = .next t ∧ t = { s with keys := { s.keys with oper := some key }, edp := unset t, lastAbort := none }) ∧
      (∃ t, exec (.sessionKeyWrite 2 key) s = .next t ∧ t = { s with keys := { s.keys with eng := some key }, edp := unset t, lastAbort := none }) ∧
      (∃ t, exec (.managementKeyWrite key) s = .next t ∧ t = { s with rfx := { s.rfx with key := some key }, edp := unset t, lastAbort := none })) ∧
    (key.length ≠ 32 → ∀ c, c = .sessionKeyWrite 1 key ∨ c = .sessionKeyWrite 2 key ∨ c = .managementKeyWrite key →
      exec c s = .next { s with lastAbort := some 0x03000001#32 })) ∧
  (∀ (s : State) (v : Nat),
    (s.power.loaded.getLsbD 256 = true → exec (.loupeGateWrite v) s = .next { s with lastAbort := some 0x04000001#32 }) ∧
    (s.power.loaded.getLsbD 256 = false → 2 < v → exec (.loupeGateWrite v) s = .next { s with lastAbort := some 0x03000001#32 }) ∧
    (s.power.loaded.getLsbD 256 = false → v ≤ 2 →
      ∃ t, exec (.loupeGateWrite v) s = .next t ∧ t = { s with ent := t.ent, cores := t.cores, lastAbort := none } ∧ ent t 0x9000 1 = v ∧
        (∀ i j, entKey i j ≠ entKey 0x9000 1 → ent t i j = ent s i j) ∧
        ∀ n, getCore t n =
          let k := getCore s n
          if v < 2 ∧ v ≠ ent s 0x9000 1 ∧ k.lp.halted = true
          then { k with lp := { k.lp with halted := false, why := 0, pass := true }, e := if k.i.run = .halted then k.e else { k.e with wdStart := s.tb } }
          else k)) ∧
  (∀ s : State, ∃ t, exec .errorHistoryClear s = .next t ∧ t = { s with errs := [], ent := t.ent, lastAbort := none } ∧ ent t 0x1200 2 = 0 ∧
    ∀ i j, entKey i j ≠ entKey 0x1200 2 → ent t i j = ent s i j)

/-- R212, R213, R223, R224. -/
def Obligations.BeamTableWindow : Prop :=
  ∀ (s : State) (b : Nat), b < nBeams s →
    let x := getBeam s b
    let writes := fun (c : Instr) (u : State → State) (i : Nat) (v : Word) =>
      let sets := fun (y : BeamCtx) => exec c s = .next (u (if y = x then s else setBeam s b { y with version := x.version + 1 }))
      (i = 0 ∨ i = 8 → sets x) ∧
      (i = 2 → sets { x with owner := v.setWidth 8 }) ∧
      (i = 4 → sets { x with rxframes := v }) ∧ (i = 5 → sets { x with rxbytes := v }) ∧
      (i = 6 → sets { x with txframes := v }) ∧ (i = 7 → sets { x with drops := v }) ∧
      (x.valid = false → i = 1 ∨ i = 3 ∨ 9 ≤ i → sets x) ∧
      (x.valid = true → i = 3 → sets { x with rxseq := v.setWidth 16, txseq := (v >>> 16).setWidth 16 }) ∧
      (x.valid = true → 9 ≤ i → sets { x with user := x.user.set (i - 9) v }) ∧
      (x.valid = true → i = 1 → v.getLsbD 0 = true → sets { x with relay := v.getLsbD 1, egress := (v >>> 8).setWidth 8 }) ∧
      (x.valid = true → i = 1 → v.getLsbD 0 = false →
        ∃ t, exec c s = .next t ∧ getBeam t b = { BeamCtx.free with version := x.version + 1 } ∧ (∀ a, a ≠ b → getBeam t a = getBeam s a) ∧
          t.mem = s.mem ∧ t.clusters = s.clusters)
    (∀ (w i : Nat) (v : Word), (w = 128 ∨ w = 129) → i < 16 →
      ∃ t, exec (.beamWindowStore w (BitVec.ofNat 32 (0x04000000 + 64 * b + 4 * i)) v) s = .next t ∧ ∀ a, a ≠ b → getBeam t a = getBeam s a) ∧
    (s.ecc = [] → ∀ (w i : Nat) (v : Word), (w = 128 ∨ w = 129) → i < 16 →
      writes (.beamWindowStore w (BitVec.ofNat 32 (0x04000000 + 64 * b + 4 * i)) v) id i v) ∧
    (s.ecc = [] → ent s 0x6001 0 = b → ∀ (i : Nat), i < 16 →
      (∀ v, writes (.beamWindowAccess (i + 1) (some v)) (fun t => { t with lastAbort := none }) i v) ∧
      exec (.beamWindowAccess (i + 1) none) s = .next { s with rdata := some (beamWord x i), lastAbort := none }) ∧
    (∀ i, i < 16 → ent s 0x6001 0 = b → x.poison = true → eccOf s ((0x04000000 + 64 * b) / 8 + i / 2) = 3 →
      exec (.beamWindowAccess (i + 1) none) s = .next { s with lastAbort := some 0x04000003#32 }) ∧
    (∀ sub wr, 16 < sub → exec (.beamWindowAccess sub wr) s = .next { s with lastAbort := some 0x02000002#32 }) ∧
    (∀ v, exec (.beamWindowAccess 0 (some v)) s = .next { s with lastAbort := some 0x02000003#32 }) ∧
    exec (.beamWindowAccess 0 none) s = .next { s with rdata := some 16, lastAbort := none } ∧
    (∃ t, exec (.beamSelectorWrite b) s = .next t ∧ t = { s with ent := t.ent, lastAbort := none } ∧ ent t 0x6001 0 = b ∧
      ∀ i j, entKey i j ≠ entKey 0x6001 0 → ent t i j = ent s i j) ∧
    (∀ v, nBeams s ≤ v → exec (.beamSelectorWrite v) s = .next { s with lastAbort := some 0x02000006#32 })

/-- R7, R42, R145, R156, R178, R194, R226; the aborts of R331. -/
def Obligations.DeviceRegisterAccesses : Prop :=
  (∀ (s : State) (n : Nat), n < nCores s →
    let k := getCore s n
    let c := n / 4
    let g := getCluster s c
    let own := 0x10000000 + n * 0x1000
    let blk := 0x11000000 + c * 0x10000
    let write := fun (m a : Nat) (v : Word) => Instr.registerWrite (.core m) (.device (BitVec.ofNat 32 a) v)
    (∀ v : Word,
      exec (write n (own + 0x10C) v) s = .next (setCore s n { k with e := { k.e with evovf := v } }) ∧
      exec (write n (own + 0x104) v) s = .next (setCore s n { k with e := { k.e with
        badraise := k.e.badraise && !v.getLsbD 0, skref := k.e.skref && !v.getLsbD 1, skbad := k.e.skbad && !v.getLsbD 2, rqref := k.e.rqref && !v.getLsbD 3 } }) ∧
      exec (write n (blk + 0xA0) v) s = .next (setCluster s c { g with clevt := g.clevt &&& ~~~v }) ∧
      exec (write n (blk + 0xA4) v) s = .next (setCluster s c { g with cleven := (v &&& 0x08F0F03F#32) ||| 0x070F0F00#32 }) ∧
      (∀ m, m < nCores s → m ≠ n → exec (write m (own + 0x10C) v) s = .next s) ∧
      (∀ q, q < nQuads s → exec (write n (0x13000000 + q * 0x100000 + 4) v) s = .next s)) ∧
    (∀ (e : StoreEntry) (rest : List StoreEntry), k.u.stores = e :: rest → e.kind = .device → storeBlocked s n e = false →
      8 * e.word + 4 = own + 0x10C → e.mask = 0xF0#8 →
      exec (.deviceAccessCompletion n) s = .next (setCore (setCore s n { k with u := { k.u with stores := rest } }) n
        { k with u := { k.u with stores := rest }, e := { k.e with evovf := (e.data >>> 32).setWidth 32 } })) ∧
    (∀ l : Load, k.u.stores = [] → k.u.loads = [l] → l.kind = .device → l.data = none → l.toFrame = none → l.outst = true →
      l.addr = BitVec.ofNat 32 (own + 0x10C) →
      ∃ t, exec (.deviceAccessCompletion n) s = .next t ∧ t = { s with cores := t.cores, clusters := t.clusters } ∧ (∀ m, m ≠ n → getCore t m = getCore s m) ∧
        (∀ d, getCluster t d = if d = c ∧ isDet s n = true
          then { g with overrun := min 0xFFFFFFFF (g.overrun + (k.i.steps - (l.trig + 3))) } else getCluster s d) ∧
        getCore t n = { k with u := { k.u with
          loads := [{ l with data := some { val := k.e.evovf, pois := none }, deliv := true }], sk := Tab.put 0x24B k.e.evovf k.u.sk } })) ∧
  (∀ (s : State) (w q : Nat) (v : Word), w = 128 ∨ w = 129 → q < nQuads s →
    let x := getQuad s q
    exec (.registerWrite (.core w) (.device (BitVec.ofNat 32 (0x13000000 + q * 0x100000 + 4)) v)) s = .next (setQuad s q { x with bethr := v.setWidth 16 }) ∧
    exec (.registerWrite (.core w) (.device (BitVec.ofNat 32 (0x13000000 + q * 0x100000 + 8)) v)) s =
      .next (setQuad s q { x with beevt := x.beevt &&& ~~~(v.setWidth 8) })) ∧
  (∀ (s : State) (m : Master) (idx sub : Nat) (v : Octets),
    let ends := fun (code : Word) => exec (.registerWrite m (.entry idx sub v)) s = .next { s with lastAbort := some code }
    let here := indexKnown idx = true ∧ indexAbsent s idx = false ∧ subAbsent s idx sub = false
    (indexKnown idx = false → ends 0x02000001#32) ∧
    (indexKnown idx = true → indexAbsent s idx = true ∨ subAbsent s idx sub = true → ends 0x02000006#32) ∧
    (here → entInfo idx sub = none → ends 0x02000002#32) ∧
    (here → ∀ e, entInfo idx sub = some e →
      (e.acc = .const ∨ e.acc = .ro → ends 0x02000003#32) ∧
      (e.acc = .wo ∨ e.acc = .rw ∨ e.acc = .rws → tySize e.ty ≠ 0 → v.length ≠ tySize e.ty → ends 0x02000005#32)) ∧
    (idx = 0x1103 → sub = 1 → v.length = 2 → ofLe v = 0 ∨ (10 ≤ ofLe v ∧ ofLe v ≤ 10000) →
      exec (.registerWrite m (.entry idx sub v)) s = .next { setEnt s 0x1103 1 (ofLe v) with lastAbort := none }))

/-- R287 to R289, R294, R303. -/
def Obligations.FabricCarriesPackets : Prop :=
  ∀ (s : State) (hop vc : Nat) (p : Packet) (rest : List Packet), vc < 3 → hopQueue s hop vc = p :: rest →
    let served := hopRoom s vc p = true ∧ servedNow s hop vc p = true
    let others := fun (t : State) (next : Nat) => ∀ j v, v < 3 → ¬ (v = vc ∧ (j = hop ∨ j = next)) → hopQueue t j v = hopQueue s j v
    let moved := fun (t : State) (h : Nat) (r : List Nat) (x : Packet) =>
      hopQueue t hop vc = rest ∧ hopQueue t h vc = hopQueue s h vc ++ [{ x with route := r }] ∧ others t h
    let counts := fun (t : State) (sub : Nat) =>
      ent t (0x4200 + hopQuad hop) sub = satInc 0xFFFFFFFF (ent s (0x4200 + hopQuad hop) sub) ∧
      ∀ i j, entKey i j ≠ entKey (0x4200 + hopQuad hop) sub → ent t i j = ent s i j
    (¬ served → ∀ e, exec (.fabricPacketHop hop vc e) s = .next s) ∧
    (vc = 1 → ∀ j q l, hopQueue s j 0 = q :: l → outputOf j q = outputOf hop p → hopRoom s 0 q = true →
      ∀ e, exec (.fabricPacketHop hop vc e) s = .next s) ∧
    (served → ∀ e, ∃ t l, exec (.fabricPacketHop hop vc e) s = .next t ∧ hopQueue t hop vc = rest ++ l) ∧
    (served → ∀ h r, p.route = h :: r → h ≠ hop →
      (∃ t, exec (.fabricPacketHop hop vc .none) s = .next t ∧ t = { s with fabric := t.fabric } ∧ moved t h r p) ∧
      (∃ t, exec (.fabricPacketHop hop vc .correctable) s = .next t ∧ t = { s with fabric := t.fabric, ent := t.ent } ∧ moved t h r p ∧ counts t 8) ∧
      (∃ t, exec (.fabricPacketHop hop vc .dataUncorrectable) s = .next t ∧ t = { s with fabric := t.fabric } ∧
        moved t h r { p with poison := p.poison || decide (1 < p.flits) })) ∧
    (served → (∀ g d, p.body ≠ .relay g d) → (∀ g id b, p.body ≠ .relayEnd g id b) →
      ∃ t, exec (.fabricPacketHop hop vc .headerUncorrectable) s = .next t ∧
        t = { s with fabric := t.fabric, ent := t.ent, router := { s.router with raised := s.router.raised ++ [776] } } ∧
        hopQueue t hop vc = rest ∧ others t hop ∧ counts t 9) ∧
    (served → p.route = [] → p.poison = false → ∀ g v, p.body = .toWarden g v →
      ∃ t, exec (.fabricPacketHop hop vc .none) s = .next t ∧ t = { s with fabric := t.fabric, edp := { s.edp with inbox := s.edp.inbox ++ [(g, v)] } } ∧
        hopQueue t hop vc = rest ∧ others t hop) ∧
    (served → p.route = [] → p.poison = false → ∀ n id d, p.body = .done n id d →
      ∃ t, exec (.fabricPacketHop hop vc .none) s = .next t ∧ t = { s with fabric := t.fabric, cores := t.cores } ∧ hopQueue t hop vc = rest ∧ others t hop ∧
        (∀ m, m ≠ n → getCore t m = getCore s m) ∧
        let k := getCore s n
        getCore t n = { k with q := { k.q with rtxdone := pushDone k.q.rtxdone d, rtxOut := k.q.rtxOut.filter fun o => o.id != id } })

/-- R290, R292 to R294, R296. -/
def Obligations.RemoteTransmitAndPreQueues : Prop :=
  (∀ (s : State) (n : Nat), corePresent s n = true →
    let k := getCore s n
    let p := k.q.rtxdest.toNat
    (∀ v : Word, nFacets s ≤ p ∨ 128 ≤ n → ∃ t, exec (.rtxpostWrite n v) s = .next t ∧ OnlyCore n s t ∧
      getCore t n = { k with q := { k.q with
        rtxdone := pushDone k.q.rtxdone { cookie := field v 24 8, result := 10 }, rtxOut := k.q.rtxOut.filter fun o => o.id != s.nextId } }) ∧
    (∀ v : Word, n < 128 → p < nFacets s → p / 8 = n / 4 →
      ∃ t, exec (.rtxpostWrite n v) s = .next t ∧ t.nextId = s.nextId + 1 ∧
        ((getFacet s p).retired = true → (getFacet s p).deputy = none →
          (getCore t n).q.rtxdone = pushDone k.q.rtxdone { cookie := field v 24 8, result := 5 }) ∧
        ((getFacet s p).retired = false ∨ (getFacet s p).deputy ≠ none → postCheck s p n k.q.rtxa k.q.rtxl v = none →
          ∃ d, (getFacet t (laneOf s p)).queue = (getFacet s (laneOf s p)).queue ++ [d] ∧ d.id = s.nextId ∧ d.face = p ∧ d.cookie = field v 24 8 ∧
            d.len = field k.q.rtxl 0 12)) ∧
    (∀ v : Word, n < 128 → p < nFacets s → p / 8 ≠ n / 4 →
      let vc := if field k.q.rtxl 12 9 = 0x1FF then 2 else 1
      ∃ t d f, exec (.rtxpostWrite n v) s = .next t ∧ t = { s with cores := t.cores, fabric := t.fabric, nextId := s.nextId + 1 } ∧
        (∀ m, m ≠ n → getCore t m = getCore s m) ∧
        getCore t n = { k with q := { k.q with rtxOut := k.q.rtxOut ++ [{ id := s.nextId, cookie := field v 24 8, since := s.tb, answered := false }] } } ∧
        hopQueue t (n / 4) vc = hopQueue s (n / 4) vc ++
          [{ kind := .txDesc, flits := f, route := (routeBetween (n / 4) (p / 8)).drop 1, poison := false, body := .desc n p k.q.rtxa k.q.rtxl v d }] ∧
        d.id = s.nextId ∧ d.cookie = field v 24 8 ∧ (∀ j c, c < 3 → ¬ (j = n / 4 ∧ c = vc) → hopQueue t j c = hopQueue s j c)) ∧
    (k.q.rtxdone = [] → exec (.rtxdoneRead n) s = .next { s with rdata := some 0 }) ∧
    (∀ d ds, k.q.rtxdone = d :: ds → exec (.rtxdoneRead n) s = .next { setCore s n { k with q := { k.q with rtxdone := ds } } with rdata := some (doneWord d) }) ∧
    (∀ o older newer, k.q.rtxOut = older ++ o :: newer → (∀ x ∈ older, x.answered = true ∨ s.tb < x.since + 10000) → o.answered = false → o.since + 10000 ≤ s.tb →
      ∃ t, exec (.remoteTimeout n false) s = .next t ∧ (∀ m, m ≠ n → getCore t m = getCore s m) ∧
        (s.ecc = [] → t = { s with cores := t.cores, facets := t.facets, beams := t.beams } ∧
          ∀ b, let gone := ((s.facets.flatMap fun e => e.2.queue).filter fun d => d.id == o.id && d.held && decide (d.tag = some b)).length
            getBeam t b = { getBeam s b with heldtx := (getBeam s b).heldtx - BitVec.ofNat 8 gone }) ∧
        getCore t n = { k with q := { k.q with
          rtxdone := pushDone k.q.rtxdone { cookie := o.cookie, result := 12 }, rtxOut := k.q.rtxOut.filter fun x => x.id != o.id } } ∧
        ∀ e ∈ t.facets, ∀ d ∈ e.2.queue ++ e.2.deferred ++ e.2.retry, d.id ≠ o.id) ∧
    (∀ o, k.u.copy = some o → o.remote = 1 → o.park = none → o.since + 10000 ≤ s.tb →
      ∃ t, exec (.remoteTimeout n true) s = .next t ∧ OnlyCore n s t ∧
        getCore t n = { k with u := { k.u with copy := none, sk := Tab.put 0x27A 3#32 (Tab.put 0x279 (BitVec.ofNat 32 o.done) k.u.sk) } })) ∧
  (∀ (s : State) (p : Nat) (v : Octets) (rest : List Octets),
    let f := getFacet s p
    let m := getPort s p
    let out := 84 + quadOf (p / 8)
    let bucket := fun (tokens last : Nat) => min 2048 (tokens + (s.tb - last) / 8)
    let goes := fun (w : Octets) (tokens last hop : Nat) => w.length ≤ bucket tokens last ∧ hopFlits s hop 0 + dataFlits w.length ≤ 128
    let enters := fun (t : State) (hop : Nat) (body : PktBody) =>
      (∃ x, hopQueue t hop 0 = hopQueue s hop 0 ++ [x] ∧ x.body = body ∧ x.poison = false) ∧
        ∀ j c, c < 3 → ¬ (j = hop ∧ c = 0) → hopQueue t j c = hopQueue s j c
    (f.preq = v :: rest → goes v f.tokens f.lastFill (p / 8) →
      ∃ t, exec (.preQueueDrain p) s = .next t ∧ t = { s with facets := t.facets, fabric := t.fabric } ∧ (∀ q, q ≠ p → getFacet t q = getFacet s q) ∧
        getFacet t p = { f with preq := rest, tokens := bucket f.tokens f.lastFill - v.length, lastFill := s.tb - (s.tb - f.lastFill) % 8 } ∧
        enters t (p / 8) (.toWarden p v) ∧ ∀ q, getPort t q = getPort s q) ∧
    ((∀ w l, f.preq = w :: l → ¬ goes w f.tokens f.lastFill (p / 8)) →
      (m.frames = [] → exec (.preQueueDrain p) s = .next s) ∧
      (m.frames = v :: rest → ¬ goes v m.tokens m.fill out → exec (.preQueueDrain p) s = .next s) ∧
      (m.frames = v :: rest → goes v m.tokens m.fill out →
        ∃ t, exec (.preQueueDrain p) s = .next t ∧ t = { s with fabric := t.fabric } ∧ (∀ q, q ≠ p → getPort t q = getPort s q) ∧
          getPort t p = { frames := rest, tokens := bucket m.tokens m.fill - v.length, fill := s.tb - (s.tb - m.fill) % 8 } ∧
          enters t out (.toFacet p v))))

/-- R297, R298, R300, R302, R305. -/
def Obligations.ReflexRequestsAreChecked : Prop :=
  ∀ (s : State) (p : Nat) (r : RfxReq) (rest : List RfxReq),
    let f := getFacet s p
    f.rfx = r :: rest →
    let v := r.body
    let op := rfxOp v
    let shaped := 1 ≤ op ∧ op ≤ 3 ∧ zeroOctets v 5 3 = true ∧ r.shape = true
    let named := if op = 1 then rfxTarget v < nFacets s else if op = 2 then rfxTarget v < nBeams s else rfxTarget v < nClusters s
    let log := fun (result : Nat) => { s.rfx with
      log0 := BitVec.ofNat 32 ((if 1 ≤ op ∧ op ≤ 3 then op else 0) + result * 4 + p % 256 * 256 + rfxTarget v * 65536)
      log1 := BitVec.ofNat 32 r.time }
    let refused := fun (result : Nat) =>
      ∃ t a, exec (.reflexRequest p) s = .next t ∧
        t = { s with
          facets := t.facets, free := s.free + 1, router := { s.router with raised := s.router.raised ++ [775] },
          rfx := { log result with refused := satInc 0xFFFF s.rfx.refused } } ∧
        (∀ q, q ≠ p → getFacet t q = getFacet s q) ∧ getFacet t p = { f with rfx := rest, answers := f.answers ++ [a] }
    (s.tb < r.time + 640 → exec (.reflexRequest p) s = .next s) ∧
    (r.time + 640 ≤ s.tb → r.key = none → refused 5) ∧
    (r.time + 640 ≤ s.tb → ∀ key, r.key = some key →
      ((v.drop 16).take 8 ≠ (hmac key (v.take 16)).take 8 →
        ∃ t, exec (.reflexRequest p) s = .next t ∧ t = { s with facets := t.facets, ent := t.ent } ∧ (∀ q, q ≠ p → getFacet t q = getFacet s q) ∧
          getFacet t p = { f with rfx := rest } ∧ ent t 0x1120 4 = satInc 0xFFFFFFFF (ent s 0x1120 4) ∧
          ∀ i j, entKey i j ≠ entKey 0x1120 4 → ent t i j = ent s i j) ∧
      ((v.drop 16).take 8 = (hmac key (v.take 16)).take 8 →
        (rfxCtr v ≤ s.rfx.ctr → refused 2) ∧
        (s.rfx.ctr < rfxCtr v → ¬ shaped → refused 3) ∧
        (s.rfx.ctr < rfxCtr v → shaped → ¬ named → refused 4) ∧
        (s.rfx.ctr < rfxCtr v → shaped → named → op = 3 →
          let act : RfxAct := { op := 3, target := rfxTarget v, facet := p, req := r }
          let done := { log 0 with ctr := rfxCtr v, done := satInc 0xFFFF s.rfx.done }
          ∃ t, exec (.reflexRequest p) s = .next t ∧
            t = { s with
              facets := t.facets, fabric := t.fabric, router := { s.router with raised := s.router.raised ++ [774] },
              rfx := if rfxTarget v = p / 8 then { done with acts := s.rfx.acts ++ [act] } else done } ∧
            (∀ q, q ≠ p → getFacet t q = getFacet s q) ∧ getFacet t p = { f with rfx := rest } ∧
            (rfxTarget v = p / 8 → t.fabric = s.fabric) ∧
            (rfxTarget v ≠ p / 8 → ∃ x, hopQueue t (p / 8) 0 = hopQueue s (p / 8) 0 ++ [x] ∧ x.body = .reflex act))))

/-- R223, R299 to R301. -/
def Obligations.ReflexActionsTakeEffect : Prop :=
  ∀ s : State,
    let calm := fun (p : Nat) => let f := getFacet s p; f.look = none ∧ f.lane = none ∧ f.back = none ∧ f.await = [] ∧ f.retry = [] ∧ f.retired = false
    let disabled := fun (t : State) (p : Nat) => (getFacet t p).stopped = true ∧ (getFacet t p).state = 0 ∧ (getFacet t p).queue = (getFacet s p).queue
    let killed := fun (t : State) (b : Nat) =>
      getBeam t b = (if (getBeam s b).valid then { BeamCtx.free with version := (getBeam s b).version + 1 } else getBeam s b) ∧
      (∀ a, a ≠ b → getBeam t a = getBeam s a) ∧ t.mem = s.mem ∧ t.clusters = s.clusters
    let held := fun (c : Nat) => setCluster s c { getCluster s c with quiesced := true }
    let ends := fun (c : Instr) (code : Word) => exec c s = .next { s with lastAbort := some code }
    let off := fun (t : State) (p : Nat) => (getFacet t p).stopped = true ∧ ((getFacet s p).retired = false → (getFacet t p).state = 0)
    (∀ p a, rfxWaiting s 1 p = some a →
      (ownAnswerGone s a = true → ∃ t, exec (.disableFacet p) s = .next t ∧ off t p ∧ t.rfx = { s.rfx with acts := s.rfx.acts.erase a }) ∧
      (ownAnswerGone s a = false → exec (.disableFacet p) s = .next s)) ∧
    (∀ b a, rfxWaiting s 2 b = some a → ∃ t, exec (.killBeam b) s = .next t ∧ t.rfx = { s.rfx with acts := s.rfx.acts.erase a }) ∧
    (∀ p, (rfxWaiting s 1 p = none → exec (.disableFacet p) s = .next s) ∧ (rfxWaiting s 2 p = none → exec (.killBeam p) s = .next s) ∧
      (rfxWaiting s 3 p = none → exec (.quiesceCluster p) s = .next s)) ∧
    (∀ v, (v < nFacets s → ∃ t, exec (.wardenDisableFacet v) s = .next t ∧ off t v ∧ t.lastAbort = none) ∧
      (v < nBeams s → ∃ t, exec (.wardenKillBeam v) s = .next t ∧ t.lastAbort = none)) ∧
    (∀ p a, rfxWaiting s 1 p = some a → a.facet ≠ p → calm p →
      ∃ t, exec (.disableFacet p) s = .next t ∧
        t = { s with facets := t.facets, router := t.router, fabric := t.fabric, free := t.free, rfx := { s.rfx with acts := s.rfx.acts.erase a } } ∧
        disabled t p ∧ ∀ q, q ≠ p → q ≠ a.facet → getFacet t q = getFacet s q) ∧
    (∀ b a, rfxWaiting s 2 b = some a → s.ecc = [] → ∃ t, exec (.killBeam b) s = .next t ∧ killed t b ∧ t.rfx = { s.rfx with acts := s.rfx.acts.erase a }) ∧
    (∀ c a, rfxWaiting s 3 c = some a →
      (allStopped (held c) c = false → exec (.quiesceCluster c) s = .next (held c)) ∧
      (allStopped (held c) c = true → ∃ t, exec (.quiesceCluster c) s = .next t ∧
        t = { held c with facets := t.facets, fabric := t.fabric, free := t.free, rfx := { s.rfx with acts := s.rfx.acts.erase a } })) ∧
    (∀ v, v < nFacets s → calm v → ∃ t, exec (.wardenDisableFacet v) s = .next t ∧
      t = { s with facets := t.facets, router := t.router, lastAbort := none } ∧ disabled t v ∧ ∀ q, q ≠ v → getFacet t q = getFacet s q) ∧
    (∀ v, v < nBeams s → s.ecc = [] → ∃ t, exec (.wardenKillBeam v) s = .next t ∧ killed t v ∧ t.lastAbort = none) ∧
    (∀ v, v < nClusters s → exec (.wardenQuiesceCluster v) s = .next { held v with lastAbort := none }) ∧
    (∀ v, v < nClusters s → (getCluster s v).quiesced = true →
      exec (.releaseQuiesce v) s = .next { setCluster s v { getCluster s v with quiesced := false } with lastAbort := none }) ∧
    (∀ v, v < nClusters s → (getCluster s v).quiesced = false → ends (.releaseQuiesce v) 0x04000001#32) ∧
    (∀ v, (255 < v → ends (.wardenDisableFacet v) 0x03000001#32) ∧ (65535 < v → ends (.wardenKillBeam v) 0x03000001#32) ∧
      (31 < v → ends (.wardenQuiesceCluster v) 0x03000001#32 ∧ ends (.releaseQuiesce v) 0x03000001#32) ∧
      (v ≤ 255 → nFacets s ≤ v → ends (.wardenDisableFacet v) 0x02000006#32) ∧ (v ≤ 65535 → nBeams s ≤ v → ends (.wardenKillBeam v) 0x02000006#32) ∧
      (v ≤ 31 → nClusters s ≤ v → ends (.wardenQuiesceCluster v) 0x02000006#32 ∧ ends (.releaseQuiesce v) 0x02000006#32))

/-- R229, R230, R235, R241, R247, R250. -/
def Obligations.FacetConfigurationWrites : Prop :=
  ∀ (s : State) (p : Nat),
    let f := getFacet s p
    let ends := fun (c : Instr) (code : Word) => exec c s = .next { s with lastAbort := some code }
    let g := getFacet s (pairOf p)
    let calm := f.look = none ∧ f.lane = none ∧ f.back = none ∧ f.await = [] ∧ f.retry = [] ∧ f.retired = false ∧
      (f.deferred = [] ∨ (f.pendTab = none ∧ g.pendTab = none))
    (nFacets s ≤ p → (∀ v, ends (.modeWrite p v) 0x02000006#32 ∧ ends (.roleWrite p v) 0x02000006#32) ∧ ∀ v, ends (.exposureTableWrite p v) 0x02000006#32) ∧
    (p < nFacets s →
      (∀ v, let role := ent s (0x3000 + p) 2
        let fits := v = 0 ∨ sumRates s p v ≤ 250000
        (5 < v → ends (.modeWrite p v) 0x03000001#32) ∧ (v ≤ 5 → role ≠ 0 → ends (.modeWrite p v) 0x04000001#32) ∧
        (v ≤ 5 → role = 0 → ¬ fits → ends (.modeWrite p v) 0x03000002#32) ∧
        (v ≤ 5 → role = 0 → fits → exec (.modeWrite p v) s = .next { setEnt s (0x3000 + p) 1 v with lastAbort := none })) ∧
      (∀ v, let mode := ent s (0x3000 + p) 1
        let allowed := (v = 0 ∨ (v = 1 ∧ (mode = 4 ∨ mode = 5)) ∨ (2 ≤ v ∧ 1 ≤ mode ∧ mode ≤ 3)) ∧ ¬ (v = 5 ∧ pairRefused s p = true)
        (6 < v → ends (.roleWrite p v) 0x03000001#32) ∧ (v ≤ 6 → ¬ allowed → ends (.roleWrite p v) 0x04000001#32) ∧
        (v ≤ 6 → allowed → f.retired = false → ∃ t, exec (.roleWrite p v) s = .next t ∧ ent t (0x3000 + p) 2 = v ∧ t.lastAbort = none ∧
          (getFacet t p).state = (if v = 0 then 0 else 1) ∧ (getFacet t p).train.reached = false ∧ (v ≠ 0 → (getFacet t p).train.start = s.tb)) ∧
        (v ≤ 6 → allowed → calm → ∃ t, exec (.roleWrite p v) s = .next t ∧
          t = { s with facets := t.facets, router := t.router, ent := t.ent, lastAbort := none } ∧ ent t (0x3000 + p) 2 = v ∧
          (∀ i j, entKey i j ≠ entKey (0x3000 + p) 2 → ent t i j = ent s i j) ∧ (∀ q, q ≠ p → getFacet t q = getFacet s q) ∧
          (getFacet t p).state = (if v = 0 then 0 else 1) ∧ (getFacet t p).train.reached = false ∧ (getFacet t p).queue = f.queue ∧
          (v ≠ 0 → (getFacet t p).train.start = s.tb) ∧ (v = 5 → pairReady t p = true → g.pendTab = none → (getFacet t p).active = g.active)) ∧
        (v ≤ 6 → allowed → f.retired = true → exec (.roleWrite p v) s = .next { setEnt s (0x3000 + p) 2 v with lastAbort := none })) ∧
      (∀ v,
        (parseExpo v = none → ends (.exposureTableWrite p v) 0x03000001#32) ∧
        (∀ x, parseExpo v = some x →
          (expoGood s p x = false → ends (.exposureTableWrite p v) 0x03000001#32) ∧
          (expoGood s p x = true → f.deputy = none → f.standsFor = none →
            let pair := facetRole s p = 5 ∧ facetRole s (pairOf p) = 5
            let idle := fun (y : Facet) => (y.state = 0 ∨ y.state = 1) ∧ y.deferred = [] ∧ y.standsFor = none
            let up := f.state = 2 ∨ f.state = 3
            let fits := x.cycle = f.active.cycle ∧ x.phase = f.active.phase ∧ actAhead x.act f.cyc = true
            let inForce := fun (y : Facet) => { y with active := x, pendTab := none, fevt := y.fevt ||| 0x1000#16 }
            (up → ¬ fits → ends (.exposureTableWrite p v) 0x04000001#32) ∧
            (f.state ≠ 0 → f.state ≠ 1 → (up → fits) →
              (¬ pair → exec (.exposureTableWrite p v) s = .next { setFacet s p { f with pendTab := some x } with lastAbort := none }) ∧
              (pair → g.state ≠ 0 → g.state ≠ 1 → exec (.exposureTableWrite p v) s =
                .next { setFacet (setFacet s p { f with pendTab := some x }) (pairOf p) { g with pendTab := some x } with lastAbort := none })) ∧
            (idle f → (pair → idle g) → ∃ t, exec (.exposureTableWrite p v) s = .next t ∧
              t = { s with facets := t.facets, router := t.router, lastAbort := none } ∧
              (∀ q, q ≠ p → ¬ (pair ∧ q = pairOf p) → getFacet t q = getFacet s q) ∧
              getFacet t p = inForce f ∧ (pair → getFacet t (pairOf p) = inForce g))))))

/-- R236, R247, R248, R250, R261, R461. -/
def Obligations.FacetTrainingAndSync : Prop :=
  ∀ (s : State) (p : Nat),
    let f := getFacet s p
    let only := fun (c : Instr) (P : Facet → Prop) =>
      ∃ t, exec c s = .next t ∧ t = { s with facets := t.facets, router := t.router } ∧ (∀ q, q ≠ p → getFacet t q = getFacet s q) ∧ P (getFacet t p)
    let sets := fun (c : Instr) (g : Facet) => exec c s = .next (setFacet s p g)
    let again := fun (x : Training) => { x with start := s.tb, probes := 0, echoes := 0, sum := 0, ready := false, good := 0, missed := 0, seen := false, holdTo := 0, lastCyc := none }
    let trains := f.state = 1 ∨ f.state = 4
    let now := f.pendTab.filter fun x => actReached x (cycleNo f.active s.tb)
    let tableFits := now = none ∨ (f.deferred = [] ∧ f.standsFor = none)
    let entered := fun (d : Nat) (g : Facet) =>
      g.state = 2 ∧ g.train.delay = d ∧ g.active = now.getD f.active ∧ g.cyc = cycleNo g.active s.tb ∧
      g.fevt = f.fevt ||| (if now = none then 0x100#16 else 0x1100#16) ∧ g.queue = f.queue
    (mayTrain s p = true →
      (isHead s p = true → f.train.start + f.train.probes * 1000 ≤ s.tb → sets (.trnProbe p) { f with trnOut := some { type := 0, pos := trnPos s p, value := s.tb, leave := s.tb }, train := { f.train with probes := f.train.probes + 1 } }) ∧
      (isTail s p = true → ∀ pos ts, ts < 2 ^ 64 →
        let echo := { f with trnOut := some { type := 1, pos := trnPos s p, value := ts, leave := s.tb + 64 } }
        let known := { echo with train := { echo.train with peer := BitVec.ofNat 8 pos } }
        (facetRole s p ≠ 6 → sets (.trnProbeReception p pos ts) echo) ∧
        (facetRole s p = 6 → s.chain ≠ some pos → sets (.trnProbeReception p pos ts) known) ∧
        (facetRole s p = 6 → s.chain = some pos → only (.trnProbeReception p pos ts) fun g => g = { known with fevt := f.fevt ||| 0x100#16 })) ∧
      (isHead s p = true → ∀ pos sent arrived, let sum := f.train.sum + (arrived - sent - 64)
        let d := (sum + 31) / 32
        let h := if facetRole s p = 6 then { f with train := { f.train with peer := BitVec.ofNat 8 pos } } else f
        let same := facetRole s p = 6 ∧ s.chain = some pos
        (same → only (.trnEchoReception p pos sent arrived) fun g => g = { h with fevt := f.fevt ||| 0x100#16 }) ∧
        (¬ same → f.train.echoes < 15 → sets (.trnEchoReception p pos sent arrived) { h with train := { h.train with echoes := f.train.echoes + 1, sum } }) ∧
        (¬ same → f.train.echoes = 15 → 2 * d + 64 ≤ f.active.revgap →
          ∃ t, exec (.trnEchoReception p pos sent arrived) s = .next t ∧ (getFacet t p).state = 2 ∧ (getFacet t p).train.delay = d ∧ (getFacet t p).train.ready = true) ∧
        (¬ same → f.train.echoes = 15 → f.active.revgap < 2 * d + 64 → only (.trnEchoReception p pos sent arrived) fun g =>
          g = { h with train := { h.train with echoes := 0, sum := 0, delay := d, holdTo := s.tb + 10000000 }, fevt := f.fevt ||| 0x2000#16 }) ∧
        (¬ same → f.train.echoes = 15 → 2 * d + 64 ≤ f.active.revgap → tableFits → only (.trnEchoReception p pos sent arrived) fun g =>
          entered d g ∧ g.trnOut = some { type := 2, pos := trnPos s p, value := d, leave := s.tb } ∧ g.train.ready = true)) ∧
      (isTail s p = true → samePos s p f.train.peer.toNat = true → ∀ d, exec (.trnReadyReception p d) s = .next s) ∧
      (isTail s p = true → samePos s p f.train.peer.toNat = false → ∀ d, ∃ t, exec (.trnReadyReception p d) s = .next t ∧
        (getFacet t p).state = 2 ∧ (getFacet t p).train.delay = d) ∧
      (isTail s p = true → samePos s p f.train.peer.toNat = false → tableFits → ∀ d, only (.trnReadyReception p d) fun g => entered d g ∧ g.trnOut = f.trnOut)) ∧
    (p < nFacets s → isEther s p = false → ∀ cyc ts arrived, let good := cycGood f.active f.train.delay cyc arrived
      (f.state ≠ 2 → f.state ≠ 3 → exec (.cycReception p cyc ts arrived) s = .next s) ∧
      (f.state = 2 ∨ f.state = 3 → ∃ t, exec (.cycReception p cyc ts arrived) s = .next t ∧ (getFacet t p).train.lastCyc = (if good then some cyc else none) ∧
        (f.state = 2 → good = true → f.train.good = 1 → (∃ c, f.train.lastCyc = some c ∧ cyc = (c + 1) % 2 ^ 32) → (getFacet t p).state = 3) ∧
        (timeSource s = 3 → facetRole s p = 6 → f.train.peer ≠ 0xFF#8 → relayTail s p = true →
          t.clock.off = max (-2147483648) (min ((arrived : Int) - ts - f.train.delay) 2147483647)))) ∧
    (p < nFacets s → isEther s p = false → timeSource s ≠ 3 ∨ facetRole s p ≠ 6 → ∀ cyc ts arrived, let good := cycGood f.active f.train.delay cyc arrived
      let row := match f.train.lastCyc with
        | none => 1
        | some c => if cyc = (c + 1) % 2 ^ 32 then f.train.good + 1 else if cyc = c then f.train.good else 1
      (f.state = 2 → good = true → 2 ≤ row → only (.cycReception p cyc ts arrived) fun g =>
        g.state = 3 ∧ g.train.reached = true ∧ g.train.fails = 0 ∧ g.active = f.active ∧ g.queue = f.queue) ∧
      (f.state = 2 → good = true → row < 2 → sets (.cycReception p cyc ts arrived) { f with train := { f.train with seen := true, missed := 0, good := row, lastCyc := some cyc } }) ∧
      (f.state = 2 → good = false → sets (.cycReception p cyc ts arrived) { f with train := { f.train with seen := true, missed := 0, good := 0, lastCyc := none } }) ∧
      (f.state = 3 → f.standsFor = none → good = false → isTail s p = true → only (.cycReception p cyc ts arrived) fun g =>
        g = { f with train := { f.train with seen := true, missed := 0, good := 0, lastCyc := none }, fevt := f.fevt ||| 0x4000#16 })) ∧
    (isMirror s p = true → exec (.lossOfSignal p) s = .next s ∧ exec (.lossOfSynchronisation p) s = .next s) ∧
    (p < nFacets s → f.state ≠ 0 → f.state ≠ 5 → isMirror s p = false →
      let goes := if f.state = 3 then (if isEther s p then 1 else 4) else f.state
      (f.signal = true → ∃ t, exec (.lossOfSignal p) s = .next t ∧ (getFacet t p).signal = false ∧ (getFacet t p).lostAt = some s.tb ∧ (getFacet t p).state = goes) ∧
      (∃ t, exec (.lossOfSynchronisation p) s = .next t ∧ (getFacet t p).state = goes ∧ (getFacet t p).winErrs = f.winErrs + if isEther s p then 1 else 4)) ∧
    (nFacets s ≤ p ∨ f.state = 0 ∨ f.state = 5 → exec (.lossOfSignal p) s = .next s ∧ exec (.lossOfSynchronisation p) s = .next s) ∧
    (p < nFacets s → f.state ≠ 0 → f.state ≠ 5 → isEther s p = false → isMirror s p = false →
      let calm := f.look = none ∧ f.lane = none ∧ f.back = none ∧ f.await = [] ∧ f.retry = []
      let lost := fun (g : Facet) (x : Facet) =>
        (trains → x = { g with train := { g.train with echoes := 0, sum := 0 } }) ∧ (f.state = 2 → x = { g with train := { g.train with good := 0, lastCyc := none } }) ∧
        (f.state = 3 → calm → x.state = 4 ∧ x.train = again f.train ∧ x.fevt = f.fevt ||| 0x100#16 ∧ x.queue = f.queue)
      (trains ∨ f.state = 2 ∨ (f.state = 3 ∧ calm) →
        (f.signal = true → only (.lossOfSignal p) fun x => x.signal = false ∧ x.lostAt = some s.tb ∧ lost { f with signal := false, lostAt := some s.tb } x) ∧
        (f.retired = false → ∃ t, exec (.lossOfSynchronisation p) s = .next t ∧ t = { s with facets := t.facets, router := t.router, ent := t.ent } ∧
          (∀ q, q ≠ p → getFacet t q = getFacet s q) ∧ (getFacet t p).winErrs = f.winErrs + 4 ∧ lost { f with winErrs := f.winErrs + 4 } (getFacet t p) ∧
          ent t (0x3100 + p) 9 = min 0xFFFFFFFF (ent s (0x3100 + p) 9 + 4) ∧ ∀ i j, entKey i j ≠ entKey (0x3100 + p) 9 → ent t i j = ent s i j))) ∧
    (p < nFacets s → ballsDriven s = false → sets (.signalDetectReturn p) { f with signal := true, lostAt := none }) ∧
    (p < nFacets s → isEther s p = true → f.state = 1 → f.signal = true →
      let up := fun (g : Facet) => g.state = 3 ∧ g.train.reached = true ∧ g.cyc = cycleNo f.active s.tb ∧ g.queue = f.queue
      (negotiates s p = false → only (.ethernetLinkUp p) up) ∧
      (negotiates s p = true → Config.partnerFd s.free p = true →
        ∃ t, exec (.ethernetLinkUp p) s = .next t ∧ t = { s with facets := t.facets, router := t.router, free := s.free + 1 } ∧
          (∀ q, q ≠ p → getFacet t q = getFacet s q) ∧ up (getFacet t p)) ∧
      (negotiates s p = true → Config.partnerFd s.free p = false → f.retired = false →
        ∃ t, exec (.ethernetLinkUp p) s = .next t ∧ t = { s with ent := t.ent, free := s.free + 1 } ∧
          ent t (0x3100 + p) 0x15 = satInc 0xFFFFFFFF (ent s (0x3100 + p) 0x15) ∧ ∀ i j, entKey i j ≠ entKey (0x3100 + p) 0x15 → ent t i j = ent s i j)) ∧
    (f.reload = true → (∀ e ∈ f.bufs, e.2 = .free) →
      sets (.ringReload p) { f with ringBase := ent s (0x3000 + p) 0x0C, ringN := ent s (0x3000 + p) 0x0D, bufs := [], nextBuf := 0, reload := false }) ∧
    (p < nFacets s → trains → f.train.holdTo = 0 → f.train.start + 10000000 ≤ s.tb →
      (f.train.reached = false → sets (.trainingTimeout p) { f with train := again f.train }) ∧
      (f.train.reached = true → f.train.fails < 4 → ∃ t, exec (.trainingTimeout p) s = .next t ∧ t = { s with facets := t.facets } ∧
        (∀ q, q ≠ p → getFacet t q = getFacet s q) ∧ getFacet t p = { f with train := { again f.train with fails := f.train.fails + 1 } })) ∧
    (p < nFacets s → trains → f.train.holdTo ≠ 0 → f.train.holdTo ≤ s.tb → sets (.trainingTimeout p) { f with train := again f.train })

/-- R247, R261 to R263, R281. -/
def Obligations.FacetErrorWindowsAndRetirement : Prop :=
  ∀ (s : State) (p : Nat), p < nFacets s →
    let f := getFacet s p
    let now := s.tb / 1000000000
    let calm := f.look = none ∧ f.lane = none ∧ f.back = none ∧ f.await = [] ∧ f.retry = [] ∧ f.deferred = [] ∧ f.queue = [] ∧ f.standsFor = none ∧
      (∀ r, r / 8 = p / 8 → (getFacet s r).deputy ≠ some p) ∧
      ent s (0x3000 + p) 0x0A = 0xFFFF
    let seen := f.train.reached = true ∧ f.stopped = false ∧ f.ftctl = 0 ∧ f.state ≠ 0 ∧ f.state ≠ 5
    let retires := fun (c : Instr) (criterion : Nat) =>
      ∃ t, exec c s = .next t ∧ t = { s with facets := t.facets, router := t.router, ent := t.ent, errs := t.errs, emerg := t.emerg } ∧
        (∀ q, q ≠ p → getFacet t q = getFacet s q) ∧
        (let g := getFacet t p; g.state = 5 ∧ g.retired = true ∧ g.criterion = criterion ∧ g.deputy = none ∧ g.acks = [] ∧ g.answers = [] ∧ g.rfx = [] ∧
          g.ringBase = f.ringBase ∧ g.posts = f.posts) ∧
        t.errs.head? = some { code := 0x8110, origin := 0, time := s.tb, data := leOctets 2 p ++ [BitVec.ofNat 8 criterion] ++ leOctets 2 0xFFFF }
    let gone := fun (c : Instr) (criterion : Nat) =>
      ∃ t, exec c s = .next t ∧ (let g := getFacet t p; g.state = 5 ∧ g.retired = true ∧ g.criterion = criterion ∧ g.acks = [] ∧ g.answers = [] ∧ g.rfx = [])
    (f.winSec < now → seen → ent s (0x3000 + p) 0x0B < f.winErrs → 2 ≤ f.winBad → gone (.errorWindowEnd p) 2) ∧
    (∀ at_, f.lostAt = some at_ → at_ + 10000000 < s.tb → seen → gone (.signalLossTimeout p) 1) ∧
    (f.lostAt = none → exec (.signalLossTimeout p) s = .next s) ∧
    (f.state = 1 ∨ f.state = 4 → f.train.holdTo = 0 → f.train.start + 10000000 ≤ s.tb → 4 ≤ f.train.fails → seen → gone (.trainingTimeout p) 3) ∧
    (now ≤ f.winSec → exec (.errorWindowEnd p) s = .next s) ∧
    (f.winSec < now → (¬ seen ∨ f.winErrs ≤ ent s (0x3000 + p) 0x0B) →
      ∃ t, exec (.errorWindowEnd p) s = .next t ∧ t = { s with facets := t.facets } ∧ (∀ q, q ≠ p → getFacet t q = getFacet s q) ∧
        getFacet t p = { f with winSec := now, winErrs := 0, winBad := 0 }) ∧
    (f.winSec < now → seen → ent s (0x3000 + p) 0x0B < f.winErrs →
      (f.winBad < 2 → ∃ t, exec (.errorWindowEnd p) s = .next t ∧ t = { s with facets := t.facets, router := t.router } ∧
        (∀ q, q ≠ p → getFacet t q = getFacet s q) ∧ getFacet t p = { f with winSec := now, winErrs := 0, winBad := f.winBad + 1, fevt := f.fevt ||| 0x800#16 }) ∧
      (2 ≤ f.winBad → calm → retires (.errorWindowEnd p) 2)) ∧
    (∀ at_, f.lostAt = some at_ → at_ + 10000000 < s.tb → seen → calm → retires (.signalLossTimeout p) 1) ∧
    (f.state = 1 ∨ f.state = 4 → f.train.holdTo = 0 → f.train.start + 10000000 ≤ s.tb → 4 ≤ f.train.fails → seen → calm → retires (.trainingTimeout p) 3)

/-- R242 to R247, R296. -/
def Obligations.ScheduleStartsFrames : Prop :=
  ∀ (s : State) (p : Nat),
    let f := getFacet s p
    let x := f.active
    let time := charTime (ent s (0x3000 + p) 1)
    let off := s.tb - (x.phase + f.cyc * x.cycle)
    let only := fun (c : Instr) (P : Facet → Prop) =>
      ∃ t, exec c s = .next t ∧ t = { s with facets := t.facets } ∧ (∀ q, q ≠ p → getFacet t q = getFacet s q) ∧ P (getFacet t p)
    let counted := fun (c : Instr) (P : Facet → Prop) =>
      ∃ t, exec c s = .next t ∧ t = { s with facets := t.facets, router := t.router, ent := t.ent } ∧ (∀ q, q ≠ p → getFacet t q = getFacet s q) ∧
        (∀ i j, i ≠ 0x3100 + p → j < 256 → ent t i j = ent s i j) ∧ P (getFacet t p)
    let starts := fun (c : Instr) (retry : Bool) (P : Facet → Prop) =>
      ∃ t, exec c s = .next t ∧
        t = { s with facets := t.facets, ent := t.ent, clusters := t.clusters, mem := t.mem, ecc := t.ecc, router := t.router, errs := t.errs } ∧
        (∀ q, q ≠ p → getFacet t q = getFacet s q) ∧ P (getFacet t p) ∧
        ((∀ c k, (getBank s c k).loan = none) → t = { s with facets := t.facets, ent := t.ent } ∧
          (∀ i j, i ≠ 0x3100 + p → j < 256 → ent t i j = ent s i j) ∧ (retry = false → t.ent = s.ent))
    let sends := fun (lane : Option LaneTx) (d : TxDesc) (start : Nat) (margin : Bool) =>
      ∃ l, lane = some l ∧ l.desc.id = d.id ∧ l.desc.tries = d.tries + 1 ∧ l.margin = margin ∧ l.start = start ∧ l.stop = start + laneChars s p d.len * time
    (f.state = 2 ∨ f.state = 3 → x.phase + (f.cyc + 1) * x.cycle ≤ s.tb → ∃ t, exec (.cycleBoundary p) s = .next t ∧
      let g := getFacet t p
      g.cyc = f.cyc + 1 ∧ g.opened = [] ∧ g.await = [] ∧ (∀ l, g.lane = some l → f.lane = some l ∧ l.desc.slot = 0x1FF) ∧
        (isEther s p = false → g.cycOut = some { cyc := (f.cyc + 1) % 2 ^ 32, time := x.phase + (f.cyc + 1) * x.cycle }) ∧
        (∀ l, f.lane = some l → l.desc.slot ≠ 0x1FF → 10 * (x.phase + (f.cyc + 1) * x.cycle) < l.stop → g.endOut = some .abt)) ∧
    ((f.state ≠ 2 ∧ f.state ≠ 3 ∧ f.state ≠ 4) ∨ s.tb < x.phase + (f.cyc + 1) * x.cycle → exec (.cycleBoundary p) s = .next s) ∧
    (f.state = 2 ∨ f.state = 3 → f.prep ≠ f.cyc + 1 → x.phase + (f.cyc + 1) * x.cycle ≤ s.tb + x.lead →
      ∃ t, exec (.preparationInstant p) s = .next t ∧ (getFacet t p).prep = f.cyc + 1 ∧ (getFacet t (faceOf s p)).fevt.getLsbD 0 = true) ∧
    (f.state = 2 ∨ f.state = 3 → x.phase + (f.cyc + 1) * x.cycle ≤ s.tb → f.lane = none → f.back = none → f.await = [] → f.pendTab = none → f.deputy = none → f.standsFor = none →
      charge s p = none → isEther s p = false → f.look = none →
      let next := { f with
        cyc := f.cyc + 1, opened := [], carried := [], acks := [], ackOut := []
        cycOut := some { cyc := (f.cyc + 1) % 2 ^ 32, time := x.phase + (f.cyc + 1) * x.cycle } }
      (f.retry = [] → f.train.seen = false → f.state = 2 → only (.cycleBoundary p) fun g => g = { next with train := { f.train with good := 0, lastCyc := none } }) ∧
      (f.retry = [] → f.train.seen = false → f.state = 3 → f.train.missed = 0 → only (.cycleBoundary p) fun g => g = { next with train := { f.train with missed := 1 } }) ∧
      (f.retry = [] → f.train.seen = true → only (.cycleBoundary p) fun g => g = { next with train := { f.train with seen := false } }) ∧
      (f.retry = [] → f.train.seen = false → f.state = 3 → 1 ≤ f.train.missed → counted (.cycleBoundary p) fun g => g.state = 4 ∧ g.cyc = f.cyc + 1 ∧ g.queue = f.queue) ∧
      (∀ d, f.retry = [d] → d.defers < ent s (0x3000 + p) 9 → f.train.seen = true → counted (.cycleBoundary p) fun g =>
        g = { next with
          train := { f.train with seen := false }, retry := [], fevt := f.fevt ||| 0x200#16,
          deferred := f.deferred ++ [{ d with defers := d.defers + 1, tries := 0, sent := true }] })) ∧
    (f.state = 4 → x.phase + (f.cyc + 1) * x.cycle ≤ s.tb → f.pendTab = none → only (.cycleBoundary p) fun g => g = { f with cyc := cycleNo x s.tb }) ∧
    (f.state = 2 ∨ f.state = 3 → f.prep ≠ f.cyc + 1 → x.phase + (f.cyc + 1) * x.cycle ≤ s.tb + x.lead → f.standsFor = none →
      counted (.preparationInstant p) fun g => g = { f with prep := f.cyc + 1, fevt := f.fevt ||| 1#16 }) ∧
    (∀ i e, slotAt x i = some e → f.state = 3 → ownDir s p e.dir = true → i ∉ f.opened →
      let asTail := facetRole s p = 4 ∧ e.dir = 1
      let side := fun (g : Facet) => if asTail then g.back else g.lane
      (side f = none → e.start ≤ off → off < e.start + e.dur →
        (∃ t, exec (.slotOpening p i) s = .next t ∧ (getFacet t p).opened = i :: f.opened ∧ (getFacet t p).ackOut = acksFor f i) ∧
        ((getCluster s (p / 8)).quiesced = true → only (.slotOpening p i) fun g =>
          g = { f with opened := i :: f.opened, ackOut := acksFor f i, acks := f.acks.filter fun a => !(acksFor f i).contains a }) ∧
        ∀ d rest, (getCluster s (p / 8)).quiesced = false → e.latest = false → (f.deferred.filter fun d => d.slot == i && dataReady d) = d :: rest →
          (5 * (acksFor f i).length + laneChars s p d.len) * time ≤ 10 * e.dur →
          ∃ t, exec (.slotOpening p i) s = .next t ∧
            sends (side (getFacet t p)) d (max (10 * s.tb) f.gapTo + 5 * (acksFor f i).length * time) false ∧
            (getFacet t p).deferred = f.deferred.filter fun y => y.id != d.id) ∧
      (side f = none → f.standsFor = none → e.start ≤ off → off < e.start + e.dur →
      (getCluster s (p / 8)).quiesced = false → (∀ d ∈ f.deferred, d.slot ≠ i) →
      let acks := acksFor f i
      let after := fun (g : Facet) =>
        g.opened = i :: f.opened ∧ g.ackOut = acks ∧ g.deferred = f.deferred ∧ g.retry = f.retry ∧ g.await = f.await ∧ (asTail → g.lane = f.lane) ∧ (¬ asTail → g.back = f.back)
      ((∀ d ∈ f.queue, d.slot ≠ i) → only (.slotOpening p i) fun g => after g ∧ side g = none ∧ g.queue = f.queue) ∧
      (∀ d rest, e.latest = false → (f.queue.filter fun d => d.slot == i && eligible d) = d :: rest →
        (∀ y ∈ f.deferred, y.id ≠ d.id) → (5 * acks.length + laneChars s p d.len) * time ≤ 10 * e.dur →
        starts (.slotOpening p i) false fun g => after g ∧ sends (side g) d (max (10 * s.tb) f.gapTo + 5 * acks.length * time) false ∧ g.queue = f.queue.filter fun y => y.id != d.id) ∧
      (∀ d rest, e.latest = true → (f.queue.filter fun d => d.slot == i && eligible d) = rest ++ [d] →
        (5 * acks.length + laneChars s p d.len) * time ≤ 10 * e.dur →
        ∃ t, exec (.slotOpening p i) s = .next t ∧ sends (side (getFacet t p)) d (max (10 * s.tb) f.gapTo + 5 * acks.length * time) false ∧
          (getFacet t p).queue = f.queue.filter fun y => y.id != d.id && rest.all fun x => x.id != y.id) ∧
      (∀ d rest, e.latest = false → (f.queue.filter fun d => d.slot == i && eligible d) = d :: rest →
        10 * e.dur < (5 * acks.length + laneChars s p d.len) * time →
        ∃ t, exec (.slotOpening p i) s = .next t ∧ side (getFacet t p) = none ∧ (getFacet t p).queue = f.queue.filter fun y => y.id != d.id))) ∧
    (f.state ≠ 3 ∨ f.lane ≠ none ∨ 10 * s.tb < f.gapTo → exec (.unscheduledFrameStart p) s = .next s) ∧
    (f.answers = [] → (getCluster s (p / 8)).quiesced = true → exec (.unscheduledFrameStart p) s = .next s) ∧
    (∀ d rest, f.state = 3 → f.lane = none → f.gapTo ≤ 10 * s.tb → f.answers = [] → (getCluster s (p / 8)).quiesced = false →
      (f.queue.filter fun d => d.slot == 0x1FF && eligible d) = d :: rest →
      (everFits s p d.len = true → fitsNow s p d.len = true → ∃ t, exec (.unscheduledFrameStart p) s = .next t ∧ sends (getFacet t p).lane d (10 * s.tb) false) ∧
      (everFits s p d.len = false → rest = [] → ∃ t, exec (.unscheduledFrameStart p) s = .next t ∧ (getFacet t p).lane = none ∧
        (getFacet t p).queue = f.queue.filter fun y => y.id != d.id)) ∧
    (f.state = 3 → f.lane = none → f.gapTo ≤ 10 * s.tb → f.standsFor = none →
      (∀ v rest, f.answers = v :: rest → fitsNow s p v.length = true →
        ∃ t, exec (.unscheduledFrameStart p) s = .next t ∧ t = { s with facets := t.facets, nextId := s.nextId + 1 } ∧
          (∀ q, q ≠ p → getFacet t q = getFacet s q) ∧ (getFacet t p).answers = rest ∧ (getFacet t p).queue = f.queue ∧
          ∃ l, (getFacet t p).lane = some l ∧ l.desc.poster = .own ∧ l.start = 10 * s.tb ∧ l.stop = 10 * s.tb + laneChars s p v.length * time) ∧
      (∀ d rest, f.answers = [] → (getCluster s (p / 8)).quiesced = false → (f.queue.filter fun d => d.slot == 0x1FF && eligible d) = d :: rest →
        (∀ y ∈ f.deferred, y.id ≠ d.id) → everFits s p d.len = true →
        (fitsNow s p d.len = true → starts (.unscheduledFrameStart p) false fun g => sends g.lane d (10 * s.tb) false ∧ g.queue = f.queue.filter fun y => y.id != d.id) ∧
        (fitsNow s p d.len = false → exec (.unscheduledFrameStart p) s = .next s))) ∧
    ((∀ d ∈ f.retry, 3 ≤ d.tries) → exec (.retryAttempt p) s = .next s) ∧
    (∀ older d newer, f.retry = older ++ d :: newer → (∀ y ∈ older, 3 ≤ y.tries) → d.tries < 3 → dataReady d = true → f.state = 3 → f.lane = none → f.gapTo ≤ 10 * s.tb →
      (getCluster s (p / 8)).quiesced = false → x.cycle - x.margin ≤ off →
      10 * s.tb + laneChars s p d.len * time + (20 * f.train.delay + 8 * time + 400) ≤ 10 * (x.phase + (f.cyc + 1) * x.cycle) →
      ∃ t, exec (.retryAttempt p) s = .next t ∧ sends (getFacet t p).lane d (10 * s.tb) true ∧ (getFacet t p).retry = f.retry.filter fun y => y.id != d.id) ∧
    (∀ older d newer, f.retry = older ++ d :: newer → (∀ y ∈ older, 3 ≤ y.tries) → d.tries < 3 → dataReady d = true → f.state = 3 → f.lane = none → f.gapTo ≤ 10 * s.tb → f.standsFor = none →
      (getCluster s (p / 8)).quiesced = false → x.cycle - x.margin ≤ off →
      10 * s.tb + laneChars s p d.len * time + (20 * f.train.delay + 8 * time + 400) ≤ 10 * (x.phase + (f.cyc + 1) * x.cycle) →
      starts (.retryAttempt p) true fun g => sends g.lane d (10 * s.tb) true ∧ g.retry = (f.retry.filter fun y => y.id != d.id) ∧ g.queue = f.queue)

/-- R234, R244, R245, R253 to R255. -/
def Obligations.FramesCompleteAndAreAcknowledged : Prop :=
  (∀ (s : State) (p : Nat),
    let f := getFacet s p
    let leaves := fun (c : Instr) (e : FrameEnd) => ∃ t, exec c s = .next t ∧ (getFacet t p).lane = none ∧ (getFacet t p).endOut = some e
    (∀ l u bytes bad, f.lane = some l → portReadBytes (l.desc.len / 8 + 3) s l.desc.addr l.desc.len = (u, bytes, bad) →
      (l.stop ≤ 10 * s.tb → l.desc.len ≤ l.desc.got → (l.margin = true → l.stop ≤ 10 * (f.active.phase + (f.cyc + 1) * f.active.cycle)) →
        l.desc.poster = .own ∨ bad = false → leaves (.transmitCompletion p) .good) ∧
      (l.desc.poster ≠ .own → bad = true → leaves (.transmitDataError p) (badEnd s p)) ∧
      (f.back = none → l.desc.poster = .own ∨ bad = false → exec (.transmitDataError p) s = .next s) ∧
      (f.back = none → 10 * s.tb < l.stop → exec (.transmitCompletion p) s = .next s)) ∧
    (f.lane = none → f.back = none → exec (.transmitCompletion p) s = .next s ∧ exec (.transmitDataError p) s = .next s) ∧
    (∀ slot status seq a, (f.await.find? fun a => a.desc.slot == slot && a.desc.seq == seq) = some a → 10 * s.tb ≤ a.deadline → status ≤ 4 →
      ∃ t, exec (.ackReception p slot status seq) s = .next t ∧ (getFacet t p).await = (f.await.filter fun y => y.desc.id != a.desc.id) ∧
        (getFacet t p).retry = if status = 0 ∨ status = 3 then f.retry else f.retry ++ [a.desc]) ∧
    ((∀ a ∈ f.await, 10 * s.tb ≤ a.deadline) → exec (.ackDeadline p) s = .next s) ∧
    (p < nFacets s → ∀ lc, lc < 4 → ∀ v, ∃ t, exec (.txpostWrite p lc v) s = .next t ∧ t.nextId = s.nextId + 1 ∧
      (f.retired = false ∨ f.deputy ≠ none → postCheck s p (p / 8 * 4 + lc) (stagingOf f lc).txa (stagingOf f lc).txl v = none →
        ∃ d, (getFacet t (laneOf s p)).queue = (getFacet s (laneOf s p)).queue ++ [d] ∧ d.face = p ∧ d.cookie = field v 24 8 ∧ d.len = field (stagingOf f lc).txl 0 12))) ∧
  ∀ (s : State) (p lc : Nat), (getFacet s p).standsFor = none →
    let f := getFacet s p
    let st := stagingOf f lc
    let time := charTime (ent s (0x3000 + p) 1)
    let finished := fun (u t : State) (g : Facet) (n : Nat) (cookie result : Nat) =>
      t = { u with facets := t.facets, router := t.router, ent := t.ent, nextId := n } ∧ (∀ q, q ≠ p → getFacet t q = getFacet s q) ∧
        (∀ i j, i ≠ 0x3100 + p → j < 256 → ent t i j = ent u i j) ∧
        getFacet t p = { g with
          staging := Tab.put lc { st with done := pushDone st.done { cookie, result } } g.staging
          fevt := if f.feven.getLsbD 3 then g.fevt ||| 8#16 else g.fevt }
    let finishes := fun (c : Instr) (u : State) (g : Facet) (n : Nat) (cookie result : Nat) => ∃ t, exec c s = .next t ∧ finished u t g n cookie result
    let sets := fun (c : Instr) (u : State) (g : Facet) =>
      ∃ t, exec c s = .next t ∧ t = { u with facets := t.facets, router := t.router } ∧ (∀ q, q ≠ p → getFacet t q = getFacet s q) ∧ getFacet t p = g
    (p < nFacets s → lc < 4 → ∀ v : Word, let core := p / 8 * 4 + lc
      (f.retired = true → f.deputy = none → finishes (.txpostWrite p lc v) s f (s.nextId + 1) (field v 24 8) 5) ∧
      (f.retired = false → f.deputy = none →
        (∀ r, postCheck s p core st.txa st.txl v = some r → r ≠ 6 → finishes (.txpostWrite p lc v) s f (s.nextId + 1) (field v 24 8) r) ∧
        (postCheck s p core st.txa st.txl v = some 6 → s.ecc = [] → let b := field v 0 16
          let x := getBeam s b
          finishes (.txpostWrite p lc v) (setBeam s b { x with drops := if x.drops = 0xFFFFFFFF#32 then x.drops else x.drops + 1 }) f (s.nextId + 1) (field v 24 8) 6) ∧
        (postCheck s p core st.txa st.txl v = none → (v.getLsbD 16 = true → s.ecc = []) →
          ∃ t d, exec (.txpostWrite p lc v) s = .next t ∧ t = { s with facets := t.facets, beams := t.beams, nextId := s.nextId + 1 } ∧
            (∀ q, q ≠ p → getFacet t q = getFacet s q) ∧ getFacet t p = { f with queue := f.queue ++ [d] } ∧
            d.poster = .staging lc ∧ d.addr = bankBase (p / 8) 0 + (st.txa.toNat - 0x100000) ∧ d.len = field st.txl 0 12 ∧ d.slot = field st.txl 12 9 ∧
            d.cookie = field v 24 8 ∧ d.held = v.getLsbD 16 ∧
            (v.getLsbD 16 = false → t.beams = s.beams) ∧
            (v.getLsbD 16 = true → getBeam t (field v 0 16) = { getBeam s (field v 0 16) with heldtx := (getBeam s (field v 0 16)).heldtx + 1 } ∧
              ∀ b, b ≠ field v 0 16 → getBeam t b = getBeam s b)))) ∧
    (∀ l u bytes, f.lane = some l → l.desc.poster = .staging lc → l.desc.face = p → l.stop ≤ 10 * s.tb → l.desc.len ≤ l.desc.got →
      (l.desc.tsreq = true → f.txts.length < 16) →
      portReadBytes (l.desc.len / 8 + 3) s l.desc.addr l.desc.len = (u, bytes, false) →
      let sent := { f with lane := none, endOut := some .good }
      let g := if l.desc.tsreq then { sent with
        txts := f.txts ++ [{ beam := l.desc.tag.getD 0, slot := l.desc.slot, ts := stampAt s p l.start }], fevt := f.fevt ||| 0x10#16 } else sent
      (l.margin = false → (slotAt f.active l.desc.slot = none ∨ ∃ e, slotAt f.active l.desc.slot = some e ∧ e.rev = 0x1FF) →
        finishes (.transmitCompletion p) u g s.nextId l.desc.cookie 0) ∧
      (l.margin = false → ∀ e r, slotAt f.active l.desc.slot = some e → slotAt f.active e.rev = some r →
        let deadline := 10 * (f.active.phase + f.cyc * f.active.cycle + r.start + f.train.delay) + 5 * r.ackroom * time
        sets (.transmitCompletion p) u { g with await := f.await ++ [{ desc := l.desc, margin := false, deadline }] }) ∧
      (l.margin = true → l.stop ≤ 10 * (f.active.phase + (f.cyc + 1) * f.active.cycle) →
        sets (.transmitCompletion p) u { g with await := f.await ++ [{ desc := l.desc, margin := true, deadline := l.stop + (20 * f.train.delay + 8 * time + 400) }] })) ∧
    (∀ l u bytes, f.lane = some l → l.desc.poster = .staging lc → l.desc.face = p → portReadBytes (l.desc.len / 8 + 3) s l.desc.addr l.desc.len = (u, bytes, true) →
      finishes (.transmitDataError p) u { f with lane := none, endOut := some (badEnd s p), gapTo := 10 * s.tb + (1 + laneGap s p) * time } s.nextId l.desc.cookie 12) ∧
    (∀ l, f.lane = some l → l.desc.poster = .own → l.margin = false → l.stop ≤ 10 * s.tb → l.desc.len ≤ l.desc.got →
      sets (.transmitCompletion p) s { f with lane := none, endOut := some .good }) ∧
    (∀ slot status seq,
      ((∀ a ∈ f.await, a.desc.slot ≠ slot ∨ a.desc.seq ≠ seq) → exec (.ackReception p slot status seq) s = .next s) ∧
      (∀ a, (f.await.find? fun a => a.desc.slot == slot && a.desc.seq == seq) = some a → a.desc.poster = .staging lc → a.desc.face = p →
        let rest := f.await.filter fun y => y.desc.id != a.desc.id
        (a.deadline < 10 * s.tb ∨ 4 < status → exec (.ackReception p slot status seq) s = .next s) ∧
        (10 * s.tb ≤ a.deadline →
          (status = 0 → finishes (.ackReception p slot status seq) s { f with await := rest } s.nextId a.desc.cookie 0) ∧
          (status = 3 → finishes (.ackReception p slot status seq) s { f with await := rest } s.nextId a.desc.cookie 4) ∧
          (status = 1 ∨ status = 2 ∨ status = 4 → sets (.ackReception p slot status seq) s { f with await := rest, retry := f.retry ++ [a.desc] })))) ∧
    (∀ a, (f.await.find? fun a => decide (a.deadline < 10 * s.tb)) = some a →
      sets (.ackDeadline p) s { f with await := f.await.filter fun y => y.desc.id != a.desc.id, retry := f.retry ++ [a.desc] }) ∧
    (p < nFacets s → lc < 4 →
      (st.done = [] → exec (.txdoneRead p lc) s = .next { s with rdata := some 0 }) ∧
      (∀ d ds, st.done = d :: ds → exec (.txdoneRead p lc) s = .next { setFacet s p { f with staging := Tab.put lc { st with done := ds } f.staging } with
        rdata := some (BitVec.ofNat 32 (d.cookie % 256 + d.result % 16 * 256) ||| 0x80000000#32) }) ∧
      (f.txts = [] → exec (.txts2Read p) s = .next { s with rdata := some 0 }) ∧
      (∀ y ys, f.txts = y :: ys → exec (.txts2Read p) s = .next { setFacet s p { f with txts := ys } with rdata := some (BitVec.ofNat 32 (y.ts / 2 ^ 32)) }))

/-- R220, R221, R232, R238, R244, R250, R251, R255, R295. -/
def Obligations.FramesAreReceivedAndPosted : Prop :=
  (∀ (s : State) (p : Nat),
    let f := getFacet s p
    (∀ fr, (f.state ≠ 3 → exec (.arrivalLookup p fr) s = .next s) ∧
      (f.state = 3 → ∃ t, exec (.arrivalLookup p fr) s = .next t ∧ (getFacet t p).look.isSome = true)) ∧
    (f.state = 3 → isEther s p = false → ∀ h0 h1 h2 pay crc sof,
      ∃ t, exec (.frameReception p { frame := .beam h0 h1 h2 pay crc, sof, viol := true }) s = .next t ∧ (getFacet t p).state = 3 ∧
        (getFacet t p).winErrs = f.winErrs + 1 + Config.violations s.free) ∧
    (f.state = 3 → ∀ fr, ∃ t, exec (.frameReception p fr) s = .next t) ∧
    (f.posts = [] → exec (.rxPost p) s = .next s) ∧
    (∀ x xs, f.posts = x :: xs → fosterOf s (p / 8) = none →
      (∀ b, x.beam = some b → (getBeam s b).valid = false →
        ∃ t, exec (.rxPost p) s = .next t ∧ t = { s with facets := t.facets } ∧ (∀ q, q ≠ p → getFacet t q = getFacet s q) ∧
          getFacet t p = { f with posts := xs, bufs := Tab.put x.idx .free f.bufs }) ∧
      (∀ n, (∀ b, x.beam = some b → (getBeam s b).valid = true) → postTarget s p x = some n → rqFull (getCore s n).q = false →
        ∃ t, exec (.rxPost p) s = .next t ∧ (getFacet t p).posts = xs ∧ (getCore t n).q.rqHead = ((getCore s n).q.rqHead + 1) % (getCore s n).q.rqN.toNat))) ∧
  (∀ (s : State) (p : Nat), s.ecc = [] → Mem.wf s.mem = true → (∀ c k, (getBank s c k).merge = [] ∧ (getBank s c k).loan = none) → s.foster = [] →
      (∀ e ∈ s.cores, e.2.u.copy = none) →
    let f := getFacet s p
    let others := fun (t : State) => ∀ q, q ≠ p → getFacet t q = getFacet s q
    let wrote := fun (t : State) (a : Nat) (v : Octets) =>
      Mem.readAll a v.length t.mem = v ∧ ∀ y, y < a ∨ a + v.length ≤ y → Mem.read y t.mem = Mem.read y s.mem
    (f.state = 3 → f.look = none → f.standsFor = none → ∀ fr : Frame,
      (classify s fr ≠ .ordinary → ∃ t, exec (.arrivalLookup p fr) s = .next t ∧ t = { s with facets := t.facets } ∧ others t ∧
        getFacet t p = { f with look := some .mgmt }) ∧
      (classify s fr = .ordinary → let key := frameKey p fr
        let q := keyFacet key / 64
        ((beamSearch key (beamWays key) s none).2.1 = none → ∃ t, exec (.arrivalLookup p fr) s = .next t ∧
          t = { s with facets := t.facets, quads := t.quads, router := t.router } ∧ others t ∧ getFacet t p = { f with look := some .miss } ∧
          (∀ r, r ≠ q → getQuad t r = getQuad s r) ∧
          getQuad t q = { getQuad s q with
            bemiss := if (getQuad s q).bemiss = 0xFFFFFFFF#32 then 0xFFFFFFFF#32 else (getQuad s q).bemiss + 1, beevt := (getQuad s q).beevt ||| 8#8 }) ∧
        (∀ b, (beamSearch key (beamWays key) s none).2.1 = some b → (getBeam s b).poison = false → (getBeam s b).relay = false →
          ∃ t, exec (.arrivalLookup p fr) s = .next t ∧ t = { s with facets := t.facets, clusters := t.clusters } ∧ others t ∧
            getFacet t p = { f with look := some (.found b) }))) ∧
    (f.state ≠ 3 → f.look = none → ∀ fr, ∃ t, exec (.frameReception p fr) s = .next t ∧ t = { s with facets := t.facets } ∧ ∀ q, getFacet t q = getFacet s q) ∧
    (f.state = 3 → isEther s p = false → f.standsFor = none → f.retired = false → ∀ h0 h1 h2 pay crc sof, let slot := field h0 0 9
      let seq := field h0 16 16
      (f.look = none → ∀ e, slotAt f.active slot = some e → rxDir s p e.dir = true → inWindow f.active f.train.delay e sof = true → e.rev ≠ 0x1FF →
        ∃ t, exec (.frameReception p { frame := .beam h0 h1 h2 pay crc, sof, viol := true }) s = .next t ∧ t = { s with facets := t.facets, ent := t.ent, free := s.free + 1 } ∧ others t ∧
          getFacet t p = { f with winErrs := f.winErrs + 1 + Config.violations s.free, acks := f.acks ++ [{ slot, status := 2, seq }] } ∧
          ent t (0x3100 + p) 9 = min 0xFFFFFFFF (ent s (0x3100 + p) 9 + max 1 (Config.violations s.free))) ∧
      (∀ b idx plain, rxCheck s p h0 h1 h2 pay crc sof false = .good plain → h0.getLsbD 12 = false → f.look = some (.found b) → nextFree f = some idx → slot = 0x1FF →
        let v := storedOctets (.beam h0 h1 h2 pay crc) plain
        v.length ≤ 2048 →
        ∃ t, exec (.frameReception p { frame := .beam h0 h1 h2 pay crc, sof, viol := false }) s = .next t ∧
          t = { s with facets := t.facets, beams := t.beams, mem := t.mem, ent := t.ent } ∧ others t ∧
          getFacet t p = { f with
            look := none, bufs := Tab.put idx (.beam b) f.bufs, nextBuf := (idx + 1) % f.ringN,
            posts := f.posts ++ [{ beam := some b, idx, retry := false, len := v.length, slot, ts := sof, waited := false, again := false }] } ∧
          wrote t (bankBase (p / 8) 0 + (f.ringBase - 0x100000 + idx * 2048)) v ∧ (∀ a, a ≠ b → getBeam t a = getBeam s a) ∧
          getBeam t b = { getBeam s b with rxframes := (getBeam s b).rxframes + 1, rxbytes := (getBeam s b).rxbytes + BitVec.ofNat 32 (field h1 16 11) } ∧
          ent t (0x3100 + p) 4 = (ent s (0x3100 + p) 4 + 1) % 2 ^ 64)) ∧
    (∀ x xs b, f.posts = x :: xs → x.beam = some b → (getBeam s b).valid = true → let n := (getBeam s b).owner.toNat
      n < 128 → coreServes s n = true → let k := getCore s n
      let base := xramBase (n / 4) + k.q.rqBase.toNat * 16
      (k.q.rqTail = (k.q.rqHead + 1) % k.q.rqN.toNat → (x.waited = true → exec (.rxPost p) s = .next s) ∧
        (x.waited = false → ∃ t, exec (.rxPost p) s = .next t ∧ t = { s with facets := t.facets, router := t.router } ∧ others t ∧
          getFacet t p = { f with posts := { x with waited := true } :: xs, fevt := f.fevt ||| 2#16 })) ∧
      (k.q.rqTail ≠ (k.q.rqHead + 1) % k.q.rqN.toNat → x.again = false →
        ∃ t, exec (.rxPost p) s = .next t ∧ t = { s with facets := t.facets, cores := t.cores, beams := t.beams, mem := t.mem, router := t.router } ∧ others t ∧
          getFacet t p = { f with posts := xs, held := f.held ++ [{ x with waited := false, again := false }] } ∧
          (∀ m, m ≠ n → getCore t m = getCore s m) ∧ getCore t n = { k with q := { k.q with rqHead := (k.q.rqHead + 1) % k.q.rqN.toNat } } ∧
          wrote t (base + k.q.rqHead * 16) (postOctets p x) ∧
          t.router.raised = (if k.q.rqDben = true ∧ k.q.rqHead = k.q.rqTail then s.router.raised ++ [560 + n] else s.router.raised) ∧
          getBeam t b = { getBeam s b with heldrx := if (getBeam s b).heldrx = 0xFF#8 then 0xFF#8 else (getBeam s b).heldrx + 1 } ∧
          ∀ a, a ≠ b → getBeam t a = getBeam s a))) ∧
  (∀ (s : State) (p : Nat) (v : Word), p < nFacets s →
    let f := getFacet s p
    let i := field v 0 6
    let miss := Tab.get (fun _ => BufUse.free) i f.bufs = .miss ∧ ∀ x ∈ f.posts, x.idx ≠ i
    (miss → exec (.rxfreeWrite p v) s = .next (setFacet s p { f with bufs := Tab.put i .free f.bufs })) ∧
    (¬ miss → exec (.rxfreeWrite p v) s = .next s)) ∧
  (∀ (s : State) (n : Nat) (v : Word), corePresent s n = true →
    let k := getCore s n
    let base := field v 4 10
    let cnt := max 16 (field v 16 8)
    (0x4000 < base * 16 + cnt * 16 → exec (.rqcfgWrite n v) s = .next (setCore s n { k with e := { k.e with rqref := true } })) ∧
    (base * 16 + cnt * 16 ≤ 0x4000 →
      exec (.rqcfgWrite n v) s = .next (setCore s n { k with q := { k.q with rqBase := BitVec.ofNat 10 base, rqDben := v.getLsbD 14, rqN := BitVec.ofNat 8 cnt } })))

/-- R418 to R421, R426, R427. -/
def Obligations.TimebaseAndDiscipline : Prop :=
  ∀ s : State,
    let c := s.clock
    let raised := fun (l : List Nat) => { s.router with raised := s.router.raised ++ l }
    let open_ := { c with inCnt := 0, outCnt := 0 }
    (∀ v : Word, exec (.tbadjWrite v) s = .next { s with clock := { c with adj := max (-200000) (min (signedOf 24 v.toNat) 200000) } }) ∧
    (∀ v : Word,
      (linksRun s = true → exec (.tbstepWrite v) s = .next { s with clock := { c with stepref := true } }) ∧
      (linksRun s = false → ∃ t, exec (.tbstepWrite v) s = .next t ∧ (t.tb : Int) = ((s.tb : Int) + 4 * v.toInt) % (2 ^ 64 : Int) ∧ t.clock.stepped = true ∧
        741 ∈ t.router.raised ∧ t.mem = s.mem ∧ t.ecc = s.ecc ∧ t.ent = s.ent ∧ t.beams = s.beams ∧ t.cal.sec = s.cal.sec ∧
        ∀ n, (getCore t n).g = (getCore s n).g ∧ (getCore t n).r = (getCore s n).r ∧ (getCore t n).i = (getCore s n).i)) ∧
    (∀ p (off : Int), timeSource s = 1 → ptpUp s p = true → ptpFacet s = some p → off.natAbs ≤ 1000000 ∨ linksRun s = true →
      let near := off.natAbs < 100
      let far := 1000 < off.natAbs
      let lock := if c.lock = 2 then (if far ∧ 3 ≤ c.outCnt then 0 else 2) else if near ∧ 15 ≤ c.inCnt then 2 else 1
      ∃ t, exec (.ptpSyncMeasurement p off) s = .next t ∧
        t = { s with clock := t.clock, free := s.free + 1, router := raised (if c.lock = lock then [] else [740]) } ∧
        t.clock = { c with adj := t.clock.adj, off := max (-2147483648) (min off 2147483647), lastMeas := s.tb, lock, inCnt := t.clock.inCnt, outCnt := t.clock.outCnt } ∧
        (lock ≠ 0 → t.clock.inCnt = if near then min 16 (c.inCnt + 1) else 0) ∧ -200000 ≤ t.clock.adj ∧ t.clock.adj ≤ 200000) ∧
    (∀ p (off : Int), timeSource s = 1 → ptpUp s p = true → ptpFacet s = some p → 1000000 < off.natAbs → linksRun s = false →
      ∃ t, exec (.ptpSyncMeasurement p off) s = .next t ∧ (t.tb : Int) = ((s.tb : Int) - 4 * (off / 4)) % (2 ^ 64 : Int) ∧ t.clock.stepped = true ∧
        741 ∈ t.router.raised ∧ t.clock.off = max (-2147483648) (min off 2147483647) ∧ t.mem = s.mem ∧ t.ent = s.ent ∧ t.cal.sec = s.cal.sec ∧
        ∀ n, (getCore t n).g = (getCore s n).g ∧ (getCore t n).r = (getCore s n).r) ∧
    (∀ p off, timeSource s ≠ 1 ∨ ptpUp s p = false ∨ ptpFacet s ≠ some p → exec (.ptpSyncMeasurement p off) s = .next s) ∧
    (c.lock = 2 → (timeSource s = 1 ∧ c.lastMeas + 3000000000 ≤ s.tb) ∨ (timeSource s = 3 ∧ c.lastMeas + 10000000 ≤ s.tb) →
      exec .disciplineTimeout s = .next { s with clock := { open_ with lock := 0 }, router := raised [740] }) ∧
    (c.lock ≠ 2 ∨ (timeSource s ≠ 1 ∧ timeSource s ≠ 3) → exec .disciplineTimeout s = .next s) ∧
    (∀ i, i < 4 → c.arm.testBit i = false ∨ s.tb < Tab.get (fun _ => 0) i c.alm → exec (.timebaseAlarm i) s = .next s) ∧
    (∀ i, i < 4 → c.arm.testBit i = true → Tab.get (fun _ => 0) i c.alm ≤ s.tb →
      exec (.timebaseAlarm i) s = .next { s with clock := { c with arm := c.arm - 2 ^ i }, router := raised [736 + i] }) ∧
    exec .wholeSecond s = .next { s with
      clock := { c with second := s.tb / 1000000000 }, router := raised (List.replicate (s.tb / 1000000000 - c.second) 742) } ∧
    exec .tbcloRead s = .next { s with clock := { c with chi := BitVec.ofNat 32 (s.tb / 2 ^ 32) }, rdata := some (BitVec.ofNat 32 s.tb) } ∧
    (∀ p (a : Announce), ptpUp s p = true →
      ent s 0x2200 9 = p ∨ (ent s 0x2200 9 = 0xFFFF ∧ ∀ q d, c.announce = some (q, d) → q = p ∨ a.rank < d.rank) →
      let told := { s with clock := { c with announce := some (p, a) } }
      (timeSource s = 1 → c.lock = 2 → exec (.announceReception p a) s = .next { told with
        cal := { s.cal with leap := if a.leap61 then 1 else if a.leap59 then 2 else s.cal.leap } }) ∧
      (timeSource s ≠ 1 ∨ c.lock ≠ 2 → exec (.announceReception p a) s = .next told))

/-- R398, R421, R423 to R426. -/
def Obligations.CalendarAndBackupDomain : Prop :=
  ∀ s : State,
    let c := s.cal
    let raised := fun (l : List Nat) => { s.router with raised := s.router.raised ++ l }
    let rings := fun (d : Calendar) => d.armed = true ∧ d.sec = d.alm
    let alarmed := fun (d : Calendar) => { d with armed := false, alarm := true }
    let off33 := s.power.low.contains .vio33
    (let d := c.sec % 86400
      let goes := fun (e : Calendar) (leaps : Int) =>
        (timeSource s = 2 → c.invalid = false → ∃ t, exec .calendarSecond s = .next t ∧ t.cal.sec = e.sec ∧ t.cal.leap = e.leap ∧ t.cal.hold = e.hold ∧
          t.cal.wrap = e.wrap ∧ (rings e → t.cal.armed = false ∧ t.cal.alarm = true ∧ 743 ∈ t.router.raised) ∧
          t.clock.off = max (-2147483648) (min ((s.tb : Int) - ((e.sec : Int) + s.clock.leaps + leaps) * 1000000000) 2147483647)) ∧
        (timeSource s ≠ 2 ∨ c.invalid = true → ¬ rings e → exec .calendarSecond s = .next { s with cal := e, clock := { s.clock with leaps := s.clock.leaps + leaps } }) ∧
        (timeSource s ≠ 2 ∨ c.invalid = true → rings e → exec .calendarSecond s = .next { s with cal := alarmed e, clock := { s.clock with leaps := s.clock.leaps + leaps }, router := raised [743] })
      let at_ := { c with edge := (s.tb : Int) }
      let next := fun (n : Nat) => if 6311433599 < c.sec + n then { at_ with sec := 0, wrap := true, hold := false } else { at_ with sec := c.sec + n, hold := false }
      (c.leap = 1 → d = 86399 → c.hold = false → goes { at_ with hold := true, leap := 0 } 1) ∧
      (c.leap = 2 → d = 86398 → goes { next 2 with leap := 0 } (-1)) ∧
      (¬ (c.leap = 1 ∧ d = 86399 ∧ c.hold = false) → ¬ (c.leap = 2 ∧ d = 86398) → goes (next 1) 0)) ∧
    (∀ v,
      (6311433599 < v → exec (.calendarWrite v) s = .next { s with lastAbort := some 0x03000001#32 }) ∧
      (v ≤ 6311433599 → timeSource s = 2 → s.clock.lock = 2 →
        let e := { c with sec := v, edge := (s.tb : Int), hold := false }
        let k := { s.clock with leaps := 0, lock := 0, inCnt := 0, outCnt := 0 }
        (¬ rings e → exec (.calendarWrite v) s = .next { s with cal := e, clock := k, router := raised [740], lastAbort := none }) ∧
        (rings e → exec (.calendarWrite v) s = .next { s with cal := alarmed e, clock := k, router := raised [740, 743], lastAbort := none })) ∧
      (v ≤ 6311433599 → timeSource s ≠ 2 ∨ s.clock.lock ≠ 2 →
        let e := { c with sec := v, edge := (s.tb : Int), hold := false }
        (¬ rings e → exec (.calendarWrite v) s = .next { s with cal := e, clock := { s.clock with leaps := 0 }, lastAbort := none }) ∧
        (rings e → exec (.calendarWrite v) s = .next { s with cal := alarmed e, clock := { s.clock with leaps := 0 }, router := raised [743], lastAbort := none }))) ∧
    (timeSource s = 1 → s.clock.lock = 2 → s.active ≠ none →
      (∀ p a, s.clock.announce = some (p, a) → s.clock.lastSet + 60000000000 ≤ s.tb →
        let v : Int := ((s.tb / 1000000000 : Nat) : Int) - a.utcOffset - 946684800
        let e := { c with sec := v.toNat, edge := (s.tb : Int), hold := false }
        let k := { s.clock with leaps := 0, lastSet := s.tb }
        0 ≤ v → v ≤ 6311433599 →
          (¬ rings e → exec .calendarSetFromPtp s = .next { s with cal := e, clock := k }) ∧
          (rings e → exec .calendarSetFromPtp s = .next { s with cal := alarmed e, clock := k, router := raised [743] })) ∧
      (∀ trim, s.clock.lastTrim + 3600000000000 ≤ s.tb →
        exec (.caltrimUpdate trim) s = .next { s with cal := { c with trim := max (-512) (min trim 511) }, clock := { s.clock with lastTrim := s.tb } })) ∧
    (timeSource s ≠ 1 ∨ s.clock.lock ≠ 2 ∨ s.active = none →
      exec .calendarSetFromPtp s = .next s ∧ ∀ trim, exec (.caltrimUpdate trim) s = .next s) ∧
    (exec .calsloRead s = .next { s with
      cal := { c with
        lhi := BitVec.ofNat 32 (c.sec / 2 ^ 32), lsub := BitVec.ofNat 32 (calSub s), ldate := BitVec.ofNat 32 (calDate c.sec),
        ltime := BitVec.ofNat 32 (calTime c.sec) },
      rdata := some (BitVec.ofNat 32 c.sec) }) ∧
    (∀ mv, s.power.stage = 3 ∨ c.lastVbat + 10000000000 ≤ s.tb →
      (mv < 2200 → exec (.vbatCheck mv) s = .next { s with cal := { c with vbatlow := true, lastVbat := s.tb }, router := raised [745] }) ∧
      (2200 ≤ mv → exec (.vbatCheck mv) s = .next { s with cal := { c with vbatlow := false, lastVbat := s.tb } })) ∧
    (∀ mv, s.power.stage ≠ 3 → s.tb < c.lastVbat + 10000000000 → exec (.vbatCheck mv) s = .next s) ∧
    (s.power.stage ≤ 3 → exec .oscillatorStop s = .next { s with cal := { c with oscstop := true, seen744 := c.seen744 && c.oscstop } }) ∧
    (c.oscstop = true → c.seen744 = false → 3 < s.power.stage → exec .oscillatorStop s = .next { s with cal := { c with seen744 := true }, router := raised [744] }) ∧
    (c.oscstop = false → 3 < s.power.stage → exec .oscillatorStop s = .next { s with
      cal := { c with oscstop := true, seen744 := true }, router := raised [744] }) ∧
    (c.oscstop = true → c.seen744 = true → exec .oscillatorStop s = .next s) ∧
    (off33 = false → exec .backupPowerLoss s = .next s) ∧
    (off33 = true → exec .backupPowerLoss s = .next { s with cal := Calendar.reset }) ∧
    exec (.backupSupplyChangeover off33) s = .next { s with cal := { c with onVbat := off33 } } ∧
    exec (.backupSupplyChangeover (!off33)) s = .next s

/-- R280, R308 to R312, R314, R315. -/
def Obligations.ChannelLoopFollowsTheRules : Prop :=
  ∀ (s : State) (n : Nat), n < nChans s →
    let x := getChan s n
    let cfg := fun (sub : Nat) => ent s (0x5000 + n) sub
    let mode := cfg 2
    let becomes := fun (c : Instr) (P : Channel → Prop) =>
      ∃ t, exec c s = .next t ∧ t = { s with chans := t.chans, router := t.router } ∧ (∀ m, m ≠ n → getChan t m = getChan s m) ∧ P (getChan t n)
    let clamp := fun (v lo hi : Int) => max lo (min v hi)
    (∀ code : Int, x.lastConv < (s.tb - 50) / 500 → boundaryWaits s n x = false →
      let c := clamp code (-131072) 131071
      let trip := BitVec.ofNat 32 (cfg 0x0F)
      let hi := signedOf 18 (cfg 0x0D)
      let lo := signedOf 18 (cfg 0x0E)
      let hy : Int := (cfg 0x0F % 2 ^ 14 : Nat)
      let th := trip.getLsbD 14 = true ∧ hi < c
      let tl := trip.getLsbD 15 = true ∧ c < lo
      becomes (.channelConversion n code) fun y => y = { x with
        lastConv := (s.tb - 50) / 500, convN := x.convN + 1, convSum := x.convSum + c,
        hiAct := decide (th ∨ (x.hiAct = true ∧ hi - hy < c)), loAct := decide (tl ∨ (x.loAct = true ∧ c < lo + hy)),
        istat := x.istat ||| (if c = code then 0 else 0x10#11) ||| (if th then 1#11 else 0) ||| (if tl then 2#11 else 0) |||
          (if (th ∨ tl) ∧ trip.getLsbD 16 = true then 4#11 else 0) }) ∧
    (let p := max 10 (cfg 5) * 1000
      let t := s.tb / p * p;
      x.lastLoop < t → t ≤ x.lastConv * 500 → x.convN ≠ 0 → x.snaps = [] →
      let g := x.cfgNow
      let m := x.convSum / (x.convN : Int)
      let yf := if x.started then x.yf + (m - x.yf) / (2 ^ g.filt : Int) else m
      let taken := fun (y : Channel) => y.meas = m ∧ y.yf = yf ∧ y.convN = 0 ∧ y.convSum = 0 ∧ y.lastLoop = t ∧ y.started = true ∧ y.out = x.out ∧ y.istat = x.istat
      let idle := x.failed = false ∧ x.safe = false;
      (¬ idle → becomes (.loopBoundary n) fun y => taken y ∧ y.next = x.next ∧ y.i = x.i) ∧
      (idle → cfg 3 ≠ 1 → becomes (.loopBoundary n) fun y => taken y ∧ y.i = x.i ∧
        y.next = some (patternOf 16 (clamp (outVal mode x.omanNow) (outVal mode g.olo) (outVal mode g.ohi)))) ∧
      (idle → cfg 3 = 1 → x.restart = false →
        let e := g.sp - yf
        let lo := outVal mode g.olo
        let hi := outVal mode g.ohi
        let i := clamp (x.i + g.ki * e) (lo * 65536) (hi * 65536)
        let u := (g.kp * e + i + g.kd * (x.yprev - yf)) / 65536
        let v := if g.slew = 0 then u else clamp u (outVal mode x.out - g.slew) (outVal mode x.out + g.slew)
        becomes (.loopBoundary n) fun y => taken y ∧ y.i = i ∧ y.yprev = yf ∧ y.next = some (patternOf 16 (clamp v lo hi)))) ∧
    (let t := s.tb / 1000 * 1000;
      x.lastDac < t → x.recDue = false → x.omans = [] →
      let idle := x.failed = false ∧ x.safe = false;
      (¬ idle → becomes (.dacUpdate n) fun y => y.out = cfg 8 ∧ y.next = none ∧ y.lastDac = t ∧ y.i = x.i) ∧
      (idle → cfg 3 = 1 → x.modeNew = false → x.lastLoop + 2000 ≤ t → becomes (.dacUpdate n) fun y => y.out = x.next.getD x.out ∧ y.next = none ∧ y.lastDac = t ∧ y.i = x.i) ∧
      (idle → cfg 3 = 1 → x.modeNew = false → t < x.lastLoop + 2000 → becomes (.dacUpdate n) fun y => y = { x with lastDac := t }) ∧
      (idle → cfg 3 ≠ 1 → becomes (.dacUpdate n) fun y =>
        y.out = patternOf 16 (clamp (outVal mode x.omanNow) (outVal mode x.cfgNow.olo) (outVal mode x.cfgNow.ohi)) ∧ y.lastDac = t ∧ y.i = x.i)) ∧
    (mode = 2 → x.openAt + 100000 ≤ s.tb →
      (x.istat.getLsbD 3 = false → becomes (.openLoopDetection n true) fun y => y = { x with openAt := s.tb, istat := x.istat ||| 8#11 }) ∧
      (x.istat.getLsbD 3 = true → becomes (.openLoopDetection n false) fun y => y = { x with openAt := s.tb, istat := x.istat &&& ~~~8#11 })) ∧
    (∀ refOk backOk : Bool, x.lastCheck < s.tb / 10000000 → x.failed = false →
      let good := refOk = true ∧ (backOk = true ∨ mode = 0 ∨ x.istat.getLsbD 3 = true ∨ s.tb < x.dacAt + 20000)
      let scf := x.istat.toNat / 256 % 4
      let fails := fun (c : Instr) (why : Nat) =>
        ∃ t, exec c s = .next t ∧ t = { s with chans := t.chans, router := t.router, ent := t.ent, errs := t.errs, emerg := t.emerg } ∧
          (∀ m, m ≠ n → getChan t m = getChan s m) ∧ (getChan t n).istat.getLsbD 10 = true ∧ (getChan t n).istat.getLsbD 2 = true ∧
          (getChan t n).driver = false ∧ (getChan t n).next = none ∧
          t.errs.head? = some { code := 0x8140, origin := 0, time := s.tb, data := [BitVec.ofNat 8 n, BitVec.ofNat 8 why] }
      (good → becomes (.selfCheck n refOk backOk false) fun y => y = { x with lastCheck := s.tb / 10000000, istat := x.istat &&& 0x4FF#11 }) ∧
      (¬ good → scf < 2 → becomes (.selfCheck n refOk backOk false) fun y =>
        y = { x with lastCheck := s.tb / 10000000, istat := (x.istat &&& 0x4FF#11) ||| BitVec.ofNat 11 ((scf + 1) * 256) }) ∧
      (¬ good → 2 ≤ scf → fails (.selfCheck n refOk backOk false) 1) ∧ fails (.selfCheck n refOk backOk true) 2)

/-- R310, R313, R316 to R318. -/
def Obligations.ChannelWritesAndSerialLine : Prop :=
  ∀ (s : State) (n : Nat), n < nChans s →
    let x := getChan s n
    let cfg := fun (sub : Nat) => ent s (0x5000 + n) sub
    let u := BitVec.ofNat 32 (cfg 0x12)
    let becomes := fun (c : Instr) (P : Channel → Prop) =>
      ∃ t, exec c s = .next t ∧ t = { s with chans := t.chans, router := t.router } ∧ (∀ m, m ≠ n → getChan t m = getChan s m) ∧ P (getChan t n)
    let writes := fun (c : Instr) (l : List (Nat × Nat)) (P : Channel → Prop) =>
      ∃ t, exec c s = .next t ∧ t = { s with chans := t.chans, router := t.router, ent := t.ent } ∧ (∀ m, m ≠ n → getChan t m = getChan s m) ∧ P (getChan t n) ∧
        (∀ e ∈ l, ent t (0x5000 + n) e.1 = e.2) ∧ ∀ i j, j < 256 → (i ≠ 0x5000 + n ∨ ∀ e ∈ l, e.1 ≠ j) → ent t i j = ent s i j
    let refuses := fun (c : Instr) => becomes c fun y => y = { x with istat := x.istat ||| 0x80#11 }
    (∀ v : Word, let range := field v 0 3
      let omode := field v 3 2
      let loopen := field v 5 1
      let good := range ≤ 4 ∧ omode ≤ 2 ∧ ¬ ((range ≠ cfg 1 ∨ omode ≠ cfg 2) ∧ (cfg 3 = 1 ∨ x.istat.getLsbD 10 = true))
      (¬ good → refuses (.icfgWrite n v)) ∧
      (good → writes (.icfgWrite n v) [(1, range), (2, omode), (3, loopen), (4, field v 6 4)] fun y =>
        y.istat = x.istat ∧ y.out = x.out ∧ y.i = x.i ∧ (cfg 3 = 0 → loopen = 1 → y.restart = true))) ∧
    (∀ v : Word, writes (.osafeForce n v) [(8, field v 0 16)] fun y => y = { x with istat := if v.getLsbD 16 then x.istat ||| 4#11 else x.istat }) ∧
    (x.istat.getLsbD 2 = true →
      (x.hiAct = true ∨ x.loAct = true ∨ x.istat.getLsbD 10 = true → refuses (.safeRelease n)) ∧
      (x.hiAct = false → x.loAct = false → x.istat.getLsbD 10 = false → becomes (.safeRelease n) fun y => y = { x with istat := x.istat &&& ~~~4#11, restart := true })) ∧
    (∀ v : Word, (ringFits (cfg 0x11) (field v 16 8) = false → refuses (.scfgWrite n v)) ∧
      (ringFits (cfg 0x11) (field v 16 8) = true → writes (.scfgWrite n v) [(0x10, field v 0 24)] fun y => y = { x with seq := 1, entry := 0, recCnt := 0, recDue := false })) ∧
    (∀ v : Word, x.driver = false →
      (u.getLsbD 28 = false → x.txf.length < 64 → becomes (.utxWrite n v) fun y => y.txf = x.txf ++ [v.setWidth 8] ∧ y.driver = false ∧ y.ustat = x.ustat ∧ y.rxf = x.rxf) ∧
      (64 ≤ x.txf.length → becomes (.utxWrite n v) fun y => y.txf = x.txf ∧ y.ustat = x.ustat ||| (1#21 <<< 16)) ∧
      (u.getLsbD 28 = true → x.istat.getLsbD 10 = false → x.txf = [] → becomes (.utxWrite n v) fun y =>
        y = { x with driver := true, txEnd := 4 * s.tb + charBits u * bitTime u, echo := x.echo ++ [v.setWidth 8] })) ∧
    (x.driver = true → x.txf = [] → x.txEnd + field u 23 4 * bitTime u ≤ 4 * s.tb → becomes (.rs485TransmissionEnd n) fun y =>
      y.driver = false ∧ y.echo = [] ∧ y.ustat = x.ustat ||| (1#21 <<< 20) ∧ y.rxf = x.rxf) ∧
    (∀ (d : Byte) (perr ferr : Bool), u.getLsbD 28 = true → x.driver = false →
      (x.rxf.length < 64 → becomes (.rs485CharacterReception n d perr ferr) fun y =>
        y = { x with rxf := x.rxf ++ [{ data := d, perr := perr && decide (field u 20 2 ≠ 0), ferr }] }) ∧
      (64 ≤ x.rxf.length → becomes (.rs485CharacterReception n d perr ferr) fun y => y.rxf = x.rxf ∧ y.ustat = x.ustat ||| (1#21 <<< 17))) ∧
    (x.rxf = [] → exec (.urxRead n) s = .next { s with rdata := some 0 }) ∧
    (∀ (c : RxChar) (cs : List RxChar), x.rxf = c :: cs → exec (.urxRead n) s = .next { setChan s n { x with rxf := cs } with
      rdata := some (BitVec.ofNat 32 (c.data.toNat + 256 + (if c.perr then 512 else 0) + (if c.ferr then 1024 else 0) + (if c.ferr ∧ c.data = 0 then 2048 else 0))) })

/-- R32 to R35, R364 to R369, R371 to R373. -/
def Obligations.PacesBudgetAndHeat : Prop :=
  ∀ s : State,
    let pace := fun (c : Nat) => (getCluster s c).pace
    let temp := fun (q : Nat) => Tab.get (fun _ => (0 : Int)) q s.iris.temps
    let heat := fun (x : State) (q : Nat) => Tab.get (fun _ => 0) q x.iris.tstate
    let reserve := fun (c p : Nat) => if p = 0 then 4 else max (ent s 0x2101 (c + 1)) (max 12 (22 - 2 * p))
    let fits := fun (c p : Nat) => ((List.range (nClusters s)).map fun i => reserve i (if i = c then p else pace i)).sum + sharedPeak s ≤ ent s 0x2100 1
    let others := fun (t : State) (c : Nat) => ∀ d, d ≠ c → getCluster t d = getCluster s d
    let lowered := fun (t : State) (c : Nat) => getCluster t c = { getCluster s c with pace := min 5 (pace c + 1), broken := true, why := 1 }
    (∀ c v,
      let x := getCluster s c
      let no := fun (e : Word) => exec (.paceWrite c v) s = .next { s with lastAbort := some e }
      let slower := 0 < x.pace ∧ x.pace < v
      let here := c < nClusters s ∧ x.sw = none
      let set_ := here ∧ 0 < v ∧ v ≤ 5
      let cool := servingCores s c ≠ [] ∧ temp (c / 8) ≤ 1050 ∧ heat s (c / 8) ≠ 2
      (nClusters s ≤ c → no 0x02000006#32) ∧
      (here → 5 < v → no 0x03000001#32) ∧
      (set_ → s.iris.vcore < 700 → no 0x04000001#32) ∧
      (set_ → 700 ≤ s.iris.vcore → ¬ slower → ¬ fits c v → no 0x03000003#32) ∧
      (set_ → 700 ≤ s.iris.vcore → slower ∨ fits c v → ¬ cool → no 0x04000001#32) ∧
      (here → v = 0 → x.broken = true → x.why = 1 → heat s (c / 8) = 2 → no 0x04000001#32) ∧
      ((set_ ∧ 700 ≤ s.iris.vcore ∧ (slower ∨ fits c v) ∧ cool) ∨ (here ∧ v = 0 ∧ ¬ (x.broken = true ∧ x.why = 1 ∧ heat s (c / 8) = 2)) →
        let switch := (x.pace = 0) ≠ (v = 0)
        ∃ t, exec (.paceWrite c v) s = .next t ∧ others t c ∧ ent t 0x2010 (c + 1) = v ∧
          (∀ i j, j < 256 → (i, j) ≠ (0x2010, c + 1) → ent t i j = ent s i j) ∧
          t = { s with clusters := t.clusters, ent := t.ent, iris := { s.iris with fresh := t.iris.fresh }, lastAbort := none } ∧
          (switch → getCluster t c = { x with broken := false, sw := some v, swAns := none }) ∧
          (¬ switch → getCluster t c = { x with broken := false, pace := v } ∧ (x.pace ≠ v → t.iris.fresh = true))) ∧
      (c < nClusters s → x.sw ≠ none → ∃ t, exec (.paceWrite c v) s = .next t ∧ others t c ∧
        getCluster t c = { x with sw2 := x.sw2 ++ [(v, none)] } ∧ t = { s with clusters := t.clusters, lastAbort := none })) ∧
    (∀ c v,
      let x := getCluster s c
      let mine := fun (n : Nat) => n / 4 = c ∧ corePresent s n = true
      (x.sw = none ∨ switchReady s c = false → exec (.modeSwitchResume c) s = .next s) ∧
      (x.sw = some v → switchReady s c = true → ∃ t, exec (.modeSwitchResume c) s = .next t ∧ ∀ n, mine n → (getCore t n).i.cache = [] ∧ (getCore t n).i.btb = []) ∧
      (x.sw = some v → x.sw2 = [] → switchReady s c = true → ∃ t, exec (.modeSwitchResume c) s = .next t ∧
        (getCluster t c).pace = v ∧ (getCluster t c).sw = none ∧ (getCluster t c).classic = (v != 0 || s.power.arb) ∧ (getIr t c).level = 0 ∧
        (∀ n, mine n → (getCore t n).i.cache = [] ∧ (getCore t n).i.btb = []) ∧
        (x.swAns = none → (∀ k, (getBank s c k).loan = none ∧ (getBank s c k).merge = []) →
          (∀ n, mine n → (getCore s n).u.stores = [] ∧ (getCore s n).u.loads = [] ∧ (getCore s n).u.div = none ∧ (getCore s n).u.fpu = [] ∧
            (getCore s n).u.beam = none) → 4 * c + 3 < 128 →
          others t c ∧ t = { s with cores := t.cores, clusters := t.clusters, iris := { s.iris with cl := t.iris.cl, fresh := true } } ∧
          (∀ d, d ≠ c → getIr t d = getIr s d) ∧ (∀ k, getBank t c k = getBank s c k) ∧
          { getCluster t c with banks := x.banks } = { x with pace := v, sw := none, classic := v != 0 || s.power.arb } ∧
          ∀ n, getCore t n = if mine n then { getCore s n with i := { (getCore s n).i with cache := [], btb := [] } } else getCore s n))) ∧
    (∀ idx sub v, (idx = 0x2100 ∧ sub = 1) ∨ (idx = 0x2101 ∧ 1 ≤ sub ∧ sub ≤ 32) →
      let s1 := { s with ent := Tab.put (entKey idx sub) v s.ent }
      let no := fun (e : Word) => exec (.budgetWrite idx sub v) s = .next { s with lastAbort := some e }
      (idx = 0x2100 → v = 0 ∨ 960 < v → no 0x03000001#32) ∧
      (idx = 0x2101 → nClusters s < sub → no 0x02000006#32) ∧
      ((idx = 0x2100 ∧ 0 < v ∧ v ≤ 960) ∨ (idx = 0x2101 ∧ sub ≤ nClusters s) →
        (pacedFit s1 = false → no 0x03000003#32) ∧
        (pacedFit s1 = true → exec (.budgetWrite idx sub v) s = .next { s1 with
          iris := (if idx = 0x2100 then { s.iris with fresh := true, overs := 0, within := s.tb } else { s.iris with fresh := true }),
          lastAbort := none }))) ∧
    (∀ (meas : List Nat) (shared vcore : Nat), s.iris.lastMeas + 1000 ≤ s.tb → s.iris.shutdown = false →
      let late := fun (c : Nat) => c < nClusters s ∧ pace c ≠ 0 ∧ vcore < 700 ∧ Config.lateStep s.free c = true
      ∃ t, exec (.irisMeasurement meas shared vcore) s = .next t ∧
        t = { s with
          iris := t.iris, ent := t.ent, router := t.router, clusters := if vcore < 700 then t.clusters else s.clusters,
          free := if vcore < 700 then s.free + 1 else s.free } ∧
        (∀ c, getCluster t c = if late c then { getCluster s c with broken := true, why := 2 } else getCluster s c) ∧
        t.router.pending = s.router.pending ∧ t.iris.vcore = vcore ∧ t.iris.lastMeas = s.tb ∧ t.iris.temps = s.iris.temps ∧ t.iris.tstate = s.iris.tstate ∧
        t.iris.pkg = shared + ((List.range (nClusters s)).map fun c => meas.getD c 0).sum ∧
        (∀ c, c < nClusters s →
          let v := getIr s c
          let w := getIr t c
          let m := meas.getD c 0
          let a := 125 * max 4 v.allot
          w.meas = m ∧ w.allot = v.allot ∧ w.pbrk = (v.pbrk || decide (late c)) ∧
            (late c → v.pbrk = false → s.iris.clen.getLsbD 1 = true → 704 + c ∈ t.router.raised) ∧
          (pace c ≠ 0 → w.level = 0 ∧ w.ovres = (v.ovres || decide (a < m)) ∧ w.stop = v.stop ∧ w.satur = v.satur) ∧
          (pace c = 0 →
            w.level = (if 5 * a < 4 * m then min 15 (v.level + 2) else if a < m then min 15 (v.level + 1)
              else if m + 250 ≤ a ∧ 7 ≤ v.low then v.level - 1 else v.level) ∧ w.ovres = v.ovres ∧
            w.stop = (v.stop || decide (v.level = 0 ∧ w.level ≠ 0)) ∧ w.satur = (v.satur || decide (v.level = 15 ∧ a < m)) ∧
            (v.stop = false → w.stop = true → s.iris.clen.getLsbD 0 = true → 704 + c ∈ t.router.raised))) ∧
        (let starts := 125 * ent s 0x2100 1 < t.iris.pkg ∧ (∀ c, c < nClusters s → pace c = 0 → (getIr s c).level = 15) ∧ 15 ≤ s.iris.overs ∧ s.iris.excess = false;
         (starts → t.iris.excess = true ∧ t.iris.emerg = true ∧ 771 ∈ t.router.raised) ∧
         (¬ starts → t.iris.emerg = s.iris.emerg ∧ (s.iris.excess = false → t.iris.excess = false)))) ∧
    (s.active ≠ none → 9 ≤ s.power.stage → s.iris.shutdown = false → s.iris.fresh = true ∨ s.iris.lastAllot + 1000000 ≤ s.tb →
      ∃ t, exec .allotmentRecomputation s = .next t ∧ t = { s with iris := t.iris } ∧ t.iris.h = sharedPeak s ∧ t.iris.fresh = false ∧
        (t.iris.short = true ↔ ¬ fits (nClusters s) 0) ∧
        (∀ c, c < nClusters s → (pace c ≠ 0 → 1 ≤ pace c → pace c ≤ 5 → (getIr t c).allot = reserve c (pace c)) ∧
          (pace c = 0 → ¬ fits (nClusters s) 0 → (getIr t c).allot = 4)) ∧
        (∀ c, (getIr t c).level = (getIr s c).level ∧ (getIr t c).meas = (getIr s c).meas) ∧
        ∃ t0, exec .allotmentRecomputation { s with iris := { s.iris with tstate := [] } } = .next t0 ∧
          (∀ c, c < nClusters s → pace c = 0 →
            let a := (getIr t0 c).allot
            4 ≤ a ∧ (getIr t c).allot = (if heat s (c / 8) = 2 then 4 else if heat s (c / 8) = 1 then 4 + (a - 4) / 2 else a) ∧
            (ent s 0x2101 (c + 1) ≠ 0 → a ≤ max 4 (ent s 0x2101 (c + 1))) ∧
            (ent s 0x2101 (c + 1) = 0 → ∀ d, d < nClusters s → pace d = 0 → ent s 0x2101 (d + 1) = 0 → c ≤ d → (getIr t0 d).allot ≤ a ∧ a ≤ (getIr t0 d).allot + 1)) ∧
          (fits (nClusters s) 0 → ((List.range (nClusters s)).map fun c => (getIr t0 c).allot).sum + sharedPeak s ≤ ent s 0x2100 1)) ∧
    (∀ temps : List Int, s.iris.lastTemp + 100000 ≤ s.tb →
      let at_ := fun (q : Nat) => temps.getD q 0
      (s.iris.shutdown = true → ∃ t, exec (.thermalReading temps) s = .next t ∧
        t = { s with iris := { s.iris with lastTemp := s.tb, temps := t.iris.temps } } ∧ ∀ q, q < nQuads s → Tab.get (fun _ => (0 : Int)) q t.iris.temps = at_ q) ∧
      (s.iris.shutdown = false → (∀ q, q < nQuads s → at_ q < 1250) → ∃ t, exec (.thermalReading temps) s = .next t ∧
        t = { s with iris := t.iris, clusters := t.clusters, router := { s.router with raised := t.router.raised } } ∧
        (∀ q, q < nQuads s → Tab.get (fun _ => (0 : Int)) q t.iris.temps = at_ q ∧
          heat t q = (if 1150 < at_ q then 2 else if heat s q = 2 then (if at_ q < 1100 then 1 else 2)
            else if heat s q = 1 then (if at_ q < 1000 then 0 else 1) else if 1050 < at_ q then 1 else 0) ∧
          (heat t q ≠ heat s q → t.iris.fresh = true ∧ (heat t q = 2 → t.iris.emerg = true ∧ 771 ∈ t.router.raised))) ∧
        ∀ c, c < nClusters s →
          if heat t (c / 8) = 2 ∧ heat s (c / 8) ≠ 2 ∧ pace c ≠ 0 then lowered t c ∧ (getIr t c).pbrk = true else getCluster t c = getCluster s c) ∧
      (s.iris.shutdown = false → (∃ q, q < nQuads s ∧ 1250 ≤ at_ q) → ∃ t, exec (.thermalReading temps) s = .next t ∧
        t.iris.shutdown = true ∧ t.power.alarm = true ∧ t.power.stage = 1 ∧ t.active = none ∧
        (∀ p, p < nFacets s → (getFacet s p).retired = false → (getFacet t p).state = 0) ∧ ∀ n, (getCore t n).i.run ≠ .running)) ∧
    (∀ q at_, q < nQuads s → Tab.find q s.iris.hot = some at_ → heat s q = 2 → at_ + 10000000 ≤ s.tb → ∃ t, exec (.thermalPaceDrop q) s = .next t ∧
      t = { s with iris := t.iris, clusters := t.clusters, router := { s.router with raised := t.router.raised } } ∧ t.iris.tstate = s.iris.tstate ∧
      Tab.find q t.iris.hot = some (at_ + 10000000) ∧
      ∀ c, if c / 8 = q ∧ pace c ≠ 0 then lowered t c ∧ (getIr t c).pbrk = true else getCluster t c = getCluster s c)

/-- R296, R325 to R335. `turn` is the engine's turn among the frames that wait, `who` is the requester's endpoint, `here` the state once the PDU has been taken from the input and its endpoint heard. -/
def Obligations.EdpRequestsAreCheckedAndAnswered : Prop :=
  ∀ (s : State) (ep : Endpoint) (src tid : Nat), engineUp s = true → s.emerg = [] → src < 256 → tid < 256 → Tab.sorted s.edp.sessions = true →
    let who := epWith ep src
    let b := fun (n : Nat) => BitVec.ofNat 8 n
    let req := fun (cmd sid : Nat) (body : Octets) => [b cmd, b tid, b sid, 0#8, b src, 0#8] ++ leOctets 2 body.length ++ body
    let here := fun (pdu : Octets) => hearFrom (takeInbox s ep pdu) who
    let turn := fun (pdu : Octets) => pduTurn s ep pdu = true
    let sends := fun (x : State) (pdus : List Octets) (t : State) =>
      t = { x with edp := { x.edp with out := x.edp.out ++ pdus.map fun p => { ep := who, pdu := p }, reqs := t.edp.reqs }, free := t.free, fabric := t.fabric } ∧
      (facetOf who = none → t.fabric = x.fabric)
    let same := fun (x : State) (c : Octets → Instr) (pdu : Octets) => turn pdu → ∃ t, exec (c pdu) s = .next t ∧ t = { x with edp := { x.edp with reqs := t.edp.reqs } }
    let logged := fun (t : State) (r : Reply) (done : Nat) => t.edp.reqs.getLast? = some { ans := r, state := done }
    let answers := fun (c : Octets → Instr) (pdu : Octets) (cmd sid : Nat) (body : Octets) =>
      turn pdu → ∃ t, exec (c pdu) s = .next t ∧ sends (here pdu) [mkPdu s cmd tid sid src body] t
    let entry := fun (idx sub : Nat) => leOctets 2 idx ++ [b sub]
    let refusal := fun (cmd idx sub code : Nat) => [b cmd, b sub] ++ leOctets 2 idx ++ leOctets 4 code
    (∀ pdu, pdu.length < 8 → turn pdu → exec (.edpRead ep pdu) s = .next (discardPdu (takeInbox s ep pdu))) ∧
    (ent s 0x1110 4 ≠ 0 → ∀ idx sub, idx < 65536 → sub < 256 →
      let read := req 1 0 (entry idx sub ++ [0])
      (∀ code, findEntry s idx sub = .error code → answers (.edpRead ep) read 0xC0 0 (refusal 1 idx sub code)) ∧
      (∀ e, findEntry s idx sub = .ok e →
        let v := entValue s idx sub e.ty
        (e.acc = .wo → answers (.edpRead ep) read 0xC0 0 (refusal 1 idx sub 0x02000004)) ∧
        (e.acc ≠ .wo → idx = 0x6000 →
          let z := dictRead (here read) idx sub e.ty
          let r : Reply := { ep := who, node := src, cmd := 1, tid, sid := 0, idx, sub, seq := none }
          same (match z.2 with
            | none => abortTo z.1 r 0x04000003
            | some w => answerTo z.1 r 0x81 (entry idx sub ++ [b e.ty] ++ leOctets 4 w.length ++ w.take 32)) (.edpRead ep) read) ∧
        (e.acc ≠ .wo → idx ≠ 0x6000 →
          answers (.edpRead ep) read 0x81 0 (entry idx sub ++ [b e.ty] ++ leOctets 4 v.length ++ v.take 32) ∧
          (turn read → ∃ t, exec (.edpRead ep read) s = .next t ∧ logged t { ep := who, node := src, cmd := 1, tid, sid := 0, idx := 0, sub := 0, seq := none } 2) ∧
          (∀ off count, off < 2 ^ 32 → count < 65536 →
            let n := min count (segMax who)
            let pdu := req 3 0 (entry idx sub ++ [0] ++ leOctets 4 off ++ leOctets 2 count ++ [0, 0])
            (v.length < off → answers (.edpBlockRead ep) pdu 0xC0 0 (refusal 3 idx sub 0x03000001)) ∧
            (off ≤ v.length → answers (.edpBlockRead ep) pdu 0x83 0
              (entry idx sub ++ [if v.length ≤ off + n then 1#8 else 0#8] ++ leOctets 4 off ++ (v.drop off).take n))) ∧
          (∀ mode interval, mode ≤ 1 → interval < 65536 → mode = 1 ∨ 0 < interval → v.length ≤ 32 → s.edp.subs.length < 32 →
            let pdu := req 7 0 (entry idx sub ++ [b mode] ++ leOctets 2 interval ++ [0, 0])
            turn pdu → ∃ t h note, exec (.edpSubscribe ep pdu) s = .next t ∧ h < 256 ∧ (∀ x ∈ s.edp.subs, x.handle ≠ h) ∧
              let y := here pdu
              let new : Subscription := { handle := h, sid := 0, ep := who, node := src, idx, sub, mode, interval := max 1 interval, val := v,
                                          sent := s.tb, heard := s.tb }
              sends { y with edp := { y.edp with subs := y.edp.subs ++ [new] } }
                [mkPdu s 0x87 tid 0 src [b h, 0, 0, 0], mkPdu s 0x62 note 0 src ([b h, b e.ty, 0, 0] ++ leOctets 8 s.tb ++ v)] t))) ∧
      (∀ h, h < 256 → (s.edp.subs.any fun x => x.handle == h && x.sid == 0 && sameEndpoint x.ep who) = true →
        let pdu := req 8 0 [b h, 0, 0, 0]
        let y := here pdu
        turn pdu → ∃ t, exec (.edpUnsubscribe ep pdu) s = .next t ∧
          sends { y with edp := { y.edp with subs := y.edp.subs.filter fun x => !(x.handle == h && x.sid == 0 && sameEndpoint x.ep who) } }
            [mkPdu s 0x88 tid 0 src [b h, 0, 0, 0]] t)) ∧
    (∀ (role : Nat) (nc k : Octets), role = 1 ∨ role = 2 → nc.length = 16 → roleKey s role who = some k → freeSids s ≠ [] →
      let pdu := req 0x0A 0 ([b role, 0, 0, 0] ++ nc)
      turn pdu → ∃ t sid nd, exec (.edpOpen ep pdu) s = .next t ∧ 1 ≤ sid ∧ sid ≤ 8 ∧ findSession s sid = none ∧ nd.length = 16 ∧
        let new : Session := { role, ep := who, node := src, nc, nd, proved := false, used := false, ks := k, proof := (0, []), seq := 0, tid := 0,
                               answer := none, notes := 0, last := s.tb }
        sends (putSession (here pdu) sid new) [mkPdu s 0x8A tid 0 src ([b sid, 0, 0, 0] ++ nd)] t) ∧
    (∀ (sid : Nat) (pc : Octets) (x : Session), 1 ≤ sid → sid ≤ 8 → findSession s sid = some x → x.proved = false → sameEndpoint x.ep who = true → pc.length = 16 →
      let pdu := req 0x0B sid pc
      let by_ := [b sid, b x.role]
      let pd := mkPdu s 0x8B tid sid src ((hmac x.ks (x.nc ++ x.nd ++ by_)).take 16)
      (pc = (hmac x.ks (x.nd ++ x.nc ++ by_)).take 16 → turn pdu → ∃ t, exec (.edpProof ep pdu) s = .next t ∧
        sends (putSession (here pdu) sid { x with
          proved := true, ks := hmac x.ks (x.nc ++ x.nd ++ [b sid]), proof := (tid, pc), answer := some pd, last := s.tb }) [pd] t) ∧
      (pc ≠ (hmac x.ks (x.nd ++ x.nc ++ by_)).take 16 → s.img.sid ≠ sid → turn pdu → ∃ t, exec (.edpProof ep pdu) s = .next t ∧ findSession t sid = none ∧
        sends { here pdu with edp := { (here pdu).edp with
          sessions := Tab.del sid s.edp.sessions, transfers := s.edp.transfers.filter fun y => y.sid != sid,
          subs := (here pdu).edp.subs.filter fun y => y.sid != sid } } [mkPdu s 0xC0 tid sid src (refusal 0x0B 0 0 0x05000006)] t)) ∧
    (∀ (sid : Nat) (body : Octets), 1 ≤ sid → sid < 256 → body.length = 4 → findSession s sid = none → ∀ tail : Octets, tail.length = 12 →
      answers (.edpRead ep) (req 1 sid body ++ tail) 0xC0 0 (refusal 1 0 0 0x05000002)) ∧
    (∀ (sid seq : Nat) (x : Session), 1 ≤ sid → sid ≤ 8 → findSession s sid = some x → x.proved = true → sameEndpoint x.ep who = true → seq < 2 ^ 32 →
      let ask := fun (cmd : Nat) (body : Octets) => withTail x.ks (req cmd sid body) seq
      let tagged := fun (cmd : Nat) (body : Octets) => withTail x.ks (mkPdu s cmd tid sid src body) seq
      let took := fun (answer : Option Octets) => { x with seq, tid, used := true, answer, last := s.tb }
      let replied := fun (c : Octets → Instr) (pdu : Octets) (f : State → State) (p : Octets) =>
        turn pdu → ∃ t, exec (c pdu) s = .next t ∧ sends (f (putSession (here pdu) sid (took (some p)))) [p] t
      let reply := fun (cmd idx sub : Nat) => ({ ep := who, node := src, cmd, tid, sid, idx, sub, seq := some seq } : Reply)
      let store := fun (j : StoreJob) (u : State) => { u with edp := { u.edp with jobs := [j] } }
      (x.seq < seq →
        (∀ idx sub ty (v : Octets), idx < 65536 → sub < 256 → ty < 256 → 1 ≤ v.length → v.length ≤ 32 → ∀ e, findEntry s idx sub = .ok e →
          let pdu := ask 2 (entry idx sub ++ [b ty] ++ v)
          let no := fun (code : Nat) => replied (.edpWrite ep) pdu id (tagged 0xC0 (refusal 2 idx sub code))
          let typed := ty = e.ty ∧ (tySize e.ty = 0 ∨ v.length = tySize e.ty)
          (writable e = false → no 0x02000003) ∧
          (writable e = true → x.role < e.role → no 0x05000001) ∧
          (writable e = true → e.role ≤ x.role → ¬ typed → no 0x02000005) ∧
          (writable e = true → e.role ≤ x.role → typed → s.power.stage < 10 → no 0x04000001) ∧
          (writable e = true → e.role ≤ x.role → typed → 10 ≤ s.power.stage →
            let u := putSession (here pdu) sid (took none)
            let r := reply 2 idx sub
            (idx ≠ 0x2010 → same (writeResult (dictWrite u sid idx sub v e) r) (.edpWrite ep) pdu) ∧
            (idx = 0x2010 →
              let z := paceRequest u (sub - 1) (ofLe v) (some r)
              same (match z.2 with
                | some code => abortTo z.1 r code
                | none => if (getCluster z.1 (sub - 1)).sw.isSome then z.1 else writeDone z.1 r) (.edpWrite ep) pdu))) ∧
        (∀ v, 10 ≤ s.power.stage → x.role = 2 → v = 0 ∨ (10 ≤ v ∧ v ≤ 10000) →
          replied (.edpWrite ep) (ask 2 (entry 0x1103 1 ++ [b 3] ++ leOctets 2 v)) (fun u => { u with ent := Tab.put (entKey 0x1103 1) v u.ent })
            (tagged 0x82 (entry 0x1103 1 ++ [0]))) ∧
        (∀ idx sub (v : Octets) (e : EntInfo), sub < 256 → 1 ≤ v.length → v.length ≤ segMax who → findEntry s idx sub = .ok e → blockRefused s x.role e = none →
          ¬ (idx = 0x2300 ∧ sub = 6) → idx < 65536 →
          let rest := fun (u : State) => u.edp.transfers.filter fun y => y.sid != sid
          let stage := fun (all : Octets) (u : State) => { u with edp := { u.edp with
            transfers := rest u ++ [{ sid, ep := who, idx, sub, data := all, last := s.tb }] } }
          let seg := fun (flags off : Nat) => ask 4 (entry idx sub ++ [b flags] ++ leOctets 4 off ++ v)
          let done := fun (flags n : Nat) => tagged 0x84 (entry idx sub ++ [b flags] ++ leOctets 4 n)
          (v.length ≤ mostOctets idx → replied (.edpBlockWrite ep) (seg 1 0) (stage v) (done 1 v.length)) ∧
          (∀ w : Transfer, w.sid = sid → w.idx = idx → w.sub = sub → (s.edp.transfers.find? fun y => y.sid == sid && y.idx == idx && y.sub == sub) = some w →
            let all := w.data ++ v
            all.length ≤ min 16384 (mostOctets idx) →
            replied (.edpBlockWrite ep) (seg 0 w.data.length) (stage all) (done 0 all.length) ∧
            (let pdu := seg 2 w.data.length
             let u := putSession (here pdu) sid (took none)
             let z := dictWrite { u with edp := { u.edp with transfers := rest u } } sid idx sub all e
             same (match z.2 with
               | none => segmentDone z.1 (reply 4 idx sub) 2 all.length
               | some code => abortTo z.1 (reply 4 idx sub) code) (.edpBlockWrite ep) pdu) ∧
            (∀ off, off < 2 ^ 32 → off ≠ w.data.length → replied (.edpBlockWrite ep) (seg 0 off) id (tagged 0xC0 (refusal 4 idx sub 0x01000003))))) ∧
        (∀ flags off (v : Octets) (e : EntInfo), flags < 4 → off < 2 ^ 32 → 1 ≤ v.length → v.length ≤ segMax who → findEntry s 0x2300 6 = .ok e →
          let pdu := ask 4 (entry 0x2300 6 ++ [b flags] ++ leOctets 4 off ++ v)
          let z := commitSegment (putSession (here pdu) sid (took none)) sid (flags.testBit 0) (flags.testBit 1) off v
          (blockRefused s x.role e = none → same (match z.2 with
            | none => segmentDone z.1 (reply 4 0x2300 6) flags z.1.img.got
            | some code => abortTo z.1 (reply 4 0x2300 6) code) (.edpBlockWrite ep) pdu) ∧
          (∀ code, blockRefused s x.role e = some code → replied (.edpBlockWrite ep) pdu id (tagged 0xC0 (refusal 4 0x2300 6 code)))) ∧
        (x.role < 2 → replied (.edpStore ep) (ask 5 []) id (tagged 0xC0 (refusal 5 0 0 0x05000001))) ∧
        (x.role = 2 → 10 ≤ s.power.stage → s.edp.jobs = [] → s.power.pfail = false →
          let next := (s.edp.active.gen + 1) % 2 ^ 32
          let begun := fun (c : Octets → Instr) (pdu : Octets) (j : StoreJob) =>
            same (store j (putSession (here pdu) sid (took none))) c pdu ∧ (turn pdu → ∃ t, exec (c pdu) s = .next t ∧ logged t j.ans 1)
          let now : StoreCopy := { gen := next, good := true, ents := s.ent.filter fun e => isStored e.1, tables := storedTables s, unset := 0 }
          let old := fun (scope : Nat) => ({ gen := next, good := true, ents := s.edp.active.ents.filter fun e => outOfScope scope e.1, tables := [],
                                             unset := if scope = 1 then 7 else s.edp.active.unset } : StoreCopy)
          begun (.edpStore ep) (ask 5 []) { ans := reply 5 0 0, kind := 0, copy := some now } ∧
          (∀ scope, scope ≤ 1 → begun (.edpRestore ep) (ask 6 [b scope, 0, 0, 0]) { ans := reply 6 0 0, kind := 1 + scope, copy := some (old scope) }) ∧
          (∀ scope, 2 ≤ scope → scope < 256 → replied (.edpRestore ep) (ask 6 [b scope, 0, 0, 0]) id (tagged 0xC0 (refusal 6 0 0 0x03000001)))) ∧
        (s.img.sid ≠ sid → turn (ask 0x0C []) → ∃ t u, exec (.edpClose ep (ask 0x0C [])) s = .next t ∧
          sends (putSession (here (ask 0x0C [])) sid (took (some (tagged 0x8C [])))) [tagged 0x8C []] u ∧ findSession t sid = none ∧
          t = { u with edp := { u.edp with
            reqs := t.edp.reqs, sessions := Tab.del sid u.edp.sessions, transfers := u.edp.transfers.filter fun y => y.sid != sid, subs := u.edp.subs.filter fun y => y.sid != sid } })) ∧
      (∀ idx sub, idx < 65536 → sub < 256 →
        let pdu := ask 1 (entry idx sub ++ [0])
        (seq = x.seq → x.used = true → x.tid = tid → ∀ a, x.answer = some a → turn pdu → ∃ t, exec (.edpRead ep pdu) s = .next t ∧
          sends (putSession (here pdu) sid { x with last := s.tb }) [a] t) ∧
        (seq ≤ x.seq → ¬ (seq = x.seq ∧ x.used = true ∧ x.tid = tid) → turn pdu → ∃ t, exec (.edpRead ep pdu) s = .next t ∧
          sends (here pdu) [tagged 0xC0 (refusal 1 0 0 0x05000003)] t) ∧
        (∀ tag : Octets, tag.length = 8 → tag ≠ (hmac x.ks (req 1 sid (entry idx sub ++ [0]) ++ leOctets 4 seq)).take 8 →
          let bad := req 1 sid (entry idx sub ++ [0]) ++ leOctets 4 seq ++ tag
          turn bad → exec (.edpRead ep bad) s = .next (bumpEnt (here bad) 0x1110 5))))

/-- R296, R297, R325 to R327, R333 to R338, R340, R401. -/
def Obligations.EdpSessionsEndAndPdusLeave : Prop :=
  ∀ s : State,
    let b := fun (n : Nat) => BitVec.ofNat 8 n
    let sends := fun (x : State) (l : List OutPdu) (t : State) =>
      t = { x with edp := { x.edp with out := x.edp.out ++ l, reqs := t.edp.reqs }, free := t.free, fabric := t.fabric } ∧
      ((∀ o ∈ l, facetOf o.ep = none) → t.fabric = x.fabric)
    let halted := fun (x : State) (sid : Nat) => if s.img.sid = sid then interruptCommit x else x
    let ended := fun (sid : Nat) => halted { s with edp := { s.edp with
      sessions := Tab.del sid s.edp.sessions, transfers := s.edp.transfers.filter fun y => y.sid != sid, subs := s.edp.subs.filter fun y => y.sid != sid } } sid
    let idle := ent s 0x1110 3 * 1000000000
    let broken := fun (x : State) => if 1 ≤ s.img.stage ∧ s.img.stage ≤ 3 then
      setImgSlot { x with img := { x.img with stage := 6 } } s.img.target { state := 3, version := 0 } else x
    exec .busOffRecovery s = .next { s with edp := { s.edp with recovered := s.edp.recovered + 1 } } ∧
    (∀ x sid, findSession s sid = some x → x.proved = true → x.last + idle ≤ s.tb → exec (.sessionIdleExpiry sid) s = .next (ended sid)) ∧
    (∀ x sid, findSession s sid = some x → x.proved = false → x.last + 1000000000 ≤ s.tb → exec (.proofTimeout sid) s = .next (ended sid)) ∧
    (∀ sid, ∃ t, exec (.stagingTimeout sid) s = .next t ∧ t = { s with edp := { s.edp with transfers := t.edp.transfers } } ∧
      ∀ y, y ∈ t.edp.transfers ↔ y ∈ s.edp.transfers ∧ (y.sid = sid → s.tb < y.last + 10000000000)) ∧
    (∀ h, ∃ t, exec (.subscriptionIdleExpiry h) s = .next t ∧ t = { s with edp := { s.edp with subs := t.edp.subs } } ∧
      ∀ y, y ∈ t.edp.subs ↔ y ∈ s.edp.subs ∧ (y.handle = h → y.sid = 0 → s.tb < y.heard + idle)) ∧
    (engineUp s = true → s.emerg = [] →
      (∀ h x e, (s.edp.subs.find? fun y => y.handle == h) = some x → entInfo x.idx x.sub = some e → x.idx ≠ 0x6000 → 0 < x.interval →
        let v := entValue s x.idx x.sub e.ty
        let i := x.interval * 1000000
        let noted := { s with edp := { s.edp with subs := s.edp.subs.map fun y => if y.handle = h then { y with val := v, sent := s.tb } else y } }
        let note := fun (tid : Nat) => mkPdu s 0x62 tid x.sid x.node ([b h, b e.ty, 0, 0] ++ leOctets 8 s.tb ++ v)
        (x.mode = 1 → v = x.val → exec (.edpNotify h) s = .next s) ∧
        ((x.mode = 0 ∧ x.sent / i < s.tb / i) ∨ (x.mode = 1 ∧ x.sent + i ≤ s.tb ∧ v ≠ x.val) →
          (x.sid = 0 → ∃ t tid, exec (.edpNotify h) s = .next t ∧ sends noted [{ ep := x.ep, pdu := note tid }] t) ∧
          (∀ y, x.sid ≠ 0 → findSession s x.sid = some y →
            let n := (y.notes + 1) % 2 ^ 32
            ∃ t tid, exec (.edpNotify h) s = .next t ∧
              sends (putSession noted x.sid { y with notes := n }) [{ ep := x.ep, pdu := withTail y.ks (note tid) n }] t))) ∧
      (∀ w, s.active = some w → 0 < ent s 0x1103 1 → s.edp.beat + ent s 0x1103 1 * 1000000 ≤ s.tb → ∃ t tid, exec .edpHeartbeat s = .next t ∧
        sends { s with edp := { s.edp with beat := s.tb } } ((openEndpoints s).map fun e =>
          { ep := e.1, pdu := mkPdu s 0x61 tid 0 0 ([b (beatState s), b w, 0, 0] ++ leOctets 8 s.tb) }) t) ∧
      (∀ (ep : Endpoint) (pdu : Octets),
        let cmd := pduAt pdu 0
        let d := pduAt pdu 3
        let src := pduAt pdu 4
        let y := takeInbox s ep pdu
        let node := pduAt pdu 4
        let lost := ∃ t, exec (.pduForward ep pdu) s = .next t ∧
          sends y [{ ep := epWith ep src, pdu := mkPdu s 0xC0 (pduAt pdu 1) 0 src ([b cmd, 0, 0, 0] ++ leOctets 4 0x01000008) }] t
        pduTurn s ep pdu = true →
        (cmd = 0xF0 → 24 ≤ pdu.length → node ≠ s.node → node ≠ 0xFF → ∀ pos p, s.chain = some pos → s.node - pos ≤ node → node ≤ s.node - pos + 15 →
          relayTowards s pos (node - (s.node - pos)) = some p →
          ∃ t, exec (.pduForward ep pdu) s = .next t ∧ sends y [{ ep := .beamLink p 0, pdu := pdu.take 24 }] t) ∧
        (cmd ≠ 0xF0 → isShort pdu = false → d ≠ 0 → d ≠ s.node →
        (cmd < 0x60 → s.chain = none → lost) ∧
        (∀ pos, cmd < 0x60 → s.chain = some pos → d < s.node - pos ∨ s.node - pos + 15 < d → lost) ∧
        (∀ pos p, cmd < 0x60 → s.chain = some pos → s.node - pos ≤ d → d ≤ s.node - pos + 15 → relayTowards s pos (d - (s.node - pos)) = some p →
          ∃ t, exec (.pduForward ep pdu) s = .next t ∧
            sends { y with edp := { y.edp with routes := (src, epWith ep src) :: s.edp.routes.filter fun e => e.1 != src } } [{ ep := .beamLink p 0, pdu }] t) ∧
        (∀ e, 0x60 ≤ cmd → (s.edp.routes.find? fun e => e.1 == d) = some e → ∃ t, exec (.pduForward ep pdu) s = .next t ∧ sends y [{ ep := e.2, pdu }] t)))) ∧
    (∀ e rest, engineUp s = true → s.emerg = e :: rest → ∃ t tid, exec .edpEmergency s = .next t ∧
      sends { s with emerg := rest } ((openEndpoints s).map fun o => { ep := o.1, pdu := mkPdu s 0x60 tid 0 0 (emergBody e) }) t) ∧
    ((openEndpoints s).head? = some (.can 0, 0) ∧
      ∀ sid x, (sid, x) ∈ s.edp.sessions → x.proved = true → facetOf x.ep ≠ none → ∃ o ∈ openEndpoints s, sameEndpoint o.1 x.ep = true) ∧
    (∀ (j : StoreJob) (c : StoreCopy) (x : Session) (q : Nat), s.emerg = [] → s.edp.jobs = [j] → j.copy = some c → j.ans.seq = some q →
      findSession s j.ans.sid = some x →
      let r := j.ans
      let pdu := fun (cmd : Nat) (body : Octets) => withTail x.ks (mkPdu s cmd r.tid r.sid r.node body) q
      let good := pdu (r.cmd + 0x80) (leOctets 4 c.gen)
      let bad := pdu 0xC0 ([b r.cmd, b r.sub] ++ leOctets 2 r.idx ++ leOctets 4 0x04000004)
      let kept := fun (p : Octets) (y : State) => if x.used ∧ x.seq = q ∧ x.tid = r.tid then putSession y r.sid { x with answer := some p } else y
      let won := { s with edp := { s.edp with jobs := [], active := c, other := s.edp.active } }
      let lost := fun (y : State) => { y with edp := { y.edp with jobs := [], other := { c with good := false } } }
      let told := fun (t : State) => t.edp.reqs = s.edp.reqs.map fun y => if isLogged r y then { y with state := 2 } else y
      (s.power.pfail = false → ∃ t u, exec (.storeCompletion true) s = .next t ∧ sends (kept good won) [{ ep := r.ep, pdu := good }] t ∧ told t ∧
        exec (.storeCompletion false) s = .next u ∧ sends (kept bad (lost s)) [{ ep := r.ep, pdu := bad }] u ∧ told u) ∧
      (s.power.pfail = true → s.power.low = [] → ∃ t, exec .pfailRelease s = .next t ∧
        sends (kept bad (lost (broken { s with power := { s.power with pfail := false } }))) [{ ep := r.ep, pdu := bad }] t)) ∧
    (s.power.pfail = true → s.power.low = [] → s.edp.jobs = [] →
      exec .pfailRelease s = .next (broken { s with power := { s.power with pfail := false } }))

/-- R365: the reserve of a paced cluster, as its allotment shows it. -/
def Obligations.PacedClustersReceiveTheirReserves : Prop :=
  ∀ (s : State) (c p : Nat), s.active ≠ none → 9 ≤ s.power.stage → s.iris.shutdown = false → s.iris.fresh = true ∨ s.iris.lastAllot + 1000000 ≤ s.tb →
    c < nClusters s → (getCluster s c).pace = p → 1 ≤ p → p ≤ 5 →
    ∃ t, exec .allotmentRecomputation s = .next t ∧
      (getIr t c).allot = max (ent s 0x2101 (c + 1)) (match p with | 1 => 20 | 2 => 18 | 3 => 16 | 4 => 14 | _ => 12)

/-- R392, R393, R397, R401, R403, R415. -/
def Obligations.ImageCommitsRunTheirStages : Prop :=
  ∀ s : State, Mem.wf s.mem = true →
    let i := s.img
    let runs := 1 ≤ i.stage ∧ i.stage ≤ 3
    let base := slotBase i.target
    let erased := fun (t : State) (a n : Nat) => ∀ x, Mem.read x t.mem = if a ≤ x ∧ x < a + n then 0xFF#8 else Mem.read x s.mem
    let slot := fun (x : Images) (k : Nat) => if k = 0 then x.slotA else x.slotB
    (∀ sid v,
      let target := if i.force = 0 then 1 else if i.force = 1 then 0 else if i.slotA.state = 1 ∧ i.slotB.state ≠ 1 then 1 else 0
      (v ≠ 1 → exec (.imageCommit sid v) s = .next { s with lastAbort := some 0x03000001#32 }) ∧
      (v = 1 → runs → exec (.imageCommit sid v) s = .next { s with lastAbort := some 0x04000001#32 }) ∧
      (v = 1 → ¬ runs → ∃ t, exec (.imageCommit sid v) s = .next t ∧ erased t (slotBase target) 0x40000 ∧
        t = { s with mem := t.mem, ecc := t.ecc, img := t.img, lastAbort := none } ∧
        slot t.img target = { state := 0, version := 0 } ∧ slot t.img (1 - target) = slot i (1 - target) ∧
        t.img = { i with slotA := t.img.slotA, slotB := t.img.slotB, stage := 1, sid, target, hdr := [], got := 0, lastSeg := s.tb, marker := some target })) ∧
    (i.stage = 1 → s.power.pfail = false → i.target ≤ 1 → ∃ t, exec .commitEraseEnd s = .next t ∧ erased t base 0x2000000 ∧
      t = { s with mem := t.mem, ecc := t.ecc, img := { i with stage := 2, lastSeg := s.tb } }) ∧
    (i.stage = 3 → s.power.pfail = false → i.target ≤ 1 →
      let whole := i.hdr.length = 512 ∧ imgBad s i.target 512 (i.got - 512) = false ∧ checkImage s i.target i.hdr = none
      (¬ whole → exec .commitVerify s = .next { s with img := { i with stage := 5 } }) ∧
      (whole → peakOver s (imageWith s i.target i.hdr) ≠ none → exec .commitVerify s = .next { s with img := { i with stage := 7 } }) ∧
      (whole → peakOver s (imageWith s i.target i.hdr) = none → ∃ t, exec .commitVerify s = .next t ∧ t = { s with mem := t.mem, ecc := t.ecc } ∧
        ∀ x, Mem.read x t.mem = if base ≤ x ∧ x < base + 512 then i.hdr.getD (x - base) 0 else Mem.read x s.mem) ∧
      (i.hdr.length = 512 → (∀ x, x < 512 → Mem.read (base + x) s.mem = i.hdr.getD x 0) → ∃ t, exec .commitDone s = .next t ∧
        t = { s with img := { i with slotA := t.img.slotA, slotB := t.img.slotB, stage := 4, marker := none } } ∧
        slot t.img i.target = { state := 1, version := leAt i.hdr 8 4 } ∧ slot t.img (1 - i.target) = slot i (1 - i.target))) ∧
    (i.stage = 2 → s.power.pfail = false → i.lastSeg + 10000000000 ≤ s.tb → i.target ≤ 1 → ∃ t, exec .commitInterruption s = .next t ∧
      t = { s with img := { i with slotA := t.img.slotA, slotB := t.img.slotB, stage := 6 } } ∧
      slot t.img i.target = { state := 3, version := 0 } ∧ slot t.img (1 - i.target) = slot i (1 - i.target)) ∧
    (s.power.pfail = false → ∃ t, exec .pfailAssertion s = .next t ∧ t.power = { s.power with pfail := true } ∧
      770 ∈ t.router.raised ∧
      ((∀ c k, (getBank s c k).loan = none) → t = { s with
        power := t.power, router := { s.router with raised := s.router.raised ++ [770] }, cal := { s.cal with bkup := t.cal.bkup }, clusters := t.clusters } ∧
        ∀ c k, getBank t c k = getBank s c k) ∧
      (Tab.sorted s.clusters = true → ∀ c k, k < 4 → (getBank t c k).loan = none) ∧
      ∀ w, bkup t w = if s.active ≠ none ∧ s.iris.shutdown = false ∧ w < 8 then BitVec.ofNat 32 (leAt (gaspRecord s 1) (4 * w) 4) else bkup s w)

/-- R400, R404 to R412, R389, R390. -/
def Obligations.ResetsAndStartUpStages : Prop :=
  ∀ s : State,
    let stage := s.power.stage
    let staged := fun (x : State) (n : Nat) => { x with power := { x.power with stage := n } }
    let run := fun (x : State) (n : Nat) => (getCore x n).i.run
    let busy := 1 ≤ s.img.stage ∧ s.img.stage ≤ 3
    let plain := ∀ c k, (getBank s c k).merge = [] ∧ (getBank s c k).loan = none
    let left := fun (kind : Nat) (t : State) =>
      t.power.stage = (if kind = 0 then 2 else if kind = 1 then 3 else 5) ∧ t.tb = (if kind = 0 then 0 else s.tb) ∧ t.active = none ∧
      t.power.safe = false ∧ t.power.alarm = false ∧ t.power.fuses = s.power.fuses ∧
      t.edp.sessions = [] ∧ t.edp.transfers = [] ∧ t.edp.subs = [] ∧ t.edp.jobs = [] ∧ t.router.raised = [] ∧ t.router.pending = [] ∧
      t.chans = (if kind = 2 then s.chans else []) ∧ t.cal.sec = s.cal.sec ∧ t.cal.bkup = s.cal.bkup ∧ t.cal.alm = s.cal.alm ∧
      t.img.slotA = s.img.slotA ∧ t.img.slotB = s.img.slotB ∧ t.img.marker = s.img.marker ∧ t.img.force = 2 ∧ t.img.stage = 0 ∧
      (plain → t.mem = s.mem ∧ t.ecc = s.ecc ∧ t.errs = s.errs) ∧ t.edp.active = { s.edp.active with unset := 0 } ∧ t.edp.other = s.edp.other ∧
      (∀ n, (getCore t n).g = [] ∧ (getCore t n).bits = [] ∧ (getCore t n).r = Regs.reset ∧ (getCore t n).u = Units.reset ∧ (getCore t n).lp.halted = false ∧
        run t n = (if run s n = .retired then .retired else .notReleased)) ∧
      (∀ p, getFacet t p = if (getFacet s p).retired then { Facet.reset p with retired := true, criterion := (getFacet s p).criterion, state := 5 } else Facet.reset p) ∧
      (∀ c, (getCluster t c).pace = 0 ∧ (getCluster t c).classic = true ∧ (getCluster t c).quiesced = false ∧ (getCluster t c).clevt = 0 ∧
        (getCluster t c).sw = none ∧ (getCluster t c).cache = [] ∧
        ∀ k, (getBank t c k).owner = k ∧ (getBank t c k).pend = none ∧ (getBank t c k).loan = none ∧ (getBank t c k).merge = [] ∧
          (plain → (getBank t c k).remap = (getBank s c k).remap) ∧ (getBank t c k).degr = (Bank.reset k).degr) ∧
      t.iris = Iris.reset ∧ t.clock = { Clock.reset with second := if kind = 0 then 0 else s.clock.second, leaps := if kind = 0 then 0 else s.clock.leaps }
    let aside := fun (t : State) (l : List Nat) => ∀ n, n ∉ l → (getCore t n).g = (getCore s n).g ∧ (getCore t n).r = (getCore s n).r
    let wiped := fun (t : State) (n : Nat) => (getCore t n).g = [] ∧ (getCore t n).bits = [] ∧ (getCore t n).u.stores = [] ∧ (getCore t n).u.copy = none ∧
      (run s n = .retired → run t n = .retired) ∧
      (run s n ≠ .retired → s.img.force = 2 → run t n = .notReleased ∧ (getCore t n).r = Regs.reset) ∧
      (∀ x, run s n ≠ .retired → corePresent s n = true → s.img.force ≤ 1 → (getCore s n).st.release = some x →
        run t n = .running ∧ (getCore t n).i.pc = x.pc ∧ (getCore t n).r.psw = (if x.pair then 0x25#32 else 5#32))
    (∀ r, ∃ t, exec (.powerOnReset r) s = .next t ∧ left 0 t ∧ r ∈ t.power.low ∧ t.power.pgood = false) ∧
    (stage ≠ 2 → s.iris.shutdown = false ∨ topTemp s < 1000 → ∃ t, exec .pinReset s = .next t ∧ left 1 t) ∧
    (stage = 2 ∨ (s.iris.shutdown = true ∧ 1000 ≤ topTemp s) → exec .pinReset s = .next s) ∧
    (∀ v,
      (s.power.warm = false → v ≠ 0xA55A → exec (.warmReset v) s = .next { s with lastAbort := some 0x03000001#32 }) ∧
      (s.power.warm = false → v = 0xA55A → busy → exec (.warmReset v) s = .next { s with lastAbort := some 0x04000001#32 }) ∧
      (s.power.warm = true ∨ (v = 0xA55A ∧ ¬ busy) →
        (s.edp.jobs = [] → ∃ t, exec (.warmReset v) s = .next t ∧ left 2 t ∧ t.power.straps = s.power.straps ∧ t.power.loaded = s.power.loaded) ∧
        (s.edp.jobs ≠ [] → exec (.warmReset v) s = .next { s with power := { s.power with warm := true }, lastAbort := none }))) ∧
    (∀ c,
      let no := fun (e : Word) => exec (.clusterReset c) s = .next { s with lastAbort := some e }
      (31 < c → no 0x03000001#32) ∧ (c ≤ 31 → nClusters s ≤ c → no 0x02000006#32) ∧ (c < nClusters s → busy → no 0x04000001#32) ∧
      (c < nClusters s → ¬ busy → ∃ t, exec (.clusterReset c) s = .next t ∧ aside t [4 * c, 4 * c + 1, 4 * c + 2, 4 * c + 3] ∧ t.lastAbort = none ∧
        t.tb = s.tb ∧ t.cal = s.cal ∧ t.active = s.active ∧ t.edp = s.edp ∧ (∀ i, i < 4 → wiped t (4 * c + i)) ∧
        (getCluster t c).quiesced = false ∧ (getCluster t c).clevt = 0 ∧ (getCluster t c).sw = none ∧
        (∀ k, k < 4 → run s (4 * c + k) ≠ .retired → (getBank t c k).owner = k ∧ (getBank t c k).loan = none))) ∧
    (∀ n,
      let no := fun (e : Word) => exec (.coreReset n) s = .next { s with lastAbort := some e }
      (127 < n → no 0x03000001#32) ∧ (n ≤ 127 → nCores s ≤ n → no 0x02000006#32) ∧
      (n < nCores s → busy ∨ run s n = .retired ∨ (getCluster s (n / 4)).quiesced = true → no 0x04000001#32) ∧
      (n < nCores s → ¬ busy → run s n ≠ .retired → (getCluster s (n / 4)).quiesced = false → ∃ t, exec (.coreReset n) s = .next t ∧ aside t [n] ∧
        wiped t n ∧ t.lastAbort = none ∧ t.tb = s.tb ∧ t.cal = s.cal ∧ t.active = s.active ∧ (getCore t n).st.faults = (getCore s n).st.faults)) ∧
    (stage = 2 → exec .powerGood s = .next { s with power := { s.power with low := [], pgood := true, stage := 3 } }) ∧
    (stage = 3 → ∀ straps, ∃ t, exec (.fuseLoad straps) s = .next t ∧
      t.power = { s.power with loaded := s.power.fuses, straps, stage := 4 } ∧
      t = { s with
        power := t.power, chain := t.chain, node := t.node, edp := { s.edp with active := t.edp.active, other := t.edp.other }, ent := t.ent,
        cal := { s.cal with seen744 := t.cal.seen744 }, router := { s.router with raised := t.router.raised } } ∧
      (s.edp.other.good = false → t.edp.active = s.edp.active) ∧ (s.edp.active.good = false → s.edp.other.good = true → t.edp.active = s.edp.other) ∧
      t.chain = (if storedEnt t 0x2000 2 = 1 then some (storedEnt t 0x2000 3) else none) ∧ t.node = storedEnt t 0x1100 1 + t.chain.getD 0 ∧
      ent t 0x1101 1 = storedEnt t 0x1101 1 ∧ ent t 0x1101 2 = storedEnt t 0x1101 2 ∧ ent t 0x9000 1 = storedEnt t 0x9000 1) ∧
    (stage = 4 → exec .flashDieWake s = .next (staged s 5)) ∧
    (stage = 6 → (getCore s 128).lp.halted = false → ∀ pass0 pass1,
      let on := romWardens s
      ∃ t, exec (.wardenRom pass0 pass1) s = .next t ∧
        (128 ∈ on → pass0 = true → t.active = some 128 ∧ t.power.stage = 7 ∧ run t 128 ≠ .retired) ∧
        (¬ (128 ∈ on ∧ pass0 = true) → 129 ∈ on → pass1 = true → t.active = some 129 ∧ t.power.stage = 7 ∧ run t 129 ≠ .retired ∧ run t 128 = .retired) ∧
        (¬ (128 ∈ on ∧ pass0 = true) → ¬ (129 ∈ on ∧ pass1 = true) → t.active = none ∧ t.power.alarm = true ∧ t.power.stage = 6) ∧
        (128 ∈ on → pass0 = true → 129 ∈ on → pass1 = false → run t 129 = .retired) ∧ t.mem = s.mem ∧ t.img = s.img) ∧
    (stage = 7 → ∃ t, exec .imageSelect s = .next t ∧ t.power.stage = 8 ∧ t.mem = s.mem ∧ t.cores = s.cores ∧
      let c := candidates (readSlots s)
      ((∀ i ∈ c, checkSlot s i ≠ none) → t.power.safe = true ∧ ∀ i ∈ c, i ∈ t.img.refused) ∧
      (∀ i before after, c = before ++ i :: after → (∀ j ∈ before, checkSlot s j ≠ none) → checkSlot s i = none →
        t.img.trying = some i ∧ t.power.safe = s.power.safe ∧ ∀ j ∈ before, j ∈ t.img.refused)) ∧
    (stage = 8 → s.power.applied = true →
      (s.img.trying = none → exec .loaderStage s = .next (staged s 9)) ∧
      (∀ i, s.img.trying = some i →
        let m := imageOf s i
        let bad := checkPart s m ≠ none ∨ imgBad s i 512 (m.length - 512) = true
        (bad → ∃ t, exec .loaderStage s = .next t ∧ t.power = { s.power with stage := 7 } ∧ t.img = { s.img with refused := s.img.refused ++ [i], trying := none } ∧
          t.mem = s.mem ∧ t.cores = s.cores) ∧
        (¬ bad → i ≤ 1 → ∃ t, exec .loaderStage s = .next t ∧ t.power = { s.power with stage := 9 } ∧ t.img.force = i ∧
          (if i = 0 then t.img.slotA.state else t.img.slotB.state) = 2 ∧ t.img.ncores = (liveCores s).length ∧
          ∀ n ∈ liveCores s, ∃ x, (getCore t n).st.release = some x ∧ x.ncores = (liveCores s).length ∧
            x.inst = ((liveCores s).filter fun m => decide (m < n)).length ∧ run t n = run s n))) ∧
    (stage = 9 →
      (s.power.safe = true → exec .coreRelease s = .next (staged s 10)) ∧
      (s.power.safe = false → ∃ t, exec .coreRelease s = .next t ∧ t = { s with cores := t.cores, power := { s.power with stage := 10 } } ∧
        (∀ n x, n < 128 → n ∈ liveCores s → (getCore s n).st.release = some x → run t n = .running ∧ (getCore t n).i.pc = x.pc ∧ (getCore t n).g = [] ∧
          (getCore t n).r.inst.toNat = x.inst % 256 ∧ (getCore t n).r.psw = (if x.pair then 0x25#32 else 5#32) ∧ (getCore t n).r.ap = x.aps) ∧
        (∀ w, w = 128 ∨ w = 129 → run s w ≠ .retired → getCore t w = { getCore s w with r := { (getCore s w).r with psw := (getCore s w).r.psw &&& 0xFFFFFFFB#32, ncores := BitVec.ofNat 8 s.img.ncores } }) ∧
        ∀ n, n < 128 → (n ∉ liveCores s ∨ (getCore s n).st.release = none) → getCore t n = getCore s n))

/-- R461 to R463, R469. -/
def Obligations.TestAccessPortObeysTheGate : Prop :=
  ∀ s : State,
    let g := loupeGate s
    let x := s.tap
    let ir := fun (i : TapIr) => { s with tap := { x with ir := i } }
    let bypass := ir .bypass
    let w := s.active.getD 128
    (g = if s.power.loaded.getLsbD 256 then 0 else ent s 0x9000 1) ∧
    exec .testLogicReset s = .next { s with tap := { x with ir := .idcode, linked := false } } ∧
    exec .tapIdcode s = .next { ir .idcode with rdata := some (BitVec.ofNat 32
      ((if s.part.b0 then 0xB0000000 else 0xA0000000) + (if s.part.lv256 then 0x256 else 0x128) * 4096 + 0x2D5 * 2 + 1)) } ∧
    exec .tapBypass s = .next bypass ∧
    (∀ pins load, exec (.tapSamplePreload pins load) s = .next (if g = 0 then bypass else { s with tap := { x with ir := .sample, cap := pins, bsr := load } })) ∧
    (let drives := fun (c : Instr) (i : TapIr) =>
       (g = 0 → exec c s = .next bypass) ∧
       (g ≠ 0 → ∃ t, exec c s = .next t ∧ t.tap = { x with ir := i } ∧ t.mem = s.mem ∧ t.ecc = s.ecc ∧ t.power = s.power ∧ t.tb = s.tb ∧
         (∀ n, (getCore t n).g = (getCore s n).g ∧ (getCore t n).r = (getCore s n).r) ∧
         ∀ p, p < nFacets s →
           if (getFacet s p).state = 0 ∨ (getFacet s p).state = 5 ∨ isMirror s p = true then (getFacet t p).signal = (getFacet s p).signal else (getFacet t p).signal = false);
     drives .tapExtest .extest ∧ drives .tapExtestPulse .extestPulse ∧ drives .tapExtestTrain .extestTrain ∧ drives .tapHighz .highz ∧ drives .tapClamp .clamp) ∧
    exec .tapLoupe s = .next (if g = 0 then bypass else if x.linked then ir .loupe else
      { s with tap := { x with ir := .loupe, linked := true }, ent := Tab.put (entKey 0x9000 3) (min 0xFFFFFFFF (ent s 0x9000 3 + 1)) s.ent }) ∧
    exec .tapFuse s = .next (if g = 2 then ir .fuse else bypass) ∧
    (∀ a v,
      let asks := fun (c : Instr) (wr : Option Word) (may : Prop) =>
        (x.ir ≠ .loupe ∨ x.busy ≠ none → exec c s = .next s) ∧
        (x.ir = .loupe → x.busy = none →
          (may → exec c s = .next { s with tap := { x with status := 1, busy := some { addr := a, wr } } }) ∧
          (¬ may → exec c s = .next { s with tap := { x with status := 2 } }))
      asks (.loupeRead a) none (g ≠ 0) ∧ asks (.loupeWrite a v) (some v) (g = 2)) ∧
    (∀ (a : Word) (wr : Option Word), x.busy = some { addr := a, wr } →
      let region := regionOf s w a.toNat
      let at_ := globalOf w a.toNat
      let sound := eccOf s (at_ / 8) = 0 ∧ ∀ c k, (getBank s c k).loan = none ∧ (getBank s c k).merge = []
      let ended := fun (y : State) (st : Nat) (t : State) =>
        t = { y with free := t.free, tap := { y.tap with status := st, data := t.tap.data, busy := none } }
      (a.toNat % 4 ≠ 0 ∨ region = .none → ∃ t, exec .loupeAccessCompletion s = .next t ∧ ended s 3 t) ∧
      (a.toNat % 4 = 0 →
        (region = .scratch ∨ region = .xram ∨ region = .allBanks →
          (wr = none → sound → exec .loupeAccessCompletion s = .next { s with tap := { x with
            status := 0, data := BitVec.ofNat 32 (ofLe ((List.range 4).map fun i => Mem.read (at_ + i) s.mem)), busy := none } }) ∧
          (∀ v, wr = some v → sound → Mem.wf s.mem = true → ∃ t, exec .loupeAccessCompletion s = .next t ∧ ended { s with mem := t.mem } 0 t ∧
            ∀ y, Mem.read y t.mem = if at_ ≤ y ∧ y < at_ + 4 then (v >>> (8 * (y - at_))).setWidth 8 else Mem.read y s.mem)) ∧
        ((region = .flash ∨ region = .rom) → wr ≠ none → ∃ t, exec .loupeAccessCompletion s = .next t ∧ ended s 3 t) ∧
        (∀ b, region = .dev b →
          (wr = none → devRead s .loupe a.toNat = none → exec .loupeAccessCompletion s = .next s) ∧
          (∀ u v, wr = none → devRead s .loupe a.toNat = some (u, v) →
            exec .loupeAccessCompletion s = .next { u with tap := { u.tap with status := 0, data := v, busy := none } }) ∧
          (∀ v, wr = some v → ∃ t, exec .loupeAccessCompletion s = .next t ∧
            ended (devWrite s .loupe a.toNat v).1 (if (devWrite s .loupe a.toNat v).2 then 0 else 3) t)))) ∧
    (∀ i,
      let may := g = 2 ∧ (s.power.safe = true ∨ holdStrap s = true) ∧ (i = 256 ∨ (i < 256 ∧ s.power.loaded.toNat % 2 ^ 256 = 0))
      (x.ir ≠ .fuse → exec (.fuseProgram i) s = .next s) ∧
      (x.ir = .fuse → may → ∃ t, exec (.fuseProgram i) s = .next t ∧
        t = { s with power := { s.power with fuses := t.power.fuses }, tap := { x with fsel := i, ferr := false } } ∧
        ∀ j, t.power.fuses.getLsbD j = (s.power.fuses.getLsbD j || decide (j = i))) ∧
      (x.ir = .fuse → ¬ may → exec (.fuseProgram i) s = .next { s with tap := { x with fsel := i, ferr := true } }))

/-- R462, R464 to R468, R470, R471. -/
def Obligations.LoupeHaltsStepsAndReachesCores : Prop :=
  ∀ (s : State) (n : Nat), corePresent s n = true →
    let k := getCore s n
    let lp := k.lp
    let only := fun (c : Instr) (x : LensCore) => ∃ t, exec c s = .next t ∧ OnlyCore n s t ∧ getCore t n = x
    let paused := if k.i.run = .halted then k.e else { k.e with wdAcc := k.e.wdAcc + (s.tb - k.e.wdStart), wdStart := s.tb }
    let stopped := fun (why : Nat) => { k with lp := { lp with halted := true, why, pending := false, stepping := 0 }, e := paused }
    let counting := if k.i.run = .halted then k.e else { k.e with wdStart := s.tb }
    let freed := if lp.halted then { k with lp := { lp with halted := false, why := 0, pass := true }, e := counting } else k
    let rests := lp.halted = false ∧ (k.i.run ≠ .running ∨ (k.i.fault = none ∧ boundary s n = true ∧ recognisable s n (isIE k) = none))
    let err := { k with lp := { lp with skerr := true } }
    (loupeGate s ≠ 2 → exec (.loupeHaltRequest n) s = .next s ∧ exec (.loupeResume n) s = .next s ∧ exec (.loupeStep n) s = .next s ∧
      exec (.setbare n) s = .next s ∧ ∀ v p, exec (.lpcWrite n v) s = .next s ∧ exec (.lskvalAccess n (some v)) s = .next s ∧
        exec (.trctlWrite n v) s = .next s ∧ exec (.ftctlWrite p v) s = .next s ∧ exec (.bitInjection p) s = .next s) ∧
    (loupeGate s = 2 →
      only (.loupeHaltRequest n) (if lp.halted then k else { k with lp := { lp with pending := true } }) ∧
      only (.loupeResume n) (if k.i.run = .halted then { freed with i := { k.i with run := .running }, e := { k.e with wdStart := s.tb } } else freed) ∧
      only (.loupeStep n) (if lp.halted then { freed with lp := { freed.lp with stepping := 1 } } else k) ∧
      only (.setbare n) (if lp.halted then { k with r := { k.r with psw := k.r.psw ||| 4#32 } } else k) ∧
      (∀ v, only (.lpcWrite n v) (if lp.halted then
        { k with i := { k.i with lines := [], xferOff := none, loopWait := none, pc := v &&& 0xFFFFFFF8#32, fills := 4, delay := none, rep := none, resumeRep := false } }
        else err)) ∧
      (let c := lp.sksel.toNat;
       (∀ v, (lp.halted = false → only (.lskvalAccess n (some v)) err) ∧
         (lp.halted = true → trigOf c ≠ none → only (.lskvalAccess n (some v)) err) ∧
         (lp.halted = true → c < 0x40 → only (.lskvalAccess n (some v)) { k with g := Tab.put c v k.g }) ∧
         (lp.halted = true → 0x100 < c → c < 0x200 → only (.lskvalAccess n (some v)) { k with bits := Tab.put (c - 0x100) (v.getLsbD 0) k.bits }) ∧
         (lp.halted = true → c = 0x100 → only (.lskvalAccess n (some v)) k) ∧
         (lp.halted = true → 0x4B0 ≤ c → c < 0x4B8 → loopLc k (c % 4) ≠ 0 → only (.lskvalAccess n (some v)) err) ∧
         (lp.halted = true → 0x4B8 ≤ c → c ≤ 0x4BB →
           let i := c % 4
           (v ≠ 0 → (1 ≤ i ∧ loopLc k (i - 1) = 0) ∨ (loopLe k i).ult (loopLs k i) = true → only (.lskvalAccess n (some v)) err) ∧
           (v = 0 → i < 3 → loopLc k (i + 1) ≠ 0 → only (.lskvalAccess n (some v)) err)) ∧
         (lp.halted = true → unitAbsent s c = false → codeRole c = .operand → c ≠ 0x272 → 0x200 ≤ c → c < 0x400 →
           only (.lskvalAccess n (some v)) { k with u := { k.u with sk := Tab.put c v k.u.sk } })) ∧
       (lp.halted = false ∨ trigOf c ≠ none → ∃ t, exec (.lskvalAccess n none) s = .next t ∧ getCore t n = err ∧ t.rdata = some 0 ∧
         OnlyCore n s { t with rdata := s.rdata }) ∧
       (lp.halted = true → lskHolds s c = true → windowBusy k c = false → c ≠ 0x407 →
         let v := if c < 0x40 then greg k c else if c < 0x200 then (if pbit k (c - 0x100) then 1 else 0) else if c < 0x400 then windowValue k c
           else readSpecial s n k false c;
         exec (.lskvalAccess n none) s = .next { s with rdata := some v })) ∧
      (∀ c v, c < nClusters s → ∃ t, exec (.trctlWrite c v) s = .next t ∧ t = { s with clusters := t.clusters } ∧
        getCluster t c = { getCluster s c with trctl := v &&& 0x7F#32, trace := [] } ∧ ∀ d, d ≠ c → getCluster t d = getCluster s d) ∧
      (∀ p v, p < nFacets s →
        let f := getFacet s p
        let may := (f.state = 0 ∨ f.state = 5) ∧ s.prbs = none
        let others := fun (t : State) => t = { s with facets := t.facets } ∧ ∀ q, q ≠ p → getFacet t q = getFacet s q
        let legal := v.toNat % 4 ≠ 3 ∧ v.toNat / 4 % 8 ≤ 4
        (¬ may → exec (.ftctlWrite p v) s = .next s ∧ exec (.bitInjection p) s = .next s) ∧
        (may → ¬ legal → exec (.ftctlWrite p v) s = .next s) ∧
        (may → legal → ∃ t, exec (.ftctlWrite p v) s = .next t ∧ others t ∧
          getFacet t p = { f with ftctl := v &&& 0x1F#32, fterr := (getFacet t p).fterr } ∧
          (getFacet t p).fterr.getLsbD 31 = decide (v.toNat % 4 = 1 ∧ v.toNat / 4 % 8 ≠ 0) ∧
          (v.getLsbD 5 = false → (getFacet t p).fterr.toNat % 2 ^ 31 = f.fterr.toNat % 2 ^ 31)) ∧
        (may → ∃ t, exec (.bitInjection p) s = .next t ∧ others t ∧ getFacet t p = { f with fterr := (getFacet t p).fterr } ∧
          (getFacet t p).fterr.getLsbD 31 = f.fterr.getLsbD 31 ∧
          (getFacet t p).fterr.toNat % 2 ^ 31 = if f.ftctl.toNat % 4 = 1 ∧ f.ftctl.toNat / 4 % 8 ≠ 0 then min (2 ^ 31 - 1) (f.fterr.toNat % 2 ^ 31 + 1)
            else f.fterr.toNat % 2 ^ 31))) ∧
    (rests →
      (lp.pending = true → only (.loupeHalt n) (stopped (if k.i.run = .running ∧ atBreakpoint k = true then 3 else 1))) ∧
      (lp.pending = false → lp.stepping = 2 → only (.loupeHalt n) (stopped 2)) ∧
      (k.i.run = .running → atBreakpoint k = true → only (.breakpointHalt n) (stopped 3)))
end

