-- ==== Sys2Proof/Laws/Tables.lean ====
section
/-! SUPPORT. Laws of the sparse tables and of memory: a read after a write, the canonical form. -/

namespace Sys2Proof

theorem Tab.get_put_same {α : Type} (d : Nat → α) (k : Nat) (v : α) (t : Tab α) : Tab.get d k (Tab.put k v t) = v := by
  induction t with
  | nil => simp [Tab.put, Tab.get]
  | cons x t ih =>
    obtain ⟨i, w⟩ := x
    unfold Tab.put
    split
    · simp [Tab.get]
    · split
      · simp [Tab.get]
      · rename_i h1 h2
        simp [Tab.get, h1, h2, ih]

theorem Tab.get_put_ne {α : Type} (d : Nat → α) {j k : Nat} (h : j ≠ k) (v : α) (t : Tab α) :
    Tab.get d j (Tab.put k v t) = Tab.get d j t := by
  induction t with
  | nil =>
    have h' : ¬ k = j := fun e => h e.symm
    simp [Tab.put, Tab.get, h']
  | cons x t ih =>
    obtain ⟨i, w⟩ := x
    have h' : ¬ k = j := fun e => h e.symm
    unfold Tab.put
    split
    · rename_i e
      subst e
      simp [Tab.get, h']
    · split
      · rename_i h1 h2
        have : j < k → ¬ i = j := by omega
        have h4 : j < k → j < i := by omega
        unfold Tab.get
        simp only [h', if_false]
        by_cases hj : j < k
        · simp [hj, this hj, h4 hj]
        · simp [hj, Tab.get]
      · simp only [Tab.get, ih]

theorem Tab.sorted_cons {α : Type} (i : Nat) (w : α) (t : Tab α) :
    Tab.sorted ((i, w) :: t) = true ↔ (∀ x ∈ t, i < x.1) ∧ Tab.sorted t = true := by
  induction t generalizing i w with
  | nil => simp [Tab.sorted]
  | cons y t ih =>
    obtain ⟨j, u⟩ := y
    simp only [Tab.sorted, Bool.and_eq_true, decide_eq_true_eq]
    constructor
    · rintro ⟨hlt, hs⟩
      have hr := (ih j u).1 hs
      refine ⟨?_, hs⟩
      intro x hx
      rcases List.mem_cons.1 hx with rfl | hx
      · exact hlt
      · exact Nat.lt_trans hlt (hr.1 x hx)
    · rintro ⟨hall, hs⟩
      exact ⟨hall (j, u) (List.mem_cons_self ..), hs⟩

theorem Tab.mem_put {α : Type} {k : Nat} {v : α} {t : Tab α} {x : Nat × α} (h : x ∈ Tab.put k v t) : x = (k, v) ∨ x ∈ t := by
  induction t with
  | nil => simpa [Tab.put] using h
  | cons y t ih =>
    obtain ⟨i, w⟩ := y
    unfold Tab.put at h
    split at h
    · rcases List.mem_cons.1 h with h | h
      · exact .inl h
      · exact .inr (List.mem_cons_of_mem _ h)
    · split at h
      · rcases List.mem_cons.1 h with h | h
        · exact .inl h
        · exact .inr h
      · rcases List.mem_cons.1 h with h | h
        · exact .inr (h ▸ List.mem_cons_self ..)
        · exact (ih h).imp id (List.mem_cons_of_mem _)

theorem Tab.sorted_put {α : Type} (k : Nat) (v : α) (t : Tab α) (h : Tab.sorted t = true) : Tab.sorted (Tab.put k v t) = true := by
  induction t with
  | nil => simp [Tab.put, Tab.sorted]
  | cons y t ih =>
    obtain ⟨i, w⟩ := y
    have hc := (Tab.sorted_cons i w t).1 h
    unfold Tab.put
    split
    · rename_i e
      exact (Tab.sorted_cons k v t).2 ⟨fun x hx => e ▸ hc.1 x hx, hc.2⟩
    · split
      · rename_i hk
        refine (Tab.sorted_cons k v _).2 ⟨?_, h⟩
        intro x hx
        rcases List.mem_cons.1 hx with rfl | hx
        · exact hk
        · exact Nat.lt_trans hk (hc.1 x hx)
      · rename_i h1 h2
        refine (Tab.sorted_cons i w _).2 ⟨?_, ih hc.2⟩
        intro x hx
        rcases Tab.mem_put hx with rfl | hx
        · show i < k
          omega
        · exact hc.1 x hx

theorem Tab.mem_del {α : Type} {k : Nat} {t : Tab α} {x : Nat × α} (h : x ∈ Tab.del k t) : x ∈ t := by
  induction t with
  | nil => simp [Tab.del] at h
  | cons y t ih =>
    obtain ⟨i, w⟩ := y
    unfold Tab.del at h
    split at h
    · exact List.mem_cons_of_mem _ h
    · split at h
      · exact h
      · rcases List.mem_cons.1 h with h | h
        · exact h ▸ List.mem_cons_self ..
        · exact List.mem_cons_of_mem _ (ih h)

theorem Tab.sorted_del {α : Type} (k : Nat) (t : Tab α) (h : Tab.sorted t = true) : Tab.sorted (Tab.del k t) = true := by
  induction t with
  | nil => simp [Tab.del, Tab.sorted]
  | cons y t ih =>
    obtain ⟨i, w⟩ := y
    have hc := (Tab.sorted_cons i w t).1 h
    unfold Tab.del
    split
    · exact hc.2
    · split
      · exact h
      · exact (Tab.sorted_cons i w _).2 ⟨fun x hx => hc.1 x (Tab.mem_del hx), ih hc.2⟩

theorem Tab.sorted_filter {α : Type} (f : Nat × α → Bool) (t : Tab α) (h : Tab.sorted t = true) :
    Tab.sorted (t.filter f) = true := by
  induction t with
  | nil => simp [Tab.sorted]
  | cons y t ih =>
    obtain ⟨i, w⟩ := y
    have hc := (Tab.sorted_cons i w t).1 h
    rw [List.filter_cons]
    split
    · exact (Tab.sorted_cons i w _).2 ⟨fun x hx => hc.1 x (List.mem_filter.1 hx).1, ih hc.2⟩
    · exact ih hc.2

theorem Tab.get_of_lt {α : Type} (d : Nat → α) (k : Nat) (t : Tab α) (h : ∀ x ∈ t, k < x.1) : Tab.get d k t = d k := by
  cases t with
  | nil => rfl
  | cons y t =>
    obtain ⟨i, w⟩ := y
    have hk : k < i := h (i, w) (List.mem_cons_self ..)
    have : ¬ i = k := by omega
    simp [Tab.get, this, hk]

theorem Tab.get_del_same {α : Type} (d : Nat → α) (k : Nat) (t : Tab α) (h : Tab.sorted t = true) :
    Tab.get d k (Tab.del k t) = d k := by
  induction t with
  | nil => rfl
  | cons y t ih =>
    obtain ⟨i, w⟩ := y
    have hc := (Tab.sorted_cons i w t).1 h
    unfold Tab.del
    split
    · rename_i e
      exact Tab.get_of_lt d k t (fun x hx => e ▸ hc.1 x hx)
    · split
      · rename_i h1 h2
        simp [Tab.get, h1, h2]
      · rename_i h1 h2
        simp [Tab.get, h1, h2, ih hc.2]

theorem Tab.get_del_ne {α : Type} (d : Nat → α) {j k : Nat} (hj : j ≠ k) (t : Tab α) (h : Tab.sorted t = true) :
    Tab.get d j (Tab.del k t) = Tab.get d j t := by
  induction t with
  | nil => rfl
  | cons y t ih =>
    obtain ⟨i, w⟩ := y
    have hc := (Tab.sorted_cons i w t).1 h
    unfold Tab.del
    split
    · rename_i e
      subst e
      have hne : ¬ i = j := fun e => hj e.symm
      simp only [Tab.get, hne, if_false]
      split
      · rename_i hlt
        exact Tab.get_of_lt d j t (fun x hx => Nat.lt_trans hlt (hc.1 x hx))
      · rfl
    · split
      · rfl
      · simp only [Tab.get, ih hc.2]

end Sys2Proof

namespace Sys2Proof.Machine

/-! ### Memory -/

theorem Mem.wf_iff (m : List Host.Cell) : Mem.wf m = true ↔ Tab.sorted m = true ∧ ∀ c ∈ m, c.2 ≠ memDflt c.1 := by
  simp [Mem.wf, List.all_eq_true]

theorem Mem.wf_write (a : Nat) (v : Byte) (m : List Host.Cell) (h : Mem.wf m = true) : Mem.wf (Mem.write a v m) = true := by
  rw [Mem.wf_iff] at h ⊢
  unfold Mem.write
  split
  · exact ⟨Tab.sorted_del a m h.1, fun c hc => h.2 c (Tab.mem_del hc)⟩
  · rename_i hv
    refine ⟨Tab.sorted_put a v m h.1, fun c hc => ?_⟩
    rcases Tab.mem_put hc with rfl | hc
    · exact hv
    · exact h.2 c hc

theorem Mem.wf_writeAll (a : Nat) (v : Octets) (m : List Host.Cell) (h : Mem.wf m = true) :
    Mem.wf (Mem.writeAll a v m) = true := by
  induction v generalizing a m with
  | nil => exact h
  | cons b bs ih => exact ih (a + 1) _ (Mem.wf_write a b m h)

theorem Mem.wf_filter (f : Host.Cell → Bool) (m : List Host.Cell) (h : Mem.wf m = true) : Mem.wf (m.filter f) = true := by
  rw [Mem.wf_iff] at h ⊢
  exact ⟨Tab.sorted_filter f m h.1, fun c hc => h.2 c (List.mem_filter.1 hc).1⟩

/-- A read after a write to the same address gives the value written. -/
theorem Mem.read_write_same (a : Nat) (v : Byte) (m : List Host.Cell) (h : Mem.wf m = true) : Mem.read a (Mem.write a v m) = v := by
  unfold Mem.read Mem.write
  split
  · rename_i e
    rw [Tab.get_del_same _ _ _ ((Mem.wf_iff m).1 h).1, e]
  · exact Tab.get_put_same ..

/-- A write leaves every other address alone. -/
theorem Mem.read_write_ne {a b : Nat} (hab : b ≠ a) (v : Byte) (m : List Host.Cell) (h : Mem.wf m = true) :
    Mem.read b (Mem.write a v m) = Mem.read b m := by
  unfold Mem.read Mem.write
  split
  · exact Tab.get_del_ne _ hab _ ((Mem.wf_iff m).1 h).1
  · exact Tab.get_put_ne _ hab ..

/-- A write of bytes from `a` up leaves every address outside them alone. -/
theorem Mem.read_writeAll_out (a b : Nat) (v : Octets) (m : List Host.Cell) (h : Mem.wf m = true)
    (hb : b < a ∨ a + v.length ≤ b) : Mem.read b (Mem.writeAll a v m) = Mem.read b m := by
  induction v generalizing a m with
  | nil => rfl
  | cons x xs ih =>
    simp only [List.length_cons] at hb
    rw [Mem.writeAll, ih (a + 1) _ (Mem.wf_write a x m h) (by omega), Mem.read_write_ne (by omega) x m h]

/-- The bytes written are the bytes read back. -/
theorem Mem.readAll_writeAll (a : Nat) (v : Octets) (m : List Host.Cell) (h : Mem.wf m = true) :
    Mem.readAll a v.length (Mem.writeAll a v m) = v := by
  induction v generalizing a m with
  | nil => rfl
  | cons x xs ih =>
    simp only [List.length_cons, Mem.readAll, Mem.writeAll]
    rw [ih (a + 1) _ (Mem.wf_write a x m h), Mem.read_writeAll_out (a + 1) a xs _ (Mem.wf_write a x m h) (by omega),
      Mem.read_write_same a x m h]

theorem Mem.readAll_length (a n : Nat) (m : List Host.Cell) : (Mem.readAll a n m).length = n := by
  induction n generalizing a with
  | zero => rfl
  | succ n ih => simp [Mem.readAll, ih]

/-- Memory after reset lists nothing, and so has its form. -/
theorem Mem.wf_reset : Mem.wf State.reset.mem = true := rfl

/-! ### Numbers as octets -/

@[simp] theorem leOctets_length (n x : Nat) : (leOctets n x).length = n := by
  induction n generalizing x with
  | zero => rfl
  | succ n ih => simp [leOctets, ih]

theorem ofLe_leOctets (n x : Nat) : ofLe (leOctets n x) = x % 256 ^ n := by
  induction n generalizing x with
  | zero => simp [leOctets, ofLe, Nat.mod_one]
  | succ n ih =>
    simp only [leOctets, ofLe, ih, BitVec.toNat_ofNat]
    rw [show (256 : Nat) ^ (n + 1) = 256 * 256 ^ n from Nat.pow_succ', Nat.mod_mul]

end Sys2Proof.Machine
end

