-- ==== Sys2Proof/Laws/Ports.lean ====
section
/-! SUPPORT. What the management ports change: nothing but the fabric (R290, R296). -/

namespace Sys2Proof.Machine

@[simp] theorem getPort_setPort (s : State) (p : Nat) (v : PortOut) : getPort (setPort s p v) p = v := by
  simp [getPort, setPort, Tab.get_put_same]

theorem sendPacket_only (s : State) (vc : Nat) (kind : PacketKind) (route : List Nat) (octets : Nat) (body : PktBody) :
    ∃ x, sendPacket s vc kind route octets body = { s with fabric := x } := by
  cases route with
  | nil => exact ⟨s.fabric, rfl⟩
  | cons h rest => exact ⟨_, rfl⟩

/-- A drain of a management port changes nothing but the fabric. -/
theorem portDrain_only (s : State) (p : Nat) : ∃ x, portDrain s p = { s with fabric := x } := by
  unfold portDrain
  dsimp only
  split
  · exact ⟨s.fabric, rfl⟩
  · split
    · exact ⟨_, rfl⟩
    · exact ⟨s.fabric, rfl⟩

/-- Nor does a frame that reaches a management port. -/
theorem portSend_only (s : State) (p : Nat) (v : Octets) : ∃ x, portSend s p v = { s with fabric := x } := by
  obtain ⟨x, h⟩ := portDrain_only (setPort s p { getPort s p with frames := (getPort s p).frames ++ [v] }) p
  exact ⟨x, by simp only [portSend, h]; rfl⟩

end Sys2Proof.Machine
end

