-- ==== Sys2Proof/Laws/State.lean ====
section
/-! SUPPORT. The fields of a state after each named update, and each resource after an update of one of them. -/

namespace Sys2Proof

theorem Tab.put_put {α : Type} (k : Nat) (v w : α) (t : Tab α) : Tab.put k v (Tab.put k w t) = Tab.put k v t := by
  induction t with
  | nil => simp [Tab.put]
  | cons x t ih =>
    obtain ⟨i, u⟩ := x
    by_cases h1 : i = k
    · simp [Tab.put, h1]
    · by_cases h2 : k < i
      · simp [Tab.put, h1, h2]
      · simp [Tab.put, h1, h2, ih]

end Sys2Proof

namespace Sys2Proof.Machine

/-! ### setCore -/

@[simp] theorem setCore_pending (s : State) (n : Nat) (k : LensCore) : (setCore s n k).pending = s.pending := rfl
@[simp] theorem setCore_part (s : State) (n : Nat) (k : LensCore) : (setCore s n k).part = s.part := rfl
@[simp] theorem setCore_tb (s : State) (n : Nat) (k : LensCore) : (setCore s n k).tb = s.tb := rfl
@[simp] theorem setCore_free (s : State) (n : Nat) (k : LensCore) : (setCore s n k).free = s.free := rfl
@[simp] theorem setCore_clusters (s : State) (n : Nat) (k : LensCore) : (setCore s n k).clusters = s.clusters := rfl
@[simp] theorem setCore_quads (s : State) (n : Nat) (k : LensCore) : (setCore s n k).quads = s.quads := rfl
@[simp] theorem setCore_beams (s : State) (n : Nat) (k : LensCore) : (setCore s n k).beams = s.beams := rfl
@[simp] theorem setCore_facets (s : State) (n : Nat) (k : LensCore) : (setCore s n k).facets = s.facets := rfl
@[simp] theorem setCore_fabric (s : State) (n : Nat) (k : LensCore) : (setCore s n k).fabric = s.fabric := rfl
@[simp] theorem setCore_rfx (s : State) (n : Nat) (k : LensCore) : (setCore s n k).rfx = s.rfx := rfl
@[simp] theorem setCore_foster (s : State) (n : Nat) (k : LensCore) : (setCore s n k).foster = s.foster := rfl
@[simp] theorem setCore_nextId (s : State) (n : Nat) (k : LensCore) : (setCore s n k).nextId = s.nextId := rfl
@[simp] theorem setCore_mem (s : State) (n : Nat) (k : LensCore) : (setCore s n k).mem = s.mem := rfl
@[simp] theorem setCore_ecc (s : State) (n : Nat) (k : LensCore) : (setCore s n k).ecc = s.ecc := rfl
@[simp] theorem setCore_router (s : State) (n : Nat) (k : LensCore) : (setCore s n k).router = s.router := rfl
@[simp] theorem setCore_active (s : State) (n : Nat) (k : LensCore) : (setCore s n k).active = s.active := rfl
@[simp] theorem setCore_mhist (s : State) (n : Nat) (k : LensCore) : (setCore s n k).mhist = s.mhist := rfl
@[simp] theorem setCore_ent (s : State) (n : Nat) (k : LensCore) : (setCore s n k).ent = s.ent := rfl
@[simp] theorem setCore_errs (s : State) (n : Nat) (k : LensCore) : (setCore s n k).errs = s.errs := rfl
@[simp] theorem setCore_emerg (s : State) (n : Nat) (k : LensCore) : (setCore s n k).emerg = s.emerg := rfl
@[simp] theorem setCore_rdata (s : State) (n : Nat) (k : LensCore) : (setCore s n k).rdata = s.rdata := rfl
@[simp] theorem setCore_lastAbort (s : State) (n : Nat) (k : LensCore) : (setCore s n k).lastAbort = s.lastAbort := rfl
@[simp] theorem setCore_polisher (s : State) (n : Nat) (k : LensCore) : (setCore s n k).polisher = s.polisher := rfl
@[simp] theorem setCore_keys (s : State) (n : Nat) (k : LensCore) : (setCore s n k).keys = s.keys := rfl
@[simp] theorem setCore_chain (s : State) (n : Nat) (k : LensCore) : (setCore s n k).chain = s.chain := rfl
@[simp] theorem setCore_node (s : State) (n : Nat) (k : LensCore) : (setCore s n k).node = s.node := rfl
@[simp] theorem setCore_chans (s : State) (n : Nat) (k : LensCore) : (setCore s n k).chans = s.chans := rfl
@[simp] theorem setCore_iris (s : State) (n : Nat) (k : LensCore) : (setCore s n k).iris = s.iris := rfl
@[simp] theorem setCore_clock (s : State) (n : Nat) (k : LensCore) : (setCore s n k).clock = s.clock := rfl
@[simp] theorem setCore_cal (s : State) (n : Nat) (k : LensCore) : (setCore s n k).cal = s.cal := rfl
@[simp] theorem setCore_edp (s : State) (n : Nat) (k : LensCore) : (setCore s n k).edp = s.edp := rfl
@[simp] theorem setCore_img (s : State) (n : Nat) (k : LensCore) : (setCore s n k).img = s.img := rfl
@[simp] theorem setCore_power (s : State) (n : Nat) (k : LensCore) : (setCore s n k).power = s.power := rfl
@[simp] theorem setCore_prbs (s : State) (n : Nat) (k : LensCore) : (setCore s n k).prbs = s.prbs := rfl
@[simp] theorem setCore_tap (s : State) (n : Nat) (k : LensCore) : (setCore s n k).tap = s.tap := rfl

/-! ### setCluster -/

@[simp] theorem setCluster_pending (s : State) (c : Nat) (v : Cluster) : (setCluster s c v).pending = s.pending := rfl
@[simp] theorem setCluster_part (s : State) (c : Nat) (v : Cluster) : (setCluster s c v).part = s.part := rfl
@[simp] theorem setCluster_tb (s : State) (c : Nat) (v : Cluster) : (setCluster s c v).tb = s.tb := rfl
@[simp] theorem setCluster_free (s : State) (c : Nat) (v : Cluster) : (setCluster s c v).free = s.free := rfl
@[simp] theorem setCluster_cores (s : State) (c : Nat) (v : Cluster) : (setCluster s c v).cores = s.cores := rfl
@[simp] theorem setCluster_quads (s : State) (c : Nat) (v : Cluster) : (setCluster s c v).quads = s.quads := rfl
@[simp] theorem setCluster_beams (s : State) (c : Nat) (v : Cluster) : (setCluster s c v).beams = s.beams := rfl
@[simp] theorem setCluster_facets (s : State) (c : Nat) (v : Cluster) : (setCluster s c v).facets = s.facets := rfl
@[simp] theorem setCluster_fabric (s : State) (c : Nat) (v : Cluster) : (setCluster s c v).fabric = s.fabric := rfl
@[simp] theorem setCluster_rfx (s : State) (c : Nat) (v : Cluster) : (setCluster s c v).rfx = s.rfx := rfl
@[simp] theorem setCluster_foster (s : State) (c : Nat) (v : Cluster) : (setCluster s c v).foster = s.foster := rfl
@[simp] theorem setCluster_nextId (s : State) (c : Nat) (v : Cluster) : (setCluster s c v).nextId = s.nextId := rfl
@[simp] theorem setCluster_mem (s : State) (c : Nat) (v : Cluster) : (setCluster s c v).mem = s.mem := rfl
@[simp] theorem setCluster_ecc (s : State) (c : Nat) (v : Cluster) : (setCluster s c v).ecc = s.ecc := rfl
@[simp] theorem setCluster_router (s : State) (c : Nat) (v : Cluster) : (setCluster s c v).router = s.router := rfl
@[simp] theorem setCluster_active (s : State) (c : Nat) (v : Cluster) : (setCluster s c v).active = s.active := rfl
@[simp] theorem setCluster_mhist (s : State) (c : Nat) (v : Cluster) : (setCluster s c v).mhist = s.mhist := rfl
@[simp] theorem setCluster_ent (s : State) (c : Nat) (v : Cluster) : (setCluster s c v).ent = s.ent := rfl
@[simp] theorem setCluster_errs (s : State) (c : Nat) (v : Cluster) : (setCluster s c v).errs = s.errs := rfl
@[simp] theorem setCluster_emerg (s : State) (c : Nat) (v : Cluster) : (setCluster s c v).emerg = s.emerg := rfl
@[simp] theorem setCluster_rdata (s : State) (c : Nat) (v : Cluster) : (setCluster s c v).rdata = s.rdata := rfl
@[simp] theorem setCluster_lastAbort (s : State) (c : Nat) (v : Cluster) : (setCluster s c v).lastAbort = s.lastAbort := rfl
@[simp] theorem setCluster_polisher (s : State) (c : Nat) (v : Cluster) : (setCluster s c v).polisher = s.polisher := rfl
@[simp] theorem setCluster_keys (s : State) (c : Nat) (v : Cluster) : (setCluster s c v).keys = s.keys := rfl
@[simp] theorem setCluster_chain (s : State) (c : Nat) (v : Cluster) : (setCluster s c v).chain = s.chain := rfl
@[simp] theorem setCluster_node (s : State) (c : Nat) (v : Cluster) : (setCluster s c v).node = s.node := rfl
@[simp] theorem setCluster_chans (s : State) (c : Nat) (v : Cluster) : (setCluster s c v).chans = s.chans := rfl
@[simp] theorem setCluster_iris (s : State) (c : Nat) (v : Cluster) : (setCluster s c v).iris = s.iris := rfl
@[simp] theorem setCluster_clock (s : State) (c : Nat) (v : Cluster) : (setCluster s c v).clock = s.clock := rfl
@[simp] theorem setCluster_cal (s : State) (c : Nat) (v : Cluster) : (setCluster s c v).cal = s.cal := rfl
@[simp] theorem setCluster_edp (s : State) (c : Nat) (v : Cluster) : (setCluster s c v).edp = s.edp := rfl
@[simp] theorem setCluster_img (s : State) (c : Nat) (v : Cluster) : (setCluster s c v).img = s.img := rfl
@[simp] theorem setCluster_power (s : State) (c : Nat) (v : Cluster) : (setCluster s c v).power = s.power := rfl
@[simp] theorem setCluster_prbs (s : State) (c : Nat) (v : Cluster) : (setCluster s c v).prbs = s.prbs := rfl
@[simp] theorem setCluster_tap (s : State) (c : Nat) (v : Cluster) : (setCluster s c v).tap = s.tap := rfl

/-! ### setQuad -/

@[simp] theorem setQuad_pending (s : State) (q : Nat) (v : Quad) : (setQuad s q v).pending = s.pending := rfl
@[simp] theorem setQuad_part (s : State) (q : Nat) (v : Quad) : (setQuad s q v).part = s.part := rfl
@[simp] theorem setQuad_tb (s : State) (q : Nat) (v : Quad) : (setQuad s q v).tb = s.tb := rfl
@[simp] theorem setQuad_free (s : State) (q : Nat) (v : Quad) : (setQuad s q v).free = s.free := rfl
@[simp] theorem setQuad_cores (s : State) (q : Nat) (v : Quad) : (setQuad s q v).cores = s.cores := rfl
@[simp] theorem setQuad_clusters (s : State) (q : Nat) (v : Quad) : (setQuad s q v).clusters = s.clusters := rfl
@[simp] theorem setQuad_beams (s : State) (q : Nat) (v : Quad) : (setQuad s q v).beams = s.beams := rfl
@[simp] theorem setQuad_facets (s : State) (q : Nat) (v : Quad) : (setQuad s q v).facets = s.facets := rfl
@[simp] theorem setQuad_fabric (s : State) (q : Nat) (v : Quad) : (setQuad s q v).fabric = s.fabric := rfl
@[simp] theorem setQuad_rfx (s : State) (q : Nat) (v : Quad) : (setQuad s q v).rfx = s.rfx := rfl
@[simp] theorem setQuad_foster (s : State) (q : Nat) (v : Quad) : (setQuad s q v).foster = s.foster := rfl
@[simp] theorem setQuad_nextId (s : State) (q : Nat) (v : Quad) : (setQuad s q v).nextId = s.nextId := rfl
@[simp] theorem setQuad_mem (s : State) (q : Nat) (v : Quad) : (setQuad s q v).mem = s.mem := rfl
@[simp] theorem setQuad_ecc (s : State) (q : Nat) (v : Quad) : (setQuad s q v).ecc = s.ecc := rfl
@[simp] theorem setQuad_router (s : State) (q : Nat) (v : Quad) : (setQuad s q v).router = s.router := rfl
@[simp] theorem setQuad_active (s : State) (q : Nat) (v : Quad) : (setQuad s q v).active = s.active := rfl
@[simp] theorem setQuad_mhist (s : State) (q : Nat) (v : Quad) : (setQuad s q v).mhist = s.mhist := rfl
@[simp] theorem setQuad_ent (s : State) (q : Nat) (v : Quad) : (setQuad s q v).ent = s.ent := rfl
@[simp] theorem setQuad_errs (s : State) (q : Nat) (v : Quad) : (setQuad s q v).errs = s.errs := rfl
@[simp] theorem setQuad_emerg (s : State) (q : Nat) (v : Quad) : (setQuad s q v).emerg = s.emerg := rfl
@[simp] theorem setQuad_rdata (s : State) (q : Nat) (v : Quad) : (setQuad s q v).rdata = s.rdata := rfl
@[simp] theorem setQuad_lastAbort (s : State) (q : Nat) (v : Quad) : (setQuad s q v).lastAbort = s.lastAbort := rfl
@[simp] theorem setQuad_polisher (s : State) (q : Nat) (v : Quad) : (setQuad s q v).polisher = s.polisher := rfl
@[simp] theorem setQuad_keys (s : State) (q : Nat) (v : Quad) : (setQuad s q v).keys = s.keys := rfl
@[simp] theorem setQuad_chain (s : State) (q : Nat) (v : Quad) : (setQuad s q v).chain = s.chain := rfl
@[simp] theorem setQuad_node (s : State) (q : Nat) (v : Quad) : (setQuad s q v).node = s.node := rfl
@[simp] theorem setQuad_chans (s : State) (q : Nat) (v : Quad) : (setQuad s q v).chans = s.chans := rfl
@[simp] theorem setQuad_iris (s : State) (q : Nat) (v : Quad) : (setQuad s q v).iris = s.iris := rfl
@[simp] theorem setQuad_clock (s : State) (q : Nat) (v : Quad) : (setQuad s q v).clock = s.clock := rfl
@[simp] theorem setQuad_cal (s : State) (q : Nat) (v : Quad) : (setQuad s q v).cal = s.cal := rfl
@[simp] theorem setQuad_edp (s : State) (q : Nat) (v : Quad) : (setQuad s q v).edp = s.edp := rfl
@[simp] theorem setQuad_img (s : State) (q : Nat) (v : Quad) : (setQuad s q v).img = s.img := rfl
@[simp] theorem setQuad_power (s : State) (q : Nat) (v : Quad) : (setQuad s q v).power = s.power := rfl
@[simp] theorem setQuad_prbs (s : State) (q : Nat) (v : Quad) : (setQuad s q v).prbs = s.prbs := rfl
@[simp] theorem setQuad_tap (s : State) (q : Nat) (v : Quad) : (setQuad s q v).tap = s.tap := rfl

/-! ### setBeam -/

@[simp] theorem setBeam_pending (s : State) (b : Nat) (v : BeamCtx) : (setBeam s b v).pending = s.pending := rfl
@[simp] theorem setBeam_part (s : State) (b : Nat) (v : BeamCtx) : (setBeam s b v).part = s.part := rfl
@[simp] theorem setBeam_tb (s : State) (b : Nat) (v : BeamCtx) : (setBeam s b v).tb = s.tb := rfl
@[simp] theorem setBeam_free (s : State) (b : Nat) (v : BeamCtx) : (setBeam s b v).free = s.free := rfl
@[simp] theorem setBeam_cores (s : State) (b : Nat) (v : BeamCtx) : (setBeam s b v).cores = s.cores := rfl
@[simp] theorem setBeam_clusters (s : State) (b : Nat) (v : BeamCtx) : (setBeam s b v).clusters = s.clusters := rfl
@[simp] theorem setBeam_quads (s : State) (b : Nat) (v : BeamCtx) : (setBeam s b v).quads = s.quads := rfl
@[simp] theorem setBeam_facets (s : State) (b : Nat) (v : BeamCtx) : (setBeam s b v).facets = s.facets := rfl
@[simp] theorem setBeam_fabric (s : State) (b : Nat) (v : BeamCtx) : (setBeam s b v).fabric = s.fabric := rfl
@[simp] theorem setBeam_rfx (s : State) (b : Nat) (v : BeamCtx) : (setBeam s b v).rfx = s.rfx := rfl
@[simp] theorem setBeam_foster (s : State) (b : Nat) (v : BeamCtx) : (setBeam s b v).foster = s.foster := rfl
@[simp] theorem setBeam_nextId (s : State) (b : Nat) (v : BeamCtx) : (setBeam s b v).nextId = s.nextId := rfl
@[simp] theorem setBeam_mem (s : State) (b : Nat) (v : BeamCtx) : (setBeam s b v).mem = s.mem := rfl
@[simp] theorem setBeam_ecc (s : State) (b : Nat) (v : BeamCtx) : (setBeam s b v).ecc = s.ecc := rfl
@[simp] theorem setBeam_router (s : State) (b : Nat) (v : BeamCtx) : (setBeam s b v).router = s.router := rfl
@[simp] theorem setBeam_active (s : State) (b : Nat) (v : BeamCtx) : (setBeam s b v).active = s.active := rfl
@[simp] theorem setBeam_mhist (s : State) (b : Nat) (v : BeamCtx) : (setBeam s b v).mhist = s.mhist := rfl
@[simp] theorem setBeam_ent (s : State) (b : Nat) (v : BeamCtx) : (setBeam s b v).ent = s.ent := rfl
@[simp] theorem setBeam_errs (s : State) (b : Nat) (v : BeamCtx) : (setBeam s b v).errs = s.errs := rfl
@[simp] theorem setBeam_emerg (s : State) (b : Nat) (v : BeamCtx) : (setBeam s b v).emerg = s.emerg := rfl
@[simp] theorem setBeam_rdata (s : State) (b : Nat) (v : BeamCtx) : (setBeam s b v).rdata = s.rdata := rfl
@[simp] theorem setBeam_lastAbort (s : State) (b : Nat) (v : BeamCtx) : (setBeam s b v).lastAbort = s.lastAbort := rfl
@[simp] theorem setBeam_polisher (s : State) (b : Nat) (v : BeamCtx) : (setBeam s b v).polisher = s.polisher := rfl
@[simp] theorem setBeam_keys (s : State) (b : Nat) (v : BeamCtx) : (setBeam s b v).keys = s.keys := rfl
@[simp] theorem setBeam_chain (s : State) (b : Nat) (v : BeamCtx) : (setBeam s b v).chain = s.chain := rfl
@[simp] theorem setBeam_node (s : State) (b : Nat) (v : BeamCtx) : (setBeam s b v).node = s.node := rfl
@[simp] theorem setBeam_chans (s : State) (b : Nat) (v : BeamCtx) : (setBeam s b v).chans = s.chans := rfl
@[simp] theorem setBeam_iris (s : State) (b : Nat) (v : BeamCtx) : (setBeam s b v).iris = s.iris := rfl
@[simp] theorem setBeam_clock (s : State) (b : Nat) (v : BeamCtx) : (setBeam s b v).clock = s.clock := rfl
@[simp] theorem setBeam_cal (s : State) (b : Nat) (v : BeamCtx) : (setBeam s b v).cal = s.cal := rfl
@[simp] theorem setBeam_edp (s : State) (b : Nat) (v : BeamCtx) : (setBeam s b v).edp = s.edp := rfl
@[simp] theorem setBeam_img (s : State) (b : Nat) (v : BeamCtx) : (setBeam s b v).img = s.img := rfl
@[simp] theorem setBeam_power (s : State) (b : Nat) (v : BeamCtx) : (setBeam s b v).power = s.power := rfl
@[simp] theorem setBeam_prbs (s : State) (b : Nat) (v : BeamCtx) : (setBeam s b v).prbs = s.prbs := rfl
@[simp] theorem setBeam_tap (s : State) (b : Nat) (v : BeamCtx) : (setBeam s b v).tap = s.tap := rfl

/-! ### setFacet -/

@[simp] theorem setFacet_pending (s : State) (p : Nat) (f : Facet) : (setFacet s p f).pending = s.pending := rfl
@[simp] theorem setFacet_part (s : State) (p : Nat) (f : Facet) : (setFacet s p f).part = s.part := rfl
@[simp] theorem setFacet_tb (s : State) (p : Nat) (f : Facet) : (setFacet s p f).tb = s.tb := rfl
@[simp] theorem setFacet_free (s : State) (p : Nat) (f : Facet) : (setFacet s p f).free = s.free := rfl
@[simp] theorem setFacet_cores (s : State) (p : Nat) (f : Facet) : (setFacet s p f).cores = s.cores := rfl
@[simp] theorem setFacet_clusters (s : State) (p : Nat) (f : Facet) : (setFacet s p f).clusters = s.clusters := rfl
@[simp] theorem setFacet_quads (s : State) (p : Nat) (f : Facet) : (setFacet s p f).quads = s.quads := rfl
@[simp] theorem setFacet_beams (s : State) (p : Nat) (f : Facet) : (setFacet s p f).beams = s.beams := rfl
@[simp] theorem setFacet_fabric (s : State) (p : Nat) (f : Facet) : (setFacet s p f).fabric = s.fabric := rfl
@[simp] theorem setFacet_rfx (s : State) (p : Nat) (f : Facet) : (setFacet s p f).rfx = s.rfx := rfl
@[simp] theorem setFacet_foster (s : State) (p : Nat) (f : Facet) : (setFacet s p f).foster = s.foster := rfl
@[simp] theorem setFacet_nextId (s : State) (p : Nat) (f : Facet) : (setFacet s p f).nextId = s.nextId := rfl
@[simp] theorem setFacet_mem (s : State) (p : Nat) (f : Facet) : (setFacet s p f).mem = s.mem := rfl
@[simp] theorem setFacet_ecc (s : State) (p : Nat) (f : Facet) : (setFacet s p f).ecc = s.ecc := rfl
@[simp] theorem setFacet_router (s : State) (p : Nat) (f : Facet) : (setFacet s p f).router = s.router := rfl
@[simp] theorem setFacet_active (s : State) (p : Nat) (f : Facet) : (setFacet s p f).active = s.active := rfl
@[simp] theorem setFacet_mhist (s : State) (p : Nat) (f : Facet) : (setFacet s p f).mhist = s.mhist := rfl
@[simp] theorem setFacet_ent (s : State) (p : Nat) (f : Facet) : (setFacet s p f).ent = s.ent := rfl
@[simp] theorem setFacet_errs (s : State) (p : Nat) (f : Facet) : (setFacet s p f).errs = s.errs := rfl
@[simp] theorem setFacet_emerg (s : State) (p : Nat) (f : Facet) : (setFacet s p f).emerg = s.emerg := rfl
@[simp] theorem setFacet_rdata (s : State) (p : Nat) (f : Facet) : (setFacet s p f).rdata = s.rdata := rfl
@[simp] theorem setFacet_lastAbort (s : State) (p : Nat) (f : Facet) : (setFacet s p f).lastAbort = s.lastAbort := rfl
@[simp] theorem setFacet_polisher (s : State) (p : Nat) (f : Facet) : (setFacet s p f).polisher = s.polisher := rfl
@[simp] theorem setFacet_keys (s : State) (p : Nat) (f : Facet) : (setFacet s p f).keys = s.keys := rfl
@[simp] theorem setFacet_chain (s : State) (p : Nat) (f : Facet) : (setFacet s p f).chain = s.chain := rfl
@[simp] theorem setFacet_node (s : State) (p : Nat) (f : Facet) : (setFacet s p f).node = s.node := rfl
@[simp] theorem setFacet_chans (s : State) (p : Nat) (f : Facet) : (setFacet s p f).chans = s.chans := rfl
@[simp] theorem setFacet_iris (s : State) (p : Nat) (f : Facet) : (setFacet s p f).iris = s.iris := rfl
@[simp] theorem setFacet_clock (s : State) (p : Nat) (f : Facet) : (setFacet s p f).clock = s.clock := rfl
@[simp] theorem setFacet_cal (s : State) (p : Nat) (f : Facet) : (setFacet s p f).cal = s.cal := rfl
@[simp] theorem setFacet_edp (s : State) (p : Nat) (f : Facet) : (setFacet s p f).edp = s.edp := rfl
@[simp] theorem setFacet_img (s : State) (p : Nat) (f : Facet) : (setFacet s p f).img = s.img := rfl
@[simp] theorem setFacet_power (s : State) (p : Nat) (f : Facet) : (setFacet s p f).power = s.power := rfl
@[simp] theorem setFacet_prbs (s : State) (p : Nat) (f : Facet) : (setFacet s p f).prbs = s.prbs := rfl
@[simp] theorem setFacet_tap (s : State) (p : Nat) (f : Facet) : (setFacet s p f).tap = s.tap := rfl

/-! ### setChan -/

@[simp] theorem setChan_pending (s : State) (n : Nat) (x : Channel) : (setChan s n x).pending = s.pending := rfl
@[simp] theorem setChan_part (s : State) (n : Nat) (x : Channel) : (setChan s n x).part = s.part := rfl
@[simp] theorem setChan_tb (s : State) (n : Nat) (x : Channel) : (setChan s n x).tb = s.tb := rfl
@[simp] theorem setChan_free (s : State) (n : Nat) (x : Channel) : (setChan s n x).free = s.free := rfl
@[simp] theorem setChan_cores (s : State) (n : Nat) (x : Channel) : (setChan s n x).cores = s.cores := rfl
@[simp] theorem setChan_clusters (s : State) (n : Nat) (x : Channel) : (setChan s n x).clusters = s.clusters := rfl
@[simp] theorem setChan_quads (s : State) (n : Nat) (x : Channel) : (setChan s n x).quads = s.quads := rfl
@[simp] theorem setChan_beams (s : State) (n : Nat) (x : Channel) : (setChan s n x).beams = s.beams := rfl
@[simp] theorem setChan_facets (s : State) (n : Nat) (x : Channel) : (setChan s n x).facets = s.facets := rfl
@[simp] theorem setChan_fabric (s : State) (n : Nat) (x : Channel) : (setChan s n x).fabric = s.fabric := rfl
@[simp] theorem setChan_rfx (s : State) (n : Nat) (x : Channel) : (setChan s n x).rfx = s.rfx := rfl
@[simp] theorem setChan_foster (s : State) (n : Nat) (x : Channel) : (setChan s n x).foster = s.foster := rfl
@[simp] theorem setChan_nextId (s : State) (n : Nat) (x : Channel) : (setChan s n x).nextId = s.nextId := rfl
@[simp] theorem setChan_mem (s : State) (n : Nat) (x : Channel) : (setChan s n x).mem = s.mem := rfl
@[simp] theorem setChan_ecc (s : State) (n : Nat) (x : Channel) : (setChan s n x).ecc = s.ecc := rfl
@[simp] theorem setChan_router (s : State) (n : Nat) (x : Channel) : (setChan s n x).router = s.router := rfl
@[simp] theorem setChan_active (s : State) (n : Nat) (x : Channel) : (setChan s n x).active = s.active := rfl
@[simp] theorem setChan_mhist (s : State) (n : Nat) (x : Channel) : (setChan s n x).mhist = s.mhist := rfl
@[simp] theorem setChan_ent (s : State) (n : Nat) (x : Channel) : (setChan s n x).ent = s.ent := rfl
@[simp] theorem setChan_errs (s : State) (n : Nat) (x : Channel) : (setChan s n x).errs = s.errs := rfl
@[simp] theorem setChan_emerg (s : State) (n : Nat) (x : Channel) : (setChan s n x).emerg = s.emerg := rfl
@[simp] theorem setChan_rdata (s : State) (n : Nat) (x : Channel) : (setChan s n x).rdata = s.rdata := rfl
@[simp] theorem setChan_lastAbort (s : State) (n : Nat) (x : Channel) : (setChan s n x).lastAbort = s.lastAbort := rfl
@[simp] theorem setChan_polisher (s : State) (n : Nat) (x : Channel) : (setChan s n x).polisher = s.polisher := rfl
@[simp] theorem setChan_keys (s : State) (n : Nat) (x : Channel) : (setChan s n x).keys = s.keys := rfl
@[simp] theorem setChan_chain (s : State) (n : Nat) (x : Channel) : (setChan s n x).chain = s.chain := rfl
@[simp] theorem setChan_node (s : State) (n : Nat) (x : Channel) : (setChan s n x).node = s.node := rfl
@[simp] theorem setChan_iris (s : State) (n : Nat) (x : Channel) : (setChan s n x).iris = s.iris := rfl
@[simp] theorem setChan_clock (s : State) (n : Nat) (x : Channel) : (setChan s n x).clock = s.clock := rfl
@[simp] theorem setChan_cal (s : State) (n : Nat) (x : Channel) : (setChan s n x).cal = s.cal := rfl
@[simp] theorem setChan_edp (s : State) (n : Nat) (x : Channel) : (setChan s n x).edp = s.edp := rfl
@[simp] theorem setChan_img (s : State) (n : Nat) (x : Channel) : (setChan s n x).img = s.img := rfl
@[simp] theorem setChan_power (s : State) (n : Nat) (x : Channel) : (setChan s n x).power = s.power := rfl
@[simp] theorem setChan_prbs (s : State) (n : Nat) (x : Channel) : (setChan s n x).prbs = s.prbs := rfl
@[simp] theorem setChan_tap (s : State) (n : Nat) (x : Channel) : (setChan s n x).tap = s.tap := rfl

/-! ### setRawWord -/

@[simp] theorem setRawWord_pending (s : State) (w : Nat) (v : BitVec 64) : (setRawWord s w v).pending = s.pending := rfl
@[simp] theorem setRawWord_part (s : State) (w : Nat) (v : BitVec 64) : (setRawWord s w v).part = s.part := rfl
@[simp] theorem setRawWord_tb (s : State) (w : Nat) (v : BitVec 64) : (setRawWord s w v).tb = s.tb := rfl
@[simp] theorem setRawWord_free (s : State) (w : Nat) (v : BitVec 64) : (setRawWord s w v).free = s.free := rfl
@[simp] theorem setRawWord_cores (s : State) (w : Nat) (v : BitVec 64) : (setRawWord s w v).cores = s.cores := rfl
@[simp] theorem setRawWord_clusters (s : State) (w : Nat) (v : BitVec 64) : (setRawWord s w v).clusters = s.clusters := rfl
@[simp] theorem setRawWord_quads (s : State) (w : Nat) (v : BitVec 64) : (setRawWord s w v).quads = s.quads := rfl
@[simp] theorem setRawWord_beams (s : State) (w : Nat) (v : BitVec 64) : (setRawWord s w v).beams = s.beams := rfl
@[simp] theorem setRawWord_facets (s : State) (w : Nat) (v : BitVec 64) : (setRawWord s w v).facets = s.facets := rfl
@[simp] theorem setRawWord_fabric (s : State) (w : Nat) (v : BitVec 64) : (setRawWord s w v).fabric = s.fabric := rfl
@[simp] theorem setRawWord_rfx (s : State) (w : Nat) (v : BitVec 64) : (setRawWord s w v).rfx = s.rfx := rfl
@[simp] theorem setRawWord_foster (s : State) (w : Nat) (v : BitVec 64) : (setRawWord s w v).foster = s.foster := rfl
@[simp] theorem setRawWord_nextId (s : State) (w : Nat) (v : BitVec 64) : (setRawWord s w v).nextId = s.nextId := rfl
@[simp] theorem setRawWord_ecc (s : State) (w : Nat) (v : BitVec 64) : (setRawWord s w v).ecc = s.ecc := rfl
@[simp] theorem setRawWord_router (s : State) (w : Nat) (v : BitVec 64) : (setRawWord s w v).router = s.router := rfl
@[simp] theorem setRawWord_active (s : State) (w : Nat) (v : BitVec 64) : (setRawWord s w v).active = s.active := rfl
@[simp] theorem setRawWord_mhist (s : State) (w : Nat) (v : BitVec 64) : (setRawWord s w v).mhist = s.mhist := rfl
@[simp] theorem setRawWord_ent (s : State) (w : Nat) (v : BitVec 64) : (setRawWord s w v).ent = s.ent := rfl
@[simp] theorem setRawWord_errs (s : State) (w : Nat) (v : BitVec 64) : (setRawWord s w v).errs = s.errs := rfl
@[simp] theorem setRawWord_emerg (s : State) (w : Nat) (v : BitVec 64) : (setRawWord s w v).emerg = s.emerg := rfl
@[simp] theorem setRawWord_rdata (s : State) (w : Nat) (v : BitVec 64) : (setRawWord s w v).rdata = s.rdata := rfl
@[simp] theorem setRawWord_lastAbort (s : State) (w : Nat) (v : BitVec 64) : (setRawWord s w v).lastAbort = s.lastAbort := rfl
@[simp] theorem setRawWord_polisher (s : State) (w : Nat) (v : BitVec 64) : (setRawWord s w v).polisher = s.polisher := rfl
@[simp] theorem setRawWord_keys (s : State) (w : Nat) (v : BitVec 64) : (setRawWord s w v).keys = s.keys := rfl
@[simp] theorem setRawWord_chain (s : State) (w : Nat) (v : BitVec 64) : (setRawWord s w v).chain = s.chain := rfl
@[simp] theorem setRawWord_node (s : State) (w : Nat) (v : BitVec 64) : (setRawWord s w v).node = s.node := rfl
@[simp] theorem setRawWord_chans (s : State) (w : Nat) (v : BitVec 64) : (setRawWord s w v).chans = s.chans := rfl
@[simp] theorem setRawWord_iris (s : State) (w : Nat) (v : BitVec 64) : (setRawWord s w v).iris = s.iris := rfl
@[simp] theorem setRawWord_clock (s : State) (w : Nat) (v : BitVec 64) : (setRawWord s w v).clock = s.clock := rfl
@[simp] theorem setRawWord_cal (s : State) (w : Nat) (v : BitVec 64) : (setRawWord s w v).cal = s.cal := rfl
@[simp] theorem setRawWord_edp (s : State) (w : Nat) (v : BitVec 64) : (setRawWord s w v).edp = s.edp := rfl
@[simp] theorem setRawWord_img (s : State) (w : Nat) (v : BitVec 64) : (setRawWord s w v).img = s.img := rfl
@[simp] theorem setRawWord_power (s : State) (w : Nat) (v : BitVec 64) : (setRawWord s w v).power = s.power := rfl
@[simp] theorem setRawWord_prbs (s : State) (w : Nat) (v : BitVec 64) : (setRawWord s w v).prbs = s.prbs := rfl
@[simp] theorem setRawWord_tap (s : State) (w : Nat) (v : BitVec 64) : (setRawWord s w v).tap = s.tap := rfl

/-! ### writeMem -/

@[simp] theorem writeMem_pending (s : State) (a : Nat) (v : Octets) : (writeMem s a v).pending = s.pending := rfl
@[simp] theorem writeMem_part (s : State) (a : Nat) (v : Octets) : (writeMem s a v).part = s.part := rfl
@[simp] theorem writeMem_tb (s : State) (a : Nat) (v : Octets) : (writeMem s a v).tb = s.tb := rfl
@[simp] theorem writeMem_free (s : State) (a : Nat) (v : Octets) : (writeMem s a v).free = s.free := rfl
@[simp] theorem writeMem_cores (s : State) (a : Nat) (v : Octets) : (writeMem s a v).cores = s.cores := rfl
@[simp] theorem writeMem_clusters (s : State) (a : Nat) (v : Octets) : (writeMem s a v).clusters = s.clusters := rfl
@[simp] theorem writeMem_quads (s : State) (a : Nat) (v : Octets) : (writeMem s a v).quads = s.quads := rfl
@[simp] theorem writeMem_beams (s : State) (a : Nat) (v : Octets) : (writeMem s a v).beams = s.beams := rfl
@[simp] theorem writeMem_facets (s : State) (a : Nat) (v : Octets) : (writeMem s a v).facets = s.facets := rfl
@[simp] theorem writeMem_fabric (s : State) (a : Nat) (v : Octets) : (writeMem s a v).fabric = s.fabric := rfl
@[simp] theorem writeMem_rfx (s : State) (a : Nat) (v : Octets) : (writeMem s a v).rfx = s.rfx := rfl
@[simp] theorem writeMem_foster (s : State) (a : Nat) (v : Octets) : (writeMem s a v).foster = s.foster := rfl
@[simp] theorem writeMem_nextId (s : State) (a : Nat) (v : Octets) : (writeMem s a v).nextId = s.nextId := rfl
@[simp] theorem writeMem_ecc (s : State) (a : Nat) (v : Octets) : (writeMem s a v).ecc = s.ecc := rfl
@[simp] theorem writeMem_router (s : State) (a : Nat) (v : Octets) : (writeMem s a v).router = s.router := rfl
@[simp] theorem writeMem_active (s : State) (a : Nat) (v : Octets) : (writeMem s a v).active = s.active := rfl
@[simp] theorem writeMem_mhist (s : State) (a : Nat) (v : Octets) : (writeMem s a v).mhist = s.mhist := rfl
@[simp] theorem writeMem_ent (s : State) (a : Nat) (v : Octets) : (writeMem s a v).ent = s.ent := rfl
@[simp] theorem writeMem_errs (s : State) (a : Nat) (v : Octets) : (writeMem s a v).errs = s.errs := rfl
@[simp] theorem writeMem_emerg (s : State) (a : Nat) (v : Octets) : (writeMem s a v).emerg = s.emerg := rfl
@[simp] theorem writeMem_rdata (s : State) (a : Nat) (v : Octets) : (writeMem s a v).rdata = s.rdata := rfl
@[simp] theorem writeMem_lastAbort (s : State) (a : Nat) (v : Octets) : (writeMem s a v).lastAbort = s.lastAbort := rfl
@[simp] theorem writeMem_polisher (s : State) (a : Nat) (v : Octets) : (writeMem s a v).polisher = s.polisher := rfl
@[simp] theorem writeMem_keys (s : State) (a : Nat) (v : Octets) : (writeMem s a v).keys = s.keys := rfl
@[simp] theorem writeMem_chain (s : State) (a : Nat) (v : Octets) : (writeMem s a v).chain = s.chain := rfl
@[simp] theorem writeMem_node (s : State) (a : Nat) (v : Octets) : (writeMem s a v).node = s.node := rfl
@[simp] theorem writeMem_chans (s : State) (a : Nat) (v : Octets) : (writeMem s a v).chans = s.chans := rfl
@[simp] theorem writeMem_iris (s : State) (a : Nat) (v : Octets) : (writeMem s a v).iris = s.iris := rfl
@[simp] theorem writeMem_clock (s : State) (a : Nat) (v : Octets) : (writeMem s a v).clock = s.clock := rfl
@[simp] theorem writeMem_cal (s : State) (a : Nat) (v : Octets) : (writeMem s a v).cal = s.cal := rfl
@[simp] theorem writeMem_edp (s : State) (a : Nat) (v : Octets) : (writeMem s a v).edp = s.edp := rfl
@[simp] theorem writeMem_img (s : State) (a : Nat) (v : Octets) : (writeMem s a v).img = s.img := rfl
@[simp] theorem writeMem_power (s : State) (a : Nat) (v : Octets) : (writeMem s a v).power = s.power := rfl
@[simp] theorem writeMem_prbs (s : State) (a : Nat) (v : Octets) : (writeMem s a v).prbs = s.prbs := rfl
@[simp] theorem writeMem_tap (s : State) (a : Nat) (v : Octets) : (writeMem s a v).tap = s.tap := rfl

/-! ### setEcc -/

@[simp] theorem setEcc_pending (s : State) (w v : Nat) : (setEcc s w v).pending = s.pending := rfl
@[simp] theorem setEcc_part (s : State) (w v : Nat) : (setEcc s w v).part = s.part := rfl
@[simp] theorem setEcc_tb (s : State) (w v : Nat) : (setEcc s w v).tb = s.tb := rfl
@[simp] theorem setEcc_free (s : State) (w v : Nat) : (setEcc s w v).free = s.free := rfl
@[simp] theorem setEcc_cores (s : State) (w v : Nat) : (setEcc s w v).cores = s.cores := rfl
@[simp] theorem setEcc_clusters (s : State) (w v : Nat) : (setEcc s w v).clusters = s.clusters := rfl
@[simp] theorem setEcc_quads (s : State) (w v : Nat) : (setEcc s w v).quads = s.quads := rfl
@[simp] theorem setEcc_beams (s : State) (w v : Nat) : (setEcc s w v).beams = s.beams := rfl
@[simp] theorem setEcc_facets (s : State) (w v : Nat) : (setEcc s w v).facets = s.facets := rfl
@[simp] theorem setEcc_fabric (s : State) (w v : Nat) : (setEcc s w v).fabric = s.fabric := rfl
@[simp] theorem setEcc_rfx (s : State) (w v : Nat) : (setEcc s w v).rfx = s.rfx := rfl
@[simp] theorem setEcc_foster (s : State) (w v : Nat) : (setEcc s w v).foster = s.foster := rfl
@[simp] theorem setEcc_nextId (s : State) (w v : Nat) : (setEcc s w v).nextId = s.nextId := rfl
@[simp] theorem setEcc_mem (s : State) (w v : Nat) : (setEcc s w v).mem = s.mem := rfl
@[simp] theorem setEcc_router (s : State) (w v : Nat) : (setEcc s w v).router = s.router := rfl
@[simp] theorem setEcc_active (s : State) (w v : Nat) : (setEcc s w v).active = s.active := rfl
@[simp] theorem setEcc_mhist (s : State) (w v : Nat) : (setEcc s w v).mhist = s.mhist := rfl
@[simp] theorem setEcc_ent (s : State) (w v : Nat) : (setEcc s w v).ent = s.ent := rfl
@[simp] theorem setEcc_errs (s : State) (w v : Nat) : (setEcc s w v).errs = s.errs := rfl
@[simp] theorem setEcc_emerg (s : State) (w v : Nat) : (setEcc s w v).emerg = s.emerg := rfl
@[simp] theorem setEcc_rdata (s : State) (w v : Nat) : (setEcc s w v).rdata = s.rdata := rfl
@[simp] theorem setEcc_lastAbort (s : State) (w v : Nat) : (setEcc s w v).lastAbort = s.lastAbort := rfl
@[simp] theorem setEcc_polisher (s : State) (w v : Nat) : (setEcc s w v).polisher = s.polisher := rfl
@[simp] theorem setEcc_keys (s : State) (w v : Nat) : (setEcc s w v).keys = s.keys := rfl
@[simp] theorem setEcc_chain (s : State) (w v : Nat) : (setEcc s w v).chain = s.chain := rfl
@[simp] theorem setEcc_node (s : State) (w v : Nat) : (setEcc s w v).node = s.node := rfl
@[simp] theorem setEcc_chans (s : State) (w v : Nat) : (setEcc s w v).chans = s.chans := rfl
@[simp] theorem setEcc_iris (s : State) (w v : Nat) : (setEcc s w v).iris = s.iris := rfl
@[simp] theorem setEcc_clock (s : State) (w v : Nat) : (setEcc s w v).clock = s.clock := rfl
@[simp] theorem setEcc_cal (s : State) (w v : Nat) : (setEcc s w v).cal = s.cal := rfl
@[simp] theorem setEcc_edp (s : State) (w v : Nat) : (setEcc s w v).edp = s.edp := rfl
@[simp] theorem setEcc_img (s : State) (w v : Nat) : (setEcc s w v).img = s.img := rfl
@[simp] theorem setEcc_power (s : State) (w v : Nat) : (setEcc s w v).power = s.power := rfl
@[simp] theorem setEcc_prbs (s : State) (w v : Nat) : (setEcc s w v).prbs = s.prbs := rfl
@[simp] theorem setEcc_tap (s : State) (w v : Nat) : (setEcc s w v).tap = s.tap := rfl

/-! ### setEnt -/

@[simp] theorem setEnt_pending (s : State) (idx sub v : Nat) : (setEnt s idx sub v).pending = s.pending := rfl
@[simp] theorem setEnt_part (s : State) (idx sub v : Nat) : (setEnt s idx sub v).part = s.part := rfl
@[simp] theorem setEnt_tb (s : State) (idx sub v : Nat) : (setEnt s idx sub v).tb = s.tb := rfl
@[simp] theorem setEnt_free (s : State) (idx sub v : Nat) : (setEnt s idx sub v).free = s.free := rfl
@[simp] theorem setEnt_cores (s : State) (idx sub v : Nat) : (setEnt s idx sub v).cores = s.cores := rfl
@[simp] theorem setEnt_clusters (s : State) (idx sub v : Nat) : (setEnt s idx sub v).clusters = s.clusters := rfl
@[simp] theorem setEnt_quads (s : State) (idx sub v : Nat) : (setEnt s idx sub v).quads = s.quads := rfl
@[simp] theorem setEnt_beams (s : State) (idx sub v : Nat) : (setEnt s idx sub v).beams = s.beams := rfl
@[simp] theorem setEnt_facets (s : State) (idx sub v : Nat) : (setEnt s idx sub v).facets = s.facets := rfl
@[simp] theorem setEnt_fabric (s : State) (idx sub v : Nat) : (setEnt s idx sub v).fabric = s.fabric := rfl
@[simp] theorem setEnt_rfx (s : State) (idx sub v : Nat) : (setEnt s idx sub v).rfx = s.rfx := rfl
@[simp] theorem setEnt_foster (s : State) (idx sub v : Nat) : (setEnt s idx sub v).foster = s.foster := rfl
@[simp] theorem setEnt_nextId (s : State) (idx sub v : Nat) : (setEnt s idx sub v).nextId = s.nextId := rfl
@[simp] theorem setEnt_mem (s : State) (idx sub v : Nat) : (setEnt s idx sub v).mem = s.mem := rfl
@[simp] theorem setEnt_ecc (s : State) (idx sub v : Nat) : (setEnt s idx sub v).ecc = s.ecc := rfl
@[simp] theorem setEnt_router (s : State) (idx sub v : Nat) : (setEnt s idx sub v).router = s.router := rfl
@[simp] theorem setEnt_active (s : State) (idx sub v : Nat) : (setEnt s idx sub v).active = s.active := rfl
@[simp] theorem setEnt_mhist (s : State) (idx sub v : Nat) : (setEnt s idx sub v).mhist = s.mhist := rfl
@[simp] theorem setEnt_errs (s : State) (idx sub v : Nat) : (setEnt s idx sub v).errs = s.errs := rfl
@[simp] theorem setEnt_emerg (s : State) (idx sub v : Nat) : (setEnt s idx sub v).emerg = s.emerg := rfl
@[simp] theorem setEnt_rdata (s : State) (idx sub v : Nat) : (setEnt s idx sub v).rdata = s.rdata := rfl
@[simp] theorem setEnt_lastAbort (s : State) (idx sub v : Nat) : (setEnt s idx sub v).lastAbort = s.lastAbort := rfl
@[simp] theorem setEnt_polisher (s : State) (idx sub v : Nat) : (setEnt s idx sub v).polisher = s.polisher := rfl
@[simp] theorem setEnt_keys (s : State) (idx sub v : Nat) : (setEnt s idx sub v).keys = s.keys := rfl
@[simp] theorem setEnt_chain (s : State) (idx sub v : Nat) : (setEnt s idx sub v).chain = s.chain := rfl
@[simp] theorem setEnt_node (s : State) (idx sub v : Nat) : (setEnt s idx sub v).node = s.node := rfl
@[simp] theorem setEnt_chans (s : State) (idx sub v : Nat) : (setEnt s idx sub v).chans = s.chans := rfl
@[simp] theorem setEnt_iris (s : State) (idx sub v : Nat) : (setEnt s idx sub v).iris = s.iris := rfl
@[simp] theorem setEnt_clock (s : State) (idx sub v : Nat) : (setEnt s idx sub v).clock = s.clock := rfl
@[simp] theorem setEnt_cal (s : State) (idx sub v : Nat) : (setEnt s idx sub v).cal = s.cal := rfl
@[simp] theorem setEnt_edp (s : State) (idx sub v : Nat) : (setEnt s idx sub v).edp = s.edp := rfl
@[simp] theorem setEnt_img (s : State) (idx sub v : Nat) : (setEnt s idx sub v).img = s.img := rfl
@[simp] theorem setEnt_power (s : State) (idx sub v : Nat) : (setEnt s idx sub v).power = s.power := rfl
@[simp] theorem setEnt_prbs (s : State) (idx sub v : Nat) : (setEnt s idx sub v).prbs = s.prbs := rfl
@[simp] theorem setEnt_tap (s : State) (idx sub v : Nat) : (setEnt s idx sub v).tap = s.tap := rfl

/-! ### raise -/

@[simp] theorem raise_pending (s : State) (src : Nat) : (raise s src).pending = s.pending := rfl
@[simp] theorem raise_part (s : State) (src : Nat) : (raise s src).part = s.part := rfl
@[simp] theorem raise_tb (s : State) (src : Nat) : (raise s src).tb = s.tb := rfl
@[simp] theorem raise_free (s : State) (src : Nat) : (raise s src).free = s.free := rfl
@[simp] theorem raise_cores (s : State) (src : Nat) : (raise s src).cores = s.cores := rfl
@[simp] theorem raise_clusters (s : State) (src : Nat) : (raise s src).clusters = s.clusters := rfl
@[simp] theorem raise_quads (s : State) (src : Nat) : (raise s src).quads = s.quads := rfl
@[simp] theorem raise_beams (s : State) (src : Nat) : (raise s src).beams = s.beams := rfl
@[simp] theorem raise_facets (s : State) (src : Nat) : (raise s src).facets = s.facets := rfl
@[simp] theorem raise_fabric (s : State) (src : Nat) : (raise s src).fabric = s.fabric := rfl
@[simp] theorem raise_rfx (s : State) (src : Nat) : (raise s src).rfx = s.rfx := rfl
@[simp] theorem raise_foster (s : State) (src : Nat) : (raise s src).foster = s.foster := rfl
@[simp] theorem raise_nextId (s : State) (src : Nat) : (raise s src).nextId = s.nextId := rfl
@[simp] theorem raise_mem (s : State) (src : Nat) : (raise s src).mem = s.mem := rfl
@[simp] theorem raise_ecc (s : State) (src : Nat) : (raise s src).ecc = s.ecc := rfl
@[simp] theorem raise_active (s : State) (src : Nat) : (raise s src).active = s.active := rfl
@[simp] theorem raise_mhist (s : State) (src : Nat) : (raise s src).mhist = s.mhist := rfl
@[simp] theorem raise_ent (s : State) (src : Nat) : (raise s src).ent = s.ent := rfl
@[simp] theorem raise_errs (s : State) (src : Nat) : (raise s src).errs = s.errs := rfl
@[simp] theorem raise_emerg (s : State) (src : Nat) : (raise s src).emerg = s.emerg := rfl
@[simp] theorem raise_rdata (s : State) (src : Nat) : (raise s src).rdata = s.rdata := rfl
@[simp] theorem raise_lastAbort (s : State) (src : Nat) : (raise s src).lastAbort = s.lastAbort := rfl
@[simp] theorem raise_polisher (s : State) (src : Nat) : (raise s src).polisher = s.polisher := rfl
@[simp] theorem raise_keys (s : State) (src : Nat) : (raise s src).keys = s.keys := rfl
@[simp] theorem raise_chain (s : State) (src : Nat) : (raise s src).chain = s.chain := rfl
@[simp] theorem raise_node (s : State) (src : Nat) : (raise s src).node = s.node := rfl
@[simp] theorem raise_chans (s : State) (src : Nat) : (raise s src).chans = s.chans := rfl
@[simp] theorem raise_iris (s : State) (src : Nat) : (raise s src).iris = s.iris := rfl
@[simp] theorem raise_clock (s : State) (src : Nat) : (raise s src).clock = s.clock := rfl
@[simp] theorem raise_cal (s : State) (src : Nat) : (raise s src).cal = s.cal := rfl
@[simp] theorem raise_edp (s : State) (src : Nat) : (raise s src).edp = s.edp := rfl
@[simp] theorem raise_img (s : State) (src : Nat) : (raise s src).img = s.img := rfl
@[simp] theorem raise_power (s : State) (src : Nat) : (raise s src).power = s.power := rfl
@[simp] theorem raise_prbs (s : State) (src : Nat) : (raise s src).prbs = s.prbs := rfl
@[simp] theorem raise_tap (s : State) (src : Nat) : (raise s src).tap = s.tap := rfl

/-! ### One resource after an update -/

@[simp] theorem getCore_setCore (s : State) (i : Nat) (v : LensCore) : getCore (setCore s i v) i = v := Tab.get_put_same ..

theorem getCore_setCore_ne (s : State) {i j : Nat} (h : j ≠ i) (v : LensCore) : getCore (setCore s i v) j = getCore s j := Tab.get_put_ne _ h ..

@[simp] theorem setCore_setCore (s : State) (i : Nat) (v w : LensCore) : setCore (setCore s i w) i v = setCore s i v := by
  simp only [setCore, Tab.put_put]

@[simp] theorem getCore_modCore (s : State) (i : Nat) (f : LensCore → LensCore) : getCore (modCore s i f) i = f (getCore s i) := Tab.get_put_same ..

theorem getCore_modCore_ne (s : State) {i j : Nat} (h : j ≠ i) (f : LensCore → LensCore) : getCore (modCore s i f) j = getCore s j := Tab.get_put_ne _ h ..

@[simp] theorem modCore_setCore (s : State) (i : Nat) (v : LensCore) (f : LensCore → LensCore) : modCore (setCore s i v) i f = setCore s i (f v) := by
  rw [modCore, getCore_setCore, setCore_setCore]

@[simp] theorem getCore_setCluster (s : State) (i : Nat) (c : Nat) (v : Cluster) : getCore (setCluster s c v) i = getCore s i := rfl
@[simp] theorem getCore_setQuad (s : State) (i : Nat) (q : Nat) (v : Quad) : getCore (setQuad s q v) i = getCore s i := rfl
@[simp] theorem getCore_setBeam (s : State) (i : Nat) (b : Nat) (v : BeamCtx) : getCore (setBeam s b v) i = getCore s i := rfl
@[simp] theorem getCore_setFacet (s : State) (i : Nat) (p : Nat) (f : Facet) : getCore (setFacet s p f) i = getCore s i := rfl
@[simp] theorem getCore_setChan (s : State) (i : Nat) (j : Nat) (x : Channel) : getCore (setChan s j x) i = getCore s i := rfl
@[simp] theorem getCore_setRawWord (s : State) (i : Nat) (w : Nat) (v : BitVec 64) : getCore (setRawWord s w v) i = getCore s i := rfl
@[simp] theorem getCore_writeMem (s : State) (i : Nat) (a : Nat) (v : Octets) : getCore (writeMem s a v) i = getCore s i := rfl
@[simp] theorem getCore_setEcc (s : State) (i : Nat) (w v : Nat) : getCore (setEcc s w v) i = getCore s i := rfl
@[simp] theorem getCore_setEnt (s : State) (i : Nat) (idx sub v : Nat) : getCore (setEnt s idx sub v) i = getCore s i := rfl
@[simp] theorem getCore_raise (s : State) (i : Nat) (src : Nat) : getCore (raise s src) i = getCore s i := rfl

@[simp] theorem getCluster_setCluster (s : State) (i : Nat) (v : Cluster) : getCluster (setCluster s i v) i = v := Tab.get_put_same ..

theorem getCluster_setCluster_ne (s : State) {i j : Nat} (h : j ≠ i) (v : Cluster) : getCluster (setCluster s i v) j = getCluster s j := Tab.get_put_ne _ h ..

@[simp] theorem setCluster_setCluster (s : State) (i : Nat) (v w : Cluster) : setCluster (setCluster s i w) i v = setCluster s i v := by
  simp only [setCluster, Tab.put_put]

@[simp] theorem getCluster_modCluster (s : State) (i : Nat) (f : Cluster → Cluster) : getCluster (modCluster s i f) i = f (getCluster s i) := Tab.get_put_same ..

theorem getCluster_modCluster_ne (s : State) {i j : Nat} (h : j ≠ i) (f : Cluster → Cluster) : getCluster (modCluster s i f) j = getCluster s j := Tab.get_put_ne _ h ..

@[simp] theorem modCluster_setCluster (s : State) (i : Nat) (v : Cluster) (f : Cluster → Cluster) : modCluster (setCluster s i v) i f = setCluster s i (f v) := by
  rw [modCluster, getCluster_setCluster, setCluster_setCluster]

@[simp] theorem getCluster_setCore (s : State) (i : Nat) (j : Nat) (k : LensCore) : getCluster (setCore s j k) i = getCluster s i := rfl
@[simp] theorem getCluster_setQuad (s : State) (i : Nat) (q : Nat) (v : Quad) : getCluster (setQuad s q v) i = getCluster s i := rfl
@[simp] theorem getCluster_setBeam (s : State) (i : Nat) (b : Nat) (v : BeamCtx) : getCluster (setBeam s b v) i = getCluster s i := rfl
@[simp] theorem getCluster_setFacet (s : State) (i : Nat) (p : Nat) (f : Facet) : getCluster (setFacet s p f) i = getCluster s i := rfl
@[simp] theorem getCluster_setChan (s : State) (i : Nat) (j : Nat) (x : Channel) : getCluster (setChan s j x) i = getCluster s i := rfl
@[simp] theorem getCluster_setRawWord (s : State) (i : Nat) (w : Nat) (v : BitVec 64) : getCluster (setRawWord s w v) i = getCluster s i := rfl
@[simp] theorem getCluster_writeMem (s : State) (i : Nat) (a : Nat) (v : Octets) : getCluster (writeMem s a v) i = getCluster s i := rfl
@[simp] theorem getCluster_setEcc (s : State) (i : Nat) (w v : Nat) : getCluster (setEcc s w v) i = getCluster s i := rfl
@[simp] theorem getCluster_setEnt (s : State) (i : Nat) (idx sub v : Nat) : getCluster (setEnt s idx sub v) i = getCluster s i := rfl
@[simp] theorem getCluster_raise (s : State) (i : Nat) (src : Nat) : getCluster (raise s src) i = getCluster s i := rfl

@[simp] theorem getQuad_setQuad (s : State) (i : Nat) (v : Quad) : getQuad (setQuad s i v) i = v := Tab.get_put_same ..

theorem getQuad_setQuad_ne (s : State) {i j : Nat} (h : j ≠ i) (v : Quad) : getQuad (setQuad s i v) j = getQuad s j := Tab.get_put_ne _ h ..

@[simp] theorem setQuad_setQuad (s : State) (i : Nat) (v w : Quad) : setQuad (setQuad s i w) i v = setQuad s i v := by
  simp only [setQuad, Tab.put_put]

@[simp] theorem getQuad_modQuad (s : State) (i : Nat) (f : Quad → Quad) : getQuad (modQuad s i f) i = f (getQuad s i) := Tab.get_put_same ..

theorem getQuad_modQuad_ne (s : State) {i j : Nat} (h : j ≠ i) (f : Quad → Quad) : getQuad (modQuad s i f) j = getQuad s j := Tab.get_put_ne _ h ..

@[simp] theorem modQuad_setQuad (s : State) (i : Nat) (v : Quad) (f : Quad → Quad) : modQuad (setQuad s i v) i f = setQuad s i (f v) := by
  rw [modQuad, getQuad_setQuad, setQuad_setQuad]

@[simp] theorem getQuad_setCore (s : State) (i : Nat) (j : Nat) (k : LensCore) : getQuad (setCore s j k) i = getQuad s i := rfl
@[simp] theorem getQuad_setCluster (s : State) (i : Nat) (c : Nat) (v : Cluster) : getQuad (setCluster s c v) i = getQuad s i := rfl
@[simp] theorem getQuad_setBeam (s : State) (i : Nat) (b : Nat) (v : BeamCtx) : getQuad (setBeam s b v) i = getQuad s i := rfl
@[simp] theorem getQuad_setFacet (s : State) (i : Nat) (p : Nat) (f : Facet) : getQuad (setFacet s p f) i = getQuad s i := rfl
@[simp] theorem getQuad_setChan (s : State) (i : Nat) (j : Nat) (x : Channel) : getQuad (setChan s j x) i = getQuad s i := rfl
@[simp] theorem getQuad_setRawWord (s : State) (i : Nat) (w : Nat) (v : BitVec 64) : getQuad (setRawWord s w v) i = getQuad s i := rfl
@[simp] theorem getQuad_writeMem (s : State) (i : Nat) (a : Nat) (v : Octets) : getQuad (writeMem s a v) i = getQuad s i := rfl
@[simp] theorem getQuad_setEcc (s : State) (i : Nat) (w v : Nat) : getQuad (setEcc s w v) i = getQuad s i := rfl
@[simp] theorem getQuad_setEnt (s : State) (i : Nat) (idx sub v : Nat) : getQuad (setEnt s idx sub v) i = getQuad s i := rfl
@[simp] theorem getQuad_raise (s : State) (i : Nat) (src : Nat) : getQuad (raise s src) i = getQuad s i := rfl

@[simp] theorem getBeam_setBeam (s : State) (i : Nat) (v : BeamCtx) : getBeam (setBeam s i v) i = v := Tab.get_put_same ..

theorem getBeam_setBeam_ne (s : State) {i j : Nat} (h : j ≠ i) (v : BeamCtx) : getBeam (setBeam s i v) j = getBeam s j := Tab.get_put_ne _ h ..

@[simp] theorem setBeam_setBeam (s : State) (i : Nat) (v w : BeamCtx) : setBeam (setBeam s i w) i v = setBeam s i v := by
  simp only [setBeam, Tab.put_put]

@[simp] theorem getBeam_modBeam (s : State) (i : Nat) (f : BeamCtx → BeamCtx) : getBeam (modBeam s i f) i = f (getBeam s i) := Tab.get_put_same ..

theorem getBeam_modBeam_ne (s : State) {i j : Nat} (h : j ≠ i) (f : BeamCtx → BeamCtx) : getBeam (modBeam s i f) j = getBeam s j := Tab.get_put_ne _ h ..

@[simp] theorem modBeam_setBeam (s : State) (i : Nat) (v : BeamCtx) (f : BeamCtx → BeamCtx) : modBeam (setBeam s i v) i f = setBeam s i (f v) := by
  rw [modBeam, getBeam_setBeam, setBeam_setBeam]

@[simp] theorem getBeam_setCore (s : State) (i : Nat) (j : Nat) (k : LensCore) : getBeam (setCore s j k) i = getBeam s i := rfl
@[simp] theorem getBeam_setCluster (s : State) (i : Nat) (c : Nat) (v : Cluster) : getBeam (setCluster s c v) i = getBeam s i := rfl
@[simp] theorem getBeam_setQuad (s : State) (i : Nat) (q : Nat) (v : Quad) : getBeam (setQuad s q v) i = getBeam s i := rfl
@[simp] theorem getBeam_setFacet (s : State) (i : Nat) (p : Nat) (f : Facet) : getBeam (setFacet s p f) i = getBeam s i := rfl
@[simp] theorem getBeam_setChan (s : State) (i : Nat) (j : Nat) (x : Channel) : getBeam (setChan s j x) i = getBeam s i := rfl
@[simp] theorem getBeam_setRawWord (s : State) (i : Nat) (w : Nat) (v : BitVec 64) : getBeam (setRawWord s w v) i = getBeam s i := rfl
@[simp] theorem getBeam_writeMem (s : State) (i : Nat) (a : Nat) (v : Octets) : getBeam (writeMem s a v) i = getBeam s i := rfl
@[simp] theorem getBeam_setEcc (s : State) (i : Nat) (w v : Nat) : getBeam (setEcc s w v) i = getBeam s i := rfl
@[simp] theorem getBeam_setEnt (s : State) (i : Nat) (idx sub v : Nat) : getBeam (setEnt s idx sub v) i = getBeam s i := rfl
@[simp] theorem getBeam_raise (s : State) (i : Nat) (src : Nat) : getBeam (raise s src) i = getBeam s i := rfl

@[simp] theorem getFacet_setFacet (s : State) (i : Nat) (v : Facet) : getFacet (setFacet s i v) i = v := Tab.get_put_same ..

theorem getFacet_setFacet_ne (s : State) {i j : Nat} (h : j ≠ i) (v : Facet) : getFacet (setFacet s i v) j = getFacet s j := Tab.get_put_ne _ h ..

@[simp] theorem setFacet_setFacet (s : State) (i : Nat) (v w : Facet) : setFacet (setFacet s i w) i v = setFacet s i v := by
  simp only [setFacet, Tab.put_put]

@[simp] theorem getFacet_modFacet (s : State) (i : Nat) (f : Facet → Facet) : getFacet (modFacet s i f) i = f (getFacet s i) := Tab.get_put_same ..

theorem getFacet_modFacet_ne (s : State) {i j : Nat} (h : j ≠ i) (f : Facet → Facet) : getFacet (modFacet s i f) j = getFacet s j := Tab.get_put_ne _ h ..

@[simp] theorem modFacet_setFacet (s : State) (i : Nat) (v : Facet) (f : Facet → Facet) : modFacet (setFacet s i v) i f = setFacet s i (f v) := by
  rw [modFacet, getFacet_setFacet, setFacet_setFacet]

@[simp] theorem getFacet_setCore (s : State) (i : Nat) (j : Nat) (k : LensCore) : getFacet (setCore s j k) i = getFacet s i := rfl
@[simp] theorem getFacet_setCluster (s : State) (i : Nat) (c : Nat) (v : Cluster) : getFacet (setCluster s c v) i = getFacet s i := rfl
@[simp] theorem getFacet_setQuad (s : State) (i : Nat) (q : Nat) (v : Quad) : getFacet (setQuad s q v) i = getFacet s i := rfl
@[simp] theorem getFacet_setBeam (s : State) (i : Nat) (b : Nat) (v : BeamCtx) : getFacet (setBeam s b v) i = getFacet s i := rfl
@[simp] theorem getFacet_setChan (s : State) (i : Nat) (j : Nat) (x : Channel) : getFacet (setChan s j x) i = getFacet s i := rfl
@[simp] theorem getFacet_setRawWord (s : State) (i : Nat) (w : Nat) (v : BitVec 64) : getFacet (setRawWord s w v) i = getFacet s i := rfl
@[simp] theorem getFacet_writeMem (s : State) (i : Nat) (a : Nat) (v : Octets) : getFacet (writeMem s a v) i = getFacet s i := rfl
@[simp] theorem getFacet_setEcc (s : State) (i : Nat) (w v : Nat) : getFacet (setEcc s w v) i = getFacet s i := rfl
@[simp] theorem getFacet_setEnt (s : State) (i : Nat) (idx sub v : Nat) : getFacet (setEnt s idx sub v) i = getFacet s i := rfl
@[simp] theorem getFacet_raise (s : State) (i : Nat) (src : Nat) : getFacet (raise s src) i = getFacet s i := rfl

@[simp] theorem getChan_setChan (s : State) (i : Nat) (v : Channel) : getChan (setChan s i v) i = v := Tab.get_put_same ..

theorem getChan_setChan_ne (s : State) {i j : Nat} (h : j ≠ i) (v : Channel) : getChan (setChan s i v) j = getChan s j := Tab.get_put_ne _ h ..

@[simp] theorem setChan_setChan (s : State) (i : Nat) (v w : Channel) : setChan (setChan s i w) i v = setChan s i v := by
  simp only [setChan, Tab.put_put]

@[simp] theorem getChan_modChan (s : State) (i : Nat) (f : Channel → Channel) : getChan (modChan s i f) i = f (getChan s i) := Tab.get_put_same ..

theorem getChan_modChan_ne (s : State) {i j : Nat} (h : j ≠ i) (f : Channel → Channel) : getChan (modChan s i f) j = getChan s j := Tab.get_put_ne _ h ..

@[simp] theorem modChan_setChan (s : State) (i : Nat) (v : Channel) (f : Channel → Channel) : modChan (setChan s i v) i f = setChan s i (f v) := by
  rw [modChan, getChan_setChan, setChan_setChan]

@[simp] theorem getChan_setCore (s : State) (i : Nat) (j : Nat) (k : LensCore) : getChan (setCore s j k) i = getChan s i := rfl
@[simp] theorem getChan_setCluster (s : State) (i : Nat) (c : Nat) (v : Cluster) : getChan (setCluster s c v) i = getChan s i := rfl
@[simp] theorem getChan_setQuad (s : State) (i : Nat) (q : Nat) (v : Quad) : getChan (setQuad s q v) i = getChan s i := rfl
@[simp] theorem getChan_setBeam (s : State) (i : Nat) (b : Nat) (v : BeamCtx) : getChan (setBeam s b v) i = getChan s i := rfl
@[simp] theorem getChan_setFacet (s : State) (i : Nat) (p : Nat) (f : Facet) : getChan (setFacet s p f) i = getChan s i := rfl
@[simp] theorem getChan_setRawWord (s : State) (i : Nat) (w : Nat) (v : BitVec 64) : getChan (setRawWord s w v) i = getChan s i := rfl
@[simp] theorem getChan_writeMem (s : State) (i : Nat) (a : Nat) (v : Octets) : getChan (writeMem s a v) i = getChan s i := rfl
@[simp] theorem getChan_setEcc (s : State) (i : Nat) (w v : Nat) : getChan (setEcc s w v) i = getChan s i := rfl
@[simp] theorem getChan_setEnt (s : State) (i : Nat) (idx sub v : Nat) : getChan (setEnt s idx sub v) i = getChan s i := rfl
@[simp] theorem getChan_raise (s : State) (i : Nat) (src : Nat) : getChan (raise s src) i = getChan s i := rfl

/-! ### One core after an update -/

@[simp] theorem sk_setSk (k : LensCore) (c : Nat) (v : Word) : sk (setSk k c v) c = v := Tab.get_put_same ..

theorem sk_setSk_ne (k : LensCore) {c d : Nat} (h : d ≠ c) (v : Word) : sk (setSk k c v) d = sk k d := Tab.get_put_ne _ h ..

@[simp] theorem setSk_g (k : LensCore) (c : Nat) (v : Word) : (setSk k c v).g = k.g := rfl
@[simp] theorem setSk_bits (k : LensCore) (c : Nat) (v : Word) : (setSk k c v).bits = k.bits := rfl
@[simp] theorem setSk_r (k : LensCore) (c : Nat) (v : Word) : (setSk k c v).r = k.r := rfl
@[simp] theorem setSk_i (k : LensCore) (c : Nat) (v : Word) : (setSk k c v).i = k.i := rfl
@[simp] theorem setSk_e (k : LensCore) (c : Nat) (v : Word) : (setSk k c v).e = k.e := rfl
@[simp] theorem setSk_q (k : LensCore) (c : Nat) (v : Word) : (setSk k c v).q = k.q := rfl
@[simp] theorem setSk_lp (k : LensCore) (c : Nat) (v : Word) : (setSk k c v).lp = k.lp := rfl
@[simp] theorem setSk_st (k : LensCore) (c : Nat) (v : Word) : (setSk k c v).st = k.st := rfl
@[simp] theorem modIssue_g (k : LensCore) (h : Issue → Issue) : (modIssue k h).g = k.g := rfl
@[simp] theorem modIssue_bits (k : LensCore) (h : Issue → Issue) : (modIssue k h).bits = k.bits := rfl
@[simp] theorem modIssue_r (k : LensCore) (h : Issue → Issue) : (modIssue k h).r = k.r := rfl
@[simp] theorem modIssue_u (k : LensCore) (h : Issue → Issue) : (modIssue k h).u = k.u := rfl
@[simp] theorem modIssue_e (k : LensCore) (h : Issue → Issue) : (modIssue k h).e = k.e := rfl
@[simp] theorem modIssue_q (k : LensCore) (h : Issue → Issue) : (modIssue k h).q = k.q := rfl
@[simp] theorem modIssue_lp (k : LensCore) (h : Issue → Issue) : (modIssue k h).lp = k.lp := rfl
@[simp] theorem modIssue_st (k : LensCore) (h : Issue → Issue) : (modIssue k h).st = k.st := rfl
@[simp] theorem modIssue_i (k : LensCore) (h : Issue → Issue) : (modIssue k h).i = h k.i := rfl
@[simp] theorem setPbit_g (k : LensCore) (b : Nat) (v : Bool) : (setPbit k b v).g = k.g := by
  unfold setPbit
  split <;> rfl
@[simp] theorem setPbit_r (k : LensCore) (b : Nat) (v : Bool) : (setPbit k b v).r = k.r := by
  unfold setPbit
  split <;> rfl
@[simp] theorem setPbit_u (k : LensCore) (b : Nat) (v : Bool) : (setPbit k b v).u = k.u := by
  unfold setPbit
  split <;> rfl
@[simp] theorem setPbit_i (k : LensCore) (b : Nat) (v : Bool) : (setPbit k b v).i = k.i := by
  unfold setPbit
  split <;> rfl
@[simp] theorem setPbit_e (k : LensCore) (b : Nat) (v : Bool) : (setPbit k b v).e = k.e := by
  unfold setPbit
  split <;> rfl
@[simp] theorem setPbit_q (k : LensCore) (b : Nat) (v : Bool) : (setPbit k b v).q = k.q := by
  unfold setPbit
  split <;> rfl
@[simp] theorem setPbit_lp (k : LensCore) (b : Nat) (v : Bool) : (setPbit k b v).lp = k.lp := by
  unfold setPbit
  split <;> rfl
@[simp] theorem setPbit_st (k : LensCore) (b : Nat) (v : Bool) : (setPbit k b v).st = k.st := by
  unfold setPbit
  split <;> rfl

end Sys2Proof.Machine
end

