-- ==== Sys2Proof/Laws/Solo.lean ====
section
/-! SUPPORT. What a trigger command comes to when no check fails and nothing holds it: one trigger, then the end of the step. -/

namespace Sys2Proof.Machine

/-- The move of a trigger command. -/
def soloMove (code : Nat) (a : Word) : Move := { slot := 0, second := false, inv := false, ksel := 0, src := .imm a, dst := code }

/-- The work of a trigger command of a unit other than ctl. -/
def soloWork (s : State) (n code : Nat) (a : Word) (o : Op) (p q : Nat) : Work :=
  { k1 := getCore s n, vs2 := [], reads := [], dsts := [code], trigs := [{ op := o, a, p, q, second := false }], off := (getCore s n).i.pc.toNat, size := 8,
    last := (getCore s n).i.pc.toNat, xfer := none, rep := none, skipped := none, delay := false }

/-- The end of a step that wrote no aperture and took no transfer, with its bundle at `off`. -/
def soloEnd (off : Nat) (k : LensCore) : LensCore :=
  let k1 := countStep k
  let k2 : LensCore := { k1 with
      i := { k1.i with drain := false, dueStep := none, wait5 := none, fence := false, first := false, resumeRep := false }
      lp := { k1.lp with pass := false, stepping := if k1.lp.stepping = 0 then 0 else 2 } }
  sequence k2 off (off + 8)

theorem soloTrigger_eq {s : State} {n : Nat} (h : takesTrigger s n = true) (code : Nat) (a : Word) :
    soloTrigger s n code a = issuePlan s n (planMoves s n [soloBundle s n code a] none) := by
  unfold takesTrigger at h
  unfold soloTrigger
  rw [if_pos h]

theorem guardOf_solo (k : LensCore) (code : Nat) (a : Word) : guardOf k (soloMove code a) = true := rfl

theorem trigOf_dst {code : Nat} {o : Op} (h : trigOf code = some o) : 0x200 ≤ code ∧ code < 0x400 := by
  unfold trigOf codeRole at h
  split at h
  · rename_i h1
    split at h1
    · assumption
    · cases h1
  · cases h

theorem planMoves_solo {s : State} {n code : Nat} {a : Word} {o : Op} {p q : Nat} (ht : trigOf code = some o) (h6 : o.unit ≠ 6)
    (hu : unitAbsent s code = false) (hd : hasDup (bitsWritten n (getCore s n) (soloMove code a) a) = false)
    (hh : trigHold s n (getCore s n) o a = .none) (hc : (trigCheck s n (getCore s n) o a).2 = .ok p q) :
    planMoves s n [soloBundle s n code a] none = .go (soloWork s n code a o p q) := by
  have hr := trigOf_dst ht
  have hsv : ¬ (0x480 ≤ code ∧ code < 0x500) := by omega
  have hf : userForbids code = false := by
    unfold userForbids
    rw [ht]
    cases o <;> simp_all [Op.unit]
  have hl : dstLegal code = true := by
    unfold dstLegal
    rw [ht]
    simp
  have hm : moveCheck s (isSup (getCore s n)) (soloMove code a) = none := by
    unfold moveCheck
    simp only [soloMove, hu, hf, hl, Option.any_none, Option.all_none, Bool.or_self, Bool.false_eq_true, if_false, Bool.not_true]
    simp
    intro _ h1
    have := of_decide_eq_true h1
    omega
  have hx : isTransfer (soloMove code a) = false := by
    have : code < 0x261 ∨ 0x265 < code := by
      by_contra hcon
      have h1 : 0x261 ≤ code := by omega
      have h2 : code ≤ 0x265 := by omega
      have : code = 0x261 ∨ code = 0x262 ∨ code = 0x263 ∨ code = 0x264 ∨ code = 0x265 := by omega
      rcases this with rfl | rfl | rfl | rfl | rfl <;> (simp [trigOf, codeRole, portRole] at ht; subst ht; exact h6 rfl)
    rw [Bool.eq_false_iff]
    intro hc
    have h2 := Bool.and_eq_true_iff.1 hc
    have h3 : 0x261 ≤ code := of_decide_eq_true h2.1
    have h4 : code ≤ 0x265 := of_decide_eq_true h2.2
    omega
  have hv : isView code = false := by
    simp only [isView, Bool.and_eq_false_iff, decide_eq_false_iff_not]
    omega
  have hct : isCtlTrig (soloMove code a) = false := by
    simp [isCtlTrig, soloMove, ht, h6]
  have hloop : code ≠ 0x268 := by
    rintro rfl
    simp [trigOf, codeRole, portRole] at ht
    subst ht
    exact h6 rfl
  have hb : (code = 0x100) = False := by
    simp only [eq_iff_iff, iff_false]
    omega
  have ht' : trigOf (soloMove code a).dst = some o := ht
  have hs : (soloMove code a).dst = code := rfl
  have hms : (soloBundle s n code a).ms = [soloMove code a] := rfl
  have hoff : (soloBundle s n code a).off = (getCore s n).i.pc.toNat := rfl
  have hsz : (soloBundle s n code a).size = 8 := rfl
  have hrd : readSrc s n (getCore s n) false (soloMove code a).src = .val a := rfl
  have hctl : (o == .ctl .eret) = false := by
    cases o <;> simp_all [Op.unit]
  have hwm : writeMoves (getCore s n) n [(soloMove code a, a)] = getCore s n := by
    simp [writeMoves, ht']
  have hsec : (soloMove code a).second = false := rfl
  have hck : checkTrigs s n (getCore s n) (getCore s n) [(soloMove code a, o, a)] = .inr [{ op := o, a, p, q, second := false }] := by
    unfold checkTrigs
    simp only [hsec, Bool.false_eq_true, if_false]
    split
    · rename_i h
      rw [h] at hc
      cases hc
    · rename_i h
      rw [h] at hc
      injection hc with h1 h2
      subst h1 h2
      rfl
  have hwn : writeMoves (getCore s n) n [] = getCore s n := rfl
  unfold planMoves
  simp only [hms, hsec, hwn, Bool.not_false, Option.bind_none, ite_self, hoff, hsz, List.flatMap_cons, List.flatMap_nil, List.append_nil, List.filter_cons, List.filter_nil, guardOf_solo, if_true,
    List.headD_cons, firstIllegal, List.findSome?_cons, List.findSome?_nil, hm, Option.map_none, firstConflict, hs, hb, if_false,
    List.contains_nil, Bool.false_eq_true, ht, Option.map_some, List.any_cons, List.any_nil, hx, Bool.or_false, readAll, List.map_cons,
    List.map_nil, Option.isSome_none, hrd, firstPoison, valuesOf, List.filterMap_cons, List.filterMap_nil, hwm, resultConflict, hd,
    loopChecks, hv, trigMoves, firstHold, hh, hck, hctl, Bool.false_and, List.foldl_cons, List.foldl_nil, srcCode]
  have hsrc : (soloMove code a).src = .imm a := rfl
  simp [hms, hct, hs, hloop, hsrc, soloWork]

theorem modCore_modCore (s : State) (n : Nat) (f g : LensCore → LensCore) : modCore (modCore s n f) n g = modCore s n fun k => g (f k) := by
  rw [modCore, getCore_modCore, modCore, setCore_setCore, modCore]

theorem perform_solo {s : State} {n code : Nat} {a : Word} {o : Op} {p q : Nat} (ht : trigOf code = some o) (h6 : o.unit ≠ 6) :
    perform s n (soloWork s n code a o p q) =
      modCore (trigDo s (setCore s n (getCore s n)) n (getCore s n) { op := o, a, p, q, second := false }) n (soloEnd (getCore s n).i.pc.toNat) := by
  have hr := trigOf_dst ht
  have hw : writesAp0 [code] = false := by
    have h1 : (code == 0x490) = false := by rw [beq_eq_false_iff_ne]; omega
    have h2 : (code == 0x498) = false := by rw [beq_eq_false_iff_ne]; omega
    have h3 : (code == 0x4A0) = false := by rw [beq_eq_false_iff_ne]; omega
    simp [writesAp0, h1, h2, h3]
  have hct : ∀ c, o ≠ .ctl c := by
    rintro c rfl
    exact h6 rfl
  unfold perform
  simp only [soloWork, List.contains_nil, Bool.false_eq_true, if_false, List.filter_cons, List.filter_nil, secondHalf, List.isEmpty_nil,
    Bool.and_self, List.foldl_cons, List.foldl_nil, hw, Bool.not_false, if_true]
  unfold afterStep
  cases o
  case ctl c => exact absurd rfl (hct c)
  all_goals
    simp only [List.findSome?_cons, List.findSome?_nil, Option.isSome_none, Bool.false_and, Bool.false_eq_true, if_false, modCore_modCore]
    rfl

/-- What a trigger command of a unit other than ctl does: its trigger, then the end of its step. -/
theorem soloTrigger_done {s : State} {n code : Nat} {a : Word} {o : Op} {p q : Nat} (h : takesTrigger s n = true) (ht : trigOf code = some o)
    (h6 : o.unit ≠ 6) (hu : unitAbsent s code = false) (hd : hasDup (bitsWritten n (getCore s n) (soloMove code a) a) = false)
    (hh : trigHold s n (getCore s n) o a = .none) (hc : (trigCheck s n (getCore s n) o a).2 = .ok p q) :
    soloTrigger s n code a =
      modCore (trigDo s (setCore s n (getCore s n)) n (getCore s n) { op := o, a, p, q, second := false }) n (soloEnd (getCore s n).i.pc.toNat) := by
  rw [soloTrigger_eq h, planMoves_solo ht h6 hu hd hh hc]
  exact perform_solo ht h6

/-- The loop-end check changes the loop counts alone (R132). -/
theorem loopEnd_keeps (p d : Nat) (k : LensCore) : (loopEnd p d k).1 = { k with r := { k.r with lc := (loopEnd p d k).1.r.lc } } := by
  induction d generalizing k with
  | zero => rfl
  | succ d ih =>
    unfold loopEnd
    split
    · split
      · rfl
      · exact (ih _).trans rfl
    · rfl

theorem sequence_keeps (k : LensCore) (p succ : Nat) :
    (sequence k p succ) = { k with r := { k.r with lc := (sequence k p succ).r.lc }, i := (sequence k p succ).i } ∧
    (sequence k p succ).i.run = k.i.run ∧ (sequence k p succ).i.steps = k.i.steps := by
  have h := loopEnd_keeps p (loopDepth k) k
  unfold sequence
  split
  · rename_i e
    rw [e] at h
    dsimp only at h
    rw [h]
    exact ⟨rfl, rfl, rfl⟩
  · rename_i e
    rw [e] at h
    dsimp only at h
    dsimp only
    split
    · rw [h]; exact ⟨rfl, rfl, rfl⟩
    · rw [h]; exact ⟨rfl, rfl, rfl⟩

/-- What the end of a step leaves alone, and that it leaves the units and the private bits alone. -/
theorem soloEnd_keeps (off : Nat) (k : LensCore) : CoreStep k (soloEnd off k) ∧ (soloEnd off k).u = k.u ∧ (soloEnd off k).bits = k.bits := by
  unfold soloEnd
  dsimp only
  generalize hk : LensCore.mk _ _ _ _ _ _ _ _ _ = k2
  have hs := sequence_keeps k2 off (off + 8)
  have hc : countStep k = { k with r := { k.r with hushRem := (countStep k).r.hushRem }, e := { k.e with hushEnd := (countStep k).e.hushEnd }, i := { k.i with steps := k.i.steps + 1 } } := by
    unfold countStep
    cases k.e.hushEnd <;> rfl
  have hk2 : k2.g = k.g ∧ k2.r = { k.r with hushRem := k2.r.hushRem } ∧ k2.q = k.q ∧ k2.st = k.st ∧ k2.e = { k.e with hushEnd := k2.e.hushEnd } ∧
      k2.lp = { k.lp with pass := false, stepping := k2.lp.stepping } ∧ k2.i.run = k.i.run ∧ k2.i.steps = k.i.steps + 1 ∧ k2.u = k.u ∧ k2.bits = k.bits := by
    rw [hc] at hk
    subst hk
    exact ⟨rfl, rfl, rfl, rfl, rfl, rfl, rfl, rfl, rfl, rfl⟩
  obtain ⟨h1, h2, h3, h4, h5, h6, h7, h8, h9, h10⟩ := hk2
  obtain ⟨s1, s2, s3⟩ := hs
  refine ⟨⟨?_, ?_, ?_, ?_, ?_, ?_, s2.trans h7, s3.trans h8⟩, ?_, ?_⟩
  · rw [s1]; exact h1
  · rw [s1]; dsimp only; rw [h2]
  · rw [s1]; exact h3
  · rw [s1]; exact h4
  · rw [s1]; exact h5
  · rw [s1]; exact h6
  · rw [s1]; exact h9
  · rw [s1]; exact h10

/-- A trigger command whose trigger changes the units and the private bits of its core alone. -/
theorem solo_unit_done {s : State} {n code : Nat} {a : Word} {o : Op} {p q : Nat} (h : takesTrigger s n = true) (ht : trigOf code = some o)
    (h6 : o.unit ≠ 6) (hu : unitAbsent s code = false) (hd : hasDup (bitsWritten n (getCore s n) (soloMove code a) a) = false)
    (hh : trigHold s n (getCore s n) o a = .none) (hc : (trigCheck s n (getCore s n) o a).2 = .ok p q) (c : Instr)
    (he : exec c s = .next (soloTrigger s n code a)) (k : LensCore)
    (hk : trigDo s (setCore s n (getCore s n)) n (getCore s n) { op := o, a, p, q, second := false } = setCore s n k)
    (hk' : k = { getCore s n with u := k.u, bits := k.bits }) : UnitDone s n c k.u k.bits := by
  rw [soloTrigger_done h ht h6 hu hd hh hc, hk] at he
  refine ⟨_, he, ⟨rfl, fun m hm => ?_⟩, ?_⟩
  · rw [modCore_setCore, getCore_setCore_ne _ hm]
  · rw [modCore_setCore, getCore_setCore]
    obtain ⟨h1, h2, h3⟩ := soloEnd_keeps (getCore s n).i.pc.toNat k
    refine ⟨?_, h2, h3⟩
    rw [hk'] at h1 ⊢
    obtain ⟨a1, a2, a3, a4, a5, a6, a7, a8⟩ := h1
    exact ⟨a1, a2, a3, a4, a5, a6, a7, a8⟩

/-- No trigger but an alu compare or a bitu operation writes a private bit. -/
theorem no_bits {n code : Nat} {k : LensCore} {a : Word} {o : Op} (ht : trigOf code = some o) (h : ∀ u c, o ≠ .alu u c) (h5 : ∀ b, o ≠ .bitu b) :
    hasDup (bitsWritten n k (soloMove code a) a) = false := by
  have hr := trigOf_dst ht
  have hcode : (soloMove code a).dst = code := rfl
  unfold bitsWritten
  rw [if_neg (by rw [hcode]; omega), hcode, ht]
  cases o with
  | alu u c => exact absurd rfl (h u c)
  | bitu b => exact absurd rfl (h5 b)
  | _ => rfl

end Sys2Proof.Machine
end

