-- ==== Sys2Proof/Laws/Sound.lean ====
section
/-! SUPPORT. How `Sound` passes from a state to the next: through updates of other fields, folds, pairs. -/

namespace Sys2Proof.Machine

/-- A state with any fields but the part, the fuses, memory and the timebase changed. -/
theorem Sound.upd {q : Part} {f : BitVec 257} {s : State} {pending : List Instr} {part : Part} {tb free : Nat} {cores : Tab LensCore}
    {clusters : Tab Cluster} {quads : Tab Quad} {beams : Tab BeamCtx} {facets : Tab Facet} {fabric : Fabric} {rfx : Reflex} {foster : Tab Nat}
    {nextId : Nat} {mem : List Host.Cell} {ecc : Tab Nat} {router : Router} {active : Option Nat} {mhist : List Corr} {ent : Tab Nat}
    {errs emerg : List ErrEntry} {rdata lastAbort : Option Word} {polisher : Polisher} {keys : Keys} {chain : Option Nat} {node : Nat}
    {chans : Tab Channel} {iris : Iris} {clock : Clock} {cal : Calendar} {edp : Edp} {img : Images} {power : Power} {prbs : Option Prbs}
    {tap : Tap} (h : Sound q f s) (h1 : part = s.part) (h2 : power.fuses = s.power.fuses) (h3 : power.loaded = s.power.loaded)
    (h4 : mem = s.mem) (h5 : tb = s.tb) :
    Sound q f (State.mk pending part tb free cores clusters quads beams facets fabric rfx foster nextId mem ecc router active mhist
      ent errs emerg rdata lastAbort polisher keys chain node chans iris clock cal edp img power prbs tap) :=
  ⟨h1.trans h.part, h2.symm ▸ h.grown, by rw [h2, h3]; exact h.loaded, h4.symm ▸ h.mem, h5.symm ▸ h.tb⟩

/-- A state with memory changed to another canonical one. -/
theorem Sound.mem_upd {q : Part} {f : BitVec 257} {s t : State} (h : Sound q f s) (h1 : t.part = s.part) (h2 : t.power = s.power)
    (h4 : Mem.wf t.mem = true) (h5 : t.tb = s.tb) : Sound q f t :=
  ⟨h1.trans h.part, h2.symm ▸ h.grown, by rw [h2]; exact h.loaded, h4, h5.symm ▸ h.tb⟩

theorem Sound.foldl {α : Type} {q : Part} {f : BitVec 257} {g : State → α → State} (l : List α) (s : State) (h : Sound q f s)
    (hg : ∀ t x, Sound q f t → Sound q f (g t x)) : Sound q f (l.foldl g s) := by
  induction l generalizing s with
  | nil => exact h
  | cons x xs ih => exact ih _ (hg s x h)

theorem Sound.foldl_fst {α β : Type} {q : Part} {f : BitVec 257} {g : State × β → α → State × β} (l : List α) (s : State × β)
    (h : Sound q f s.1) (hg : ∀ t x, Sound q f t.1 → Sound q f (g t x).1) : Sound q f (l.foldl g s).1 := by
  induction l generalizing s with
  | nil => exact h
  | cons x xs ih => exact ih _ (hg s x h)

theorem Sound.of_fst {α : Type} {q : Part} {f : BitVec 257} {x : State × α} {t : State} {y : α} (e : x = (t, y)) (h : Sound q f x.1) :
    Sound q f t := by
  rw [e] at h
  exact h

theorem soundOut_next {q : Part} {f : BitVec 257} {t : State} (h : Sound q f t) : SoundOut q f (.next t) := h

end Sys2Proof.Machine
end

