-- ==== Sys2Proof/Laws/SoundOps.lean ====
section
/-! SUPPORT. The definitions of Machine/Ops.lean keep what every step keeps. -/

set_option linter.unusedTactic false
set_option linter.unreachableTactic false
set_option linter.unusedVariables false

namespace Sys2Proof.Machine

theorem sound_setCore {q : Part} {f : BitVec 257} (s : State) (n : Nat) (k : LensCore) (hs : Sound q f s) : Sound q f (setCore s n k) := by
  unfold setCore
  try dsimp only
  repeat' (first
    | with_reducible assumption
    | (fail_if_no_progress (with_reducible refine Sound.upd ?_ rfl rfl rfl rfl rfl))
    | split
    | dsimp only)

theorem sound_modCore {q : Part} {f : BitVec 257} (s : State) (n : Nat) (f' : LensCore → LensCore) (hs : Sound q f s) : Sound q f (modCore s n f') := by
  unfold modCore
  try dsimp only
  repeat' (first
    | with_reducible assumption
    | with_reducible apply sound_setCore
    | (fail_if_no_progress (with_reducible refine Sound.upd ?_ rfl rfl rfl rfl rfl))
    | split
    | dsimp only)

theorem sound_setCluster {q : Part} {f : BitVec 257} (s : State) (c : Nat) (v : Cluster) (hs : Sound q f s) : Sound q f (setCluster s c v) := by
  unfold setCluster
  try dsimp only
  repeat' (first
    | with_reducible assumption
    | (fail_if_no_progress (with_reducible refine Sound.upd ?_ rfl rfl rfl rfl rfl))
    | split
    | dsimp only)

theorem sound_modCluster {q : Part} {f : BitVec 257} (s : State) (c : Nat) (f' : Cluster → Cluster) (hs : Sound q f s) : Sound q f (modCluster s c f') := by
  unfold modCluster
  try dsimp only
  repeat' (first
    | with_reducible assumption
    | with_reducible apply sound_setCluster
    | (fail_if_no_progress (with_reducible refine Sound.upd ?_ rfl rfl rfl rfl rfl))
    | split
    | dsimp only)

theorem sound_modBank {q : Part} {f : BitVec 257} (s : State) (c : Nat) (k : Nat) (f' : Bank → Bank) (hs : Sound q f s) : Sound q f (modBank s c k f') := by
  unfold modBank
  try dsimp only
  repeat' (first
    | with_reducible assumption
    | with_reducible apply sound_modCluster
    | (fail_if_no_progress (with_reducible refine Sound.upd ?_ rfl rfl rfl rfl rfl))
    | split
    | dsimp only)

theorem sound_setQuad {q : Part} {f : BitVec 257} (s : State) (q' : Nat) (v : Quad) (hs : Sound q f s) : Sound q f (setQuad s q' v) := by
  unfold setQuad
  try dsimp only
  repeat' (first
    | with_reducible assumption
    | (fail_if_no_progress (with_reducible refine Sound.upd ?_ rfl rfl rfl rfl rfl))
    | split
    | dsimp only)

theorem sound_modQuad {q : Part} {f : BitVec 257} (s : State) (q' : Nat) (f' : Quad → Quad) (hs : Sound q f s) : Sound q f (modQuad s q' f') := by
  unfold modQuad
  try dsimp only
  repeat' (first
    | with_reducible assumption
    | with_reducible apply sound_setQuad
    | (fail_if_no_progress (with_reducible refine Sound.upd ?_ rfl rfl rfl rfl rfl))
    | split
    | dsimp only)

theorem sound_setBeam {q : Part} {f : BitVec 257} (s : State) (b : Nat) (v : BeamCtx) (hs : Sound q f s) : Sound q f (setBeam s b v) := by
  unfold setBeam
  try dsimp only
  repeat' (first
    | with_reducible assumption
    | (fail_if_no_progress (with_reducible refine Sound.upd ?_ rfl rfl rfl rfl rfl))
    | split
    | dsimp only)

theorem sound_modBeam {q : Part} {f : BitVec 257} (s : State) (b : Nat) (f' : BeamCtx → BeamCtx) (hs : Sound q f s) : Sound q f (modBeam s b f') := by
  unfold modBeam
  try dsimp only
  repeat' (first
    | with_reducible assumption
    | with_reducible apply sound_setBeam
    | (fail_if_no_progress (with_reducible refine Sound.upd ?_ rfl rfl rfl rfl rfl))
    | split
    | dsimp only)

theorem sound_setRawWord {q : Part} {f : BitVec 257} (s : State) (w : Nat) (v : BitVec 64) (hs : Sound q f s) : Sound q f (setRawWord s w v) :=
  hs.mem_upd rfl rfl (Mem.wf_writeAll _ _ _ hs.mem) rfl

theorem sound_writeMem {q : Part} {f : BitVec 257} (s : State) (a : Nat) (v : Octets) (hs : Sound q f s) : Sound q f (writeMem s a v) :=
  hs.mem_upd rfl rfl (Mem.wf_writeAll _ _ _ hs.mem) rfl

theorem sound_setEcc {q : Part} {f : BitVec 257} (s : State) (w : Nat) (v : Nat) (hs : Sound q f s) : Sound q f (setEcc s w v) := by
  unfold setEcc
  try dsimp only
  repeat' (first
    | with_reducible assumption
    | (fail_if_no_progress (with_reducible refine Sound.upd ?_ rfl rfl rfl rfl rfl))
    | split
    | dsimp only)

theorem sound_setEnt {q : Part} {f : BitVec 257} (s : State) (idx : Nat) (sub : Nat) (v : Nat) (hs : Sound q f s) : Sound q f (setEnt s idx sub v) := by
  unfold setEnt
  try dsimp only
  repeat' (first
    | with_reducible assumption
    | (fail_if_no_progress (with_reducible refine Sound.upd ?_ rfl rfl rfl rfl rfl))
    | split
    | dsimp only)

theorem sound_bumpEnt {q : Part} {f : BitVec 257} (s : State) (idx : Nat) (sub : Nat) (hs : Sound q f s) : Sound q f (bumpEnt s idx sub) := by
  unfold bumpEnt
  try dsimp only
  repeat' (first
    | with_reducible assumption
    | with_reducible apply sound_setEnt
    | (fail_if_no_progress (with_reducible refine Sound.upd ?_ rfl rfl rfl rfl rfl))
    | split
    | dsimp only)

theorem sound_raise {q : Part} {f : BitVec 257} (s : State) (src : Nat) (hs : Sound q f s) : Sound q f (raise s src) := by
  unfold raise
  try dsimp only
  repeat' (first
    | with_reducible assumption
    | (fail_if_no_progress (with_reducible refine Sound.upd ?_ rfl rfl rfl rfl rfl))
    | split
    | dsimp only)

theorem sound_logErr {q : Part} {f : BitVec 257} (s : State) (code : Nat) (origin : Nat) (data : Octets) (hs : Sound q f s) : Sound q f (logErr s code origin data) := by
  unfold logErr
  try dsimp only
  repeat' (first
    | with_reducible assumption
    | with_reducible apply sound_bumpEnt
    | (fail_if_no_progress (with_reducible refine Sound.upd ?_ rfl rfl rfl rfl rfl))
    | split
    | dsimp only)

theorem sound_emergency {q : Part} {f : BitVec 257} (s : State) (code : Nat) (origin : Nat) (data : Octets) (hs : Sound q f s) : Sound q f (emergency s code origin data) := by
  unfold emergency
  try dsimp only
  repeat' (first
    | with_reducible assumption
    | with_reducible apply sound_logErr
    | with_reducible apply sound_bumpEnt
    | (fail_if_no_progress (with_reducible refine Sound.upd ?_ rfl rfl rfl rfl rfl))
    | split
    | dsimp only)

theorem sound_setIr {q : Part} {f : BitVec 257} (s : State) (c : Nat) (v : IrisCl) (hs : Sound q f s) : Sound q f (setIr s c v) := by
  unfold setIr
  try dsimp only
  repeat' (first
    | with_reducible assumption
    | (fail_if_no_progress (with_reducible refine Sound.upd ?_ rfl rfl rfl rfl rfl))
    | split
    | dsimp only)

theorem sound_modIr {q : Part} {f : BitVec 257} (s : State) (c : Nat) (f' : IrisCl → IrisCl) (hs : Sound q f s) : Sound q f (modIr s c f') := by
  unfold modIr
  try dsimp only
  repeat' (first
    | with_reducible assumption
    | with_reducible apply sound_setIr
    | (fail_if_no_progress (with_reducible refine Sound.upd ?_ rfl rfl rfl rfl rfl))
    | split
    | dsimp only)

theorem sound_setIrBit {q : Part} {f : BitVec 257} (s : State) (c : Nat) (i : Nat) (hs : Sound q f s) : Sound q f (setIrBit s c i) := by
  unfold setIrBit
  try dsimp only
  repeat' (first
    | with_reducible assumption
    | with_reducible apply sound_setIr
    | with_reducible apply sound_raise
    | (fail_if_no_progress (with_reducible refine Sound.upd ?_ rfl rfl rfl rfl rfl))
    | split
    | dsimp only)

theorem sound_breakPace {q : Part} {f : BitVec 257} (s : State) (c : Nat) (why : Nat) (hs : Sound q f s) : Sound q f (breakPace s c why) := by
  unfold breakPace
  try dsimp only
  repeat' (first
    | with_reducible assumption
    | with_reducible apply sound_setIrBit
    | with_reducible apply sound_modCluster
    | (fail_if_no_progress (with_reducible refine Sound.upd ?_ rfl rfl rfl rfl rfl))
    | split
    | dsimp only)

theorem sound_setClevt {q : Part} {f : BitVec 257} (s : State) (c : Nat) (mask : Word) (hs : Sound q f s) : Sound q f (setClevt s c mask) := by
  unfold setClevt
  try dsimp only
  repeat' (first
    | with_reducible assumption
    | with_reducible apply sound_setCluster
    | with_reducible apply sound_raise
    | (fail_if_no_progress (with_reducible refine Sound.upd ?_ rfl rfl rfl rfl rfl))
    | split
    | dsimp only)

theorem sound_setBeevt {q : Part} {f : BitVec 257} (s : State) (q' : Nat) (bit : Nat) (i : Nat) (hs : Sound q f s) : Sound q f (setBeevt s q' bit i) := by
  unfold setBeevt
  try dsimp only
  repeat' (first
    | with_reducible assumption
    | with_reducible apply sound_setQuad
    | with_reducible apply sound_raise
    | (fail_if_no_progress (with_reducible refine Sound.upd ?_ rfl rfl rfl rfl rfl))
    | split
    | dsimp only)

theorem sound_reportPlace {q : Part} {f : BitVec 257} (s : State) (w : Nat) (p : Place) (hs : Sound q f s) : Sound q f (reportPlace s w p) := by
  unfold reportPlace
  try dsimp only
  repeat' (first
    | with_reducible assumption
    | with_reducible apply sound_setClevt
    | with_reducible apply sound_setBeevt
    | with_reducible apply sound_setBeam
    | with_reducible apply sound_raise
    | split)

theorem sound_newPoison {q : Part} {f : BitVec 257} (s : State) (w : Nat) (hs : Sound q f s) : Sound q f (newPoison s w) := by
  unfold newPoison
  try dsimp only
  repeat' (first
    | with_reducible assumption
    | with_reducible apply sound_setEcc
    | with_reducible apply sound_bumpEnt
    | with_reducible apply sound_logErr
    | with_reducible apply sound_reportPlace
    | (fail_if_no_progress (with_reducible refine Sound.upd ?_ rfl rfl rfl rfl rfl))
    | split
    | dsimp only)

theorem sound_setHistory {q : Part} {f : BitVec 257} (s : State) (p : Place) (h : List Corr) (hs : Sound q f s) : Sound q f (setHistory s p h) := by
  unfold setHistory
  try dsimp only
  repeat' (first
    | with_reducible assumption
    | with_reducible apply sound_modBank
    | with_reducible apply sound_modQuad
    | with_reducible apply sound_modCluster
    | (fail_if_no_progress (with_reducible refine Sound.upd ?_ rfl rfl rfl rfl rfl))
    | split
    | (with_reducible apply Sound.of_fst; assumption)
    | dsimp only)

theorem sound_permanentWord {q : Part} {f : BitVec 257} (s : State) (w : Nat) (hs : Sound q f s) : Sound q f (permanentWord s w) := by
  unfold permanentWord
  try dsimp only
  repeat' (first
    | with_reducible assumption
    | with_reducible apply sound_setClevt
    | with_reducible apply sound_modBank
    | with_reducible apply sound_emergency
    | with_reducible apply sound_modQuad
    | with_reducible apply sound_setBeevt
    | with_reducible apply sound_bumpEnt
    | (fail_if_no_progress (with_reducible refine Sound.upd ?_ rfl rfl rfl rfl rfl))
    | split
    | (with_reducible apply Sound.of_fst; assumption)
    | dsimp only)

theorem sound_noteCorrection {q : Part} {f : BitVec 257} (s0 : State) (w : Nat) (hs0 : Sound q f s0) : Sound q f (noteCorrection s0 w) := by
  unfold noteCorrection
  try dsimp only
  repeat' (first
    | with_reducible assumption
    | with_reducible apply sound_bumpEnt
    | with_reducible apply sound_permanentWord
    | with_reducible apply sound_setHistory
    | with_reducible apply sound_modBank
    | (fail_if_no_progress (with_reducible refine Sound.upd ?_ rfl rfl rfl rfl rfl))
    | split
    | (with_reducible apply Sound.of_fst; assumption)
    | dsimp only)

theorem sound_checkWord {q : Part} {f : BitVec 257} (s : State) (w : Nat) (hs : Sound q f s) : Sound q f (checkWord s w).1 := by
  unfold checkWord
  try dsimp only
  repeat' (first
    | with_reducible assumption
    | with_reducible apply sound_noteCorrection
    | with_reducible apply sound_setEcc
    | with_reducible apply sound_newPoison
    | (fail_if_no_progress (with_reducible refine Sound.upd ?_ rfl rfl rfl rfl rfl))
    | split
    | (with_reducible apply Sound.of_fst; assumption)
    | dsimp only)

theorem sound_rmwWord {q : Part} {f : BitVec 257} (s : State) (w : Nat) (data : BitVec 64) (mask : Byte) (hs : Sound q f s) : Sound q f (rmwWord s w data mask) := by
  unfold rmwWord
  try dsimp only
  repeat' (first
    | with_reducible assumption
    | with_reducible apply sound_checkWord
    | with_reducible apply sound_setRawWord
    | (fail_if_no_progress (with_reducible refine Sound.upd ?_ rfl rfl rfl rfl rfl))
    | split
    | dsimp only)

theorem sound_wholeWord {q : Part} {f : BitVec 257} (s : State) (w : Nat) (data : BitVec 64) (hs : Sound q f s) : Sound q f (wholeWord s w data) := by
  unfold wholeWord
  try dsimp only
  repeat' (first
    | with_reducible assumption
    | with_reducible apply sound_setEcc
    | with_reducible apply sound_setRawWord
    | (fail_if_no_progress (with_reducible refine Sound.upd ?_ rfl rfl rfl rfl rfl))
    | split
    | dsimp only)

theorem sound_memWrite {q : Part} {f : BitVec 257} (s : State) (w : Nat) (data : BitVec 64) (mask : Byte) (hs : Sound q f s) : Sound q f (memWrite s w data mask) := by
  unfold memWrite
  try dsimp only
  repeat' (first
    | with_reducible assumption
    | with_reducible apply sound_wholeWord
    | with_reducible apply sound_rmwWord
    | (fail_if_no_progress (with_reducible refine Sound.upd ?_ rfl rfl rfl rfl rfl))
    | split
    | dsimp only)

theorem sound_forceMerge {q : Part} {f : BitVec 257} (s : State) (w : Nat) (hs : Sound q f s) : Sound q f (forceMerge s w) := by
  unfold forceMerge
  try dsimp only
  repeat' (first
    | with_reducible assumption
    | with_reducible apply sound_memWrite
    | with_reducible apply sound_modBank
    | (fail_if_no_progress (with_reducible refine Sound.upd ?_ rfl rfl rfl rfl rfl))
    | split
    | (with_reducible apply Sound.of_fst; assumption)
    | dsimp only)

theorem sound_flushMerge {q : Part} {f : BitVec 257} (s : State) (c : Nat) (k : Nat) (hs : Sound q f s) : Sound q f (flushMerge s c k) := by
  unfold flushMerge
  try dsimp only
  repeat' (first
    | with_reducible assumption
    | with_reducible apply sound_forceMerge
    | (with_reducible apply Sound.foldl_fst <;> intros)
    | (with_reducible apply Sound.foldl <;> intros)
    | (fail_if_no_progress (with_reducible refine Sound.upd ?_ rfl rfl rfl rfl rfl))
    | split
    | dsimp only)

theorem sound_restoreLoan {q : Part} {f : BitVec 257} (s : State) (c : Nat) (k : Nat) (hs : Sound q f s) : Sound q f (restoreLoan s c k) := by
  unfold restoreLoan
  try dsimp only
  repeat' (first
    | with_reducible assumption
    | with_reducible apply sound_setEcc
    | with_reducible apply sound_setRawWord
    | with_reducible apply sound_newPoison
    | with_reducible apply sound_modBank
    | (with_reducible apply Sound.foldl_fst <;> intros)
    | (with_reducible apply Sound.foldl <;> intros)
    | (fail_if_no_progress (with_reducible refine Sound.upd ?_ rfl rfl rfl rfl rfl))
    | split
    | (with_reducible apply Sound.of_fst; assumption)
    | dsimp only)

theorem sound_endLoanAt {q : Part} {f : BitVec 257} (s : State) (w : Nat) (hs : Sound q f s) : Sound q f (endLoanAt s w) := by
  unfold endLoanAt
  try dsimp only
  repeat' (first
    | with_reducible assumption
    | with_reducible apply sound_restoreLoan
    | (fail_if_no_progress (with_reducible refine Sound.upd ?_ rfl rfl rfl rfl rfl))
    | split
    | (with_reducible apply Sound.of_fst; assumption)
    | dsimp only)

theorem sound_clash {q : Part} {f : BitVec 257} (s : State) (w i fi j fj : Nat) (hs : Sound q f s) : Sound q f (clash s w i fi j fj) := by
  unfold clash
  dsimp only
  repeat' (first
    | with_reducible assumption
    | with_reducible apply sound_modCluster
    | with_reducible apply sound_setCluster
    | with_reducible apply sound_setClevt
    | with_reducible apply sound_modBank
    | split)

theorem sound_meetCopies {q : Part} {f : BitVec 257} (s : State) (c m f' w : Nat) (hs : Sound q f s) : Sound q f (meetCopies s c m f' w) := by
  unfold meetCopies
  split
  · exact hs
  · exact Sound.foldl _ _ (Sound.upd hs rfl rfl rfl rfl rfl) fun t n ht => sound_clash _ _ _ _ _ _ ht

theorem sound_portWrite {q : Part} {f : BitVec 257} (s0 : State) (m : Nat) (f' : Nat) (w : Nat) (data : BitVec 64) (mask : Byte) (hs0 : Sound q f s0) : Sound q f (portWrite s0 m f' w data mask) := by
  unfold portWrite
  try dsimp only
  repeat' (first
    | with_reducible assumption
    | with_reducible apply sound_endLoanAt
    | with_reducible apply sound_clash
    | with_reducible apply sound_meetCopies
    | with_reducible apply sound_memWrite
    | with_reducible apply sound_forceMerge
    | (fail_if_no_progress (with_reducible refine Sound.upd ?_ rfl rfl rfl rfl rfl))
    | split
    | (with_reducible apply Sound.of_fst; assumption)
    | dsimp only)

theorem sound_portRead {q : Part} {f : BitVec 257} (s : State) (w : Nat) (hs : Sound q f s) : Sound q f (portRead s w).1 := by
  unfold portRead
  try dsimp only
  repeat' (first
    | with_reducible assumption
    | with_reducible apply sound_endLoanAt
    | with_reducible apply sound_checkWord
    | (fail_if_no_progress (with_reducible refine Sound.upd ?_ rfl rfl rfl rfl rfl))
    | split
    | dsimp only)

theorem sound_portWriteBytes {q : Part} {f : BitVec 257} (m p n : Nat) (s : State) (a : Nat) (v : Octets) (hs : Sound q f s) :
    Sound q f (portWriteBytes m p n s a v) := by
  induction n generalizing s a v with
  | zero => exact hs
  | succ n ih =>
    unfold portWriteBytes
    split
    · exact hs
    · exact ih _ _ _ (sound_portWrite _ _ _ _ _ _ hs)

theorem sound_portReadBytes {q : Part} {f : BitVec 257} (n : Nat) (s : State) (a k : Nat) (hs : Sound q f s) :
    Sound q f (portReadBytes n s a k).1 := by
  induction n generalizing s a k with
  | zero => exact hs
  | succ n ih =>
    unfold portReadBytes
    split
    · exact hs
    · exact ih _ _ _ (sound_portRead _ _ hs)

end Sys2Proof.Machine
end

