-- ==== Sys2Proof/Laws/SoundFacetOps.lean ====
section
/-! SUPPORT. The definitions of Machine/FacetOps.lean keep what every step keeps. -/

set_option linter.unusedTactic false
set_option linter.unreachableTactic false
set_option linter.unusedVariables false

namespace Sys2Proof.Machine

theorem sound_setFacet {q : Part} {f : BitVec 257} (s : State) (p : Nat) (f' : Facet) (hs : Sound q f s) : Sound q f (setFacet s p f') := by
  unfold setFacet
  try dsimp only
  repeat' (first
    | with_reducible assumption
    | (fail_if_no_progress (with_reducible refine Sound.upd ?_ rfl rfl rfl rfl rfl))
    | split
    | dsimp only)

theorem sound_modFacet {q : Part} {f : BitVec 257} (s : State) (p : Nat) (g : Facet → Facet) (hs : Sound q f s) : Sound q f (modFacet s p g) := by
  unfold modFacet
  try dsimp only
  repeat' (first
    | with_reducible assumption
    | with_reducible apply sound_setFacet
    | (fail_if_no_progress (with_reducible refine Sound.upd ?_ rfl rfl rfl rfl rfl))
    | split
    | dsimp only)

theorem sound_setFevt {q : Part} {f : BitVec 257} (s : State) (p : Nat) (mask : BitVec 16) (hs : Sound q f s) : Sound q f (setFevt s p mask) := by
  unfold setFevt
  try dsimp only
  repeat' (first
    | with_reducible assumption
    | with_reducible apply sound_setFacet
    | with_reducible apply sound_raise
    | (fail_if_no_progress (with_reducible refine Sound.upd ?_ rfl rfl rfl rfl rfl))
    | split
    | dsimp only)

theorem sound_setLinkState {q : Part} {f : BitVec 257} (s : State) (p : Nat) (st : Nat) (hs : Sound q f s) : Sound q f (setLinkState s p st) := by
  unfold setLinkState
  try dsimp only
  repeat' (first
    | with_reducible assumption
    | with_reducible apply sound_setFevt
    | with_reducible apply sound_modFacet
    | (fail_if_no_progress (with_reducible refine Sound.upd ?_ rfl rfl rfl rfl rfl))
    | split
    | dsimp only)

theorem sound_bumpCounter {q : Part} {f : BitVec 257} (s : State) (p : Nat) (sub : Nat) (n : Nat) (hs : Sound q f s) : Sound q f (bumpCounter s p sub n) := by
  unfold bumpCounter
  try dsimp only
  repeat' (first
    | with_reducible assumption
    | with_reducible apply sound_setEnt
    | (fail_if_no_progress (with_reducible refine Sound.upd ?_ rfl rfl rfl rfl rfl))
    | split
    | dsimp only)

theorem sound_countFacet {q : Part} {f : BitVec 257} (s : State) (p : Nat) (sub : Nat) (hs : Sound q f s) : Sound q f (countFacet s p sub) := by
  unfold countFacet
  try dsimp only
  repeat' (first
    | with_reducible assumption
    | with_reducible apply sound_bumpEnt
    | (fail_if_no_progress (with_reducible refine Sound.upd ?_ rfl rfl rfl rfl rfl))
    | split
    | (with_reducible apply Sound.of_fst; assumption)
    | dsimp only)

theorem sound_countFacetBy {q : Part} {f : BitVec 257} (s : State) (p : Nat) (sub : Nat) (n : Nat) (hs : Sound q f s) : Sound q f (countFacetBy s p sub n) := by
  unfold countFacetBy
  try dsimp only
  repeat' (first
    | with_reducible assumption
    | with_reducible apply sound_setEnt
    | (fail_if_no_progress (with_reducible refine Sound.upd ?_ rfl rfl rfl rfl rfl))
    | split
    | (with_reducible apply Sound.of_fst; assumption)
    | dsimp only)

theorem sound_setHopQueue {q : Part} {f : BitVec 257} (s : State) (hop : Nat) (vc : Nat) (q' : List Packet) (hs : Sound q f s) : Sound q f (setHopQueue s hop vc q') := by
  unfold setHopQueue
  try dsimp only
  repeat' (first
    | with_reducible assumption
    | (fail_if_no_progress (with_reducible refine Sound.upd ?_ rfl rfl rfl rfl rfl))
    | split
    | dsimp only)

theorem sound_sendMarked {q : Part} {f : BitVec 257} (s : State) (vc : Nat) (kind : PacketKind) (route : List Nat) (octets : Nat) (poison : Bool) (body : PktBody) (hs : Sound q f s) : Sound q f (sendMarked s vc kind route octets poison body) := by
  unfold sendMarked
  try dsimp only
  repeat' (first
    | with_reducible assumption
    | with_reducible apply sound_setHopQueue
    | (fail_if_no_progress (with_reducible refine Sound.upd ?_ rfl rfl rfl rfl rfl))
    | split
    | (with_reducible apply Sound.of_fst; assumption)
    | dsimp only)

theorem sound_sendPacket {q : Part} {f : BitVec 257} (s : State) (vc : Nat) (kind : PacketKind) (route : List Nat) (octets : Nat) (body : PktBody) (hs : Sound q f s) : Sound q f (sendPacket s vc kind route octets body) := by
  unfold sendPacket
  try dsimp only
  repeat' (first
    | with_reducible assumption
    | with_reducible apply sound_sendMarked
    | (fail_if_no_progress (with_reducible refine Sound.upd ?_ rfl rfl rfl rfl rfl))
    | split
    | (with_reducible apply Sound.of_fst; assumption)
    | dsimp only)

theorem sound_pushRtxDone {q : Part} {f : BitVec 257} (s : State) (n : Nat) (id : Nat) (d : Done) (hs : Sound q f s) : Sound q f (pushRtxDone s n id d) := by
  unfold pushRtxDone
  try dsimp only
  repeat' (first
    | with_reducible assumption
    | with_reducible apply sound_modCore
    | (fail_if_no_progress (with_reducible refine Sound.upd ?_ rfl rfl rfl rfl rfl))
    | split
    | dsimp only)

theorem sound_pushStaging {q : Part} {f : BitVec 257} (s : State) (p : Nat) (lc : Nat) (e : Done) (hs : Sound q f s) : Sound q f (pushStaging s p lc e) := by
  unfold pushStaging
  try dsimp only
  repeat' (first
    | with_reducible assumption
    | with_reducible apply sound_setFacet
    | with_reducible apply sound_countFacet
    | (fail_if_no_progress (with_reducible refine Sound.upd ?_ rfl rfl rfl rfl rfl))
    | split
    | dsimp only)

theorem sound_countResult {q : Part} {f : BitVec 257} (s : State) (p : Nat) (d : TxDesc) (result : Nat) (hs : Sound q f s) : Sound q f (countResult s p d result) := by
  unfold countResult
  try dsimp only
  repeat' (first
    | with_reducible assumption
    | with_reducible apply sound_bumpCounter
    | with_reducible apply sound_countFacet
    | (fail_if_no_progress (with_reducible refine Sound.upd ?_ rfl rfl rfl rfl rfl))
    | split
    | dsimp only)

theorem sound_showDone {q : Part} {f : BitVec 257} (s : State) (p : Nat) (hs : Sound q f s) : Sound q f (showDone s p) := by
  unfold showDone
  try dsimp only
  repeat' (first
    | with_reducible assumption
    | with_reducible apply sound_setFevt
    | (fail_if_no_progress (with_reducible refine Sound.upd ?_ rfl rfl rfl rfl rfl))
    | split
    | (with_reducible apply Sound.of_fst; assumption)
    | dsimp only)

theorem sound_completeDesc {q : Part} {f : BitVec 257} (s0 : State) (p : Nat) (d : TxDesc) (result : Nat) (hs0 : Sound q f s0) : Sound q f (completeDesc s0 p d result) := by
  unfold completeDesc
  try dsimp only
  repeat' (first
    | with_reducible assumption
    | with_reducible apply sound_countResult
    | with_reducible apply sound_pushStaging
    | with_reducible apply sound_pushRtxDone
    | with_reducible apply sound_sendPacket
    | with_reducible apply sound_modFacet
    | with_reducible apply sound_showDone
    | (fail_if_no_progress (with_reducible refine Sound.upd ?_ rfl rfl rfl rfl rfl))
    | split
    | (with_reducible apply Sound.of_fst; assumption)
    | dsimp only)

theorem sound_discardTx {q : Part} {f : BitVec 257} (s : State) (b : Nat) (result : Nat) (hs : Sound q f s) : Sound q f (discardTx s b result) := by
  unfold discardTx
  try dsimp only
  repeat' (first
    | with_reducible assumption
    | with_reducible apply sound_modFacet
    | with_reducible apply sound_completeDesc
    | (with_reducible apply Sound.foldl_fst <;> intros)
    | (with_reducible apply Sound.foldl <;> intros)
    | (fail_if_no_progress (with_reducible refine Sound.upd ?_ rfl rfl rfl rfl rfl))
    | split
    | dsimp only)

end Sys2Proof.Machine
end

