-- ==== Sys2Proof/Laws/SoundLsu.lean ====
section
/-! SUPPORT. The definitions of Machine/Lsu.lean keep what every step keeps. -/

set_option linter.unusedTactic false
set_option linter.unreachableTactic false
set_option linter.unusedVariables false

namespace Sys2Proof.Machine

theorem sound_cleanBeam {q : Part} {f : BitVec 257} (s : State) (b : Nat) (hs : Sound q f s) : Sound q f (cleanBeam s b) := by
  unfold cleanBeam
  try dsimp only
  repeat' (first
    | with_reducible assumption
    | with_reducible apply sound_setEcc
    | (with_reducible apply Sound.foldl_fst <;> intros)
    | (with_reducible apply Sound.foldl <;> intros)
    | (fail_if_no_progress (with_reducible refine Sound.upd ?_ rfl rfl rfl rfl rfl))
    | split
    | dsimp only)

theorem sound_aliasWord {q : Part} {f : BitVec 257} (s0 : State) (w : Nat) (setb : Bool) (data : BitVec 64) (mask : Byte) (hs0 : Sound q f s0) : Sound q f (aliasWord s0 w setb data mask) := by
  unfold aliasWord
  try dsimp only
  repeat' (first
    | with_reducible assumption
    | with_reducible apply sound_forceMerge
    | with_reducible apply sound_endLoanAt
    | with_reducible apply sound_checkWord
    | with_reducible apply sound_setRawWord
    | (fail_if_no_progress (with_reducible refine Sound.upd ?_ rfl rfl rfl rfl rfl))
    | split
    | dsimp only)

theorem sound_mergeStore {q : Part} {f : BitVec 257} (s0 : State) (n : Nat) (c : Nat) (k : Nat) (w : Nat) (data : BitVec 64) (mask : Byte) (hs0 : Sound q f s0) : Sound q f (mergeStore s0 n c k w data mask) := by
  unfold mergeStore
  try dsimp only
  repeat' (first
    | with_reducible assumption
    | with_reducible apply sound_endLoanAt
    | with_reducible apply sound_wholeWord
    | with_reducible apply sound_modBank
    | with_reducible apply sound_forceMerge
    | (fail_if_no_progress (with_reducible refine Sound.upd ?_ rfl rfl rfl rfl rfl))
    | split
    | (with_reducible apply Sound.of_fst; assumption)
    | dsimp only)

theorem sound_collide {q : Part} {f : BitVec 257} (s : State) (n : Nat) (m : Nat) (w : Nat) (hs : Sound q f s) : Sound q f (collide s n m w) :=
  sound_clash _ _ _ _ _ _ hs

theorem sound_performStore {q : Part} {f : BitVec 257} (s : State) (n : Nat) (e : StoreEntry) (hs : Sound q f s) : Sound q f (performStore s n e) := by
  unfold performStore
  try dsimp only
  repeat' (first
    | with_reducible assumption
    | with_reducible apply sound_aliasWord
    | with_reducible apply sound_mergeStore
    | with_reducible apply sound_portWrite
    | with_reducible apply sound_memWrite
    | (fail_if_no_progress (with_reducible refine Sound.upd ?_ rfl rfl rfl rfl rfl))
    | split
    | (with_reducible apply Sound.of_fst; assumption)
    | dsimp only)

theorem sound_grantHead {q : Part} {f : BitVec 257} (n : Nat) (s : State) (m : Nat) (hs : Sound q f s) : Sound q f (grantHead n s m) := by
  unfold grantHead
  split
  · exact hs
  · exact sound_modCluster _ _ _ (sound_performStore _ _ _ (sound_modCore _ _ _ hs))

theorem sound_meetWord {q : Part} {f : BitVec 257} (s : State) (n w : Nat) (wr : Bool) (hs : Sound q f s) : Sound q f (meetWord s n w wr) := by
  have hf : ∀ l : List Nat, Sound q f (l.foldl (grantHead (n % 4)) s) := fun l => Sound.foldl l s hs fun t x ht => sound_grantHead _ t x ht
  unfold meetWord
  dsimp only
  repeat' (first | with_reducible assumption | exact hf _ | exact sound_collide _ _ _ _ (hf _) | split)

theorem sound_performDrain {q : Part} {f : BitVec 257} (s : State) (n : Nat) (e : StoreEntry) (hs : Sound q f s) : Sound q f (performDrain s n e) :=
  sound_performStore _ _ _ (sound_meetWord _ _ _ _ hs)

theorem sound_drainFirst {q : Part} {f : BitVec 257} (perf : State → Nat → StoreEntry → State) (m : Nat) (s : State) (n : Nat)
    (hp : ∀ s n e, Sound q f s → Sound q f (perf s n e)) (hs : Sound q f s) : Sound q f (drainFirst perf m s n) := by
  induction m generalizing s with
  | zero => exact hs
  | succ m ih =>
    unfold drainFirst
    split
    · exact hs
    · exact ih _ (hp _ _ _ (sound_modCore _ _ _ hs))

theorem sound_readHalf {q : Part} {f : BitVec 257} (perf : State → Nat → StoreEntry → State) (s : State) (n k : Nat) (h : Nat × Nat × Nat) (a : Nat) (wr : Bool)
    (hp : ∀ s n e, Sound q f s → Sound q f (perf s n e)) (hs : Sound q f s) : Sound q f (readHalf perf s n k h a wr).1 := by
  unfold readHalf
  dsimp only
  split
  · split
    · exact hs
    · exact sound_checkWord _ _ (sound_endLoanAt _ _ (sound_meetWord _ _ _ _ (sound_drainFirst _ _ _ _ hp hs)))
  · exact sound_checkWord _ _ (sound_endLoanAt _ _ (sound_meetWord _ _ _ _ hs))

theorem sound_performLoad {q : Part} {f : BitVec 257} (perf : State → Nat → StoreEntry → State) (s : State) (n : Nat) (l : Load)
    (hp : ∀ s n e, Sound q f s → Sound q f (perf s n e)) (hs : Sound q f s) : Sound q f (performLoad perf s n l).1 := by
  unfold performLoad
  dsimp only
  split
  · split
    · exact sound_readHalf _ _ _ _ _ _ _ hp hs
    · split
      · exact hp _ _ _ (sound_readHalf _ _ _ _ _ _ _ hp hs)
      · exact sound_portWrite _ _ _ _ _ _ (sound_readHalf _ _ _ _ _ _ _ hp hs)
  · exact sound_readHalf _ _ _ _ _ _ _ hp (sound_readHalf _ _ _ _ _ _ _ hp hs)
  · exact hs

theorem sound_setLoad {q : Part} {f : BitVec 257} (s : State) (n : Nat) (i : Nat) (f' : Load → Load) (hs : Sound q f s) : Sound q f (setLoad s n i f') := by
  unfold setLoad
  try dsimp only
  repeat' (first
    | with_reducible assumption
    | with_reducible apply sound_modCore
    | (fail_if_no_progress (with_reducible refine Sound.upd ?_ rfl rfl rfl rfl rfl))
    | split
    | dsimp only)

theorem sound_tryPerform {q : Part} {f : BitVec 257} (perf : State → Nat → StoreEntry → State) (s : State) (n i : Nat)
    (hp : ∀ s n e, Sound q f s → Sound q f (perf s n e)) (hs : Sound q f s) : Sound q f (tryPerform perf s n i) := by
  unfold tryPerform
  dsimp only
  split
  · exact hs
  · split
    · exact hs
    · exact sound_setLoad _ _ _ _ (sound_performLoad _ _ _ _ hp hs)

end Sys2Proof.Machine
end

