-- ==== Sys2Proof/Laws/SoundBeamTable.lean ====
section
/-! SUPPORT. The definitions of Machine/BeamTable.lean keep what every step keeps. -/

set_option linter.unusedTactic false
set_option linter.unreachableTactic false
set_option linter.unusedVariables false

namespace Sys2Proof.Machine

theorem sound_markPoison {q : Part} {f : BitVec 257} (s : State) (b : Nat) (hs : Sound q f s) : Sound q f (markPoison s b) := by
  unfold markPoison
  try dsimp only
  repeat' (first
    | with_reducible assumption
    | with_reducible apply sound_setBeevt
    | with_reducible apply sound_setBeam
    | (fail_if_no_progress (with_reducible refine Sound.upd ?_ rfl rfl rfl rfl rfl))
    | split
    | dsimp only)

theorem sound_engineCheck {q : Part} {f : BitVec 257} (s : State) (b : Nat) (i : Nat) (hs : Sound q f s) : Sound q f (engineCheck s b i).1 := by
  unfold engineCheck
  try dsimp only
  repeat' (first
    | with_reducible assumption
    | with_reducible apply sound_checkWord
    | with_reducible apply sound_markPoison
    | (fail_if_no_progress (with_reducible refine Sound.upd ?_ rfl rfl rfl rfl rfl))
    | split
    | dsimp only)

theorem sound_engineMod {q : Part} {f : BitVec 257} (s : State) (b : Nat) (i : Nat) (g : BeamCtx → BeamCtx) (hs : Sound q f s) : Sound q f (engineMod s b i g) := by
  unfold engineMod
  try dsimp only
  repeat' (first
    | with_reducible assumption
    | with_reducible apply sound_modBeam
    | with_reducible apply sound_engineCheck
    | (fail_if_no_progress (with_reducible refine Sound.upd ?_ rfl rfl rfl rfl rfl))
    | split
    | (with_reducible apply Sound.of_fst; assumption)
    | dsimp only)

theorem sound_beamSearch {q : Part} {f : BitVec 257} (k : Word) (l : List Nat) (s : State) (o : Option Nat) (hs : Sound q f s) :
    Sound q f (beamSearch k l s o).1 := by
  induction l generalizing s o with
  | nil => exact hs
  | cons b bs ih =>
    have hr := sound_engineCheck s b 0 hs
    unfold beamSearch
    dsimp only
    repeat' (first | exact ih _ _ hr | exact hr | split)

theorem sound_cacheBeam {q : Part} {f : BitVec 257} (s : State) (c : Nat) (b : Nat) (hs : Sound q f s) : Sound q f (cacheBeam s c b) := by
  unfold cacheBeam
  try dsimp only
  repeat' (first
    | with_reducible assumption
    | with_reducible apply sound_modCluster
    | (fail_if_no_progress (with_reducible refine Sound.upd ?_ rfl rfl rfl rfl rfl))
    | split
    | (with_reducible apply Sound.of_fst; assumption)
    | dsimp only)

theorem sound_writeBuf {q : Part} {f : BitVec 257} (s : State) (n : Nat) (off : Nat) (v : Octets) (hs : Sound q f s) : Sound q f (writeBuf s n off v) := by
  unfold writeBuf
  try dsimp only
  repeat' (first
    | with_reducible assumption
    | with_reducible apply sound_wholeWord
    | (with_reducible apply Sound.foldl_fst <;> intros)
    | (with_reducible apply Sound.foldl <;> intros)
    | (fail_if_no_progress (with_reducible refine Sound.upd ?_ rfl rfl rfl rfl rfl))
    | split
    | dsimp only)

theorem sound_dropLock {q : Part} {f : BitVec 257} (s : State) (b : Nat) (hs : Sound q f s) : Sound q f (dropLock s b) := by
  unfold dropLock
  try dsimp only
  repeat' (first
    | with_reducible assumption
    | with_reducible apply sound_discardTx
    | with_reducible apply sound_engineMod
    | with_reducible apply sound_engineCheck
    | (fail_if_no_progress (with_reducible refine Sound.upd ?_ rfl rfl rfl rfl rfl))
    | split
    | (with_reducible apply Sound.of_fst; assumption)
    | dsimp only)

theorem sound_releaseLocks {q : Part} {f : BitVec 257} (s : State) (n : Nat) (hs : Sound q f s) : Sound q f (releaseLocks s n) := by
  unfold releaseLocks
  try dsimp only
  repeat' (first
    | with_reducible assumption
    | with_reducible apply sound_dropLock
    | (with_reducible apply Sound.foldl_fst <;> intros)
    | (with_reducible apply Sound.foldl <;> intros)
    | (fail_if_no_progress (with_reducible refine Sound.upd ?_ rfl rfl rfl rfl rfl))
    | split
    | dsimp only)

theorem sound_deleteBeam {q : Part} {f : BitVec 257} (s : State) (b : Nat) (hs : Sound q f s) : Sound q f (deleteBeam s b) := by
  unfold deleteBeam
  try dsimp only
  repeat' (first
    | with_reducible assumption
    | with_reducible apply sound_discardTx
    | with_reducible apply sound_cleanBeam
    | with_reducible apply sound_modBeam
    | (fail_if_no_progress (with_reducible refine Sound.upd ?_ rfl rfl rfl rfl rfl))
    | split
    | dsimp only)

theorem sound_windowStore {q : Part} {f : BitVec 257} (s : State) (b : Nat) (i : Nat) (v : Word) (mask : Word) (hs : Sound q f s) : Sound q f (windowStore s b i v mask) := by
  unfold windowStore
  try dsimp only
  repeat' (first
    | with_reducible assumption
    | with_reducible apply sound_engineCheck
    | with_reducible apply sound_deleteBeam
    | with_reducible apply sound_setBeam
    | (fail_if_no_progress (with_reducible refine Sound.upd ?_ rfl rfl rfl rfl rfl))
    | split
    | dsimp only)

theorem sound_drainEntry {q : Part} {f : BitVec 257} (s : State) (n : Nat) (e : StoreEntry) (hs : Sound q f s) : Sound q f (drainEntry s n e) := by
  unfold drainEntry
  try dsimp only
  repeat' (first
    | with_reducible assumption
    | with_reducible apply sound_windowStore
    | with_reducible apply sound_performDrain
    | (fail_if_no_progress (with_reducible refine Sound.upd ?_ rfl rfl rfl rfl rfl))
    | split
    | (with_reducible apply Sound.of_fst; assumption)
    | dsimp only)

theorem sound_opFind {q : Part} {f : BitVec 257} (s : State) (k : Word) (hs : Sound q f s) : Sound q f (opFind s k).s := by
  unfold opFind
  try dsimp only
  repeat' (first
    | with_reducible assumption
    | with_reducible apply sound_beamSearch
    | (fail_if_no_progress (with_reducible refine Sound.upd ?_ rfl rfl rfl rfl rfl))
    | split
    | (with_reducible apply Sound.of_fst; assumption)
    | dsimp only)

theorem sound_opNew {q : Part} {f : BitVec 257} (s : State) (n : Nat) (k : Word) (buf : Nat) (hs : Sound q f s) : Sound q f (opNew s n k buf).s := by
  unfold opNew
  try dsimp only
  repeat' (first
    | with_reducible assumption
    | with_reducible apply sound_beamSearch
    | with_reducible apply sound_setBeevt
    | with_reducible apply sound_cleanBeam
    | with_reducible apply sound_setBeam
    | with_reducible apply sound_cacheBeam
    | with_reducible apply sound_writeBuf
    | (fail_if_no_progress (with_reducible refine Sound.upd ?_ rfl rfl rfl rfl rfl))
    | split
    | (with_reducible apply Sound.of_fst; assumption)
    | dsimp only)

theorem sound_checkCtx {q : Part} {f : BitVec 257} (s : State) (b : Nat) (hs : Sound q f s) : Sound q f (checkCtx s b).1 := by
  unfold checkCtx
  try dsimp only
  repeat' (first
    | with_reducible assumption
    | with_reducible apply sound_engineCheck
    | (with_reducible apply Sound.foldl_fst <;> intros)
    | (with_reducible apply Sound.foldl <;> intros)
    | (fail_if_no_progress (with_reducible refine Sound.upd ?_ rfl rfl rfl rfl rfl))
    | split
    | dsimp only)

theorem sound_lockCtx {q : Part} {f : BitVec 257} (s : State) (n : Nat) (b : Nat) (hs : Sound q f s) : Sound q f (lockCtx s n b).1 := by
  unfold lockCtx
  try dsimp only
  repeat' (first
    | with_reducible assumption
    | with_reducible apply sound_engineCheck
    | with_reducible apply sound_checkCtx
    | (fail_if_no_progress (with_reducible refine Sound.upd ?_ rfl rfl rfl rfl rfl))
    | split
    | (with_reducible apply Sound.of_fst; assumption)
    | dsimp only)

theorem sound_opLock {q : Part} {f : BitVec 257} (s : State) (n : Nat) (a : Word) (buf : Nat) (hs : Sound q f s) : Sound q f (opLock s n a buf).s := by
  unfold opLock
  try dsimp only
  repeat' (first
    | with_reducible assumption
    | with_reducible apply sound_lockCtx
    | with_reducible apply sound_setBeam
    | with_reducible apply sound_cacheBeam
    | with_reducible apply sound_writeBuf
    | (fail_if_no_progress (with_reducible refine Sound.upd ?_ rfl rfl rfl rfl rfl))
    | split
    | (with_reducible apply Sound.of_fst; assumption)
    | dsimp only)

theorem sound_commitWords {q : Part} {f : BitVec 257} (s : State) (b : Nat) (hs : Sound q f s) : Sound q f (commitWords s b) := by
  unfold commitWords
  try dsimp only
  repeat' (first
    | with_reducible assumption
    | with_reducible apply sound_engineCheck
    | with_reducible apply sound_setEcc
    | (with_reducible apply Sound.foldl_fst <;> intros)
    | (with_reducible apply Sound.foldl <;> intros)
    | (fail_if_no_progress (with_reducible refine Sound.upd ?_ rfl rfl rfl rfl rfl))
    | split
    | (with_reducible apply Sound.of_fst; assumption)
    | dsimp only)

theorem sound_opCommit {q : Part} {f : BitVec 257} (s : State) (n : Nat) (a : Word) (data : Octets) (hs : Sound q f s) : Sound q f (opCommit s n a data).s := by
  unfold opCommit
  try dsimp only
  repeat' (first
    | with_reducible assumption
    | with_reducible apply sound_dropLock
    | with_reducible apply sound_commitWords
    | with_reducible apply sound_setBeam
    | with_reducible apply sound_cacheBeam
    | (fail_if_no_progress (with_reducible refine Sound.upd ?_ rfl rfl rfl rfl rfl))
    | split
    | (with_reducible apply Sound.of_fst; assumption)
    | dsimp only)

theorem sound_opDrop {q : Part} {f : BitVec 257} (s : State) (n : Nat) (a : Word) (hs : Sound q f s) : Sound q f (opDrop s n a).s := by
  unfold opDrop
  try dsimp only
  repeat' (first
    | with_reducible assumption
    | with_reducible apply sound_dropLock
    | (fail_if_no_progress (with_reducible refine Sound.upd ?_ rfl rfl rfl rfl rfl))
    | split
    | (with_reducible apply Sound.of_fst; assumption)
    | dsimp only)

theorem sound_beamOp {q : Part} {f : BitVec 257} (s : State) (n : Nat) (o : BeamOp) (hs : Sound q f s) : Sound q f (beamOp s n o).s := by
  unfold beamOp
  try dsimp only
  repeat' (first
    | with_reducible assumption
    | with_reducible apply sound_opFind
    | with_reducible apply sound_opNew
    | with_reducible apply sound_opLock
    | with_reducible apply sound_opCommit
    | with_reducible apply sound_opDrop
    | (fail_if_no_progress (with_reducible refine Sound.upd ?_ rfl rfl rfl rfl rfl))
    | split
    | (with_reducible apply Sound.of_fst; assumption)
    | dsimp only)

theorem sound_beamServe {q : Part} {f : BitVec 257} (s : State) (n : Nat) (hs : Sound q f s) : Sound q f (beamServe s n) := by
  unfold beamServe
  try dsimp only
  repeat' (first
    | with_reducible assumption
    | with_reducible apply sound_beamOp
    | with_reducible apply sound_modCore
    | (fail_if_no_progress (with_reducible refine Sound.upd ?_ rfl rfl rfl rfl rfl))
    | split
    | (with_reducible apply Sound.of_fst; assumption)
    | dsimp only)

theorem sound_beamFinish {q : Part} {f : BitVec 257} (s0 : State) (n : Nat) (hs0 : Sound q f s0) : Sound q f (beamFinish s0 n) := by
  unfold beamFinish
  try dsimp only
  repeat' (first
    | with_reducible assumption
    | with_reducible apply sound_beamServe
    | with_reducible apply sound_modCore
    | (with_reducible apply Sound.foldl_fst <;> intros)
    | (with_reducible apply Sound.foldl <;> intros)
    | (fail_if_no_progress (with_reducible refine Sound.upd ?_ rfl rfl rfl rfl rfl))
    | split
    | (with_reducible apply Sound.of_fst; assumption)
    | dsimp only)

theorem sound_beamDeliver {q : Part} {f : BitVec 257} (s : State) (n : Nat) (hs : Sound q f s) : Sound q f (beamDeliver s n) := by
  unfold beamDeliver
  try dsimp only
  repeat' (first
    | with_reducible assumption
    | with_reducible apply sound_beamFinish
    | with_reducible apply sound_setBeevt
    | with_reducible apply sound_modCluster
    | (fail_if_no_progress (with_reducible refine Sound.upd ?_ rfl rfl rfl rfl rfl))
    | split
    | (with_reducible apply Sound.of_fst; assumption)
    | dsimp only)

end Sys2Proof.Machine
end

