-- ==== Sys2Proof/Laws/SoundBitu.lean ====
section
/-! SUPPORT. The definitions of Machine/Bitu.lean keep what every step keeps. -/

set_option linter.unusedTactic false
set_option linter.unreachableTactic false
set_option linter.unusedVariables false

namespace Sys2Proof.Machine

theorem sound_bituCheck {q : Part} {f : BitVec 257} (s : State) (n : Nat) (o : BitOp) (a : Word) (hs : Sound q f s) : Sound q f (bituCheck s n o a).1 := by
  unfold bituCheck
  try dsimp only
  repeat' (first
    | with_reducible assumption
    | with_reducible apply sound_checkWord
    | (fail_if_no_progress (with_reducible refine Sound.upd ?_ rfl rfl rfl rfl rfl))
    | split
    | (with_reducible apply Sound.of_fst; assumption)
    | dsimp only)

theorem sound_sharedBit {q : Part} {f : BitVec 257} (s0 : State) (n : Nat) (i : Nat) (o : BitOp) (hs0 : Sound q f s0) : Sound q f (sharedBit s0 n i o).1 := by
  unfold sharedBit
  try dsimp only
  repeat' (first
    | with_reducible assumption
    | with_reducible apply sound_checkWord
    | with_reducible apply sound_meetWord
    | with_reducible apply sound_setRawWord
    | (fail_if_no_progress (with_reducible refine Sound.upd ?_ rfl rfl rfl rfl rfl))
    | split
    | (with_reducible apply Sound.of_fst; assumption)
    | dsimp only)

theorem sound_bituDo {q : Part} {f : BitVec 257} (s : State) (n : Nat) (bits : LensCore) (o : BitOp) (a : Word) (hs : Sound q f s) : Sound q f (bituDo s n bits o a) := by
  unfold bituDo
  try dsimp only
  repeat' (first
    | with_reducible assumption
    | with_reducible apply sound_setCore
    | with_reducible apply sound_sharedBit
    | with_reducible apply sound_modCore
    | (fail_if_no_progress (with_reducible refine Sound.upd ?_ rfl rfl rfl rfl rfl))
    | split
    | (with_reducible apply Sound.of_fst; assumption)
    | dsimp only)

end Sys2Proof.Machine
end

