-- ==== Sys2Proof/Laws/SoundCopy.lean ====
section
/-! SUPPORT. The definitions of Machine/Copy.lean keep what every step keeps. -/

set_option linter.unusedTactic false
set_option linter.unreachableTactic false
set_option linter.unusedVariables false

namespace Sys2Proof.Machine

theorem sound_meetStores {q : Part} {f : BitVec 257} (s : State) (n w : Nat) (wr : Bool) (hs : Sound q f s) : Sound q f (meetStores s n w wr) := by
  have hf (i : Nat) (l : List Nat) : Sound q f (l.foldl (grantHead i) s) := Sound.foldl l s hs fun t x ht => sound_grantHead i t x ht
  have hc (i : Nat) (l : List Nat) : Sound q f (l.foldl (fun t m => clash t w i 0 (m % 4) 0) s) :=
    Sound.foldl l s hs fun t x ht => sound_clash _ _ _ _ _ _ ht
  unfold meetStores
  dsimp only
  repeat' (first | with_reducible assumption | exact hf _ _ | exact hc _ _ | split)

theorem sound_copyRead {q : Part} {f : BitVec 257} (s0 : State) (n : Nat) (a : Nat) (len : Nat) (hs0 : Sound q f s0) : Sound q f (copyRead s0 n a len).1 := by
  unfold copyRead
  try dsimp only
  repeat' (first
    | with_reducible assumption
    | with_reducible apply sound_meetStores
    | with_reducible apply sound_checkWord
    | with_reducible apply sound_portReadBytes
    | (fail_if_no_progress (with_reducible refine Sound.upd ?_ rfl rfl rfl rfl rfl))
    | split
    | (with_reducible apply Sound.of_fst; assumption)
    | dsimp only)

theorem sound_copyWrite {q : Part} {f : BitVec 257} (s0 : State) (n : Nat) (a : Nat) (v : Octets) (hs0 : Sound q f s0) : Sound q f (copyWrite s0 n a v) := by
  unfold copyWrite
  try dsimp only
  repeat' (first
    | with_reducible assumption
    | with_reducible apply sound_meetStores
    | with_reducible apply sound_drainEntry
    | with_reducible apply sound_portWriteBytes
    | (fail_if_no_progress (with_reducible refine Sound.upd ?_ rfl rfl rfl rfl rfl))
    | split
    | (with_reducible apply Sound.of_fst; assumption)
    | dsimp only)

theorem sound_copyStep {q : Part} {f : BitVec 257} (s : State) (n : Nat) (o : CopyOp) (hs : Sound q f s) : Sound q f (copyStep s n o).1 := by
  unfold copyStep
  try dsimp only
  repeat' (first
    | with_reducible assumption
    | with_reducible apply sound_copyRead
    | with_reducible apply sound_copyWrite
    | (fail_if_no_progress (with_reducible refine Sound.upd ?_ rfl rfl rfl rfl rfl))
    | split
    | (with_reducible apply Sound.of_fst; assumption)
    | dsimp only)

theorem sound_copyRun {q : Part} {f : BitVec 257} (m : Nat) (s : State) (n : Nat) (o : CopyOp) (hs : Sound q f s) : Sound q f (copyRun m s n o).1 := by
  induction m generalizing s o with
  | zero => exact hs
  | succ m ih =>
    have hr := sound_copyStep s n o hs
    unfold copyRun
    dsimp only
    repeat' (first | exact ih _ _ hr | exact hr | exact hs | split)

theorem sound_copyDone {q : Part} {f : BitVec 257} (s : State) (n : Nat) (st : Word) (out : Word) (hs : Sound q f s) : Sound q f (copyDone s n st out) := by
  unfold copyDone
  try dsimp only
  repeat' (first
    | with_reducible assumption
    | with_reducible apply sound_modCore
    | (fail_if_no_progress (with_reducible refine Sound.upd ?_ rfl rfl rfl rfl rfl))
    | split
    | dsimp only)

theorem sound_copyErr {q : Part} {f : BitVec 257} (s : State) (n : Nat) (out : Nat) (hs : Sound q f s) : Sound q f (copyErr s n out) := by
  unfold copyErr
  try dsimp only
  repeat' (first
    | with_reducible assumption
    | with_reducible apply sound_copyDone
    | with_reducible apply sound_setClevt
    | (fail_if_no_progress (with_reducible refine Sound.upd ?_ rfl rfl rfl rfl rfl))
    | split
    | dsimp only)

theorem sound_recordWrite {q : Part} {f : BitVec 257} (s : State) (n : Nat) (g : Nat) (v : Octets) (hs : Sound q f s) : Sound q f (recordWrite s n g v) := by
  unfold recordWrite
  try dsimp only
  repeat' (first
    | with_reducible assumption
    | with_reducible apply sound_copyWrite
    | (with_reducible apply Sound.foldl_fst <;> intros)
    | (with_reducible apply Sound.foldl <;> intros)
    | (fail_if_no_progress (with_reducible refine Sound.upd ?_ rfl rfl rfl rfl rfl))
    | split
    | (with_reducible apply Sound.of_fst; assumption)
    | dsimp only)

theorem sound_remoteAnswer {q : Part} {f : BitVec 257} (s : State) (n : Nat) (hs : Sound q f s) : Sound q f (remoteAnswer s n) := by
  unfold remoteAnswer
  try dsimp only
  repeat' (first
    | with_reducible assumption
    | with_reducible apply sound_modCore
    | with_reducible apply sound_setClevt
    | (fail_if_no_progress (with_reducible refine Sound.upd ?_ rfl rfl rfl rfl rfl))
    | split
    | (with_reducible apply Sound.of_fst; assumption)
    | dsimp only)

theorem sound_copyStart {q : Part} {f : BitVec 257} (s : State) (n : Nat) (o : CopyOp) (hs : Sound q f s) : Sound q f (copyStart s n o) := by
  unfold copyStart
  try dsimp only
  repeat' (first
    | with_reducible assumption
    | with_reducible apply sound_modCore
    | with_reducible apply sound_remoteAnswer
    | with_reducible apply sound_sendPacket
    | (fail_if_no_progress (with_reducible refine Sound.upd ?_ rfl rfl rfl rfl rfl))
    | split
    | (with_reducible apply Sound.of_fst; assumption)
    | dsimp only)

theorem sound_copyTrigger {q : Part} {f : BitVec 257} (s : State) (n : Nat) (kind : CopyKind) (a : Word) (p : Nat) (q' : Nat) (hs : Sound q f s) : Sound q f (copyTrigger s n kind a p q') := by
  unfold copyTrigger
  try dsimp only
  repeat' (first
    | with_reducible assumption
    | with_reducible apply sound_copyStart
    | (fail_if_no_progress (with_reducible refine Sound.upd ?_ rfl rfl rfl rfl rfl))
    | split
    | dsimp only)

theorem sound_copyPark {q : Part} {f : BitVec 257} (s : State) (n : Nat) (p : Nat) (hs : Sound q f s) : Sound q f (copyPark s n p) := by
  unfold copyPark
  try dsimp only
  repeat' (first
    | with_reducible assumption
    | with_reducible apply sound_modCore
    | with_reducible apply sound_copyDone
    | with_reducible apply sound_copyRun
    | with_reducible apply sound_copyErr
    | (fail_if_no_progress (with_reducible refine Sound.upd ?_ rfl rfl rfl rfl rfl))
    | split
    | (with_reducible apply Sound.of_fst; assumption)
    | dsimp only)

theorem sound_copyResume {q : Part} {f : BitVec 257} (s : State) (n : Nat) (p : Nat) (a : Nat) (b : Nat) (hs : Sound q f s) : Sound q f (copyResume s n p a b) := by
  unfold copyResume
  try dsimp only
  repeat' (first
    | with_reducible assumption
    | with_reducible apply sound_portReadBytes
    | with_reducible apply sound_copyErr
    | with_reducible apply sound_copyDone
    | with_reducible apply sound_copyStart
    | (fail_if_no_progress (with_reducible refine Sound.upd ?_ rfl rfl rfl rfl rfl))
    | split
    | (with_reducible apply Sound.of_fst; assumption)
    | dsimp only)

theorem sound_countLate {q : Part} {f : BitVec 257} (s : State) (n : Nat) (trig : Nat) (lat : Nat) (hs : Sound q f s) : Sound q f (countLate s n trig lat) := by
  unfold countLate
  try dsimp only
  repeat' (first
    | with_reducible assumption
    | with_reducible apply sound_modCluster
    | (fail_if_no_progress (with_reducible refine Sound.upd ?_ rfl rfl rfl rfl rfl))
    | split
    | dsimp only)

theorem sound_taintCopy {q : Part} {f : BitVec 257} (s : State) (o : CopyOp) (hs : Sound q f s) : Sound q f (taintCopy s o) := by
  unfold taintCopy
  try dsimp only
  repeat' (first
    | with_reducible assumption
    | with_reducible apply sound_newPoison
    | (fail_if_no_progress (with_reducible refine Sound.upd ?_ rfl rfl rfl rfl rfl))
    | split
    | dsimp only)

theorem sound_execCopyCompletion {q : Part} {f : BitVec 257} (n : Nat) (s : State) (hs : Sound q f s) : SoundOut q f (execCopyCompletion n s) := by
  unfold execCopyCompletion
  try dsimp only
  repeat' (first
    | with_reducible assumption
    | with_reducible apply soundOut_next
    | with_reducible apply sound_countLate
    | with_reducible apply sound_recordWrite
    | with_reducible apply sound_modCore
    | with_reducible apply sound_copyDone
    | with_reducible apply sound_copyRun
    | with_reducible apply sound_taintCopy
    | (fail_if_no_progress (with_reducible refine Sound.upd ?_ rfl rfl rfl rfl rfl))
    | split
    | (with_reducible apply Sound.of_fst; assumption)
    | dsimp only)

theorem sound_execCopyDataErrorStop {q : Part} {f : BitVec 257} (n : Nat) (s : State) (hs : Sound q f s) : SoundOut q f (execCopyDataErrorStop n s) := by
  unfold execCopyDataErrorStop
  try dsimp only
  repeat' (first
    | with_reducible assumption
    | with_reducible apply soundOut_next
    | with_reducible apply sound_copyRun
    | with_reducible apply sound_copyErr
    | with_reducible apply sound_countLate
    | (fail_if_no_progress (with_reducible refine Sound.upd ?_ rfl rfl rfl rfl rfl))
    | split
    | (with_reducible apply Sound.of_fst; assumption)
    | dsimp only)

theorem sound_execRemoteCopyRefusal {q : Part} {f : BitVec 257} (n : Nat) (s : State) (hs : Sound q f s) : SoundOut q f (execRemoteCopyRefusal n s) := by
  unfold execRemoteCopyRefusal
  try dsimp only
  repeat' (first
    | with_reducible assumption
    | with_reducible apply soundOut_next
    | with_reducible apply sound_copyRun
    | with_reducible apply sound_copyErr
    | with_reducible apply sound_copyDone
    | (fail_if_no_progress (with_reducible refine Sound.upd ?_ rfl rfl rfl rfl rfl))
    | split
    | (with_reducible apply Sound.of_fst; assumption)
    | dsimp only)

end Sys2Proof.Machine
end

