-- ==== Sys2Proof/Laws/SoundFetch.lean ====
section
/-! SUPPORT. The definitions of Machine/Fetch.lean keep what every step keeps. -/

set_option linter.unusedTactic false
set_option linter.unreachableTactic false
set_option linter.unusedVariables false

namespace Sys2Proof.Machine

theorem sound_readLine {q : Part} {f : BitVec 257} (s : State) (n : Nat) (p : Nat) (hs : Sound q f s) : Sound q f (readLine s n p).1 := by
  unfold readLine
  try dsimp only
  repeat' (first
    | with_reducible assumption
    | with_reducible apply sound_checkWord
    | with_reducible apply sound_endLoanAt
    | (with_reducible apply Sound.foldl_fst <;> intros)
    | (with_reducible apply Sound.foldl <;> intros)
    | (fail_if_no_progress (with_reducible refine Sound.upd ?_ rfl rfl rfl rfl rfl))
    | split
    | (with_reducible apply Sound.of_fst; assumption)
    | dsimp only)

theorem sound_deliverLine {q : Part} {f : BitVec 257} (s : State) (n : Nat) (o : Nat) (hs : Sound q f s) : Sound q f (deliverLine s n o).1 := by
  unfold deliverLine
  try dsimp only
  repeat' (first
    | with_reducible assumption
    | with_reducible apply sound_setCore
    | with_reducible apply sound_readLine
    | with_reducible apply sound_modCore
    | (fail_if_no_progress (with_reducible refine Sound.upd ?_ rfl rfl rfl rfl rfl))
    | split
    | (with_reducible apply Sound.of_fst; assumption)
    | dsimp only)

theorem sound_flashTurn {q : Part} {f : BitVec 257} (s : State) (n : Nat) (mine : FlashReq → Bool) (hs : Sound q f s) : Sound q f (flashTurn s n mine).1 := by
  unfold flashTurn
  dsimp only
  repeat' (first | with_reducible assumption | with_reducible apply sound_setCluster | split)

theorem sound_fillHalf {q : Part} {f : BitVec 257} (s : State) (n : Nat) (spec : Bool) (p : Nat) (hs : Sound q f s) : Sound q f (fillHalf s n spec p) := by
  unfold fillHalf
  dsimp only
  repeat' (first | with_reducible assumption | with_reducible apply sound_modCore | with_reducible apply sound_readLine | split)

theorem sound_fillFlash {q : Part} {f : BitVec 257} (s : State) (n : Nat) (r : FlashReq) (hs : Sound q f s) : Sound q f (fillFlash s n r) :=
  sound_fillHalf _ _ _ _ (sound_fillHalf _ _ _ _ hs)

theorem sound_deliverLines {q : Part} {f : BitVec 257} (s : State) (n : Nat) (m : Option Nat) (l : List Nat) (hs : Sound q f s) : Sound q f (deliverLines s n m l) := by
  induction l generalizing s with
  | nil => exact hs
  | cons o os ih =>
    unfold deliverLines
    dsimp only
    repeat' (first | with_reducible assumption | with_reducible apply ih | with_reducible apply sound_deliverLine | with_reducible apply sound_modCore | with_reducible apply sound_setCore | split)

theorem sound_fetchDelivery {q : Part} {f : BitVec 257} (s : State) (n : Nat) (hs : Sound q f s) : Sound q f (fetchDelivery s n) := by
  unfold fetchDelivery
  have ht := fun m => sound_flashTurn s n m hs
  dsimp only
  repeat' (first
    | with_reducible assumption
    | exact ht _
    | with_reducible apply sound_deliverLines
    | with_reducible apply sound_modCore
    | with_reducible apply sound_fillFlash
    | split)

end Sys2Proof.Machine
end

