-- ==== Sys2Proof/Laws/SoundExceptions.lean ====
section
/-! SUPPORT. The definitions of Machine/Exceptions.lean keep what every step keeps. -/

set_option linter.unusedTactic false
set_option linter.unreachableTactic false
set_option linter.unusedVariables false

namespace Sys2Proof.Machine

theorem sound_traceOn {q : Part} {f : BitVec 257} (s : State) (n : Nat) (kind : Nat) (cause : Nat) (src : Word) (dst : Word) (hs : Sound q f s) : Sound q f (traceOn s n kind cause src dst) := by
  unfold traceOn
  try dsimp only
  repeat' (first
    | with_reducible assumption
    | with_reducible apply sound_setCluster
    | (fail_if_no_progress (with_reducible refine Sound.upd ?_ rfl rfl rfl rfl rfl))
    | split
    | dsimp only)

theorem sound_takeEntry {q : Part} {f : BitVec 257} (s : State) (n : Nat) (epc : Word) (rp : Option Nat) (cause : Word) (evnum : Option Word) (badaddr : Option Word) (hs : Sound q f s) : Sound q f (takeEntry s n epc rp cause evnum badaddr) := by
  unfold takeEntry
  try dsimp only
  repeat' (first
    | with_reducible assumption
    | with_reducible apply sound_traceOn
    | with_reducible apply sound_setCore
    | (fail_if_no_progress (with_reducible refine Sound.upd ?_ rfl rfl rfl rfl rfl))
    | split
    | (with_reducible apply Sound.of_fst; assumption)
    | dsimp only)

theorem sound_takeChained {q : Part} {f : BitVec 257} (s : State) (n : Nat) (src : Word) (cause : Word) (evnum : Option Word) (hs : Sound q f s) : Sound q f (takeChained s n src cause evnum) := by
  unfold takeChained
  try dsimp only
  repeat' (first
    | with_reducible assumption
    | with_reducible apply sound_traceOn
    | with_reducible apply sound_setCore
    | (fail_if_no_progress (with_reducible refine Sound.upd ?_ rfl rfl rfl rfl rfl))
    | split
    | dsimp only)

theorem sound_asyncTaken {q : Part} {f : BitVec 257} (s : State) (n : Nat) (a : Async) (hs : Sound q f s) : Sound q f (asyncTaken s n a).1 := by
  cases a with
  | watchdog =>
    simp only [asyncTaken]
    exact sound_modCore _ _ _ hs
  | event _ _ => exact Sound.mem_upd hs rfl rfl hs.mem rfl

theorem sound_stopCore {q : Part} {f : BitVec 257} (s : State) (n : Nat) (reason : Nat) (hs : Sound q f s) : Sound q f (stopCore s n reason) := by
  unfold stopCore
  try dsimp only
  repeat' (first
    | with_reducible assumption
    | with_reducible apply sound_modCore
    | with_reducible apply sound_raise
    | (fail_if_no_progress (with_reducible refine Sound.upd ?_ rfl rfl rfl rfl rfl))
    | split
    | dsimp only)

theorem sound_enterFault {q : Part} {f : BitVec 257} (s : State) (n : Nat) (f' : PFault) (hs : Sound q f s) : Sound q f (enterFault s n f') := by
  unfold enterFault
  try dsimp only
  repeat' (first
    | with_reducible assumption
    | with_reducible apply sound_stopCore
    | with_reducible apply sound_takeEntry
    | (fail_if_no_progress (with_reducible refine Sound.upd ?_ rfl rfl rfl rfl rfl))
    | split
    | dsimp only)

theorem sound_enterAsync {q : Part} {f : BitVec 257} (s : State) (n : Nat) (a : Async) (hs : Sound q f s) : Sound q f (enterAsync s n a) := by
  unfold enterAsync
  try dsimp only
  repeat' (first
    | with_reducible assumption
    | with_reducible apply sound_asyncTaken
    | with_reducible apply sound_takeEntry
    | (fail_if_no_progress (with_reducible refine Sound.upd ?_ rfl rfl rfl rfl rfl))
    | split
    | dsimp only)

theorem sound_eretReturn {q : Part} {f : BitVec 257} (s0 : State) (n : Nat) (src : Word) (hs0 : Sound q f s0) : Sound q f (eretReturn s0 n src) := by
  unfold eretReturn
  try dsimp only
  repeat' (first
    | with_reducible assumption
    | with_reducible apply sound_modCore
    | with_reducible apply sound_asyncTaken
    | with_reducible apply sound_takeChained
    | with_reducible apply sound_traceOn
    | with_reducible apply sound_setCore
    | (fail_if_no_progress (with_reducible refine Sound.upd ?_ rfl rfl rfl rfl rfl))
    | split
    | (with_reducible apply Sound.of_fst; assumption)
    | dsimp only)

end Sys2Proof.Machine
end

