-- ==== Sys2Proof/Laws/SoundIssue.lean ====
section
/-! SUPPORT. The definitions of Machine/Issue.lean keep what every step keeps. -/

set_option linter.unusedTactic false
set_option linter.unreachableTactic false
set_option linter.unusedVariables false

namespace Sys2Proof.Machine

theorem sound_trigCheck {q : Part} {f : BitVec 257} (s : State) (n : Nat) (k1 : LensCore) (o : Op) (a : Word) (hs : Sound q f s) : Sound q f (trigCheck s n k1 o a).1 := by
  unfold trigCheck
  try dsimp only
  repeat' (first
    | with_reducible assumption
    | with_reducible apply sound_bituCheck
    | (fail_if_no_progress (with_reducible refine Sound.upd ?_ rfl rfl rfl rfl rfl))
    | split
    | (with_reducible apply Sound.of_fst; assumption)
    | dsimp only)

theorem sound_checkTrigs {q : Part} {f : BitVec 257} (s : State) (n : Nat) (k kb : LensCore) (l : List (Move × Op × Word)) (e : State × Nat × Option Word × Bool)
    (hs : Sound q f s) (he : checkTrigs s n k kb l = .inl e) : Sound q f e.1 := by
  induction l with
  | nil => simp [checkTrigs] at he
  | cons x xs ih =>
    obtain ⟨m, o, a⟩ := x
    unfold checkTrigs at he
    have ht := sound_trigCheck s n (if m.second then kb else k) o a hs
    split at he
    · rename_i h
      rw [h] at ht
      injection he with he
      subst he
      exact ht
    · split at he
      · rename_i h
        injection he with he
        subst he
        exact ih h
      · cases he

/-- A plan that records a fault records it in a sound state. -/
theorem sound_planMoves {q : Part} {f : BitVec 257} (s : State) (n : Nat) (bs : List Bund) (rep : Option Rep) (hs : Sound q f s) :
    ∀ t g c, planMoves s n bs rep = .fault t g c → Sound q f t := by
  intro t g c
  unfold planMoves
  dsimp only
  repeat' split
  all_goals intro h
  all_goals first
    | (injection h with h1; subst h1; first | exact hs | exact sound_checkTrigs _ _ _ _ _ _ hs (by assumption))
    | cases h

theorem sound_planDelay {q : Part} {f : BitVec 257} (s : State) (n : Nat) (b : Bund) :
    ∀ t g c, planDelay s n b = .fault t g c → Sound q f t := by
  intro t g c
  unfold planDelay
  dsimp only
  repeat' split
  all_goals intro h; cases h

theorem sound_planNext {q : Part} {f : BitVec 257} (s : State) (n : Nat) (hs : Sound q f s) :
    ∀ t g c, (planNext s n).2 = .fault t g c → Sound q f t := by
  intro t g c
  unfold planNext
  dsimp only
  repeat' split
  all_goals intro h
  all_goals dsimp only at h
  all_goals first
    | exact sound_planMoves _ _ _ _ hs _ _ _ h
    | exact sound_planDelay _ _ _ _ _ _ h
    | (injection h with h1; subst h1; exact hs)
    | cases h

theorem sound_lateStep {q : Part} {f : BitVec 257} (s : State) (n : Nat) (hs : Sound q f s) : Sound q f (lateStep s n) := by
  unfold lateStep
  try dsimp only
  repeat' (first
    | with_reducible assumption
    | with_reducible apply sound_breakPace
    | (fail_if_no_progress (with_reducible refine Sound.upd ?_ rfl rfl rfl rfl rfl))
    | split
    | (with_reducible apply Sound.of_fst; assumption)
    | dsimp only)

theorem sound_startLoad {q : Part} {f : BitVec 257} (s : State) (n : Nat) (z : Nat) (sext : Bool) (p : Nat) (ap : Aperture) (bare : Bool) (x : Option Word) (hs : Sound q f s) : Sound q f (startLoad s n z sext p ap bare x) := by
  unfold startLoad
  try dsimp only
  repeat' (first
    | with_reducible assumption
    | (with_reducible apply sound_tryPerform <;> intros)
    | with_reducible apply sound_drainEntry
    | with_reducible apply sound_setCore
    | (fail_if_no_progress (with_reducible refine Sound.upd ?_ rfl rfl rfl rfl rfl))
    | split
    | dsimp only)

theorem sound_startStore {q : Part} {f : BitVec 257} (s : State) (n : Nat) (z : Nat) (p : Nat) (ap : Aperture) (v : Word) (hs : Sound q f s) : Sound q f (startStore s n z p ap v) := by
  unfold startStore
  try dsimp only
  repeat' (first
    | with_reducible assumption
    | with_reducible apply sound_modCore
    | (fail_if_no_progress (with_reducible refine Sound.upd ?_ rfl rfl rfl rfl rfl))
    | split
    | dsimp only)

theorem sound_startBeam {q : Part} {f : BitVec 257} (s : State) (n : Nat) (o : BeamKind) (a : Word) (p : Nat) (hs : Sound q f s) : Sound q f (startBeam s n o a p) := by
  unfold startBeam
  try dsimp only
  repeat' (first
    | with_reducible assumption
    | with_reducible apply sound_portReadBytes
    | with_reducible apply sound_modCore
    | (fail_if_no_progress (with_reducible refine Sound.upd ?_ rfl rfl rfl rfl rfl))
    | split
    | dsimp only)

theorem sound_trigDo {q : Part} {f : BitVec 257} (s0 : State) (s : State) (n : Nat) (k1 : LensCore) (t : Trig) (hs0 : Sound q f s0) (hs : Sound q f s) : Sound q f (trigDo s0 s n k1 t) := by
  unfold trigDo
  try dsimp only
  repeat' (first
    | with_reducible assumption
    | with_reducible apply sound_modCore
    | with_reducible apply sound_startLoad
    | with_reducible apply sound_startStore
    | with_reducible apply sound_bituDo
    | with_reducible apply sound_copyPark
    | with_reducible apply sound_copyResume
    | with_reducible apply sound_copyTrigger
    | with_reducible apply sound_startBeam
    | (fail_if_no_progress (with_reducible refine Sound.upd ?_ rfl rfl rfl rfl rfl))
    | split
    | (with_reducible apply Sound.of_fst; assumption)
    | dsimp only)

theorem sound_doHush {q : Part} {f : BitVec 257} (s : State) (n : Nat) (a : Word) (hs : Sound q f s) : Sound q f (doHush s n a) := by
  unfold doHush
  try dsimp only
  repeat' (first
    | with_reducible assumption
    | with_reducible apply sound_modCore
    | (fail_if_no_progress (with_reducible refine Sound.upd ?_ rfl rfl rfl rfl rfl))
    | split
    | dsimp only)

theorem sound_afterStep {q : Part} {f : BitVec 257} (s : State) (n : Nat) (w : Work) (hs : Sound q f s) : Sound q f (afterStep s n w) := by
  unfold afterStep
  try dsimp only
  repeat' (first
    | with_reducible assumption
    | with_reducible apply sound_modCore
    | with_reducible apply sound_traceOn
    | with_reducible apply sound_eretReturn
    | with_reducible apply sound_setCore
    | with_reducible apply sound_doHush
    | (fail_if_no_progress (with_reducible refine Sound.upd ?_ rfl rfl rfl rfl rfl))
    | split
    | (with_reducible apply Sound.of_fst; assumption)
    | dsimp only)

theorem sound_secondHalf {q : Part} {f : BitVec 257} (s : State) (n : Nat) (w : Work) (hs : Sound q f s) : Sound q f (secondHalf s n w) := by
  have hd : Sound q f (drainFirst drainEntry (getCore s n).u.stores.length s n) :=
    sound_drainFirst _ _ _ _ (fun _ _ _ h => sound_drainEntry _ _ _ h) hs
  unfold secondHalf
  dsimp only
  split
  · exact hs
  · refine Sound.foldl _ _ ?_ (fun t x ht => sound_trigDo _ _ _ _ _ hs ht)
    apply sound_modCore
    split
    · exact hd
    · exact hs

theorem sound_perform {q : Part} {f : BitVec 257} (s : State) (n : Nat) (w : Work) (hs : Sound q f s) : Sound q f (perform s n w) := by
  unfold perform
  try dsimp only
  repeat' (first
    | with_reducible assumption
    | with_reducible apply sound_setCore
    | with_reducible apply sound_trigDo
    | with_reducible apply sound_modCore
    | with_reducible apply sound_secondHalf
    | with_reducible apply sound_afterStep
    | (with_reducible apply Sound.foldl_fst <;> intros)
    | (with_reducible apply Sound.foldl <;> intros)
    | (fail_if_no_progress (with_reducible refine Sound.upd ?_ rfl rfl rfl rfl rfl))
    | split
    | (with_reducible apply Sound.of_fst; assumption)
    | dsimp only)

theorem sound_recordFault {q : Part} {f : BitVec 257} (s : State) (n : Nat) (f' : PFault) (check : Bool) (hs : Sound q f s) : Sound q f (recordFault s n f' check) := by
  unfold recordFault
  try dsimp only
  repeat' (first
    | with_reducible assumption
    | with_reducible apply sound_modCore
    | (fail_if_no_progress (with_reducible refine Sound.upd ?_ rfl rfl rfl rfl rfl))
    | split
    | dsimp only)

end Sys2Proof.Machine
end

