-- ==== Sys2Proof/Laws/SoundCoreStop.lean ====
section
/-! SUPPORT. The definitions of Machine/CoreStop.lean keep what every step keeps. -/

set_option linter.unusedTactic false
set_option linter.unreachableTactic false
set_option linter.unusedVariables false

namespace Sys2Proof.Machine

theorem sound_engineFinish {q : Part} {f : BitVec 257} (s : State) (n : Nat) (hs : Sound q f s) : Sound q f (engineFinish s n) := by
  unfold engineFinish
  try dsimp only
  repeat' (first
    | with_reducible assumption
    | with_reducible apply sound_modCore
    | with_reducible apply sound_beamServe
    | (fail_if_no_progress (with_reducible refine Sound.upd ?_ rfl rfl rfl rfl rfl))
    | split
    | (with_reducible apply Sound.of_fst; assumption)
    | dsimp only)

theorem sound_writeOwnMerges {q : Part} {f : BitVec 257} (s : State) (n : Nat) (hs : Sound q f s) : Sound q f (writeOwnMerges s n) := by
  unfold writeOwnMerges
  try dsimp only
  repeat' (first
    | with_reducible assumption
    | with_reducible apply sound_forceMerge
    | (with_reducible apply Sound.foldl_fst <;> intros)
    | (with_reducible apply Sound.foldl <;> intros)
    | (fail_if_no_progress (with_reducible refine Sound.upd ?_ rfl rfl rfl rfl rfl))
    | split
    | dsimp only)

theorem sound_settleWork {q : Part} {f : BitVec 257} (s : State) (n : Nat) (hs : Sound q f s) : Sound q f (settleWork s n) := by
  unfold settleWork
  try dsimp only
  repeat' (first
    | with_reducible assumption
    | with_reducible apply sound_releaseLocks
    | with_reducible apply sound_engineFinish
    | with_reducible apply sound_modCore
    | with_reducible apply sound_writeOwnMerges
    | (fail_if_no_progress (with_reducible refine Sound.upd ?_ rfl rfl rfl rfl rfl))
    | split
    | dsimp only)

theorem sound_settleStop {q : Part} {f : BitVec 257} (s : State) (n : Nat) (hs : Sound q f s) : Sound q f (settleStop s n) := by
  unfold settleStop
  try dsimp only
  repeat' (first
    | with_reducible assumption
    | with_reducible apply sound_settleWork
    | (fail_if_no_progress (with_reducible refine Sound.upd ?_ rfl rfl rfl rfl rfl))
    | split
    | dsimp only)

end Sys2Proof.Machine
end

