-- ==== Sys2Proof/Laws/SoundBundle.lean ====
section
/-! SUPPORT. The definitions of Machine/Bundle.lean keep what every step keeps. -/

set_option linter.unusedTactic false
set_option linter.unreachableTactic false
set_option linter.unusedVariables false

namespace Sys2Proof.Machine

theorem sound_issuePlan {q : Part} {f : BitVec 257} (s : State) (n : Nat) (p : Plan) (hs : Sound q f s) (hp : ∀ t g c, p = .fault t g c → Sound q f t) :
    Sound q f (issuePlan s n p) := by
  cases p with
  | wait => exact sound_lateStep _ _ hs
  | stall d => exact sound_lateStep _ _ hs
  | go w => exact sound_perform _ _ _ hs
  | fault t g c => exact sound_recordFault _ _ _ _ (hp t g c rfl)

theorem sound_issueNext {q : Part} {f : BitVec 257} (s : State) (n : Nat) (k : Kind) (p : Plan) (hs : Sound q f s) (e : planNext s n = (k, p)) :
    Sound q f (issuePlan s n p) :=
  sound_issuePlan _ _ _ hs fun t g c h => sound_planNext s n hs t g c (by rw [e]; exact h)

theorem sound_execBundleIssue {q : Part} {f : BitVec 257} (n : Nat) (s : State) (hs : Sound q f s) : SoundOut q f (execBundleIssue n s) := by
  unfold execBundleIssue
  repeat' split
  all_goals first
    | exact hs
    | exact soundOut_next (sound_lateStep _ _ hs)
    | exact sound_issueNext _ _ _ _ hs (by assumption)

theorem sound_execRepeatIteration {q : Part} {f : BitVec 257} (n : Nat) (s : State) (hs : Sound q f s) : SoundOut q f (execRepeatIteration n s) := by
  unfold execRepeatIteration
  repeat' split
  all_goals first
    | exact hs
    | exact soundOut_next (sound_lateStep _ _ hs)
    | exact sound_issueNext _ _ _ _ hs (by assumption)

theorem sound_loupeHaltCore {q : Part} {f : BitVec 257} (s : State) (n : Nat) (why : Nat) (hs : Sound q f s) : Sound q f (loupeHaltCore s n why) := by
  unfold loupeHaltCore
  try dsimp only
  repeat' (first
    | with_reducible assumption
    | with_reducible apply sound_modCore
    | (fail_if_no_progress (with_reducible refine Sound.upd ?_ rfl rfl rfl rfl rfl))
    | split
    | dsimp only)

theorem sound_execBreakBundle {q : Part} {f : BitVec 257} (n : Nat) (s : State) (hs : Sound q f s) : SoundOut q f (execBreakBundle n s) := by
  unfold execBreakBundle
  split
  · split
    · apply soundOut_next
      split
      · exact sound_loupeHaltCore _ _ _ hs
      · exact sound_issueNext _ _ _ _ hs (by assumption)
    · exact hs
  · exact hs

theorem sound_fillStep {q : Part} {f : BitVec 257} (s : State) (n : Nat) (d : Bool) (hs : Sound q f s) : Sound q f (fillStep s n d) := by
  unfold fillStep
  try dsimp only
  repeat' (first
    | with_reducible assumption
    | with_reducible apply sound_modCore
    | (fail_if_no_progress (with_reducible refine Sound.upd ?_ rfl rfl rfl rfl rfl))
    | split
    | dsimp only)

theorem sound_stallStep {q : Part} {f : BitVec 257} (s : State) (n : Nat) (d : Bool) (hs : Sound q f s) : Sound q f (stallStep s n d) := by
  unfold stallStep
  exact sound_modCore _ _ _ (sound_fillStep _ _ _ hs)

theorem sound_execFillBundle {q : Part} {f : BitVec 257} (n : Nat) (s : State) (hs : Sound q f s) : SoundOut q f (execFillBundle n s) := by
  unfold execFillBundle
  try dsimp only
  repeat' (first
    | with_reducible assumption
    | with_reducible apply soundOut_next
    | with_reducible apply sound_fillStep
    | with_reducible apply sound_stallStep
    | with_reducible apply sound_lateStep
    | with_reducible apply sound_eretReturn
    | (fail_if_no_progress (with_reducible refine Sound.upd ?_ rfl rfl rfl rfl rfl))
    | split
    | (with_reducible apply Sound.of_fst; assumption)
    | dsimp only)

theorem sound_execExceptionEntry {q : Part} {f : BitVec 257} (n : Nat) (s : State) (hs : Sound q f s) : SoundOut q f (execExceptionEntry n s) := by
  unfold execExceptionEntry
  try dsimp only
  repeat' (first
    | with_reducible assumption
    | with_reducible apply soundOut_next
    | with_reducible apply sound_settleStop
    | with_reducible apply sound_enterFault
    | with_reducible apply sound_enterAsync
    | (fail_if_no_progress (with_reducible refine Sound.upd ?_ rfl rfl rfl rfl rfl))
    | split
    | (with_reducible apply Sound.of_fst; assumption)
    | dsimp only)

theorem sound_execHushWindowClose {q : Part} {f : BitVec 257} (n : Nat) (s : State) (hs : Sound q f s) : SoundOut q f (execHushWindowClose n s) := by
  unfold execHushWindowClose
  try dsimp only
  repeat' (first
    | with_reducible assumption
    | with_reducible apply soundOut_next
    | with_reducible apply sound_modCore
    | (fail_if_no_progress (with_reducible refine Sound.upd ?_ rfl rfl rfl rfl rfl))
    | split
    | dsimp only)

theorem sound_execSleepWake {q : Part} {f : BitVec 257} (n : Nat) (s : State) (hs : Sound q f s) : SoundOut q f (execSleepWake n s) := by
  unfold execSleepWake
  try dsimp only
  repeat' (first
    | with_reducible assumption
    | with_reducible apply soundOut_next
    | with_reducible apply sound_modCore
    | with_reducible apply sound_enterAsync
    | (fail_if_no_progress (with_reducible refine Sound.upd ?_ rfl rfl rfl rfl rfl))
    | split
    | (with_reducible apply Sound.of_fst; assumption)
    | dsimp only)

theorem sound_execFetchLineDelivery {q : Part} {f : BitVec 257} (n : Nat) (s : State) (hs : Sound q f s) : SoundOut q f (execFetchLineDelivery n s) := by
  unfold execFetchLineDelivery
  try dsimp only
  repeat' (first
    | with_reducible assumption
    | with_reducible apply soundOut_next
    | with_reducible apply sound_fetchDelivery
    | (fail_if_no_progress (with_reducible refine Sound.upd ?_ rfl rfl rfl rfl rfl))
    | split
    | dsimp only)

end Sys2Proof.Machine
end

