-- ==== Sys2Proof/Laws/SoundEventCmds.lean ====
section
/-! SUPPORT. The definitions of Machine/EventCmds.lean keep what every step keeps. -/

set_option linter.unusedTactic false
set_option linter.unreachableTactic false
set_option linter.unusedVariables false

namespace Sys2Proof.Machine

theorem sound_evraise {q : Part} {f : BitVec 257} (s : State) (n : Nat) (v : Word) (hs : Sound q f s) : Sound q f (evraise s n v) := by
  unfold evraise
  try dsimp only
  repeat' (first
    | with_reducible assumption
    | with_reducible apply sound_raise
    | with_reducible apply sound_modCore
    | (fail_if_no_progress (with_reducible refine Sound.upd ?_ rfl rfl rfl rfl rfl))
    | split
    | dsimp only)

theorem sound_execEvraiseWrite {q : Part} {f : BitVec 257} (n : Nat) (v : Word) (s : State) (hs : Sound q f s) : SoundOut q f (execEvraiseWrite n v s) := by
  unfold execEvraiseWrite
  try dsimp only
  repeat' (first
    | with_reducible assumption
    | with_reducible apply soundOut_next
    | with_reducible apply sound_evraise
    | (fail_if_no_progress (with_reducible refine Sound.upd ?_ rfl rfl rfl rfl rfl))
    | split
    | dsimp only)

theorem sound_deliverEvent {q : Part} {f : BitVec 257} (s : State) (src : Nat) (hs : Sound q f s) : Sound q f (deliverEvent s src) := by
  unfold deliverEvent
  try dsimp only
  repeat' (first
    | with_reducible assumption
    | with_reducible apply sound_modCore
    | (fail_if_no_progress (with_reducible refine Sound.upd ?_ rfl rfl rfl rfl rfl))
    | split
    | (with_reducible apply Sound.of_fst; assumption)
    | dsimp only)

theorem sound_execEventDelivery {q : Part} {f : BitVec 257} (src : Nat) (s : State) (hs : Sound q f s) : SoundOut q f (execEventDelivery src s) := by
  unfold execEventDelivery
  try dsimp only
  repeat' (first
    | with_reducible assumption
    | with_reducible apply soundOut_next
    | with_reducible apply sound_deliverEvent
    | (fail_if_no_progress (with_reducible refine Sound.upd ?_ rfl rfl rfl rfl rfl))
    | split
    | dsimp only)

theorem sound_routeWrite {q : Part} {f : BitVec 257} (s : State) (src : Nat) (v : Nat) (hs : Sound q f s) : Sound q f (routeWrite s src v).1 := by
  unfold routeWrite
  try dsimp only
  repeat' (first
    | with_reducible assumption
    | with_reducible apply sound_setEnt
    | (fail_if_no_progress (with_reducible refine Sound.upd ?_ rfl rfl rfl rfl rfl))
    | split
    | dsimp only)

theorem sound_answered {q : Part} {f : BitVec 257} (r : State × Option Nat) (hs : Sound q f r.1) : Sound q f (answered r) := by
  unfold answered
  exact Sound.upd hs rfl rfl rfl rfl rfl

theorem sound_execRouteWrite {q : Part} {f : BitVec 257} (src : Nat) (v : Nat) (s : State) (hs : Sound q f s) : SoundOut q f (execRouteWrite src v s) := by
  unfold execRouteWrite
  try dsimp only
  repeat' (first
    | with_reducible assumption
    | with_reducible apply soundOut_next
    | with_reducible apply sound_answered
    | with_reducible apply sound_routeWrite
    | (fail_if_no_progress (with_reducible refine Sound.upd ?_ rfl rfl rfl rfl rfl))
    | split
    | dsimp only)

theorem sound_execWatchdogFirstExpiry {q : Part} {f : BitVec 257} (n : Nat) (s : State) (hs : Sound q f s) : SoundOut q f (execWatchdogFirstExpiry n s) := by
  unfold execWatchdogFirstExpiry
  try dsimp only
  repeat' (first
    | with_reducible assumption
    | with_reducible apply soundOut_next
    | with_reducible apply sound_setCore
    | (fail_if_no_progress (with_reducible refine Sound.upd ?_ rfl rfl rfl rfl rfl))
    | split
    | dsimp only)

theorem sound_watchdogWrite {q : Part} {f : BitVec 257} (s : State) (n : Nat) (v : Word) (hs : Sound q f s) : Sound q f (watchdogWrite s n v) := by
  unfold watchdogWrite
  try dsimp only
  repeat' (first
    | with_reducible assumption
    | with_reducible apply sound_modCore
    | (fail_if_no_progress (with_reducible refine Sound.upd ?_ rfl rfl rfl rfl rfl))
    | split
    | dsimp only)

theorem sound_execWatchdogKick {q : Part} {f : BitVec 257} (n : Nat) (v : Word) (s : State) (hs : Sound q f s) : SoundOut q f (execWatchdogKick n v s) := by
  unfold execWatchdogKick
  try dsimp only
  repeat' (first
    | with_reducible assumption
    | with_reducible apply soundOut_next
    | with_reducible apply sound_watchdogWrite
    | (fail_if_no_progress (with_reducible refine Sound.upd ?_ rfl rfl rfl rfl rfl))
    | split
    | dsimp only)

theorem sound_skvalRead {q : Part} {f : BitVec 257} (s : State) (n : Nat) {t : State} {v : Word} (hs : Sound q f s) (e : skvalRead s n = some (t, v)) : Sound q f t := by
  unfold skvalRead at e
  dsimp only at e
  repeat' split at e
  all_goals first
    | (cases e; done)
    | (injection e with e; injection e with e1 e2; subst e1; first | exact hs | exact sound_setCore _ _ _ hs)

theorem sound_skvalWrite {q : Part} {f : BitVec 257} (s : State) (n : Nat) (v : Word) (hs : Sound q f s) : Sound q f (skvalWrite s n v) := by
  unfold skvalWrite
  try dsimp only
  repeat' (first
    | with_reducible assumption
    | with_reducible apply sound_modCore
    | (fail_if_no_progress (with_reducible refine Sound.upd ?_ rfl rfl rfl rfl rfl))
    | split
    | (with_reducible apply Sound.of_fst; assumption)
    | dsimp only)

theorem sound_execSkvalRead {q : Part} {f : BitVec 257} (n : Nat) (s : State) (hs : Sound q f s) : SoundOut q f (execSkvalRead n s) := by
  unfold execSkvalRead
  try dsimp only
  repeat' (first
    | with_reducible assumption
    | with_reducible apply soundOut_next
    | (with_reducible apply sound_skvalRead; rotate_left 1; assumption)
    | (fail_if_no_progress (with_reducible refine Sound.upd ?_ rfl rfl rfl rfl rfl))
    | split
    | (with_reducible apply Sound.of_fst; assumption)
    | dsimp only)

theorem sound_execSkvalWrite {q : Part} {f : BitVec 257} (n : Nat) (v : Word) (s : State) (hs : Sound q f s) : SoundOut q f (execSkvalWrite n v s) := by
  unfold execSkvalWrite
  try dsimp only
  repeat' (first
    | with_reducible assumption
    | with_reducible apply soundOut_next
    | with_reducible apply sound_skvalWrite
    | (fail_if_no_progress (with_reducible refine Sound.upd ?_ rfl rfl rfl rfl rfl))
    | split
    | dsimp only)

end Sys2Proof.Machine
end

