-- ==== Sys2Proof/Laws/SoundFacetLink.lean ====
section
/-! SUPPORT. The definitions of Machine/FacetLink.lean keep what every step keeps. -/

set_option linter.unusedTactic false
set_option linter.unreachableTactic false
set_option linter.unusedVariables false

namespace Sys2Proof.Machine

theorem sound_modeWrite {q : Part} {f : BitVec 257} (s : State) (p : Nat) (v : Nat) (hs : Sound q f s) : Sound q f (modeWrite s p v).1 := by
  unfold modeWrite
  try dsimp only
  repeat' (first
    | with_reducible assumption
    | with_reducible apply sound_setEnt
    | (fail_if_no_progress (with_reducible refine Sound.upd ?_ rfl rfl rfl rfl rfl))
    | split
    | dsimp only)

theorem sound_execModeWrite {q : Part} {f : BitVec 257} (p : Nat) (v : Nat) (s : State) (hs : Sound q f s) : SoundOut q f (execModeWrite p v s) := by
  unfold execModeWrite
  try dsimp only
  repeat' (first
    | with_reducible assumption
    | with_reducible apply soundOut_next
    | with_reducible apply sound_answered
    | with_reducible apply sound_modeWrite
    | (fail_if_no_progress (with_reducible refine Sound.upd ?_ rfl rfl rfl rfl rfl))
    | split
    | dsimp only)

theorem sound_swapLanes {q : Part} {f : BitVec 257} (s : State) (q' : Nat) (hs : Sound q f s) : Sound q f (swapLanes s q') := by
  unfold swapLanes
  try dsimp only
  repeat' (first
    | with_reducible assumption
    | with_reducible apply sound_modFacet
    | (fail_if_no_progress (with_reducible refine Sound.upd ?_ rfl rfl rfl rfl rfl))
    | split
    | (with_reducible apply Sound.of_fst; assumption)
    | dsimp only)

theorem sound_incDrops {q : Part} {f : BitVec 257} (s : State) (b : Nat) (hs : Sound q f s) : Sound q f (incDrops s b) := by
  unfold incDrops
  try dsimp only
  repeat' (first
    | with_reducible assumption
    | with_reducible apply sound_engineMod
    | (fail_if_no_progress (with_reducible refine Sound.upd ?_ rfl rfl rfl rfl rfl))
    | split
    | (with_reducible apply Sound.of_fst; assumption)
    | dsimp only)

theorem sound_unhold {q : Part} {f : BitVec 257} (s : State) (d : TxDesc) (hs : Sound q f s) : Sound q f (unhold s d) := by
  unfold unhold
  try dsimp only
  repeat' (first
    | with_reducible assumption
    | with_reducible apply sound_engineMod
    | (fail_if_no_progress (with_reducible refine Sound.upd ?_ rfl rfl rfl rfl rfl))
    | split
    | (with_reducible apply Sound.of_fst; assumption)
    | dsimp only)

theorem sound_freeBuf {q : Part} {f : BitVec 257} (s : State) (face : Nat) (idx : Nat) (hs : Sound q f s) : Sound q f (freeBuf s face idx) := by
  unfold freeBuf
  try dsimp only
  repeat' (first
    | with_reducible assumption
    | with_reducible apply sound_modFacet
    | (fail_if_no_progress (with_reducible refine Sound.upd ?_ rfl rfl rfl rfl rfl))
    | split
    | dsimp only)

theorem sound_relayEnd {q : Part} {f : BitVec 257} (s : State) (e : Nat) (id : Nat) (good : Bool) (hs : Sound q f s) : Sound q f (relayEnd s e id good) := by
  unfold relayEnd
  try dsimp only
  repeat' (first
    | with_reducible assumption
    | with_reducible apply sound_setFacet
    | with_reducible apply sound_freeBuf
    | with_reducible apply sound_incDrops
    | (with_reducible apply Sound.foldl_fst <;> intros)
    | (with_reducible apply Sound.foldl <;> intros)
    | (fail_if_no_progress (with_reducible refine Sound.upd ?_ rfl rfl rfl rfl rfl))
    | split
    | (with_reducible apply Sound.of_fst; assumption)
    | dsimp only)

theorem sound_relayTell {q : Part} {f : BitVec 257} (s : State) (face : Nat) (e : Nat) (id : Nat) (good : Bool) (hs : Sound q f s) : Sound q f (relayTell s face e id good) := by
  unfold relayTell
  try dsimp only
  repeat' (first
    | with_reducible assumption
    | with_reducible apply sound_relayEnd
    | with_reducible apply sound_sendPacket
    | (fail_if_no_progress (with_reducible refine Sound.upd ?_ rfl rfl rfl rfl rfl))
    | split
    | dsimp only)

theorem sound_endRelay {q : Part} {f : BitVec 257} (s : State) (q' : Nat) (l : Option Lookup) (hs : Sound q f s) : Sound q f (endRelay s q' l) := by
  unfold endRelay
  try dsimp only
  repeat' (first
    | with_reducible assumption
    | with_reducible apply sound_relayTell
    | (fail_if_no_progress (with_reducible refine Sound.upd ?_ rfl rfl rfl rfl rfl))
    | split
    | (with_reducible apply Sound.of_fst; assumption)
    | dsimp only)

theorem sound_dropRx {q : Part} {f : BitVec 257} (s : State) (q' : Nat) (hs : Sound q f s) : Sound q f (dropRx s q') := by
  unfold dropRx
  try dsimp only
  repeat' (first
    | with_reducible assumption
    | with_reducible apply sound_endRelay
    | with_reducible apply sound_modFacet
    | (fail_if_no_progress (with_reducible refine Sound.upd ?_ rfl rfl rfl rfl rfl))
    | split
    | dsimp only)

theorem sound_deferFrame {q : Part} {f : BitVec 257} (q' : Nat) (s : State) (d : TxDesc) (hs : Sound q f s) : Sound q f (deferFrame q' s d) := by
  unfold deferFrame
  try dsimp only
  repeat' (first
    | with_reducible assumption
    | with_reducible apply sound_setFevt
    | with_reducible apply sound_completeDesc
    | with_reducible apply sound_modFacet
    | with_reducible apply sound_countFacet
    | (fail_if_no_progress (with_reducible refine Sound.upd ?_ rfl rfl rfl rfl rfl))
    | split
    | dsimp only)

theorem sound_deferAll {q : Part} {f : BitVec 257} (s : State) (q' : Nat) (hs : Sound q f s) : Sound q f (deferAll s q') := by
  unfold deferAll
  try dsimp only
  repeat' (first
    | with_reducible assumption
    | with_reducible apply sound_modFacet
    | with_reducible apply sound_deferFrame
    | (with_reducible apply Sound.foldl_fst <;> intros)
    | (with_reducible apply Sound.foldl <;> intros)
    | (fail_if_no_progress (with_reducible refine Sound.upd ?_ rfl rfl rfl rfl rfl))
    | split
    | (with_reducible apply Sound.of_fst; assumption)
    | dsimp only)

theorem sound_loadRing {q : Part} {f : BitVec 257} (s : State) (p : Nat) (hs : Sound q f s) : Sound q f (loadRing s p) := by
  unfold loadRing
  try dsimp only
  repeat' (first
    | with_reducible assumption
    | with_reducible apply sound_modFacet
    | (fail_if_no_progress (with_reducible refine Sound.upd ?_ rfl rfl rfl rfl rfl))
    | split
    | dsimp only)

theorem sound_reloadRing {q : Part} {f : BitVec 257} (s : State) (p : Nat) (hs : Sound q f s) : Sound q f (reloadRing s p) := by
  unfold reloadRing
  try dsimp only
  repeat' (first
    | with_reducible assumption
    | with_reducible apply sound_loadRing
    | with_reducible apply sound_modFacet
    | (fail_if_no_progress (with_reducible refine Sound.upd ?_ rfl rfl rfl rfl rfl))
    | split
    | dsimp only)

theorem sound_execRingReload {q : Part} {f : BitVec 257} (p : Nat) (s : State) (hs : Sound q f s) : SoundOut q f (execRingReload p s) := by
  unfold execRingReload
  try dsimp only
  repeat' (first
    | with_reducible assumption
    | with_reducible apply soundOut_next
    | with_reducible apply sound_loadRing
    | (fail_if_no_progress (with_reducible refine Sound.upd ?_ rfl rfl rfl rfl rfl))
    | split
    | dsimp only)

theorem sound_applyTable {q : Part} {f : BitVec 257} (s : State) (q' : Nat) (t : Expo) (hs : Sound q f s) : Sound q f (applyTable s q' t) := by
  unfold applyTable
  try dsimp only
  repeat' (first
    | with_reducible assumption
    | with_reducible apply sound_setFacet
    | with_reducible apply sound_setFevt
    | with_reducible apply sound_completeDesc
    | (with_reducible apply Sound.foldl_fst <;> intros)
    | (with_reducible apply Sound.foldl <;> intros)
    | (fail_if_no_progress (with_reducible refine Sound.upd ?_ rfl rfl rfl rfl rfl))
    | split
    | dsimp only)

theorem sound_applyReached {q : Part} {f : BitVec 257} (s : State) (q' : Nat) (hs : Sound q f s) : Sound q f (applyReached s q') := by
  unfold applyReached
  try dsimp only
  repeat' (first
    | with_reducible assumption
    | with_reducible apply sound_applyTable
    | (fail_if_no_progress (with_reducible refine Sound.upd ?_ rfl rfl rfl rfl rfl))
    | split
    | (with_reducible apply Sound.of_fst; assumption)
    | dsimp only)

theorem sound_applyPending {q : Part} {f : BitVec 257} (s : State) (q' : Nat) (hs : Sound q f s) : Sound q f (applyPending s q') := by
  unfold applyPending
  try dsimp only
  repeat' (first
    | with_reducible assumption
    | with_reducible apply sound_applyTable
    | (fail_if_no_progress (with_reducible refine Sound.upd ?_ rfl rfl rfl rfl rfl))
    | split
    | (with_reducible apply Sound.of_fst; assumption)
    | dsimp only)

theorem sound_startTraining {q : Part} {f : BitVec 257} (s : State) (q' : Nat) (hs : Sound q f s) : Sound q f (startTraining s q') := by
  unfold startTraining
  try dsimp only
  repeat' (first
    | with_reducible assumption
    | with_reducible apply sound_modFacet
    | (fail_if_no_progress (with_reducible refine Sound.upd ?_ rfl rfl rfl rfl rfl))
    | split
    | (with_reducible apply Sound.of_fst; assumption)
    | dsimp only)

theorem sound_leaveOff {q : Part} {f : BitVec 257} (s : State) (p : Nat) (hs : Sound q f s) : Sound q f (leaveOff s p) := by
  unfold leaveOff
  try dsimp only
  repeat' (first
    | with_reducible assumption
    | with_reducible apply sound_startTraining
    | with_reducible apply sound_setLinkState
    | with_reducible apply sound_applyPending
    | with_reducible apply sound_reloadRing
    | (fail_if_no_progress (with_reducible refine Sound.upd ?_ rfl rfl rfl rfl rfl))
    | split
    | dsimp only)

theorem sound_retrain {q : Part} {f : BitVec 257} (s : State) (q' : Nat) (hs : Sound q f s) : Sound q f (retrain s q') := by
  unfold retrain
  try dsimp only
  repeat' (first
    | with_reducible assumption
    | with_reducible apply sound_startTraining
    | with_reducible apply sound_setLinkState
    | with_reducible apply sound_modFacet
    | with_reducible apply sound_deferAll
    | with_reducible apply sound_dropRx
    | (fail_if_no_progress (with_reducible refine Sound.upd ?_ rfl rfl rfl rfl rfl))
    | split
    | dsimp only)

theorem sound_linkOff {q : Part} {f : BitVec 257} (s : State) (p : Nat) (hs : Sound q f s) : Sound q f (linkOff s p) := by
  unfold linkOff
  try dsimp only
  repeat' (first
    | with_reducible assumption
    | with_reducible apply sound_deferAll
    | with_reducible apply sound_dropRx
    | with_reducible apply sound_modFacet
    | with_reducible apply sound_setLinkState
    | (fail_if_no_progress (with_reducible refine Sound.upd ?_ rfl rfl rfl rfl rfl))
    | split
    | (with_reducible apply Sound.of_fst; assumption)
    | dsimp only)

theorem sound_shareTable {q : Part} {f : BitVec 257} (s : State) (p : Nat) (hs : Sound q f s) : Sound q f (shareTable s p) := by
  unfold shareTable
  try dsimp only
  repeat' (first
    | with_reducible assumption
    | with_reducible apply sound_modFacet
    | (fail_if_no_progress (with_reducible refine Sound.upd ?_ rfl rfl rfl rfl rfl))
    | split
    | (with_reducible apply Sound.of_fst; assumption)
    | dsimp only)

theorem sound_roleWrite {q : Part} {f : BitVec 257} (s : State) (p : Nat) (v : Nat) (hs : Sound q f s) : Sound q f (roleWrite s p v).1 := by
  unfold roleWrite
  try dsimp only
  repeat' (first
    | with_reducible assumption
    | with_reducible apply sound_setEnt
    | with_reducible apply sound_linkOff
    | with_reducible apply sound_leaveOff
    | with_reducible apply sound_shareTable
    | (fail_if_no_progress (with_reducible refine Sound.upd ?_ rfl rfl rfl rfl rfl))
    | split
    | (with_reducible apply Sound.of_fst; assumption)
    | dsimp only)

theorem sound_execRoleWrite {q : Part} {f : BitVec 257} (p : Nat) (v : Nat) (s : State) (hs : Sound q f s) : SoundOut q f (execRoleWrite p v s) := by
  unfold execRoleWrite
  try dsimp only
  repeat' (first
    | with_reducible assumption
    | with_reducible apply soundOut_next
    | with_reducible apply sound_answered
    | with_reducible apply sound_roleWrite
    | (fail_if_no_progress (with_reducible refine Sound.upd ?_ rfl rfl rfl rfl rfl))
    | split
    | dsimp only)

theorem sound_enterSync {q : Part} {f : BitVec 257} (s : State) (q' : Nat) (hs : Sound q f s) : Sound q f (enterSync s q') := by
  unfold enterSync
  try dsimp only
  repeat' (first
    | with_reducible assumption
    | with_reducible apply sound_applyReached
    | with_reducible apply sound_modFacet
    | with_reducible apply sound_setLinkState
    | (fail_if_no_progress (with_reducible refine Sound.upd ?_ rfl rfl rfl rfl rfl))
    | split
    | (with_reducible apply Sound.of_fst; assumption)
    | dsimp only)

theorem sound_enterRun {q : Part} {f : BitVec 257} (s : State) (q' : Nat) (hs : Sound q f s) : Sound q f (enterRun s q') := by
  unfold enterRun
  try dsimp only
  repeat' (first
    | with_reducible assumption
    | with_reducible apply sound_setLinkState
    | with_reducible apply sound_modFacet
    | (fail_if_no_progress (with_reducible refine Sound.upd ?_ rfl rfl rfl rfl rfl))
    | split
    | dsimp only)

theorem sound_sendTrn {q : Part} {f : BitVec 257} (s : State) (q' : Nat) (type : Nat) (value : Nat) (leave : Nat) (hs : Sound q f s) : Sound q f (sendTrn s q' type value leave) := by
  unfold sendTrn
  try dsimp only
  repeat' (first
    | with_reducible assumption
    | with_reducible apply sound_modFacet
    | (fail_if_no_progress (with_reducible refine Sound.upd ?_ rfl rfl rfl rfl rfl))
    | split
    | (with_reducible apply Sound.of_fst; assumption)
    | dsimp only)

theorem sound_execTrnProbe {q : Part} {f : BitVec 257} (p : Nat) (s : State) (hs : Sound q f s) : SoundOut q f (execTrnProbe p s) := by
  unfold execTrnProbe
  try dsimp only
  repeat' (first
    | with_reducible assumption
    | with_reducible apply soundOut_next
    | with_reducible apply sound_modFacet
    | with_reducible apply sound_sendTrn
    | (fail_if_no_progress (with_reducible refine Sound.upd ?_ rfl rfl rfl rfl rfl))
    | split
    | (with_reducible apply Sound.of_fst; assumption)
    | dsimp only)

theorem sound_takePeer {q : Part} {f : BitVec 257} (s : State) (p : Nat) (pos : Nat) (hs : Sound q f s) : Sound q f (takePeer s p pos) := by
  unfold takePeer
  try dsimp only
  repeat' (first
    | with_reducible assumption
    | with_reducible apply sound_modFacet
    | with_reducible apply sound_setFevt
    | (fail_if_no_progress (with_reducible refine Sound.upd ?_ rfl rfl rfl rfl rfl))
    | split
    | dsimp only)

theorem sound_execTrnProbeReception {q : Part} {f : BitVec 257} (p : Nat) (pos : Nat) (ts : Nat) (s : State) (hs : Sound q f s) : SoundOut q f (execTrnProbeReception p pos ts s) := by
  unfold execTrnProbeReception
  try dsimp only
  repeat' (first
    | with_reducible assumption
    | with_reducible apply soundOut_next
    | with_reducible apply sound_takePeer
    | with_reducible apply sound_sendTrn
    | (fail_if_no_progress (with_reducible refine Sound.upd ?_ rfl rfl rfl rfl rfl))
    | split
    | (with_reducible apply Sound.of_fst; assumption)
    | dsimp only)

theorem sound_execTrnEchoReception {q : Part} {f : BitVec 257} (p : Nat) (pos : Nat) (sent : Nat) (arrived : Nat) (s : State) (hs : Sound q f s) : SoundOut q f (execTrnEchoReception p pos sent arrived s) := by
  unfold execTrnEchoReception
  try dsimp only
  repeat' (first
    | with_reducible assumption
    | with_reducible apply soundOut_next
    | with_reducible apply sound_takePeer
    | with_reducible apply sound_modFacet
    | with_reducible apply sound_setFevt
    | with_reducible apply sound_enterSync
    | with_reducible apply sound_sendTrn
    | (fail_if_no_progress (with_reducible refine Sound.upd ?_ rfl rfl rfl rfl rfl))
    | split
    | (with_reducible apply Sound.of_fst; assumption)
    | dsimp only)

theorem sound_execTrnReadyReception {q : Part} {f : BitVec 257} (p : Nat) (d : Nat) (s : State) (hs : Sound q f s) : SoundOut q f (execTrnReadyReception p d s) := by
  unfold execTrnReadyReception
  try dsimp only
  repeat' (first
    | with_reducible assumption
    | with_reducible apply soundOut_next
    | with_reducible apply sound_enterSync
    | with_reducible apply sound_modFacet
    | (fail_if_no_progress (with_reducible refine Sound.upd ?_ rfl rfl rfl rfl rfl))
    | split
    | (with_reducible apply Sound.of_fst; assumption)
    | dsimp only)

theorem sound_cycReceive {q : Part} {f : BitVec 257} (s : State) (q' : Nat) (cyc : Nat) (arrived : Nat) (hs : Sound q f s) : Sound q f (cycReceive s q' cyc arrived) := by
  unfold cycReceive
  try dsimp only
  repeat' (first
    | with_reducible assumption
    | with_reducible apply sound_modFacet
    | with_reducible apply sound_enterRun
    | with_reducible apply sound_setFevt
    | (fail_if_no_progress (with_reducible refine Sound.upd ?_ rfl rfl rfl rfl rfl))
    | split
    | (with_reducible apply Sound.of_fst; assumption)
    | dsimp only)

theorem sound_lostSync {q : Part} {f : BitVec 257} (s : State) (q' : Nat) (hs : Sound q f s) : Sound q f (lostSync s q') := by
  unfold lostSync
  try dsimp only
  repeat' (first
    | with_reducible assumption
    | with_reducible apply sound_startTraining
    | with_reducible apply sound_setLinkState
    | with_reducible apply sound_deferAll
    | with_reducible apply sound_dropRx
    | with_reducible apply sound_retrain
    | with_reducible apply sound_modFacet
    | (fail_if_no_progress (with_reducible refine Sound.upd ?_ rfl rfl rfl rfl rfl))
    | split
    | (with_reducible apply Sound.of_fst; assumption)
    | dsimp only)

theorem sound_execLossOfSynchronisation {q : Part} {f : BitVec 257} (p : Nat) (s : State) (hs : Sound q f s) : SoundOut q f (execLossOfSynchronisation p s) := by
  unfold execLossOfSynchronisation
  try dsimp only
  repeat' (first
    | with_reducible assumption
    | with_reducible apply soundOut_next
    | with_reducible apply sound_lostSync
    | with_reducible apply sound_modFacet
    | with_reducible apply sound_countFacetBy
    | (fail_if_no_progress (with_reducible refine Sound.upd ?_ rfl rfl rfl rfl rfl))
    | split
    | (with_reducible apply Sound.of_fst; assumption)
    | dsimp only)

theorem sound_loseSignal {q : Part} {f : BitVec 257} (s : State) (p : Nat) (hs : Sound q f s) : Sound q f (loseSignal s p) := by
  unfold loseSignal
  try dsimp only
  repeat' (first
    | with_reducible assumption
    | with_reducible apply sound_lostSync
    | with_reducible apply sound_modFacet
    | (fail_if_no_progress (with_reducible refine Sound.upd ?_ rfl rfl rfl rfl rfl))
    | split
    | (with_reducible apply Sound.of_fst; assumption)
    | dsimp only)

theorem sound_execLossOfSignal {q : Part} {f : BitVec 257} (p : Nat) (s : State) (hs : Sound q f s) : SoundOut q f (execLossOfSignal p s) := by
  unfold execLossOfSignal
  try dsimp only
  repeat' (first
    | with_reducible assumption
    | with_reducible apply soundOut_next
    | with_reducible apply sound_loseSignal
    | (fail_if_no_progress (with_reducible refine Sound.upd ?_ rfl rfl rfl rfl rfl))
    | split
    | dsimp only)

theorem sound_execSignalDetectReturn {q : Part} {f : BitVec 257} (p : Nat) (s : State) (hs : Sound q f s) : SoundOut q f (execSignalDetectReturn p s) := by
  unfold execSignalDetectReturn
  try dsimp only
  repeat' (first
    | with_reducible assumption
    | with_reducible apply soundOut_next
    | with_reducible apply sound_modFacet
    | (fail_if_no_progress (with_reducible refine Sound.upd ?_ rfl rfl rfl rfl rfl))
    | split
    | dsimp only)

theorem sound_execEthernetLinkUp {q : Part} {f : BitVec 257} (p : Nat) (s : State) (hs : Sound q f s) : SoundOut q f (execEthernetLinkUp p s) := by
  unfold execEthernetLinkUp
  try dsimp only
  repeat' (first
    | with_reducible assumption
    | with_reducible apply soundOut_next
    | with_reducible apply sound_countFacet
    | with_reducible apply sound_enterRun
    | with_reducible apply sound_modFacet
    | (fail_if_no_progress (with_reducible refine Sound.upd ?_ rfl rfl rfl rfl rfl))
    | split
    | (with_reducible apply Sound.of_fst; assumption)
    | dsimp only)

theorem sound_pendTable {q : Part} {f : BitVec 257} (s : State) (q' : Nat) (x : Expo) (hs : Sound q f s) : Sound q f (pendTable s q' x) := by
  unfold pendTable
  try dsimp only
  repeat' (first
    | with_reducible assumption
    | with_reducible apply sound_modFacet
    | with_reducible apply sound_applyPending
    | (fail_if_no_progress (with_reducible refine Sound.upd ?_ rfl rfl rfl rfl rfl))
    | split
    | (with_reducible apply Sound.of_fst; assumption)
    | dsimp only)

theorem sound_expoWrite {q : Part} {f : BitVec 257} (s : State) (p : Nat) (v : Octets) (hs : Sound q f s) : Sound q f (expoWrite s p v).1 := by
  unfold expoWrite
  try dsimp only
  repeat' (first
    | with_reducible assumption
    | with_reducible apply sound_modFacet
    | with_reducible apply sound_pendTable
    | (fail_if_no_progress (with_reducible refine Sound.upd ?_ rfl rfl rfl rfl rfl))
    | split
    | (with_reducible apply Sound.of_fst; assumption)
    | dsimp only)

theorem sound_execExposureTableWrite {q : Part} {f : BitVec 257} (p : Nat) (t : Octets) (s : State) (hs : Sound q f s) : SoundOut q f (execExposureTableWrite p t s) := by
  unfold execExposureTableWrite
  try dsimp only
  repeat' (first
    | with_reducible assumption
    | with_reducible apply soundOut_next
    | with_reducible apply sound_answered
    | with_reducible apply sound_expoWrite
    | (fail_if_no_progress (with_reducible refine Sound.upd ?_ rfl rfl rfl rfl rfl))
    | split
    | dsimp only)

end Sys2Proof.Machine
end

