-- ==== Sys2Proof/Laws/SoundEntries.lean ====
section
/-! SUPPORT. The definitions of Machine/Entries.lean keep what every step keeps. -/

set_option linter.unusedTactic false
set_option linter.unreachableTactic false
set_option linter.unusedVariables false

namespace Sys2Proof.Machine

theorem sound_startJob {q : Part} {f : BitVec 257} (s : State) (hs : Sound q f s) : Sound q f (startJob s) := by
  unfold startJob
  try dsimp only
  repeat' (first
    | with_reducible assumption
    | (fail_if_no_progress (with_reducible refine Sound.upd ?_ rfl rfl rfl rfl rfl))
    | split
    | (with_reducible apply Sound.of_fst; assumption)
    | dsimp only)

theorem sound_restartJob {q : Part} {f : BitVec 257} (s : State) (hs : Sound q f s) : Sound q f (restartJob s) := by
  unfold restartJob
  try dsimp only
  repeat' (first
    | with_reducible assumption
    | with_reducible apply sound_startJob
    | (fail_if_no_progress (with_reducible refine Sound.upd ?_ rfl rfl rfl rfl rfl))
    | split
    | (with_reducible apply Sound.of_fst; assumption)
    | dsimp only)

end Sys2Proof.Machine
end

