-- ==== Sys2Proof/Laws/SoundFacetTx.lean ====
section
/-! SUPPORT. The definitions of Machine/FacetTx.lean keep what every step keeps. -/

set_option linter.unusedTactic false
set_option linter.unreachableTactic false
set_option linter.unusedVariables false

namespace Sys2Proof.Machine

theorem sound_endFrameLoans {q : Part} {f : BitVec 257} (s : State) (a : Nat) (n : Nat) (hs : Sound q f s) : Sound q f (endFrameLoans s a n) := by
  unfold endFrameLoans
  try dsimp only
  repeat' (first
    | with_reducible assumption
    | with_reducible apply sound_endLoanAt
    | (with_reducible apply Sound.foldl_fst <;> intros)
    | (with_reducible apply Sound.foldl <;> intros)
    | (fail_if_no_progress (with_reducible refine Sound.upd ?_ rfl rfl rfl rfl rfl))
    | split
    | (with_reducible apply Sound.of_fst; assumption)
    | dsimp only)

theorem sound_putLane {q : Part} {f : BitVec 257} (s : State) (q' : Nat) (n : Nat) (t : LaneTx) (hs : Sound q f s) : Sound q f (putLane s q' n t) := by
  unfold putLane
  try dsimp only
  repeat' (first
    | with_reducible assumption
    | with_reducible apply sound_modFacet
    | (fail_if_no_progress (with_reducible refine Sound.upd ?_ rfl rfl rfl rfl rfl))
    | split
    | (with_reducible apply Sound.of_fst; assumption)
    | dsimp only)

theorem sound_breakOff {q : Part} {f : BitVec 257} (s : State) (q' : Nat) (hs : Sound q f s) : Sound q f (breakOff s q') := by
  unfold breakOff
  try dsimp only
  repeat' (first
    | with_reducible assumption
    | with_reducible apply sound_modFacet
    | (fail_if_no_progress (with_reducible refine Sound.upd ?_ rfl rfl rfl rfl rfl))
    | split
    | (with_reducible apply Sound.of_fst; assumption)
    | dsimp only)

theorem sound_startLane {q : Part} {f : BitVec 257} (s0 : State) (q' : Nat) (d : TxDesc) (margin : Bool) (retry : Bool) (start : Nat) (hs0 : Sound q f s0) : Sound q f (startLane s0 q' d margin retry start) := by
  unfold startLane
  try dsimp only
  repeat' (first
    | with_reducible assumption
    | with_reducible apply sound_endFrameLoans
    | with_reducible apply sound_modFacet
    | with_reducible apply sound_putLane
    | with_reducible apply sound_countFacet
    | (fail_if_no_progress (with_reducible refine Sound.upd ?_ rfl rfl rfl rfl rfl))
    | split
    | (with_reducible apply Sound.of_fst; assumption)
    | dsimp only)

theorem sound_dequeue {q : Part} {f : BitVec 257} (s : State) (q' : Nat) (ids : List Nat) (hs : Sound q f s) : Sound q f (dequeue s q' ids) := by
  unfold dequeue
  try dsimp only
  repeat' (first
    | with_reducible assumption
    | with_reducible apply sound_modFacet
    | (fail_if_no_progress (with_reducible refine Sound.upd ?_ rfl rfl rfl rfl rfl))
    | split
    | dsimp only)

theorem sound_openSlot {q : Part} {f : BitVec 257} (s : State) (q' : Nat) (i : Nat) (e : SlotEnt) (hs : Sound q f s) : Sound q f (openSlot s q' i e) := by
  unfold openSlot
  try dsimp only
  repeat' (first
    | with_reducible assumption
    | with_reducible apply sound_modFacet
    | with_reducible apply sound_dequeue
    | with_reducible apply sound_completeDesc
    | with_reducible apply sound_countFacet
    | with_reducible apply sound_startLane
    | (with_reducible apply Sound.foldl_fst <;> intros)
    | (with_reducible apply Sound.foldl <;> intros)
    | (fail_if_no_progress (with_reducible refine Sound.upd ?_ rfl rfl rfl rfl rfl))
    | split
    | (with_reducible apply Sound.of_fst; assumption)
    | dsimp only)

theorem sound_execSlotOpening {q : Part} {f : BitVec 257} (p : Nat) (i : Nat) (s : State) (hs : Sound q f s) : SoundOut q f (execSlotOpening p i s) := by
  unfold execSlotOpening
  try dsimp only
  repeat' (first
    | with_reducible assumption
    | with_reducible apply soundOut_next
    | with_reducible apply sound_swapLanes
    | with_reducible apply sound_openSlot
    | (fail_if_no_progress (with_reducible refine Sound.upd ?_ rfl rfl rfl rfl rfl))
    | split
    | (with_reducible apply Sound.of_fst; assumption)
    | dsimp only)

theorem sound_startAnswer {q : Part} {f : BitVec 257} (s : State) (q' : Nat) (v : Octets) (hs : Sound q f s) : Sound q f (startAnswer s q' v) := by
  unfold startAnswer
  try dsimp only
  repeat' (first
    | with_reducible assumption
    | with_reducible apply sound_modFacet
    | with_reducible apply sound_putLane
    | (fail_if_no_progress (with_reducible refine Sound.upd ?_ rfl rfl rfl rfl rfl))
    | split
    | (with_reducible apply Sound.of_fst; assumption)
    | dsimp only)

theorem sound_takeUnscheduled {q : Part} {f : BitVec 257} (n : Nat) (s : State) (p : Nat) (hs : Sound q f s) : Sound q f (takeUnscheduled n s p) := by
  induction n generalizing s with
  | zero => exact hs
  | succ n ih =>
    unfold takeUnscheduled
    repeat' (first | with_reducible assumption | with_reducible apply ih | with_reducible apply sound_completeDesc | with_reducible apply sound_dequeue | with_reducible apply sound_startLane | split)

theorem sound_execUnscheduledFrameStart {q : Part} {f : BitVec 257} (p : Nat) (s : State) (hs : Sound q f s) : SoundOut q f (execUnscheduledFrameStart p s) := by
  unfold execUnscheduledFrameStart
  try dsimp only
  repeat' (first
    | with_reducible assumption
    | with_reducible apply soundOut_next
    | with_reducible apply sound_startAnswer
    | with_reducible apply sound_takeUnscheduled
    | (fail_if_no_progress (with_reducible refine Sound.upd ?_ rfl rfl rfl rfl rfl))
    | split
    | (with_reducible apply Sound.of_fst; assumption)
    | dsimp only)

theorem sound_pushTs {q : Part} {f : BitVec 257} (s : State) (q' : Nat) (t : LaneTx) (hs : Sound q f s) : Sound q f (pushTs s q' t) := by
  unfold pushTs
  try dsimp only
  repeat' (first
    | with_reducible assumption
    | with_reducible apply sound_setFevt
    | with_reducible apply sound_setFacet
    | with_reducible apply sound_countFacet
    | (fail_if_no_progress (with_reducible refine Sound.upd ?_ rfl rfl rfl rfl rfl))
    | split
    | (with_reducible apply Sound.of_fst; assumption)
    | dsimp only)

theorem sound_frameSent {q : Part} {f : BitVec 257} (s : State) (q' : Nat) (t : LaneTx) (hs : Sound q f s) : Sound q f (frameSent s q' t) := by
  unfold frameSent
  try dsimp only
  repeat' (first
    | with_reducible assumption
    | with_reducible apply sound_modFacet
    | with_reducible apply sound_completeDesc
    | (fail_if_no_progress (with_reducible refine Sound.upd ?_ rfl rfl rfl rfl rfl))
    | split
    | (with_reducible apply Sound.of_fst; assumption)
    | dsimp only)

theorem sound_finishLane {q : Part} {f : BitVec 257} (s : State) (p : Nat) (t : LaneTx) (hs : Sound q f s) : Sound q f (finishLane s p t) := by
  unfold finishLane
  try dsimp only
  repeat' (first
    | with_reducible assumption
    | with_reducible apply sound_modFacet
    | with_reducible apply sound_portReadBytes
    | with_reducible apply sound_frameSent
    | with_reducible apply sound_pushTs
    | (fail_if_no_progress (with_reducible refine Sound.upd ?_ rfl rfl rfl rfl rfl))
    | split
    | (with_reducible apply Sound.of_fst; assumption)
    | dsimp only)

theorem sound_execTransmitCompletion {q : Part} {f : BitVec 257} (p : Nat) (s : State) (hs : Sound q f s) : SoundOut q f (execTransmitCompletion p s) := by
  unfold execTransmitCompletion
  try dsimp only
  repeat' (first
    | with_reducible assumption
    | with_reducible apply soundOut_next
    | with_reducible apply sound_finishLane
    | with_reducible apply sound_swapLanes
    | (fail_if_no_progress (with_reducible refine Sound.upd ?_ rfl rfl rfl rfl rfl))
    | split
    | (with_reducible apply Sound.of_fst; assumption)
    | dsimp only)

theorem sound_failLane {q : Part} {f : BitVec 257} (s : State) (p : Nat) (t : LaneTx) (hs : Sound q f s) : Sound q f (failLane s p t).1 := by
  unfold failLane
  try dsimp only
  repeat' (first
    | with_reducible assumption
    | with_reducible apply sound_portReadBytes
    | with_reducible apply sound_completeDesc
    | with_reducible apply sound_breakOff
    | (fail_if_no_progress (with_reducible refine Sound.upd ?_ rfl rfl rfl rfl rfl))
    | split
    | (with_reducible apply Sound.of_fst; assumption)
    | dsimp only)

theorem sound_execTransmitDataError {q : Part} {f : BitVec 257} (p : Nat) (s : State) (hs : Sound q f s) : SoundOut q f (execTransmitDataError p s) := by
  unfold execTransmitDataError
  try dsimp only
  repeat' (first
    | with_reducible assumption
    | with_reducible apply soundOut_next
    | with_reducible apply sound_failLane
    | with_reducible apply sound_swapLanes
    | (fail_if_no_progress (with_reducible refine Sound.upd ?_ rfl rfl rfl rfl rfl))
    | split
    | (with_reducible apply Sound.of_fst; assumption)
    | dsimp only)

theorem sound_failFrame {q : Part} {f : BitVec 257} (s : State) (q' : Nat) (a : AwaitAck) (hs : Sound q f s) : Sound q f (failFrame s q' a) := by
  unfold failFrame
  try dsimp only
  repeat' (first
    | with_reducible assumption
    | with_reducible apply sound_modFacet
    | (fail_if_no_progress (with_reducible refine Sound.upd ?_ rfl rfl rfl rfl rfl))
    | split
    | dsimp only)

theorem sound_execAckReception {q : Part} {f : BitVec 257} (p : Nat) (slot : Nat) (status : Nat) (seq : Nat) (s : State) (hs : Sound q f s) : SoundOut q f (execAckReception p slot status seq s) := by
  unfold execAckReception
  try dsimp only
  repeat' (first
    | with_reducible assumption
    | with_reducible apply soundOut_next
    | with_reducible apply sound_modFacet
    | with_reducible apply sound_completeDesc
    | with_reducible apply sound_failFrame
    | (fail_if_no_progress (with_reducible refine Sound.upd ?_ rfl rfl rfl rfl rfl))
    | split
    | (with_reducible apply Sound.of_fst; assumption)
    | dsimp only)

theorem sound_execAckDeadline {q : Part} {f : BitVec 257} (p : Nat) (s : State) (hs : Sound q f s) : SoundOut q f (execAckDeadline p s) := by
  unfold execAckDeadline
  try dsimp only
  repeat' (first
    | with_reducible assumption
    | with_reducible apply soundOut_next
    | with_reducible apply sound_failFrame
    | (fail_if_no_progress (with_reducible refine Sound.upd ?_ rfl rfl rfl rfl rfl))
    | split
    | (with_reducible apply Sound.of_fst; assumption)
    | dsimp only)

theorem sound_execRetryAttempt {q : Part} {f : BitVec 257} (p : Nat) (s : State) (hs : Sound q f s) : SoundOut q f (execRetryAttempt p s) := by
  unfold execRetryAttempt
  try dsimp only
  repeat' (first
    | with_reducible assumption
    | with_reducible apply soundOut_next
    | with_reducible apply sound_startLane
    | with_reducible apply sound_modFacet
    | (fail_if_no_progress (with_reducible refine Sound.upd ?_ rfl rfl rfl rfl rfl))
    | split
    | (with_reducible apply Sound.of_fst; assumption)
    | dsimp only)

theorem sound_superviseCyc {q : Part} {f : BitVec 257} (s : State) (q' : Nat) (hs : Sound q f s) : Sound q f (superviseCyc s q') := by
  unfold superviseCyc
  try dsimp only
  repeat' (first
    | with_reducible assumption
    | with_reducible apply sound_modFacet
    | with_reducible apply sound_retrain
    | (fail_if_no_progress (with_reducible refine Sound.upd ?_ rfl rfl rfl rfl rfl))
    | split
    | (with_reducible apply Sound.of_fst; assumption)
    | dsimp only)

theorem sound_takeOver {q : Part} {f : BitVec 257} (s : State) (q' : Nat) (p : Nat) (hs : Sound q f s) : Sound q f (takeOver s q' p) := by
  unfold takeOver
  try dsimp only
  repeat' (first
    | with_reducible assumption
    | with_reducible apply sound_setFacet
    | with_reducible apply sound_modFacet
    | (fail_if_no_progress (with_reducible refine Sound.upd ?_ rfl rfl rfl rfl rfl))
    | split
    | (with_reducible apply Sound.of_fst; assumption)
    | dsimp only)

theorem sound_giveBack {q : Part} {f : BitVec 257} (s0 : State) (p : Nat) (hs0 : Sound q f s0) : Sound q f (giveBack s0 p) := by
  unfold giveBack
  try dsimp only
  repeat' (first
    | with_reducible assumption
    | with_reducible apply sound_deferAll
    | with_reducible apply sound_modFacet
    | (fail_if_no_progress (with_reducible refine Sound.upd ?_ rfl rfl rfl rfl rfl))
    | split
    | (with_reducible apply Sound.of_fst; assumption)
    | dsimp only)

theorem sound_abortLane {q : Part} {f : BitVec 257} (s : State) (q' : Nat) (hs : Sound q f s) : Sound q f (abortLane s q') := by
  unfold abortLane
  try dsimp only
  repeat' (first
    | with_reducible assumption
    | with_reducible apply sound_modFacet
    | (fail_if_no_progress (with_reducible refine Sound.upd ?_ rfl rfl rfl rfl rfl))
    | split
    | (with_reducible apply Sound.of_fst; assumption)
    | dsimp only)

theorem sound_sendCyc {q : Part} {f : BitVec 257} (s : State) (q' : Nat) (hs : Sound q f s) : Sound q f (sendCyc s q') := by
  unfold sendCyc
  try dsimp only
  repeat' (first
    | with_reducible assumption
    | with_reducible apply sound_modFacet
    | (fail_if_no_progress (with_reducible refine Sound.upd ?_ rfl rfl rfl rfl rfl))
    | split
    | (with_reducible apply Sound.of_fst; assumption)
    | dsimp only)

theorem sound_retrainBoundary {q : Part} {f : BitVec 257} (s : State) (q' : Nat) (hs : Sound q f s) : Sound q f (retrainBoundary s q') := by
  unfold retrainBoundary
  try dsimp only
  repeat' (first
    | with_reducible assumption
    | with_reducible apply sound_modFacet
    | with_reducible apply sound_applyReached
    | (fail_if_no_progress (with_reducible refine Sound.upd ?_ rfl rfl rfl rfl rfl))
    | split
    | (with_reducible apply Sound.of_fst; assumption)
    | dsimp only)

theorem sound_crossBoundary {q : Part} {f : BitVec 257} (s : State) (q' : Nat) (hs : Sound q f s) : Sound q f (crossBoundary s q') := by
  unfold crossBoundary
  try dsimp only
  repeat' (first
    | with_reducible assumption
    | with_reducible apply sound_deferAll
    | with_reducible apply sound_abortLane
    | with_reducible apply sound_sendCyc
    | with_reducible apply sound_modFacet
    | with_reducible apply sound_takeOver
    | with_reducible apply sound_applyReached
    | with_reducible apply sound_superviseCyc
    | with_reducible apply sound_giveBack
    | (fail_if_no_progress (with_reducible refine Sound.upd ?_ rfl rfl rfl rfl rfl))
    | split
    | (with_reducible apply Sound.of_fst; assumption)
    | dsimp only)

theorem sound_execCycleBoundary {q : Part} {f : BitVec 257} (p : Nat) (s : State) (hs : Sound q f s) : SoundOut q f (execCycleBoundary p s) := by
  unfold execCycleBoundary
  try dsimp only
  repeat' (first
    | with_reducible assumption
    | with_reducible apply soundOut_next
    | with_reducible apply sound_retrainBoundary
    | with_reducible apply sound_crossBoundary
    | (fail_if_no_progress (with_reducible refine Sound.upd ?_ rfl rfl rfl rfl rfl))
    | split
    | (with_reducible apply Sound.of_fst; assumption)
    | dsimp only)

theorem sound_execPreparationInstant {q : Part} {f : BitVec 257} (p : Nat) (s : State) (hs : Sound q f s) : SoundOut q f (execPreparationInstant p s) := by
  unfold execPreparationInstant
  try dsimp only
  repeat' (first
    | with_reducible assumption
    | with_reducible apply soundOut_next
    | with_reducible apply sound_setFevt
    | with_reducible apply sound_modFacet
    | (fail_if_no_progress (with_reducible refine Sound.upd ?_ rfl rfl rfl rfl rfl))
    | split
    | dsimp only)

theorem sound_postAt {q : Part} {f : BitVec 257} (s0 : State) (p : Nat) (n : Nat) (txa : Word) (txl : Word) (v : Word) (d : TxDesc) (hs0 : Sound q f s0) : Sound q f (postAt s0 p n txa txl v d) := by
  unfold postAt
  try dsimp only
  repeat' (first
    | with_reducible assumption
    | with_reducible apply sound_completeDesc
    | with_reducible apply sound_incDrops
    | with_reducible apply sound_engineMod
    | with_reducible apply sound_modFacet
    | (fail_if_no_progress (with_reducible refine Sound.upd ?_ rfl rfl rfl rfl rfl))
    | split
    | (with_reducible apply Sound.of_fst; assumption)
    | dsimp only)

theorem sound_txpostWrite {q : Part} {f : BitVec 257} (s : State) (p : Nat) (lc : Nat) (v : Word) (hs : Sound q f s) : Sound q f (txpostWrite s p lc v) := by
  unfold txpostWrite
  try dsimp only
  repeat' (first
    | with_reducible assumption
    | with_reducible apply sound_postAt
    | (fail_if_no_progress (with_reducible refine Sound.upd ?_ rfl rfl rfl rfl rfl))
    | split
    | (with_reducible apply Sound.of_fst; assumption)
    | dsimp only)

theorem sound_execTxpostWrite {q : Part} {f : BitVec 257} (p : Nat) (lc : Nat) (v : Word) (s : State) (hs : Sound q f s) : SoundOut q f (execTxpostWrite p lc v s) := by
  unfold execTxpostWrite
  try dsimp only
  repeat' (first
    | with_reducible assumption
    | with_reducible apply soundOut_next
    | with_reducible apply sound_txpostWrite
    | (fail_if_no_progress (with_reducible refine Sound.upd ?_ rfl rfl rfl rfl rfl))
    | split
    | dsimp only)

theorem sound_txdoneRead {q : Part} {f : BitVec 257} (s : State) (p : Nat) (lc : Nat) (hs : Sound q f s) : Sound q f (txdoneRead s p lc).1 := by
  unfold txdoneRead
  try dsimp only
  repeat' (first
    | with_reducible assumption
    | with_reducible apply sound_modFacet
    | (fail_if_no_progress (with_reducible refine Sound.upd ?_ rfl rfl rfl rfl rfl))
    | split
    | (with_reducible apply Sound.of_fst; assumption)
    | dsimp only)

theorem sound_execTxdoneRead {q : Part} {f : BitVec 257} (p : Nat) (lc : Nat) (s : State) (hs : Sound q f s) : SoundOut q f (execTxdoneRead p lc s) := by
  unfold execTxdoneRead
  try dsimp only
  repeat' (first
    | with_reducible assumption
    | with_reducible apply soundOut_next
    | with_reducible apply sound_txdoneRead
    | (fail_if_no_progress (with_reducible refine Sound.upd ?_ rfl rfl rfl rfl rfl))
    | split
    | dsimp only)

theorem sound_txts2Read {q : Part} {f : BitVec 257} (s : State) (p : Nat) (hs : Sound q f s) : Sound q f (txts2Read s p).1 := by
  unfold txts2Read
  try dsimp only
  repeat' (first
    | with_reducible assumption
    | with_reducible apply sound_modFacet
    | (fail_if_no_progress (with_reducible refine Sound.upd ?_ rfl rfl rfl rfl rfl))
    | split
    | (with_reducible apply Sound.of_fst; assumption)
    | dsimp only)

theorem sound_execTxts2Read {q : Part} {f : BitVec 257} (p : Nat) (s : State) (hs : Sound q f s) : SoundOut q f (execTxts2Read p s) := by
  unfold execTxts2Read
  try dsimp only
  repeat' (first
    | with_reducible assumption
    | with_reducible apply soundOut_next
    | with_reducible apply sound_txts2Read
    | (fail_if_no_progress (with_reducible refine Sound.upd ?_ rfl rfl rfl rfl rfl))
    | split
    | dsimp only)

end Sys2Proof.Machine
end

