-- ==== Sys2Proof/Laws/SoundFacetRx.lean ====
section
/-! SUPPORT. The definitions of Machine/FacetRx.lean keep what every step keeps. -/

set_option linter.unusedTactic false
set_option linter.unreachableTactic false
set_option linter.unusedVariables false

namespace Sys2Proof.Machine

theorem sound_takeBuf {q : Part} {f : BitVec 257} (s : State) (face : Nat) (idx : Nat) (u : BufUse) (hs : Sound q f s) : Sound q f (takeBuf s face idx u) := by
  unfold takeBuf
  try dsimp only
  repeat' (first
    | with_reducible assumption
    | with_reducible apply sound_modFacet
    | (fail_if_no_progress (with_reducible refine Sound.upd ?_ rfl rfl rfl rfl rfl))
    | split
    | dsimp only)

theorem sound_writeRing {q : Part} {f : BitVec 257} (s : State) (face : Nat) (idx : Nat) (v : Octets) (hs : Sound q f s) : Sound q f (writeRing s face idx v) := by
  unfold writeRing
  try dsimp only
  repeat' (first
    | with_reducible assumption
    | with_reducible apply sound_sendPacket
    | with_reducible apply sound_portWriteBytes
    | (fail_if_no_progress (with_reducible refine Sound.upd ?_ rfl rfl rfl rfl rfl))
    | split
    | (with_reducible apply Sound.of_fst; assumption)
    | dsimp only)

theorem sound_relayStart {q : Part} {f : BitVec 257} (s : State) (e : Nat) (d : TxDesc) (hs : Sound q f s) : Sound q f (relayStart s e d) := by
  unfold relayStart
  try dsimp only
  repeat' (first
    | with_reducible assumption
    | with_reducible apply sound_startLane
    | with_reducible apply sound_modFacet
    | (fail_if_no_progress (with_reducible refine Sound.upd ?_ rfl rfl rfl rfl rfl))
    | split
    | (with_reducible apply Sound.of_fst; assumption)
    | dsimp only)

theorem sound_relayBegin {q : Part} {f : BitVec 257} (s : State) (face : Nat) (b : Nat) (v : Octets) (hs : Sound q f s) : Sound q f (relayBegin s face b v).1 := by
  unfold relayBegin
  try dsimp only
  repeat' (first
    | with_reducible assumption
    | with_reducible apply sound_writeRing
    | with_reducible apply sound_takeBuf
    | with_reducible apply sound_relayStart
    | with_reducible apply sound_sendPacket
    | (fail_if_no_progress (with_reducible refine Sound.upd ?_ rfl rfl rfl rfl rfl))
    | split
    | (with_reducible apply Sound.of_fst; assumption)
    | dsimp only)

theorem sound_arrive {q : Part} {f : BitVec 257} (s : State) (q' : Nat) (f' : Frame) (plain : Octets) (hs : Sound q f s) : Sound q f (arrive s q' f' plain).1 := by
  unfold arrive
  try dsimp only
  repeat' (first
    | with_reducible assumption
    | with_reducible apply sound_beamSearch
    | with_reducible apply sound_modQuad
    | with_reducible apply sound_setBeevt
    | with_reducible apply sound_relayBegin
    | with_reducible apply sound_cacheBeam
    | (fail_if_no_progress (with_reducible refine Sound.upd ?_ rfl rfl rfl rfl rfl))
    | split
    | (with_reducible apply Sound.of_fst; assumption)
    | dsimp only)

theorem sound_ackFrame {q : Part} {f : BitVec 257} (s : State) (q' : Nat) (slot : Nat) (status : Nat) (seq : Nat) (sof : Nat) (hs : Sound q f s) : Sound q f (ackFrame s q' slot status seq sof) := by
  unfold ackFrame
  try dsimp only
  repeat' (first
    | with_reducible assumption
    | with_reducible apply sound_modFacet
    | (fail_if_no_progress (with_reducible refine Sound.upd ?_ rfl rfl rfl rfl rfl))
    | split
    | (with_reducible apply Sound.of_fst; assumption)
    | dsimp only)

theorem sound_countBad {q : Part} {f : BitVec 257} (s : State) (q' : Nat) (status : Nat) (hs : Sound q f s) : Sound q f (countBad s q' status) := by
  unfold countBad
  try dsimp only
  repeat' (first
    | with_reducible assumption
    | with_reducible apply sound_countFacetBy
    | with_reducible apply sound_countFacet
    | with_reducible apply sound_modFacet
    | with_reducible apply sound_setFevt
    | (fail_if_no_progress (with_reducible refine Sound.upd ?_ rfl rfl rfl rfl rfl))
    | split
    | (with_reducible apply Sound.of_fst; assumption)
    | dsimp only)

theorem sound_countGood {q : Part} {f : BitVec 257} (s : State) (q' : Nat) (octets : Nat) (hs : Sound q f s) : Sound q f (countGood s q' octets) := by
  unfold countGood
  try dsimp only
  repeat' (first
    | with_reducible assumption
    | with_reducible apply sound_bumpCounter
    | (fail_if_no_progress (with_reducible refine Sound.upd ?_ rfl rfl rfl rfl rfl))
    | split
    | dsimp only)

theorem sound_toPreq {q : Part} {f : BitVec 257} (s : State) (q' : Nat) (v : Octets) (hs : Sound q f s) : Sound q f (toPreq s q' v) := by
  unfold toPreq
  try dsimp only
  repeat' (first
    | with_reducible assumption
    | with_reducible apply sound_setFacet
    | with_reducible apply sound_raise
    | with_reducible apply sound_countFacet
    | (fail_if_no_progress (with_reducible refine Sound.upd ?_ rfl rfl rfl rfl rfl))
    | split
    | dsimp only)

theorem sound_countRfx {q : Part} {f : BitVec 257} (s : State) (hs : Sound q f s) : Sound q f (countRfx s) := by
  unfold countRfx
  try dsimp only
  repeat' (first
    | with_reducible assumption
    | with_reducible apply sound_bumpEnt
    | (fail_if_no_progress (with_reducible refine Sound.upd ?_ rfl rfl rfl rfl rfl))
    | split
    | dsimp only)

theorem sound_toReflex {q : Part} {f : BitVec 257} (s : State) (q' : Nat) (o : Nat) (v : Octets) (beamLink : Bool) (hs : Sound q f s) : Sound q f (toReflex s q' o v beamLink) := by
  unfold toReflex
  try dsimp only
  repeat' (first
    | with_reducible assumption
    | with_reducible apply sound_toPreq
    | with_reducible apply sound_countRfx
    | with_reducible apply sound_setFacet
    | (fail_if_no_progress (with_reducible refine Sound.upd ?_ rfl rfl rfl rfl rfl))
    | split
    | dsimp only)

theorem sound_countBeam {q : Part} {f : BitVec 257} (s : State) (b : Nat) (f' : Frame) (hs : Sound q f s) : Sound q f (countBeam s b f') := by
  unfold countBeam
  try dsimp only
  repeat' (first
    | with_reducible assumption
    | with_reducible apply sound_engineMod
    | (fail_if_no_progress (with_reducible refine Sound.upd ?_ rfl rfl rfl rfl rfl))
    | split
    | (with_reducible apply Sound.of_fst; assumption)
    | dsimp only)

theorem sound_stockFrame {q : Part} {f : BitVec 257} (s : State) (q' : Nat) (idx : Nat) (beam : Option Nat) (v : Octets) (slot : Nat) (retry : Bool) (ts : Nat) (hs : Sound q f s) : Sound q f (stockFrame s q' idx beam v slot retry ts) := by
  unfold stockFrame
  try dsimp only
  repeat' (first
    | with_reducible assumption
    | with_reducible apply sound_writeRing
    | with_reducible apply sound_takeBuf
    | with_reducible apply sound_modFacet
    | with_reducible apply sound_countGood
    | (fail_if_no_progress (with_reducible refine Sound.upd ?_ rfl rfl rfl rfl rfl))
    | split
    | (with_reducible apply Sound.of_fst; assumption)
    | dsimp only)

theorem sound_deliver {q : Part} {f : BitVec 257} (s : State) (p : Nat) (l : Lookup) (fr : Frame) (plain : Octets) (slot : Nat) (retry : Bool) (ts : Nat) {t : State}
    (hs : Sound q f s) (e : deliver s p l fr plain slot retry ts = some t) : Sound q f t := by
  unfold deliver at e
  dsimp only at e
  repeat' split at e
  all_goals first
    | (cases e; done)
    | (injection e with e; subst e
       repeat' (first | with_reducible assumption | with_reducible apply sound_countGood | with_reducible apply sound_toReflex | with_reducible apply sound_toPreq | with_reducible apply sound_countFacet | with_reducible apply sound_relayTell | with_reducible apply sound_engineMod | with_reducible apply sound_countBeam | with_reducible apply sound_incDrops | with_reducible apply sound_setFevt | with_reducible apply sound_stockFrame | split))

theorem sound_lookupOf {q : Part} {f : BitVec 257} (s : State) (q' : Nat) (f' : Frame) (plain : Octets) (hs : Sound q f s) : Sound q f (lookupOf s q' f' plain).1 := by
  unfold lookupOf
  try dsimp only
  repeat' (first
    | with_reducible assumption
    | with_reducible apply sound_modFacet
    | with_reducible apply sound_arrive
    | (fail_if_no_progress (with_reducible refine Sound.upd ?_ rfl rfl rfl rfl rfl))
    | split
    | (with_reducible apply Sound.of_fst; assumption)
    | dsimp only)

theorem sound_receiveBeam {q : Part} {f : BitVec 257} (s : State) (q' : Nat) (h0 : Word) (h1 : Word) (h2 : Word) (pay : Octets) (crc : Word) (sof : Nat) (viol : Bool) (hs : Sound q f s) : Sound q f (receiveBeam s q' h0 h1 h2 pay crc sof viol) := by
  unfold receiveBeam
  try dsimp only
  repeat' (first
    | with_reducible assumption
    | with_reducible apply sound_dropRx
    | with_reducible apply sound_ackFrame
    | with_reducible apply sound_countBad
    | with_reducible apply sound_countFacet
    | with_reducible apply sound_lookupOf
    | (with_reducible apply sound_deliver; rotate_left 1; assumption)
    | with_reducible apply sound_modFacet
    | (fail_if_no_progress (with_reducible refine Sound.upd ?_ rfl rfl rfl rfl rfl))
    | split
    | (with_reducible apply Sound.of_fst; assumption)
    | dsimp only)

theorem sound_receiveEther {q : Part} {f : BitVec 257} (s : State) (q' : Nat) (v : Octets) (fcsGood : Bool) (sof : Nat) (hs : Sound q f s) : Sound q f (receiveEther s q' v fcsGood sof) := by
  unfold receiveEther
  try dsimp only
  repeat' (first
    | with_reducible assumption
    | with_reducible apply sound_countFacet
    | with_reducible apply sound_dropRx
    | with_reducible apply sound_modFacet
    | with_reducible apply sound_lookupOf
    | (with_reducible apply sound_deliver; rotate_left 1; assumption)
    | with_reducible apply sound_countBad
    | (fail_if_no_progress (with_reducible refine Sound.upd ?_ rfl rfl rfl rfl rfl))
    | split
    | (with_reducible apply Sound.of_fst; assumption)
    | dsimp only)

theorem sound_execFrameReception {q : Part} {f : BitVec 257} (p : Nat) (f' : RxFrame) (s : State) (hs : Sound q f s) : SoundOut q f (execFrameReception p f' s) := by
  unfold execFrameReception
  try dsimp only
  repeat' (first
    | with_reducible assumption
    | with_reducible apply soundOut_next
    | with_reducible apply sound_dropRx
    | with_reducible apply sound_receiveBeam
    | with_reducible apply sound_receiveEther
    | (fail_if_no_progress (with_reducible refine Sound.upd ?_ rfl rfl rfl rfl rfl))
    | split
    | (with_reducible apply Sound.of_fst; assumption)
    | dsimp only)

theorem sound_execArrivalLookup {q : Part} {f : BitVec 257} (p : Nat) (f' : Frame) (s : State) (hs : Sound q f s) : SoundOut q f (execArrivalLookup p f' s) := by
  unfold execArrivalLookup
  try dsimp only
  repeat' (first
    | with_reducible assumption
    | with_reducible apply soundOut_next
    | with_reducible apply sound_dropRx
    | with_reducible apply sound_arrive
    | with_reducible apply sound_modFacet
    | (fail_if_no_progress (with_reducible refine Sound.upd ?_ rfl rfl rfl rfl rfl))
    | split
    | dsimp only)

theorem sound_queuePost {q : Part} {f : BitVec 257} (s : State) (n : Nat) (face : Nat) (x : RxPost) (hs : Sound q f s) : Sound q f (queuePost s n face x) := by
  unfold queuePost
  try dsimp only
  repeat' (first
    | with_reducible assumption
    | with_reducible apply sound_portWriteBytes
    | with_reducible apply sound_modCore
    | with_reducible apply sound_raise
    | (fail_if_no_progress (with_reducible refine Sound.upd ?_ rfl rfl rfl rfl rfl))
    | split
    | dsimp only)

theorem sound_execRxPost {q : Part} {f : BitVec 257} (p : Nat) (s : State) (hs : Sound q f s) : SoundOut q f (execRxPost p s) := by
  unfold execRxPost
  try dsimp only
  repeat' (first
    | with_reducible assumption
    | with_reducible apply soundOut_next
    | with_reducible apply sound_modFacet
    | with_reducible apply sound_freeBuf
    | with_reducible apply sound_incDrops
    | with_reducible apply sound_setFevt
    | with_reducible apply sound_queuePost
    | with_reducible apply sound_engineMod
    | (fail_if_no_progress (with_reducible refine Sound.upd ?_ rfl rfl rfl rfl rfl))
    | split
    | (with_reducible apply Sound.of_fst; assumption)
    | dsimp only)

theorem sound_rxfreeWrite {q : Part} {f : BitVec 257} (s : State) (p : Nat) (v : Word) (hs : Sound q f s) : Sound q f (rxfreeWrite s p v) := by
  unfold rxfreeWrite
  try dsimp only
  repeat' (first
    | with_reducible assumption
    | with_reducible apply sound_freeBuf
    | (fail_if_no_progress (with_reducible refine Sound.upd ?_ rfl rfl rfl rfl rfl))
    | split
    | dsimp only)

theorem sound_execRxfreeWrite {q : Part} {f : BitVec 257} (p : Nat) (v : Word) (s : State) (hs : Sound q f s) : SoundOut q f (execRxfreeWrite p v s) := by
  unfold execRxfreeWrite
  try dsimp only
  repeat' (first
    | with_reducible assumption
    | with_reducible apply soundOut_next
    | with_reducible apply sound_rxfreeWrite
    | (fail_if_no_progress (with_reducible refine Sound.upd ?_ rfl rfl rfl rfl rfl))
    | split
    | dsimp only)

theorem sound_rqcfgWrite {q : Part} {f : BitVec 257} (s : State) (n : Nat) (v : Word) (hs : Sound q f s) : Sound q f (rqcfgWrite s n v) := by
  unfold rqcfgWrite
  try dsimp only
  repeat' (first
    | with_reducible assumption
    | with_reducible apply sound_modCore
    | (fail_if_no_progress (with_reducible refine Sound.upd ?_ rfl rfl rfl rfl rfl))
    | split
    | dsimp only)

theorem sound_execRqcfgWrite {q : Part} {f : BitVec 257} (n : Nat) (v : Word) (s : State) (hs : Sound q f s) : SoundOut q f (execRqcfgWrite n v s) := by
  unfold execRqcfgWrite
  try dsimp only
  repeat' (first
    | with_reducible assumption
    | with_reducible apply soundOut_next
    | with_reducible apply sound_rqcfgWrite
    | (fail_if_no_progress (with_reducible refine Sound.upd ?_ rfl rfl rfl rfl rfl))
    | split
    | dsimp only)

end Sys2Proof.Machine
end

