-- ==== Sys2Proof/Laws/SoundFacetFault.lean ====
section
/-! SUPPORT. The definitions of Machine/FacetFault.lean keep what every step keeps. -/

set_option linter.unusedTactic false
set_option linter.unreachableTactic false
set_option linter.unusedVariables false

namespace Sys2Proof.Machine

theorem sound_loseDesc {q : Part} {f : BitVec 257} (p : Nat) (s : State) (d : TxDesc) (hs : Sound q f s) : Sound q f (loseDesc p s d) := by
  unfold loseDesc
  try dsimp only
  repeat' (first
    | with_reducible assumption
    | with_reducible apply sound_completeDesc
    | with_reducible apply sound_incDrops
    | with_reducible apply sound_unhold
    | (fail_if_no_progress (with_reducible refine Sound.upd ?_ rfl rfl rfl rfl rfl))
    | split
    | (with_reducible apply Sound.of_fst; assumption)
    | dsimp only)

theorem sound_loseAll {q : Part} {f : BitVec 257} (s : State) (p : Nat) (hs : Sound q f s) : Sound q f (loseAll s p) := by
  unfold loseAll
  try dsimp only
  repeat' (first
    | with_reducible assumption
    | with_reducible apply sound_modFacet
    | with_reducible apply sound_loseDesc
    | (with_reducible apply Sound.foldl_fst <;> intros)
    | (with_reducible apply Sound.foldl <;> intros)
    | (fail_if_no_progress (with_reducible refine Sound.upd ?_ rfl rfl rfl rfl rfl))
    | split
    | (with_reducible apply Sound.of_fst; assumption)
    | dsimp only)

theorem sound_keepAll {q : Part} {f : BitVec 257} (s : State) (p : Nat) (hs : Sound q f s) : Sound q f (keepAll s p) := by
  unfold keepAll
  try dsimp only
  repeat' (first
    | with_reducible assumption
    | with_reducible apply sound_deferAll
    | with_reducible apply sound_modFacet
    | (fail_if_no_progress (with_reducible refine Sound.upd ?_ rfl rfl rfl rfl rfl))
    | split
    | (with_reducible apply Sound.of_fst; assumption)
    | dsimp only)

theorem sound_retireFacet {q : Part} {f : BitVec 257} (s0 : State) (p : Nat) (criterion : Nat) (hs0 : Sound q f s0) : Sound q f (retireFacet s0 p criterion) := by
  unfold retireFacet
  try dsimp only
  repeat' (first
    | with_reducible assumption
    | with_reducible apply sound_loseAll
    | with_reducible apply sound_modFacet
    | with_reducible apply sound_dropRx
    | with_reducible apply sound_keepAll
    | with_reducible apply sound_setLinkState
    | with_reducible apply sound_emergency
    | (with_reducible apply Sound.foldl_fst <;> intros)
    | (with_reducible apply Sound.foldl <;> intros)
    | (fail_if_no_progress (with_reducible refine Sound.upd ?_ rfl rfl rfl rfl rfl))
    | split
    | (with_reducible apply Sound.of_fst; assumption)
    | dsimp only)

theorem sound_failedAttempt {q : Part} {f : BitVec 257} (s : State) (p : Nat) (hs : Sound q f s) : Sound q f (failedAttempt s p) := by
  unfold failedAttempt
  try dsimp only
  repeat' (first
    | with_reducible assumption
    | with_reducible apply sound_startTraining
    | with_reducible apply sound_modFacet
    | with_reducible apply sound_retireFacet
    | (fail_if_no_progress (with_reducible refine Sound.upd ?_ rfl rfl rfl rfl rfl))
    | split
    | dsimp only)

theorem sound_execTrainingTimeout {q : Part} {f : BitVec 257} (p : Nat) (s : State) (hs : Sound q f s) : SoundOut q f (execTrainingTimeout p s) := by
  unfold execTrainingTimeout
  try dsimp only
  repeat' (first
    | with_reducible assumption
    | with_reducible apply soundOut_next
    | with_reducible apply sound_startTraining
    | with_reducible apply sound_failedAttempt
    | (fail_if_no_progress (with_reducible refine Sound.upd ?_ rfl rfl rfl rfl rfl))
    | split
    | dsimp only)

theorem sound_cycSupervise {q : Part} {f : BitVec 257} (s : State) (p : Nat) (cyc : Nat) (arrived : Nat) (hs : Sound q f s) : Sound q f (cycSupervise s p cyc arrived) := by
  unfold cycSupervise
  try dsimp only
  repeat' (first
    | with_reducible assumption
    | with_reducible apply sound_cycReceive
    | (fail_if_no_progress (with_reducible refine Sound.upd ?_ rfl rfl rfl rfl rfl))
    | split
    | dsimp only)

theorem sound_execErrorWindowEnd {q : Part} {f : BitVec 257} (p : Nat) (s : State) (hs : Sound q f s) : SoundOut q f (execErrorWindowEnd p s) := by
  unfold execErrorWindowEnd
  try dsimp only
  repeat' (first
    | with_reducible assumption
    | with_reducible apply soundOut_next
    | with_reducible apply sound_setFacet
    | with_reducible apply sound_modFacet
    | with_reducible apply sound_setFevt
    | with_reducible apply sound_retireFacet
    | (fail_if_no_progress (with_reducible refine Sound.upd ?_ rfl rfl rfl rfl rfl))
    | split
    | dsimp only)

theorem sound_execSignalLossTimeout {q : Part} {f : BitVec 257} (p : Nat) (s : State) (hs : Sound q f s) : SoundOut q f (execSignalLossTimeout p s) := by
  unfold execSignalLossTimeout
  try dsimp only
  repeat' (first
    | with_reducible assumption
    | with_reducible apply soundOut_next
    | with_reducible apply sound_retireFacet
    | (fail_if_no_progress (with_reducible refine Sound.upd ?_ rfl rfl rfl rfl rfl))
    | split
    | (with_reducible apply Sound.of_fst; assumption)
    | dsimp only)

end Sys2Proof.Machine
end

