-- ==== Sys2Proof/Laws/SoundCoreReset.lean ====
section
/-! SUPPORT. The definitions of Machine/CoreReset.lean keep what every step keeps. -/

set_option linter.unusedTactic false
set_option linter.unreachableTactic false
set_option linter.unusedVariables false

namespace Sys2Proof.Machine

theorem sound_repostBeams {q : Part} {f : BitVec 257} (s : State) (t : Nat → Bool) (hs : Sound q f s) : Sound q f (repostBeams s t) := by
  unfold repostBeams
  try dsimp only
  repeat' (first
    | with_reducible assumption
    | (fail_if_no_progress (with_reducible refine Sound.upd ?_ rfl rfl rfl rfl rfl))
    | split
    | (with_reducible apply Sound.of_fst; assumption)
    | dsimp only)

theorem sound_repost {q : Part} {f : BitVec 257} (s : State) (n : Nat) (hs : Sound q f s) : Sound q f (repost s n) := by
  unfold repost
  try dsimp only
  repeat' (first
    | with_reducible assumption
    | with_reducible apply sound_repostBeams
    | (fail_if_no_progress (with_reducible refine Sound.upd ?_ rfl rfl rfl rfl rfl))
    | split
    | dsimp only)

theorem sound_endLoansOf {q : Part} {f : BitVec 257} (s : State) (c : Nat) (o : Nat → Bool) (hs : Sound q f s) : Sound q f (endLoansOf s c o) := by
  unfold endLoansOf
  try dsimp only
  repeat' (first
    | with_reducible assumption
    | with_reducible apply sound_restoreLoan
    | (with_reducible apply Sound.foldl_fst <;> intros)
    | (with_reducible apply Sound.foldl <;> intros)
    | (fail_if_no_progress (with_reducible refine Sound.upd ?_ rfl rfl rfl rfl rfl))
    | split
    | dsimp only)

theorem sound_endAllLoans {q : Part} {f : BitVec 257} (s : State) (hs : Sound q f s) : Sound q f (endAllLoans s) := by
  unfold endAllLoans
  try dsimp only
  repeat' (first
    | with_reducible assumption
    | with_reducible apply sound_endLoansOf
    | (with_reducible apply Sound.foldl_fst <;> intros)
    | (with_reducible apply Sound.foldl <;> intros)
    | (fail_if_no_progress (with_reducible refine Sound.upd ?_ rfl rfl rfl rfl rfl))
    | split
    | dsimp only)

theorem sound_flushCluster {q : Part} {f : BitVec 257} (s : State) (c : Nat) (hs : Sound q f s) : Sound q f (flushCluster s c) := by
  unfold flushCluster
  try dsimp only
  repeat' (first
    | with_reducible assumption
    | with_reducible apply sound_flushMerge
    | (with_reducible apply Sound.foldl_fst <;> intros)
    | (with_reducible apply Sound.foldl <;> intros)
    | (fail_if_no_progress (with_reducible refine Sound.upd ?_ rfl rfl rfl rfl rfl))
    | split
    | dsimp only)

theorem sound_coreResetOp {q : Part} {f : BitVec 257} (s : State) (n : Nat) (hs : Sound q f s) : Sound q f (coreResetOp s n) := by
  unfold coreResetOp
  try dsimp only
  repeat' (first
    | with_reducible assumption
    | with_reducible apply sound_settleWork
    | with_reducible apply sound_endLoansOf
    | with_reducible apply sound_modCore
    | (with_reducible apply Sound.foldl_fst <;> intros)
    | (with_reducible apply Sound.foldl <;> intros)
    | (fail_if_no_progress (with_reducible refine Sound.upd ?_ rfl rfl rfl rfl rfl))
    | split
    | (with_reducible apply Sound.of_fst; assumption)
    | dsimp only)

theorem sound_clusterResetOp {q : Part} {f : BitVec 257} (s : State) (c : Nat) (hs : Sound q f s) : Sound q f (clusterResetOp s c) := by
  unfold clusterResetOp
  try dsimp only
  repeat' (first
    | with_reducible assumption
    | with_reducible apply sound_endLoansOf
    | with_reducible apply sound_coreResetOp
    | with_reducible apply sound_modCluster
    | with_reducible apply sound_flushCluster
    | (with_reducible apply Sound.foldl_fst <;> intros)
    | (with_reducible apply Sound.foldl <;> intros)
    | (fail_if_no_progress (with_reducible refine Sound.upd ?_ rfl rfl rfl rfl rfl))
    | split
    | dsimp only)

end Sys2Proof.Machine
end

