-- ==== Sys2Proof/Laws/SoundDeliveries.lean ====
section
/-! SUPPORT. The definitions of Machine/Deliveries.lean keep what every step keeps. -/

set_option linter.unusedTactic false
set_option linter.unreachableTactic false
set_option linter.unusedVariables false

namespace Sys2Proof.Machine

theorem sound_execMulProductDelivery {q : Part} {f : BitVec 257} (n : Nat) (s : State) (hs : Sound q f s) : SoundOut q f (execMulProductDelivery n s) := by
  unfold execMulProductDelivery
  try dsimp only
  repeat' (first
    | with_reducible assumption
    | with_reducible apply soundOut_next
    | with_reducible apply sound_modCore
    | (fail_if_no_progress (with_reducible refine Sound.upd ?_ rfl rfl rfl rfl rfl))
    | split
    | dsimp only)

theorem sound_execDivDelivery {q : Part} {f : BitVec 257} (n : Nat) (s : State) (hs : Sound q f s) : SoundOut q f (execDivDelivery n s) := by
  unfold execDivDelivery
  try dsimp only
  repeat' (first
    | with_reducible assumption
    | with_reducible apply soundOut_next
    | with_reducible apply sound_setCore
    | (fail_if_no_progress (with_reducible refine Sound.upd ?_ rfl rfl rfl rfl rfl))
    | split
    | (with_reducible apply Sound.of_fst; assumption)
    | dsimp only)

theorem sound_execFpuDelivery {q : Part} {f : BitVec 257} (n : Nat) (s : State) (hs : Sound q f s) : SoundOut q f (execFpuDelivery n s) := by
  unfold execFpuDelivery
  try dsimp only
  repeat' (first
    | with_reducible assumption
    | with_reducible apply soundOut_next
    | with_reducible apply sound_setCore
    | (fail_if_no_progress (with_reducible refine Sound.upd ?_ rfl rfl rfl rfl rfl))
    | split
    | (with_reducible apply Sound.of_fst; assumption)
    | dsimp only)

theorem sound_execBeamOperationDelivery {q : Part} {f : BitVec 257} (n : Nat) (s : State) (hs : Sound q f s) : SoundOut q f (execBeamOperationDelivery n s) := by
  unfold execBeamOperationDelivery
  try dsimp only
  repeat' (first
    | with_reducible assumption
    | with_reducible apply soundOut_next
    | with_reducible apply sound_beamDeliver
    | (fail_if_no_progress (with_reducible refine Sound.upd ?_ rfl rfl rfl rfl rfl))
    | split
    | dsimp only)

theorem sound_deliverLoad {q : Part} {f : BitVec 257} (s : State) (n : Nat) (i : Nat) (l : Load) (d : LoadData) (hs : Sound q f s) : Sound q f (deliverLoad s n i l d) := by
  unfold deliverLoad
  try dsimp only
  repeat' (first
    | with_reducible assumption
    | with_reducible apply sound_modCore
    | (fail_if_no_progress (with_reducible refine Sound.upd ?_ rfl rfl rfl rfl rfl))
    | split
    | (with_reducible apply Sound.of_fst; assumption)
    | dsimp only)

theorem sound_loadLate {q : Part} {f : BitVec 257} (s : State) (n : Nat) (l : Load) (hs : Sound q f s) : Sound q f (loadLate s n l) := by
  unfold loadLate
  try dsimp only
  repeat' (first
    | with_reducible assumption
    | with_reducible apply sound_countLate
    | (fail_if_no_progress (with_reducible refine Sound.upd ?_ rfl rfl rfl rfl rfl))
    | split
    | (with_reducible apply Sound.of_fst; assumption)
    | dsimp only)

theorem sound_execLoadDelivery {q : Part} {f : BitVec 257} (n : Nat) (i : Nat) (s0 : State) (hs0 : Sound q f s0) : SoundOut q f (execLoadDelivery n i s0) := by
  unfold execLoadDelivery
  try dsimp only
  repeat' (first
    | with_reducible assumption
    | with_reducible apply soundOut_next
    | with_reducible apply sound_tryPerform
    | with_reducible apply sound_drainEntry
    | with_reducible apply sound_flashTurn
    | with_reducible apply sound_deliverLoad
    | with_reducible apply sound_loadLate
    | (fail_if_no_progress (with_reducible refine Sound.upd ?_ rfl rfl rfl rfl rfl))
    | split
    | (with_reducible apply Sound.of_fst; assumption)
    | dsimp only)

theorem sound_execStoreDrain {q : Part} {f : BitVec 257} (n : Nat) (s : State) (hs : Sound q f s) : SoundOut q f (execStoreDrain n s) := by
  unfold execStoreDrain
  try dsimp only
  repeat' (first
    | with_reducible assumption
    | with_reducible apply soundOut_next
    | (with_reducible apply sound_drainFirst <;> intros)
    | with_reducible apply sound_drainEntry
    | (fail_if_no_progress (with_reducible refine Sound.upd ?_ rfl rfl rfl rfl rfl))
    | split
    | (with_reducible apply Sound.of_fst; assumption)
    | dsimp only)

theorem sound_execMergeWriteOut {q : Part} {f : BitVec 257} (c : Nat) (k : Nat) (s : State) (hs : Sound q f s) : SoundOut q f (execMergeWriteOut c k s) := by
  unfold execMergeWriteOut
  try dsimp only
  repeat' (first
    | with_reducible assumption
    | with_reducible apply soundOut_next
    | with_reducible apply sound_forceMerge
    | (fail_if_no_progress (with_reducible refine Sound.upd ?_ rfl rfl rfl rfl rfl))
    | split
    | (with_reducible apply Sound.of_fst; assumption)
    | dsimp only)

end Sys2Proof.Machine
end

