-- ==== Sys2Proof/Laws/SoundIris.lean ====
section
/-! SUPPORT. The definitions of Machine/Iris.lean keep what every step keeps. -/

set_option linter.unusedTactic false
set_option linter.unreachableTactic false
set_option linter.unusedVariables false

namespace Sys2Proof.Machine

theorem sound_recomputeAllot {q : Part} {f : BitVec 257} (s : State) (hs : Sound q f s) : Sound q f (recomputeAllot s) := by
  unfold recomputeAllot
  try dsimp only
  repeat' (first
    | with_reducible assumption
    | with_reducible apply sound_modIr
    | (with_reducible apply Sound.foldl_fst <;> intros)
    | (with_reducible apply Sound.foldl <;> intros)
    | (fail_if_no_progress (with_reducible refine Sound.upd ?_ rfl rfl rfl rfl rfl))
    | split
    | dsimp only)

theorem sound_execAllotmentRecomputation {q : Part} {f : BitVec 257} (s : State) (hs : Sound q f s) : SoundOut q f (execAllotmentRecomputation s) := by
  unfold execAllotmentRecomputation
  try dsimp only
  repeat' (first
    | with_reducible assumption
    | with_reducible apply soundOut_next
    | with_reducible apply sound_recomputeAllot
    | (fail_if_no_progress (with_reducible refine Sound.upd ?_ rfl rfl rfl rfl rfl))
    | split
    | dsimp only)

theorem sound_wantAllot {q : Part} {f : BitVec 257} (s : State) (hs : Sound q f s) : Sound q f (wantAllot s) := by
  unfold wantAllot
  try dsimp only
  repeat' (first
    | with_reducible assumption
    | (fail_if_no_progress (with_reducible refine Sound.upd ?_ rfl rfl rfl rfl rfl))
    | split
    | dsimp only)

theorem sound_budgetWrite {q : Part} {f : BitVec 257} (s : State) (idx : Nat) (sub : Nat) (v : Nat) (hs : Sound q f s) : Sound q f (budgetWrite s idx sub v).1 := by
  unfold budgetWrite
  try dsimp only
  repeat' (first
    | with_reducible assumption
    | with_reducible apply sound_wantAllot
    | with_reducible apply sound_setEnt
    | (fail_if_no_progress (with_reducible refine Sound.upd ?_ rfl rfl rfl rfl rfl))
    | split
    | dsimp only)

theorem sound_execBudgetWrite {q : Part} {f : BitVec 257} (idx : Nat) (sub : Nat) (v : Nat) (s : State) (hs : Sound q f s) : SoundOut q f (execBudgetWrite idx sub v s) := by
  unfold execBudgetWrite
  try dsimp only
  repeat' (first
    | with_reducible assumption
    | with_reducible apply soundOut_next
    | with_reducible apply sound_answered
    | with_reducible apply sound_budgetWrite
    | (fail_if_no_progress (with_reducible refine Sound.upd ?_ rfl rfl rfl rfl rfl))
    | split
    | dsimp only)

theorem sound_measureCluster {q : Part} {f : BitVec 257} (s : State) (c : Nat) (m : Nat) (hs : Sound q f s) : Sound q f (measureCluster s c m) := by
  unfold measureCluster
  try dsimp only
  repeat' (first
    | with_reducible assumption
    | with_reducible apply sound_setIr
    | with_reducible apply sound_setIrBit
    | with_reducible apply sound_bumpEnt
    | (fail_if_no_progress (with_reducible refine Sound.upd ?_ rfl rfl rfl rfl rfl))
    | split
    | dsimp only)

theorem sound_overBudget {q : Part} {f : BitVec 257} (s : State) (full : Bool) (hs : Sound q f s) : Sound q f (overBudget s full) := by
  unfold overBudget
  try dsimp only
  repeat' (first
    | with_reducible assumption
    | with_reducible apply sound_raise
    | (fail_if_no_progress (with_reducible refine Sound.upd ?_ rfl rfl rfl rfl rfl))
    | split
    | dsimp only)

theorem sound_lateHandshakes {q : Part} {f : BitVec 257} (s : State) (hs : Sound q f s) : Sound q f (lateHandshakes s) := by
  unfold lateHandshakes
  try dsimp only
  repeat' (first
    | with_reducible assumption
    | with_reducible apply sound_breakPace
    | (with_reducible apply Sound.foldl_fst <;> intros)
    | (with_reducible apply Sound.foldl <;> intros)
    | (fail_if_no_progress (with_reducible refine Sound.upd ?_ rfl rfl rfl rfl rfl))
    | split
    | (with_reducible apply Sound.of_fst; assumption)
    | dsimp only)

theorem sound_execIrisMeasurement {q : Part} {f : BitVec 257} (meas : List Nat) (shared : Nat) (vcore : Nat) (s : State) (hs : Sound q f s) : SoundOut q f (execIrisMeasurement meas shared vcore s) := by
  unfold execIrisMeasurement
  try dsimp only
  repeat' (first
    | with_reducible assumption
    | with_reducible apply soundOut_next
    | with_reducible apply sound_measureCluster
    | with_reducible apply sound_lateHandshakes
    | with_reducible apply sound_overBudget
    | (with_reducible apply Sound.foldl_fst <;> intros)
    | (with_reducible apply Sound.foldl <;> intros)
    | (fail_if_no_progress (with_reducible refine Sound.upd ?_ rfl rfl rfl rfl rfl))
    | split
    | (with_reducible apply Sound.of_fst; assumption)
    | dsimp only)

theorem sound_dropPaces {q : Part} {f : BitVec 257} (s : State) (q' : Nat) (hs : Sound q f s) : Sound q f (dropPaces s q') := by
  unfold dropPaces
  try dsimp only
  repeat' (first
    | with_reducible assumption
    | with_reducible apply sound_wantAllot
    | with_reducible apply sound_breakPace
    | with_reducible apply sound_modCluster
    | (with_reducible apply Sound.foldl_fst <;> intros)
    | (with_reducible apply Sound.foldl <;> intros)
    | (fail_if_no_progress (with_reducible refine Sound.upd ?_ rfl rfl rfl rfl rfl))
    | split
    | dsimp only)

theorem sound_execThermalPaceDrop {q : Part} {f : BitVec 257} (q' : Nat) (s : State) (hs : Sound q f s) : SoundOut q f (execThermalPaceDrop q' s) := by
  unfold execThermalPaceDrop
  try dsimp only
  repeat' (first
    | with_reducible assumption
    | with_reducible apply soundOut_next
    | with_reducible apply sound_dropPaces
    | (fail_if_no_progress (with_reducible refine Sound.upd ?_ rfl rfl rfl rfl rfl))
    | split
    | (with_reducible apply Sound.of_fst; assumption)
    | dsimp only)

theorem sound_thermalQuad {q : Part} {f : BitVec 257} (s : State) (q' : Nat) (t : Int) (hs : Sound q f s) : Sound q f (thermalQuad s q' t) := by
  unfold thermalQuad
  try dsimp only
  repeat' (first
    | with_reducible assumption
    | with_reducible apply sound_wantAllot
    | with_reducible apply sound_raise
    | with_reducible apply sound_dropPaces
    | (fail_if_no_progress (with_reducible refine Sound.upd ?_ rfl rfl rfl rfl rfl))
    | split
    | (with_reducible apply Sound.of_fst; assumption)
    | dsimp only)

end Sys2Proof.Machine
end

