-- ==== Sys2Proof/Laws/SoundPace.lean ====
section
/-! SUPPORT. The definitions of Machine/Pace.lean keep what every step keeps. -/

set_option linter.unusedTactic false
set_option linter.unreachableTactic false
set_option linter.unusedVariables false

namespace Sys2Proof.Machine

theorem sound_paceAccept {q : Part} {f : BitVec 257} (s : State) (c : Nat) (v : Nat) (r : Option Reply) (hs : Sound q f s) : Sound q f (paceAccept s c v r) := by
  unfold paceAccept
  try dsimp only
  repeat' (first
    | with_reducible assumption
    | with_reducible apply sound_setEnt
    | with_reducible apply sound_modCluster
    | with_reducible apply sound_wantAllot
    | (fail_if_no_progress (with_reducible refine Sound.upd ?_ rfl rfl rfl rfl rfl))
    | split
    | dsimp only)

theorem sound_paceRequest {q : Part} {f : BitVec 257} (s : State) (c : Nat) (v : Nat) (r : Option Reply) (hs : Sound q f s) : Sound q f (paceRequest s c v r).1 := by
  unfold paceRequest
  try dsimp only
  repeat' (first
    | with_reducible assumption
    | with_reducible apply sound_modCluster
    | with_reducible apply sound_paceAccept
    | (fail_if_no_progress (with_reducible refine Sound.upd ?_ rfl rfl rfl rfl rfl))
    | split
    | (with_reducible apply Sound.of_fst; assumption)
    | dsimp only)

theorem sound_paceWrite {q : Part} {f : BitVec 257} (s : State) (c : Nat) (v : Nat) (hs : Sound q f s) : Sound q f (paceWrite s c v).1 := by
  unfold paceWrite
  try dsimp only
  repeat' (first
    | with_reducible assumption
    | with_reducible apply sound_paceRequest
    | (fail_if_no_progress (with_reducible refine Sound.upd ?_ rfl rfl rfl rfl rfl))
    | split
    | dsimp only)

theorem sound_execPaceWrite {q : Part} {f : BitVec 257} (c : Nat) (v : Nat) (s : State) (hs : Sound q f s) : SoundOut q f (execPaceWrite c v s) := by
  unfold execPaceWrite
  try dsimp only
  repeat' (first
    | with_reducible assumption
    | with_reducible apply soundOut_next
    | with_reducible apply sound_answered
    | with_reducible apply sound_paceWrite
    | (fail_if_no_progress (with_reducible refine Sound.upd ?_ rfl rfl rfl rfl rfl))
    | split
    | dsimp only)

theorem sound_drainOlder {q : Part} {f : BitVec 257} (s : State) (n id : Nat) (hs : Sound q f s) : Sound q f (drainOlder s n id) :=
  sound_drainFirst _ _ _ _ (fun s n e h => sound_drainEntry s n e h) hs

theorem sound_performInOrder {q : Part} {f : BitVec 257} (s : State) (n i : Nat) (hs : Sound q f s) : Sound q f (performInOrder s n i) := by
  have ht : ∀ t, Sound q f t → Sound q f (tryPerform drainEntry t n i) := fun t h => sound_tryPerform _ _ _ _ (fun s n e h => sound_drainEntry s n e h) h
  unfold performInOrder
  dsimp only
  split
  · exact ht _ hs
  · split
    · exact ht _ hs
    · exact ht _ (sound_drainOlder _ _ _ (ht _ hs))

theorem sound_finishLoads {q : Part} {f : BitVec 257} (m : Nat) (s : State) (n : Nat) (hs : Sound q f s) : Sound q f (finishLoads m s n) := by
  induction m generalizing s with
  | zero => exact hs
  | succ m ih =>
    unfold finishLoads
    dsimp only
    split
    · exact hs
    · split
      · exact sound_performInOrder _ _ _ hs
      · split
        · exact sound_performInOrder _ _ _ hs
        · apply ih
          split
          · exact sound_performInOrder _ _ _ hs
          · exact sound_deliverLoad _ _ _ _ _ (sound_performInOrder _ _ _ hs)

theorem sound_finishCore {q : Part} {f : BitVec 257} (s : State) (n : Nat) (hs : Sound q f s) : Sound q f (finishCore s n) := by
  unfold finishCore
  dsimp only
  exact sound_drainFirst _ _ _ _ (fun s n e h => sound_drainEntry s n e h) (sound_beamFinish _ _ (sound_modCore _ _ _ (sound_finishLoads _ _ _ hs)))

theorem sound_switchMode {q : Part} {f : BitVec 257} (s : State) (c : Nat) (v : Nat) (hs : Sound q f s) : Sound q f (switchMode s c v) := by
  unfold switchMode
  try dsimp only
  repeat' (first
    | with_reducible assumption
    | with_reducible apply sound_endLoansOf
    | with_reducible apply sound_flushCluster
    | with_reducible apply sound_finishCore
    | with_reducible apply sound_modCore
    | with_reducible apply sound_modCluster
    | with_reducible apply sound_wantAllot
    | with_reducible apply sound_modIr
    | (with_reducible apply Sound.foldl_fst <;> intros)
    | (with_reducible apply Sound.foldl <;> intros)
    | (fail_if_no_progress (with_reducible refine Sound.upd ?_ rfl rfl rfl rfl rfl))
    | split
    | dsimp only)

theorem sound_loadPace {q : Part} {f : BitVec 257} (s : State) (c : Nat) (v : Nat) (hs : Sound q f s) : Sound q f (loadPace s c v).1 := by
  unfold loadPace
  try dsimp only
  repeat' (first
    | with_reducible assumption
    | with_reducible apply sound_wantAllot
    | with_reducible apply sound_setEnt
    | with_reducible apply sound_modCluster
    | (fail_if_no_progress (with_reducible refine Sound.upd ?_ rfl rfl rfl rfl rfl))
    | split
    | (with_reducible apply Sound.of_fst; assumption)
    | dsimp only)

end Sys2Proof.Machine
end

