-- ==== Sys2Proof/Laws/SoundLoader.lean ====
section
/-! SUPPORT. The definitions of Machine/Loader.lean keep what every step keeps. -/

set_option linter.unusedTactic false
set_option linter.unreachableTactic false
set_option linter.unusedVariables false

namespace Sys2Proof.Machine

theorem sound_loadBytes {q : Part} {f : BitVec 257} (s : State) (a : Nat) (v : Octets) (hs : Sound q f s) : Sound q f (loadBytes s a v) :=
  hs.mem_upd rfl rfl (Mem.wf_writeAll _ _ _ hs.mem) rfl

theorem sound_copySects {q : Part} {f : BitVec 257} (s : State) (m : Image) (n : Nat) (is : List Nat) (hs : Sound q f s) : Sound q f (copySects s m n is) := by
  unfold copySects
  try dsimp only
  repeat' (first
    | with_reducible assumption
    | with_reducible apply sound_loadBytes
    | (with_reducible apply Sound.foldl_fst <;> intros)
    | (with_reducible apply Sound.foldl <;> intros)
    | (fail_if_no_progress (with_reducible refine Sound.upd ?_ rfl rfl rfl rfl rfl))
    | split
    | dsimp only)

theorem sound_copyCluster {q : Part} {f : BitVec 257} (s : State) (m : Image) (c : Nat) (hs : Sound q f s) : Sound q f (copyCluster s m c) := by
  unfold copyCluster
  try dsimp only
  repeat' (first
    | with_reducible assumption
    | with_reducible apply sound_copySects
    | (fail_if_no_progress (with_reducible refine Sound.upd ?_ rfl rfl rfl rfl rfl))
    | split
    | dsimp only)

theorem sound_copyCore {q : Part} {f : BitVec 257} (s : State) (m : Image) (n : Nat) (hs : Sound q f s) : Sound q f (copyCore s m n) := by
  unfold copyCore
  try dsimp only
  repeat' (first
    | with_reducible assumption
    | with_reducible apply sound_copySects
    | (fail_if_no_progress (with_reducible refine Sound.upd ?_ rfl rfl rfl rfl rfl))
    | split
    | dsimp only)

theorem sound_setOwners {q : Part} {f : BitVec 257} (s : State) (c : Nat) (hs : Sound q f s) : Sound q f (setOwners s c) := by
  unfold setOwners
  try dsimp only
  repeat' (first
    | with_reducible assumption
    | with_reducible apply sound_modBank
    | (with_reducible apply Sound.foldl_fst <;> intros)
    | (with_reducible apply Sound.foldl <;> intros)
    | (fail_if_no_progress (with_reducible refine Sound.upd ?_ rfl rfl rfl rfl rfl))
    | split
    | dsimp only)

theorem sound_releaseCore {q : Part} {f : BitVec 257} (s : State) (n : Nat) (hs : Sound q f s) : Sound q f (releaseCore s n) := by
  unfold releaseCore
  try dsimp only
  repeat' (first
    | with_reducible assumption
    | with_reducible apply sound_modCore
    | (fail_if_no_progress (with_reducible refine Sound.upd ?_ rfl rfl rfl rfl rfl))
    | split
    | (with_reducible apply Sound.of_fst; assumption)
    | dsimp only)

theorem sound_loadImage {q : Part} {f : BitVec 257} (s : State) (slot : Nat) (hs : Sound q f s) : Sound q f (loadImage s slot) := by
  unfold loadImage
  try dsimp only
  repeat' (first
    | with_reducible assumption
    | with_reducible apply sound_setOwners
    | with_reducible apply sound_copyCluster
    | with_reducible apply sound_copyCore
    | with_reducible apply sound_modCore
    | (with_reducible apply Sound.foldl_fst <;> intros)
    | (with_reducible apply Sound.foldl <;> intros)
    | (fail_if_no_progress (with_reducible refine Sound.upd ?_ rfl rfl rfl rfl rfl))
    | split
    | dsimp only)

theorem sound_reRelease {q : Part} {f : BitVec 257} (s : State) (n : Nat) (hs : Sound q f s) : Sound q f (reRelease s n) := by
  unfold reRelease
  try dsimp only
  repeat' (first
    | with_reducible assumption
    | with_reducible apply sound_releaseCore
    | with_reducible apply sound_copySects
    | (fail_if_no_progress (with_reducible refine Sound.upd ?_ rfl rfl rfl rfl rfl))
    | split
    | dsimp only)

theorem sound_reloadCluster {q : Part} {f : BitVec 257} (s : State) (c : Nat) (hs : Sound q f s) : Sound q f (reloadCluster s c) := by
  unfold reloadCluster
  try dsimp only
  repeat' (first
    | with_reducible assumption
    | with_reducible apply sound_setOwners
    | with_reducible apply sound_copyCore
    | with_reducible apply sound_copyCluster
    | with_reducible apply sound_releaseCore
    | (with_reducible apply Sound.foldl_fst <;> intros)
    | (with_reducible apply Sound.foldl <;> intros)
    | (fail_if_no_progress (with_reducible refine Sound.upd ?_ rfl rfl rfl rfl rfl))
    | split
    | dsimp only)

end Sys2Proof.Machine
end

