-- ==== Sys2Proof/Laws/SoundFaults.lean ====
section
/-! SUPPORT. The definitions of Machine/Faults.lean keep what every step keeps. -/

set_option linter.unusedTactic false
set_option linter.unreachableTactic false
set_option linter.unusedVariables false

namespace Sys2Proof.Machine

theorem sound_faultStop {q : Part} {f : BitVec 257} (s : State) (n : Nat) (why : FaultWhy) (hs : Sound q f s) : Sound q f (faultStop s n why) := by
  unfold faultStop
  try dsimp only
  repeat' (first
    | with_reducible assumption
    | with_reducible apply sound_settleStop
    | with_reducible apply sound_stopCore
    | (fail_if_no_progress (with_reducible refine Sound.upd ?_ rfl rfl rfl rfl rfl))
    | split
    | dsimp only)

theorem sound_execCoreFault {q : Part} {f : BitVec 257} (n : Nat) (why : FaultWhy) (s : State) (hs : Sound q f s) : SoundOut q f (execCoreFault n why s) := by
  unfold execCoreFault
  try dsimp only
  repeat' (first
    | with_reducible assumption
    | with_reducible apply soundOut_next
    | with_reducible apply sound_faultStop
    | (fail_if_no_progress (with_reducible refine Sound.upd ?_ rfl rfl rfl rfl rfl))
    | split
    | dsimp only)

theorem sound_execWatchdogSecondExpiry {q : Part} {f : BitVec 257} (n : Nat) (s : State) (hs : Sound q f s) : SoundOut q f (execWatchdogSecondExpiry n s) := by
  unfold execWatchdogSecondExpiry
  try dsimp only
  repeat' (first
    | with_reducible assumption
    | with_reducible apply soundOut_next
    | with_reducible apply sound_faultStop
    | (fail_if_no_progress (with_reducible refine Sound.upd ?_ rfl rfl rfl rfl rfl))
    | split
    | dsimp only)

theorem sound_restartCore {q : Part} {f : BitVec 257} (s : State) (n : Nat) (hs : Sound q f s) : Sound q f (restartCore s n) := by
  unfold restartCore
  try dsimp only
  repeat' (first
    | with_reducible assumption
    | with_reducible apply sound_repost
    | with_reducible apply sound_reRelease
    | with_reducible apply sound_coreResetOp
    | with_reducible apply sound_modCore
    | with_reducible apply sound_logErr
    | (fail_if_no_progress (with_reducible refine Sound.upd ?_ rfl rfl rfl rfl rfl))
    | split
    | dsimp only)

theorem sound_giveBeam {q : Part} {f : BitVec 257} (s : State) (b : Nat) (n : Nat) (hs : Sound q f s) : Sound q f (giveBeam s b n) := by
  unfold giveBeam
  try dsimp only
  repeat' (first
    | with_reducible assumption
    | with_reducible apply sound_engineMod
    | (fail_if_no_progress (with_reducible refine Sound.upd ?_ rfl rfl rfl rfl rfl))
    | split
    | (with_reducible apply Sound.of_fst; assumption)
    | dsimp only)

theorem sound_rotateBeams {q : Part} {f : BitVec 257} (s : State) (bs : List Nat) (to_ : List Nat) (hs : Sound q f s) : Sound q f (rotateBeams s bs to_) := by
  unfold rotateBeams
  try dsimp only
  repeat' (first
    | with_reducible assumption
    | with_reducible apply sound_giveBeam
    | (with_reducible apply Sound.foldl_fst <;> intros)
    | (with_reducible apply Sound.foldl <;> intros)
    | (fail_if_no_progress (with_reducible refine Sound.upd ?_ rfl rfl rfl rfl rfl))
    | split
    | dsimp only)

theorem sound_handBank {q : Part} {f : BitVec 257} (s : State) (c : Nat) (k : Nat) (o : Nat) (hs : Sound q f s) : Sound q f (handBank s c k o) := by
  unfold handBank
  try dsimp only
  repeat' (first
    | with_reducible assumption
    | with_reducible apply sound_setClevt
    | with_reducible apply sound_modBank
    | with_reducible apply sound_flushMerge
    | (fail_if_no_progress (with_reducible refine Sound.upd ?_ rfl rfl rfl rfl rfl))
    | split
    | dsimp only)

theorem sound_handBanks {q : Part} {f : BitVec 257} (s : State) (n : Nat) (hs : Sound q f s) : Sound q f (handBanks s n) := by
  unfold handBanks
  try dsimp only
  repeat' (first
    | with_reducible assumption
    | with_reducible apply sound_handBank
    | (with_reducible apply Sound.foldl_fst <;> intros)
    | (with_reducible apply Sound.foldl <;> intros)
    | (fail_if_no_progress (with_reducible refine Sound.upd ?_ rfl rfl rfl rfl rfl))
    | split
    | dsimp only)

theorem sound_moveBuffers {q : Part} {f : BitVec 257} (s : State) (c : Nat) (f' : Nat) (hs : Sound q f s) : Sound q f (moveBuffers s c f') := by
  unfold moveBuffers
  try dsimp only
  repeat' (first
    | with_reducible assumption
    | with_reducible apply sound_portWriteBytes
    | (with_reducible apply Sound.foldl_fst <;> intros)
    | (with_reducible apply Sound.foldl <;> intros)
    | (fail_if_no_progress (with_reducible refine Sound.upd ?_ rfl rfl rfl rfl rfl))
    | split
    | dsimp only)

theorem sound_leaveUnserved {q : Part} {f : BitVec 257} (s : State) (c : Nat) (hs : Sound q f s) : Sound q f (leaveUnserved s c) := by
  unfold leaveUnserved
  try dsimp only
  repeat' (first
    | with_reducible assumption
    | with_reducible apply sound_emergency
    | (fail_if_no_progress (with_reducible refine Sound.upd ?_ rfl rfl rfl rfl rfl))
    | split
    | dsimp only)

theorem sound_fosterCluster {q : Part} {f : BitVec 257} (s : State) (n : Nat) (hs : Sound q f s) : Sound q f (fosterCluster s n) := by
  unfold fosterCluster
  try dsimp only
  repeat' (first
    | with_reducible assumption
    | with_reducible apply sound_handBank
    | with_reducible apply sound_moveBuffers
    | with_reducible apply sound_rotateBeams
    | with_reducible apply sound_emergency
    | with_reducible apply sound_repostBeams
    | with_reducible apply sound_leaveUnserved
    | (with_reducible apply Sound.foldl_fst <;> intros)
    | (with_reducible apply Sound.foldl <;> intros)
    | (fail_if_no_progress (with_reducible refine Sound.upd ?_ rfl rfl rfl rfl rfl))
    | split
    | (with_reducible apply Sound.of_fst; assumption)
    | dsimp only)

theorem sound_logStep {q : Part} {f : BitVec 257} (n : Nat) (i : Nat) (s : State) (hs : Sound q f s) : Sound q f (logStep n i s) := by
  unfold logStep
  try dsimp only
  repeat' (first
    | with_reducible assumption
    | (fail_if_no_progress (with_reducible refine Sound.upd ?_ rfl rfl rfl rfl rfl))
    | split
    | (with_reducible apply Sound.of_fst; assumption)
    | dsimp only)

theorem sound_holdRetired {q : Part} {f : BitVec 257} (s : State) (n : Nat) (reason : Nat) (hs : Sound q f s) : Sound q f (holdRetired s n reason) := by
  unfold holdRetired
  try dsimp only
  repeat' (first
    | with_reducible assumption
    | with_reducible apply sound_modCore
    | with_reducible apply sound_coreResetOp
    | (fail_if_no_progress (with_reducible refine Sound.upd ?_ rfl rfl rfl rfl rfl))
    | split
    | (with_reducible apply Sound.of_fst; assumption)
    | dsimp only)

theorem sound_retireCore {q : Part} {f : BitVec 257} (s : State) (n : Nat) (reason : Nat) (hs : Sound q f s) : Sound q f (retireCore s n reason) := by
  unfold retireCore
  try dsimp only
  repeat' (first
    | with_reducible assumption
    | with_reducible apply sound_logStep
    | with_reducible apply sound_holdRetired
    | with_reducible apply sound_fosterCluster
    | with_reducible apply sound_repostBeams
    | with_reducible apply sound_handBanks
    | with_reducible apply sound_rotateBeams
    | with_reducible apply sound_wantAllot
    | with_reducible apply sound_raise
    | with_reducible apply sound_emergency
    | (fail_if_no_progress (with_reducible refine Sound.upd ?_ rfl rfl rfl rfl rfl))
    | split
    | (with_reducible apply Sound.of_fst; assumption)
    | dsimp only)

theorem sound_execCoreFaultDecision {q : Part} {f : BitVec 257} (n : Nat) (s : State) (hs : Sound q f s) : SoundOut q f (execCoreFaultDecision n s) := by
  unfold execCoreFaultDecision
  try dsimp only
  repeat' (first
    | with_reducible assumption
    | with_reducible apply soundOut_next
    | with_reducible apply sound_retireCore
    | with_reducible apply sound_restartCore
    | (fail_if_no_progress (with_reducible refine Sound.upd ?_ rfl rfl rfl rfl rfl))
    | split
    | dsimp only)

theorem sound_retireWrite {q : Part} {f : BitVec 257} (s : State) (n : Nat) (v : Nat) (hs : Sound q f s) : Sound q f (retireWrite s n v).1 := by
  unfold retireWrite
  try dsimp only
  repeat' (first
    | with_reducible assumption
    | with_reducible apply sound_modCore
    | with_reducible apply sound_retireCore
    | (fail_if_no_progress (with_reducible refine Sound.upd ?_ rfl rfl rfl rfl rfl))
    | split
    | (with_reducible apply Sound.of_fst; assumption)
    | dsimp only)

theorem sound_execRetirementRequest {q : Part} {f : BitVec 257} (n : Nat) (v : Nat) (s : State) (hs : Sound q f s) : SoundOut q f (execRetirementRequest n v s) := by
  unfold execRetirementRequest
  try dsimp only
  repeat' (first
    | with_reducible assumption
    | with_reducible apply soundOut_next
    | with_reducible apply sound_answered
    | with_reducible apply sound_retireWrite
    | (fail_if_no_progress (with_reducible refine Sound.upd ?_ rfl rfl rfl rfl rfl))
    | split
    | dsimp only)

theorem sound_startWarden {q : Part} {f : BitVec 257} (s : State) (w : Nat) (hs : Sound q f s) : Sound q f (startWarden s w) := by
  unfold startWarden
  try dsimp only
  repeat' (first
    | with_reducible assumption
    | with_reducible apply sound_modCore
    | (fail_if_no_progress (with_reducible refine Sound.upd ?_ rfl rfl rfl rfl rfl))
    | split
    | (with_reducible apply Sound.of_fst; assumption)
    | dsimp only)

theorem sound_abandonCommit {q : Part} {f : BitVec 257} (s : State) (hs : Sound q f s) : Sound q f (abandonCommit s) := by
  unfold abandonCommit
  try dsimp only
  repeat' (first
    | with_reducible assumption
    | (fail_if_no_progress (with_reducible refine Sound.upd ?_ rfl rfl rfl rfl rfl))
    | split
    | dsimp only)

theorem sound_retireWarden {q : Part} {f : BitVec 257} (s : State) (w : Nat) (reason : Nat) (hs : Sound q f s) : Sound q f (retireWarden s w reason) := by
  unfold retireWarden
  try dsimp only
  repeat' (first
    | with_reducible assumption
    | with_reducible apply sound_emergency
    | with_reducible apply sound_modCore
    | (fail_if_no_progress (with_reducible refine Sound.upd ?_ rfl rfl rfl rfl rfl))
    | split
    | dsimp only)

theorem sound_noWarden {q : Part} {f : BitVec 257} (s : State) (hs : Sound q f s) : Sound q f (noWarden s) := by
  unfold noWarden
  try dsimp only
  repeat' (first
    | with_reducible assumption
    | (fail_if_no_progress (with_reducible refine Sound.upd ?_ rfl rfl rfl rfl rfl))
    | split
    | dsimp only)

theorem sound_wardenFault {q : Part} {f : BitVec 257} (s : State) (w : Nat) (why : FaultWhy) (pass : Bool) (hs : Sound q f s) : Sound q f (wardenFault s w why pass) := by
  unfold wardenFault
  try dsimp only
  repeat' (first
    | with_reducible assumption
    | with_reducible apply sound_stopCore
    | with_reducible apply sound_coreResetOp
    | with_reducible apply sound_emergency
    | with_reducible apply sound_raise
    | with_reducible apply sound_restartJob
    | with_reducible apply sound_abandonCommit
    | with_reducible apply sound_retireWarden
    | with_reducible apply sound_startWarden
    | with_reducible apply sound_modCore
    | with_reducible apply sound_noWarden
    | (fail_if_no_progress (with_reducible refine Sound.upd ?_ rfl rfl rfl rfl rfl))
    | split
    | (with_reducible apply Sound.of_fst; assumption)
    | dsimp only)

theorem sound_execWardenFault {q : Part} {f : BitVec 257} (w : Nat) (why : FaultWhy) (pass : Bool) (s : State) (hs : Sound q f s) : SoundOut q f (execWardenFault w why pass s) := by
  unfold execWardenFault
  try dsimp only
  repeat' (first
    | with_reducible assumption
    | with_reducible apply soundOut_next
    | with_reducible apply sound_wardenFault
    | (fail_if_no_progress (with_reducible refine Sound.upd ?_ rfl rfl rfl rfl rfl))
    | split
    | dsimp only)

theorem sound_prbsStart {q : Part} {f : BitVec 257} (s : State) (obj : Nat) (v : Nat) (hs : Sound q f s) : Sound q f (prbsStart s obj v).1 := by
  unfold prbsStart
  try dsimp only
  repeat' (first
    | with_reducible assumption
    | with_reducible apply sound_setEnt
    | (fail_if_no_progress (with_reducible refine Sound.upd ?_ rfl rfl rfl rfl rfl))
    | split
    | dsimp only)

theorem sound_execFacetRequalification {q : Part} {f : BitVec 257} (v : Nat) (s : State) (hs : Sound q f s) : SoundOut q f (execFacetRequalification v s) := by
  unfold execFacetRequalification
  try dsimp only
  repeat' (first
    | with_reducible assumption
    | with_reducible apply soundOut_next
    | with_reducible apply sound_answered
    | with_reducible apply sound_prbsStart
    | (fail_if_no_progress (with_reducible refine Sound.upd ?_ rfl rfl rfl rfl rfl))
    | split
    | dsimp only)

theorem sound_execFacetTest {q : Part} {f : BitVec 257} (v : Nat) (s : State) (hs : Sound q f s) : SoundOut q f (execFacetTest v s) := by
  unfold execFacetTest
  try dsimp only
  repeat' (first
    | with_reducible assumption
    | with_reducible apply soundOut_next
    | with_reducible apply sound_answered
    | with_reducible apply sound_prbsStart
    | (fail_if_no_progress (with_reducible refine Sound.upd ?_ rfl rfl rfl rfl rfl))
    | split
    | dsimp only)

theorem sound_unretireFacet {q : Part} {f : BitVec 257} (s : State) (p : Nat) (hs : Sound q f s) : Sound q f (unretireFacet s p) := by
  unfold unretireFacet
  try dsimp only
  repeat' (first
    | with_reducible assumption
    | with_reducible apply sound_modFacet
    | with_reducible apply sound_setLinkState
    | with_reducible apply sound_leaveOff
    | (fail_if_no_progress (with_reducible refine Sound.upd ?_ rfl rfl rfl rfl rfl))
    | split
    | dsimp only)

theorem sound_execRequalificationEnd {q : Part} {f : BitVec 257} (locked : Bool) (errors : Nat) (s : State) (hs : Sound q f s) : SoundOut q f (execRequalificationEnd locked errors s) := by
  unfold execRequalificationEnd
  try dsimp only
  repeat' (first
    | with_reducible assumption
    | with_reducible apply soundOut_next
    | with_reducible apply sound_setEnt
    | with_reducible apply sound_unretireFacet
    | (fail_if_no_progress (with_reducible refine Sound.upd ?_ rfl rfl rfl rfl rfl))
    | split
    | (with_reducible apply Sound.of_fst; assumption)
    | dsimp only)

theorem sound_coreRequalStart {q : Part} {f : BitVec 257} (s : State) (v : Nat) (hs : Sound q f s) : Sound q f (coreRequalStart s v).1 := by
  unfold coreRequalStart
  try dsimp only
  repeat' (first
    | with_reducible assumption
    | with_reducible apply sound_setEnt
    | (fail_if_no_progress (with_reducible refine Sound.upd ?_ rfl rfl rfl rfl rfl))
    | split
    | dsimp only)

theorem sound_coreRequalEnd {q : Part} {f : BitVec 257} (s : State) (pass : Bool) (hs : Sound q f s) : Sound q f (coreRequalEnd s pass) := by
  unfold coreRequalEnd
  try dsimp only
  repeat' (first
    | with_reducible assumption
    | with_reducible apply sound_setEnt
    | with_reducible apply sound_modCore
    | with_reducible apply sound_startWarden
    | (fail_if_no_progress (with_reducible refine Sound.upd ?_ rfl rfl rfl rfl rfl))
    | split
    | dsimp only)

theorem sound_execCoreRequalification {q : Part} {f : BitVec 257} (v : Nat) (pass : Bool) (s : State) (hs : Sound q f s) : SoundOut q f (execCoreRequalification v pass s) := by
  unfold execCoreRequalification
  try dsimp only
  repeat' (first
    | with_reducible assumption
    | with_reducible apply soundOut_next
    | with_reducible apply sound_coreRequalEnd
    | with_reducible apply sound_coreRequalStart
    | with_reducible apply sound_answered
    | (fail_if_no_progress (with_reducible refine Sound.upd ?_ rfl rfl rfl rfl rfl))
    | split
    | (with_reducible apply Sound.of_fst; assumption)
    | dsimp only)

end Sys2Proof.Machine
end

