-- ==== Sys2Proof/Laws/SoundFabric.lean ====
section
/-! SUPPORT. The definitions of Machine/Fabric.lean keep what every step keeps. -/

set_option linter.unusedTactic false
set_option linter.unreachableTactic false
set_option linter.unusedVariables false

namespace Sys2Proof.Machine

theorem sound_countServed {q : Part} {f : BitVec 257} (s : State) (hop : Nat) (vc : Nat) (p : Packet) (hs : Sound q f s) : Sound q f (countServed s hop vc p) := by
  unfold countServed
  try dsimp only
  repeat' (first
    | with_reducible assumption
    | (fail_if_no_progress (with_reducible refine Sound.upd ?_ rfl rfl rfl rfl rfl))
    | split
    | dsimp only)

theorem sound_touchRtx {q : Part} {f : BitVec 257} (s : State) (n : Nat) (id : Nat) (all : Bool) (hs : Sound q f s) : Sound q f (touchRtx s n id all) := by
  unfold touchRtx
  try dsimp only
  repeat' (first
    | with_reducible assumption
    | with_reducible apply sound_modCore
    | with_reducible apply sound_answered
    | (fail_if_no_progress (with_reducible refine Sound.upd ?_ rfl rfl rfl rfl rfl))
    | split
    | dsimp only)

theorem sound_remoteDesc {q : Part} {f : BitVec 257} (s : State) (n : Nat) (p : Nat) (txa : Word) (txl : Word) (v : Word) (d : TxDesc) (hs : Sound q f s) : Sound q f (remoteDesc s n p txa txl v d) := by
  unfold remoteDesc
  try dsimp only
  repeat' (first
    | with_reducible assumption
    | with_reducible apply sound_postAt
    | with_reducible apply sound_touchRtx
    | with_reducible apply sound_portReadBytes
    | with_reducible apply sound_sendMarked
    | (with_reducible apply Sound.foldl_fst <;> intros)
    | (with_reducible apply Sound.foldl <;> intros)
    | (fail_if_no_progress (with_reducible refine Sound.upd ?_ rfl rfl rfl rfl rfl))
    | split
    | (with_reducible apply Sound.of_fst; assumption)
    | dsimp only)

theorem sound_remoteData {q : Part} {f : BitVec 257} (s : State) (n : Nat) (p : Nat) (id : Nat) (octets : Nat) (bad : Bool) (hs : Sound q f s) : Sound q f (remoteData s n p id octets bad) := by
  unfold remoteData
  try dsimp only
  repeat' (first
    | with_reducible assumption
    | with_reducible apply sound_modFacet
    | with_reducible apply sound_completeDesc
    | with_reducible apply sound_unhold
    | with_reducible apply sound_touchRtx
    | (fail_if_no_progress (with_reducible refine Sound.upd ?_ rfl rfl rfl rfl rfl))
    | split
    | (with_reducible apply Sound.of_fst; assumption)
    | dsimp only)

theorem sound_relayLost {q : Part} {f : BitVec 257} (s : State) (d : TxDesc) (hs : Sound q f s) : Sound q f (relayLost s d) := by
  unfold relayLost
  try dsimp only
  repeat' (first
    | with_reducible assumption
    | with_reducible apply sound_freeBuf
    | with_reducible apply sound_incDrops
    | (fail_if_no_progress (with_reducible refine Sound.upd ?_ rfl rfl rfl rfl rfl))
    | split
    | (with_reducible apply Sound.of_fst; assumption)
    | dsimp only)

theorem sound_arrivePacket {q : Part} {f : BitVec 257} (s : State) (p : Packet) (hs : Sound q f s) : Sound q f (arrivePacket s p) := by
  unfold arrivePacket
  try dsimp only
  repeat' (first
    | with_reducible assumption
    | with_reducible apply sound_modFacet
    | with_reducible apply sound_remoteDesc
    | with_reducible apply sound_remoteData
    | with_reducible apply sound_relayLost
    | with_reducible apply sound_relayStart
    | with_reducible apply sound_relayEnd
    | with_reducible apply sound_portWriteBytes
    | with_reducible apply sound_newPoison
    | with_reducible apply sound_pushRtxDone
    | with_reducible apply sound_remoteAnswer
    | with_reducible apply sound_modCore
    | (fail_if_no_progress (with_reducible refine Sound.upd ?_ rfl rfl rfl rfl rfl))
    | split
    | (with_reducible apply Sound.of_fst; assumption)
    | dsimp only)

theorem sound_losePacket {q : Part} {f : BitVec 257} (s : State) (p : Packet) (hs : Sound q f s) : Sound q f (losePacket s p) := by
  unfold losePacket
  try dsimp only
  repeat' (first
    | with_reducible assumption
    | with_reducible apply sound_relayLost
    | with_reducible apply sound_relayEnd
    | (fail_if_no_progress (with_reducible refine Sound.upd ?_ rfl rfl rfl rfl rfl))
    | split
    | (with_reducible apply Sound.of_fst; assumption)
    | dsimp only)

theorem sound_deliverPacket {q : Part} {f : BitVec 257} (s : State) (hop : Nat) (p : Packet) (hs : Sound q f s) : Sound q f (deliverPacket s hop p) := by
  unfold deliverPacket
  try dsimp only
  repeat' (first
    | with_reducible assumption
    | with_reducible apply sound_arrivePacket
    | with_reducible apply sound_raise
    | with_reducible apply sound_bumpEnt
    | (fail_if_no_progress (with_reducible refine Sound.upd ?_ rfl rfl rfl rfl rfl))
    | split
    | dsimp only)

theorem sound_hopPacket {q : Part} {f : BitVec 257} (s : State) (hop : Nat) (vc : Nat) (e : FlitError) (p : Packet) (rest : List Packet) (hs : Sound q f s) : Sound q f (hopPacket s hop vc e p rest) := by
  unfold hopPacket
  try dsimp only
  repeat' (first
    | with_reducible assumption
    | with_reducible apply sound_countServed
    | with_reducible apply sound_setHopQueue
    | with_reducible apply sound_deliverPacket
    | with_reducible apply sound_bumpEnt
    | with_reducible apply sound_losePacket
    | with_reducible apply sound_raise
    | (fail_if_no_progress (with_reducible refine Sound.upd ?_ rfl rfl rfl rfl rfl))
    | split
    | (with_reducible apply Sound.of_fst; assumption)
    | dsimp only)

theorem sound_execFabricPacketHop {q : Part} {f : BitVec 257} (hop : Nat) (vc : Nat) (e : FlitError) (s : State) (hs : Sound q f s) : SoundOut q f (execFabricPacketHop hop vc e s) := by
  unfold execFabricPacketHop
  try dsimp only
  repeat' (first
    | with_reducible assumption
    | with_reducible apply soundOut_next
    | with_reducible apply sound_hopPacket
    | (fail_if_no_progress (with_reducible refine Sound.upd ?_ rfl rfl rfl rfl rfl))
    | split
    | (with_reducible apply Sound.of_fst; assumption)
    | dsimp only)

theorem sound_rtxFail {q : Part} {f : BitVec 257} (s : State) (n : Nat) (v : Word) (result : Nat) (hs : Sound q f s) : Sound q f (rtxFail s n v result) := by
  unfold rtxFail
  try dsimp only
  repeat' (first
    | with_reducible assumption
    | with_reducible apply sound_pushRtxDone
    | (fail_if_no_progress (with_reducible refine Sound.upd ?_ rfl rfl rfl rfl rfl))
    | split
    | dsimp only)

theorem sound_rtxpostWrite {q : Part} {f : BitVec 257} (s : State) (n : Nat) (v : Word) (hs : Sound q f s) : Sound q f (rtxpostWrite s n v) := by
  unfold rtxpostWrite
  try dsimp only
  repeat' (first
    | with_reducible assumption
    | with_reducible apply sound_rtxFail
    | with_reducible apply sound_modCore
    | with_reducible apply sound_answered
    | with_reducible apply sound_postAt
    | with_reducible apply sound_sendPacket
    | (fail_if_no_progress (with_reducible refine Sound.upd ?_ rfl rfl rfl rfl rfl))
    | split
    | (with_reducible apply Sound.of_fst; assumption)
    | dsimp only)

theorem sound_execRtxpostWrite {q : Part} {f : BitVec 257} (n : Nat) (v : Word) (s : State) (hs : Sound q f s) : SoundOut q f (execRtxpostWrite n v s) := by
  unfold execRtxpostWrite
  try dsimp only
  repeat' (first
    | with_reducible assumption
    | with_reducible apply soundOut_next
    | with_reducible apply sound_rtxpostWrite
    | (fail_if_no_progress (with_reducible refine Sound.upd ?_ rfl rfl rfl rfl rfl))
    | split
    | dsimp only)

theorem sound_rtxdoneRead {q : Part} {f : BitVec 257} (s : State) (n : Nat) (hs : Sound q f s) : Sound q f (rtxdoneRead s n).1 := by
  unfold rtxdoneRead
  try dsimp only
  repeat' (first
    | with_reducible assumption
    | with_reducible apply sound_modCore
    | (fail_if_no_progress (with_reducible refine Sound.upd ?_ rfl rfl rfl rfl rfl))
    | split
    | (with_reducible apply Sound.of_fst; assumption)
    | dsimp only)

theorem sound_execRtxdoneRead {q : Part} {f : BitVec 257} (n : Nat) (s : State) (hs : Sound q f s) : SoundOut q f (execRtxdoneRead n s) := by
  unfold execRtxdoneRead
  try dsimp only
  repeat' (first
    | with_reducible assumption
    | with_reducible apply soundOut_next
    | with_reducible apply sound_rtxdoneRead
    | (fail_if_no_progress (with_reducible refine Sound.upd ?_ rfl rfl rfl rfl rfl))
    | split
    | dsimp only)

theorem sound_recallDesc {q : Part} {f : BitVec 257} (s : State) (id : Nat) (hs : Sound q f s) : Sound q f (recallDesc s id) := by
  unfold recallDesc
  try dsimp only
  repeat' (first
    | with_reducible assumption
    | with_reducible apply sound_unhold
    | (with_reducible apply Sound.foldl_fst <;> intros)
    | (with_reducible apply Sound.foldl <;> intros)
    | (fail_if_no_progress (with_reducible refine Sound.upd ?_ rfl rfl rfl rfl rfl))
    | split
    | (with_reducible apply Sound.of_fst; assumption)
    | dsimp only)

theorem sound_execRemoteTimeout {q : Part} {f : BitVec 257} (n : Nat) (copy : Bool) (s : State) (hs : Sound q f s) : SoundOut q f (execRemoteTimeout n copy s) := by
  unfold execRemoteTimeout
  try dsimp only
  repeat' (first
    | with_reducible assumption
    | with_reducible apply soundOut_next
    | with_reducible apply sound_copyDone
    | with_reducible apply sound_answered
    | with_reducible apply sound_pushRtxDone
    | with_reducible apply sound_recallDesc
    | (fail_if_no_progress (with_reducible refine Sound.upd ?_ rfl rfl rfl rfl rfl))
    | split
    | (with_reducible apply Sound.of_fst; assumption)
    | dsimp only)

theorem sound_setPort {q : Part} {f : BitVec 257} (s : State) (p : Nat) (v : PortOut) (hs : Sound q f s) : Sound q f (setPort s p v) := by
  unfold setPort
  try dsimp only
  repeat' (first
    | with_reducible assumption
    | (fail_if_no_progress (with_reducible refine Sound.upd ?_ rfl rfl rfl rfl rfl))
    | split
    | (with_reducible apply Sound.of_fst; assumption)
    | dsimp only)

theorem sound_portDrain {q : Part} {f : BitVec 257} (s : State) (p : Nat) (hs : Sound q f s) : Sound q f (portDrain s p) := by
  unfold portDrain
  try dsimp only
  repeat' (first
    | with_reducible assumption
    | with_reducible apply sound_sendPacket
    | with_reducible apply sound_setPort
    | (fail_if_no_progress (with_reducible refine Sound.upd ?_ rfl rfl rfl rfl rfl))
    | split
    | (with_reducible apply Sound.of_fst; assumption)
    | dsimp only)

theorem sound_portSend {q : Part} {f : BitVec 257} (s : State) (p : Nat) (v : Octets) (hs : Sound q f s) : Sound q f (portSend s p v) := by
  unfold portSend
  try dsimp only
  repeat' (first
    | with_reducible assumption
    | with_reducible apply sound_portDrain
    | with_reducible apply sound_setPort
    | (fail_if_no_progress (with_reducible refine Sound.upd ?_ rfl rfl rfl rfl rfl))
    | split
    | (with_reducible apply Sound.of_fst; assumption)
    | dsimp only)

theorem sound_execPreQueueDrain {q : Part} {f : BitVec 257} (p : Nat) (s : State) (hs : Sound q f s) : SoundOut q f (execPreQueueDrain p s) := by
  unfold execPreQueueDrain
  try dsimp only
  repeat' (first
    | with_reducible assumption
    | with_reducible apply soundOut_next
    | with_reducible apply sound_portDrain
    | with_reducible apply sound_setFacet
    | with_reducible apply sound_sendPacket
    | (fail_if_no_progress (with_reducible refine Sound.upd ?_ rfl rfl rfl rfl rfl))
    | split
    | (with_reducible apply Sound.of_fst; assumption)
    | dsimp only)

end Sys2Proof.Machine
end

