-- ==== Sys2Proof/Laws/SoundAnswers.lean ====
section
/-! SUPPORT. The definitions of Machine/Answers.lean keep what every step keeps. -/

set_option linter.unusedTactic false
set_option linter.unreachableTactic false
set_option linter.unusedVariables false

namespace Sys2Proof.Machine

theorem sound_queueAnswer {q : Part} {f : BitVec 257} (s : State) (p : Nat) (v : Octets) (hs : Sound q f s) : Sound q f (queueAnswer s p v) := by
  unfold queueAnswer
  try dsimp only
  repeat' (first
    | with_reducible assumption
    | with_reducible apply sound_modFacet
    | (fail_if_no_progress (with_reducible refine Sound.upd ?_ rfl rfl rfl rfl rfl))
    | split
    | dsimp only)

theorem sound_sendPdu {q : Part} {f : BitVec 257} (s : State) (ep : Endpoint) (pdu : Octets) (hs : Sound q f s) : Sound q f (sendPdu s ep pdu) := by
  unfold sendPdu
  try dsimp only
  repeat' (first
    | with_reducible assumption
    | with_reducible apply sound_portSend
    | (fail_if_no_progress (with_reducible refine Sound.upd ?_ rfl rfl rfl rfl rfl))
    | split
    | (with_reducible apply Sound.of_fst; assumption)
    | dsimp only)

end Sys2Proof.Machine
end

