-- ==== Sys2Proof/Laws/SoundBeamCmds.lean ====
section
/-! SUPPORT. The definitions of Machine/BeamCmds.lean keep what every step keeps. -/

set_option linter.unusedTactic false
set_option linter.unreachableTactic false
set_option linter.unusedVariables false

namespace Sys2Proof.Machine

theorem sound_execBeamWindowStore {q : Part} {f : BitVec 257} (n : Nat) (addr : Word) (v : Word) (s : State) (hs : Sound q f s) : SoundOut q f (execBeamWindowStore n addr v s) := by
  unfold execBeamWindowStore
  try dsimp only
  repeat' (first
    | with_reducible assumption
    | with_reducible apply soundOut_next
    | with_reducible apply sound_windowStore
    | (fail_if_no_progress (with_reducible refine Sound.upd ?_ rfl rfl rfl rfl rfl))
    | split
    | dsimp only)

theorem sound_selectorWrite {q : Part} {f : BitVec 257} (s : State) (v : Nat) (hs : Sound q f s) : Sound q f (selectorWrite s v).1 := by
  unfold selectorWrite
  try dsimp only
  repeat' (first
    | with_reducible assumption
    | with_reducible apply sound_setEnt
    | (fail_if_no_progress (with_reducible refine Sound.upd ?_ rfl rfl rfl rfl rfl))
    | split
    | dsimp only)

theorem sound_execBeamSelectorWrite {q : Part} {f : BitVec 257} (v : Nat) (s : State) (hs : Sound q f s) : SoundOut q f (execBeamSelectorWrite v s) := by
  unfold execBeamSelectorWrite
  try dsimp only
  repeat' (first
    | with_reducible assumption
    | with_reducible apply soundOut_next
    | with_reducible apply sound_answered
    | with_reducible apply sound_selectorWrite
    | (fail_if_no_progress (with_reducible refine Sound.upd ?_ rfl rfl rfl rfl rfl))
    | split
    | dsimp only)

theorem sound_windowRead {q : Part} {f : BitVec 257} (s : State) (i : Nat) (hs : Sound q f s) : Sound q f (windowRead s i).1 := by
  unfold windowRead
  try dsimp only
  repeat' (first
    | with_reducible assumption
    | with_reducible apply sound_engineCheck
    | (fail_if_no_progress (with_reducible refine Sound.upd ?_ rfl rfl rfl rfl rfl))
    | split
    | dsimp only)

theorem sound_execBeamWindowAccess {q : Part} {f : BitVec 257} (sub : Nat) (wr : Option Word) (s : State) (hs : Sound q f s) : SoundOut q f (execBeamWindowAccess sub wr s) := by
  unfold execBeamWindowAccess
  try dsimp only
  repeat' (first
    | with_reducible assumption
    | with_reducible apply soundOut_next
    | with_reducible apply sound_answered
    | with_reducible apply sound_windowStore
    | with_reducible apply sound_windowRead
    | (fail_if_no_progress (with_reducible refine Sound.upd ?_ rfl rfl rfl rfl rfl))
    | split
    | (with_reducible apply Sound.of_fst; assumption)
    | dsimp only)

end Sys2Proof.Machine
end

