-- ==== Sys2Proof/Laws/SoundReflex.lean ====
section
/-! SUPPORT. The definitions of Machine/Reflex.lean keep what every step keeps. -/

set_option linter.unusedTactic false
set_option linter.unreachableTactic false
set_option linter.unusedVariables false

namespace Sys2Proof.Machine

theorem sound_rfxReply {q : Part} {f : BitVec 257} (s : State) (p : Nat) (r : RfxReq) (result : Nat) (hs : Sound q f s) : Sound q f (rfxReply s p r result) := by
  unfold rfxReply
  try dsimp only
  repeat' (first
    | with_reducible assumption
    | with_reducible apply sound_queueAnswer
    | (fail_if_no_progress (with_reducible refine Sound.upd ?_ rfl rfl rfl rfl rfl))
    | split
    | dsimp only)

theorem sound_rfxLog {q : Part} {f : BitVec 257} (s : State) (p : Nat) (r : RfxReq) (result : Nat) (hs : Sound q f s) : Sound q f (rfxLog s p r result) := by
  unfold rfxLog
  try dsimp only
  repeat' (first
    | with_reducible assumption
    | (fail_if_no_progress (with_reducible refine Sound.upd ?_ rfl rfl rfl rfl rfl))
    | split
    | dsimp only)

theorem sound_rfxSend {q : Part} {f : BitVec 257} (s : State) (p : Nat) (a : RfxAct) (hs : Sound q f s) : Sound q f (rfxSend s p a) := by
  unfold rfxSend
  try dsimp only
  repeat' (first
    | with_reducible assumption
    | with_reducible apply sound_sendPacket
    | (fail_if_no_progress (with_reducible refine Sound.upd ?_ rfl rfl rfl rfl rfl))
    | split
    | dsimp only)

theorem sound_rfxServe {q : Part} {f : BitVec 257} (s0 : State) (p : Nat) (r : RfxReq) (hs0 : Sound q f s0) : Sound q f (rfxServe s0 p r) := by
  unfold rfxServe
  try dsimp only
  repeat' (first
    | with_reducible assumption
    | with_reducible apply sound_modFacet
    | with_reducible apply sound_raise
    | with_reducible apply sound_rfxLog
    | with_reducible apply sound_rfxSend
    | with_reducible apply sound_rfxReply
    | with_reducible apply sound_countRfx
    | (fail_if_no_progress (with_reducible refine Sound.upd ?_ rfl rfl rfl rfl rfl))
    | split
    | (with_reducible apply Sound.of_fst; assumption)
    | dsimp only)

theorem sound_execReflexRequest {q : Part} {f : BitVec 257} (p : Nat) (s : State) (hs : Sound q f s) : SoundOut q f (execReflexRequest p s) := by
  unfold execReflexRequest
  try dsimp only
  repeat' (first
    | with_reducible assumption
    | with_reducible apply soundOut_next
    | with_reducible apply sound_rfxServe
    | (fail_if_no_progress (with_reducible refine Sound.upd ?_ rfl rfl rfl rfl rfl))
    | split
    | (with_reducible apply Sound.of_fst; assumption)
    | dsimp only)

theorem sound_rfxTake {q : Part} {f : BitVec 257} (s : State) (a : RfxAct) (hs : Sound q f s) : Sound q f (rfxTake s a) := by
  unfold rfxTake
  try dsimp only
  repeat' (first
    | with_reducible assumption
    | (fail_if_no_progress (with_reducible refine Sound.upd ?_ rfl rfl rfl rfl rfl))
    | split
    | dsimp only)

theorem sound_rfxComplete {q : Part} {f : BitVec 257} (s : State) (a : RfxAct) (hs : Sound q f s) : Sound q f (rfxComplete s a) := by
  unfold rfxComplete
  try dsimp only
  repeat' (first
    | with_reducible assumption
    | with_reducible apply sound_rfxReply
    | with_reducible apply sound_sendPacket
    | (fail_if_no_progress (with_reducible refine Sound.upd ?_ rfl rfl rfl rfl rfl))
    | split
    | dsimp only)

theorem sound_disableOp {q : Part} {f : BitVec 257} (s : State) (p : Nat) (hs : Sound q f s) : Sound q f (disableOp s p) := by
  unfold disableOp
  try dsimp only
  repeat' (first
    | with_reducible assumption
    | with_reducible apply sound_linkOff
    | with_reducible apply sound_modFacet
    | (fail_if_no_progress (with_reducible refine Sound.upd ?_ rfl rfl rfl rfl rfl))
    | split
    | dsimp only)

theorem sound_execDisableFacet {q : Part} {f : BitVec 257} (p : Nat) (s : State) (hs : Sound q f s) : SoundOut q f (execDisableFacet p s) := by
  unfold execDisableFacet
  try dsimp only
  repeat' (first
    | with_reducible assumption
    | with_reducible apply soundOut_next
    | with_reducible apply sound_rfxComplete
    | with_reducible apply sound_disableOp
    | with_reducible apply sound_rfxTake
    | (fail_if_no_progress (with_reducible refine Sound.upd ?_ rfl rfl rfl rfl rfl))
    | split
    | (with_reducible apply Sound.of_fst; assumption)
    | dsimp only)

theorem sound_killOp {q : Part} {f : BitVec 257} (s : State) (b : Nat) (hs : Sound q f s) : Sound q f (killOp s b) := by
  unfold killOp
  try dsimp only
  repeat' (first
    | with_reducible assumption
    | with_reducible apply sound_windowStore
    | (fail_if_no_progress (with_reducible refine Sound.upd ?_ rfl rfl rfl rfl rfl))
    | split
    | dsimp only)

theorem sound_execKillBeam {q : Part} {f : BitVec 257} (b : Nat) (s : State) (hs : Sound q f s) : SoundOut q f (execKillBeam b s) := by
  unfold execKillBeam
  try dsimp only
  repeat' (first
    | with_reducible assumption
    | with_reducible apply soundOut_next
    | with_reducible apply sound_rfxComplete
    | with_reducible apply sound_killOp
    | with_reducible apply sound_rfxTake
    | (fail_if_no_progress (with_reducible refine Sound.upd ?_ rfl rfl rfl rfl rfl))
    | split
    | (with_reducible apply Sound.of_fst; assumption)
    | dsimp only)

theorem sound_quiesceOp {q : Part} {f : BitVec 257} (s : State) (c : Nat) (hs : Sound q f s) : Sound q f (quiesceOp s c) := by
  unfold quiesceOp
  try dsimp only
  repeat' (first
    | with_reducible assumption
    | with_reducible apply sound_modCluster
    | (fail_if_no_progress (with_reducible refine Sound.upd ?_ rfl rfl rfl rfl rfl))
    | split
    | dsimp only)

theorem sound_execQuiesceCluster {q : Part} {f : BitVec 257} (c : Nat) (s : State) (hs : Sound q f s) : SoundOut q f (execQuiesceCluster c s) := by
  unfold execQuiesceCluster
  try dsimp only
  repeat' (first
    | with_reducible assumption
    | with_reducible apply soundOut_next
    | with_reducible apply sound_quiesceOp
    | with_reducible apply sound_rfxComplete
    | with_reducible apply sound_rfxTake
    | (fail_if_no_progress (with_reducible refine Sound.upd ?_ rfl rfl rfl rfl rfl))
    | split
    | (with_reducible apply Sound.of_fst; assumption)
    | dsimp only)

theorem sound_disableWrite {q : Part} {f : BitVec 257} (s : State) (v : Nat) (hs : Sound q f s) : Sound q f (disableWrite s v).1 := by
  unfold disableWrite
  try dsimp only
  repeat' (first
    | with_reducible assumption
    | with_reducible apply sound_disableOp
    | (fail_if_no_progress (with_reducible refine Sound.upd ?_ rfl rfl rfl rfl rfl))
    | split
    | dsimp only)

theorem sound_killWrite {q : Part} {f : BitVec 257} (s : State) (v : Nat) (hs : Sound q f s) : Sound q f (killWrite s v).1 := by
  unfold killWrite
  try dsimp only
  repeat' (first
    | with_reducible assumption
    | with_reducible apply sound_killOp
    | (fail_if_no_progress (with_reducible refine Sound.upd ?_ rfl rfl rfl rfl rfl))
    | split
    | dsimp only)

theorem sound_quiesceWrite {q : Part} {f : BitVec 257} (s : State) (v : Nat) (hs : Sound q f s) : Sound q f (quiesceWrite s v).1 := by
  unfold quiesceWrite
  try dsimp only
  repeat' (first
    | with_reducible assumption
    | with_reducible apply sound_quiesceOp
    | (fail_if_no_progress (with_reducible refine Sound.upd ?_ rfl rfl rfl rfl rfl))
    | split
    | dsimp only)

theorem sound_releaseWrite {q : Part} {f : BitVec 257} (s : State) (v : Nat) (hs : Sound q f s) : Sound q f (releaseWrite s v).1 := by
  unfold releaseWrite
  try dsimp only
  repeat' (first
    | with_reducible assumption
    | with_reducible apply sound_modCluster
    | (fail_if_no_progress (with_reducible refine Sound.upd ?_ rfl rfl rfl rfl rfl))
    | split
    | dsimp only)

theorem sound_execWardenDisableFacet {q : Part} {f : BitVec 257} (v : Nat) (s : State) (hs : Sound q f s) : SoundOut q f (execWardenDisableFacet v s) := by
  unfold execWardenDisableFacet
  try dsimp only
  repeat' (first
    | with_reducible assumption
    | with_reducible apply soundOut_next
    | with_reducible apply sound_answered
    | with_reducible apply sound_disableWrite
    | (fail_if_no_progress (with_reducible refine Sound.upd ?_ rfl rfl rfl rfl rfl))
    | split
    | dsimp only)

theorem sound_execWardenKillBeam {q : Part} {f : BitVec 257} (v : Nat) (s : State) (hs : Sound q f s) : SoundOut q f (execWardenKillBeam v s) := by
  unfold execWardenKillBeam
  try dsimp only
  repeat' (first
    | with_reducible assumption
    | with_reducible apply soundOut_next
    | with_reducible apply sound_answered
    | with_reducible apply sound_killWrite
    | (fail_if_no_progress (with_reducible refine Sound.upd ?_ rfl rfl rfl rfl rfl))
    | split
    | dsimp only)

theorem sound_execWardenQuiesceCluster {q : Part} {f : BitVec 257} (v : Nat) (s : State) (hs : Sound q f s) : SoundOut q f (execWardenQuiesceCluster v s) := by
  unfold execWardenQuiesceCluster
  try dsimp only
  repeat' (first
    | with_reducible assumption
    | with_reducible apply soundOut_next
    | with_reducible apply sound_answered
    | with_reducible apply sound_quiesceWrite
    | (fail_if_no_progress (with_reducible refine Sound.upd ?_ rfl rfl rfl rfl rfl))
    | split
    | dsimp only)

theorem sound_execReleaseQuiesce {q : Part} {f : BitVec 257} (v : Nat) (s : State) (hs : Sound q f s) : SoundOut q f (execReleaseQuiesce v s) := by
  unfold execReleaseQuiesce
  try dsimp only
  repeat' (first
    | with_reducible assumption
    | with_reducible apply soundOut_next
    | with_reducible apply sound_answered
    | with_reducible apply sound_releaseWrite
    | (fail_if_no_progress (with_reducible refine Sound.upd ?_ rfl rfl rfl rfl rfl))
    | split
    | dsimp only)

theorem sound_keepKey {q : Part} {f : BitVec 257} (s : State) (i : Nat) (hs : Sound q f s) : Sound q f (keepKey s i) := by
  unfold keepKey
  try dsimp only
  repeat' (first
    | with_reducible assumption
    | (fail_if_no_progress (with_reducible refine Sound.upd ?_ rfl rfl rfl rfl rfl))
    | split
    | dsimp only)

theorem sound_mgmtKeyWrite {q : Part} {f : BitVec 257} (s : State) (key : Octets) (hs : Sound q f s) : Sound q f (mgmtKeyWrite s key).1 := by
  unfold mgmtKeyWrite
  try dsimp only
  repeat' (first
    | with_reducible assumption
    | with_reducible apply sound_keepKey
    | (fail_if_no_progress (with_reducible refine Sound.upd ?_ rfl rfl rfl rfl rfl))
    | split
    | dsimp only)

theorem sound_execManagementKeyWrite {q : Part} {f : BitVec 257} (key : Octets) (s : State) (hs : Sound q f s) : SoundOut q f (execManagementKeyWrite key s) := by
  unfold execManagementKeyWrite
  try dsimp only
  repeat' (first
    | with_reducible assumption
    | with_reducible apply soundOut_next
    | with_reducible apply sound_answered
    | with_reducible apply sound_mgmtKeyWrite
    | (fail_if_no_progress (with_reducible refine Sound.upd ?_ rfl rfl rfl rfl rfl))
    | split
    | dsimp only)

end Sys2Proof.Machine
end

