-- ==== Sys2Proof/Laws/SoundChannel.lean ====
section
/-! SUPPORT. The definitions of Machine/Channel.lean keep what every step keeps. -/

set_option linter.unusedTactic false
set_option linter.unreachableTactic false
set_option linter.unusedVariables false

namespace Sys2Proof.Machine

theorem sound_setChan {q : Part} {f : BitVec 257} (s : State) (n : Nat) (x : Channel) (hs : Sound q f s) : Sound q f (setChan s n x) := by
  unfold setChan
  try dsimp only
  repeat' (first
    | with_reducible assumption
    | (fail_if_no_progress (with_reducible refine Sound.upd ?_ rfl rfl rfl rfl rfl))
    | split
    | dsimp only)

theorem sound_modChan {q : Part} {f : BitVec 257} (s : State) (n : Nat) (f' : Channel → Channel) (hs : Sound q f s) : Sound q f (modChan s n f') := by
  unfold modChan
  try dsimp only
  repeat' (first
    | with_reducible assumption
    | with_reducible apply sound_setChan
    | (fail_if_no_progress (with_reducible refine Sound.upd ?_ rfl rfl rfl rfl rfl))
    | split
    | dsimp only)

theorem sound_setChanCfg {q : Part} {f : BitVec 257} (s : State) (n : Nat) (sub : Nat) (v : Nat) (hs : Sound q f s) : Sound q f (setChanCfg s n sub v) := by
  unfold setChanCfg
  try dsimp only
  repeat' (first
    | with_reducible assumption
    | with_reducible apply sound_setEnt
    | (fail_if_no_progress (with_reducible refine Sound.upd ?_ rfl rfl rfl rfl rfl))
    | split
    | dsimp only)

theorem sound_setIstat {q : Part} {f : BitVec 257} (s : State) (n : Nat) (mask : BitVec 11) (hs : Sound q f s) : Sound q f (setIstat s n mask) := by
  unfold setIstat
  try dsimp only
  repeat' (first
    | with_reducible assumption
    | with_reducible apply sound_setChan
    | with_reducible apply sound_raise
    | (fail_if_no_progress (with_reducible refine Sound.upd ?_ rfl rfl rfl rfl rfl))
    | split
    | dsimp only)

theorem sound_chanRefuse {q : Part} {f : BitVec 257} (s : State) (n : Nat) (code : Nat) (hs : Sound q f s) : Sound q f (chanRefuse s n code).1 := by
  unfold chanRefuse
  try dsimp only
  repeat' (first
    | with_reducible assumption
    | with_reducible apply sound_setIstat
    | (fail_if_no_progress (with_reducible refine Sound.upd ?_ rfl rfl rfl rfl rfl))
    | split
    | dsimp only)

theorem sound_noteCfg {q : Part} {f : BitVec 257} (s : State) (n : Nat) (hs : Sound q f s) : Sound q f (noteCfg s n) := by
  unfold noteCfg
  try dsimp only
  repeat' (first
    | with_reducible assumption
    | with_reducible apply sound_modChan
    | (fail_if_no_progress (with_reducible refine Sound.upd ?_ rfl rfl rfl rfl rfl))
    | split
    | dsimp only)

theorem sound_icfgWrite {q : Part} {f : BitVec 257} (s : State) (n : Nat) (range : Nat) (omode : Nat) (loopen : Nat) (filt : Nat) (hs : Sound q f s) : Sound q f (icfgWrite s n range omode loopen filt).1 := by
  unfold icfgWrite
  try dsimp only
  repeat' (first
    | with_reducible assumption
    | with_reducible apply sound_chanRefuse
    | with_reducible apply sound_setChanCfg
    | with_reducible apply sound_modChan
    | with_reducible apply sound_noteCfg
    | (fail_if_no_progress (with_reducible refine Sound.upd ?_ rfl rfl rfl rfl rfl))
    | split
    | dsimp only)

theorem sound_icfgWord {q : Part} {f : BitVec 257} (s : State) (n : Nat) (v : Word) (hs : Sound q f s) : Sound q f (icfgWord s n v).1 := by
  unfold icfgWord
  try dsimp only
  repeat' (first
    | with_reducible assumption
    | with_reducible apply sound_icfgWrite
    | (fail_if_no_progress (with_reducible refine Sound.upd ?_ rfl rfl rfl rfl rfl))
    | split
    | dsimp only)

theorem sound_lperWrite {q : Part} {f : BitVec 257} (s : State) (n : Nat) (v : Nat) (hs : Sound q f s) : Sound q f (lperWrite s n v).1 := by
  unfold lperWrite
  try dsimp only
  repeat' (first
    | with_reducible assumption
    | with_reducible apply sound_chanRefuse
    | with_reducible apply sound_setChanCfg
    | (fail_if_no_progress (with_reducible refine Sound.upd ?_ rfl rfl rfl rfl rfl))
    | split
    | dsimp only)

theorem sound_olimWrite {q : Part} {f : BitVec 257} (s : State) (n : Nat) (lo : Nat) (hi : Nat) (hs : Sound q f s) : Sound q f (olimWrite s n lo hi).1 := by
  unfold olimWrite
  try dsimp only
  repeat' (first
    | with_reducible assumption
    | with_reducible apply sound_chanRefuse
    | with_reducible apply sound_noteCfg
    | with_reducible apply sound_setChanCfg
    | (fail_if_no_progress (with_reducible refine Sound.upd ?_ rfl rfl rfl rfl rfl))
    | split
    | dsimp only)

theorem sound_forceSafe {q : Part} {f : BitVec 257} (s : State) (n : Nat) (hs : Sound q f s) : Sound q f (forceSafe s n) := by
  unfold forceSafe
  try dsimp only
  repeat' (first
    | with_reducible assumption
    | with_reducible apply sound_setIstat
    | (fail_if_no_progress (with_reducible refine Sound.upd ?_ rfl rfl rfl rfl rfl))
    | split
    | dsimp only)

theorem sound_osafeWrite {q : Part} {f : BitVec 257} (s : State) (n : Nat) (v : Word) (hs : Sound q f s) : Sound q f (osafeWrite s n v).1 := by
  unfold osafeWrite
  try dsimp only
  repeat' (first
    | with_reducible assumption
    | with_reducible apply sound_setChanCfg
    | with_reducible apply sound_forceSafe
    | (fail_if_no_progress (with_reducible refine Sound.upd ?_ rfl rfl rfl rfl rfl))
    | split
    | dsimp only)

theorem sound_loopFieldWrite {q : Part} {f : BitVec 257} (s : State) (n : Nat) (sub : Nat) (v : Nat) (hs : Sound q f s) : Sound q f (loopFieldWrite s n sub v).1 := by
  unfold loopFieldWrite
  try dsimp only
  repeat' (first
    | with_reducible assumption
    | with_reducible apply sound_noteCfg
    | with_reducible apply sound_setChanCfg
    | (fail_if_no_progress (with_reducible refine Sound.upd ?_ rfl rfl rfl rfl rfl))
    | split
    | dsimp only)

theorem sound_spWrite {q : Part} {f : BitVec 257} (s : State) (n : Nat) (v : Int) (hs : Sound q f s) : Sound q f (spWrite s n v).1 := by
  unfold spWrite
  try dsimp only
  repeat' (first
    | with_reducible assumption
    | with_reducible apply sound_noteCfg
    | with_reducible apply sound_modChan
    | (fail_if_no_progress (with_reducible refine Sound.upd ?_ rfl rfl rfl rfl rfl))
    | split
    | dsimp only)

theorem sound_omanWrite {q : Part} {f : BitVec 257} (s : State) (n : Nat) (v : Nat) (hs : Sound q f s) : Sound q f (omanWrite s n v).1 := by
  unfold omanWrite
  try dsimp only
  repeat' (first
    | with_reducible assumption
    | with_reducible apply sound_modChan
    | (fail_if_no_progress (with_reducible refine Sound.upd ?_ rfl rfl rfl rfl rfl))
    | split
    | dsimp only)

theorem sound_scfgWrite {q : Part} {f : BitVec 257} (s : State) (n : Nat) (v : Word) (hs : Sound q f s) : Sound q f (scfgWrite s n v).1 := by
  unfold scfgWrite
  try dsimp only
  repeat' (first
    | with_reducible assumption
    | with_reducible apply sound_chanRefuse
    | with_reducible apply sound_modChan
    | with_reducible apply sound_setChanCfg
    | (fail_if_no_progress (with_reducible refine Sound.upd ?_ rfl rfl rfl rfl rfl))
    | split
    | dsimp only)

theorem sound_sbaseWrite {q : Part} {f : BitVec 257} (s : State) (n : Nat) (v : Word) (hs : Sound q f s) : Sound q f (sbaseWrite s n v).1 := by
  unfold sbaseWrite
  try dsimp only
  repeat' (first
    | with_reducible assumption
    | with_reducible apply sound_chanRefuse
    | with_reducible apply sound_setChanCfg
    | (fail_if_no_progress (with_reducible refine Sound.upd ?_ rfl rfl rfl rfl rfl))
    | split
    | dsimp only)

theorem sound_setUstat {q : Part} {f : BitVec 257} (s : State) (n : Nat) (mask : BitVec 21) (hs : Sound q f s) : Sound q f (setUstat s n mask) := by
  unfold setUstat
  try dsimp only
  repeat' (first
    | with_reducible assumption
    | with_reducible apply sound_setChan
    | with_reducible apply sound_setIstat
    | (fail_if_no_progress (with_reducible refine Sound.upd ?_ rfl rfl rfl rfl rfl))
    | split
    | dsimp only)

theorem sound_lineNow {q : Part} {f : BitVec 257} (s : State) (n : Nat) (hs : Sound q f s) : Sound q f (lineNow s n) := by
  unfold lineNow
  try dsimp only
  repeat' (first
    | with_reducible assumption
    | with_reducible apply sound_modChan
    | (fail_if_no_progress (with_reducible refine Sound.upd ?_ rfl rfl rfl rfl rfl))
    | split
    | dsimp only)

theorem sound_lineStart {q : Part} {f : BitVec 257} (s : State) (n : Nat) (hs : Sound q f s) : Sound q f (lineStart s n) := by
  unfold lineStart
  try dsimp only
  repeat' (first
    | with_reducible assumption
    | with_reducible apply sound_lineNow
    | with_reducible apply sound_setChan
    | (fail_if_no_progress (with_reducible refine Sound.upd ?_ rfl rfl rfl rfl rfl))
    | split
    | dsimp only)

theorem sound_utxWrite {q : Part} {f : BitVec 257} (s : State) (n : Nat) (v : Word) (hs : Sound q f s) : Sound q f (utxWrite s n v) := by
  unfold utxWrite
  try dsimp only
  repeat' (first
    | with_reducible assumption
    | with_reducible apply sound_lineNow
    | with_reducible apply sound_setUstat
    | with_reducible apply sound_lineStart
    | with_reducible apply sound_setChan
    | (fail_if_no_progress (with_reducible refine Sound.upd ?_ rfl rfl rfl rfl rfl))
    | split
    | dsimp only)

theorem sound_ucfgWrite {q : Part} {f : BitVec 257} (s : State) (n : Nat) (v : Word) (hs : Sound q f s) : Sound q f (ucfgWrite s n v).1 := by
  unfold ucfgWrite
  try dsimp only
  repeat' (first
    | with_reducible assumption
    | with_reducible apply sound_chanRefuse
    | with_reducible apply sound_setChanCfg
    | with_reducible apply sound_lineNow
    | with_reducible apply sound_lineStart
    | with_reducible apply sound_modChan
    | (fail_if_no_progress (with_reducible refine Sound.upd ?_ rfl rfl rfl rfl rfl))
    | split
    | dsimp only)

theorem sound_urxRead {q : Part} {f : BitVec 257} (s : State) (n : Nat) (hs : Sound q f s) : Sound q f (urxRead s n).1 := by
  unfold urxRead
  try dsimp only
  repeat' (first
    | with_reducible assumption
    | with_reducible apply sound_setChan
    | (fail_if_no_progress (with_reducible refine Sound.upd ?_ rfl rfl rfl rfl rfl))
    | split
    | (with_reducible apply Sound.of_fst; assumption)
    | dsimp only)

theorem sound_istatWrite {q : Part} {f : BitVec 257} (s : State) (n : Nat) (v : Word) (hs : Sound q f s) : Sound q f (istatWrite s n v).1 := by
  unfold istatWrite
  try dsimp only
  repeat' (first
    | with_reducible assumption
    | with_reducible apply sound_chanRefuse
    | with_reducible apply sound_setChan
    | (fail_if_no_progress (with_reducible refine Sound.upd ?_ rfl rfl rfl rfl rfl))
    | split
    | dsimp only)

theorem sound_chanFail {q : Part} {f : BitVec 257} (s : State) (n : Nat) (why : Nat) (hs : Sound q f s) : Sound q f (chanFail s n why) := by
  unfold chanFail
  try dsimp only
  repeat' (first
    | with_reducible assumption
    | with_reducible apply sound_setChan
    | with_reducible apply sound_emergency
    | with_reducible apply sound_setIstat
    | (fail_if_no_progress (with_reducible refine Sound.upd ?_ rfl rfl rfl rfl rfl))
    | split
    | dsimp only)

theorem sound_chanRead {q : Part} {f : BitVec 257} (s : State) (n : Nat) (off : Nat) (hs : Sound q f s) : Sound q f (chanRead s n off).1 := by
  unfold chanRead
  try dsimp only
  repeat' (first
    | with_reducible assumption
    | with_reducible apply sound_urxRead
    | (fail_if_no_progress (with_reducible refine Sound.upd ?_ rfl rfl rfl rfl rfl))
    | split
    | dsimp only)

theorem sound_chanWrite {q : Part} {f : BitVec 257} (s : State) (n : Nat) (off : Nat) (v : Word) (hs : Sound q f s) : Sound q f (chanWrite s n off v).1 := by
  unfold chanWrite
  try dsimp only
  repeat' (first
    | with_reducible assumption
    | with_reducible apply sound_icfgWord
    | with_reducible apply sound_lperWrite
    | with_reducible apply sound_olimWrite
    | with_reducible apply sound_osafeWrite
    | with_reducible apply sound_loopFieldWrite
    | with_reducible apply sound_spWrite
    | with_reducible apply sound_omanWrite
    | with_reducible apply sound_setChanCfg
    | with_reducible apply sound_istatWrite
    | with_reducible apply sound_modChan
    | with_reducible apply sound_scfgWrite
    | with_reducible apply sound_sbaseWrite
    | with_reducible apply sound_ucfgWrite
    | with_reducible apply sound_utxWrite
    | (fail_if_no_progress (with_reducible refine Sound.upd ?_ rfl rfl rfl rfl rfl))
    | split
    | (with_reducible apply Sound.of_fst; assumption)
    | dsimp only)

theorem sound_chanEntWrite {q : Part} {f : BitVec 257} (s : State) (n : Nat) (sub : Nat) (v : Nat) (hs : Sound q f s) : Sound q f (chanEntWrite s n sub v).1 := by
  unfold chanEntWrite
  try dsimp only
  repeat' (first
    | with_reducible assumption
    | with_reducible apply sound_icfgWrite
    | with_reducible apply sound_lperWrite
    | with_reducible apply sound_olimWrite
    | with_reducible apply sound_osafeWrite
    | with_reducible apply sound_loopFieldWrite
    | with_reducible apply sound_chanRefuse
    | with_reducible apply sound_setChanCfg
    | with_reducible apply sound_scfgWrite
    | with_reducible apply sound_sbaseWrite
    | with_reducible apply sound_ucfgWrite
    | (fail_if_no_progress (with_reducible refine Sound.upd ?_ rfl rfl rfl rfl rfl))
    | split
    | (with_reducible apply Sound.of_fst; assumption)
    | dsimp only)

theorem sound_chanValWrite {q : Part} {f : BitVec 257} (s : State) (n : Nat) (sub : Nat) (v : Nat) (hs : Sound q f s) : Sound q f (chanValWrite s n sub v).1 := by
  unfold chanValWrite
  try dsimp only
  repeat' (first
    | with_reducible assumption
    | with_reducible apply sound_spWrite
    | with_reducible apply sound_omanWrite
    | with_reducible apply sound_istatWrite
    | with_reducible apply sound_forceSafe
    | (fail_if_no_progress (with_reducible refine Sound.upd ?_ rfl rfl rfl rfl rfl))
    | split
    | (with_reducible apply Sound.of_fst; assumption)
    | dsimp only)

theorem sound_convTrips {q : Part} {f : BitVec 257} (s : State) (n : Nat) (c : Int) (hs : Sound q f s) : Sound q f (convTrips s n c) := by
  unfold convTrips
  try dsimp only
  repeat' (first
    | with_reducible assumption
    | with_reducible apply sound_modChan
    | with_reducible apply sound_setIstat
    | (fail_if_no_progress (with_reducible refine Sound.upd ?_ rfl rfl rfl rfl rfl))
    | split
    | dsimp only)

theorem sound_execChannelConversion {q : Part} {f : BitVec 257} (n : Nat) (code : Int) (s : State) (hs : Sound q f s) : SoundOut q f (execChannelConversion n code s) := by
  unfold execChannelConversion
  try dsimp only
  repeat' (first
    | with_reducible assumption
    | with_reducible apply soundOut_next
    | with_reducible apply sound_setChan
    | with_reducible apply sound_setIstat
    | with_reducible apply sound_convTrips
    | (fail_if_no_progress (with_reducible refine Sound.upd ?_ rfl rfl rfl rfl rfl))
    | split
    | dsimp only)

theorem sound_execLoopBoundary {q : Part} {f : BitVec 257} (n : Nat) (s : State) (hs : Sound q f s) : SoundOut q f (execLoopBoundary n s) := by
  unfold execLoopBoundary
  try dsimp only
  repeat' (first
    | with_reducible assumption
    | with_reducible apply soundOut_next
    | with_reducible apply sound_setChan
    | (fail_if_no_progress (with_reducible refine Sound.upd ?_ rfl rfl rfl rfl rfl))
    | split
    | dsimp only)

theorem sound_writeRecord {q : Part} {f : BitVec 257} (s : State) (n : Nat) (hs : Sound q f s) : Sound q f (writeRecord s n) := by
  unfold writeRecord
  try dsimp only
  repeat' (first
    | with_reducible assumption
    | with_reducible apply sound_sendPacket
    | with_reducible apply sound_portWrite
    | with_reducible apply sound_setIstat
    | with_reducible apply sound_modChan
    | (fail_if_no_progress (with_reducible refine Sound.upd ?_ rfl rfl rfl rfl rfl))
    | split
    | (with_reducible apply Sound.of_fst; assumption)
    | dsimp only)

theorem sound_execDacUpdate {q : Part} {f : BitVec 257} (n : Nat) (s : State) (hs : Sound q f s) : SoundOut q f (execDacUpdate n s) := by
  unfold execDacUpdate
  try dsimp only
  repeat' (first
    | with_reducible assumption
    | with_reducible apply soundOut_next
    | with_reducible apply sound_setChan
    | with_reducible apply sound_writeRecord
    | (fail_if_no_progress (with_reducible refine Sound.upd ?_ rfl rfl rfl rfl rfl))
    | split
    | dsimp only)

theorem sound_execOpenLoopDetection {q : Part} {f : BitVec 257} (n : Nat) (isOpen : Bool) (s : State) (hs : Sound q f s) : SoundOut q f (execOpenLoopDetection n isOpen s) := by
  unfold execOpenLoopDetection
  try dsimp only
  repeat' (first
    | with_reducible assumption
    | with_reducible apply soundOut_next
    | with_reducible apply sound_modChan
    | with_reducible apply sound_setIstat
    | (fail_if_no_progress (with_reducible refine Sound.upd ?_ rfl rfl rfl rfl rfl))
    | split
    | dsimp only)

theorem sound_execSelfCheck {q : Part} {f : BitVec 257} (n : Nat) (refOk : Bool) (backOk : Bool) (parity : Bool) (s : State) (hs : Sound q f s) : SoundOut q f (execSelfCheck n refOk backOk parity s) := by
  unfold execSelfCheck
  try dsimp only
  repeat' (first
    | with_reducible assumption
    | with_reducible apply soundOut_next
    | with_reducible apply sound_chanFail
    | with_reducible apply sound_setChan
    | (fail_if_no_progress (with_reducible refine Sound.upd ?_ rfl rfl rfl rfl rfl))
    | split
    | dsimp only)

theorem sound_execOsafeForce {q : Part} {f : BitVec 257} (n : Nat) (v : Word) (s : State) (hs : Sound q f s) : SoundOut q f (execOsafeForce n v s) := by
  unfold execOsafeForce
  try dsimp only
  repeat' (first
    | with_reducible assumption
    | with_reducible apply soundOut_next
    | with_reducible apply sound_osafeWrite
    | (fail_if_no_progress (with_reducible refine Sound.upd ?_ rfl rfl rfl rfl rfl))
    | split
    | dsimp only)

theorem sound_execSafeRelease {q : Part} {f : BitVec 257} (n : Nat) (s : State) (hs : Sound q f s) : SoundOut q f (execSafeRelease n s) := by
  unfold execSafeRelease
  try dsimp only
  repeat' (first
    | with_reducible assumption
    | with_reducible apply soundOut_next
    | with_reducible apply sound_istatWrite
    | (fail_if_no_progress (with_reducible refine Sound.upd ?_ rfl rfl rfl rfl rfl))
    | split
    | dsimp only)

theorem sound_execIcfgWrite {q : Part} {f : BitVec 257} (n : Nat) (v : Word) (s : State) (hs : Sound q f s) : SoundOut q f (execIcfgWrite n v s) := by
  unfold execIcfgWrite
  try dsimp only
  repeat' (first
    | with_reducible assumption
    | with_reducible apply soundOut_next
    | with_reducible apply sound_icfgWord
    | (fail_if_no_progress (with_reducible refine Sound.upd ?_ rfl rfl rfl rfl rfl))
    | split
    | dsimp only)

theorem sound_execScfgWrite {q : Part} {f : BitVec 257} (n : Nat) (v : Word) (s : State) (hs : Sound q f s) : SoundOut q f (execScfgWrite n v s) := by
  unfold execScfgWrite
  try dsimp only
  repeat' (first
    | with_reducible assumption
    | with_reducible apply soundOut_next
    | with_reducible apply sound_scfgWrite
    | (fail_if_no_progress (with_reducible refine Sound.upd ?_ rfl rfl rfl rfl rfl))
    | split
    | dsimp only)

theorem sound_execUtxWrite {q : Part} {f : BitVec 257} (n : Nat) (v : Word) (s : State) (hs : Sound q f s) : SoundOut q f (execUtxWrite n v s) := by
  unfold execUtxWrite
  try dsimp only
  repeat' (first
    | with_reducible assumption
    | with_reducible apply soundOut_next
    | with_reducible apply sound_utxWrite
    | (fail_if_no_progress (with_reducible refine Sound.upd ?_ rfl rfl rfl rfl rfl))
    | split
    | dsimp only)

theorem sound_execRs485TransmissionEnd {q : Part} {f : BitVec 257} (n : Nat) (s : State) (hs : Sound q f s) : SoundOut q f (execRs485TransmissionEnd n s) := by
  unfold execRs485TransmissionEnd
  try dsimp only
  repeat' (first
    | with_reducible assumption
    | with_reducible apply soundOut_next
    | with_reducible apply sound_lineNow
    | with_reducible apply sound_setUstat
    | with_reducible apply sound_setChan
    | (fail_if_no_progress (with_reducible refine Sound.upd ?_ rfl rfl rfl rfl rfl))
    | split
    | dsimp only)

theorem sound_execRs485CharacterReception {q : Part} {f : BitVec 257} (n : Nat) (d : Byte) (perr : Bool) (ferr : Bool) (s : State) (hs : Sound q f s) : SoundOut q f (execRs485CharacterReception n d perr ferr s) := by
  unfold execRs485CharacterReception
  try dsimp only
  repeat' (first
    | with_reducible assumption
    | with_reducible apply soundOut_next
    | with_reducible apply sound_lineNow
    | with_reducible apply sound_setChan
    | with_reducible apply sound_setUstat
    | (fail_if_no_progress (with_reducible refine Sound.upd ?_ rfl rfl rfl rfl rfl))
    | split
    | dsimp only)

theorem sound_execUrxRead {q : Part} {f : BitVec 257} (n : Nat) (s : State) (hs : Sound q f s) : SoundOut q f (execUrxRead n s) := by
  unfold execUrxRead
  try dsimp only
  repeat' (first
    | with_reducible assumption
    | with_reducible apply soundOut_next
    | with_reducible apply sound_urxRead
    | (fail_if_no_progress (with_reducible refine Sound.upd ?_ rfl rfl rfl rfl rfl))
    | split
    | dsimp only)

theorem sound_chanRequalStart {q : Part} {f : BitVec 257} (s : State) (v : Nat) (hs : Sound q f s) : Sound q f (chanRequalStart s v).1 := by
  unfold chanRequalStart
  try dsimp only
  repeat' (first
    | with_reducible assumption
    | with_reducible apply sound_setEnt
    | (fail_if_no_progress (with_reducible refine Sound.upd ?_ rfl rfl rfl rfl rfl))
    | split
    | dsimp only)

theorem sound_chanRequalEnd {q : Part} {f : BitVec 257} (s : State) (pass : Bool) (hs : Sound q f s) : Sound q f (chanRequalEnd s pass) := by
  unfold chanRequalEnd
  try dsimp only
  repeat' (first
    | with_reducible assumption
    | with_reducible apply sound_setEnt
    | with_reducible apply sound_modChan
    | (fail_if_no_progress (with_reducible refine Sound.upd ?_ rfl rfl rfl rfl rfl))
    | split
    | dsimp only)

theorem sound_execChannelRequalification {q : Part} {f : BitVec 257} (v : Nat) (pass : Bool) (s : State) (hs : Sound q f s) : SoundOut q f (execChannelRequalification v pass s) := by
  unfold execChannelRequalification
  try dsimp only
  repeat' (first
    | with_reducible assumption
    | with_reducible apply soundOut_next
    | with_reducible apply sound_chanRequalEnd
    | with_reducible apply sound_chanRequalStart
    | with_reducible apply sound_answered
    | (fail_if_no_progress (with_reducible refine Sound.upd ?_ rfl rfl rfl rfl rfl))
    | split
    | (with_reducible apply Sound.of_fst; assumption)
    | dsimp only)

end Sys2Proof.Machine
end

