-- ==== Sys2Proof/Laws/SoundClock.lean ====
section
/-! SUPPORT. The definitions of Machine/Clock.lean keep what every step keeps. -/

set_option linter.unusedTactic false
set_option linter.unreachableTactic false
set_option linter.unusedVariables false

namespace Sys2Proof.Machine

theorem sound_shiftTimes {q : Part} {f : BitVec 257} (s : State) (d : Int) (now : Nat) (hn : now < 2 ^ 64) (hs : Sound q f s) : Sound q f (shiftTimes s d now) :=
  ⟨hs.part, hs.grown, hs.loaded, hs.mem, hn⟩

theorem sound_fireAlarm {q : Part} {f : BitVec 257} (s : State) (i : Nat) (hs : Sound q f s) : Sound q f (fireAlarm s i) := by
  unfold fireAlarm
  try dsimp only
  repeat' (first
    | with_reducible assumption
    | with_reducible apply sound_raise
    | (fail_if_no_progress (with_reducible refine Sound.upd ?_ rfl rfl rfl rfl rfl))
    | split
    | dsimp only)

theorem sound_passSeconds {q : Part} {f : BitVec 257} (s : State) (hs : Sound q f s) : Sound q f (passSeconds s) := by
  unfold passSeconds
  try dsimp only
  repeat' (first
    | with_reducible assumption
    | (fail_if_no_progress (with_reducible refine Sound.upd ?_ rfl rfl rfl rfl rfl))
    | split
    | dsimp only)

theorem sound_stepTimebase {q : Part} {f : BitVec 257} (s : State) (n : Int) (hs : Sound q f s) : Sound q f (stepTimebase s n) := by
  unfold stepTimebase
  dsimp only
  apply Sound.foldl
  · apply sound_raise
    apply Sound.upd ?_ rfl rfl rfl rfl rfl
    apply sound_passSeconds
    refine sound_shiftTimes _ _ _ ?_ hs
    have h1 := Int.emod_nonneg ((s.tb : Int) + 4 * n) (show (2 ^ 64 : Int) ≠ 0 by norm_num)
    have h2 := Int.emod_lt_of_pos ((s.tb : Int) + 4 * n) (show (0 : Int) < 2 ^ 64 by norm_num)
    omega
  · intro t x h
    exact sound_fireAlarm _ _ h

theorem sound_tbadjWrite {q : Part} {f : BitVec 257} (s : State) (v : Word) (hs : Sound q f s) : Sound q f (tbadjWrite s v) := by
  unfold tbadjWrite
  try dsimp only
  repeat' (first
    | with_reducible assumption
    | (fail_if_no_progress (with_reducible refine Sound.upd ?_ rfl rfl rfl rfl rfl))
    | split
    | dsimp only)

theorem sound_tbstepWrite {q : Part} {f : BitVec 257} (s : State) (v : Word) (hs : Sound q f s) : Sound q f (tbstepWrite s v) := by
  unfold tbstepWrite
  try dsimp only
  repeat' (first
    | with_reducible assumption
    | with_reducible apply sound_stepTimebase
    | (fail_if_no_progress (with_reducible refine Sound.upd ?_ rfl rfl rfl rfl rfl))
    | split
    | dsimp only)

theorem sound_execTbadjWrite {q : Part} {f : BitVec 257} (v : Word) (s : State) (hs : Sound q f s) : SoundOut q f (execTbadjWrite v s) := by
  unfold execTbadjWrite
  try dsimp only
  repeat' (first
    | with_reducible assumption
    | with_reducible apply soundOut_next
    | with_reducible apply sound_tbadjWrite
    | (fail_if_no_progress (with_reducible refine Sound.upd ?_ rfl rfl rfl rfl rfl))
    | split
    | dsimp only)

theorem sound_execTbstepWrite {q : Part} {f : BitVec 257} (v : Word) (s : State) (hs : Sound q f s) : SoundOut q f (execTbstepWrite v s) := by
  unfold execTbstepWrite
  try dsimp only
  repeat' (first
    | with_reducible assumption
    | with_reducible apply soundOut_next
    | with_reducible apply sound_tbstepWrite
    | (fail_if_no_progress (with_reducible refine Sound.upd ?_ rfl rfl rfl rfl rfl))
    | split
    | dsimp only)

theorem sound_setLock {q : Part} {f : BitVec 257} (s : State) (v : Nat) (hs : Sound q f s) : Sound q f (setLock s v) := by
  unfold setLock
  try dsimp only
  repeat' (first
    | with_reducible assumption
    | with_reducible apply sound_raise
    | (fail_if_no_progress (with_reducible refine Sound.upd ?_ rfl rfl rfl rfl rfl))
    | split
    | dsimp only)

theorem sound_unlock {q : Part} {f : BitVec 257} (s : State) (hs : Sound q f s) : Sound q f (unlock s) := by
  unfold unlock
  try dsimp only
  repeat' (first
    | with_reducible assumption
    | with_reducible apply sound_setLock
    | (fail_if_no_progress (with_reducible refine Sound.upd ?_ rfl rfl rfl rfl rfl))
    | split
    | dsimp only)

theorem sound_judgeOffset {q : Part} {f : BitVec 257} (s : State) (src : Nat) (off : Int) (hs : Sound q f s) : Sound q f (judgeOffset s src off) := by
  unfold judgeOffset
  try dsimp only
  repeat' (first
    | with_reducible assumption
    | with_reducible apply sound_unlock
    | with_reducible apply sound_setLock
    | (fail_if_no_progress (with_reducible refine Sound.upd ?_ rfl rfl rfl rfl rfl))
    | split
    | dsimp only)

theorem sound_measureOffset {q : Part} {f : BitVec 257} (s : State) (src : Nat) (off : Int) (hs : Sound q f s) : Sound q f (measureOffset s src off) := by
  unfold measureOffset
  try dsimp only
  repeat' (first
    | with_reducible assumption
    | with_reducible apply sound_judgeOffset
    | with_reducible apply sound_stepTimebase
    | (fail_if_no_progress (with_reducible refine Sound.upd ?_ rfl rfl rfl rfl rfl))
    | split
    | dsimp only)

theorem sound_execPtpSyncMeasurement {q : Part} {f : BitVec 257} (p : Nat) (off : Int) (s : State) (hs : Sound q f s) : SoundOut q f (execPtpSyncMeasurement p off s) := by
  unfold execPtpSyncMeasurement
  try dsimp only
  repeat' (first
    | with_reducible assumption
    | with_reducible apply soundOut_next
    | with_reducible apply sound_measureOffset
    | (fail_if_no_progress (with_reducible refine Sound.upd ?_ rfl rfl rfl rfl rfl))
    | split
    | dsimp only)

theorem sound_execAnnounceReception {q : Part} {f : BitVec 257} (p : Nat) (a : Announce) (s : State) (hs : Sound q f s) : SoundOut q f (execAnnounceReception p a s) := by
  unfold execAnnounceReception
  try dsimp only
  repeat' (first
    | with_reducible assumption
    | with_reducible apply soundOut_next
    | (fail_if_no_progress (with_reducible refine Sound.upd ?_ rfl rfl rfl rfl rfl))
    | split
    | dsimp only)

theorem sound_execDisciplineTimeout {q : Part} {f : BitVec 257} (s : State) (hs : Sound q f s) : SoundOut q f (execDisciplineTimeout s) := by
  unfold execDisciplineTimeout
  try dsimp only
  repeat' (first
    | with_reducible assumption
    | with_reducible apply soundOut_next
    | with_reducible apply sound_unlock
    | (fail_if_no_progress (with_reducible refine Sound.upd ?_ rfl rfl rfl rfl rfl))
    | split
    | dsimp only)

theorem sound_execCycReception {q : Part} {f : BitVec 257} (p : Nat) (cyc : Nat) (ts : Nat) (arrived : Nat) (s : State) (hs : Sound q f s) : SoundOut q f (execCycReception p cyc ts arrived s) := by
  unfold execCycReception
  try dsimp only
  repeat' (first
    | with_reducible assumption
    | with_reducible apply soundOut_next
    | with_reducible apply sound_cycSupervise
    | with_reducible apply sound_measureOffset
    | (fail_if_no_progress (with_reducible refine Sound.upd ?_ rfl rfl rfl rfl rfl))
    | split
    | dsimp only)

theorem sound_execTimebaseAlarm {q : Part} {f : BitVec 257} (i : Nat) (s : State) (hs : Sound q f s) : SoundOut q f (execTimebaseAlarm i s) := by
  unfold execTimebaseAlarm
  try dsimp only
  repeat' (first
    | with_reducible assumption
    | with_reducible apply soundOut_next
    | with_reducible apply sound_fireAlarm
    | (fail_if_no_progress (with_reducible refine Sound.upd ?_ rfl rfl rfl rfl rfl))
    | split
    | dsimp only)

theorem sound_execWholeSecond {q : Part} {f : BitVec 257} (s : State) (hs : Sound q f s) : SoundOut q f (execWholeSecond s) := by
  unfold execWholeSecond
  try dsimp only
  repeat' (first
    | with_reducible assumption
    | with_reducible apply soundOut_next
    | with_reducible apply sound_passSeconds
    | (fail_if_no_progress (with_reducible refine Sound.upd ?_ rfl rfl rfl rfl rfl))
    | split
    | dsimp only)

theorem sound_calAlarm {q : Part} {f : BitVec 257} (s : State) (hs : Sound q f s) : Sound q f (calAlarm s) := by
  unfold calAlarm
  try dsimp only
  repeat' (first
    | with_reducible assumption
    | with_reducible apply sound_raise
    | (fail_if_no_progress (with_reducible refine Sound.upd ?_ rfl rfl rfl rfl rfl))
    | split
    | dsimp only)

theorem sound_calEdge {q : Part} {f : BitVec 257} (s : State) (hs : Sound q f s) : Sound q f (calEdge s) := by
  unfold calEdge
  try dsimp only
  repeat' (first
    | with_reducible assumption
    | (fail_if_no_progress (with_reducible refine Sound.upd ?_ rfl rfl rfl rfl rfl))
    | split
    | dsimp only)

theorem sound_execCalendarSecond {q : Part} {f : BitVec 257} (s : State) (hs : Sound q f s) : SoundOut q f (execCalendarSecond s) := by
  unfold execCalendarSecond
  try dsimp only
  repeat' (first
    | with_reducible assumption
    | with_reducible apply soundOut_next
    | with_reducible apply sound_calAlarm
    | with_reducible apply sound_calEdge
    | with_reducible apply sound_measureOffset
    | (fail_if_no_progress (with_reducible refine Sound.upd ?_ rfl rfl rfl rfl rfl))
    | split
    | dsimp only)

theorem sound_calSet {q : Part} {f : BitVec 257} (s : State) (v : Nat) (hs : Sound q f s) : Sound q f (calSet s v) := by
  unfold calSet
  try dsimp only
  repeat' (first
    | with_reducible assumption
    | with_reducible apply sound_calAlarm
    | with_reducible apply sound_unlock
    | (fail_if_no_progress (with_reducible refine Sound.upd ?_ rfl rfl rfl rfl rfl))
    | split
    | dsimp only)

theorem sound_calWrite {q : Part} {f : BitVec 257} (s : State) (v : Nat) (hs : Sound q f s) : Sound q f (calWrite s v).1 := by
  unfold calWrite
  try dsimp only
  repeat' (first
    | with_reducible assumption
    | with_reducible apply sound_calSet
    | (fail_if_no_progress (with_reducible refine Sound.upd ?_ rfl rfl rfl rfl rfl))
    | split
    | dsimp only)

theorem sound_execCalendarWrite {q : Part} {f : BitVec 257} (v : Nat) (s : State) (hs : Sound q f s) : SoundOut q f (execCalendarWrite v s) := by
  unfold execCalendarWrite
  try dsimp only
  repeat' (first
    | with_reducible assumption
    | with_reducible apply soundOut_next
    | with_reducible apply sound_answered
    | with_reducible apply sound_calWrite
    | (fail_if_no_progress (with_reducible refine Sound.upd ?_ rfl rfl rfl rfl rfl))
    | split
    | dsimp only)

theorem sound_execCalendarSetFromPtp {q : Part} {f : BitVec 257} (s : State) (hs : Sound q f s) : SoundOut q f (execCalendarSetFromPtp s) := by
  unfold execCalendarSetFromPtp
  try dsimp only
  repeat' (first
    | with_reducible assumption
    | with_reducible apply soundOut_next
    | with_reducible apply sound_calSet
    | (fail_if_no_progress (with_reducible refine Sound.upd ?_ rfl rfl rfl rfl rfl))
    | split
    | (with_reducible apply Sound.of_fst; assumption)
    | dsimp only)

theorem sound_execCaltrimUpdate {q : Part} {f : BitVec 257} (trim : Int) (s : State) (hs : Sound q f s) : SoundOut q f (execCaltrimUpdate trim s) := by
  unfold execCaltrimUpdate
  try dsimp only
  repeat' (first
    | with_reducible assumption
    | with_reducible apply soundOut_next
    | (fail_if_no_progress (with_reducible refine Sound.upd ?_ rfl rfl rfl rfl rfl))
    | split
    | dsimp only)

theorem sound_see744 {q : Part} {f : BitVec 257} (s : State) (hs : Sound q f s) : Sound q f (see744 s) := by
  unfold see744
  try dsimp only
  repeat' (first
    | with_reducible assumption
    | with_reducible apply sound_raise
    | (fail_if_no_progress (with_reducible refine Sound.upd ?_ rfl rfl rfl rfl rfl))
    | split
    | dsimp only)

theorem sound_execVbatCheck {q : Part} {f : BitVec 257} (mv : Nat) (s : State) (hs : Sound q f s) : SoundOut q f (execVbatCheck mv s) := by
  unfold execVbatCheck
  try dsimp only
  repeat' (first
    | with_reducible assumption
    | with_reducible apply soundOut_next
    | with_reducible apply sound_raise
    | (fail_if_no_progress (with_reducible refine Sound.upd ?_ rfl rfl rfl rfl rfl))
    | split
    | dsimp only)

theorem sound_execOscillatorStop {q : Part} {f : BitVec 257} (s : State) (hs : Sound q f s) : SoundOut q f (execOscillatorStop s) := by
  unfold execOscillatorStop
  try dsimp only
  repeat' (first
    | with_reducible assumption
    | with_reducible apply soundOut_next
    | with_reducible apply sound_see744
    | (fail_if_no_progress (with_reducible refine Sound.upd ?_ rfl rfl rfl rfl rfl))
    | split
    | dsimp only)

theorem sound_execBackupPowerLoss {q : Part} {f : BitVec 257} (s : State) (hs : Sound q f s) : SoundOut q f (execBackupPowerLoss s) := by
  unfold execBackupPowerLoss
  try dsimp only
  repeat' (first
    | with_reducible assumption
    | with_reducible apply soundOut_next
    | (fail_if_no_progress (with_reducible refine Sound.upd ?_ rfl rfl rfl rfl rfl))
    | split
    | dsimp only)

theorem sound_execBackupSupplyChangeover {q : Part} {f : BitVec 257} (vbat : Bool) (s : State) (hs : Sound q f s) : SoundOut q f (execBackupSupplyChangeover vbat s) := by
  unfold execBackupSupplyChangeover
  try dsimp only
  repeat' (first
    | with_reducible assumption
    | with_reducible apply soundOut_next
    | (fail_if_no_progress (with_reducible refine Sound.upd ?_ rfl rfl rfl rfl rfl))
    | split
    | dsimp only)

theorem sound_tbcloRead {q : Part} {f : BitVec 257} (s : State) (hs : Sound q f s) : Sound q f (tbcloRead s).1 := by
  unfold tbcloRead
  try dsimp only
  repeat' (first
    | with_reducible assumption
    | (fail_if_no_progress (with_reducible refine Sound.upd ?_ rfl rfl rfl rfl rfl))
    | split
    | dsimp only)

theorem sound_execTbcloRead {q : Part} {f : BitVec 257} (s : State) (hs : Sound q f s) : SoundOut q f (execTbcloRead s) := by
  unfold execTbcloRead
  try dsimp only
  repeat' (first
    | with_reducible assumption
    | with_reducible apply soundOut_next
    | with_reducible apply sound_tbcloRead
    | (fail_if_no_progress (with_reducible refine Sound.upd ?_ rfl rfl rfl rfl rfl))
    | split
    | dsimp only)

theorem sound_calsloRead {q : Part} {f : BitVec 257} (s : State) (hs : Sound q f s) : Sound q f (calsloRead s).1 := by
  unfold calsloRead
  try dsimp only
  repeat' (first
    | with_reducible assumption
    | (fail_if_no_progress (with_reducible refine Sound.upd ?_ rfl rfl rfl rfl rfl))
    | split
    | dsimp only)

theorem sound_execCalsloRead {q : Part} {f : BitVec 257} (s : State) (hs : Sound q f s) : SoundOut q f (execCalsloRead s) := by
  unfold execCalsloRead
  try dsimp only
  repeat' (first
    | with_reducible assumption
    | with_reducible apply soundOut_next
    | with_reducible apply sound_calsloRead
    | (fail_if_no_progress (with_reducible refine Sound.upd ?_ rfl rfl rfl rfl rfl))
    | split
    | dsimp only)

theorem sound_timebaseRead {q : Part} {f : BitVec 257} (s : State) (off : Nat) (hs : Sound q f s) : Sound q f (timebaseRead s off).1 := by
  unfold timebaseRead
  try dsimp only
  repeat' (first
    | with_reducible assumption
    | with_reducible apply sound_tbcloRead
    | (fail_if_no_progress (with_reducible refine Sound.upd ?_ rfl rfl rfl rfl rfl))
    | split
    | dsimp only)

theorem sound_timebaseWrite {q : Part} {f : BitVec 257} (s : State) (off : Nat) (v : Word) (hs : Sound q f s) : Sound q f (timebaseWrite s off v) := by
  unfold timebaseWrite
  try dsimp only
  repeat' (first
    | with_reducible assumption
    | with_reducible apply sound_tbadjWrite
    | with_reducible apply sound_tbstepWrite
    | (fail_if_no_progress (with_reducible refine Sound.upd ?_ rfl rfl rfl rfl rfl))
    | split
    | dsimp only)

theorem sound_setBkup {q : Part} {f : BitVec 257} (s : State) (w : Nat) (v : Word) (hs : Sound q f s) : Sound q f (setBkup s w v) := by
  unfold setBkup
  try dsimp only
  repeat' (first
    | with_reducible assumption
    | (fail_if_no_progress (with_reducible refine Sound.upd ?_ rfl rfl rfl rfl rfl))
    | split
    | dsimp only)

theorem sound_calendarRead {q : Part} {f : BitVec 257} (s : State) (off : Nat) (hs : Sound q f s) : Sound q f (calendarRead s off).1 := by
  unfold calendarRead
  try dsimp only
  repeat' (first
    | with_reducible assumption
    | with_reducible apply sound_calsloRead
    | (fail_if_no_progress (with_reducible refine Sound.upd ?_ rfl rfl rfl rfl rfl))
    | split
    | dsimp only)

theorem sound_calstatWrite {q : Part} {f : BitVec 257} (s : State) (v : Word) (hs : Sound q f s) : Sound q f (calstatWrite s v) := by
  unfold calstatWrite
  try dsimp only
  repeat' (first
    | with_reducible assumption
    | (fail_if_no_progress (with_reducible refine Sound.upd ?_ rfl rfl rfl rfl rfl))
    | split
    | dsimp only)

theorem sound_calendarWrite {q : Part} {f : BitVec 257} (s : State) (off : Nat) (v : Word) (hs : Sound q f s) : Sound q f (calendarWrite s off v) := by
  unfold calendarWrite
  try dsimp only
  repeat' (first
    | with_reducible assumption
    | with_reducible apply sound_calWrite
    | with_reducible apply sound_calAlarm
    | with_reducible apply sound_calstatWrite
    | with_reducible apply sound_setBkup
    | (fail_if_no_progress (with_reducible refine Sound.upd ?_ rfl rfl rfl rfl rfl))
    | split
    | dsimp only)

end Sys2Proof.Machine
end

