-- ==== Sys2Proof/Laws/SoundCluster.lean ====
section
/-! SUPPORT. The definitions of Machine/Cluster.lean keep what every step keeps. -/

set_option linter.unusedTactic false
set_option linter.unreachableTactic false
set_option linter.unusedVariables false

namespace Sys2Proof.Machine

theorem sound_setRefused {q : Part} {f : BitVec 257} (s : State) (c : Nat) (k : Nat) (hs : Sound q f s) : Sound q f (setRefused s c k) := by
  unfold setRefused
  try dsimp only
  repeat' (first
    | with_reducible assumption
    | with_reducible apply sound_modBank
    | (fail_if_no_progress (with_reducible refine Sound.upd ?_ rfl rfl rfl rfl rfl))
    | split
    | dsimp only)

theorem sound_bankownWrite {q : Part} {f : BitVec 257} (s : State) (m : Master) (c : Nat) (k : Nat) (v : Word) (hs : Sound q f s) : Sound q f (bankownWrite s m c k v) := by
  unfold bankownWrite
  try dsimp only
  repeat' (first
    | with_reducible assumption
    | with_reducible apply sound_setRefused
    | with_reducible apply sound_modBank
    | (fail_if_no_progress (with_reducible refine Sound.upd ?_ rfl rfl rfl rfl rfl))
    | split
    | (with_reducible apply Sound.of_fst; assumption)
    | dsimp only)

theorem sound_execBankownWrite {q : Part} {f : BitVec 257} (m : Master) (c : Nat) (k : Nat) (v : Word) (s : State) (hs : Sound q f s) : SoundOut q f (execBankownWrite m c k v s) := by
  unfold execBankownWrite
  try dsimp only
  repeat' (first
    | with_reducible assumption
    | with_reducible apply soundOut_next
    | with_reducible apply sound_bankownWrite
    | (fail_if_no_progress (with_reducible refine Sound.upd ?_ rfl rfl rfl rfl rfl))
    | split
    | dsimp only)

theorem sound_execHandoverCompletion {q : Part} {f : BitVec 257} (c : Nat) (k : Nat) (s : State) (hs : Sound q f s) : SoundOut q f (execHandoverCompletion c k s) := by
  unfold execHandoverCompletion
  try dsimp only
  repeat' (first
    | with_reducible assumption
    | with_reducible apply soundOut_next
    | with_reducible apply sound_flushMerge
    | with_reducible apply sound_setClevt
    | with_reducible apply sound_modBank
    | (fail_if_no_progress (with_reducible refine Sound.upd ?_ rfl rfl rfl rfl rfl))
    | split
    | (with_reducible apply Sound.of_fst; assumption)
    | dsimp only)

theorem sound_bankcfgWrite {q : Part} {f : BitVec 257} (s : State) (m : Master) (c : Nat) (k : Nat) (v : Word) (hs : Sound q f s) : Sound q f (bankcfgWrite s m c k v) := by
  unfold bankcfgWrite
  try dsimp only
  repeat' (first
    | with_reducible assumption
    | with_reducible apply sound_modBank
    | with_reducible apply sound_setRefused
    | (fail_if_no_progress (with_reducible refine Sound.upd ?_ rfl rfl rfl rfl rfl))
    | split
    | dsimp only)

theorem sound_execBankcfgWrite {q : Part} {f : BitVec 257} (m : Master) (c : Nat) (k : Nat) (v : Word) (s : State) (hs : Sound q f s) : SoundOut q f (execBankcfgWrite m c k v s) := by
  unfold execBankcfgWrite
  try dsimp only
  repeat' (first
    | with_reducible assumption
    | with_reducible apply soundOut_next
    | with_reducible apply sound_bankcfgWrite
    | (fail_if_no_progress (with_reducible refine Sound.upd ?_ rfl rfl rfl rfl rfl))
    | split
    | dsimp only)

theorem sound_execScrubWord {q : Part} {f : BitVec 257} (m : MemId) (w : Nat) (s : State) (hs : Sound q f s) : SoundOut q f (execScrubWord m w s) := by
  unfold execScrubWord
  try dsimp only
  repeat' (first
    | with_reducible assumption
    | with_reducible apply soundOut_next
    | with_reducible apply sound_checkWord
    | (fail_if_no_progress (with_reducible refine Sound.upd ?_ rfl rfl rfl rfl rfl))
    | split
    | (with_reducible apply Sound.of_fst; assumption)
    | dsimp only)

theorem sound_execScrubPeriodEnd {q : Part} {f : BitVec 257} (s : State) (hs : Sound q f s) : SoundOut q f (execScrubPeriodEnd s) := by
  unfold execScrubPeriodEnd
  try dsimp only
  repeat' (first
    | with_reducible assumption
    | with_reducible apply soundOut_next
    | with_reducible apply sound_bumpEnt
    | (fail_if_no_progress (with_reducible refine Sound.upd ?_ rfl rfl rfl rfl rfl))
    | split
    | dsimp only)

theorem sound_execCorrectionHistoryExpiry {q : Part} {f : BitVec 257} (m : MemId) (s : State) (hs : Sound q f s) : SoundOut q f (execCorrectionHistoryExpiry m s) := by
  unfold execCorrectionHistoryExpiry
  try dsimp only
  repeat' (first
    | with_reducible assumption
    | with_reducible apply soundOut_next
    | with_reducible apply sound_setHistory
    | (fail_if_no_progress (with_reducible refine Sound.upd ?_ rfl rfl rfl rfl rfl))
    | split
    | (with_reducible apply Sound.of_fst; assumption)
    | dsimp only)

theorem sound_execLoanStart {q : Part} {f : BitVec 257} (c : Nat) (k : Nat) (s : State) (hs : Sound q f s) : SoundOut q f (execLoanStart c k s) := by
  unfold execLoanStart
  try dsimp only
  repeat' (first
    | with_reducible assumption
    | with_reducible apply soundOut_next
    | with_reducible apply sound_forceMerge
    | with_reducible apply sound_modBank
    | (with_reducible apply Sound.foldl_fst <;> intros)
    | (with_reducible apply Sound.foldl <;> intros)
    | (fail_if_no_progress (with_reducible refine Sound.upd ?_ rfl rfl rfl rfl rfl))
    | split
    | dsimp only)

theorem sound_execLoanReturn {q : Part} {f : BitVec 257} (c : Nat) (k : Nat) (bad : List Nat) (s : State) (hs : Sound q f s) : SoundOut q f (execLoanReturn c k bad s) := by
  unfold execLoanReturn
  try dsimp only
  repeat' (first
    | with_reducible assumption
    | with_reducible apply soundOut_next
    | with_reducible apply sound_permanentWord
    | with_reducible apply sound_restoreLoan
    | (with_reducible apply Sound.foldl_fst <;> intros)
    | (with_reducible apply Sound.foldl <;> intros)
    | (fail_if_no_progress (with_reducible refine Sound.upd ?_ rfl rfl rfl rfl rfl))
    | split
    | (with_reducible apply Sound.of_fst; assumption)
    | dsimp only)

end Sys2Proof.Machine
end

