-- ==== Sys2Proof/Laws/SoundSettings.lean ====
section
/-! SUPPORT. The definitions of Machine/Settings.lean keep what every step keeps. -/

set_option linter.unusedTactic false
set_option linter.unreachableTactic false
set_option linter.unusedVariables false

namespace Sys2Proof.Machine

theorem sound_loupeResumeCore {q : Part} {f : BitVec 257} (s : State) (n : Nat) (hs : Sound q f s) : Sound q f (loupeResumeCore s n) := by
  unfold loupeResumeCore
  try dsimp only
  repeat' (first
    | with_reducible assumption
    | with_reducible apply sound_modCore
    | (fail_if_no_progress (with_reducible refine Sound.upd ?_ rfl rfl rfl rfl rfl))
    | split
    | dsimp only)

theorem sound_resumeAll {q : Part} {f : BitVec 257} (s : State) (hs : Sound q f s) : Sound q f (resumeAll s) := by
  unfold resumeAll
  try dsimp only
  repeat' (first
    | with_reducible assumption
    | with_reducible apply sound_loupeResumeCore
    | (with_reducible apply Sound.foldl_fst <;> intros)
    | (with_reducible apply Sound.foldl <;> intros)
    | (fail_if_no_progress (with_reducible refine Sound.upd ?_ rfl rfl rfl rfl rfl))
    | split
    | dsimp only)

theorem sound_gateWrite {q : Part} {f : BitVec 257} (s : State) (v : Nat) (hs : Sound q f s) : Sound q f (gateWrite s v).1 := by
  unfold gateWrite
  try dsimp only
  repeat' (first
    | with_reducible assumption
    | with_reducible apply sound_setEnt
    | with_reducible apply sound_resumeAll
    | (fail_if_no_progress (with_reducible refine Sound.upd ?_ rfl rfl rfl rfl rfl))
    | split
    | dsimp only)

theorem sound_execLoupeGateWrite {q : Part} {f : BitVec 257} (v : Nat) (s : State) (hs : Sound q f s) : SoundOut q f (execLoupeGateWrite v s) := by
  unfold execLoupeGateWrite
  try dsimp only
  repeat' (first
    | with_reducible assumption
    | with_reducible apply soundOut_next
    | with_reducible apply sound_answered
    | with_reducible apply sound_gateWrite
    | (fail_if_no_progress (with_reducible refine Sound.upd ?_ rfl rfl rfl rfl rfl))
    | split
    | dsimp only)

theorem sound_linkKeyWrite {q : Part} {f : BitVec 257} (s : State) (k : Nat) (key : Octets) (hs : Sound q f s) : Sound q f (linkKeyWrite s k key).1 := by
  unfold linkKeyWrite
  try dsimp only
  repeat' (first
    | with_reducible assumption
    | (fail_if_no_progress (with_reducible refine Sound.upd ?_ rfl rfl rfl rfl rfl))
    | split
    | dsimp only)

theorem sound_execKeySlotWrite {q : Part} {f : BitVec 257} (k : Nat) (key : Octets) (s : State) (hs : Sound q f s) : SoundOut q f (execKeySlotWrite k key s) := by
  unfold execKeySlotWrite
  try dsimp only
  repeat' (first
    | with_reducible assumption
    | with_reducible apply soundOut_next
    | with_reducible apply sound_answered
    | with_reducible apply sound_linkKeyWrite
    | (fail_if_no_progress (with_reducible refine Sound.upd ?_ rfl rfl rfl rfl rfl))
    | split
    | dsimp only)

theorem sound_sessionKeyWrite {q : Part} {f : BitVec 257} (s : State) (sub : Nat) (key : Octets) (hs : Sound q f s) : Sound q f (sessionKeyWrite s sub key).1 := by
  unfold sessionKeyWrite
  try dsimp only
  repeat' (first
    | with_reducible assumption
    | with_reducible apply sound_keepKey
    | (fail_if_no_progress (with_reducible refine Sound.upd ?_ rfl rfl rfl rfl rfl))
    | split
    | dsimp only)

theorem sound_execSessionKeyWrite {q : Part} {f : BitVec 257} (sub : Nat) (key : Octets) (s : State) (hs : Sound q f s) : SoundOut q f (execSessionKeyWrite sub key s) := by
  unfold execSessionKeyWrite
  try dsimp only
  repeat' (first
    | with_reducible assumption
    | with_reducible apply soundOut_next
    | with_reducible apply sound_answered
    | with_reducible apply sound_sessionKeyWrite
    | (fail_if_no_progress (with_reducible refine Sound.upd ?_ rfl rfl rfl rfl rfl))
    | split
    | dsimp only)

theorem sound_historyClear {q : Part} {f : BitVec 257} (s : State) (hs : Sound q f s) : Sound q f (historyClear s) := by
  unfold historyClear
  try dsimp only
  repeat' (first
    | with_reducible assumption
    | with_reducible apply sound_setEnt
    | (fail_if_no_progress (with_reducible refine Sound.upd ?_ rfl rfl rfl rfl rfl))
    | split
    | dsimp only)

theorem sound_execErrorHistoryClear {q : Part} {f : BitVec 257} (s : State) (hs : Sound q f s) : SoundOut q f (execErrorHistoryClear s) := by
  unfold execErrorHistoryClear
  try dsimp only
  repeat' (first
    | with_reducible assumption
    | with_reducible apply soundOut_next
    | with_reducible apply sound_answered
    | with_reducible apply sound_historyClear
    | (fail_if_no_progress (with_reducible refine Sound.upd ?_ rfl rfl rfl rfl rfl))
    | split
    | dsimp only)

theorem sound_facetCfgWrite {q : Part} {f : BitVec 257} (s : State) (p : Nat) (sub : Nat) (v : Nat) (hs : Sound q f s) : Sound q f (facetCfgWrite s p sub v).1 := by
  unfold facetCfgWrite
  try dsimp only
  repeat' (first
    | with_reducible assumption
    | with_reducible apply sound_setEnt
    | with_reducible apply sound_modeWrite
    | with_reducible apply sound_roleWrite
    | (fail_if_no_progress (with_reducible refine Sound.upd ?_ rfl rfl rfl rfl rfl))
    | split
    | (with_reducible apply Sound.of_fst; assumption)
    | dsimp only)

theorem sound_fosterWrite {q : Part} {f : BitVec 257} (s : State) (c : Nat) (sub : Nat) (v : Nat) (hs : Sound q f s) : Sound q f (fosterWrite s c sub v).1 := by
  unfold fosterWrite
  try dsimp only
  repeat' (first
    | with_reducible assumption
    | with_reducible apply sound_setEnt
    | (fail_if_no_progress (with_reducible refine Sound.upd ?_ rfl rfl rfl rfl rfl))
    | split
    | dsimp only)

theorem sound_sourceWrite {q : Part} {f : BitVec 257} (s : State) (v : Nat) (hs : Sound q f s) : Sound q f (sourceWrite s v).1 := by
  unfold sourceWrite
  try dsimp only
  repeat' (first
    | with_reducible assumption
    | with_reducible apply sound_setEnt
    | with_reducible apply sound_unlock
    | (fail_if_no_progress (with_reducible refine Sound.upd ?_ rfl rfl rfl rfl rfl))
    | split
    | dsimp only)

theorem sound_ptpFacetWrite {q : Part} {f : BitVec 257} (s : State) (v : Nat) (hs : Sound q f s) : Sound q f (ptpFacetWrite s v).1 := by
  unfold ptpFacetWrite
  try dsimp only
  repeat' (first
    | with_reducible assumption
    | with_reducible apply sound_setEnt
    | (fail_if_no_progress (with_reducible refine Sound.upd ?_ rfl rfl rfl rfl rfl))
    | split
    | dsimp only)

theorem sound_bethrWrite {q : Part} {f : BitVec 257} (s : State) (q' : Nat) (v : Nat) (hs : Sound q f s) : Sound q f (bethrWrite s q' v) := by
  unfold bethrWrite
  try dsimp only
  repeat' (first
    | with_reducible assumption
    | with_reducible apply sound_modQuad
    | with_reducible apply sound_setEnt
    | (fail_if_no_progress (with_reducible refine Sound.upd ?_ rfl rfl rfl rfl rfl))
    | split
    | dsimp only)

theorem sound_rwsWrite {q : Part} {f : BitVec 257} (s : State) (load : Bool) (idx : Nat) (sub : Nat) (v : Nat) (hs : Sound q f s) : Sound q f (rwsWrite s load idx sub v).1 := by
  unfold rwsWrite
  try dsimp only
  repeat' (first
    | with_reducible assumption
    | with_reducible apply sound_loadPace
    | with_reducible apply sound_paceWrite
    | with_reducible apply sound_budgetWrite
    | with_reducible apply sound_sourceWrite
    | with_reducible apply sound_ptpFacetWrite
    | with_reducible apply sound_facetCfgWrite
    | with_reducible apply sound_fosterWrite
    | with_reducible apply sound_bethrWrite
    | with_reducible apply sound_chanEntWrite
    | with_reducible apply sound_routeWrite
    | with_reducible apply sound_gateWrite
    | with_reducible apply sound_setEnt
    | (fail_if_no_progress (with_reducible refine Sound.upd ?_ rfl rfl rfl rfl rfl))
    | split
    | dsimp only)

end Sys2Proof.Machine
end

