-- ==== Sys2Proof/Laws/SoundStartup.lean ====
section
/-! SUPPORT. The definitions of Machine/Startup.lean keep what every step keeps. -/

set_option linter.unusedTactic false
set_option linter.unreachableTactic false
set_option linter.unusedVariables false

namespace Sys2Proof.Machine

theorem sound_writeGasp {q : Part} {f : BitVec 257} (s : State) (reason : Nat) (hs : Sound q f s) : Sound q f (writeGasp s reason) := by
  unfold writeGasp
  try dsimp only
  repeat' (first
    | with_reducible assumption
    | with_reducible apply sound_setBkup
    | (with_reducible apply Sound.foldl_fst <;> intros)
    | (with_reducible apply Sound.foldl <;> intros)
    | (fail_if_no_progress (with_reducible refine Sound.upd ?_ rfl rfl rfl rfl rfl))
    | split
    | dsimp only)

theorem sound_execPfailAssertion {q : Part} {f : BitVec 257} (s : State) (hs : Sound q f s) : SoundOut q f (execPfailAssertion s) := by
  unfold execPfailAssertion
  try dsimp only
  repeat' (first
    | with_reducible assumption
    | with_reducible apply soundOut_next
    | with_reducible apply sound_endAllLoans
    | with_reducible apply sound_raise
    | with_reducible apply sound_writeGasp
    | (fail_if_no_progress (with_reducible refine Sound.upd ?_ rfl rfl rfl rfl rfl))
    | split
    | dsimp only)

theorem sound_unsetKeys {q : Part} {f : BitVec 257} (s : State) (hs : Sound q f s) : Sound q f (unsetKeys s) := by
  unfold unsetKeys
  try dsimp only
  repeat' (first
    | with_reducible assumption
    | (fail_if_no_progress (with_reducible refine Sound.upd ?_ rfl rfl rfl rfl rfl))
    | split
    | dsimp only)

theorem sound_takeNode {q : Part} {f : BitVec 257} (s : State) (hs : Sound q f s) : Sound q f (takeNode s) := by
  unfold takeNode
  try dsimp only
  repeat' (first
    | with_reducible assumption
    | (fail_if_no_progress (with_reducible refine Sound.upd ?_ rfl rfl rfl rfl rfl))
    | split
    | dsimp only)

theorem sound_resetDevice {q : Part} {f : BitVec 257} (s : State) (kind : Nat) (hs : Sound q f s) : Sound q f (resetDevice s kind) := by
  have hc : Sound q f (if kind = 0 then s else s.clusters.foldl (fun t e => flushCluster t e.1) (endAllLoans s)) := by
    split
    · exact hs
    · apply Sound.foldl
      · exact sound_endAllLoans _ hs
      · intro t x h
        exact sound_flushCluster _ _ h
  unfold resetDevice
  dsimp only
  have htb : (if kind = 0 then 0 else (if kind = 0 then s else s.clusters.foldl (fun t e => flushCluster t e.1) (endAllLoans s)).tb) < 2 ^ 64 := by
    by_cases hk : kind = 0
    · rw [if_pos hk]
      norm_num
    · rw [if_neg hk]
      exact hc.tb
  have ht : ∀ t : State, t.part = _ → t.power.fuses = _ → t.power.loaded = _ → t.mem = _ → t.tb = _ → Sound q f t :=
    fun t h1 h2 h3 h4 h5 => ⟨h1.trans hc.part, h2.symm ▸ hc.grown, by rw [h2, h3]; exact hc.loaded, h4.symm ▸ hc.mem, h5.symm ▸ htb⟩
  split
  · exact sound_takeNode _ (sound_unsetKeys _ (ht _ rfl rfl rfl rfl rfl))
  · exact sound_unsetKeys _ (ht _ rfl rfl rfl rfl rfl)

theorem sound_execPowerOnReset {q : Part} {f : BitVec 257} (r : Rail) (s : State) (hs : Sound q f s) : SoundOut q f (execPowerOnReset r s) := by
  unfold execPowerOnReset
  try dsimp only
  repeat' (first
    | with_reducible assumption
    | with_reducible apply soundOut_next
    | with_reducible apply sound_resetDevice
    | (fail_if_no_progress (with_reducible refine Sound.upd ?_ rfl rfl rfl rfl rfl))
    | split
    | dsimp only)

theorem sound_execPowerGood {q : Part} {f : BitVec 257} (s : State) (hs : Sound q f s) : SoundOut q f (execPowerGood s) := by
  unfold execPowerGood
  try dsimp only
  repeat' (first
    | with_reducible assumption
    | with_reducible apply soundOut_next
    | (fail_if_no_progress (with_reducible refine Sound.upd ?_ rfl rfl rfl rfl rfl))
    | split
    | dsimp only)

theorem sound_execPinReset {q : Part} {f : BitVec 257} (s : State) (hs : Sound q f s) : SoundOut q f (execPinReset s) := by
  unfold execPinReset
  try dsimp only
  repeat' (first
    | with_reducible assumption
    | with_reducible apply soundOut_next
    | with_reducible apply sound_resetDevice
    | (fail_if_no_progress (with_reducible refine Sound.upd ?_ rfl rfl rfl rfl rfl))
    | split
    | dsimp only)

theorem sound_execWarmReset {q : Part} {f : BitVec 257} (v : Nat) (s : State) (hs : Sound q f s) : SoundOut q f (execWarmReset v s) := by
  unfold execWarmReset
  try dsimp only
  repeat' (first
    | with_reducible assumption
    | with_reducible apply soundOut_next
    | with_reducible apply sound_answered
    | with_reducible apply sound_resetDevice
    | (fail_if_no_progress (with_reducible refine Sound.upd ?_ rfl rfl rfl rfl rfl))
    | split
    | (with_reducible apply Sound.of_fst; assumption)
    | dsimp only)

theorem sound_coreResetWrite {q : Part} {f : BitVec 257} (s : State) (n : Nat) (hs : Sound q f s) : Sound q f (coreResetWrite s n).1 := by
  unfold coreResetWrite
  try dsimp only
  repeat' (first
    | with_reducible assumption
    | with_reducible apply sound_modCore
    | with_reducible apply sound_repost
    | with_reducible apply sound_reRelease
    | with_reducible apply sound_coreResetOp
    | (fail_if_no_progress (with_reducible refine Sound.upd ?_ rfl rfl rfl rfl rfl))
    | split
    | dsimp only)

theorem sound_execCoreReset {q : Part} {f : BitVec 257} (v : Nat) (s : State) (hs : Sound q f s) : SoundOut q f (execCoreReset v s) := by
  unfold execCoreReset
  try dsimp only
  repeat' (first
    | with_reducible assumption
    | with_reducible apply soundOut_next
    | with_reducible apply sound_answered
    | with_reducible apply sound_coreResetWrite
    | (fail_if_no_progress (with_reducible refine Sound.upd ?_ rfl rfl rfl rfl rfl))
    | split
    | dsimp only)

theorem sound_applyStored {q : Part} {f : BitVec 257} (s : State) (key : Nat) (v : Nat) (hs : Sound q f s) : Sound q f (applyStored s key v) := by
  unfold applyStored
  try dsimp only
  repeat' (first
    | with_reducible assumption
    | with_reducible apply sound_rwsWrite
    | with_reducible apply sound_logErr
    | (fail_if_no_progress (with_reducible refine Sound.upd ?_ rfl rfl rfl rfl rfl))
    | split
    | (with_reducible apply Sound.of_fst; assumption)
    | dsimp only)

theorem sound_applyCluster {q : Part} {f : BitVec 257} (s : State) (c : Nat) (hs : Sound q f s) : Sound q f (applyCluster s c) := by
  unfold applyCluster
  try dsimp only
  repeat' (first
    | with_reducible assumption
    | with_reducible apply sound_applyStored
    | (with_reducible apply Sound.foldl_fst <;> intros)
    | (with_reducible apply Sound.foldl <;> intros)
    | (fail_if_no_progress (with_reducible refine Sound.upd ?_ rfl rfl rfl rfl rfl))
    | split
    | dsimp only)

theorem sound_clusterResetAll {q : Part} {f : BitVec 257} (s : State) (c : Nat) (hs : Sound q f s) : Sound q f (clusterResetAll s c) := by
  unfold clusterResetAll
  try dsimp only
  repeat' (first
    | with_reducible assumption
    | with_reducible apply sound_applyCluster
    | with_reducible apply sound_clusterResetOp
    | with_reducible apply sound_modCluster
    | with_reducible apply sound_repost
    | with_reducible apply sound_reloadCluster
    | with_reducible apply sound_wantAllot
    | with_reducible apply sound_modCore
    | (with_reducible apply Sound.foldl_fst <;> intros)
    | (with_reducible apply Sound.foldl <;> intros)
    | (fail_if_no_progress (with_reducible refine Sound.upd ?_ rfl rfl rfl rfl rfl))
    | split
    | dsimp only)

theorem sound_clusterResetWrite {q : Part} {f : BitVec 257} (s : State) (c : Nat) (hs : Sound q f s) : Sound q f (clusterResetWrite s c).1 := by
  unfold clusterResetWrite
  try dsimp only
  repeat' (first
    | with_reducible assumption
    | with_reducible apply sound_clusterResetAll
    | (fail_if_no_progress (with_reducible refine Sound.upd ?_ rfl rfl rfl rfl rfl))
    | split
    | dsimp only)

theorem sound_execClusterReset {q : Part} {f : BitVec 257} (v : Nat) (s : State) (hs : Sound q f s) : SoundOut q f (execClusterReset v s) := by
  unfold execClusterReset
  try dsimp only
  repeat' (first
    | with_reducible assumption
    | with_reducible apply soundOut_next
    | with_reducible apply sound_answered
    | with_reducible apply sound_clusterResetWrite
    | (fail_if_no_progress (with_reducible refine Sound.upd ?_ rfl rfl rfl rfl rfl))
    | split
    | dsimp only)

theorem sound_chooseCopy {q : Part} {f : BitVec 257} (s : State) (hs : Sound q f s) : Sound q f (chooseCopy s) := by
  unfold chooseCopy
  try dsimp only
  repeat' (first
    | with_reducible assumption
    | (fail_if_no_progress (with_reducible refine Sound.upd ?_ rfl rfl rfl rfl rfl))
    | split
    | dsimp only)

theorem sound_execFuseLoad {q : Part} {f : BitVec 257} (v : BitVec 3) (s : State) (hs : Sound q f s) : SoundOut q f (execFuseLoad v s) := by
  unfold execFuseLoad
  split
  · apply soundOut_next
    apply Sound.upd ?_ rfl rfl rfl rfl rfl
    apply sound_see744
    apply sound_takeNode
    apply sound_chooseCopy
    exact ⟨hs.part, hs.grown, BitVec.and_self, hs.mem, hs.tb⟩
  · exact hs

theorem sound_execFlashDieWake {q : Part} {f : BitVec 257} (s : State) (hs : Sound q f s) : SoundOut q f (execFlashDieWake s) := by
  unfold execFlashDieWake
  try dsimp only
  repeat' (first
    | with_reducible assumption
    | with_reducible apply soundOut_next
    | (fail_if_no_progress (with_reducible refine Sound.upd ?_ rfl rfl rfl rfl rfl))
    | split
    | dsimp only)

theorem sound_execMemoryFill {q : Part} {f : BitVec 257} (s : State) (hs : Sound q f s) : SoundOut q f (execMemoryFill s) := by
  unfold execMemoryFill
  split
  · apply soundOut_next
    dsimp only
    apply Sound.foldl
    · exact ⟨hs.part, hs.grown, hs.loaded, Mem.wf_filter _ _ hs.mem, hs.tb⟩
    · intro t w h
      have h1 : Sound q f (if isRetired t w then t else startWarden t w) := by
        split
        · exact h
        · exact sound_startWarden t w h
      split
      · exact sound_loupeHaltCore _ _ _ h1
      · exact h1
  · exact hs

theorem sound_failAtStart {q : Part} {f : BitVec 257} (s : State) (w : Nat) (hs : Sound q f s) : Sound q f (failAtStart s w) := by
  unfold failAtStart
  try dsimp only
  repeat' (first
    | with_reducible assumption
    | with_reducible apply sound_retireWarden
    | (fail_if_no_progress (with_reducible refine Sound.upd ?_ rfl rfl rfl rfl rfl))
    | split
    | dsimp only)

theorem sound_execWardenRom {q : Part} {f : BitVec 257} (a b : Bool) (s : State) (hs : Sound q f s) : SoundOut q f (execWardenRom a b s) := by
  unfold execWardenRom
  extract_lets on ok0 ok1 bad0 keep s1 s2 s3
  have hk : ∀ t w, Sound q f t → Sound q f (keep t w) := by
    intro t w h
    simp only [keep]
    split
    · exact sound_startWarden _ _ h
    · exact h
  have h1 : Sound q f s1 := by
    simp only [s1]
    split
    · exact hk _ _ hs
    · exact hs
  have h2 : Sound q f s2 := by
    simp only [s2]
    split
    · exact hk _ _ h1
    · exact h1
  have h3 : Sound q f s3 := by
    simp only [s3]
    split
    · exact sound_failAtStart _ _ h2
    · exact h2
  have h4 : Sound q f (if on.contains 129 ∧ !ok1 ∧ !isRetired s 129 then raise s3 778 else s3) := by
    split
    · exact sound_raise _ _ h3
    · exact h3
  have h5 : Sound q f (if bad0 ∧ !isRetired s 128 then emergency (raise (failAtStart s3 128) 772) 0x8130 0 [129#8, 5#8] else s3) := by
    split
    · exact sound_emergency _ _ _ _ (sound_raise _ _ (sound_failAtStart _ _ h3))
    · exact h3
  have h7 : Sound q f (if on.contains 129 ∧ !isRetired s 129 then raise s3 778 else s3) := by
    split
    · exact sound_raise _ _ h3
    · exact h3
  have h6 (u : State) (hu : Sound q f u) : Sound q f (if bad0 ∧ !isRetired s 128 then raise (failAtStart u 128) 772 else u) := by
    split
    · exact sound_raise _ _ (sound_failAtStart _ _ hu)
    · exact hu
  split
  · exact hs
  · split
    · exact ⟨h4.part, h4.grown, h4.loaded, h4.mem, h4.tb⟩
    · split
      · exact ⟨h5.part, h5.grown, h5.loaded, h5.mem, h5.tb⟩
      · exact sound_noWarden _ (h6 _ h7)

theorem sound_readSlots {q : Part} {f : BitVec 257} (s : State) (hs : Sound q f s) : Sound q f (readSlots s) := by
  unfold readSlots
  try dsimp only
  repeat' (first
    | with_reducible assumption
    | (fail_if_no_progress (with_reducible refine Sound.upd ?_ rfl rfl rfl rfl rfl))
    | split
    | (with_reducible apply Sound.of_fst; assumption)
    | dsimp only)

theorem sound_setImgSlot {q : Part} {f : BitVec 257} (s : State) (slot : Nat) (x : Slot) (hs : Sound q f s) : Sound q f (setImgSlot s slot x) := by
  unfold setImgSlot
  try dsimp only
  repeat' (first
    | with_reducible assumption
    | (fail_if_no_progress (with_reducible refine Sound.upd ?_ rfl rfl rfl rfl rfl))
    | split
    | dsimp only)

theorem sound_refuseImage {q : Part} {f : BitVec 257} (s : State) (slot : Nat) (reason : Nat) (c : Nat) (hs : Sound q f s) : Sound q f (refuseImage s slot reason c) := by
  unfold refuseImage
  try dsimp only
  repeat' (first
    | with_reducible assumption
    | with_reducible apply sound_emergency
    | (fail_if_no_progress (with_reducible refine Sound.upd ?_ rfl rfl rfl rfl rfl))
    | split
    | dsimp only)

theorem sound_trySlots {q : Part} {f : BitVec 257} (l : List Nat) (s : State) (hs : Sound q f s) : Sound q f (trySlots l s) := by
  induction l generalizing s with
  | nil => exact Sound.upd hs rfl rfl rfl rfl rfl
  | cons i is ih =>
    unfold trySlots
    split
    · exact ih _ (sound_refuseImage _ _ _ _ hs)
    · exact Sound.upd hs rfl rfl rfl rfl rfl

theorem sound_execImageSelect {q : Part} {f : BitVec 257} (s : State) (hs : Sound q f s) : SoundOut q f (execImageSelect s) := by
  unfold execImageSelect
  try dsimp only
  repeat' (first
    | with_reducible assumption
    | with_reducible apply soundOut_next
    | with_reducible apply sound_readSlots
    | with_reducible apply sound_trySlots
    | (fail_if_no_progress (with_reducible refine Sound.upd ?_ rfl rfl rfl rfl rfl))
    | split
    | dsimp only)

theorem sound_applyTableOf {q : Part} {f : BitVec 257} (s : State) (p : Nat) (v : Octets) (hs : Sound q f s) : Sound q f (applyTableOf s p v) := by
  unfold applyTableOf
  try dsimp only
  repeat' (first
    | with_reducible assumption
    | with_reducible apply sound_expoWrite
    | with_reducible apply sound_logErr
    | (fail_if_no_progress (with_reducible refine Sound.upd ?_ rfl rfl rfl rfl rfl))
    | split
    | (with_reducible apply Sound.of_fst; assumption)
    | dsimp only)

theorem sound_loadRings {q : Part} {f : BitVec 257} (s : State) (hs : Sound q f s) : Sound q f (loadRings s) := by
  unfold loadRings
  try dsimp only
  repeat' (first
    | with_reducible assumption
    | with_reducible apply sound_reloadRing
    | (with_reducible apply Sound.foldl_fst <;> intros)
    | (with_reducible apply Sound.foldl <;> intros)
    | (fail_if_no_progress (with_reducible refine Sound.upd ?_ rfl rfl rfl rfl rfl))
    | split
    | (with_reducible apply Sound.of_fst; assumption)
    | dsimp only)

theorem sound_applyAll {q : Part} {f : BitVec 257} (s : State) (hs : Sound q f s) : Sound q f (applyAll s) := by
  unfold applyAll
  try dsimp only
  repeat' (first
    | with_reducible assumption
    | with_reducible apply sound_applyStored
    | with_reducible apply sound_applyTableOf
    | with_reducible apply sound_modCluster
    | with_reducible apply sound_loadRings
    | with_reducible apply sound_recomputeAllot
    | (with_reducible apply Sound.foldl_fst <;> intros)
    | (with_reducible apply Sound.foldl <;> intros)
    | (fail_if_no_progress (with_reducible refine Sound.upd ?_ rfl rfl rfl rfl rfl))
    | split
    | (with_reducible apply Sound.of_fst; assumption)
    | dsimp only)

theorem sound_execLoaderStage {q : Part} {f : BitVec 257} (s : State) (hs : Sound q f s) : SoundOut q f (execLoaderStage s) := by
  have hst : ∀ (t : State) (n : Nat), Sound q f t → Sound q f { t with power := { t.power with stage := n } } :=
    fun t n h => ⟨h.part, h.grown, h.loaded, h.mem, h.tb⟩
  have h1 : Sound q f (if s.power.applied then s else applyAll s) := by
    split
    · exact hs
    · exact sound_applyAll _ hs
  unfold execLoaderStage
  split
  · generalize (if s.power.applied then s else applyAll s) = s1 at h1 ⊢
    dsimp only
    split
    · exact hst _ _ h1
    · split
      · exact hst _ _ (sound_refuseImage _ _ _ _ h1)
      · split
        · exact hst _ _ (sound_refuseImage _ _ _ _ h1)
        · exact hst _ _ (sound_setImgSlot _ _ _ (sound_loadImage _ _ h1))
  · exact hs

theorem sound_execCoreRelease {q : Part} {f : BitVec 257} (s : State) (hs : Sound q f s) : SoundOut q f (execCoreRelease s) := by
  unfold execCoreRelease
  try dsimp only
  repeat' (first
    | with_reducible assumption
    | with_reducible apply soundOut_next
    | with_reducible apply sound_releaseCore
    | with_reducible apply sound_modCore
    | (with_reducible apply Sound.foldl_fst <;> intros)
    | (with_reducible apply Sound.foldl <;> intros)
    | (fail_if_no_progress (with_reducible refine Sound.upd ?_ rfl rfl rfl rfl rfl))
    | split
    | (with_reducible apply Sound.of_fst; assumption)
    | dsimp only)

theorem sound_thermalShutdown {q : Part} {f : BitVec 257} (s : State) (hs : Sound q f s) : Sound q f (thermalShutdown s) := by
  unfold thermalShutdown
  try dsimp only
  repeat' (first
    | with_reducible assumption
    | with_reducible apply sound_writeGasp
    | with_reducible apply sound_linkOff
    | with_reducible apply sound_forceSafe
    | with_reducible apply sound_coreResetOp
    | (with_reducible apply Sound.foldl_fst <;> intros)
    | (with_reducible apply Sound.foldl <;> intros)
    | (fail_if_no_progress (with_reducible refine Sound.upd ?_ rfl rfl rfl rfl rfl))
    | split
    | dsimp only)

theorem sound_execThermalReading {q : Part} {f : BitVec 257} (temps : List Int) (s : State) (hs : Sound q f s) : SoundOut q f (execThermalReading temps s) := by
  unfold execThermalReading
  try dsimp only
  repeat' (first
    | with_reducible assumption
    | with_reducible apply soundOut_next
    | with_reducible apply sound_thermalQuad
    | with_reducible apply sound_thermalShutdown
    | (with_reducible apply Sound.foldl_fst <;> intros)
    | (with_reducible apply Sound.foldl <;> intros)
    | (fail_if_no_progress (with_reducible refine Sound.upd ?_ rfl rfl rfl rfl rfl))
    | split
    | dsimp only)

end Sys2Proof.Machine
end

