-- ==== Sys2Proof/Laws/SoundCommit.lean ====
section
/-! SUPPORT. The definitions of Machine/Commit.lean keep what every step keeps. -/

set_option linter.unusedTactic false
set_option linter.unreachableTactic false
set_option linter.unusedVariables false

namespace Sys2Proof.Machine

theorem sound_eraseFlash {q : Part} {f : BitVec 257} (s : State) (a n : Nat) (hs : Sound q f s) : Sound q f (eraseFlash s a n) :=
  hs.mem_upd rfl rfl (Mem.wf_filter _ _ hs.mem) rfl

theorem sound_commitWrite {q : Part} {f : BitVec 257} (s : State) (sid : Nat) (v : Nat) (hs : Sound q f s) : Sound q f (commitWrite s sid v).1 := by
  unfold commitWrite
  try dsimp only
  repeat' (first
    | with_reducible assumption
    | with_reducible apply sound_eraseFlash
    | with_reducible apply sound_setImgSlot
    | (fail_if_no_progress (with_reducible refine Sound.upd ?_ rfl rfl rfl rfl rfl))
    | split
    | dsimp only)

theorem sound_execImageCommit {q : Part} {f : BitVec 257} (sid : Nat) (v : Nat) (s : State) (hs : Sound q f s) : SoundOut q f (execImageCommit sid v s) := by
  unfold execImageCommit
  try dsimp only
  repeat' (first
    | with_reducible assumption
    | with_reducible apply soundOut_next
    | with_reducible apply sound_answered
    | with_reducible apply sound_commitWrite
    | (fail_if_no_progress (with_reducible refine Sound.upd ?_ rfl rfl rfl rfl rfl))
    | split
    | dsimp only)

theorem sound_execCommitEraseEnd {q : Part} {f : BitVec 257} (s : State) (hs : Sound q f s) : SoundOut q f (execCommitEraseEnd s) := by
  unfold execCommitEraseEnd
  try dsimp only
  repeat' (first
    | with_reducible assumption
    | with_reducible apply soundOut_next
    | with_reducible apply sound_eraseFlash
    | (fail_if_no_progress (with_reducible refine Sound.upd ?_ rfl rfl rfl rfl rfl))
    | split
    | dsimp only)

theorem sound_interruptCommit {q : Part} {f : BitVec 257} (s : State) (hs : Sound q f s) : Sound q f (interruptCommit s) := by
  unfold interruptCommit
  try dsimp only
  repeat' (first
    | with_reducible assumption
    | with_reducible apply sound_setImgSlot
    | (fail_if_no_progress (with_reducible refine Sound.upd ?_ rfl rfl rfl rfl rfl))
    | split
    | dsimp only)

theorem sound_commitSegment {q : Part} {f : BitVec 257} (s : State) (sid : Nat) (first : Bool) (last : Bool) (off : Nat) (v : Octets) (hs : Sound q f s) : Sound q f (commitSegment s sid first last off v).1 := by
  unfold commitSegment
  try dsimp only
  repeat' (first
    | with_reducible assumption
    | with_reducible apply sound_interruptCommit
    | with_reducible apply sound_loadBytes
    | (fail_if_no_progress (with_reducible refine Sound.upd ?_ rfl rfl rfl rfl rfl))
    | split
    | dsimp only)

theorem sound_execCommitVerify {q : Part} {f : BitVec 257} (s : State) (hs : Sound q f s) : SoundOut q f (execCommitVerify s) := by
  unfold execCommitVerify
  try dsimp only
  repeat' (first
    | with_reducible assumption
    | with_reducible apply soundOut_next
    | with_reducible apply sound_loadBytes
    | (fail_if_no_progress (with_reducible refine Sound.upd ?_ rfl rfl rfl rfl rfl))
    | split
    | dsimp only)

theorem sound_execCommitDone {q : Part} {f : BitVec 257} (s : State) (hs : Sound q f s) : SoundOut q f (execCommitDone s) := by
  unfold execCommitDone
  try dsimp only
  repeat' (first
    | with_reducible assumption
    | with_reducible apply soundOut_next
    | with_reducible apply sound_setImgSlot
    | (fail_if_no_progress (with_reducible refine Sound.upd ?_ rfl rfl rfl rfl rfl))
    | split
    | dsimp only)

theorem sound_execCommitInterruption {q : Part} {f : BitVec 257} (s : State) (hs : Sound q f s) : SoundOut q f (execCommitInterruption s) := by
  unfold execCommitInterruption
  try dsimp only
  repeat' (first
    | with_reducible assumption
    | with_reducible apply soundOut_next
    | with_reducible apply sound_interruptCommit
    | (fail_if_no_progress (with_reducible refine Sound.upd ?_ rfl rfl rfl rfl rfl))
    | split
    | dsimp only)

end Sys2Proof.Machine
end

