-- ==== Sys2Proof/Laws/SoundDict.lean ====
section
/-! SUPPORT. The definitions of Machine/Dict.lean keep what every step keeps. -/

set_option linter.unusedTactic false
set_option linter.unreachableTactic false
set_option linter.unusedVariables false

namespace Sys2Proof.Machine

theorem sound_dictRead {q : Part} {f : BitVec 257} (s : State) (idx : Nat) (sub : Nat) (ty : Nat) (hs : Sound q f s) : Sound q f (dictRead s idx sub ty).1 := by
  unfold dictRead
  try dsimp only
  repeat' (first
    | with_reducible assumption
    | with_reducible apply sound_windowRead
    | (fail_if_no_progress (with_reducible refine Sound.upd ?_ rfl rfl rfl rfl rfl))
    | split
    | dsimp only)

theorem sound_counterWrite {q : Part} {f : BitVec 257} (s : State) (idx : Nat) (sub : Nat) (v : Nat) (hs : Sound q f s) : Sound q f (counterWrite s idx sub v).1 := by
  unfold counterWrite
  try dsimp only
  repeat' (first
    | with_reducible assumption
    | with_reducible apply sound_historyClear
    | with_reducible apply sound_modCore
    | with_reducible apply sound_modCluster
    | with_reducible apply sound_modQuad
    | with_reducible apply sound_setEnt
    | (fail_if_no_progress (with_reducible refine Sound.upd ?_ rfl rfl rfl rfl rfl))
    | split
    | dsimp only)

theorem sound_testWrite {q : Part} {f : BitVec 257} (s : State) (idx : Nat) (sub : Nat) (v : Nat) (hs : Sound q f s) : Sound q f (testWrite s idx sub v).1 := by
  unfold testWrite
  try dsimp only
  repeat' (first
    | with_reducible assumption
    | with_reducible apply sound_setEnt
    | with_reducible apply sound_prbsStart
    | with_reducible apply sound_coreRequalStart
    | with_reducible apply sound_chanRequalStart
    | (fail_if_no_progress (with_reducible refine Sound.upd ?_ rfl rfl rfl rfl rfl))
    | split
    | (with_reducible apply Sound.of_fst; assumption)
    | dsimp only)

theorem sound_backupWrite {q : Part} {f : BitVec 257} (s : State) (v : Octets) (hs : Sound q f s) : Sound q f (backupWrite s v).1 := by
  unfold backupWrite
  try dsimp only
  repeat' (first
    | with_reducible assumption
    | with_reducible apply sound_setBkup
    | (with_reducible apply Sound.foldl_fst <;> intros)
    | (with_reducible apply Sound.foldl <;> intros)
    | (fail_if_no_progress (with_reducible refine Sound.upd ?_ rfl rfl rfl rfl rfl))
    | split
    | dsimp only)

theorem sound_leapWrite {q : Part} {f : BitVec 257} (s : State) (v : Nat) (hs : Sound q f s) : Sound q f (leapWrite s v).1 := by
  unfold leapWrite
  try dsimp only
  repeat' (first
    | with_reducible assumption
    | (fail_if_no_progress (with_reducible refine Sound.upd ?_ rfl rfl rfl rfl rfl))
    | split
    | dsimp only)

theorem sound_warmAsk {q : Part} {f : BitVec 257} (s : State) (v : Nat) (hs : Sound q f s) : Sound q f (warmAsk s v).1 := by
  unfold warmAsk
  try dsimp only
  repeat' (first
    | with_reducible assumption
    | (fail_if_no_progress (with_reducible refine Sound.upd ?_ rfl rfl rfl rfl rfl))
    | split
    | (with_reducible apply Sound.of_fst; assumption)
    | dsimp only)

theorem sound_numWrite {q : Part} {f : BitVec 257} (s : State) (sid : Nat) (idx : Nat) (sub : Nat) (v : Nat) (e : EntInfo) (hs : Sound q f s) : Sound q f (numWrite s sid idx sub v e).1 := by
  unfold numWrite
  try dsimp only
  repeat' (first
    | with_reducible assumption
    | with_reducible apply sound_rwsWrite
    | with_reducible apply sound_retireWrite
    | with_reducible apply sound_chanValWrite
    | with_reducible apply sound_testWrite
    | with_reducible apply sound_warmAsk
    | with_reducible apply sound_clusterResetWrite
    | with_reducible apply sound_coreResetWrite
    | with_reducible apply sound_disableWrite
    | with_reducible apply sound_killWrite
    | with_reducible apply sound_quiesceWrite
    | with_reducible apply sound_releaseWrite
    | with_reducible apply sound_calWrite
    | with_reducible apply sound_leapWrite
    | with_reducible apply sound_commitWrite
    | with_reducible apply sound_windowStore
    | with_reducible apply sound_selectorWrite
    | with_reducible apply sound_counterWrite
    | (fail_if_no_progress (with_reducible refine Sound.upd ?_ rfl rfl rfl rfl rfl))
    | split
    | (with_reducible apply Sound.of_fst; assumption)
    | dsimp only)

theorem sound_dictWrite {q : Part} {f : BitVec 257} (s : State) (sid : Nat) (idx : Nat) (sub : Nat) (v : Octets) (e : EntInfo) (hs : Sound q f s) : Sound q f (dictWrite s sid idx sub v e).1 := by
  unfold dictWrite
  try dsimp only
  repeat' (first
    | with_reducible assumption
    | with_reducible apply sound_numWrite
    | with_reducible apply sound_expoWrite
    | with_reducible apply sound_linkKeyWrite
    | with_reducible apply sound_sessionKeyWrite
    | with_reducible apply sound_mgmtKeyWrite
    | with_reducible apply sound_backupWrite
    | with_reducible apply sound_commitSegment
    | (fail_if_no_progress (with_reducible refine Sound.upd ?_ rfl rfl rfl rfl rfl))
    | split
    | (with_reducible apply Sound.of_fst; assumption)
    | dsimp only)

theorem sound_entryWrite {q : Part} {f : BitVec 257} (s : State) (idx : Nat) (sub : Nat) (v : Octets) (hs : Sound q f s) : Sound q f (entryWrite s idx sub v).1 := by
  unfold entryWrite
  try dsimp only
  repeat' (first
    | with_reducible assumption
    | with_reducible apply sound_dictWrite
    | (fail_if_no_progress (with_reducible refine Sound.upd ?_ rfl rfl rfl rfl rfl))
    | split
    | (with_reducible apply Sound.of_fst; assumption)
    | dsimp only)

end Sys2Proof.Machine
end

