-- ==== Sys2Proof/Laws/SoundLoupe.lean ====
section
/-! SUPPORT. The definitions of Machine/Loupe.lean keep what every step keeps. -/

set_option linter.unusedTactic false
set_option linter.unreachableTactic false
set_option linter.unusedVariables false

namespace Sys2Proof.Machine

theorem sound_haltRequest {q : Part} {f : BitVec 257} (s : State) (n : Nat) (hs : Sound q f s) : Sound q f (haltRequest s n) := by
  unfold haltRequest
  try dsimp only
  repeat' (first
    | with_reducible assumption
    | with_reducible apply sound_modCore
    | (fail_if_no_progress (with_reducible refine Sound.upd ?_ rfl rfl rfl rfl rfl))
    | split
    | dsimp only)

theorem sound_execLoupeHaltRequest {q : Part} {f : BitVec 257} (n : Nat) (s : State) (hs : Sound q f s) : SoundOut q f (execLoupeHaltRequest n s) := by
  unfold execLoupeHaltRequest
  try dsimp only
  repeat' (first
    | with_reducible assumption
    | with_reducible apply soundOut_next
    | with_reducible apply sound_haltRequest
    | (fail_if_no_progress (with_reducible refine Sound.upd ?_ rfl rfl rfl rfl rfl))
    | split
    | dsimp only)

theorem sound_execLoupeHalt {q : Part} {f : BitVec 257} (n : Nat) (s : State) (hs : Sound q f s) : SoundOut q f (execLoupeHalt n s) := by
  unfold execLoupeHalt
  try dsimp only
  repeat' (first
    | with_reducible assumption
    | with_reducible apply soundOut_next
    | with_reducible apply sound_loupeHaltCore
    | (fail_if_no_progress (with_reducible refine Sound.upd ?_ rfl rfl rfl rfl rfl))
    | split
    | dsimp only)

theorem sound_execBreakpointHalt {q : Part} {f : BitVec 257} (n : Nat) (s : State) (hs : Sound q f s) : SoundOut q f (execBreakpointHalt n s) := by
  unfold execBreakpointHalt
  try dsimp only
  repeat' (first
    | with_reducible assumption
    | with_reducible apply soundOut_next
    | with_reducible apply sound_loupeHaltCore
    | (fail_if_no_progress (with_reducible refine Sound.upd ?_ rfl rfl rfl rfl rfl))
    | split
    | dsimp only)

theorem sound_loupeResume {q : Part} {f : BitVec 257} (s : State) (n : Nat) (hs : Sound q f s) : Sound q f (loupeResume s n) := by
  unfold loupeResume
  try dsimp only
  repeat' (first
    | with_reducible assumption
    | with_reducible apply sound_modCore
    | with_reducible apply sound_loupeResumeCore
    | (fail_if_no_progress (with_reducible refine Sound.upd ?_ rfl rfl rfl rfl rfl))
    | split
    | dsimp only)

theorem sound_execLoupeResume {q : Part} {f : BitVec 257} (n : Nat) (s : State) (hs : Sound q f s) : SoundOut q f (execLoupeResume n s) := by
  unfold execLoupeResume
  try dsimp only
  repeat' (first
    | with_reducible assumption
    | with_reducible apply soundOut_next
    | with_reducible apply sound_loupeResume
    | (fail_if_no_progress (with_reducible refine Sound.upd ?_ rfl rfl rfl rfl rfl))
    | split
    | dsimp only)

theorem sound_loupeStep {q : Part} {f : BitVec 257} (s : State) (n : Nat) (hs : Sound q f s) : Sound q f (loupeStep s n) := by
  unfold loupeStep
  try dsimp only
  repeat' (first
    | with_reducible assumption
    | with_reducible apply sound_modCore
    | with_reducible apply sound_loupeResumeCore
    | (fail_if_no_progress (with_reducible refine Sound.upd ?_ rfl rfl rfl rfl rfl))
    | split
    | dsimp only)

theorem sound_execLoupeStep {q : Part} {f : BitVec 257} (n : Nat) (s : State) (hs : Sound q f s) : SoundOut q f (execLoupeStep n s) := by
  unfold execLoupeStep
  try dsimp only
  repeat' (first
    | with_reducible assumption
    | with_reducible apply soundOut_next
    | with_reducible apply sound_loupeStep
    | (fail_if_no_progress (with_reducible refine Sound.upd ?_ rfl rfl rfl rfl rfl))
    | split
    | dsimp only)

theorem sound_setBare {q : Part} {f : BitVec 257} (s : State) (n : Nat) (hs : Sound q f s) : Sound q f (setBare s n) := by
  unfold setBare
  try dsimp only
  repeat' (first
    | with_reducible assumption
    | with_reducible apply sound_modCore
    | (fail_if_no_progress (with_reducible refine Sound.upd ?_ rfl rfl rfl rfl rfl))
    | split
    | dsimp only)

theorem sound_execSetbare {q : Part} {f : BitVec 257} (n : Nat) (s : State) (hs : Sound q f s) : SoundOut q f (execSetbare n s) := by
  unfold execSetbare
  try dsimp only
  repeat' (first
    | with_reducible assumption
    | with_reducible apply soundOut_next
    | with_reducible apply sound_setBare
    | (fail_if_no_progress (with_reducible refine Sound.upd ?_ rfl rfl rfl rfl rfl))
    | split
    | dsimp only)

theorem sound_lctlWrite {q : Part} {f : BitVec 257} (s : State) (n : Nat) (v : Word) (hs : Sound q f s) : Sound q f (lctlWrite s n v) := by
  unfold lctlWrite
  try dsimp only
  repeat' (first
    | with_reducible assumption
    | with_reducible apply sound_modCore
    | with_reducible apply sound_setBare
    | with_reducible apply sound_loupeResume
    | with_reducible apply sound_loupeStep
    | with_reducible apply sound_haltRequest
    | (fail_if_no_progress (with_reducible refine Sound.upd ?_ rfl rfl rfl rfl rfl))
    | split
    | dsimp only)

theorem sound_setSkerr {q : Part} {f : BitVec 257} (s : State) (n : Nat) (hs : Sound q f s) : Sound q f (setSkerr s n) := by
  unfold setSkerr
  try dsimp only
  repeat' (first
    | with_reducible assumption
    | with_reducible apply sound_modCore
    | (fail_if_no_progress (with_reducible refine Sound.upd ?_ rfl rfl rfl rfl rfl))
    | split
    | dsimp only)

theorem sound_lpcWrite {q : Part} {f : BitVec 257} (s : State) (n : Nat) (v : Word) (hs : Sound q f s) : Sound q f (lpcWrite s n v) := by
  unfold lpcWrite
  try dsimp only
  repeat' (first
    | with_reducible assumption
    | with_reducible apply sound_modCore
    | with_reducible apply sound_setSkerr
    | (fail_if_no_progress (with_reducible refine Sound.upd ?_ rfl rfl rfl rfl rfl))
    | split
    | dsimp only)

theorem sound_execLpcWrite {q : Part} {f : BitVec 257} (n : Nat) (v : Word) (s : State) (hs : Sound q f s) : SoundOut q f (execLpcWrite n v s) := by
  unfold execLpcWrite
  try dsimp only
  repeat' (first
    | with_reducible assumption
    | with_reducible apply soundOut_next
    | with_reducible apply sound_lpcWrite
    | (fail_if_no_progress (with_reducible refine Sound.upd ?_ rfl rfl rfl rfl rfl))
    | split
    | dsimp only)

theorem sound_lskRead {q : Part} {f : BitVec 257} (s : State) (n : Nat) {t : State} {v : Word} (hs : Sound q f s) (e : lskRead s n = some (t, v)) : Sound q f t := by
  unfold lskRead at e
  dsimp only at e
  repeat' split at e
  all_goals first
    | (cases e; done)
    | (injection e with e; injection e with e1 e2; subst e1; first | exact hs | exact sound_setCore _ _ _ hs | exact sound_setSkerr _ _ hs)

theorem sound_lskWrite {q : Part} {f : BitVec 257} (s : State) (n : Nat) (v : Word) (hs : Sound q f s) : Sound q f (lskWrite s n v) := by
  unfold lskWrite
  try dsimp only
  repeat' (first
    | with_reducible assumption
    | with_reducible apply sound_setSkerr
    | with_reducible apply sound_modCore
    | (fail_if_no_progress (with_reducible refine Sound.upd ?_ rfl rfl rfl rfl rfl))
    | split
    | dsimp only)

theorem sound_execLskvalAccess {q : Part} {f : BitVec 257} (n : Nat) (wr : Option Word) (s : State) (hs : Sound q f s) : SoundOut q f (execLskvalAccess n wr s) := by
  unfold execLskvalAccess
  try dsimp only
  repeat' (first
    | with_reducible assumption
    | with_reducible apply soundOut_next
    | with_reducible apply sound_lskWrite
    | (with_reducible apply sound_lskRead; rotate_left 1; assumption)
    | (fail_if_no_progress (with_reducible refine Sound.upd ?_ rfl rfl rfl rfl rfl))
    | split
    | (with_reducible apply Sound.of_fst; assumption)
    | dsimp only)

theorem sound_trctlWrite {q : Part} {f : BitVec 257} (s : State) (c : Nat) (v : Word) (hs : Sound q f s) : Sound q f (trctlWrite s c v) := by
  unfold trctlWrite
  try dsimp only
  repeat' (first
    | with_reducible assumption
    | with_reducible apply sound_modCluster
    | (fail_if_no_progress (with_reducible refine Sound.upd ?_ rfl rfl rfl rfl rfl))
    | split
    | dsimp only)

theorem sound_execTrctlWrite {q : Part} {f : BitVec 257} (c : Nat) (v : Word) (s : State) (hs : Sound q f s) : SoundOut q f (execTrctlWrite c v s) := by
  unfold execTrctlWrite
  try dsimp only
  repeat' (first
    | with_reducible assumption
    | with_reducible apply soundOut_next
    | with_reducible apply sound_trctlWrite
    | (fail_if_no_progress (with_reducible refine Sound.upd ?_ rfl rfl rfl rfl rfl))
    | split
    | dsimp only)

theorem sound_ftctlWrite {q : Part} {f : BitVec 257} (s : State) (p : Nat) (v : Word) (hs : Sound q f s) : Sound q f (ftctlWrite s p v).1 := by
  unfold ftctlWrite
  try dsimp only
  repeat' (first
    | with_reducible assumption
    | with_reducible apply sound_modFacet
    | (fail_if_no_progress (with_reducible refine Sound.upd ?_ rfl rfl rfl rfl rfl))
    | split
    | dsimp only)

theorem sound_execFtctlWrite {q : Part} {f : BitVec 257} (p : Nat) (v : Word) (s : State) (hs : Sound q f s) : SoundOut q f (execFtctlWrite p v s) := by
  unfold execFtctlWrite
  try dsimp only
  repeat' (first
    | with_reducible assumption
    | with_reducible apply soundOut_next
    | with_reducible apply sound_ftctlWrite
    | (fail_if_no_progress (with_reducible refine Sound.upd ?_ rfl rfl rfl rfl rfl))
    | split
    | dsimp only)

theorem sound_execBitInjection {q : Part} {f : BitVec 257} (p : Nat) (s : State) (hs : Sound q f s) : SoundOut q f (execBitInjection p s) := by
  unfold execBitInjection
  try dsimp only
  repeat' (first
    | with_reducible assumption
    | with_reducible apply soundOut_next
    | with_reducible apply sound_modFacet
    | (fail_if_no_progress (with_reducible refine Sound.upd ?_ rfl rfl rfl rfl rfl))
    | split
    | dsimp only)

theorem sound_fterrWrite {q : Part} {f : BitVec 257} (s : State) (p : Nat) (v : Word) (hs : Sound q f s) : Sound q f (fterrWrite s p v).1 := by
  unfold fterrWrite
  try dsimp only
  repeat' (first
    | with_reducible assumption
    | with_reducible apply sound_modFacet
    | (fail_if_no_progress (with_reducible refine Sound.upd ?_ rfl rfl rfl rfl rfl))
    | split
    | dsimp only)

end Sys2Proof.Machine
end

