-- ==== Sys2Proof/Laws/SoundDevice.lean ====
section
/-! SUPPORT. The definitions of Machine/Device.lean keep what every step keeps. -/

set_option linter.unusedTactic false
set_option linter.unreachableTactic false
set_option linter.unusedVariables false

namespace Sys2Proof.Machine

theorem sound_coreRead {q : Part} {f : BitVec 257} (s : State) (n o : Nat) (lp : Bool) {t : State} {v : Word} (hs : Sound q f s)
    (e : coreRead s n o lp = some (t, v)) : Sound q f t := by
  unfold coreRead at e
  dsimp only at e
  repeat' split at e
  all_goals first
    | (cases e; done)
    | exact sound_skvalRead _ _ hs e
    | exact sound_lskRead _ _ hs e
    | (injection e with e; rw [Prod.ext_iff] at e; obtain ⟨e1, -⟩ := e; dsimp only at e1; subst e1; exact sound_rtxdoneRead _ _ hs)
    | (injection e with e; injection e with e1 e2; subst e1
       repeat' (first | with_reducible assumption | with_reducible apply sound_modCore | with_reducible apply sound_setCore | exact sound_skvalRead _ _ hs (by assumption) | split))
    | (rw [Option.map_eq_some_iff] at e; obtain ⟨w, -, e⟩ := e; injection e with e1 e2; subst e1; exact hs)

theorem sound_coreWrite {q : Part} {f : BitVec 257} (s : State) (n : Nat) (off : Nat) (v : Word) (loupe : Bool) (hs : Sound q f s) : Sound q f (coreWrite s n off v loupe) := by
  unfold coreWrite
  try dsimp only
  repeat' (first
    | with_reducible assumption
    | with_reducible apply sound_modCore
    | with_reducible apply sound_evraise
    | with_reducible apply sound_watchdogWrite
    | with_reducible apply sound_skvalWrite
    | with_reducible apply sound_rqcfgWrite
    | with_reducible apply sound_rtxpostWrite
    | with_reducible apply sound_lctlWrite
    | with_reducible apply sound_lpcWrite
    | with_reducible apply sound_lskWrite
    | (fail_if_no_progress (with_reducible refine Sound.upd ?_ rfl rfl rfl rfl rfl))
    | split
    | (with_reducible apply Sound.of_fst; assumption)
    | dsimp only)

theorem sound_clusterWrite {q : Part} {f : BitVec 257} (s : State) (m : Master) (c : Nat) (off : Nat) (v : Word) (hs : Sound q f s) : Sound q f (clusterWrite s m c off v) := by
  unfold clusterWrite
  try dsimp only
  repeat' (first
    | with_reducible assumption
    | with_reducible apply sound_bankownWrite
    | with_reducible apply sound_bankcfgWrite
    | with_reducible apply sound_modBank
    | with_reducible apply sound_modCluster
    | with_reducible apply sound_trctlWrite
    | (fail_if_no_progress (with_reducible refine Sound.upd ?_ rfl rfl rfl rfl rfl))
    | split
    | (with_reducible apply Sound.of_fst; assumption)
    | dsimp only)

theorem sound_facetRead {q : Part} {f : BitVec 257} (s : State) (p : Nat) (off : Nat) (loupe : Bool) (hs : Sound q f s) : Sound q f (facetRead s p off loupe).1 := by
  unfold facetRead
  try dsimp only
  repeat' (first
    | with_reducible assumption
    | with_reducible apply sound_txdoneRead
    | with_reducible apply sound_txts2Read
    | (fail_if_no_progress (with_reducible refine Sound.upd ?_ rfl rfl rfl rfl rfl))
    | split
    | (with_reducible apply Sound.of_fst; assumption)
    | dsimp only)

theorem sound_facetWrite {q : Part} {f : BitVec 257} (s : State) (m : Master) (p : Nat) (off : Nat) (v : Word) (hs : Sound q f s) : Sound q f (facetWrite s m p off v).1 := by
  unfold facetWrite
  try dsimp only
  repeat' (first
    | with_reducible assumption
    | with_reducible apply sound_modFacet
    | with_reducible apply sound_txpostWrite
    | with_reducible apply sound_rxfreeWrite
    | with_reducible apply sound_ftctlWrite
    | with_reducible apply sound_fterrWrite
    | (fail_if_no_progress (with_reducible refine Sound.upd ?_ rfl rfl rfl rfl rfl))
    | split
    | (with_reducible apply Sound.of_fst; assumption)
    | dsimp only)

theorem sound_quadWrite {q : Part} {f : BitVec 257} (s : State) (q' : Nat) (off : Nat) (v : Word) (hs : Sound q f s) : Sound q f (quadWrite s q' off v) := by
  unfold quadWrite
  try dsimp only
  repeat' (first
    | with_reducible assumption
    | with_reducible apply sound_modQuad
    | (fail_if_no_progress (with_reducible refine Sound.upd ?_ rfl rfl rfl rfl rfl))
    | split
    | (with_reducible apply Sound.of_fst; assumption)
    | dsimp only)

theorem sound_irisWrite {q : Part} {f : BitVec 257} (s : State) (off : Nat) (v : Word) (hs : Sound q f s) : Sound q f (irisWrite s off v) := by
  unfold irisWrite
  try dsimp only
  repeat' (first
    | with_reducible assumption
    | with_reducible apply sound_modIr
    | (fail_if_no_progress (with_reducible refine Sound.upd ?_ rfl rfl rfl rfl rfl))
    | split
    | (with_reducible apply Sound.of_fst; assumption)
    | dsimp only)

theorem sound_devRead {q : Part} {f : BitVec 257} (s : State) (m : Master) (a : Nat) {t : State} {v : Word} (hs : Sound q f s)
    (e : devRead s m a = some (t, v)) : Sound q f t := by
  unfold devRead at e
  dsimp only at e
  have pick : ∀ x : State × Word, Sound q f x.1 → some x = some (t, v) → Sound q f t := by
    intro x hx h
    injection h with h
    rw [h] at hx
    exact hx
  repeat' split at e
  all_goals first
    | exact sound_coreRead _ _ _ _ hs e
    | exact pick _ hs e
    | exact pick _ (sound_facetRead _ _ _ _ hs) e
    | exact pick _ (sound_timebaseRead _ _ hs) e
    | exact pick _ (sound_calendarRead _ _ hs) e
    | exact pick _ (sound_chanRead _ _ _ hs) e

theorem sound_devWrite {q : Part} {f : BitVec 257} (s : State) (m : Master) (a : Nat) (v : Word) (hs : Sound q f s) : Sound q f (devWrite s m a v).1 := by
  unfold devWrite
  try dsimp only
  repeat' (first
    | with_reducible assumption
    | with_reducible apply sound_coreWrite
    | with_reducible apply sound_clusterWrite
    | with_reducible apply sound_facetWrite
    | with_reducible apply sound_quadWrite
    | with_reducible apply sound_timebaseWrite
    | with_reducible apply sound_calendarWrite
    | with_reducible apply sound_irisWrite
    | with_reducible apply sound_chanWrite
    | (fail_if_no_progress (with_reducible refine Sound.upd ?_ rfl rfl rfl rfl rfl))
    | split
    | dsimp only)

theorem sound_deviceStore {q : Part} {f : BitVec 257} (s : State) (n : Nat) (e : StoreEntry) (hs : Sound q f s) : Sound q f (deviceStore s n e) := by
  unfold deviceStore
  try dsimp only
  repeat' (first
    | with_reducible assumption
    | with_reducible apply sound_modCore
    | with_reducible apply sound_devWrite
    | with_reducible apply sound_drainEntry
    | (fail_if_no_progress (with_reducible refine Sound.upd ?_ rfl rfl rfl rfl rfl))
    | split
    | dsimp only)

theorem sound_deviceLoad {q : Part} {f : BitVec 257} (s : State) (n : Nat) (l : Load) {t : State} {d : LoadData} (hs : Sound q f s)
    (e : deviceLoad s n l = some (t, d)) : Sound q f t := by
  unfold deviceLoad at e
  split at e
  · rw [Option.map_eq_some_iff] at e
    obtain ⟨w, h, e⟩ := e
    injection e with e1 e2
    subst e1
    exact sound_devRead _ _ _ (v := w.2) hs h
  · injection e with e
    have h := sound_performLoad drainEntry s n l (fun s n e h => sound_drainEntry s n e h) hs
    rw [e] at h
    exact h

theorem sound_returnLoad {q : Part} {f : BitVec 257} (s : State) (n : Nat) (i : Nat) (l : Load) (hs : Sound q f s) : Sound q f (returnLoad s n i l) := by
  unfold returnLoad
  split
  · exact hs
  · split
    · exact hs
    · rename_i t d e
      dsimp only
      apply sound_deliverLoad
      apply sound_setLoad
      apply sound_loadLate
      exact sound_deviceLoad s n l hs e

theorem sound_execDeviceAccessCompletion {q : Part} {f : BitVec 257} (n : Nat) (s : State) (hs : Sound q f s) : SoundOut q f (execDeviceAccessCompletion n s) := by
  unfold execDeviceAccessCompletion
  try dsimp only
  repeat' (first
    | with_reducible assumption
    | with_reducible apply soundOut_next
    | with_reducible apply sound_returnLoad
    | with_reducible apply sound_deviceStore
    | (fail_if_no_progress (with_reducible refine Sound.upd ?_ rfl rfl rfl rfl rfl))
    | split
    | (with_reducible apply Sound.of_fst; assumption)
    | dsimp only)

theorem sound_execRegisterWrite {q : Part} {f : BitVec 257} (m : Master) (dst : RegDest) (s : State) (hs : Sound q f s) : SoundOut q f (execRegisterWrite m dst s) := by
  unfold execRegisterWrite
  try dsimp only
  repeat' (first
    | with_reducible assumption
    | with_reducible apply soundOut_next
    | with_reducible apply sound_devWrite
    | with_reducible apply sound_answered
    | with_reducible apply sound_entryWrite
    | (fail_if_no_progress (with_reducible refine Sound.upd ?_ rfl rfl rfl rfl rfl))
    | split
    | (with_reducible apply Sound.of_fst; assumption)
    | dsimp only)

end Sys2Proof.Machine
end

