-- ==== Sys2Proof/Laws/SoundEdp.lean ====
section
/-! SUPPORT. The definitions of Machine/Edp.lean keep what every step keeps. -/

set_option linter.unusedTactic false
set_option linter.unreachableTactic false
set_option linter.unusedVariables false

namespace Sys2Proof.Machine

theorem sound_putSession {q : Part} {f : BitVec 257} (s : State) (sid : Nat) (x : Session) (hs : Sound q f s) : Sound q f (putSession s sid x) := by
  unfold putSession
  try dsimp only
  repeat' (first
    | with_reducible assumption
    | (fail_if_no_progress (with_reducible refine Sound.upd ?_ rfl rfl rfl rfl rfl))
    | split
    | dsimp only)

theorem sound_unasked {q : Part} {f : BitVec 257} (s : State) (cmd : Nat) (sid : Nat) (dst : Nat) (body : Octets) (hs : Sound q f s) : Sound q f (unasked s cmd sid dst body).1 := by
  unfold unasked
  try dsimp only
  repeat' (first
    | with_reducible assumption
    | (fail_if_no_progress (with_reducible refine Sound.upd ?_ rfl rfl rfl rfl rfl))
    | split
    | dsimp only)

theorem sound_broadcast {q : Part} {f : BitVec 257} (s : State) (cmd : Nat) (body : Octets) (hs : Sound q f s) : Sound q f (broadcast s cmd body) := by
  unfold broadcast
  try dsimp only
  repeat' (first
    | with_reducible assumption
    | with_reducible apply sound_unasked
    | with_reducible apply sound_sendPdu
    | (with_reducible apply Sound.foldl_fst <;> intros)
    | (with_reducible apply Sound.foldl <;> intros)
    | (fail_if_no_progress (with_reducible refine Sound.upd ?_ rfl rfl rfl rfl rfl))
    | split
    | dsimp only)

theorem sound_sendEmergency {q : Part} {f : BitVec 257} (s : State) (hs : Sound q f s) : Sound q f (sendEmergency s) := by
  unfold sendEmergency
  try dsimp only
  repeat' (first
    | with_reducible assumption
    | with_reducible apply sound_broadcast
    | (fail_if_no_progress (with_reducible refine Sound.upd ?_ rfl rfl rfl rfl rfl))
    | split
    | (with_reducible apply Sound.of_fst; assumption)
    | dsimp only)

theorem sound_sendEmergencies {q : Part} {f : BitVec 257} (n : Nat) (s : State) (hs : Sound q f s) : Sound q f (sendEmergencies n s) := by
  induction n generalizing s with
  | zero => exact hs
  | succ n ih => exact ih _ (sound_sendEmergency _ hs)

theorem sound_edpSend {q : Part} {f : BitVec 257} (s : State) (ep : Endpoint) (pdu : Octets) (hs : Sound q f s) : Sound q f (edpSend s ep pdu) := by
  unfold edpSend
  try dsimp only
  repeat' (first
    | with_reducible assumption
    | with_reducible apply sound_sendPdu
    | with_reducible apply sound_sendEmergencies
    | (fail_if_no_progress (with_reducible refine Sound.upd ?_ rfl rfl rfl rfl rfl))
    | split
    | dsimp only)

theorem sound_logAnswered {q : Part} {f : BitVec 257} (s : State) (r : Reply) (hs : Sound q f s) : Sound q f (logAnswered s r) := by
  unfold logAnswered
  try dsimp only
  repeat' (first
    | with_reducible assumption
    | (fail_if_no_progress (with_reducible refine Sound.upd ?_ rfl rfl rfl rfl rfl))
    | split
    | (with_reducible apply Sound.of_fst; assumption)
    | dsimp only)

theorem sound_logRequest {q : Part} {f : BitVec 257} (s : State) (r : Reply) (hs : Sound q f s) : Sound q f (logRequest s r) := by
  unfold logRequest
  try dsimp only
  repeat' (first
    | with_reducible assumption
    | (fail_if_no_progress (with_reducible refine Sound.upd ?_ rfl rfl rfl rfl rfl))
    | split
    | (with_reducible apply Sound.of_fst; assumption)
    | dsimp only)

theorem sound_logExecuted {q : Part} {f : BitVec 257} (s : State) (r : Reply) (hs : Sound q f s) : Sound q f (logExecuted s r) := by
  unfold logExecuted
  try dsimp only
  repeat' (first
    | with_reducible assumption
    | (fail_if_no_progress (with_reducible refine Sound.upd ?_ rfl rfl rfl rfl rfl))
    | split
    | (with_reducible apply Sound.of_fst; assumption)
    | dsimp only)

theorem sound_answerTo {q : Part} {f : BitVec 257} (s0 : State) (r : Reply) (cmd : Nat) (body : Octets) (hs0 : Sound q f s0) : Sound q f (answerTo s0 r cmd body) := by
  unfold answerTo
  try dsimp only
  repeat' (first
    | with_reducible assumption
    | with_reducible apply sound_logAnswered
    | with_reducible apply sound_edpSend
    | with_reducible apply sound_putSession
    | (fail_if_no_progress (with_reducible refine Sound.upd ?_ rfl rfl rfl rfl rfl))
    | split
    | (with_reducible apply Sound.of_fst; assumption)
    | dsimp only)

theorem sound_abortTo {q : Part} {f : BitVec 257} (s : State) (r : Reply) (code : Nat) (hs : Sound q f s) : Sound q f (abortTo s r code) := by
  unfold abortTo
  try dsimp only
  repeat' (first
    | with_reducible assumption
    | with_reducible apply sound_answerTo
    | (fail_if_no_progress (with_reducible refine Sound.upd ?_ rfl rfl rfl rfl rfl))
    | split
    | dsimp only)

theorem sound_writeDone {q : Part} {f : BitVec 257} (s : State) (r : Reply) (hs : Sound q f s) : Sound q f (writeDone s r) := by
  unfold writeDone
  try dsimp only
  repeat' (first
    | with_reducible assumption
    | with_reducible apply sound_answerTo
    | (fail_if_no_progress (with_reducible refine Sound.upd ?_ rfl rfl rfl rfl rfl))
    | split
    | dsimp only)

theorem sound_writeResult {q : Part} {f : BitVec 257} (x : State × Option Nat) (r : Reply) (hs : Sound q f x.1) : Sound q f (writeResult x r) := by
  unfold writeResult
  split
  · exact sound_writeDone _ _ hs
  · exact sound_abortTo _ _ _ hs

theorem sound_endSession {q : Part} {f : BitVec 257} (s : State) (sid : Nat) (hs : Sound q f s) : Sound q f (endSession s sid) := by
  unfold endSession
  try dsimp only
  repeat' (first
    | with_reducible assumption
    | with_reducible apply sound_interruptCommit
    | (fail_if_no_progress (with_reducible refine Sound.upd ?_ rfl rfl rfl rfl rfl))
    | split
    | dsimp only)

theorem sound_takeInbox {q : Part} {f : BitVec 257} (s : State) (ep : Endpoint) (pdu : Octets) (hs : Sound q f s) : Sound q f (takeInbox s ep pdu) := by
  unfold takeInbox
  try dsimp only
  repeat' (first
    | with_reducible assumption
    | (fail_if_no_progress (with_reducible refine Sound.upd ?_ rfl rfl rfl rfl rfl))
    | split
    | (with_reducible apply Sound.of_fst; assumption)
    | dsimp only)

theorem sound_hearFrom {q : Part} {f : BitVec 257} (s : State) (ep : Endpoint) (hs : Sound q f s) : Sound q f (hearFrom s ep) := by
  unfold hearFrom
  try dsimp only
  repeat' (first
    | with_reducible assumption
    | (fail_if_no_progress (with_reducible refine Sound.upd ?_ rfl rfl rfl rfl rfl))
    | split
    | dsimp only)

theorem sound_forwardPdu {q : Part} {f : BitVec 257} (s : State) (ep : Endpoint) (pdu : Octets) (hs : Sound q f s) : Sound q f (forwardPdu s ep pdu) := by
  unfold forwardPdu
  try dsimp only
  repeat' (first
    | with_reducible assumption
    | with_reducible apply sound_abortTo
    | with_reducible apply sound_edpSend
    | (fail_if_no_progress (with_reducible refine Sound.upd ?_ rfl rfl rfl rfl rfl))
    | split
    | (with_reducible apply Sound.of_fst; assumption)
    | dsimp only)

theorem sound_forwardReflex {q : Part} {f : BitVec 257} (s : State) (pdu : Octets) (hs : Sound q f s) : Sound q f (forwardReflex s pdu) := by
  unfold forwardReflex
  try dsimp only
  repeat' (first
    | with_reducible assumption
    | with_reducible apply sound_edpSend
    | (fail_if_no_progress (with_reducible refine Sound.upd ?_ rfl rfl rfl rfl rfl))
    | split
    | (with_reducible apply Sound.of_fst; assumption)
    | dsimp only)

theorem sound_discardPdu {q : Part} {f : BitVec 257} (s : State) (hs : Sound q f s) : Sound q f (discardPdu s) := by
  unfold discardPdu
  try dsimp only
  repeat' (first
    | with_reducible assumption
    | (fail_if_no_progress (with_reducible refine Sound.upd ?_ rfl rfl rfl rfl rfl))
    | split
    | dsimp only)

theorem sound_dispatchPdu {q : Part} {f : BitVec 257} (s : State) (r : Reply) (a b : Nat) (body : Octets) (run : State → Reply → Nat → Octets → State)
    (hr : ∀ s r n b, Sound q f s → Sound q f (run s r n b)) (hs : Sound q f s) : Sound q f (dispatchPdu s r a b body run) := by
  unfold dispatchPdu
  try dsimp only
  repeat' (first | with_reducible assumption | (with_reducible apply hr) | with_reducible apply sound_logExecuted | with_reducible apply sound_logRequest | with_reducible apply sound_abortTo | with_reducible apply sound_bumpEnt | with_reducible apply sound_putSession | with_reducible apply sound_edpSend | with_reducible apply sound_discardPdu | with_reducible apply sound_forwardPdu | with_reducible apply sound_hearFrom | with_reducible apply sound_takeInbox | split)

theorem sound_checkTail {q : Part} {f : BitVec 257} (s : State) (x : Session) (r : Reply) (pdu body : Octets) (run : State → Reply → Nat → Octets → State)
    (hr : ∀ s r n b, Sound q f s → Sound q f (run s r n b)) (hs : Sound q f s) : Sound q f (checkTail s x r pdu body run) := by
  unfold checkTail
  try dsimp only
  repeat' (first | with_reducible assumption | (with_reducible apply hr) | with_reducible apply sound_abortTo | with_reducible apply sound_bumpEnt | with_reducible apply sound_putSession | with_reducible apply sound_edpSend | with_reducible apply sound_discardPdu | with_reducible apply sound_forwardPdu | with_reducible apply sound_hearFrom | with_reducible apply sound_takeInbox | with_reducible apply sound_dispatchPdu | split)

theorem sound_checkPdu {q : Part} {f : BitVec 257} (s : State) (ep : Endpoint) (pdu : Octets) (run : State → Reply → Nat → Octets → State)
    (hr : ∀ s r n b, Sound q f s → Sound q f (run s r n b)) (hs : Sound q f s) : Sound q f (checkPdu s ep pdu run) := by
  unfold checkPdu
  try dsimp only
  repeat' (first | with_reducible assumption | (with_reducible apply hr) | with_reducible apply sound_abortTo | with_reducible apply sound_bumpEnt | with_reducible apply sound_putSession | with_reducible apply sound_edpSend | with_reducible apply sound_discardPdu | with_reducible apply sound_forwardPdu | with_reducible apply sound_hearFrom | with_reducible apply sound_takeInbox | with_reducible apply sound_dispatchPdu | with_reducible apply sound_checkTail | split)

theorem sound_receivePdu {q : Part} {f : BitVec 257} (s : State) (ep : Endpoint) (pdu : Octets) (run : State → Reply → Nat → Octets → State)
    (hr : ∀ s r n b, Sound q f s → Sound q f (run s r n b)) (hs : Sound q f s) : Sound q f (receivePdu s ep pdu run) := by
  unfold receivePdu
  try dsimp only
  repeat' (first | with_reducible assumption | (with_reducible apply hr) | with_reducible apply sound_abortTo | with_reducible apply sound_bumpEnt | with_reducible apply sound_putSession | with_reducible apply sound_edpSend | with_reducible apply sound_discardPdu | with_reducible apply sound_forwardPdu | with_reducible apply sound_forwardReflex | with_reducible apply sound_hearFrom | with_reducible apply sound_takeInbox | with_reducible apply sound_checkPdu | split)

theorem sound_edpRow {q : Part} {f : BitVec 257} (c : Nat) (ep : Endpoint) (pdu : Octets) (s : State) (run : State → Reply → Nat → Octets → State)
    (hr : ∀ s r n b, Sound q f s → Sound q f (run s r n b)) (hs : Sound q f s) : Sound q f (edpRow c ep pdu s run) := by
  unfold edpRow
  try dsimp only
  repeat' (first | with_reducible assumption | (with_reducible apply hr) | with_reducible apply sound_abortTo | with_reducible apply sound_bumpEnt | with_reducible apply sound_putSession | with_reducible apply sound_edpSend | with_reducible apply sound_discardPdu | with_reducible apply sound_forwardPdu | with_reducible apply sound_hearFrom | with_reducible apply sound_takeInbox | with_reducible apply sound_receivePdu | split)

theorem sound_withEntry {q : Part} {f : BitVec 257} (s : State) (r : Reply) (body : Octets) (k : Reply → EntInfo → State)
    (hk : ∀ r e, Sound q f (k r e)) (hs : Sound q f s) : Sound q f (withEntry s r body k) := by
  unfold withEntry
  dsimp only
  split
  · exact sound_abortTo _ _ _ hs
  · exact hk _ _

theorem sound_malformed {q : Part} {f : BitVec 257} (s : State) (r : Reply) (hs : Sound q f s) : Sound q f (malformed s r) := by
  unfold malformed
  try dsimp only
  repeat' (first
    | with_reducible assumption
    | with_reducible apply sound_abortTo
    | (fail_if_no_progress (with_reducible refine Sound.upd ?_ rfl rfl rfl rfl rfl))
    | split
    | dsimp only)

theorem sound_runRead {q : Part} {f : BitVec 257} (s : State) (r : Reply) (_role : Nat) (body : Octets) (hs : Sound q f s) : Sound q f (runRead s r _role body) := by
  unfold runRead
  try dsimp only
  repeat' (first
    | with_reducible assumption
    | with_reducible apply sound_malformed
    | (with_reducible apply sound_withEntry <;> intros)
    | with_reducible apply sound_abortTo
    | with_reducible apply sound_dictRead
    | with_reducible apply sound_answerTo
    | (fail_if_no_progress (with_reducible refine Sound.upd ?_ rfl rfl rfl rfl rfl))
    | split
    | (with_reducible apply Sound.of_fst; assumption)
    | dsimp only)

theorem sound_execEdpRead {q : Part} {f : BitVec 257} (ep : Endpoint) (pdu : Octets) (s : State) (hs : Sound q f s) : SoundOut q f (execEdpRead ep pdu s) := by
  unfold execEdpRead
  try dsimp only
  repeat' (first
    | with_reducible assumption
    | with_reducible apply soundOut_next
    | (with_reducible apply sound_edpRow <;> intros)
    | with_reducible apply sound_runRead
    | (fail_if_no_progress (with_reducible refine Sound.upd ?_ rfl rfl rfl rfl rfl))
    | split
    | dsimp only)

theorem sound_doWrite {q : Part} {f : BitVec 257} (s : State) (r : Reply) (v : Octets) (e : EntInfo) (hs : Sound q f s) : Sound q f (doWrite s r v e) := by
  unfold doWrite
  try dsimp only
  repeat' (first
    | with_reducible assumption
    | with_reducible apply sound_abortTo
    | with_reducible apply sound_paceRequest
    | with_reducible apply sound_writeDone
    | with_reducible apply sound_writeResult
    | with_reducible apply sound_dictWrite
    | (fail_if_no_progress (with_reducible refine Sound.upd ?_ rfl rfl rfl rfl rfl))
    | split
    | (with_reducible apply Sound.of_fst; assumption)
    | dsimp only)

theorem sound_runWrite {q : Part} {f : BitVec 257} (s : State) (r : Reply) (role : Nat) (body : Octets) (hs : Sound q f s) : Sound q f (runWrite s r role body) := by
  unfold runWrite
  try dsimp only
  repeat' (first
    | with_reducible assumption
    | with_reducible apply sound_malformed
    | (with_reducible apply sound_withEntry <;> intros)
    | with_reducible apply sound_abortTo
    | with_reducible apply sound_doWrite
    | (fail_if_no_progress (with_reducible refine Sound.upd ?_ rfl rfl rfl rfl rfl))
    | split
    | dsimp only)

theorem sound_execEdpWrite {q : Part} {f : BitVec 257} (ep : Endpoint) (pdu : Octets) (s : State) (hs : Sound q f s) : SoundOut q f (execEdpWrite ep pdu s) := by
  unfold execEdpWrite
  try dsimp only
  repeat' (first
    | with_reducible assumption
    | with_reducible apply soundOut_next
    | (with_reducible apply sound_edpRow <;> intros)
    | with_reducible apply sound_runWrite
    | (fail_if_no_progress (with_reducible refine Sound.upd ?_ rfl rfl rfl rfl rfl))
    | split
    | dsimp only)

theorem sound_runBlockRead {q : Part} {f : BitVec 257} (s : State) (r : Reply) (_role : Nat) (body : Octets) (hs : Sound q f s) : Sound q f (runBlockRead s r _role body) := by
  unfold runBlockRead
  try dsimp only
  repeat' (first
    | with_reducible assumption
    | with_reducible apply sound_malformed
    | (with_reducible apply sound_withEntry <;> intros)
    | with_reducible apply sound_abortTo
    | with_reducible apply sound_dictRead
    | with_reducible apply sound_answerTo
    | (fail_if_no_progress (with_reducible refine Sound.upd ?_ rfl rfl rfl rfl rfl))
    | split
    | (with_reducible apply Sound.of_fst; assumption)
    | dsimp only)

theorem sound_execEdpBlockRead {q : Part} {f : BitVec 257} (ep : Endpoint) (pdu : Octets) (s : State) (hs : Sound q f s) : SoundOut q f (execEdpBlockRead ep pdu s) := by
  unfold execEdpBlockRead
  try dsimp only
  repeat' (first
    | with_reducible assumption
    | with_reducible apply soundOut_next
    | (with_reducible apply sound_edpRow <;> intros)
    | with_reducible apply sound_runBlockRead
    | (fail_if_no_progress (with_reducible refine Sound.upd ?_ rfl rfl rfl rfl rfl))
    | split
    | dsimp only)

theorem sound_dropTransfer {q : Part} {f : BitVec 257} (s : State) (r : Reply) (hs : Sound q f s) : Sound q f (dropTransfer s r) := by
  unfold dropTransfer
  try dsimp only
  repeat' (first
    | with_reducible assumption
    | (fail_if_no_progress (with_reducible refine Sound.upd ?_ rfl rfl rfl rfl rfl))
    | split
    | dsimp only)

theorem sound_segmentDone {q : Part} {f : BitVec 257} (s : State) (r : Reply) (flags : Nat) (next : Nat) (hs : Sound q f s) : Sound q f (segmentDone s r flags next) := by
  unfold segmentDone
  try dsimp only
  repeat' (first
    | with_reducible assumption
    | with_reducible apply sound_answerTo
    | (fail_if_no_progress (with_reducible refine Sound.upd ?_ rfl rfl rfl rfl rfl))
    | split
    | dsimp only)

theorem sound_stageSegment {q : Part} {f : BitVec 257} (s : State) (r : Reply) (e : EntInfo) (flags : Nat) (old : Octets) (v : Octets) (hs : Sound q f s) : Sound q f (stageSegment s r e flags old v) := by
  unfold stageSegment
  try dsimp only
  repeat' (first
    | with_reducible assumption
    | with_reducible apply sound_dropTransfer
    | with_reducible apply sound_abortTo
    | with_reducible apply sound_dictWrite
    | with_reducible apply sound_segmentDone
    | (fail_if_no_progress (with_reducible refine Sound.upd ?_ rfl rfl rfl rfl rfl))
    | split
    | (with_reducible apply Sound.of_fst; assumption)
    | dsimp only)

theorem sound_runBlockWrite {q : Part} {f : BitVec 257} (s : State) (r : Reply) (role : Nat) (body : Octets) (hs : Sound q f s) : Sound q f (runBlockWrite s r role body) := by
  unfold runBlockWrite
  try dsimp only
  repeat' (first
    | with_reducible assumption
    | with_reducible apply sound_malformed
    | with_reducible apply sound_abortTo
    | (with_reducible apply sound_withEntry <;> intros)
    | with_reducible apply sound_commitSegment
    | with_reducible apply sound_segmentDone
    | with_reducible apply sound_stageSegment
    | (fail_if_no_progress (with_reducible refine Sound.upd ?_ rfl rfl rfl rfl rfl))
    | split
    | (with_reducible apply Sound.of_fst; assumption)
    | dsimp only)

theorem sound_execEdpBlockWrite {q : Part} {f : BitVec 257} (ep : Endpoint) (pdu : Octets) (s : State) (hs : Sound q f s) : SoundOut q f (execEdpBlockWrite ep pdu s) := by
  unfold execEdpBlockWrite
  try dsimp only
  repeat' (first
    | with_reducible assumption
    | with_reducible apply soundOut_next
    | (with_reducible apply sound_edpRow <;> intros)
    | with_reducible apply sound_runBlockWrite
    | (fail_if_no_progress (with_reducible refine Sound.upd ?_ rfl rfl rfl rfl rfl))
    | split
    | dsimp only)

theorem sound_execStagingTimeout {q : Part} {f : BitVec 257} (sid : Nat) (s : State) (hs : Sound q f s) : SoundOut q f (execStagingTimeout sid s) := by
  unfold execStagingTimeout
  try dsimp only
  repeat' (first
    | with_reducible assumption
    | with_reducible apply soundOut_next
    | (fail_if_no_progress (with_reducible refine Sound.upd ?_ rfl rfl rfl rfl rfl))
    | split
    | dsimp only)

theorem sound_askStore {q : Part} {f : BitVec 257} (s : State) (r : Reply) (kind : Nat) (hs : Sound q f s) : Sound q f (askStore s r kind) := by
  unfold askStore
  try dsimp only
  repeat' (first
    | with_reducible assumption
    | with_reducible apply sound_startJob
    | (fail_if_no_progress (with_reducible refine Sound.upd ?_ rfl rfl rfl rfl rfl))
    | split
    | dsimp only)

theorem sound_runStore {q : Part} {f : BitVec 257} (s : State) (r : Reply) (role : Nat) (body : Octets) (hs : Sound q f s) : Sound q f (runStore s r role body) := by
  unfold runStore
  try dsimp only
  repeat' (first
    | with_reducible assumption
    | with_reducible apply sound_malformed
    | with_reducible apply sound_abortTo
    | with_reducible apply sound_askStore
    | (fail_if_no_progress (with_reducible refine Sound.upd ?_ rfl rfl rfl rfl rfl))
    | split
    | dsimp only)

theorem sound_execEdpStore {q : Part} {f : BitVec 257} (ep : Endpoint) (pdu : Octets) (s : State) (hs : Sound q f s) : SoundOut q f (execEdpStore ep pdu s) := by
  unfold execEdpStore
  try dsimp only
  repeat' (first
    | with_reducible assumption
    | with_reducible apply soundOut_next
    | (with_reducible apply sound_edpRow <;> intros)
    | with_reducible apply sound_runStore
    | (fail_if_no_progress (with_reducible refine Sound.upd ?_ rfl rfl rfl rfl rfl))
    | split
    | dsimp only)

theorem sound_runRestore {q : Part} {f : BitVec 257} (s : State) (r : Reply) (role : Nat) (body : Octets) (hs : Sound q f s) : Sound q f (runRestore s r role body) := by
  unfold runRestore
  try dsimp only
  repeat' (first
    | with_reducible assumption
    | with_reducible apply sound_malformed
    | with_reducible apply sound_abortTo
    | with_reducible apply sound_askStore
    | (fail_if_no_progress (with_reducible refine Sound.upd ?_ rfl rfl rfl rfl rfl))
    | split
    | dsimp only)

theorem sound_execEdpRestore {q : Part} {f : BitVec 257} (ep : Endpoint) (pdu : Octets) (s : State) (hs : Sound q f s) : SoundOut q f (execEdpRestore ep pdu s) := by
  unfold execEdpRestore
  try dsimp only
  repeat' (first
    | with_reducible assumption
    | with_reducible apply soundOut_next
    | (with_reducible apply sound_edpRow <;> intros)
    | with_reducible apply sound_runRestore
    | (fail_if_no_progress (with_reducible refine Sound.upd ?_ rfl rfl rfl rfl rfl))
    | split
    | dsimp only)

theorem sound_endJob {q : Part} {f : BitVec 257} (s : State) (ok : Bool) (hs : Sound q f s) : Sound q f (endJob s ok) := by
  unfold endJob
  try dsimp only
  repeat' (first
    | with_reducible assumption
    | with_reducible apply sound_startJob
    | with_reducible apply sound_answerTo
    | with_reducible apply sound_abortTo
    | (fail_if_no_progress (with_reducible refine Sound.upd ?_ rfl rfl rfl rfl rfl))
    | split
    | (with_reducible apply Sound.of_fst; assumption)
    | dsimp only)

theorem sound_execStoreCompletion {q : Part} {f : BitVec 257} (ok : Bool) (s : State) (hs : Sound q f s) : SoundOut q f (execStoreCompletion ok s) := by
  unfold execStoreCompletion
  try dsimp only
  repeat' (first
    | with_reducible assumption
    | with_reducible apply soundOut_next
    | with_reducible apply sound_endJob
    | (fail_if_no_progress (with_reducible refine Sound.upd ?_ rfl rfl rfl rfl rfl))
    | split
    | dsimp only)

theorem sound_execPfailRelease {q : Part} {f : BitVec 257} (s : State) (hs : Sound q f s) : SoundOut q f (execPfailRelease s) := by
  unfold execPfailRelease
  try dsimp only
  repeat' (first
    | with_reducible assumption
    | with_reducible apply soundOut_next
    | with_reducible apply sound_startJob
    | with_reducible apply sound_endJob
    | with_reducible apply sound_interruptCommit
    | (fail_if_no_progress (with_reducible refine Sound.upd ?_ rfl rfl rfl rfl rfl))
    | split
    | dsimp only)

theorem sound_runOpen {q : Part} {f : BitVec 257} (s : State) (r : Reply) (_role : Nat) (body : Octets) (hs : Sound q f s) : Sound q f (runOpen s r _role body) := by
  unfold runOpen
  try dsimp only
  repeat' (first
    | with_reducible assumption
    | with_reducible apply sound_malformed
    | with_reducible apply sound_abortTo
    | with_reducible apply sound_answerTo
    | with_reducible apply sound_putSession
    | (fail_if_no_progress (with_reducible refine Sound.upd ?_ rfl rfl rfl rfl rfl))
    | split
    | (with_reducible apply Sound.of_fst; assumption)
    | dsimp only)

theorem sound_execEdpOpen {q : Part} {f : BitVec 257} (ep : Endpoint) (pdu : Octets) (s : State) (hs : Sound q f s) : SoundOut q f (execEdpOpen ep pdu s) := by
  unfold execEdpOpen
  try dsimp only
  repeat' (first
    | with_reducible assumption
    | with_reducible apply soundOut_next
    | (with_reducible apply sound_edpRow <;> intros)
    | with_reducible apply sound_runOpen
    | (fail_if_no_progress (with_reducible refine Sound.upd ?_ rfl rfl rfl rfl rfl))
    | split
    | dsimp only)

theorem sound_runProof {q : Part} {f : BitVec 257} (s : State) (r : Reply) (_role : Nat) (body : Octets) (hs : Sound q f s) : Sound q f (runProof s r _role body) := by
  unfold runProof
  try dsimp only
  repeat' (first
    | with_reducible assumption
    | with_reducible apply sound_abortTo
    | with_reducible apply sound_malformed
    | with_reducible apply sound_endSession
    | with_reducible apply sound_edpSend
    | with_reducible apply sound_putSession
    | (fail_if_no_progress (with_reducible refine Sound.upd ?_ rfl rfl rfl rfl rfl))
    | split
    | (with_reducible apply Sound.of_fst; assumption)
    | dsimp only)

theorem sound_execEdpProof {q : Part} {f : BitVec 257} (ep : Endpoint) (pdu : Octets) (s : State) (hs : Sound q f s) : SoundOut q f (execEdpProof ep pdu s) := by
  unfold execEdpProof
  try dsimp only
  repeat' (first
    | with_reducible assumption
    | with_reducible apply soundOut_next
    | (with_reducible apply sound_edpRow <;> intros)
    | with_reducible apply sound_runProof
    | (fail_if_no_progress (with_reducible refine Sound.upd ?_ rfl rfl rfl rfl rfl))
    | split
    | dsimp only)

theorem sound_runClose {q : Part} {f : BitVec 257} (s : State) (r : Reply) (_role : Nat) (body : Octets) (hs : Sound q f s) : Sound q f (runClose s r _role body) := by
  unfold runClose
  try dsimp only
  repeat' (first
    | with_reducible assumption
    | with_reducible apply sound_malformed
    | with_reducible apply sound_abortTo
    | with_reducible apply sound_endSession
    | with_reducible apply sound_answerTo
    | (fail_if_no_progress (with_reducible refine Sound.upd ?_ rfl rfl rfl rfl rfl))
    | split
    | dsimp only)

theorem sound_execEdpClose {q : Part} {f : BitVec 257} (ep : Endpoint) (pdu : Octets) (s : State) (hs : Sound q f s) : SoundOut q f (execEdpClose ep pdu s) := by
  unfold execEdpClose
  try dsimp only
  repeat' (first
    | with_reducible assumption
    | with_reducible apply soundOut_next
    | (with_reducible apply sound_edpRow <;> intros)
    | with_reducible apply sound_runClose
    | (fail_if_no_progress (with_reducible refine Sound.upd ?_ rfl rfl rfl rfl rfl))
    | split
    | dsimp only)

theorem sound_execSessionIdleExpiry {q : Part} {f : BitVec 257} (sid : Nat) (s : State) (hs : Sound q f s) : SoundOut q f (execSessionIdleExpiry sid s) := by
  unfold execSessionIdleExpiry
  try dsimp only
  repeat' (first
    | with_reducible assumption
    | with_reducible apply soundOut_next
    | with_reducible apply sound_endSession
    | (fail_if_no_progress (with_reducible refine Sound.upd ?_ rfl rfl rfl rfl rfl))
    | split
    | (with_reducible apply Sound.of_fst; assumption)
    | dsimp only)

theorem sound_execProofTimeout {q : Part} {f : BitVec 257} (sid : Nat) (s : State) (hs : Sound q f s) : SoundOut q f (execProofTimeout sid s) := by
  unfold execProofTimeout
  try dsimp only
  repeat' (first
    | with_reducible assumption
    | with_reducible apply soundOut_next
    | with_reducible apply sound_endSession
    | (fail_if_no_progress (with_reducible refine Sound.upd ?_ rfl rfl rfl rfl rfl))
    | split
    | (with_reducible apply Sound.of_fst; assumption)
    | dsimp only)

theorem sound_execPduForward {q : Part} {f : BitVec 257} (ep : Endpoint) (pdu : Octets) (s : State) (hs : Sound q f s) : SoundOut q f (execPduForward ep pdu s) := by
  unfold execPduForward
  try dsimp only
  repeat' (first
    | with_reducible assumption
    | with_reducible apply soundOut_next
    | with_reducible apply sound_forwardReflex
    | with_reducible apply sound_takeInbox
    | with_reducible apply sound_forwardPdu
    | (fail_if_no_progress (with_reducible refine Sound.upd ?_ rfl rfl rfl rfl rfl))
    | split
    | (with_reducible apply Sound.of_fst; assumption)
    | dsimp only)

theorem sound_sendNote {q : Part} {f : BitVec 257} (s : State) (x : Subscription) (ty : Nat) (v : Octets) (hs : Sound q f s) : Sound q f (sendNote s x ty v) := by
  unfold sendNote
  try dsimp only
  repeat' (first
    | with_reducible assumption
    | with_reducible apply sound_unasked
    | with_reducible apply sound_edpSend
    | with_reducible apply sound_putSession
    | (fail_if_no_progress (with_reducible refine Sound.upd ?_ rfl rfl rfl rfl rfl))
    | split
    | (with_reducible apply Sound.of_fst; assumption)
    | dsimp only)

theorem sound_runSubscribe {q : Part} {f : BitVec 257} (s : State) (r : Reply) (_role : Nat) (body : Octets) (hs : Sound q f s) : Sound q f (runSubscribe s r _role body) := by
  unfold runSubscribe
  try dsimp only
  repeat' (first
    | with_reducible assumption
    | with_reducible apply sound_malformed
    | (with_reducible apply sound_withEntry <;> intros)
    | with_reducible apply sound_abortTo
    | with_reducible apply sound_dictRead
    | with_reducible apply sound_sendNote
    | with_reducible apply sound_answerTo
    | (fail_if_no_progress (with_reducible refine Sound.upd ?_ rfl rfl rfl rfl rfl))
    | split
    | (with_reducible apply Sound.of_fst; assumption)
    | dsimp only)

theorem sound_execEdpSubscribe {q : Part} {f : BitVec 257} (ep : Endpoint) (pdu : Octets) (s : State) (hs : Sound q f s) : SoundOut q f (execEdpSubscribe ep pdu s) := by
  unfold execEdpSubscribe
  try dsimp only
  repeat' (first
    | with_reducible assumption
    | with_reducible apply soundOut_next
    | (with_reducible apply sound_edpRow <;> intros)
    | with_reducible apply sound_runSubscribe
    | (fail_if_no_progress (with_reducible refine Sound.upd ?_ rfl rfl rfl rfl rfl))
    | split
    | dsimp only)

theorem sound_runUnsubscribe {q : Part} {f : BitVec 257} (s : State) (r : Reply) (_role : Nat) (body : Octets) (hs : Sound q f s) : Sound q f (runUnsubscribe s r _role body) := by
  unfold runUnsubscribe
  try dsimp only
  repeat' (first
    | with_reducible assumption
    | with_reducible apply sound_malformed
    | with_reducible apply sound_abortTo
    | with_reducible apply sound_answerTo
    | (fail_if_no_progress (with_reducible refine Sound.upd ?_ rfl rfl rfl rfl rfl))
    | split
    | dsimp only)

theorem sound_execEdpUnsubscribe {q : Part} {f : BitVec 257} (ep : Endpoint) (pdu : Octets) (s : State) (hs : Sound q f s) : SoundOut q f (execEdpUnsubscribe ep pdu s) := by
  unfold execEdpUnsubscribe
  try dsimp only
  repeat' (first
    | with_reducible assumption
    | with_reducible apply soundOut_next
    | (with_reducible apply sound_edpRow <;> intros)
    | with_reducible apply sound_runUnsubscribe
    | (fail_if_no_progress (with_reducible refine Sound.upd ?_ rfl rfl rfl rfl rfl))
    | split
    | dsimp only)

theorem sound_execEdpNotify {q : Part} {f : BitVec 257} (h : Nat) (s : State) (hs : Sound q f s) : SoundOut q f (execEdpNotify h s) := by
  unfold execEdpNotify
  try dsimp only
  repeat' (first
    | with_reducible assumption
    | with_reducible apply soundOut_next
    | with_reducible apply sound_dictRead
    | with_reducible apply sound_sendNote
    | (fail_if_no_progress (with_reducible refine Sound.upd ?_ rfl rfl rfl rfl rfl))
    | split
    | (with_reducible apply Sound.of_fst; assumption)
    | dsimp only)

theorem sound_execSubscriptionIdleExpiry {q : Part} {f : BitVec 257} (h : Nat) (s : State) (hs : Sound q f s) : SoundOut q f (execSubscriptionIdleExpiry h s) := by
  unfold execSubscriptionIdleExpiry
  try dsimp only
  repeat' (first
    | with_reducible assumption
    | with_reducible apply soundOut_next
    | (fail_if_no_progress (with_reducible refine Sound.upd ?_ rfl rfl rfl rfl rfl))
    | split
    | dsimp only)

theorem sound_execEdpHeartbeat {q : Part} {f : BitVec 257} (s : State) (hs : Sound q f s) : SoundOut q f (execEdpHeartbeat s) := by
  unfold execEdpHeartbeat
  try dsimp only
  repeat' (first
    | with_reducible assumption
    | with_reducible apply soundOut_next
    | with_reducible apply sound_sendEmergencies
    | with_reducible apply sound_broadcast
    | (fail_if_no_progress (with_reducible refine Sound.upd ?_ rfl rfl rfl rfl rfl))
    | split
    | (with_reducible apply Sound.of_fst; assumption)
    | dsimp only)

theorem sound_execEdpEmergency {q : Part} {f : BitVec 257} (s : State) (hs : Sound q f s) : SoundOut q f (execEdpEmergency s) := by
  unfold execEdpEmergency
  try dsimp only
  repeat' (first
    | with_reducible assumption
    | with_reducible apply soundOut_next
    | with_reducible apply sound_sendEmergency
    | (fail_if_no_progress (with_reducible refine Sound.upd ?_ rfl rfl rfl rfl rfl))
    | split
    | dsimp only)

theorem sound_execBusOffRecovery {q : Part} {f : BitVec 257} (s : State) (hs : Sound q f s) : SoundOut q f (execBusOffRecovery s) := by
  unfold execBusOffRecovery
  try dsimp only
  repeat' (first
    | with_reducible assumption
    | with_reducible apply soundOut_next
    | (fail_if_no_progress (with_reducible refine Sound.upd ?_ rfl rfl rfl rfl rfl))
    | split
    | dsimp only)

theorem sound_paceLater {q : Part} {f : BitVec 257} (c : Nat) (s : State) (w : Nat × Option Reply) (hs : Sound q f s) : Sound q f (paceLater c s w) := by
  unfold paceLater
  try dsimp only
  repeat' (first
    | with_reducible assumption
    | with_reducible apply sound_paceRequest
    | with_reducible apply sound_answered
    | with_reducible apply sound_writeResult
    | (fail_if_no_progress (with_reducible refine Sound.upd ?_ rfl rfl rfl rfl rfl))
    | split
    | (with_reducible apply Sound.of_fst; assumption)
    | dsimp only)

theorem sound_execModeSwitchResume {q : Part} {f : BitVec 257} (c : Nat) (s : State) (hs : Sound q f s) : SoundOut q f (execModeSwitchResume c s) := by
  unfold execModeSwitchResume
  try dsimp only
  repeat' (first
    | with_reducible assumption
    | with_reducible apply soundOut_next
    | with_reducible apply sound_switchMode
    | with_reducible apply sound_writeDone
    | with_reducible apply sound_paceLater
    | (with_reducible apply Sound.foldl_fst <;> intros)
    | (with_reducible apply Sound.foldl <;> intros)
    | (fail_if_no_progress (with_reducible refine Sound.upd ?_ rfl rfl rfl rfl rfl))
    | split
    | (with_reducible apply Sound.of_fst; assumption)
    | dsimp only)

end Sys2Proof.Machine
end

