-- ==== Sys2Proof/Laws/SoundTap.lean ====
section
/-! SUPPORT. The definitions of Machine/Tap.lean keep what every step keeps. -/

set_option linter.unusedTactic false
set_option linter.unreachableTactic false
set_option linter.unusedVariables false

namespace Sys2Proof.Machine

theorem sound_loadIr {q : Part} {f : BitVec 257} (s : State) (i : TapIr) (hs : Sound q f s) : Sound q f (loadIr s i) := by
  unfold loadIr
  try dsimp only
  repeat' (first
    | with_reducible assumption
    | (fail_if_no_progress (with_reducible refine Sound.upd ?_ rfl rfl rfl rfl rfl))
    | split
    | dsimp only)

theorem sound_execTestLogicReset {q : Part} {f : BitVec 257} (s : State) (hs : Sound q f s) : SoundOut q f (execTestLogicReset s) := by
  unfold execTestLogicReset
  try dsimp only
  repeat' (first
    | with_reducible assumption
    | with_reducible apply soundOut_next
    | (fail_if_no_progress (with_reducible refine Sound.upd ?_ rfl rfl rfl rfl rfl))
    | split
    | dsimp only)

theorem sound_execTapIdcode {q : Part} {f : BitVec 257} (s : State) (hs : Sound q f s) : SoundOut q f (execTapIdcode s) := by
  unfold execTapIdcode
  try dsimp only
  repeat' (first
    | with_reducible assumption
    | with_reducible apply soundOut_next
    | with_reducible apply sound_loadIr
    | (fail_if_no_progress (with_reducible refine Sound.upd ?_ rfl rfl rfl rfl rfl))
    | split
    | dsimp only)

theorem sound_execTapSamplePreload {q : Part} {f : BitVec 257} (pins : List Bool) (load : List Bool) (s : State) (hs : Sound q f s) : SoundOut q f (execTapSamplePreload pins load s) := by
  unfold execTapSamplePreload
  try dsimp only
  repeat' (first
    | with_reducible assumption
    | with_reducible apply soundOut_next
    | with_reducible apply sound_loadIr
    | (fail_if_no_progress (with_reducible refine Sound.upd ?_ rfl rfl rfl rfl rfl))
    | split
    | dsimp only)

theorem sound_driveBalls {q : Part} {f : BitVec 257} (s : State) (i : TapIr) (hs : Sound q f s) : Sound q f (driveBalls s i) := by
  unfold driveBalls
  try dsimp only
  repeat' (first
    | with_reducible assumption
    | with_reducible apply sound_loadIr
    | with_reducible apply sound_loseSignal
    | (with_reducible apply Sound.foldl_fst <;> intros)
    | (with_reducible apply Sound.foldl <;> intros)
    | (fail_if_no_progress (with_reducible refine Sound.upd ?_ rfl rfl rfl rfl rfl))
    | split
    | dsimp only)

theorem sound_execTapExtest {q : Part} {f : BitVec 257} (s : State) (hs : Sound q f s) : SoundOut q f (execTapExtest s) := by
  unfold execTapExtest
  try dsimp only
  repeat' (first
    | with_reducible assumption
    | with_reducible apply soundOut_next
    | with_reducible apply sound_driveBalls
    | (fail_if_no_progress (with_reducible refine Sound.upd ?_ rfl rfl rfl rfl rfl))
    | split
    | dsimp only)

theorem sound_execTapExtestPulse {q : Part} {f : BitVec 257} (s : State) (hs : Sound q f s) : SoundOut q f (execTapExtestPulse s) := by
  unfold execTapExtestPulse
  try dsimp only
  repeat' (first
    | with_reducible assumption
    | with_reducible apply soundOut_next
    | with_reducible apply sound_driveBalls
    | (fail_if_no_progress (with_reducible refine Sound.upd ?_ rfl rfl rfl rfl rfl))
    | split
    | dsimp only)

theorem sound_execTapExtestTrain {q : Part} {f : BitVec 257} (s : State) (hs : Sound q f s) : SoundOut q f (execTapExtestTrain s) := by
  unfold execTapExtestTrain
  try dsimp only
  repeat' (first
    | with_reducible assumption
    | with_reducible apply soundOut_next
    | with_reducible apply sound_driveBalls
    | (fail_if_no_progress (with_reducible refine Sound.upd ?_ rfl rfl rfl rfl rfl))
    | split
    | dsimp only)

theorem sound_execTapHighz {q : Part} {f : BitVec 257} (s : State) (hs : Sound q f s) : SoundOut q f (execTapHighz s) := by
  unfold execTapHighz
  try dsimp only
  repeat' (first
    | with_reducible assumption
    | with_reducible apply soundOut_next
    | with_reducible apply sound_driveBalls
    | (fail_if_no_progress (with_reducible refine Sound.upd ?_ rfl rfl rfl rfl rfl))
    | split
    | dsimp only)

theorem sound_execTapClamp {q : Part} {f : BitVec 257} (s : State) (hs : Sound q f s) : SoundOut q f (execTapClamp s) := by
  unfold execTapClamp
  try dsimp only
  repeat' (first
    | with_reducible assumption
    | with_reducible apply soundOut_next
    | with_reducible apply sound_driveBalls
    | (fail_if_no_progress (with_reducible refine Sound.upd ?_ rfl rfl rfl rfl rfl))
    | split
    | dsimp only)

theorem sound_execTapLoupe {q : Part} {f : BitVec 257} (s : State) (hs : Sound q f s) : SoundOut q f (execTapLoupe s) := by
  unfold execTapLoupe
  try dsimp only
  repeat' (first
    | with_reducible assumption
    | with_reducible apply soundOut_next
    | with_reducible apply sound_loadIr
    | with_reducible apply sound_bumpEnt
    | (fail_if_no_progress (with_reducible refine Sound.upd ?_ rfl rfl rfl rfl rfl))
    | split
    | dsimp only)

theorem sound_execTapFuse {q : Part} {f : BitVec 257} (s : State) (hs : Sound q f s) : SoundOut q f (execTapFuse s) := by
  unfold execTapFuse
  try dsimp only
  repeat' (first
    | with_reducible assumption
    | with_reducible apply soundOut_next
    | with_reducible apply sound_loadIr
    | (fail_if_no_progress (with_reducible refine Sound.upd ?_ rfl rfl rfl rfl rfl))
    | split
    | dsimp only)

theorem sound_execTapBypass {q : Part} {f : BitVec 257} (s : State) (hs : Sound q f s) : SoundOut q f (execTapBypass s) := by
  unfold execTapBypass
  try dsimp only
  repeat' (first
    | with_reducible assumption
    | with_reducible apply soundOut_next
    | with_reducible apply sound_loadIr
    | (fail_if_no_progress (with_reducible refine Sound.upd ?_ rfl rfl rfl rfl rfl))
    | split
    | dsimp only)

theorem sound_loupeAsk {q : Part} {f : BitVec 257} (s : State) (a : Word) (wr : Option Word) (hs : Sound q f s) : Sound q f (loupeAsk s a wr) := by
  unfold loupeAsk
  try dsimp only
  repeat' (first
    | with_reducible assumption
    | (fail_if_no_progress (with_reducible refine Sound.upd ?_ rfl rfl rfl rfl rfl))
    | split
    | dsimp only)

theorem sound_execLoupeRead {q : Part} {f : BitVec 257} (addr : Word) (s : State) (hs : Sound q f s) : SoundOut q f (execLoupeRead addr s) := by
  unfold execLoupeRead
  try dsimp only
  repeat' (first
    | with_reducible assumption
    | with_reducible apply soundOut_next
    | with_reducible apply sound_loupeAsk
    | (fail_if_no_progress (with_reducible refine Sound.upd ?_ rfl rfl rfl rfl rfl))
    | split
    | dsimp only)

theorem sound_execLoupeWrite {q : Part} {f : BitVec 257} (addr : Word) (v : Word) (s : State) (hs : Sound q f s) : SoundOut q f (execLoupeWrite addr v s) := by
  unfold execLoupeWrite
  try dsimp only
  repeat' (first
    | with_reducible assumption
    | with_reducible apply soundOut_next
    | with_reducible apply sound_loupeAsk
    | (fail_if_no_progress (with_reducible refine Sound.upd ?_ rfl rfl rfl rfl rfl))
    | split
    | dsimp only)

theorem sound_loupeMemRead {q : Part} {f : BitVec 257} (s : State) (w : Nat) (a : Nat) (hs : Sound q f s) : Sound q f (loupeMemRead s w a).1 := by
  unfold loupeMemRead
  try dsimp only
  repeat' (first
    | with_reducible assumption
    | with_reducible apply sound_engineCheck
    | with_reducible apply sound_checkWord
    | with_reducible apply sound_endLoanAt
    | (fail_if_no_progress (with_reducible refine Sound.upd ?_ rfl rfl rfl rfl rfl))
    | split
    | (with_reducible apply Sound.of_fst; assumption)
    | dsimp only)

theorem sound_loupeMemWrite {q : Part} {f : BitVec 257} (s : State) (w : Nat) (a : Nat) (v : Word) (hs : Sound q f s) : Sound q f (loupeMemWrite s w a v).1 := by
  unfold loupeMemWrite
  try dsimp only
  repeat' (first
    | with_reducible assumption
    | with_reducible apply sound_aliasWord
    | with_reducible apply sound_windowStore
    | with_reducible apply sound_memWrite
    | with_reducible apply sound_forceMerge
    | with_reducible apply sound_endLoanAt
    | (fail_if_no_progress (with_reducible refine Sound.upd ?_ rfl rfl rfl rfl rfl))
    | split
    | (with_reducible apply Sound.of_fst; assumption)
    | dsimp only)

theorem sound_loupePerform {q : Part} {f : BitVec 257} (s : State) (x : LoupeAcc) (hs : Sound q f s) : Sound q f (loupePerform s x).1 := by
  unfold loupePerform
  try dsimp only
  repeat' (first
    | with_reducible assumption
    | (with_reducible apply sound_devRead; rotate_left 1; assumption)
    | with_reducible apply sound_devWrite
    | with_reducible apply sound_loupeMemRead
    | with_reducible apply sound_loupeMemWrite
    | (fail_if_no_progress (with_reducible refine Sound.upd ?_ rfl rfl rfl rfl rfl))
    | split
    | (with_reducible apply Sound.of_fst; assumption)
    | dsimp only)

theorem sound_execLoupeAccessCompletion {q : Part} {f : BitVec 257} (s : State) (hs : Sound q f s) : SoundOut q f (execLoupeAccessCompletion s) := by
  unfold execLoupeAccessCompletion
  try dsimp only
  repeat' (first
    | with_reducible assumption
    | with_reducible apply soundOut_next
    | with_reducible apply sound_loupePerform
    | (fail_if_no_progress (with_reducible refine Sound.upd ?_ rfl rfl rfl rfl rfl))
    | split
    | (with_reducible apply Sound.of_fst; assumption)
    | dsimp only)

theorem sound_execFuseProgram {q : Part} {f : BitVec 257} (i : Nat) (s : State) (hs : Sound q f s) : SoundOut q f (execFuseProgram i s) := by
  have h1 : ∀ x y : BitVec 257, f &&& x = f → f &&& (x ||| y) = f := by
    intro x y h
    have : f &&& (x ||| y) = (f &&& x) ||| (f &&& y) := BitVec.and_or_distrib_left
    rw [this, h]
    ext i
    simp
    exact fun h _ => h
  have h2 : ∀ l x y : BitVec 257, l &&& x = l → l &&& (x ||| y) = l := by
    intro l x y h
    have : l &&& (x ||| y) = (l &&& x) ||| (l &&& y) := BitVec.and_or_distrib_left
    rw [this, h]
    ext i
    simp
    exact fun h _ => h
  unfold execFuseProgram
  try dsimp only
  repeat' split
  all_goals first
    | exact hs
    | exact ⟨hs.part, h1 _ _ hs.grown, h2 _ _ _ hs.loaded, hs.mem, hs.tb⟩
    | exact Sound.mem_upd hs rfl rfl hs.mem rfl

end Sys2Proof.Machine
end

