-- ==== Sys2Proof/Laws/SoundTriggers.lean ====
section
/-! SUPPORT. The definitions of Machine/Triggers.lean keep what every step keeps. -/

set_option linter.unusedTactic false
set_option linter.unreachableTactic false
set_option linter.unusedVariables false

namespace Sys2Proof.Machine

theorem sound_soloTrigger {q : Part} {f : BitVec 257} (s : State) (n code : Nat) (a : Word) (hs : Sound q f s) : Sound q f (soloTrigger s n code a) := by
  unfold soloTrigger
  dsimp only
  split
  · exact sound_issuePlan _ _ _ hs (sound_planMoves _ _ _ _ hs)
  · exact hs

theorem sound_execAluAdd {q : Part} {f : BitVec 257} (n : Nat) (u : AluUnit) (a : Word) (s : State) (hs : Sound q f s) : SoundOut q f (execAluAdd n u a s) := by
  unfold execAluAdd
  try dsimp only
  repeat' (first
    | with_reducible assumption
    | with_reducible apply soundOut_next
    | with_reducible apply sound_soloTrigger
    | (fail_if_no_progress (with_reducible refine Sound.upd ?_ rfl rfl rfl rfl rfl))
    | split
    | dsimp only)

theorem sound_execAluSub {q : Part} {f : BitVec 257} (n : Nat) (u : AluUnit) (a : Word) (s : State) (hs : Sound q f s) : SoundOut q f (execAluSub n u a s) := by
  unfold execAluSub
  try dsimp only
  repeat' (first
    | with_reducible assumption
    | with_reducible apply soundOut_next
    | with_reducible apply sound_soloTrigger
    | (fail_if_no_progress (with_reducible refine Sound.upd ?_ rfl rfl rfl rfl rfl))
    | split
    | dsimp only)

theorem sound_execAluAnd {q : Part} {f : BitVec 257} (n : Nat) (u : AluUnit) (a : Word) (s : State) (hs : Sound q f s) : SoundOut q f (execAluAnd n u a s) := by
  unfold execAluAnd
  try dsimp only
  repeat' (first
    | with_reducible assumption
    | with_reducible apply soundOut_next
    | with_reducible apply sound_soloTrigger
    | (fail_if_no_progress (with_reducible refine Sound.upd ?_ rfl rfl rfl rfl rfl))
    | split
    | dsimp only)

theorem sound_execAluOr {q : Part} {f : BitVec 257} (n : Nat) (u : AluUnit) (a : Word) (s : State) (hs : Sound q f s) : SoundOut q f (execAluOr n u a s) := by
  unfold execAluOr
  try dsimp only
  repeat' (first
    | with_reducible assumption
    | with_reducible apply soundOut_next
    | with_reducible apply sound_soloTrigger
    | (fail_if_no_progress (with_reducible refine Sound.upd ?_ rfl rfl rfl rfl rfl))
    | split
    | dsimp only)

theorem sound_execAluXor {q : Part} {f : BitVec 257} (n : Nat) (u : AluUnit) (a : Word) (s : State) (hs : Sound q f s) : SoundOut q f (execAluXor n u a s) := by
  unfold execAluXor
  try dsimp only
  repeat' (first
    | with_reducible assumption
    | with_reducible apply soundOut_next
    | with_reducible apply sound_soloTrigger
    | (fail_if_no_progress (with_reducible refine Sound.upd ?_ rfl rfl rfl rfl rfl))
    | split
    | dsimp only)

theorem sound_execAluAndn {q : Part} {f : BitVec 257} (n : Nat) (u : AluUnit) (a : Word) (s : State) (hs : Sound q f s) : SoundOut q f (execAluAndn n u a s) := by
  unfold execAluAndn
  try dsimp only
  repeat' (first
    | with_reducible assumption
    | with_reducible apply soundOut_next
    | with_reducible apply sound_soloTrigger
    | (fail_if_no_progress (with_reducible refine Sound.upd ?_ rfl rfl rfl rfl rfl))
    | split
    | dsimp only)

theorem sound_execAluShl {q : Part} {f : BitVec 257} (n : Nat) (u : AluUnit) (a : Word) (s : State) (hs : Sound q f s) : SoundOut q f (execAluShl n u a s) := by
  unfold execAluShl
  try dsimp only
  repeat' (first
    | with_reducible assumption
    | with_reducible apply soundOut_next
    | with_reducible apply sound_soloTrigger
    | (fail_if_no_progress (with_reducible refine Sound.upd ?_ rfl rfl rfl rfl rfl))
    | split
    | dsimp only)

theorem sound_execAluShr {q : Part} {f : BitVec 257} (n : Nat) (u : AluUnit) (a : Word) (s : State) (hs : Sound q f s) : SoundOut q f (execAluShr n u a s) := by
  unfold execAluShr
  try dsimp only
  repeat' (first
    | with_reducible assumption
    | with_reducible apply soundOut_next
    | with_reducible apply sound_soloTrigger
    | (fail_if_no_progress (with_reducible refine Sound.upd ?_ rfl rfl rfl rfl rfl))
    | split
    | dsimp only)

theorem sound_execAluSar {q : Part} {f : BitVec 257} (n : Nat) (u : AluUnit) (a : Word) (s : State) (hs : Sound q f s) : SoundOut q f (execAluSar n u a s) := by
  unfold execAluSar
  try dsimp only
  repeat' (first
    | with_reducible assumption
    | with_reducible apply soundOut_next
    | with_reducible apply sound_soloTrigger
    | (fail_if_no_progress (with_reducible refine Sound.upd ?_ rfl rfl rfl rfl rfl))
    | split
    | dsimp only)

theorem sound_execAluRotl {q : Part} {f : BitVec 257} (n : Nat) (u : AluUnit) (a : Word) (s : State) (hs : Sound q f s) : SoundOut q f (execAluRotl n u a s) := by
  unfold execAluRotl
  try dsimp only
  repeat' (first
    | with_reducible assumption
    | with_reducible apply soundOut_next
    | with_reducible apply sound_soloTrigger
    | (fail_if_no_progress (with_reducible refine Sound.upd ?_ rfl rfl rfl rfl rfl))
    | split
    | dsimp only)

theorem sound_execAluEq {q : Part} {f : BitVec 257} (n : Nat) (u : AluUnit) (a : Word) (s : State) (hs : Sound q f s) : SoundOut q f (execAluEq n u a s) := by
  unfold execAluEq
  try dsimp only
  repeat' (first
    | with_reducible assumption
    | with_reducible apply soundOut_next
    | with_reducible apply sound_soloTrigger
    | (fail_if_no_progress (with_reducible refine Sound.upd ?_ rfl rfl rfl rfl rfl))
    | split
    | dsimp only)

theorem sound_execAluLt {q : Part} {f : BitVec 257} (n : Nat) (u : AluUnit) (a : Word) (s : State) (hs : Sound q f s) : SoundOut q f (execAluLt n u a s) := by
  unfold execAluLt
  try dsimp only
  repeat' (first
    | with_reducible assumption
    | with_reducible apply soundOut_next
    | with_reducible apply sound_soloTrigger
    | (fail_if_no_progress (with_reducible refine Sound.upd ?_ rfl rfl rfl rfl rfl))
    | split
    | dsimp only)

theorem sound_execAluLtu {q : Part} {f : BitVec 257} (n : Nat) (u : AluUnit) (a : Word) (s : State) (hs : Sound q f s) : SoundOut q f (execAluLtu n u a s) := by
  unfold execAluLtu
  try dsimp only
  repeat' (first
    | with_reducible assumption
    | with_reducible apply soundOut_next
    | with_reducible apply sound_soloTrigger
    | (fail_if_no_progress (with_reducible refine Sound.upd ?_ rfl rfl rfl rfl rfl))
    | split
    | dsimp only)

theorem sound_execMulMulu {q : Part} {f : BitVec 257} (n : Nat) (a : Word) (s : State) (hs : Sound q f s) : SoundOut q f (execMulMulu n a s) := by
  unfold execMulMulu
  try dsimp only
  repeat' (first
    | with_reducible assumption
    | with_reducible apply soundOut_next
    | with_reducible apply sound_soloTrigger
    | (fail_if_no_progress (with_reducible refine Sound.upd ?_ rfl rfl rfl rfl rfl))
    | split
    | dsimp only)

theorem sound_execMulMuls {q : Part} {f : BitVec 257} (n : Nat) (a : Word) (s : State) (hs : Sound q f s) : SoundOut q f (execMulMuls n a s) := by
  unfold execMulMuls
  try dsimp only
  repeat' (first
    | with_reducible assumption
    | with_reducible apply soundOut_next
    | with_reducible apply sound_soloTrigger
    | (fail_if_no_progress (with_reducible refine Sound.upd ?_ rfl rfl rfl rfl rfl))
    | split
    | dsimp only)

theorem sound_execMulMulsu {q : Part} {f : BitVec 257} (n : Nat) (a : Word) (s : State) (hs : Sound q f s) : SoundOut q f (execMulMulsu n a s) := by
  unfold execMulMulsu
  try dsimp only
  repeat' (first
    | with_reducible assumption
    | with_reducible apply soundOut_next
    | with_reducible apply sound_soloTrigger
    | (fail_if_no_progress (with_reducible refine Sound.upd ?_ rfl rfl rfl rfl rfl))
    | split
    | dsimp only)

theorem sound_execDivQuo {q : Part} {f : BitVec 257} (n : Nat) (a : Word) (s : State) (hs : Sound q f s) : SoundOut q f (execDivQuo n a s) := by
  unfold execDivQuo
  try dsimp only
  repeat' (first
    | with_reducible assumption
    | with_reducible apply soundOut_next
    | with_reducible apply sound_soloTrigger
    | (fail_if_no_progress (with_reducible refine Sound.upd ?_ rfl rfl rfl rfl rfl))
    | split
    | dsimp only)

theorem sound_execDivQuos {q : Part} {f : BitVec 257} (n : Nat) (a : Word) (s : State) (hs : Sound q f s) : SoundOut q f (execDivQuos n a s) := by
  unfold execDivQuos
  try dsimp only
  repeat' (first
    | with_reducible assumption
    | with_reducible apply soundOut_next
    | with_reducible apply sound_soloTrigger
    | (fail_if_no_progress (with_reducible refine Sound.upd ?_ rfl rfl rfl rfl rfl))
    | split
    | dsimp only)

theorem sound_execLsuLd8u {q : Part} {f : BitVec 257} (n : Nat) (a : Word) (s : State) (hs : Sound q f s) : SoundOut q f (execLsuLd8u n a s) := by
  unfold execLsuLd8u
  try dsimp only
  repeat' (first
    | with_reducible assumption
    | with_reducible apply soundOut_next
    | with_reducible apply sound_soloTrigger
    | (fail_if_no_progress (with_reducible refine Sound.upd ?_ rfl rfl rfl rfl rfl))
    | split
    | dsimp only)

theorem sound_execLsuLd8s {q : Part} {f : BitVec 257} (n : Nat) (a : Word) (s : State) (hs : Sound q f s) : SoundOut q f (execLsuLd8s n a s) := by
  unfold execLsuLd8s
  try dsimp only
  repeat' (first
    | with_reducible assumption
    | with_reducible apply soundOut_next
    | with_reducible apply sound_soloTrigger
    | (fail_if_no_progress (with_reducible refine Sound.upd ?_ rfl rfl rfl rfl rfl))
    | split
    | dsimp only)

theorem sound_execLsuLd16u {q : Part} {f : BitVec 257} (n : Nat) (a : Word) (s : State) (hs : Sound q f s) : SoundOut q f (execLsuLd16u n a s) := by
  unfold execLsuLd16u
  try dsimp only
  repeat' (first
    | with_reducible assumption
    | with_reducible apply soundOut_next
    | with_reducible apply sound_soloTrigger
    | (fail_if_no_progress (with_reducible refine Sound.upd ?_ rfl rfl rfl rfl rfl))
    | split
    | dsimp only)

theorem sound_execLsuLd16s {q : Part} {f : BitVec 257} (n : Nat) (a : Word) (s : State) (hs : Sound q f s) : SoundOut q f (execLsuLd16s n a s) := by
  unfold execLsuLd16s
  try dsimp only
  repeat' (first
    | with_reducible assumption
    | with_reducible apply soundOut_next
    | with_reducible apply sound_soloTrigger
    | (fail_if_no_progress (with_reducible refine Sound.upd ?_ rfl rfl rfl rfl rfl))
    | split
    | dsimp only)

theorem sound_execLsuLd32 {q : Part} {f : BitVec 257} (n : Nat) (a : Word) (s : State) (hs : Sound q f s) : SoundOut q f (execLsuLd32 n a s) := by
  unfold execLsuLd32
  try dsimp only
  repeat' (first
    | with_reducible assumption
    | with_reducible apply soundOut_next
    | with_reducible apply sound_soloTrigger
    | (fail_if_no_progress (with_reducible refine Sound.upd ?_ rfl rfl rfl rfl rfl))
    | split
    | dsimp only)

theorem sound_execLsuSt8 {q : Part} {f : BitVec 257} (n : Nat) (a : Word) (s : State) (hs : Sound q f s) : SoundOut q f (execLsuSt8 n a s) := by
  unfold execLsuSt8
  try dsimp only
  repeat' (first
    | with_reducible assumption
    | with_reducible apply soundOut_next
    | with_reducible apply sound_soloTrigger
    | (fail_if_no_progress (with_reducible refine Sound.upd ?_ rfl rfl rfl rfl rfl))
    | split
    | dsimp only)

theorem sound_execLsuSt16 {q : Part} {f : BitVec 257} (n : Nat) (a : Word) (s : State) (hs : Sound q f s) : SoundOut q f (execLsuSt16 n a s) := by
  unfold execLsuSt16
  try dsimp only
  repeat' (first
    | with_reducible assumption
    | with_reducible apply soundOut_next
    | with_reducible apply sound_soloTrigger
    | (fail_if_no_progress (with_reducible refine Sound.upd ?_ rfl rfl rfl rfl rfl))
    | split
    | dsimp only)

theorem sound_execLsuSt32 {q : Part} {f : BitVec 257} (n : Nat) (a : Word) (s : State) (hs : Sound q f s) : SoundOut q f (execLsuSt32 n a s) := by
  unfold execLsuSt32
  try dsimp only
  repeat' (first
    | with_reducible assumption
    | with_reducible apply soundOut_next
    | with_reducible apply sound_soloTrigger
    | (fail_if_no_progress (with_reducible refine Sound.upd ?_ rfl rfl rfl rfl rfl))
    | split
    | dsimp only)

theorem sound_execLsuXchg32 {q : Part} {f : BitVec 257} (n : Nat) (a : Word) (s : State) (hs : Sound q f s) : SoundOut q f (execLsuXchg32 n a s) := by
  unfold execLsuXchg32
  try dsimp only
  repeat' (first
    | with_reducible assumption
    | with_reducible apply soundOut_next
    | with_reducible apply sound_soloTrigger
    | (fail_if_no_progress (with_reducible refine Sound.upd ?_ rfl rfl rfl rfl rfl))
    | split
    | dsimp only)

theorem sound_execBituTst {q : Part} {f : BitVec 257} (n : Nat) (a : Word) (s : State) (hs : Sound q f s) : SoundOut q f (execBituTst n a s) := by
  unfold execBituTst
  try dsimp only
  repeat' (first
    | with_reducible assumption
    | with_reducible apply soundOut_next
    | with_reducible apply sound_soloTrigger
    | (fail_if_no_progress (with_reducible refine Sound.upd ?_ rfl rfl rfl rfl rfl))
    | split
    | dsimp only)

theorem sound_execBituSet {q : Part} {f : BitVec 257} (n : Nat) (a : Word) (s : State) (hs : Sound q f s) : SoundOut q f (execBituSet n a s) := by
  unfold execBituSet
  try dsimp only
  repeat' (first
    | with_reducible assumption
    | with_reducible apply soundOut_next
    | with_reducible apply sound_soloTrigger
    | (fail_if_no_progress (with_reducible refine Sound.upd ?_ rfl rfl rfl rfl rfl))
    | split
    | dsimp only)

theorem sound_execBituClr {q : Part} {f : BitVec 257} (n : Nat) (a : Word) (s : State) (hs : Sound q f s) : SoundOut q f (execBituClr n a s) := by
  unfold execBituClr
  try dsimp only
  repeat' (first
    | with_reducible assumption
    | with_reducible apply soundOut_next
    | with_reducible apply sound_soloTrigger
    | (fail_if_no_progress (with_reducible refine Sound.upd ?_ rfl rfl rfl rfl rfl))
    | split
    | dsimp only)

theorem sound_execBituTgl {q : Part} {f : BitVec 257} (n : Nat) (a : Word) (s : State) (hs : Sound q f s) : SoundOut q f (execBituTgl n a s) := by
  unfold execBituTgl
  try dsimp only
  repeat' (first
    | with_reducible assumption
    | with_reducible apply soundOut_next
    | with_reducible apply sound_soloTrigger
    | (fail_if_no_progress (with_reducible refine Sound.upd ?_ rfl rfl rfl rfl rfl))
    | split
    | dsimp only)

theorem sound_execBituTas {q : Part} {f : BitVec 257} (n : Nat) (a : Word) (s : State) (hs : Sound q f s) : SoundOut q f (execBituTas n a s) := by
  unfold execBituTas
  try dsimp only
  repeat' (first
    | with_reducible assumption
    | with_reducible apply soundOut_next
    | with_reducible apply sound_soloTrigger
    | (fail_if_no_progress (with_reducible refine Sound.upd ?_ rfl rfl rfl rfl rfl))
    | split
    | dsimp only)

theorem sound_execBituAnd {q : Part} {f : BitVec 257} (n : Nat) (a : Word) (s : State) (hs : Sound q f s) : SoundOut q f (execBituAnd n a s) := by
  unfold execBituAnd
  try dsimp only
  repeat' (first
    | with_reducible assumption
    | with_reducible apply soundOut_next
    | with_reducible apply sound_soloTrigger
    | (fail_if_no_progress (with_reducible refine Sound.upd ?_ rfl rfl rfl rfl rfl))
    | split
    | dsimp only)

theorem sound_execBituOr {q : Part} {f : BitVec 257} (n : Nat) (a : Word) (s : State) (hs : Sound q f s) : SoundOut q f (execBituOr n a s) := by
  unfold execBituOr
  try dsimp only
  repeat' (first
    | with_reducible assumption
    | with_reducible apply soundOut_next
    | with_reducible apply sound_soloTrigger
    | (fail_if_no_progress (with_reducible refine Sound.upd ?_ rfl rfl rfl rfl rfl))
    | split
    | dsimp only)

theorem sound_execBituXor {q : Part} {f : BitVec 257} (n : Nat) (a : Word) (s : State) (hs : Sound q f s) : SoundOut q f (execBituXor n a s) := by
  unfold execBituXor
  try dsimp only
  repeat' (first
    | with_reducible assumption
    | with_reducible apply soundOut_next
    | with_reducible apply sound_soloTrigger
    | (fail_if_no_progress (with_reducible refine Sound.upd ?_ rfl rfl rfl rfl rfl))
    | split
    | dsimp only)

theorem sound_execBituAndn {q : Part} {f : BitVec 257} (n : Nat) (a : Word) (s : State) (hs : Sound q f s) : SoundOut q f (execBituAndn n a s) := by
  unfold execBituAndn
  try dsimp only
  repeat' (first
    | with_reducible assumption
    | with_reducible apply soundOut_next
    | with_reducible apply sound_soloTrigger
    | (fail_if_no_progress (with_reducible refine Sound.upd ?_ rfl rfl rfl rfl rfl))
    | split
    | dsimp only)

theorem sound_execCtlJmp {q : Part} {f : BitVec 257} (n : Nat) (a : Word) (s : State) (hs : Sound q f s) : SoundOut q f (execCtlJmp n a s) := by
  unfold execCtlJmp
  try dsimp only
  repeat' (first
    | with_reducible assumption
    | with_reducible apply soundOut_next
    | with_reducible apply sound_soloTrigger
    | (fail_if_no_progress (with_reducible refine Sound.upd ?_ rfl rfl rfl rfl rfl))
    | split
    | dsimp only)

theorem sound_execCtlJr {q : Part} {f : BitVec 257} (n : Nat) (a : Word) (s : State) (hs : Sound q f s) : SoundOut q f (execCtlJr n a s) := by
  unfold execCtlJr
  try dsimp only
  repeat' (first
    | with_reducible assumption
    | with_reducible apply soundOut_next
    | with_reducible apply sound_soloTrigger
    | (fail_if_no_progress (with_reducible refine Sound.upd ?_ rfl rfl rfl rfl rfl))
    | split
    | dsimp only)

theorem sound_execCtlCall {q : Part} {f : BitVec 257} (n : Nat) (a : Word) (s : State) (hs : Sound q f s) : SoundOut q f (execCtlCall n a s) := by
  unfold execCtlCall
  try dsimp only
  repeat' (first
    | with_reducible assumption
    | with_reducible apply soundOut_next
    | with_reducible apply sound_soloTrigger
    | (fail_if_no_progress (with_reducible refine Sound.upd ?_ rfl rfl rfl rfl rfl))
    | split
    | dsimp only)

theorem sound_execCtlCallr {q : Part} {f : BitVec 257} (n : Nat) (a : Word) (s : State) (hs : Sound q f s) : SoundOut q f (execCtlCallr n a s) := by
  unfold execCtlCallr
  try dsimp only
  repeat' (first
    | with_reducible assumption
    | with_reducible apply soundOut_next
    | with_reducible apply sound_soloTrigger
    | (fail_if_no_progress (with_reducible refine Sound.upd ?_ rfl rfl rfl rfl rfl))
    | split
    | dsimp only)

theorem sound_execCtlRet {q : Part} {f : BitVec 257} (n : Nat) (a : Word) (s : State) (hs : Sound q f s) : SoundOut q f (execCtlRet n a s) := by
  unfold execCtlRet
  try dsimp only
  repeat' (first
    | with_reducible assumption
    | with_reducible apply soundOut_next
    | with_reducible apply sound_soloTrigger
    | (fail_if_no_progress (with_reducible refine Sound.upd ?_ rfl rfl rfl rfl rfl))
    | split
    | dsimp only)

theorem sound_execCtlEret {q : Part} {f : BitVec 257} (n : Nat) (a : Word) (s : State) (hs : Sound q f s) : SoundOut q f (execCtlEret n a s) := by
  unfold execCtlEret
  try dsimp only
  repeat' (first
    | with_reducible assumption
    | with_reducible apply soundOut_next
    | with_reducible apply sound_soloTrigger
    | (fail_if_no_progress (with_reducible refine Sound.upd ?_ rfl rfl rfl rfl rfl))
    | split
    | dsimp only)

theorem sound_execCtlTrap {q : Part} {f : BitVec 257} (n : Nat) (a : Word) (s : State) (hs : Sound q f s) : SoundOut q f (execCtlTrap n a s) := by
  unfold execCtlTrap
  try dsimp only
  repeat' (first
    | with_reducible assumption
    | with_reducible apply soundOut_next
    | with_reducible apply sound_soloTrigger
    | (fail_if_no_progress (with_reducible refine Sound.upd ?_ rfl rfl rfl rfl rfl))
    | split
    | dsimp only)

theorem sound_execCtlLoop {q : Part} {f : BitVec 257} (n : Nat) (a : Word) (s : State) (hs : Sound q f s) : SoundOut q f (execCtlLoop n a s) := by
  unfold execCtlLoop
  try dsimp only
  repeat' (first
    | with_reducible assumption
    | with_reducible apply soundOut_next
    | with_reducible apply sound_soloTrigger
    | (fail_if_no_progress (with_reducible refine Sound.upd ?_ rfl rfl rfl rfl rfl))
    | split
    | dsimp only)

theorem sound_execCtlFlush {q : Part} {f : BitVec 257} (n : Nat) (a : Word) (s : State) (hs : Sound q f s) : SoundOut q f (execCtlFlush n a s) := by
  unfold execCtlFlush
  try dsimp only
  repeat' (first
    | with_reducible assumption
    | with_reducible apply soundOut_next
    | with_reducible apply sound_soloTrigger
    | (fail_if_no_progress (with_reducible refine Sound.upd ?_ rfl rfl rfl rfl rfl))
    | split
    | dsimp only)

theorem sound_execCtlFence {q : Part} {f : BitVec 257} (n : Nat) (a : Word) (s : State) (hs : Sound q f s) : SoundOut q f (execCtlFence n a s) := by
  unfold execCtlFence
  try dsimp only
  repeat' (first
    | with_reducible assumption
    | with_reducible apply soundOut_next
    | with_reducible apply sound_soloTrigger
    | (fail_if_no_progress (with_reducible refine Sound.upd ?_ rfl rfl rfl rfl rfl))
    | split
    | dsimp only)

theorem sound_execCtlHush {q : Part} {f : BitVec 257} (n : Nat) (a : Word) (s : State) (hs : Sound q f s) : SoundOut q f (execCtlHush n a s) := by
  unfold execCtlHush
  try dsimp only
  repeat' (first
    | with_reducible assumption
    | with_reducible apply soundOut_next
    | with_reducible apply sound_soloTrigger
    | (fail_if_no_progress (with_reducible refine Sound.upd ?_ rfl rfl rfl rfl rfl))
    | split
    | dsimp only)

theorem sound_execCtlSleep {q : Part} {f : BitVec 257} (n : Nat) (a : Word) (s : State) (hs : Sound q f s) : SoundOut q f (execCtlSleep n a s) := by
  unfold execCtlSleep
  try dsimp only
  repeat' (first
    | with_reducible assumption
    | with_reducible apply soundOut_next
    | with_reducible apply sound_soloTrigger
    | (fail_if_no_progress (with_reducible refine Sound.upd ?_ rfl rfl rfl rfl rfl))
    | split
    | dsimp only)

theorem sound_execCtlHalt {q : Part} {f : BitVec 257} (n : Nat) (a : Word) (s : State) (hs : Sound q f s) : SoundOut q f (execCtlHalt n a s) := by
  unfold execCtlHalt
  try dsimp only
  repeat' (first
    | with_reducible assumption
    | with_reducible apply soundOut_next
    | with_reducible apply sound_soloTrigger
    | (fail_if_no_progress (with_reducible refine Sound.upd ?_ rfl rfl rfl rfl rfl))
    | split
    | dsimp only)

theorem sound_execCopyMove {q : Part} {f : BitVec 257} (n : Nat) (a : Word) (s : State) (hs : Sound q f s) : SoundOut q f (execCopyMove n a s) := by
  unfold execCopyMove
  try dsimp only
  repeat' (first
    | with_reducible assumption
    | with_reducible apply soundOut_next
    | with_reducible apply sound_soloTrigger
    | (fail_if_no_progress (with_reducible refine Sound.upd ?_ rfl rfl rfl rfl rfl))
    | split
    | dsimp only)

theorem sound_execCopyFill {q : Part} {f : BitVec 257} (n : Nat) (a : Word) (s : State) (hs : Sound q f s) : SoundOut q f (execCopyFill n a s) := by
  unfold execCopyFill
  try dsimp only
  repeat' (first
    | with_reducible assumption
    | with_reducible apply soundOut_next
    | with_reducible apply sound_soloTrigger
    | (fail_if_no_progress (with_reducible refine Sound.upd ?_ rfl rfl rfl rfl rfl))
    | split
    | dsimp only)

theorem sound_execCopyCrc {q : Part} {f : BitVec 257} (n : Nat) (a : Word) (s : State) (hs : Sound q f s) : SoundOut q f (execCopyCrc n a s) := by
  unfold execCopyCrc
  try dsimp only
  repeat' (first
    | with_reducible assumption
    | with_reducible apply soundOut_next
    | with_reducible apply sound_soloTrigger
    | (fail_if_no_progress (with_reducible refine Sound.upd ?_ rfl rfl rfl rfl rfl))
    | split
    | dsimp only)

theorem sound_execCopyPark {q : Part} {f : BitVec 257} (n : Nat) (a : Word) (s : State) (hs : Sound q f s) : SoundOut q f (execCopyPark n a s) := by
  unfold execCopyPark
  try dsimp only
  repeat' (first
    | with_reducible assumption
    | with_reducible apply soundOut_next
    | with_reducible apply sound_soloTrigger
    | (fail_if_no_progress (with_reducible refine Sound.upd ?_ rfl rfl rfl rfl rfl))
    | split
    | dsimp only)

theorem sound_execCopyResume {q : Part} {f : BitVec 257} (n : Nat) (a : Word) (s : State) (hs : Sound q f s) : SoundOut q f (execCopyResume n a s) := by
  unfold execCopyResume
  try dsimp only
  repeat' (first
    | with_reducible assumption
    | with_reducible apply soundOut_next
    | with_reducible apply sound_soloTrigger
    | (fail_if_no_progress (with_reducible refine Sound.upd ?_ rfl rfl rfl rfl rfl))
    | split
    | dsimp only)

theorem sound_execBeamFind {q : Part} {f : BitVec 257} (n : Nat) (a : Word) (s : State) (hs : Sound q f s) : SoundOut q f (execBeamFind n a s) := by
  unfold execBeamFind
  try dsimp only
  repeat' (first
    | with_reducible assumption
    | with_reducible apply soundOut_next
    | with_reducible apply sound_soloTrigger
    | (fail_if_no_progress (with_reducible refine Sound.upd ?_ rfl rfl rfl rfl rfl))
    | split
    | dsimp only)

theorem sound_execBeamLock {q : Part} {f : BitVec 257} (n : Nat) (a : Word) (s : State) (hs : Sound q f s) : SoundOut q f (execBeamLock n a s) := by
  unfold execBeamLock
  try dsimp only
  repeat' (first
    | with_reducible assumption
    | with_reducible apply soundOut_next
    | with_reducible apply sound_soloTrigger
    | (fail_if_no_progress (with_reducible refine Sound.upd ?_ rfl rfl rfl rfl rfl))
    | split
    | dsimp only)

theorem sound_execBeamCommit {q : Part} {f : BitVec 257} (n : Nat) (a : Word) (s : State) (hs : Sound q f s) : SoundOut q f (execBeamCommit n a s) := by
  unfold execBeamCommit
  try dsimp only
  repeat' (first
    | with_reducible assumption
    | with_reducible apply soundOut_next
    | with_reducible apply sound_soloTrigger
    | (fail_if_no_progress (with_reducible refine Sound.upd ?_ rfl rfl rfl rfl rfl))
    | split
    | dsimp only)

theorem sound_execBeamDrop {q : Part} {f : BitVec 257} (n : Nat) (a : Word) (s : State) (hs : Sound q f s) : SoundOut q f (execBeamDrop n a s) := by
  unfold execBeamDrop
  try dsimp only
  repeat' (first
    | with_reducible assumption
    | with_reducible apply soundOut_next
    | with_reducible apply sound_soloTrigger
    | (fail_if_no_progress (with_reducible refine Sound.upd ?_ rfl rfl rfl rfl rfl))
    | split
    | dsimp only)

theorem sound_execBeamNew {q : Part} {f : BitVec 257} (n : Nat) (a : Word) (s : State) (hs : Sound q f s) : SoundOut q f (execBeamNew n a s) := by
  unfold execBeamNew
  try dsimp only
  repeat' (first
    | with_reducible assumption
    | with_reducible apply soundOut_next
    | with_reducible apply sound_soloTrigger
    | (fail_if_no_progress (with_reducible refine Sound.upd ?_ rfl rfl rfl rfl rfl))
    | split
    | dsimp only)

theorem sound_execFpuAdd {q : Part} {f : BitVec 257} (n : Nat) (a : Word) (s : State) (hs : Sound q f s) : SoundOut q f (execFpuAdd n a s) := by
  unfold execFpuAdd
  try dsimp only
  repeat' (first
    | with_reducible assumption
    | with_reducible apply soundOut_next
    | with_reducible apply sound_soloTrigger
    | (fail_if_no_progress (with_reducible refine Sound.upd ?_ rfl rfl rfl rfl rfl))
    | split
    | dsimp only)

theorem sound_execFpuSub {q : Part} {f : BitVec 257} (n : Nat) (a : Word) (s : State) (hs : Sound q f s) : SoundOut q f (execFpuSub n a s) := by
  unfold execFpuSub
  try dsimp only
  repeat' (first
    | with_reducible assumption
    | with_reducible apply soundOut_next
    | with_reducible apply sound_soloTrigger
    | (fail_if_no_progress (with_reducible refine Sound.upd ?_ rfl rfl rfl rfl rfl))
    | split
    | dsimp only)

theorem sound_execFpuMul {q : Part} {f : BitVec 257} (n : Nat) (a : Word) (s : State) (hs : Sound q f s) : SoundOut q f (execFpuMul n a s) := by
  unfold execFpuMul
  try dsimp only
  repeat' (first
    | with_reducible assumption
    | with_reducible apply soundOut_next
    | with_reducible apply sound_soloTrigger
    | (fail_if_no_progress (with_reducible refine Sound.upd ?_ rfl rfl rfl rfl rfl))
    | split
    | dsimp only)

theorem sound_execFpuFma {q : Part} {f : BitVec 257} (n : Nat) (a : Word) (s : State) (hs : Sound q f s) : SoundOut q f (execFpuFma n a s) := by
  unfold execFpuFma
  try dsimp only
  repeat' (first
    | with_reducible assumption
    | with_reducible apply soundOut_next
    | with_reducible apply sound_soloTrigger
    | (fail_if_no_progress (with_reducible refine Sound.upd ?_ rfl rfl rfl rfl rfl))
    | split
    | dsimp only)

theorem sound_execFpuDiv {q : Part} {f : BitVec 257} (n : Nat) (a : Word) (s : State) (hs : Sound q f s) : SoundOut q f (execFpuDiv n a s) := by
  unfold execFpuDiv
  try dsimp only
  repeat' (first
    | with_reducible assumption
    | with_reducible apply soundOut_next
    | with_reducible apply sound_soloTrigger
    | (fail_if_no_progress (with_reducible refine Sound.upd ?_ rfl rfl rfl rfl rfl))
    | split
    | dsimp only)

theorem sound_execFpuSqrt {q : Part} {f : BitVec 257} (n : Nat) (a : Word) (s : State) (hs : Sound q f s) : SoundOut q f (execFpuSqrt n a s) := by
  unfold execFpuSqrt
  try dsimp only
  repeat' (first
    | with_reducible assumption
    | with_reducible apply soundOut_next
    | with_reducible apply sound_soloTrigger
    | (fail_if_no_progress (with_reducible refine Sound.upd ?_ rfl rfl rfl rfl rfl))
    | split
    | dsimp only)

theorem sound_execFpuEq {q : Part} {f : BitVec 257} (n : Nat) (a : Word) (s : State) (hs : Sound q f s) : SoundOut q f (execFpuEq n a s) := by
  unfold execFpuEq
  try dsimp only
  repeat' (first
    | with_reducible assumption
    | with_reducible apply soundOut_next
    | with_reducible apply sound_soloTrigger
    | (fail_if_no_progress (with_reducible refine Sound.upd ?_ rfl rfl rfl rfl rfl))
    | split
    | dsimp only)

theorem sound_execFpuLt {q : Part} {f : BitVec 257} (n : Nat) (a : Word) (s : State) (hs : Sound q f s) : SoundOut q f (execFpuLt n a s) := by
  unfold execFpuLt
  try dsimp only
  repeat' (first
    | with_reducible assumption
    | with_reducible apply soundOut_next
    | with_reducible apply sound_soloTrigger
    | (fail_if_no_progress (with_reducible refine Sound.upd ?_ rfl rfl rfl rfl rfl))
    | split
    | dsimp only)

theorem sound_execFpuLe {q : Part} {f : BitVec 257} (n : Nat) (a : Word) (s : State) (hs : Sound q f s) : SoundOut q f (execFpuLe n a s) := by
  unfold execFpuLe
  try dsimp only
  repeat' (first
    | with_reducible assumption
    | with_reducible apply soundOut_next
    | with_reducible apply sound_soloTrigger
    | (fail_if_no_progress (with_reducible refine Sound.upd ?_ rfl rfl rfl rfl rfl))
    | split
    | dsimp only)

theorem sound_execFpuItof {q : Part} {f : BitVec 257} (n : Nat) (a : Word) (s : State) (hs : Sound q f s) : SoundOut q f (execFpuItof n a s) := by
  unfold execFpuItof
  try dsimp only
  repeat' (first
    | with_reducible assumption
    | with_reducible apply soundOut_next
    | with_reducible apply sound_soloTrigger
    | (fail_if_no_progress (with_reducible refine Sound.upd ?_ rfl rfl rfl rfl rfl))
    | split
    | dsimp only)

theorem sound_execFpuUtof {q : Part} {f : BitVec 257} (n : Nat) (a : Word) (s : State) (hs : Sound q f s) : SoundOut q f (execFpuUtof n a s) := by
  unfold execFpuUtof
  try dsimp only
  repeat' (first
    | with_reducible assumption
    | with_reducible apply soundOut_next
    | with_reducible apply sound_soloTrigger
    | (fail_if_no_progress (with_reducible refine Sound.upd ?_ rfl rfl rfl rfl rfl))
    | split
    | dsimp only)

theorem sound_execFpuFtoi {q : Part} {f : BitVec 257} (n : Nat) (a : Word) (s : State) (hs : Sound q f s) : SoundOut q f (execFpuFtoi n a s) := by
  unfold execFpuFtoi
  try dsimp only
  repeat' (first
    | with_reducible assumption
    | with_reducible apply soundOut_next
    | with_reducible apply sound_soloTrigger
    | (fail_if_no_progress (with_reducible refine Sound.upd ?_ rfl rfl rfl rfl rfl))
    | split
    | dsimp only)

end Sys2Proof.Machine
end

