-- ==== Sys2Proof/Tests/Slice0.lean ====
section
/-! SUPPORT. Tests: ill-formed commands that well-formedness refuses, a witness for the hypotheses of every statement, worked examples of the
spec. -/

namespace Sys2Proof.Tests

set_option Elab.async false

open Sys2Proof Sys2Proof.Machine

/-! ### Small states -/

/-- The state with core `n` changed. -/
def core (n : Nat) (f : LensCore → LensCore) (s : State) : State := setCore s n (f (getCore s n))

/-- The state with core `n` running. -/
def runs (n : Nat) (s : State) : State := core n (fun k => { k with i := { k.i with run := .running } }) s

/-- Reset, with core 5 running. -/
def r5 : State := runs 5 State.reset

/-- A device that has started: W0 active, stage 10. -/
def up : State := { State.reset with active := some 128, power := { State.reset.power with stage := 10, applied := true } }

/-- Socket `c` of core `n` set. -/
def sock (n c : Nat) (v : Word) (s : State) : State := core n (fun k => { k with u := { k.u with sk := Tab.put c v k.u.sk } }) s

/-- A word of 8 bytes written at a global address. -/
def mem8 (a w : Nat) (s : State) : State := { s with mem := Mem.writeAll a (leOctets 8 w) s.mem }

/-- PSW of core `n` set. -/
def psw (n : Nat) (v : Word) (s : State) : State := core n (fun k => { k with r := { k.r with psw := v } }) s

/-- The next state of a command. -/
def after (c : Instr) (s : State) : State := match exec c s with | .next t => t | _ => s

/-- Core 5 before two compact bundles of NOPs, their lines fetched. -/
def dl : State :=
  let nop := 2 ^ 62 + 0x20000000 * 2 ^ 30 + 0x20000000
  after (.fetchLineDelivery 5) (mem8 (scratchBase 5 + 8) nop (mem8 (scratchBase 5) nop r5))

/-! ### Witnesses: the machine, the units -/

theorem witness_StepRunsFrontCommand : State.reset.pending = [] := rfl

theorem witness_InvKeptByEveryStep : Inv { r5 with tb := 2 ^ 64 - 1 } := ⟨by decide, rfl, by decide⟩

theorem witness_AluTriggersWriteResult : takesTrigger r5 5 = true := by decide +kernel

theorem witness_MulTriggersStartProduct : takesTrigger (sock 5 0x220 0xFFFFFFFF r5) 5 = true := by decide +kernel

/-- Divisors 0, 7, and -1 under the most negative dividend. -/
theorem witness_DivTriggersStartDivide :
    (takesTrigger r5 5 = true ∧ (getCore r5 5).u.div = none ∧ sockOf r5 5 0x230 = 0) ∧
    (takesTrigger (sock 5 0x230 7 r5) 5 = true ∧ (getCore (sock 5 0x230 7 r5) 5).u.div = none ∧ sockOf (sock 5 0x230 7 r5) 5 0x230 ≠ 0) ∧
    (takesTrigger (sock 5 0x230 0xFFFFFFFF r5) 5 = true ∧ (getCore (sock 5 0x230 0xFFFFFFFF r5) 5).u.div = none ∧
      sockOf (sock 5 0x230 0xFFFFFFFF r5) 5 0x230 = 0xFFFFFFFF#32) := by decide +kernel

/-- Bits 0 and 0xFFF, kd another bit and the same bit. -/
theorem witness_BituPrivateAndLogic :
    (takesTrigger r5 5 = true ∧ (0#32).toNat < 0x1000 ∧ (0xFFF#32).toNat < 0x1000) ∧
    (takesTrigger (sock 5 0x251 7 r5) 5 = true ∧ (sockOf (sock 5 0x251 7 r5) 5 0x251).toNat % 256 = (7#32).toNat) := by decide +kernel

theorem witness_BituSharedBitAtomic :
    takesTrigger r5 5 = true ∧ 5 < 128 ∧ Mem.wf r5.mem = true ∧ 0x10000 ≤ (0x10000#32).toNat ∧ (0x1FFFF#32).toNat < 0x20000 ∧
      eccOf r5 (bitWord 5 0) = 0 ∧ rivalOf r5 5 (bitWord 5 0) = none ∧ eccOf r5 (bitWord 5 0xFFFF) = 0 ∧ rivalOf r5 5 (bitWord 5 0xFFFF) = none := by
  decide +kernel

/-- The last byte, half-word and word of own scratch, in bare mode. -/
theorem witness_LoadTriggersReadMemory :
    takesTrigger r5 5 = true ∧ (getCore r5 5).u.stores = [] ∧ (getCore r5 5).u.loads = [] ∧ (dataAp r5 5 (getCore r5 5)).kind = 0 ∧
      checkAccess r5 5 (isSup (getCore r5 5)) (dataAp r5 5 (getCore r5 5)) .read 0xFFFF 1 = .ok 0xFFFF ∧
      checkAccess r5 5 (isSup (getCore r5 5)) (dataAp r5 5 (getCore r5 5)) .read 0xFFFE 2 = .ok 0xFFFE ∧
      checkAccess r5 5 (isSup (getCore r5 5)) (dataAp r5 5 (getCore r5 5)) .read 0xFFFC 4 = .ok 0xFFFC ∧
      eccOf r5 ((scratchBase 5 + 0xFFFF) / 8) = 0 := by decide +kernel

/-- A store within one word, and one that spans two. -/
theorem witness_StoreTriggersFillBuffer :
    takesTrigger r5 5 = true ∧ checkAccess r5 5 (isSup (getCore r5 5)) (dataAp r5 5 (getCore r5 5)) .write 4 4 = .ok 4 ∧
      checkAccess r5 5 (isSup (getCore r5 5)) (dataAp r5 5 (getCore r5 5)) .write 7 2 = .ok 7 ∧ (getCore r5 5).u.stores.length + storeCount 7 2 ≤ 8 := by decide +kernel

theorem witness_ExchangeSwapsWord :
    takesTrigger r5 5 = true ∧ Mem.wf r5.mem = true ∧ (getCore r5 5).u.stores = [] ∧ (getCore r5 5).u.loads = [] ∧
      checkAccess r5 5 (isSup (getCore r5 5)) (dataAp r5 5 (getCore r5 5)) .both 0xFFFC 4 = .ok 0xFFFC ∧ eccOf r5 ((scratchBase 5 + 0xFFFC) / 8) = 0 := by decide +kernel

/-- PSW with BARE clear, and bare mode without a load; the apertures at reset refuse every access. -/
theorem witness_AccessChecksTrap :
    let s := psw 5 1 r5
    takesTrigger s 5 = true ∧ fifthLoad (getCore s 5) = false ∧ isBare (getCore s 5) = false ∧ (getCore s 5).u.stores.length ≤ 6 ∧
      checkAccess s 5 (isSup (getCore s 5)) (dataAp s 5 (getCore s 5)) .both 0x10000 4 = .bad 0x10 0x10000 := by decide +kernel

theorem witness_TransfersGoThroughDelayBundle :
    takesTrigger dl 5 = true ∧ endsActive (getCore dl 5) (getCore dl 5).i.pc.toNat = false ∧
      checkDelay dl 5 ((getCore dl 5).i.pc.toNat + 8) = .ok 8 := ⟨by decide +kernel, by decide +kernel, rfl⟩

/-- In supervisor mode (PSW at reset) and in user mode. -/
theorem witness_ControlTriggersHoldOrStop :
    (takesTrigger r5 5 = true ∧ endsActive (getCore r5 5) (getCore r5 5).i.pc.toNat = false ∧ isSup (getCore r5 5) = true) ∧
    (takesTrigger (psw 5 4 r5) 5 = true ∧ isSup (getCore (psw 5 4 r5) 5) = false) := by decide +kernel

/-- `d` loop levels active. -/
def loops (d : Nat) (s : State) : State :=
  core 5 (fun k => { k with r := { k.r with lc := (List.range d).map fun i => (i, 3#32), le := (List.range d).map fun i => (i, 0x100#32) } }) s

/-- Set-up at depths 0 and 3 with the nearest end allowed, ending at depth 1, and the three refusals. -/
theorem witness_LoopTriggerSetsLevel :
    (takesTrigger (sock 5 0x260 8 r5) 5 = true ∧ endsActive (getCore r5 5) 0 = false ∧ loopDepth (getCore (sock 5 0x260 8 r5) 5) = 0 ∧
      0 + 8 ≤ (sockOf (sock 5 0x260 8 r5) 5 0x260 &&& 0xFFFFFFF8#32).toNat) ∧
    (takesTrigger (sock 5 0x260 8 (loops 3 r5)) 5 = true ∧ loopDepth (getCore (sock 5 0x260 8 (loops 3 r5)) 5) = 3 ∧
      endsActive (getCore (sock 5 0x260 8 (loops 3 r5)) 5) 0 = false) ∧
    (takesTrigger (loops 1 r5) 5 = true ∧ loopDepth (getCore (loops 1 r5) 5) = 1 ∧ endsActive (getCore (loops 1 r5) 5) 0 = false) ∧
    (takesTrigger (loops 4 r5) 5 = true ∧ loopDepth (getCore (loops 4 r5) 5) = 4 ∧ endsActive (getCore (loops 4 r5) 5) 0 = false) ∧
    (loopDepth (getCore r5 5) = 0 ∧ (sockOf (sock 5 0x260 7 r5) 5 0x260 &&& 0xFFFFFFF8#32).toNat < 0 + 8) := by decide +kernel

/-- An EPSW that asks for SUP without a grant, and one that does not ask. -/
theorem witness_EretRestoresOrTraps :
    let forged := core 5 (fun k => { k with r := { k.r with epsw := 0x23#32 } }) r5
    (takesTrigger forged 5 = true ∧ isSup (getCore forged 5) = true ∧ endsActive (getCore forged 5) (getCore forged 5).i.pc.toNat = false ∧
      (∀ l ∈ (getCore forged 5).u.loads, l.deliv = true ∨ l.toFrame ≠ none) ∧ (getCore forged 5).r.epsw.getLsbD 0 = true ∧
      (getCore forged 5).r.pstk.getLsbD 0 = false ∧ (getCore forged 5).r.grant = false) ∧
    (takesTrigger r5 5 = true ∧ (getCore r5 5).r.epsw.getLsbD 0 = false ∧ (getCore r5 5).e.wd20 = false ∧ r5.router.pending = []) := by decide +kernel

/-! ### Witnesses: units, issue, delivery -/

/-- Sockets for a copy of `l` bytes from offset `a`. -/
def copies (a l : Word) (s : State) : State := sock 5 0x271 l (sock 5 0x270 a s)

/-- Source and destination at the ends of own scratch; a remote destination in cluster 0, and in the own cluster with its bank open and closed. -/
theorem witness_CopyTriggersStartOperation :
    (let s := copies 0xFFC0 64 r5;
      takesTrigger s 5 = true ∧ (getCore s 5).u.copy = none ∧ (getCore s 5).u.stores = [] ∧ segRmt (sockOf s 5 0x272) = false ∧
        copyCheck s 5 (isSup (getCore s 5)) .move (sockOf s 5 0x272) 0xFFC0 0 64 = .ok (scratchBase 5 + 0xFFC0) (scratchBase 5) ∧
        copyCheck s 5 (isSup (getCore s 5)) .fill (sockOf s 5 0x272) 0xFFC0 0 64 = .ok (scratchBase 5) (scratchBase 5) ∧
        copyCheck s 5 (isSup (getCore s 5)) .crc (sockOf s 5 0x272) 0xFFC0 0 64 = .ok (scratchBase 5 + 0xFFC0) 0) ∧
    (∀ x ∈ [(0x81, false, [1, 97, 32]), (0x181, true, []), (0x181, false, [])],
      let s := sock 5 0x272 (BitVec.ofNat 32 x.1) (copies 0xFFC0 64 (modBank r5 1 0 fun b => { b with fopen := x.2.1 })); let cl := segCl (sockOf s 5 0x272);
      takesTrigger s 5 = true ∧ (getCore s 5).u.copy = none ∧ (getCore s 5).u.stores = [] ∧ segRmt (sockOf s 5 0x272) = true ∧ routeOfCopy 5 cl = x.2.2 ∧
        copyCheck s 5 (isSup (getCore s 5)) .move (sockOf s 5 0x272) 0xFFC0 0x100000 64 = .ok (scratchBase 5 + 0xFFC0) (bankBase cl 0) ∧
        banksOpen s (bankBase cl 0) 64 = x.2.1) := by decide +kernel

/-- A copy operation. -/
def cpy (kind : CopyKind) (d src len : Nat) (down : Bool) (remote : Nat) (s : State) : State :=
  core 5 (fun k => { k with u := { k.u with copy := some { kind, trig := 0, lat := 20, src := 0, dst := 0, srcP := src, dstP := d, left := len, done := 0, down, seg := 0, word := 0x11223344, remote, since := 0, park := none } } }) s

/-- The last record of own scratch, records of zeros and of status 1, and a busy unit. -/
theorem witness_CopyParkAndResume :
    (takesTrigger r5 5 = true ∧ (getCore r5 5).u.copy = none ∧ recordCheck r5 5 (isSup (getCore r5 5)) .write 0xFFE0 = .ok 0xFFE0 0 ∧
      recordCheck r5 5 (isSup (getCore r5 5)) .read 0xFFE0 = .ok 0xFFE0 0 ∧ (∀ i, i < 4 → eccOf r5 ((scratchBase 5 + 0xFFE0) / 8 + i) = 0) ∧
      Mem.readAll (scratchBase 5 + 0xFFE0) 32 r5.mem = List.replicate 32 0 ∧
      Mem.readAll (scratchBase 5 + 0xFFE0) 32 (mem8 (scratchBase 5 + 0xFFF8) (2 ^ 56) r5).mem = List.replicate 31 0 ++ [1]) ∧
    (takesTrigger (cpy .fill 0 0 1 false 0 r5) 5 = true ∧ (getCore (cpy .fill 0 0 1 false 0 r5) 5).u.copy ≠ none) := by decide +kernel

/-- A buffer at the end of own scratch, and one beyond the aperture. -/
theorem witness_BeamTriggersStartOperation :
    (takesTrigger (sock 5 0x280 0xFFC0 r5) 5 = true ∧ (getCore r5 5).u.beam = none ∧ (getCore r5 5).u.stores = [] ∧
      beamCheck r5 5 (isSup (getCore r5 5)) (sockOf (sock 5 0x280 0xFFC0 r5) 5 0x280) = .ok 0xFFC0 0 ∧
      (∀ i, i < 8 → eccOf r5 ((scratchBase 5 + 0xFFC0) / 8 + i) = 0)) ∧
    (takesTrigger (sock 5 0x280 0x10000 r5) 5 = true ∧ (apOf (getCore r5 5) 5 1).kind ≠ 3 ∧ (apOf (getCore r5 5) 5 1).limit.toNat < 0x10000 + 63) := by
  decide +kernel

/-- A part of the full profile, with and without operations under way, and a part without the unit. -/
theorem witness_FpuTriggersStartOperation :
    (takesTrigger r5 5 = true ∧ r5.part.full = true ∧ (getCore r5 5).u.fpu = []) ∧
    (takesTrigger (after (.fpuAdd 5 1) r5) 5 = true ∧ ∀ f ∈ (getCore (after (.fpuAdd 5 1) r5) 5).u.fpu, f.lat ≠ 16) ∧
    (takesTrigger { r5 with part := { r5.part with full := false } } 5 = true) := by decide +kernel

theorem witness_FpuResultsFollowTheRules :
    fIsNaN (fpuResult .add 0x7F800001 0 0).1 = true ∧ fIsNaN 0x7F800001 = true ∧ (fIsNaN 0x4F000000 = false ∧ fSign 0x4F000000 = false) ∧
      (fIsNaN 0xCF000001 = false ∧ 0xCF000000 < (0xCF000001#32).toNat) ∧
      (fIsNaN 0x3F800000 = false ∧ fIsInf 0x3F800000 = false ∧ fIsZero 0x3F800000 = false ∧ fIsZero 0x80000000 = true) := by decide +kernel

/-- A move as file 04 encodes it: its guard, inversion, source and destination fields. -/
def mov (g inv src dst : Nat) : Nat := inv * 2 ^ 29 + g * 2 ^ 26 + src * 2 ^ 14 + dst * 4

/-- A full bundle of four moves, with its repeat bits and count. -/
def full (a b c d rpt rcnt : Nat) : List Nat := [2 ^ 63 + rpt * 2 ^ 60 + a * 2 ^ 30 + b, rcnt * 2 ^ 60 + c * 2 ^ 30 + d]

/-- A compact bundle that moves nothing. -/
def nop : Nat := 2 ^ 62 + 0x20000000 * 2 ^ 30 + 0x20000000

/-- Core 5 with words from address 0 of its scratch on, the line of its pc fetched. -/
def code (ws : List Nat) (s : State) : State :=
  after (.fetchLineDelivery 5) ((List.range ws.length).foldl (fun s i => mem8 (scratchBase 5 + 8 * i) (ws.getD i 0) s) s)

/-- r3 and r4 exchanged, and two immediates, one under a guard bit. -/
def swaps (rpt rcnt : Nat) : State :=
  code (full (mov 0 0 3 4) (mov 0 0 4 3) (mov 2 1 0x807 9) (mov 2 0 0xFF9 10) rpt rcnt ++ [nop])
    (core 5 (fun k => { k with g := [(3, 5), (4, 9)], bits := [(2, true)], r := { k.r with repc := 1 } }) r5)

/-- Not repeated, the first of four iterations, and the last one under REPC. -/
theorem witness_BundleMovesRunInParallel :
    ∀ x ∈ [(0, 0), (3, 4), (2, 0)], let s := swaps x.1 x.2; let k := getCore s 5
      mayIssue s 5 = true ∧ k.i.delay = none ∧ ∃ b, nextFront s 5 = .bund b ∧ withPair s 5 b = [b] ∧ endsActive k b.off = false ∧
        b.ms.any repeatForbids = false ∧ b.ms.all (fun m => decide (m.dst < 0x40) && match m.src with | .imm _ => true | .sock c => decide (c < 0x40)) = true ∧ ((b.ms.filter (guardOf k)).map Move.dst).Nodup ∧
        b.rpt = decide (x.1 ≠ 0) := by
  intro x hx
  simp only [List.mem_cons, List.not_mem_nil, or_false] at hx
  rcases hx with rfl | rfl | rfl <;> exact ⟨by decide +kernel, by decide +kernel, _, rfl, by decide +kernel⟩

/-- The route register of a source set, and the source pending. -/
def event (src v : Nat) (s : State) : State :=
  let s := setEnt s (0x7000 + src / 128) (src % 128 + 1) v
  { s with router := { s.router with pending := src :: s.router.pending } }

/-- IE and EVEC set, three NOPs fetched. -/
def ready : State := core 5 (fun k => { k with r := { k.r with psw := 3, evec := 0x300 } }) (code [nop, nop, nop] r5)

/-- A trap's fault with its fills done; an event at a bundle boundary. -/
theorem witness_ExceptionEntrySavesAndGoesToEvec :
    (let k := getCore (core 5 (fun k => { k with i := { k.i with fills := 0, first := false } }) (after (.ctlTrap 5 7) ready)) 5;
      k.i.run = .running ∧ k.lp.halted = false ∧ k.i.fault.isSome = true ∧ k.i.fills = 0 ∧ k.i.first = false) ∧
    (let s := event 741 (5 + 5 * 256 + 2048) ready;
      (getCore s 5).i.run = .running ∧ (getCore s 5).lp.halted = false ∧ (getCore s 5).i.fault = none ∧ boundary s 5 = true ∧
        clusterHolds s 5 = false ∧ recognisable s 5 (isIE (getCore s 5)) = some (.event 741 0x40)) := by decide +kernel

/-- A fill, a break bundle with the greatest tag, a hush window past its end, a pending event under a sleeping core. -/
theorem witness_FillBreakHushAndSleep :
    (let s := core 5 (fun k => { k with i := { k.i with fills := 4 } }) ready; let k := getCore s 5;
      k.i.run = .running ∧ k.lp.halted = false ∧ 0 < k.i.fills ∧ dueUndelivered s 5 = false) ∧
    (let s := code [0xC0000000000000FF] r5;
      mayIssue s 5 = true ∧ (getCore s 5).i.delay = none ∧ nextFront s 5 = .brk 0xFF) ∧
    (let s := { after (.ctlHush 5 1) ready with tb := 300 };
      (getCore s 5).lp.halted = false ∧ (getCore s 5).e.hushEnd ≠ none ∧ hushOpen s 5 = false) ∧
    (let s := psw 5 1 (event 741 (5 + 5 * 256 + 2048) (after (.ctlSleep 5 0) ready));
      (getCore s 5).lp.halted = false ∧ (getCore s 5).i.run = .sleeping ∧ clusterHolds s 5 = false ∧ wakePending s 5 = true ∧
        recognisable s 5 (isIE (getCore s 5)) = none) :=
  ⟨by decide +kernel, ⟨by decide +kernel, by decide +kernel, rfl⟩, by decide +kernel, by decide +kernel⟩

/-- Core 5 with AP0 on code flash. -/
def inFlash : State := core 5 (fun k => { k with r := { k.r with ap := Tab.put 0 { base := 0x08000000, limit := 0xFFFF, rights := 0x28 } k.r.ap } }) r5

/-- The last line of own scratch; a line of code flash. -/
theorem witness_FetchDeliversTheLine :
    (let s := core 5 (fun k => { k with i := { k.i with pc := 0xFFE8 } }) r5; let k := getCore s 5;
      corePresent s 5 = true ∧ s.ecc = [] ∧ k.i.run = .running ∧ findLine k.i.lines k.i.pc.toNat = none ∧ fetchWaits k 5 = false ∧
        (∀ c ∈ k.i.cache, c.1 ≠ (apOf k 5 0).start + 0xFFE0 ∧ c.2.any FWord.bad = false) ∧ 0xFFE0 + 7 ≤ (apOf k 5 0).limit.toNat ∧ (apOf k 5 0).start + 0xFFE0 + 31 < 0x100000000 ∧
        lineError s 5 ((apOf k 5 0).start + 0xFFE0) ((apOf k 5 0).kind == 1) = none ∧ (getCluster s 1).flash = none ∧ flashNext s 1 = none) ∧
    (∀ c b, (getBank r5 c b).loan = none) ∧
    (let s := inFlash; let k := getCore s 5;
      k.i.run = .running ∧ findLine k.i.lines k.i.pc.toNat = none ∧ k.i.cache = [] ∧ fetchWaits k 5 = false ∧ flashLineAt s 5 0 = some (0x08000000 / 64) ∧
        ((getCluster s 1).flash.orElse fun _ => flashNext s 1) = some { core := 5, line := 0x08000000 / 64, kind := .demand }) :=
  ⟨by decide +kernel, fun _ _ => rfl, by decide +kernel⟩

/-- Steps pass in core 5. -/
def waits (d : Nat) (s : State) : State := core 5 (fun k => { k with i := { k.i with steps := k.i.steps + d } }) s

/-- A product due, quotients of 7 and of 0, and a sum. -/
theorem witness_PipeResultsReachTheirRegisters :
    (let k := getCore (waits 3 (after (.mulMulu 5 7) (sock 5 0x220 9 r5))) 5;
      ((k.u.prods.filter fun p => decide (p.due ≤ k.i.steps)).getLast?).isSome = true) ∧
    (∀ v ∈ [0, 7], let k := getCore (waits 20 (after (.divQuo 5 100) (sock 5 0x230 (BitVec.ofNat 32 v) r5))) 5;
      k.u.div.any (fun d => decide (d.trig + divLatency r5 5 ≤ k.i.steps)) = true) ∧
    (let k := getCore (waits 4 (after (.fpuAdd 5 0x3F800000) r5)) 5;
      k.u.fpu.head?.any (fun f => decide (f.trig + f.lat ≤ k.i.steps)) = true) := by decide +kernel

/-- A buffered store. -/
def entry (w : Nat) (mask : Byte) : StoreEntry := { id := 0, word := w, mask, data := 0x1122334455667788, kind := .normal, linked := false }

/-- Core 5 with one buffered store. -/
def buffered (w : Nat) (mask : Byte) : State := core 5 (fun k => { k with u := { k.u with stores := [entry w mask] } }) r5

/-- A load of code flash that has been read. -/
def flashLd : Load :=
  { trig := 0, addr := 0x08000040, size := 4, sext := false, kind := .normal, xchg := none, snap := 0, late := 0, bare := true, data := some { val := 7, pois := none }, deliv := false, outst := true, toFrame := none }

/-- The second of two loads in flight, and one of code flash; stores to the last words of scratch, crossbar RAM and bits; a partial store to a bank, and its merge entry written out. -/
theorem witness_LoadsDeliverStoresDrain :
    (let s := waits 3 (after (.lsuLd8s 5 9) (after (.lsuLd32 5 0) r5)); let k := getCore s 5;
      k.u.loads[1]?.any (fun l => l.data.isSome && !l.deliv && decide (l.kind ≠ .device ∧ l.toFrame = none ∧ l.outst = true ∧ lsuHit 5 l = true ∧ loadDue s 5 l ≤ k.i.steps) && !flashLoad s 5 l) = true) ∧
    (let s := core 5 (fun k => { k with u := { k.u with loads := [flashLd] } }) r5; lsuHit 5 flashLd = false ∧ flashLoad s 5 flashLd = true ∧
      ((getCluster s 1).flash.orElse fun _ => flashNext s 1) = some { core := 5, line := flashLd.addr.toNat / 64, kind := .load }) ∧
    (∀ w ∈ [scratchBase 5 / 8 + 0x1FFF, xramBase 1 / 8, bitBase 1 / 8 + 1, bankBase 1 2 / 8 + 1], let s := buffered w 0x81; let k := getCore s 5;
      k.u.stores = [entry w 0x81] ∧ storeBlocked s 5 (entry w 0x81) = false ∧ classicWait s 5 w = false ∧ s.ecc = [] ∧ Mem.wf s.mem = true ∧
        rivalOf s 5 w = none) ∧
    (placeOf (scratchBase 5 / 8 + 0x1FFF) = .scratch 5 ∧ placeOf (xramBase 1 / 8) = .xram 1 ∧ placeOf (bitBase 1 / 8 + 1) = .bits 1 ∧
      placeOf (bankBase 1 2 / 8 + 1) = .bank 1 2 ∧ (getBank r5 1 2).loan = none ∧ (getBank r5 1 2).merge = []) ∧
    (let s := waits 30 (after (.storeDrain 5) (buffered (bankBase 1 2 / 8 + 1) 0x81));
      (getBank s 1 2).merge.length = 1 ∧ ((getBank s 1 2).merge.find? fun e => decide (e.opened + 17 ≤ stepsOf s e.core)).any
        (fun e => decide (bankAt (8 * e.word) = some (1, 2))) = true ∧ s.ecc = [] ∧ Mem.wf s.mem = true) := by decide +kernel

/-- A key of facet 1. -/
def key : Word := 0x0201232A

/-- The beam context that the last way of the key names, made by core 5, and an operation on it. -/
def beamed (kind : BeamKind) (arg : Word) (locked : Bool) : State :=
  core 5 (fun k => { k with u := { k.u with beam := some { kind, trig := 0, arg, buf := 0xFFC0, data := List.replicate 64 7#8, res := none } }, i := { k.i with steps := 52 } })
    (setBeam (modCluster r5 1 fun c => { c with pace := 0 }) 0x1998 { BeamCtx.free with valid := true, owner := 5, version := 1, key := key, locked, locker := if locked then 5 else 0xFF, lockVer := 1 })

/-- A key found and one not found; a context free to lock; one locked by the core. -/
theorem witness_BeamEngineAnswers :
    (∀ v ∈ [key.toNat, 0x01001234], let a := BitVec.ofNat 32 v; let s := beamed .find a false;
      keyBad a = false ∧ keyFacet a / 64 < nQuads s ∧ isDet s 5 = false ∧ s.ecc = [] ∧ Mem.wf s.mem = true ∧ (if s.part.b0 then 40 else 52) ≤ (getCore s 5).i.steps ∧
        (getCore s 5).u.beam.any (fun o => decide (servedBefore s 5 (opQuad o) = [])) = true) ∧
    (let s := beamed .lock 0x1998 false; let x := getBeam s 0x1998;
      x.valid = true ∧ 0x1998 < nBeams s ∧ x.locked = false ∧ x.poison = false ∧ x.owner.toNat = 5 ∧ lockCount s 5 < 8 ∧ cachedCtx s 5 0x1998 = none ∧ 0xFFC0 % 8 = 0 ∧ 0xFFC0 + 64 ≤ 0x10000) ∧
    (let s := beamed .commit 0x1998 true; let x := getBeam s 0x1998;
      x.valid = true ∧ 0x1998 < nBeams s ∧ x.locked = true ∧ x.locker.toNat = 5 ∧ x.version = x.lockVer) ∧
    (∀ p, (getFacet (beamed .drop 0x1998 true) p).queue.filter (heldFor 0x1998) = []) :=
  ⟨by decide +kernel, by decide +kernel, by decide +kernel, fun _ => rfl⟩

/-- A fill, a move from the source's start and one from its end (ranges that meet), a word in error, and a refusal by a bank's owner. -/
theorem witness_CopyOperationsEnd :
    let b := scratchBase 5
    let det := fun s => modCluster s 1 fun c => { c with pace := 0 }
    (∀ x ∈ [(CopyKind.fill, b + 0xFFF3, 0, false), (.move, b, b + 1, false), (.move, b + 12, b, true)], let s := det (cpy x.1 x.2.1 x.2.2.1 13 x.2.2.2 0 r5);
      isDet s 5 = false ∧ (getCore s 5).u.copy.all (copyReady s 5) = true ∧ Mem.wf s.mem = true ∧ s.ecc = [] ∧ (b ≤ x.2.1 ∧ x.2.1 + 13 ≤ b + 0x10000) ∧
        (x.1 = .fill ∧ x.2.2.2 = false ∨ x.1 = .move ∧ (b ≤ x.2.2.1 ∧ x.2.2.1 + 13 ≤ b + 0x10000) ∧ x.2.2.2 = decide (x.2.2.1 < x.2.1 ∧ x.2.1 < x.2.2.1 + 13))) ∧
    (let s := det { cpy .crc b (b + 4) 13 false 0 r5 with ecc := [((b + 4) / 8, 3)] }; isDet s 5 = false ∧ Mem.wf s.mem = true) ∧
    (bankAt (bankBase 3 1 + 8) = some (3, 1) ∧ (getBank (det (cpy .move (bankBase 3 1 + 8) b 13 false 3 r5)) 3 1).fopen = false) := by decide +kernel

/-! ### Witnesses: cluster, events, faults -/

/-- Cores 12 and 13 running on a started device. -/
def up12 : State := runs 13 (runs 12 up)

/-- Core 12 owns bank 0 of cluster 3 and W0 is active (both write, to the same owner and to another); core 13 does not own it. -/
theorem witness_BankOwnershipWrites :
    (3 < nClusters up12 ∧ (getBank up12 3 0).owner = 0 ∧ 12 / 4 = 3 ∧ (getBank up12 3 0).pend = none ∧ corePresent up12 (4 * 3 + 1) = true ∧
      (getCore up12 13).i.run ≠ .retired) ∧
    (up12.active = some 128 ∧ ¬ (128 < 128 ∧ 128 / 4 = 3 ∧ (getBank up12 3 0).owner = 128 % 4)) ∧
    (corePresent up12 (4 * 3 + 3) = true ∧ ¬ ((128 ≤ 13 ∧ up12.active = some 13) ∨ (13 < 128 ∧ 13 / 4 = 3 ∧ (getBank up12 3 0).owner = 13 % 4))) := by
  decide +kernel

/-- A bank of cluster 3 changed. -/
def bank (f : Bank → Bank) (s : State) : State := modBank s 3 1 f

/-- A hand-over ready, without and with a merge entry; words without error, with one of each count; the scrub period at its end; an old correction; a loan begun and ended; start-up's fill. -/
theorem witness_MemoryMaintenance :
    (let s := bank (fun b => { b with pend := some 2 }) up; (getBank s 3 1).pend = some 2 ∧ handoverWaits s 3 1 = false ∧ (getBank s 3 1).merge = []) ∧
    (let w := bankBase 3 1 / 8 + 2; let s := bank (fun b => { b with pend := some 2, merge := [{ word := w, mask := 1, data := 5, core := 13, opened := 0 }] }) up;
      handoverWaits s 3 1 = false ∧ s.ecc = [] ∧ Mem.wf s.mem = true ∧ ∀ e ∈ (getBank s 3 1).merge, bankAt (8 * e.word) = some (3, 1)) ∧
    memWord up (.bank 3 1) 32768 = none ∧
    (let g := beamBase / 8; memWord up (.beamSram 0) 0 = some g ∧ eccOf up g = 0 ∧ eccOf { up with ecc := [(g, 1)] } g = 1 ∧ Tab.sorted [(g, 1#2)] = true ∧
      eccOf { up with ecc := [(g, 2)] } g = 2) ∧
    (let s := { up with tb := 86400000000000 }; s.polisher.since + ent s 0x2400 1 * 1000000 ≤ s.tb) ∧
    (let s := setEnt { up with tb := 10 ^ 12 } 0x2400 2 1; mayLend s 3 1 = true ∧ (getBank s 3 1).nextWin < 1024 ∧ s.ecc = [] ∧ Mem.wf s.mem = true ∧ (getBank s 3 1).remap.length < 16) ∧
    (let s := after (.loanStart 3 1) (setEnt { up with tb := 10 ^ 12 } 0x2400 2 1);
      (getBank s 3 1).loan.any (fun l => decide (l.shadow.length = 32) && l.shadow.all fun x => decide (x.2 = 0)) = true ∧ s.ecc = [] ∧ Mem.wf s.mem = true) ∧
    (let s : State := { up with power := { up.power with stage := 5 } }; s.power.stage = 5 ∧ Mem.wf s.mem = true) := by decide +kernel

/-- Core 5's watchdog of 10 with its first expiry taken or not, long due. -/
def wdog (first : Bool) (s : State) : State :=
  { core 5 (fun k => { k with e := { k.e with wdPeriod := 10, wdStart := 0, wdFirst := first } }) s with tb := 10 ^ 9 }

/-- SKSEL of core 5. -/
def sel (c : Nat) (s : State) : State := core 5 (fun k => { k with e := { k.e with sksel := BitVec.ofNat 12 c } }) s

/-- Sources delivered with their route off, on, and on while pending; a first expiry; the kinds of socket; a warden's PERIOD 0 with KICK and without. -/
theorem witness_EventsWatchdogAndWindow :
    (let s := { r5 with router := { raised := [741], pending := [] } };
      corePresent s 5 = true ∧ s.router.raised.contains 741 = true ∧ neverPending s 741 = false ∧ routeEn (routeOf s 741) = false) ∧
    (let s := { event 741 (5 + 3 * 256 + 2048) r5 with router := { raised := [741], pending := [741] } };
      s.router.raised.contains 741 = true ∧ neverPending s 741 = false ∧ routeEn (routeOf s 741) = true ∧ 741 ∉ ([] : List Nat) ∧
        741 ∈ s.router.pending ∧ targetCore s 741 = some 5) ∧
    (wdDue (wdog false r5) (getCore (wdog false r5) 5) = true ∧ (getCore (wdog false r5) 5).e.wdFirst = false) ∧
    (windowCode (sel 0x200 r5) ((getCore (sel 0x200 r5) 5).e.sksel.toNat) = .operand ∧
      windowCode (sel 0xFFF r5) ((getCore (sel 0xFFF r5) 5).e.sksel.toNat) = .none) ∧
    (let s := sel 0x233 (after (.divQuo 5 100) r5); windowCode s 0x233 = .result ∧ windowBusy (getCore s 5) 0x233 = true) ∧
    (windowCode (sel 0x233 r5) 0x233 = .result ∧ skvalBusy 5 (getCore r5 5) 0x233 = false ∧ windowCode (sel 0x272 r5) 0x272 = .operand) ∧
    (isWarden 129 = true ∧ (0x00000#32).getLsbD 16 = false ∧ (0x10000#32).getLsbD 16 = true) := by decide +kernel

/-- Core 5 with its cluster running. -/
def mates (s : State) : State := runs 6 (runs 7 (runs 4 (runs 5 s)))

/-- Core 5 stopped, with a history of faults, an image's release kept. -/
def stopped (h : List Nat) : State :=
  core 5 (fun k => { k with i := { k.i with run := .stopped }, st := { k.st with decide := true, history := h, reason := 2, release := some { aps := [(0, { base := 0, limit := 0xFFFF, rights := 0x2C })], inst := 5, ncores := 128, pc := 0x100, pair := true } } })
    { mates up with tb := 10 ^ 15, img := { up.img with force := 0 } }

/-- A running core, its second expiry, the third fault exactly a day after the first and a nanosecond later, and retired with a mate. -/
theorem witness_CoreFaultsStopRestartAndRetire :
    (let s := wdog true (mates up); let k := getCore s 5;
      5 < nCores s ∧ k.u.beam = none ∧ (∀ e ∈ s.beams, ¬ (e.2.locked = true ∧ e.2.locker.toNat = 5)) ∧ ownMerges s 5 = [] ∧ k.i.run = .running ∧
        wdDue s k = true ∧ k.e.wdFirst = true ∧ (∀ j, j < 4 → (getBank s 1 j).merge = [] ∧ (getBank s 1 j).loan = none) ∧ k.i.run ≠ .retired ∧
        coreServes s 6 = true) ∧
    (∀ d ∈ [0, 1], let s := stopped [10 ^ 15, 10 ^ 15 - 1, 10 ^ 15 - 86400000000000 - d]; let k := getCore s 5;
      k.u.beam = none ∧ (∀ e ∈ s.beams, ¬ (e.2.locked = true ∧ e.2.locker.toNat = 5)) ∧ ownMerges s 5 = [] ∧
        (∀ j, j < 4 → (getBank s 1 j).merge = [] ∧ (getBank s 1 j).loan = none) ∧ k.st.decide = true ∧ k.i.run = .stopped ∧ s.active ≠ none ∧
        (decide (10 ^ 15 ≤ k.st.history.getD 2 0 + 86400000000000) = decide (d = 0)) ∧ k.st.request = false ∧ k.st.release.isSome = true ∧ s.img.force ≤ 1 ∧
        coreServes s 6 = true) ∧
    (let s := core 5 (fun k => { k with i := { k.i with first := true, fault := some { cause := 1, slot := 0, second := false, sw := 0, bad := none, epc := 0, rep := none } } }) (wdog true (mates up));
      (getCore s 5).i.run = .running ∧ (getCore s 5).i.first = true ∧ (getCore s 5).i.fault.isSome = true) ∧
    (let s := core 5 (fun k => { k with i := { k.i with run := .retired } }) up; (getCore s 5).i.run = .retired) := by decide +kernel

/-- The retired facet 9, and facet 9 in service, named by both tests. -/
def facet9 (retired : Bool) : State := modFacet (setEnt (setEnt up 0x9001 1 9) 0x9004 1 9) 9 fun f => { f with retired }

/-- A test of facet 9 begun at 0. -/
def prbs (obj : Nat) : State := { setEnt (setEnt (facet9 true) obj 3 5) obj 4 7 with prbs := some { obj, facet := 9, since := 0 }, tb := 10 ^ 10 }

/-- Each warden's fault, with the third a day after the first and a nanosecond later; each test's start and end; a retired core, a retired warden, a failed channel. -/
theorem witness_WardenFaultsAndRequalification :
    (∀ d ∈ [0, 1], ∀ a ∈ [128, 129], let s := core 128 (fun k => { k with st := { k.st with history := [10 ^ 15 - 1, 10 ^ 15 - 86400000000000 - d] } }) { runs 128 (runs 129 up) with tb := 10 ^ 15, active := some a }; let k := getCore s 128;
      k.u.beam = none ∧ (∀ e ∈ s.beams, ¬ (e.2.locked = true ∧ e.2.locker.toNat = 128)) ∧ ownMerges s 128 = [] ∧ s.img.stage = 0 ∧ s.edp.jobs = [] ∧
        k.i.run = .running ∧ s.active = some a ∧ (getCore s 129).i.run ≠ .retired) ∧
    (let s := core 128 (fun k => { k with st := { k.st with history := [10 ^ 15 - 1, 10 ^ 15 - 2] } }) (core 129 (fun k => { k with i := { k.i with run := .retired } }) { runs 128 up with tb := 10 ^ 15, active := some 128 });
      (getCore s 128).i.run = .running ∧ (getCore s 129).i.run = .retired ∧ s.active = some 128) ∧ (getFacet (prbs 0x9001) 9).pendTab = none ∧
    (∀ x ∈ [(0x9001, true), (0x9004, false)], let s := facet9 x.2;
      s.prbs = none ∧ ent s x.1 1 < nFacets s ∧ (getFacet s (ent s x.1 1)).retired = x.2 ∧ ent s (0x3000 + 9) 2 = 0) ∧
    (∀ obj ∈ [0x9001, 0x9004], let s := prbs obj;
      s.prbs = some { obj, facet := 9, since := 0 } ∧ 0 + ent s obj 3 * 1000000 ≤ s.tb ∧ 0 + 10000000 ≤ s.tb ∧ ¬ ent s obj 4 < 7 ∧ ent s obj 4 < 8) ∧
    (∀ n ∈ [5, 129], let s := setEnt (core n (fun k => { k with i := { k.i with run := .retired } }) up) 0x9002 1 n;
      ent s 0x9002 2 ≠ 1 ∧ ent s 0x9002 1 = n ∧ corePresent s n = true ∧ (getCore s n).i.run = .retired ∧ s.active ≠ some n) ∧
    (let s := setEnt (setChan up 3 { getChan up 3 with istat := 0x7FF }) 0x9003 1 3;
      ent s 0x9003 2 ≠ 1 ∧ ent s 0x9003 1 = 3 ∧ 3 < nChans s ∧ (getChan s 3).istat.getLsbD 10 = true) := by decide +kernel

/-! ### Witnesses: dictionary, fabric, reflexes, facet configuration and training -/

/-- The full profile and a reduced one, keys of the right length and a wrong one; the gate before and after its fuse. -/
theorem witness_KeysGateAndHistoryWrites :
    (up.part.full = true ∧ (List.replicate 32 (7 : Byte)).length = 32 ∧ (List.replicate 31 (7 : Byte)).length ≠ 32 ∧
      { up.part with full := false }.full = false) ∧
    (up.power.loaded.getLsbD 256 = false ∧ (1#257 <<< 256).getLsbD 256 = true) := by decide +kernel

/-- A valid beam context 5, selected; a poisoned one. -/
def beam5 (x : BeamCtx) : State := setEnt (setBeam up 5 x) 0x6001 0 5

theorem witness_BeamTableWindow :
    let x : BeamCtx := { BeamCtx.free with valid := true, relay := true, owner := 5, version := 0xFFFF, rxseq := 7 }
    (5 < nBeams (beam5 x) ∧ (getBeam (beam5 x) 5).valid = true ∧ (beam5 x).ecc = [] ∧ ent (beam5 x) 0x6001 0 = 5) ∧
    (getBeam (beam5 BeamCtx.free) 5).valid = false ∧
    (let s := { beam5 { x with poison := true } with ecc := [((0x04000000 + 64 * 5) / 8 + 7, 3)] };
      (getBeam s 5).poison = true ∧ eccOf s ((0x04000000 + 64 * 5) / 8 + 15 / 2) = 3) ∧ nBeams up ≤ 65536 := by decide +kernel

/-- Core 5's EVOVF stored to and loaded from; the dictionary's orders. -/
theorem witness_DeviceRegisterAccesses :
    let o := 0x10000000 + 5 * 0x1000 + 0x10C
    (let s := core 5 (fun k => { k with u := { k.u with stores := [{ entry (o / 8) 0xF0 with kind := .device }] } }) r5; let k := getCore s 5;
      5 < nCores s ∧ k.u.stores = [{ entry (o / 8) 0xF0 with kind := .device }] ∧ storeBlocked s 5 { entry (o / 8) 0xF0 with kind := .device } = false ∧
        8 * (entry (o / 8) 0xF0).word + 4 = o) ∧
    (let l : Load := { trig := 0, addr := BitVec.ofNat 32 o, size := 4, sext := false, kind := .device, xchg := none, snap := 0, late := 0, bare := false, data := none, deliv := false, outst := true, toFrame := none };
      let s := core 5 (fun k => { k with u := { k.u with loads := [l] } }) r5; (getCore s 5).u.stores = [] ∧ (getCore s 5).u.loads = [l]) ∧
    (indexKnown 0x1234 = false ∧ (indexKnown 0x1103 = true ∧ indexAbsent up 0x1103 = false ∧ subAbsent up 0x1103 1 = false) ∧
      entInfo 0x1103 9 = none ∧ (entInfo 0x1103 1).any (fun e => decide (e.acc = .rw ∨ e.acc = .rws) && decide (tySize e.ty = 2)) = true ∧
      (entInfo 0x1000 0).any (fun e => decide (e.acc = .const ∨ e.acc = .ro)) = true) ∧
    (leOctets 2 0).length = 2 ∧ ofLe (leOctets 2 0) = 0 ∧ 10 ≤ ofLe (leOctets 2 10) ∧ ofLe (leOctets 2 10000) ≤ 10000 := by decide +kernel

/-- A packet at the head of a hop's queue. -/
def packet (hop vc : Nat) (r : List Nat) (b : PktBody) : State := setHopQueue up hop vc [{ kind := .relay, flits := 2, route := r, poison := false, body := b }]

/-- A packet that goes on, one not served behind a full queue, one behind a VC0 packet from another input, and two that have arrived. -/
theorem witness_FabricCarriesPackets :
    (let s := packet 5 1 [6] (.toWarden 9 []);
      (hopQueue s 5 1).head?.any (fun p => hopRoom s 1 p && servedNow s 5 1 p && decide (p.route = [6])) = true) ∧
    (let s := setHopQueue (packet 5 0 [6] (.toWarden 9 [])) 6 0 (List.replicate 64 { kind := .relay, flits := 2, route := [], poison := false, body := .toWarden 9 [] });
      (hopQueue s 5 0).head?.any (fun p => !hopRoom s 0 p) = true) ∧
    (let p : Packet := { kind := .management, flits := 2, route := [32], poison := false, body := .toWarden 9 [] };
      let s := setHopQueue (packet 97 1 [32] (.toWarden 9 [])) 130 0 [p];
      (hopQueue s 97 1).head?.any (fun x => outputOf 130 p == outputOf 97 x && hopRoom s 1 x) = true ∧ hopQueue s 130 0 = [p] ∧ hopRoom s 0 p = true ∧ nextServed s 32 = some (130, 0)) ∧
    (let s := packet 70 1 [] (.toWarden 9 [1]); (hopQueue s 70 1).head?.any (fun p => hopRoom s 1 p && servedNow s 70 1 p && !p.poison) = true) ∧
    (let s := packet 70 1 [] (.done 5 3 { cookie := 7, result := 4 });
      (hopQueue s 70 1).head?.any (fun p => hopRoom s 1 p && servedNow s 70 1 p && !p.poison) = true) := by decide +kernel

/-- Core 5 about to post to facet `d`; its descriptor 3 unanswered for 10000 ns; its copy waiting as long. -/
theorem witness_RemoteTransmitAndPreQueues :
    (∀ d ∈ [9, 255], let s := core 5 (fun k => { k with q := { k.q with rtxdest := BitVec.ofNat 8 d } }) (runs 5 up);
      corePresent s 5 = true ∧ (getCore s 5).q.rtxdest.toNat = d) ∧
    (255 < nFacets up ∧ 255 / 8 ≠ 5 / 4 ∧ nFacets { up with part := { up.part with lv256 := false } } ≤ 255) ∧ (getCore r5 5).q.rtxdone = [] ∧
    (let o : RtxOut := { id := 3, cookie := 9, since := 0, answered := false };
      let s := { core 5 (fun k => { k with q := { k.q with rtxOut := [{ o with since := 1 }, o] } }) r5 with tb := 10000 };
      (getCore s 5).q.rtxOut = [{ o with since := 1 }] ++ o :: [] ∧ (∀ x ∈ [{ o with since := 1 }], x.answered = true ∨ s.tb < x.since + 10000) ∧
        o.since + 10000 ≤ s.tb ∧ s.ecc = []) ∧
    (let s := { cpy .move 0 0 1 false 1 r5 with tb := 10000 };
      (getCore s 5).u.copy.any (fun o => decide (o.remote = 1 ∧ o.park = none ∧ o.since + 10000 ≤ s.tb)) = true) ∧
    (∀ x ∈ [(3, true), (2, false)], let s := modFacet up 9 fun f => { f with preq := [[1, 2, 3], [4]], tokens := x.1 };
      let f := getFacet s 9; f.preq = [[1, 2, 3], [4]] ∧
        decide ((3 : Nat) ≤ min 2048 (f.tokens + (s.tb - f.lastFill) / 8) ∧ hopFlits s 1 0 + dataFlits 3 ≤ 128) = x.2) ∧
    (∀ x ∈ [(3, true), (2, false)], let s := setPort up 9 { frames := [[1, 2, 3], [4]], tokens := x.1, fill := up.tb }; let m := getPort s 9;
      (getFacet s 9).preq = [] ∧ m.frames = [[1, 2, 3], [4]] ∧
        decide ((3 : Nat) ≤ min 2048 (m.tokens + (s.tb - m.fill) / 8) ∧ hopFlits s (84 + quadOf 1) 0 + dataFlits 3 ≤ 128) = x.2) := by decide +kernel

/-- Core 5 posts to facet 9 of its own cluster: a frame the check takes, one it refuses, a facet that is retired with no standby. -/
theorem witness_RemoteTransmitAndPreQueues_local :
    ∀ x ∈ [(64, false, true), (11, false, false), (64, true, true)],
      let s := core 5 (fun k => { k with q := { k.q with rtxdest := 9, rtxa := 0x140000, rtxl := BitVec.ofNat 32 x.1 } }) (modFacet (runs 5 up) 9 fun f => { f with retired := x.2.1 });
      corePresent s 5 = true ∧ 9 < nFacets s ∧ 9 / 8 = 5 / 4 ∧ (getFacet s 9).retired = x.2.1 ∧ (getFacet s 9).deputy = none ∧
        (postCheck s 9 5 (getCore s 5).q.rtxa (getCore s 5).q.rtxl 0).isNone = x.2.2 := by decide +kernel

/-- A reflex body of the octets of file 14, its code included. -/
def body (op target ctr rest : Nat) : Octets :=
  let b := leOctets 1 1 ++ leOctets 1 op ++ leOctets 2 target ++ leOctets 4 rest ++ leOctets 8 ctr
  b ++ (hmac (List.replicate 32 5) b).take 8

/-- Facet 9 with one reflex request, the last counter accepted 8. -/
def asked (b : Octets) (key : Option Octets) : State :=
  { modFacet up 9 fun f => { f with rfx := [{ body := b, shape := true, time := 0, key := key, beamLink := true, head := [] }] } with
    rfx := { up.rfx with ctr := 8 }, tb := 640 }

/-- The code of `body` is the one the check computes. -/
theorem body_code (op target ctr rest : Nat) :
    ((body op target ctr rest).drop 16).take 8 = (hmac (List.replicate 32 5) ((body op target ctr rest).take 16)).take 8 := by
  simp [body, leOctets]

/-- No key; counter 8 again; an operation of 4; targets beyond the part; the last clusters, own and other. -/
theorem witness_ReflexRequestsAreChecked :
    (asked [] none).tb = 0 + 640 ∧ (rfxCtr (body 3 1 8 0) ≤ 8 ∧ 8 < rfxCtr (body 3 1 9 0)) ∧
    (¬ rfxOp (body 4 1 9 0) ≤ 3 ∧ ¬ 1 ≤ rfxOp (body 0 1 9 0) ∧ zeroOctets (body 3 1 9 0x100) 5 3 = false) ∧
    (let v := body 3 (nClusters up - 1) 9 0; 1 ≤ rfxOp v ∧ rfxOp v = 3 ∧ zeroOctets v 5 3 = true ∧ rfxTarget v < nClusters up ∧ rfxTarget v ≠ 9 / 8) ∧
    (rfxTarget (body 3 1 9 0) = 9 / 8) ∧ ¬ rfxTarget (body 3 (nClusters up) 9 0) < nClusters up ∧ ¬ rfxTarget (body 1 (nFacets up) 9 0) < nFacets up := by decide +kernel

/-- A reflex action waiting. -/
def acting (op t f : Nat) (s : State) : State :=
  { s with rfx := { s.rfx with acts := [{ op, target := t, facet := f, req := { body := [], shape := true, time := 0, key := none, beamLink := true, head := [] } }] } }

theorem witness_ReflexActionsTakeEffect :
    (let s := acting 1 4 3 up; let f := getFacet s 4;
      (rfxWaiting s 1 4).any (fun a => decide (a.facet ≠ 4)) = true ∧ f.look = none ∧ f.lane = none ∧ f.back = none ∧ f.await = [] ∧ f.retry = [] ∧ f.retired = false) ∧
    (let s := acting 2 65535 3 up; (rfxWaiting s 2 65535).isSome = true ∧ s.ecc = []) ∧
    (let held := fun s => setCluster s 1 { getCluster s 1 with quiesced := true };
      (rfxWaiting (acting 3 1 9 up) 3 1).isSome = true ∧ allStopped (held (acting 3 1 9 up)) 1 = true ∧
        allStopped (held (acting 3 1 9 (core 5 (fun k => { k with i := { k.i with delay := some none } }) (mates up)))) 1 = false ∧ (getCluster (held up) 1).quiesced = true) ∧
    (0 < nFacets up ∧ 0 < nBeams up ∧ 0 < nClusters up ∧ (getCluster up 0).quiesced = false ∧ nFacets up ≤ 255 + 1) := by decide +kernel

/-! ### Witnesses: links and frames -/

/-- Facet 9 in a state, with a mode and a role. -/
def link (st mode role : Nat) (f : Facet → Facet) : State :=
  modFacet (setEnt (setEnt up 0x3009 1 mode) 0x3009 2 role) 9 fun g => f { g with state := st }

/-- An exposure table of no slots (file 10): cycle, margin, phase, activation. -/
def table (cyc act : Nat) : Octets :=
  leOctets 2 1 ++ leOctets 2 0 ++ leOctets 4 cyc ++ leOctets 4 1000 ++ leOctets 4 0 ++ leOctets 4 0 ++ leOctets 4 act ++ leOctets 2 500 ++ leOctets 2 0 ++ leOctets 4 0

/-- Facets 8 and 9 as a pair mirror. -/
def paired (st8 st9 : Nat) : State :=
  let g := fun (f : Facet) => { f with active := { f.active with cycle := 1000000, phase := 0 }, cyc := 0 }
  modFacet (setEnt (setEnt (link st9 3 5 g) 0x3008 1 3) 0x3008 2 5) 8 fun f => g { f with state := st8 }

/-- A part without facet 128; modes within and beyond the quadrant's rate; roles allowed and not; tables in each state, of a pair mirror too. -/
theorem witness_FacetConfigurationWrites :
    (nFacets { up with part := { up.part with lv256 := false } } ≤ 128 ∧ 9 < nFacets up) ∧
    (ent (link 0 3 0 id) (0x3000 + 9) 2 = 0 ∧ ent (link 0 3 2 id) (0x3000 + 9) 2 ≠ 0 ∧ sumRates (link 0 3 0 id) 9 5 ≤ 250000 ∧
      ¬ sumRates ((List.range 8).foldl (fun s i => setEnt s (0x3008 + i) 1 3) up) 9 3 ≤ 250000) ∧
    (1 ≤ ent (link 0 1 0 id) (0x3000 + 9) 1 ∧ ent (link 0 4 0 id) (0x3000 + 9) 1 = 4 ∧ pairRefused (setEnt (link 0 3 0 id) (0x3000 + pairOf 9) 2 4) 9 = true ∧ pairRefused (link 0 3 0 id) 9 = false ∧
      (let f := getFacet (link 0 3 0 id) 9; f.look = none ∧ f.lane = none ∧ f.back = none ∧ f.await = [] ∧ f.retry = [] ∧ f.retired = false ∧ f.deferred = [] ∧ f.pendTab = none)) ∧
    ((getFacet (link 5 3 0 fun f => { f with retired := true }) 9).retired = true ∧ pairOf 9 = 8) ∧
    (∀ st ∈ [1, 3], let s := paired st st; facetRole s 9 = 5 ∧ facetRole s (pairOf 9) = 5 ∧ (getFacet s 8).state = st ∧ (getFacet s 9).state = st ∧
      (getFacet s 8).deferred = [] ∧ (getFacet s 8).standsFor = none ∧ (getFacet s 8).pendTab = none ∧ pairReady s 9 = true ∧ pairRefused s 9 = false ∧
      (parseExpo (table 1000000 2)).any (fun x => expoGood s 9 x && decide (x.cycle = (getFacet s 9).active.cycle ∧ x.phase = (getFacet s 9).active.phase ∧ actAhead x.act (getFacet s 9).cyc = true)) = true) ∧
    ((parseExpo (table 1000000 2)).any (fun x => expoGood (link 4 3 2 id) 9 x) = true ∧ (getFacet (link 4 3 2 id) 9).state = 4) ∧
    (parseExpo (leOctets 3 1) = none ∧ (parseExpo (table 10 2)).any (fun x => !expoGood up 9 x) = true ∧
      (parseExpo (table 1000000 2)).any (fun x => expoGood (link 3 3 2 id) 9 x) = true) ∧
    (let s := link 3 3 2 fun f => { f with active := { f.active with cycle := 1000000, phase := 0 }, cyc := 0 }; let f := getFacet s 9;
      f.deputy = none ∧ f.standsFor = none ∧ f.state = 3 ∧ (parseExpo (table 1000000 2)).any (fun x => expoGood s 9 x &&
        decide (x.cycle = f.active.cycle ∧ x.phase = f.active.phase ∧ actAhead x.act f.cyc = true)) = true ∧
        (parseExpo (table 2000000 2)).any (fun x => expoGood s 9 x && decide (x.cycle ≠ f.active.cycle)) = true) ∧
    (let f := getFacet (link 1 3 2 id) 9; f.state = 1 ∧ f.deferred = [] ∧ f.deputy = none ∧ f.standsFor = none) := by decide +kernel

/-- Training counters changed. -/
def trained (g : Training → Training) (f : Facet) : Facet := { f with train := g f.train }

/-- A head and a tail in training, with 14 and 15 echoes and a gap that fits and one that does not; SYNC and RUN; a reload; time-outs. -/
theorem witness_FacetTrainingAndSync :
    (let s := link 1 3 2 id; let f := getFacet s 9;
      mayTrain s 9 = true ∧ isHead s 9 = true ∧ facetRole s 9 ≠ 6 ∧ f.train.start + f.train.probes * 1000 ≤ s.tb ∧ f.train.echoes < 15 ∧ f.state = 1 ∧
        9 < nFacets s ∧ isEther s 9 = false ∧ f.retired = false ∧ f.signal = true ∧ ballsDriven s = false) ∧
    (∀ x ∈ [(263, false), (264, true)], let s := link 1 3 2 fun f => trained (fun t => { t with echoes := 15, sum := 3136 }) { f with active := { f.active with revgap := x.1 } };
      mayTrain s 9 = true ∧ (getFacet s 9).train.echoes = 15 ∧ decide (2 * ((3136 + (128 - 0 - 64) + 31) / 32) + 64 ≤ (getFacet s 9).active.revgap) = x.2) ∧
    (mayTrain (link 1 3 3 id) 9 = true ∧ isTail (link 1 3 3 id) 9 = true ∧ facetRole (link 1 3 3 id) 9 ≠ 6 ∧ samePos (link 1 3 3 id) 9 0 = false) ∧
    (let s := { link 1 3 6 id with chain := some 4 }; mayTrain s 9 = true ∧ isTail s 9 = true ∧ facetRole s 9 = 6 ∧ s.chain ≠ some 3 ∧ s.chain = some 4) ∧
    (∀ a ∈ [0, 5], let f := getFacet (link 1 3 2 fun f => { f with pendTab := some { f.active with act := a } }) 9; f.deferred = [] ∧ f.standsFor = none ∧
      (f.pendTab.filter fun x => actReached x (cycleNo f.active 0)).isSome = decide (a = 0)) ∧
    (∀ x ∈ [(0, none), (1, some 0), (1, some (2 ^ 32 - 1))], let s := link 2 3 3 (trained fun t => { t with good := x.1, lastCyc := x.2 }); let f := getFacet s 9;
      (timeSource s ≠ 3 ∨ facetRole s 9 ≠ 6) ∧ f.state = 2 ∧ decide (2 ≤ goodInRow f.train 0) = decide (x.2 = some (2 ^ 32 - 1)) ∧ cycGood f.active f.train.delay 0 (f.active.phase + f.train.delay) = true ∧
        cycGood f.active f.train.delay 0 (f.active.phase + f.train.delay + 1000) = false) ∧
    (let f := getFacet (link 3 3 3 id) 9; f.state = 3 ∧ f.standsFor = none ∧ f.look = none ∧ f.lane = none ∧ f.back = none ∧ f.await = [] ∧ f.retry = [] ∧ f.signal = true ∧ isMirror (link 3 3 3 id) 9 = false ∧ isMirror (link 3 3 4 id) 9 = true) ∧
    (negotiates (setEnt (link 1 4 1 id) 0x3009 5 0) 9 = false ∧ negotiates (link 1 4 1 id) 9 = true ∧ (getFacet (link 1 4 1 id) 9).retired = false) ∧
    (isEther (link 1 4 1 id) 9 = true ∧ (getFacet (link 1 4 1 id) 9).state = 1 ∧ (getFacet (link 1 4 1 id) 9).signal = true) ∧
    (let f := getFacet (link 0 3 2 fun f => { f with reload := true }) 9; f.reload = true ∧ ∀ e ∈ f.bufs, e.2 = .free) ∧
    (∀ x ∈ [(false, 0, 0), (true, 3, 0), (true, 4, 10)], let s := { link 4 3 2 (trained fun t => { t with reached := x.1, fails := x.2.1, holdTo := x.2.2, start := 0 }) with tb := 10000000 }; let f := getFacet s 9;
      f.state = 4 ∧ f.train.start + 10000000 ≤ s.tb ∧ f.train.holdTo ≤ s.tb) := by decide +kernel

/-- A relay link's head with 15 echoes, and a tail that disciplines the timebase. -/
theorem witness_FacetTrainingAndSync_relay :
    (let s := { link 1 3 6 (trained fun t => { t with peer := 9#8, echoes := 15 }) with chain := some 4 }; mayTrain s 9 = true ∧ isHead s 9 = true ∧ s.chain = some 4) ∧
    (let s := { setEnt (link 3 3 6 (trained fun t => { t with peer := 2#8 })) 0x2200 4 3 with chain := some 4 }; timeSource s = 3 ∧ facetRole s 9 = 6 ∧ relayTail s 9 = true ∧
      (getFacet s 9).train.peer ≠ 0xFF#8 ∧ (getFacet s 9).state = 3) := by decide +kernel

/-- Windows of good and bad seconds, the third bad one, a lost signal and five failed trainings. -/
theorem witness_FacetErrorWindowsAndRetirement :
    let s := fun (st : Nat) (g : Facet → Facet) => { setEnt (setEnt (link st 3 3 fun f => g (trained (fun t => { t with reached := true }) f)) 0x3009 0xB 7) 0x3009 0xA 0xFFFF with tb := 3 * 10 ^ 9 + 5 }
    (∀ x ∈ [(8, 0, 3), (7, 1, 2), (8, 1, 2), (8, 2, 2)], let s := s 3 fun f => { f with winErrs := x.1, winBad := x.2.1, winSec := x.2.2 }; let f := getFacet s 9;
      s.tb / 1000000000 = 3 ∧ f.winErrs = x.1 ∧ f.winSec = x.2.2 ∧ ent s (0x3000 + 9) 0x0B = 7 ∧ ent s (0x3000 + 9) 0x0A = 0xFFFF ∧ f.train.reached = true ∧ f.stopped = false ∧ f.ftctl = 0 ∧
        f.look = none ∧ f.lane = none ∧ f.back = none ∧ f.await = [] ∧ f.retry = [] ∧ f.deferred = [] ∧ f.queue = [] ∧ f.standsFor = none ∧
        (∀ i, i < 8 → (getFacet s (8 + i)).deputy ≠ some 9)) ∧
    (let s := s 3 fun f => { f with lostAt := some (2 * 10 ^ 9 + 990000004) };
      (getFacet s 9).lostAt = some (2 * 10 ^ 9 + 990000004) ∧ 2 * 10 ^ 9 + 990000004 + 10000000 < s.tb) ∧
    (let f := getFacet (s 4 (trained fun t => { t with fails := 4 })) 9; f.state = 4 ∧ f.train.holdTo = 0 ∧ f.train.start + 10000000 ≤ 3 * 10 ^ 9 + 5 ∧ 4 ≤ f.train.fails) := by
  decide +kernel

/-- Ten slots; slot 9 is a latest slot, slot 2 is answered in slot 3. -/
def expo : Expo :=
  { Expo.dflt with cycle := 31250, margin := 4000, phase := 0, revgap := 200, slots := (List.range 10).map fun i => { start := 1000 * i + 100, dir := i % 2, latest := i == 9, cls := 0, dur := 500, chan := 0, rev := if i = 2 then 3 else 0x1FF, ackroom := if i = 3 then 8 else 0 } }

/-- A descriptor of staging 0. -/
def desc (id slot len tries : Nat) : TxDesc :=
  { id, face := 9, got := 4096, poster := .staging 0, addr := bankBase 1 0, len, slot, tsreq := false, onestep := false, tag := none, cookie := id, held := false, defers := 0, tries, sent := true, cyc := 0, seq := id }

/-- Facet 9 in RUN under `expo`, at a time of cycle 0. -/
def running (role tb : Nat) (g : Facet → Facet) : State :=
  { setEnt (link 3 3 role fun f => g { f with active := expo, cyc := 0, train := { f.train with delay := 50, reached := true, seen := true } }) 0x3009 9 3 with tb }

/-- The next cycle with a CYC seen and not, and with a retry; the preparation instant; RETRAIN; a slot empty and filled, a mirror's tail slot; unscheduled frames; the last retry instant. -/
theorem witness_ScheduleStartsFrames :
    (∀ x ∈ [(true, 0, []), (false, 0, []), (false, 1, []), (true, 0, [desc 1 5 112 1])], let s := running 2 31250 fun f => trained (fun t => { t with seen := x.1, missed := x.2.1 }) { f with retry := x.2.2 }; let f := getFacet s 9;
      f.state = 3 ∧ f.active.phase + (f.cyc + 1) * f.active.cycle ≤ s.tb ∧ f.lane = none ∧ f.back = none ∧ f.await = [] ∧ f.pendTab = none ∧ f.deputy = none ∧ f.standsFor = none ∧
        charge s 9 = none ∧ isEther s 9 = false ∧ f.look = none ∧ f.retry = x.2.2 ∧ 0 < ent s (0x3000 + 9) 9) ∧
    (∀ st ∈ [2, 4], let f := getFacet (running 2 31250 fun f => { f with state := st, train := { f.train with seen := false } }) 9; f.state = st ∧ f.train.seen = false ∧ f.pendTab = none) ∧
    (let s := running 2 31000 fun f => { f with active := { expo with lead := 250 } }; let f := getFacet s 9;
      f.prep ≠ f.cyc + 1 ∧ f.active.phase + (f.cyc + 1) * f.active.cycle ≤ s.tb + f.active.lead) ∧
    (∀ q ∈ [[], [desc 7 2 100 0, desc 8 2 100 0]], let s := running 2 2100 fun f => { f with queue := q }; let f := getFacet s 9;
      (slotAt f.active 2).any (fun e => ownDir s 9 e.dir && !e.latest && decide (e.start ≤ 2100 ∧ 2100 < e.start + e.dur ∧
        (5 * (acksFor f 2).length + laneChars s 9 100) * charTime (ent s (0x3000 + 9) 1) ≤ 10 * e.dur)) = true ∧
        2 ∉ f.opened ∧ f.lane = none ∧ (getCluster s 1).quiesced = false ∧ f.deferred = [] ∧ (f.queue.filter fun d => d.slot == 2 && eligible d) = q) ∧
    (let s := running 4 3100 fun f => { f with queue := [desc 7 3 100 0], lane := some { desc := desc 9 2 100 0, margin := false, start := 0, stop := 9000, octets := [] } }; let f := getFacet s 9;
      (slotAt f.active 3).any (fun e => ownDir s 9 e.dir && decide (facetRole s 9 = 4 ∧ e.dir = 1)) = true ∧ f.back = none) ∧
    (let s := running 2 10000 fun f => { f with answers := [List.replicate 30 1] }; (getFacet s 9).answers = [List.replicate 30 1] ∧ fitsNow s 9 30 = true ∧ (getFacet s 9).gapTo ≤ 10 * s.tb) ∧
    (∀ x ∈ [(10000, true), (8000, false)], let s := running 2 x.1 fun f => { f with queue := [desc 3 0x1FF 100 0] }; let f := getFacet s 9;
      f.answers = [] ∧ (f.queue.filter fun d => d.slot == 0x1FF && eligible d) = [desc 3 0x1FF 100 0] ∧ everFits s 9 100 = true ∧ fitsNow s 9 100 = x.2) ∧
    (let s := running 2 27250 fun f => { f with retry := [desc 1 5 100 3, desc 4 5 100 2] }; let f := getFacet s 9;
      f.retry = [desc 1 5 100 3] ++ desc 4 5 100 2 :: [] ∧ dataReady (desc 4 5 100 2) = true ∧ f.active.cycle - f.active.margin ≤ s.tb - (f.active.phase + f.cyc * f.active.cycle) ∧
        10 * s.tb + laneChars s 9 100 * charTime (ent s (0x3000 + 9) 1) + (20 * f.train.delay + 8 * charTime (ent s (0x3000 + 9) 1) + 400) ≤
          10 * (f.active.phase + (f.cyc + 1) * f.active.cycle)) := by decide +kernel

/-- A slot of a quiesced cluster; a deferred frame and one too long for the slot; a latest slot with two frames; a frame that fits no interval; slots not due. -/
theorem witness_ScheduleStartsFrames_more :
    (let s := modCluster (running 2 2100 id) 1 fun v => { v with quiesced := true }; let f := getFacet s 9;
      (getCluster s 1).quiesced = true ∧ f.state = 3 ∧ 2 ∉ f.opened ∧ f.lane = none ∧ f.answers = [] ∧
        (slotAt f.active 2).any (fun e => ownDir s 9 e.dir && decide (e.start ≤ 2100 ∧ 2100 < e.start + e.dur)) = true) ∧
    (let s := running 2 2100 fun f => { f with deferred := [desc 7 2 100 0] }; let f := getFacet s 9;
      (f.deferred.filter fun d => d.slot == 2 && dataReady d) = [desc 7 2 100 0] ∧ (getCluster s 1).quiesced = false ∧
        (slotAt f.active 2).any (fun e => !e.latest && decide ((5 * (acksFor f 2).length + laneChars s 9 100) * charTime (ent s (0x3000 + 9) 1) ≤ 10 * e.dur)) = true) ∧
    (let s := running 2 2100 fun f => { f with queue := [desc 7 2 400 0] }; let f := getFacet s 9;
      (f.queue.filter fun d => d.slot == 2 && eligible d) = [desc 7 2 400 0] ∧ f.deferred = [] ∧
        (slotAt f.active 2).any (fun e => !e.latest && decide (10 * e.dur < (5 * (acksFor f 2).length + laneChars s 9 400) * charTime (ent s (0x3000 + 9) 1))) = true) ∧
    (let s := running 3 9100 fun f => { f with queue := [desc 7 9 100 0, desc 8 9 100 0] }; let f := getFacet s 9;
      (f.queue.filter fun d => d.slot == 9 && eligible d) = [desc 7 9 100 0] ++ [desc 8 9 100 0] ∧ f.lane = none ∧
        (slotAt f.active 9).any (fun e => ownDir s 9 e.dir && e.latest && decide (e.start ≤ 9100 ∧ 9100 < e.start + e.dur)) = true) ∧
    (let s := running 2 10000 fun f => { f with queue := [desc 3 0x1FF 12000 0] }; let f := getFacet s 9;
      f.answers = [] ∧ f.lane = none ∧ f.gapTo ≤ 10 * s.tb ∧ (f.queue.filter fun d => d.slot == 0x1FF && eligible d) = [desc 3 0x1FF 12000 0] ∧ everFits s 9 12000 = false) ∧
    (getFacet (running 2 31249 id) 9).active.phase + ((getFacet (running 2 31249 id) 9).cyc + 1) * (getFacet (running 2 31249 id) 9).active.cycle = 31250 := by decide +kernel

/-- A frame on the lane. -/
def lane (id slot : Nat) (margin : Bool) (p : Poster) : LaneTx := { desc := { desc id slot 100 1 with poster := p }, margin, start := 1000, stop := 50000, octets := [] }

/-- Posts refused, retired and taken; completions at the last instant, in an unanswered and an answered slot and in the margin; a word in error; acknowledgements at the deadline and past it. -/
theorem witness_FramesCompleteAndAreAcknowledged :
    (∀ x ∈ [(0x100000, 64, none), (0x100000, 11, some 1)], let s := running 2 100 fun f => { f with staging := [(0, { txa := BitVec.ofNat 32 x.1, txl := BitVec.ofNat 32 x.2.1, done := [] })] };
      let f := getFacet s 9; let st := stagingOf f 0; f.standsFor = none ∧ f.retired = false ∧ f.deputy = none ∧ (postCheck s 9 4 st.txa st.txl 0).isSome = x.2.2.isSome) ∧
    (getFacet (running 2 100 fun f => { f with retired := true }) 9).retired = true ∧
    (let b : BeamCtx := { BeamCtx.free with valid := true, locked := true, owner := 4, locker := 4 };
      let s := setBeam (running 2 100 fun f => { f with staging := [(0, { txa := 0x100000, txl := 64, done := [] })] }) 0x10 b; let st := stagingOf (getFacet s 9) 0;
      postCheck s 9 4 st.txa st.txl 0x10010 = none ∧ (0x10010#32).getLsbD 16 = true ∧ s.ecc = [] ∧
      postCheck (setBeam s 0x10 { b with heldtx := 64 }) 9 4 st.txa st.txl 0x10010 = some 6) ∧
    (∀ x ∈ [(5, false), (2, false), (2, true)], let s := running 2 5000 fun f => { f with lane := some (lane 1 x.1 x.2 (.staging 0)) }; let f := getFacet s 9;
      f.lane = some (lane 1 x.1 x.2 (.staging 0)) ∧ (lane 1 x.1 x.2 (.staging 0)).stop ≤ 10 * s.tb ∧ (portReadBytes (100 / 8 + 3) s (bankBase 1 0) 100).2.2 = false ∧
        (lane 1 x.1 x.2 (.staging 0)).desc.face = 9 ∧ (lane 1 x.1 x.2 (.staging 0)).stop ≤ 10 * (f.active.phase + (f.cyc + 1) * f.active.cycle) ∧ f.txts.length < 16) ∧
    (portReadBytes (100 / 8 + 3) { up with ecc := [(bankBase 1 0 / 8 + 3, 3)] } (bankBase 1 0) 100).2.2 = true ∧
    ((slotAt expo 5).any (fun e => decide (e.rev = 0x1FF)) = true ∧ (slotAt expo 2).any (fun e => (slotAt expo e.rev).isSome) = true) ∧
    (getFacet (running 2 5000 fun f => { f with lane := some (lane 1 0x1FF false .own) }) 9).lane = some (lane 1 0x1FF false .own) ∧
    (∀ tb ∈ [100, 101], let s := running 2 tb fun f => { f with await := [{ desc := desc 6 5 100 1, margin := false, deadline := 1000 }] }; let f := getFacet s 9;
      (f.await.find? fun a => a.desc.slot == 5 && a.desc.seq == 6).any (fun a => decide (a.desc.face = 9)) = true ∧ ((f.await.find? fun a => decide (a.deadline < 10 * s.tb)).isSome = decide (tb = 101))) ∧
    (stagingOf (getFacet (running 2 100 id) 9) 0).done = [] ∧ (getFacet (running 2 100 id) 9).txts = [] := by decide +kernel

/-! ### Witnesses: reception, timebase, calendar, channels -/

/-- Header words of a frame of 4 octets of payload, in slot 0x1FF. -/
def h0 : Word := 0x000701FF
def h1 : Word := 0x00040010

/-- The CRC of the frame. -/
def crc : Word := crc32c 0 (leOctets 4 h0.toNat ++ leOctets 4 h1.toNat ++ leOctets 4 0 ++ [1, 2, 3, 4])

/-- A context of core 5, its key that of the frame at facet 9. -/
def ctx : BeamCtx := { BeamCtx.free with valid := true, owner := 5, key := frameKey 9 (.beam h0 h1 0 [1, 2, 3, 4] 0) }

/-- Core 5's receive queue. -/
def rqueue (hd tl : Nat) (s : State) : State := core 5 (fun k => { k with q := { k.q with rqHead := hd, rqTail := tl, rqN := 16, rqBase := 3 } }) (runs 5 s)

/-- No context, the frame's context, and a management frame; a violation in a slot; a good frame; a queue full and not; a buffer freed and not; a queue at the end of the RAM and beyond. -/
theorem witness_FramesAreReceivedAndPosted :
    (let s := running 2 1100 id; s.ecc = [] ∧ Mem.wf s.mem = true ∧ (∀ c k, (getBank s c k).merge = [] ∧ (getBank s c k).loan = none) ∧ s.foster = [] ∧ (∀ e ∈ s.cores, e.2.u.copy = none)) ∧
    (let s := running 2 1100 id; let fr := Frame.beam h0 h1 0 [1, 2, 3, 4] crc; let k := frameKey 9 fr; let t := setBeam s ((beamWays k).getD 0 0) ctx;
      (getFacet s 9).state = 3 ∧ (getFacet s 9).look = none ∧ (getFacet s 9).standsFor = none ∧ classify s fr = .ordinary ∧
        classify s (.beam (h0 ||| 0x2000) h1 0 [1, 2, 3, 4] crc) ≠ .ordinary ∧ (beamSearch k (beamWays k) s none).2.1 = none ∧
        (beamSearch k (beamWays k) t none).2.1 = some ((beamWays k).getD 0 0) ∧ ctx.poison = false ∧ ctx.relay = false) ∧
    (let s := running 2 1100 id; isEther s 9 = false ∧ (getFacet s 9).retired = false ∧
      (let t := modFacet s 9 fun f => { f with active := { f.active with slots := f.active.slots.map fun e => { e with rev := 2 } } };
        (slotAt (getFacet t 9).active 1).any (fun e => rxDir t 9 e.dir && inWindow (getFacet t 9).active (getFacet t 9).train.delay e 1100 && decide (e.rev ≠ 0x1FF)) = true)) ∧
    (let s := setBeam (running 3 1100 fun f => { f with look := some (.found 3) }) 3 ctx;
      (match rxCheck s 9 h0 h1 0 [1, 2, 3, 4] crc 1100 false with | .good v => decide ((storedOctets (.beam h0 h1 0 [1, 2, 3, 4] crc) v).length ≤ 2048) | _ => false) = true ∧
        h0.getLsbD 12 = false ∧ (nextFree (getFacet s 9)).isSome = true ∧ field h0 0 9 = 0x1FF) ∧
    (∀ x ∈ [(15, 0, true), (15, 1, false)], let s := rqueue x.1 x.2.1 (setBeam up 3 ctx); let k := getCore s 5;
      (getBeam s 3).valid = true ∧ (getBeam s 3).owner.toNat = 5 ∧ coreServes s 5 = true ∧ decide (k.q.rqTail = (k.q.rqHead + 1) % k.q.rqN.toNat) = x.2.2) ∧
    (let f := getFacet (running 2 0 fun f => { f with bufs := [(5, .miss)] }) 9; Tab.get (fun _ => BufUse.free) 5 f.bufs = .miss ∧ f.posts = [] ∧
      Tab.get (fun _ => BufUse.free) 6 f.bufs ≠ .miss) ∧
    (0x4000 < field 0x3F10#32 4 10 * 16 + max 16 (field 0x3F10#32 16 8) * 16 ∧ field 0x3F00#32 4 10 * 16 + max 16 (field 0x3F00#32 16 8) * 16 ≤ 0x4000) :=
  ⟨⟨rfl, by decide +kernel, fun _ _ => ⟨rfl, rfl⟩, rfl, by decide +kernel⟩, by decide +kernel⟩

/-- Clock, calendar and time source changed. -/
def clocked (src tb : Nat) (f : Clock → Clock) (g : Calendar → Calendar) : State :=
  { setEnt (setEnt (modFacet (setEnt up 0x3004 2 1) 4 fun f => { f with state := 3 }) 0x2200 4 src) 0x2200 9 4 with clock := f up.clock, cal := g up.cal, tb }

/-- Links run and not; a measurement at each bound; locks that time out under both sources; an alarm at its time; an announcement. -/
theorem witness_TimebaseAndDiscipline :
    (linksRun up = false ∧ linksRun (running 2 0 id) = true) ∧
    (let s := clocked 1 0 id id; timeSource s = 1 ∧ ptpUp s 4 = true ∧ ptpFacet s = some 4 ∧ (-1000000 : Int) ≤ -1000000 ∧ (1000000 : Int) ≤ 1000000 ∧ ent s 0x2200 9 = 4) ∧
    (let s := setEnt (clocked 1 0 id id) 0x2200 9 0xFFFF; ptpUp s 4 = true ∧ ent s 0x2200 9 = 0xFFFF ∧ s.clock.announce = none ∧ 1000000 < (1000001 : Int).natAbs ∧ linksRun s = false ∧
      ptpFacet s ≠ some 5 ∧ s.clock.lock ≠ 2) ∧
    (let s := clocked 1 3000000000 (fun c => { c with lock := 2, lastMeas := 0 }) id; s.clock.lock = 2 ∧ timeSource s = 1 ∧ s.clock.lastMeas + 3000000000 ≤ s.tb) ∧
    (let s := { clocked 0 10000000 (fun c => { c with lock := 2, lastMeas := 0 }) id with chain := some 1 }; s.clock.lock = 2 ∧ timeSource s = 3 ∧ s.clock.lastMeas + 10000000 ≤ s.tb) ∧
    (let s := clocked 1 77 (fun c => { c with arm := 8, alm := [(3, 77)] }) id; s.clock.arm.testBit 3 = true ∧ Tab.get (fun _ => 0) 3 s.clock.alm ≤ s.tb) := by decide +kernel

/-- The last seconds of a day before each leap, the last of the range, an alarm; a write of the greatest value and beyond; the PTP bounds; each side of VBAT's bound. -/
theorem witness_CalendarAndBackupDomain :
    (∀ x ∈ [(86399, 1, false), (86398, 2, false), (6311433599, 0, false), (86399, 1, true)], let s := clocked 1 0 id fun c => { c with sec := x.1, leap := x.2.1, hold := x.2.2, armed := true, alm := 86400 };
      timeSource s ≠ 2 ∧ s.cal.leap = x.2.1 ∧ s.cal.sec = x.1 ∧ s.cal.hold = x.2.2 ∧ s.cal.armed = true) ∧
    (let v := 946684800 + 37 + 6311433599; let s := clocked 1 (v * 10 ^ 9) (fun c => { c with lock := 2, announce := some (4, { rank := 0, utcOffset := 37, leap61 := false, leap59 := false }) }) id;
      s.clock.lock = 2 ∧ s.active ≠ none ∧ s.clock.lastSet + 60000000000 ≤ s.tb ∧ ((s.tb / 1000000000 : Nat) : Int) - 37 - 946684800 = 6311433599 ∧ s.cal.armed = false ∧
        s.clock.lastTrim + 3600000000000 ≤ s.tb) ∧
    (let s := clocked 2 7 (fun c => { c with lock := 2 }) fun c => { c with sec := 9, armed := true, alm := 10, invalid := false }; timeSource s = 2 ∧ s.clock.lock = 2 ∧ s.cal.invalid = false ∧
      s.cal.sec + 1 = s.cal.alm ∧ s.cal.armed = true ∧ s.tb < s.cal.lastVbat + 10000000000 ∧ s.power.stage ≠ 3) ∧
    ({ up.power with stage := 3 }.stage ≤ 3) ∧
    (let s := clocked 1 0 id fun c => { c with oscstop := true, seen744 := false }; s.cal.oscstop = true ∧ s.cal.seen744 = false) ∧
    (let s := clocked 1 (10 ^ 10) id id; s.cal.lastVbat + 10000000000 ≤ s.tb ∧ 2199 < 2200) ∧
    (let s := clocked 1 0 id fun c => { c with oscstop := false }; s.cal.oscstop = false ∧ 3 < s.power.stage) ∧
    (let s := clocked 1 0 id fun c => { c with oscstop := true, seen744 := true }; s.cal.oscstop = true ∧ s.cal.seen744 = true) ∧
    ({ up.power with low := [.vio33] }.low.contains .vio33 = true ∧ up.power.low.contains .vio33 = false) := by decide +kernel

/-- Channel 3 changed, and entries of its configuration set. -/
def chan (tb : Nat) (l : List (Nat × Nat)) (f : Channel → Channel) : State := { modChan (l.foldl (fun s e => setEnt s 0x5003 e.1 e.2) up) 3 f with tb }

/-- A conversion due; a loop boundary in the loop, idle and SAFE; the DAC's instants, with the loop's value ready and not; open loop; checks that pass and fail. -/
theorem witness_ChannelLoopFollowsTheRules :
    (let s := chan 3000000550 [] id; let x := getChan s 3; 3 < nChans s ∧ x.lastConv < (s.tb - 50) / 500 ∧ boundaryWaits s 3 x = false ∧ x.failed = false ∧
      x.lastCheck < s.tb / 10000000 ∧ x.istat.toNat / 256 % 4 < 2) ∧
    (∀ y ∈ [(0, 1, true), (0, 0, true), (4, 1, false)], let s := chan 3000010050 [(2, 1), (3, y.2.1), (5, 10)] fun x => { x with lastConv := 6000020, convN := 7, convSum := -50, istat := y.1 }; let x := getChan s 3;
      x.lastLoop < s.tb / 10000 * 10000 ∧ s.tb / 10000 * 10000 ≤ x.lastConv * 500 ∧ x.convN ≠ 0 ∧ x.snaps = [] ∧ decide (x.failed = false ∧ x.safe = false) = y.2.2 ∧
        ent s (0x5000 + 3) 3 = y.2.1 ∧ x.restart = false ∧ max 10 (ent s (0x5000 + 3) 5) * 1000 = 10000) ∧
    (∀ y ∈ [2000, 1999], let s := chan 3000010050 [(3, 1)] fun x => { x with lastLoop := 3000010000 - y }; let x := getChan s 3;
      x.lastDac < s.tb / 1000 * 1000 ∧ x.recDue = false ∧ x.omans = [] ∧ x.failed = false ∧ x.safe = false ∧ x.modeNew = false ∧ (decide (x.lastLoop + 2000 ≤ s.tb / 1000 * 1000) = decide (y = 2000))) ∧
    (∀ y ∈ [0, 8], let s := chan 100000 [(2, 2)] fun x => { x with istat := y }; ent s (0x5000 + 3) 2 = 2 ∧ (getChan s 3).openAt + 100000 ≤ s.tb ∧ (getChan s 3).istat = y) ∧
    (let x := getChan (chan 3000010050 [] fun x => { x with istat := 0x200 }) 3; x.failed = false ∧ 2 ≤ x.istat.toNat / 256 % 4) := by decide +kernel

/-- Configurations taken and refused; the FIFOs at 63 and 64; RS-485 sending, its end to the quarter nanosecond, and receiving. -/
theorem witness_ChannelWritesAndSerialLine :
    (3 < nChans up ∧ (getChan (chan 0 [] fun x => { x with istat := 4 }) 3).istat.getLsbD 2 = true ∧ (getChan (chan 0 [] fun x => { x with istat := 4 }) 3).hiAct = false ∧
      (getChan (chan 0 [] fun x => { x with istat := 4, hiAct := true }) 3).hiAct = true ∧ (getChan up 3).driver = false) ∧
    (field 0x25#32 0 3 > 4 ∧ field 0x2C#32 0 3 ≤ 4 ∧ field 0x2C#32 3 2 ≤ 2 ∧ ent up (0x5000 + 3) 3 ≠ 1 ∧ (getChan up 3).istat.getLsbD 10 = false) ∧
    (ringFits (ent (chan 0 [(0x11, 0x13FFC0)] id) (0x5000 + 3) 0x11) (field 0xFF0000#32 16 8) = false ∧
      ringFits (ent (chan 0 [(0x11, 0x100000)] id) (0x5000 + 3) 0x11) (field 0xFF0000#32 16 8) = true) ∧
    ((List.replicate 63 (1 : Byte)).length < 64 ∧ (BitVec.ofNat 32 (2 ^ 28)).getLsbD 28 = true ∧ (BitVec.ofNat 32 (ent up (0x5000 + 3) 0x12)).getLsbD 28 = false ∧ (getChan up 3).txf = []) ∧
    (let u := 2 ^ 28 + 2 * 2 ^ 23 + 2000; let s := chan 3000010050 [(0x12, u)] fun x => { x with driver := true, txEnd := 4 * 3000010050 - 2 * bitTime (BitVec.ofNat 32 u), echo := [1] }; let x := getChan s 3;
      x.driver = true ∧ x.txf = [] ∧ field (BitVec.ofNat 32 u) 23 4 = 2 ∧ x.txEnd + 2 * bitTime (BitVec.ofNat 32 u) ≤ 4 * s.tb) ∧
    (getChan up 3).rxf = [] := by decide +kernel

/-! ### Witnesses: paces, management protocol -/

/-- A started device at 800 mV, every core running or none, cluster 5 changed. -/
def paced (all : Bool) (f : Cluster → Cluster) (g : Iris → Iris) : State :=
  { modCluster (if all then (List.range 128).foldl (fun s n => runs n s) up else up) 5 f with iris := g { up.iris with vcore := 800 }, tb := 10 ^ 9 }

/-- The write's every order, at both ends of its bounds; a switch's two halves; the budget; Iris's readings, at each bound. -/
theorem witness_PacesBudgetAndHeat :
    (let s := paced true id id; let x := getCluster s 5; 5 < nClusters s ∧ nClusters s ≤ 32 ∧ x.sw = none ∧ x.pace = 0 ∧ x.broken = false ∧ 700 ≤ s.iris.vcore ∧
      servingCores s 5 ≠ [] ∧ Tab.get (fun _ => (0 : Int)) (5 / 8) s.iris.temps ≤ 1050 ∧ Tab.get (fun _ => 0) (5 / 8) s.iris.tstate ≠ 2 ∧
      ((List.range 32).map fun i => if i = 5 then 20 else 4).sum + sharedPeak s ≤ ent s 0x2100 1 ∧ (∀ i, i < 32 → ent s 0x2101 (i + 1) = 0)) ∧
    (let s := setEnt (paced true id fun i => { i with vcore := 699 }) 0x2100 1 100; s.iris.vcore < 700 ∧ ¬ 4 * 32 ≤ ent s 0x2100 1) ∧
    (let s := paced true (fun x => { x with pace := 1, broken := true, why := 1 }) fun i => { i with temps := [(0, 1051)], tstate := [(0, 2)] }; let x := getCluster s 5;
      0 < x.pace ∧ x.pace < 2 ∧ x.broken = true ∧ x.why = 1 ∧ Tab.get (fun _ => (0 : Int)) (5 / 8) s.iris.temps = 1051 ∧ Tab.get (fun _ => 0) (5 / 8) s.iris.tstate = 2) ∧
    (let s := paced false (fun x => { x with sw := some 2 }) id; let x := getCluster s 5; x.sw = some 2 ∧ x.sw2 = [] ∧ x.swAns = none ∧ switchReady s 5 = true ∧
      (∀ n ∈ [20, 21, 22, 23], let u := (getCore s n).u; u.stores = [] ∧ u.loads = [] ∧ u.div = none ∧ u.fpu = [] ∧ u.beam = none)) ∧
    (let s := paced true (fun x => { x with pace := 1 }) id; pacedFit { s with ent := Tab.put (entKey 0x2100 1) 960 s.ent } = true ∧
      pacedFit { s with ent := Tab.put (entKey 0x2100 1) 1 s.ent } = false) ∧
    (let s := paced true id fun i => { i with clen := 1, overs := 15, cl := (List.range 32).map fun c => (c, { IrisCl.reset with level := 15 }) };
      s.iris.lastMeas + 1000 ≤ s.tb ∧ s.iris.shutdown = false ∧ s.iris.excess = false ∧ s.iris.clen.getLsbD 0 = true ∧ (∀ c, c < nClusters s → (getIr s c).level = 15) ∧
        s.active ≠ none ∧ 9 ≤ s.power.stage ∧ s.iris.lastAllot + 1000000 ≤ s.tb ∧ s.iris.lastTemp + 100000 ≤ s.tb ∧ 0 < nQuads s) ∧
    (let s := paced true id fun i => { i with tstate := [(0, 2)], hot := [(0, 10 ^ 9 - 10 ^ 7)] };
      Tab.find 0 s.iris.hot = some (10 ^ 9 - 10 ^ 7) ∧ Tab.get (fun _ => 0) 0 s.iris.tstate = 2 ∧ (10 ^ 9 - 10 ^ 7) + 10000000 ≤ s.tb) ∧
    (paced true id fun i => { i with shutdown := true }).iris.shutdown = true :=
  ⟨by decide +kernel, by decide +kernel, by decide +kernel, by decide +kernel, by decide +kernel, by decide +kernel, by decide +kernel, rfl⟩

/-- A pace write below 0.70 V and a switch whose core is not ready. -/
theorem witness_PacesBudgetAndHeat_more :
    (let s := paced true id fun i => { i with vcore := 699 }; s.iris.vcore < 700 ∧ (getCluster s 5).sw = none ∧ (getCluster s 5).pace = 0) ∧
    (let s := paced true (fun x => { x with pace := 1 }) fun i => { i with vcore := 699 }; isPaced s 5 = true ∧ s.iris.lastMeas + 1000 ≤ s.tb) := by decide +kernel

/-- Session 2 of node 3 over CAN FD. -/
def sess (proved : Bool) (role : Nat) : Session :=
  { role, ep := .can 3, node := 3, nc := List.replicate 16 5, nd := List.replicate 16 6, proved, used := true, ks := List.replicate 32 9, proof := (0, []), seq := 7, tid := 5, answer := some [1, 2, 3], notes := 0, last := 0 }

/-- The engine with the session, at a time. -/
def engine (proved : Bool) (role tb : Nat) (f : Edp → Edp) : State := { up with edp := f { up.edp with sessions := [(2, sess proved role)] }, tb }

/-- What an entry lookup gives. -/
def found (idx sub : Nat) (p : EntInfo → Bool) : Bool := match findEntry up idx sub with | .ok e => p e | _ => false

/-- Requests outside a session and in one, each order's refusal and each request's completion. -/
theorem witness_EdpRequestsAreCheckedAndAnswered :
    (let s := setEnt up 0x1110 4 1; engineUp s = true ∧ s.emerg = [] ∧ Tab.sorted s.edp.sessions = true ∧ ent s 0x1110 4 ≠ 0 ∧ s.edp.subs.length < 32 ∧
      found 0x1234 0 (fun _ => true) = false ∧ found 0x1110 1 (fun e => decide (e.acc = .wo)) = true ∧ found 0x6000 1 (fun e => decide (e.acc ≠ .wo)) = true ∧
      found 0x1103 1 (fun e => decide (e.acc ≠ .wo ∧ (entValue up 0x1103 1 e.ty).length = 2)) = true) ∧
    (let x : Subscription := { handle := 255, sid := 0, ep := .can 3, node := 3, idx := 0x1103, sub := 1, mode := 1, interval := 1, val := [], sent := 0, heard := 0 };
      (engine true 2 0 fun e => { e with subs := [x] }).edp.subs.any (fun x => x.handle == 255 && x.sid == 0 && sameEndpoint x.ep (epWith (.can 3) 3)) = true) ∧
    ((roleKey up 2 (epWith (.can 3) 3)).isSome = true ∧ freeSids up ≠ [] ∧ (List.replicate 16 (0 : Byte)).length = 16) ∧
    (let s := engine false 1 0 id; let x := sess false 1; let pc := (hmac x.ks (x.nd ++ x.nc ++ [2, 1])).take 16;
      findSession s 2 = some x ∧ sameEndpoint x.ep (epWith (.can 3) 3) = true ∧ pc.length = 16 ∧ pc ≠ List.replicate 16 0 ∧ s.img.sid ≠ 2 ∧ findSession s 255 = none ∧ findSession s 1 = none) ∧
    (let s := engine true 2 0 id; findSession s 2 = some (sess true 2) ∧ (sess true 2).seq < 8 ∧ 10 ≤ s.power.stage ∧ s.edp.jobs = [] ∧ s.power.pfail = false ∧ s.img.sid ≠ 2) ∧
    (found 0x1010 1 (fun e => !writable e) = true ∧ found 0x1103 1 (fun e => writable e && decide (1 < e.role ∧ e.role ≤ 2 ∧ tySize e.ty = 2)) = true ∧
      found 0x2010 1 (fun e => writable e && decide (e.role ≤ 2)) = true) ∧
    (∃ e, findEntry up 0x3209 0 = .ok e ∧ blockRefused up 2 e = none ∧ 36 ≤ mostOctets 0x3209) ∧ (∃ e, findEntry up 0x2300 6 = .ok e ∧ blockRefused up 2 e = none ∧ (blockRefused up 1 e).isSome = true) ∧
    (let w : Transfer := { sid := 2, ep := .can 3, idx := 0x3209, sub := 0, data := [4], last := 0 };
      ((engine true 2 0 fun e => { e with transfers := [w] }).edp.transfers.find? fun y => y.sid == 2 && y.idx == 0x3209 && y.sub == 0) = some w) :=
  ⟨by decide +kernel, by decide +kernel, by decide +kernel, by decide +kernel, by decide +kernel, by decide +kernel, ⟨_, rfl, by decide +kernel⟩, ⟨_, rfl, by decide +kernel⟩, by decide +kernel⟩

/-- Sessions proved and not, at their time-outs; notifications of both modes; a heartbeat; forwarding within a chain's range and outside; stores done and interrupted. -/
theorem witness_EdpSessionsEndAndPdusLeave :
    (let s := setEnt (engine true 1 (10 ^ 9) id) 0x1110 3 1; findSession s 2 = some (sess true 1) ∧ 0 + ent s 0x1110 3 * 1000000000 ≤ s.tb) ∧
    (let s := engine false 1 1000000000 id; findSession s 2 = some (sess false 1) ∧ 0 + 1000000000 ≤ s.tb) ∧
    (∀ y ∈ [(0, 2), (1, 0)], let x : Subscription := { handle := 9, sid := y.2, ep := .can 3, node := 3, idx := 0x1103, sub := 1, mode := y.1, interval := 10, val := [], sent := 0, heard := 0 };
      let s := engine true 1 10000000 fun e => { e with subs := [x] }; engineUp s = true ∧ s.emerg = [] ∧ (s.edp.subs.find? fun y => y.handle == 9) = some x ∧
        (entInfo 0x1103 1).any (fun e => decide (entValue s 0x1103 1 e.ty ≠ x.val)) = true ∧ 0 / (10 * 1000000) < s.tb / (10 * 1000000) ∧ 0 + 10 * 1000000 ≤ s.tb) ∧
    (let s := setEnt (engine true 1 (10 ^ 10) id) 0x1103 1 10000; s.active = some 128 ∧ s.edp.beat + ent s 0x1103 1 * 1000000 ≤ s.tb) ∧
    (let s := { up with edp := { up.edp with inbox := [(70, [1]), (9, [0x88, 0xB5, 1, 9, 0, 77]), (9, [2])] } };
      pduTurn s (.ether 9 3) [1, 9, 0, 77] = true ∧ pduTurn s (.ether 9 3) [2] = false ∧ pduTurn s (.ether 70 3) [1] = false ∧ pduTurn s (.can 3) [1] = true) ∧
    (isShort [1, 9, 0, 77, 3, 0, 0, 0] = false ∧ isShort [0x81, 9, 0, 77, 3, 0, 0, 0] = false ∧ up.chain = none ∧ up.node ≠ 77) ∧
    (let s := { modFacet (setEnt up (0x3000 + 9) 2 6) 9 (fun f => { f with state := 3, train := { f.train with peer := 1 } }) with node := 70, chain := some 0 };
      s.chain = some 0 ∧ 77 ≠ s.node ∧ 77 ≠ 0xFF ∧ 77 ≤ s.node - 0 + 15 ∧ relayTowards s 0 (77 - s.node) = some 9 ∧ 86 > s.node - 0 + 15) ∧
    (((engine true 1 0 fun e => { e with routes := [(77, .can 3)] }).edp.routes.find? fun e => e.1 == 77) = some (77, .can 3)) ∧
    (let c : StoreCopy := { gen := 1, good := true, ents := [], tables := [], unset := 0 }; let r : Reply := { ep := .can 3, node := 3, cmd := 5, tid := 1, sid := 2, idx := 0, sub := 0, seq := some 7 };
      ∀ p ∈ [false, true], let s := { engine true 2 0 fun e => { e with jobs := [{ ans := r, kind := 0, copy := some c }] } with power := { up.power with pfail := p } };
        s.emerg = [] ∧ s.edp.jobs = [{ ans := r, kind := 0, copy := some c }] ∧ findSession s 2 = some (sess true 2) ∧ s.power.low = [] ∧ s.power.pfail = p) ∧
    (let s := after (.retirementRequest 5 1) (mates up); engineUp s = true ∧ s.emerg ≠ []) ∧ (2, sess true 1) ∈ (engine true 1 0 id).edp.sessions := by
  decide +kernel

/-! ### Witnesses: images, start-up, resets -/

/-- Its public key and signature, as little-endian numbers. -/
def headerKey : Nat := 0x3d4206135e001c76b3deee9d71227b0aa1c6f377e6f15d6b105d43b63ab0fc25
def headerSig : Nat :=
  0x9fa5f8bb1b4fbeab0f768bbf24bb063c4e59805f1780b367a4f00f621c89819fcf3862ba4f8c9d0885b458f2c8c8dc0b72d99dd302dabc80d4621a9c6db91b8

/-- The smallest image of file 20: one section of code in place, entered at its start; its declared core peak. -/
def header (peak : Nat) : Octets :=
  leOctets 4 0x4D49564C ++ leOctets 2 1 ++ leOctets 2 512 ++ leOctets 4 7 ++ leOctets 4 576 ++ leOctets 2 1 ++ leOctets 2 0 ++ leOctets 4 0 ++ leOctets 4 0 ++ leOctets 2 0 ++ leOctets 2 0 ++
  leOctets 4 0 ++ leOctets 2 1 ++ leOctets 2 0 ++ leOctets 4 0 ++ leOctets 4 peak ++ List.replicate 16 0 ++ 
  (List.replicate 8 ([0, 0, 0x2C, 0] ++ leOctets 4 0 ++ leOctets 4 0xF00 ++ leOctets 4 0)).flatten ++ leOctets 32 headerKey ++ leOctets 64 headerSig ++ List.replicate 224 0

/-- The cells of octets from address `a` up. -/
def cells (a : Nat) : Octets → List Host.Cell → List Host.Cell
  | [], m => m
  | b :: v, m => (a, b) :: cells (a + 1) v m

theorem readAll_skip (a x n : Nat) (b : Byte) (m : List Host.Cell) (h : a < x) : Mem.readAll x n ((a, b) :: m) = Mem.readAll x n m := by
  induction n generalizing x with
  | zero => rfl
  | succ n ih =>
    have : Mem.read x ((a, b) :: m) = Mem.read x m := by simp [Mem.read, Tab.get, show a ≠ x by omega, show ¬ x < a by omega]
    simp only [Mem.readAll, this, ih (x + 1) (by omega)]

theorem readAll_cells (a : Nat) (v : Octets) (m : List Host.Cell) : Mem.readAll a v.length (cells a v m) = v := by
  induction v generalizing a with
  | nil => rfl
  | cons b v ih =>
    have : Mem.read a ((a, b) :: cells (a + 1) v m) = b := by simp [Mem.read, Tab.get]
    simp only [List.length_cons, cells, Mem.readAll, this, readAll_skip a (a + 1) _ b _ (by omega), ih]

/-- A device at stage `n` with the image in slot A. -/
def flashed (n peak : Nat) : State :=
  { up with
    power := { up.power with stage := n, applied := true }
    mem := cells 0x08000000 (header peak) (cells 0x08000200 (leOctets 4 528 ++ leOctets 4 48 ++ leOctets 4 0 ++ leOctets 4 0x80 ++ List.replicate 48 0) []) }

theorem flashed_header (n peak : Nat) (h : (header peak).length = 512) : imgBytes (flashed n peak) 0 0 512 = header peak := by
  rw [← h]; exact readAll_cells _ _ _

/-- The signature of the image, made under RFC 8032 outside the model, is good with and without the cofactor. -/
theorem signature_flashed : signatureGood (flashed 7 0) (imageWith (flashed 7 0) 0 (header 0)) = true := by
  unfold signatureGood ed25519Verify; generalize Config.edCofactor = c; revert c; decide +kernel

/-- Slot A's image passes every check. -/
theorem witness_candidate :
    checkSlot (flashed 7 0) 0 = none ∧ candidates (readSlots (flashed 7 0)) = [0] := by
  have hh := flashed_header 7 0 (by decide +kernel)
  have hg : headerGood (header 0) = true ∧ digestGood (flashed 7 0) (header 0) = true ∧ sectionsGood (imageWith (flashed 7 0) 0 (header 0)) = true ∧
      relocsGood (flashed 7 0) (imageWith (flashed 7 0) 0 (header 0)) = true ∧ imgBad (flashed 7 0) 0 0 512 = false := by decide +kernel
  have hA : slotAt7 (flashed 7 0) 0 = { state := 1, version := 7 } := by
    have : (imageWith (flashed 7 0) 0 (header 0)).version = 7 := by decide +kernel
    simp [slotAt7, imageOf, hh, hg, this]
  have hB : slotAt7 (flashed 7 0) 1 = { state := 0, version := 0 } := by decide +kernel
  have hp : storedEnt (flashed 7 0) 0x2300 8 = 0 := by decide +kernel
  refine ⟨by simp [checkSlot, checkImage, hh, signature_flashed, hg], ?_⟩
  have hs : (flashed 7 0).power.straps = 0 ∧ (flashed 7 0).img.refused = [] := ⟨rfl, rfl⟩
  simp [candidates, readSlots, hA, hB, imgSlot, recoveryStrap, storedEnt, hs] at hp ⊢
  simp [hp]

/-- A commit of the image under way. -/
def committing (stage target peak : Nat) (pfail : Bool) : State :=
  let s := flashed 10 peak
  { s with img := { s.img with stage, target, hdr := header peak, got := 576, lastSeg := 0 }, power := { s.power with pfail }, tb := 10 ^ 10 }

theorem witness_PacedClustersReceiveTheirReserves :
    ∀ p ∈ [1, 5], let s := paced true (fun x => { x with pace := p }) fun i => { i with fresh := true };
      s.active ≠ none ∧ 9 ≤ s.power.stage ∧ s.iris.shutdown = false ∧ s.iris.fresh = true ∧ 5 < nClusters s ∧ (getCluster s 5).pace = p := by decide +kernel

/-- Each stage of a commit, at its deadline, with a whole image (`witness_whole`), one over its peak, a short header; power failing and not. -/
theorem witness_ImageCommitsRunTheirStages :
    (Mem.wf up.mem = true ∧ up.img.stage = 0 ∧ up.power.pfail = false ∧ Tab.sorted up.clusters = true ∧ ∀ c k, (getBank up c k).loan = none) ∧
    (∀ st ∈ [1, 2, 3], let s := committing st 0 0 false;
      s.img.stage = st ∧ s.power.pfail = false ∧ s.img.target ≤ 1 ∧ s.img.lastSeg + 10000000000 ≤ s.tb ∧ Mem.wf s.mem = true) ∧
    (let s := committing 3 0 0 false; s.img.hdr.length = 512 ∧ imgBad s 0 512 (576 - 512) = false ∧ headerGood s.img.hdr = true ∧ digestGood s s.img.hdr = true ∧
      sectionsGood (imageWith s 0 s.img.hdr) = true ∧ relocsGood s (imageWith s 0 s.img.hdr) = true ∧ peakOver s (imageWith s 0 s.img.hdr) = none) ∧
    Mem.readAll 0x08000000 (header 0).length (committing 3 0 0 false).mem = header 0 ∧
    (let s := committing 3 0 0xFFFFFFF false; peakOver s (imageWith s 0 s.img.hdr) ≠ none) ∧
    (headerGood ((header 0).take 100) = false ∧ (committing 1 0 0 true).power.pfail = true) :=
  ⟨⟨by decide +kernel, by decide +kernel, by decide +kernel, by decide +kernel, fun _ _ => rfl⟩, by decide +kernel, by decide +kernel, readAll_cells _ _ _, by decide +kernel, by decide +kernel⟩

/-- `checkImage` of the committed header is `none`. -/
theorem witness_whole :
    checkImage (committing 3 0 0 false) 0 (header 0) = none := by
  have h : headerGood (header 0) = true ∧ digestGood (committing 3 0 0 false) (header 0) = true ∧ sectionsGood (imageWith (committing 3 0 0 false) 0 (header 0)) = true ∧
      relocsGood (committing 3 0 0 false) (imageWith (committing 3 0 0 false) 0 (header 0)) = true := by decide +kernel
  have hv : signatureGood (committing 3 0 0 false) (imageWith (committing 3 0 0 false) 0 (header 0)) = true := by
    unfold signatureGood ed25519Verify; generalize Config.edCofactor = c; revert c; decide +kernel
  simp [checkImage, hv, h]

/-- A device at a stage of start-up. -/
def stage (n : Nat) (f : State → State) : State := f { up with power := { up.power with stage := n } }

/-- The resets' conditions at their bounds; each stage; the candidate of slot A refused; the image loaded (`witness_candidate` holds a good one); cores to release. -/
theorem witness_ResetsAndStartUpStages :
    (up.power.stage ≠ 2 ∧ up.iris.shutdown = false ∧ up.power.warm = false ∧ up.edp.jobs = [] ∧ ¬ (1 ≤ up.img.stage ∧ up.img.stage ≤ 3) ∧ ∀ c k, (getBank up c k).merge = [] ∧ (getBank up c k).loan = none) ∧
    (let s := fun t => { up with iris := { up.iris with shutdown := true, temps := [(0, t)] } }; topTemp (s 999) < 1000 ∧ 1000 ≤ topTemp (s 1000)) ∧
    (let s := { up with img := { up.img with stage := 3 } }; 1 ≤ s.img.stage ∧ s.img.stage ≤ 3 ∧ 31 < nClusters s ∧ 127 < nCores s ∧ (getCore s 127).i.run ≠ .retired ∧ (getCluster s 31).quiesced = false) ∧
    (let s := { up with part := { up.part with lv256 := false } }; nClusters s ≤ 31 ∧ nCores s ≤ 127) ∧
    (∀ n ∈ [2, 3, 4, 6, 7, 8, 9], (stage n id).power.stage = n) ∧
    (128 ∈ romWardens (stage 6 id) ∧ 129 ∈ romWardens (stage 6 id) ∧ (getCore (stage 6 id) 128).lp.halted = false) ∧
    (let s := flashed 7 0; candidates (readSlots { s with ecc := [(slotBase 0 / 8, 3)] }) = [] ∧ candidates (readSlots (stage 7 id)) = []) ∧
    (let s := { flashed 8 0 with img := { up.img with trying := some 0 } }; s.power.stage = 8 ∧ s.power.applied = true ∧ s.img.trying = some 0 ∧
      checkPart s (imageOf s 0) = none ∧ imgBad s 0 512 (576 - 512) = false ∧ liveCores s ≠ []) ∧
    (let s := { flashed 8 0xFFFFFFF with img := { up.img with trying := some 0 } }; checkPart s (imageOf s 0) ≠ none) ∧
    (let s := stage 9 fun s => core 5 (fun k => { k with st := { k.st with release := some { aps := [], inst := 5, ncores := 128, pc := 0x100, pair := true } } }) s;
      5 ∈ liveCores s ∧ (getCore s 5).st.release.isSome = true ∧ (getCore s 6).st.release = none ∧ s.power.safe = false ∧ (getCore s 128).i.run ≠ .retired) ∧
    (stage 9 fun s => { s with power := { s.power with safe := true } }).power.safe = true :=
  ⟨⟨by decide +kernel, rfl, rfl, rfl, by decide +kernel, fun _ _ => ⟨rfl, rfl⟩⟩, by decide +kernel, by decide +kernel, by decide +kernel, by decide +kernel, by decide +kernel, by decide +kernel,
    by decide +kernel, by decide +kernel, by decide +kernel, rfl⟩

/-! ### Witnesses: test access port, Loupe -/

/-- The gate at `g`, an instruction selected, an access in progress. -/
def tapped (g : Nat) (ir : TapIr) (b : Option LoupeAcc) : State :=
  { setEnt up 0x9000 1 g with active := some 128, tap := { up.tap with ir, linked := true, busy := b } }

/-- The gate's fuse blown and not; each gate; reads and writes of the last word of the warden's scratch, of flash, of no region and of a register; fuses 255 and 256, and beyond. -/
theorem witness_TestAccessPortObeysTheGate :
    (loupeGate (tapped 0 .bypass none) = 0 ∧ loupeGate (tapped 1 .bypass none) = 1 ∧ loupeGate (tapped 2 .bypass none) = 2 ∧
      loupeGate { tapped 2 .bypass none with power := { up.power with loaded := 1#257 <<< 256 } } = 0) ∧
    ((tapped 2 .loupe none).tap.ir = .loupe ∧ (tapped 2 .loupe none).tap.busy = none ∧ (tapped 2 .fuse none).tap.ir = .fuse ∧ (tapped 2 .bypass none).tap.ir ≠ .loupe) ∧
    (getFacet up 0).state = 0 ∧ (getFacet (running 2 0 id) 9).state = 3 ∧
    (∀ a ∈ [0xFFFC, 0x08000000], let b : LoupeAcc := { addr := BitVec.ofNat 32 a, wr := none }; let s := tapped 2 .loupe (some b);
      s.tap.busy = some b ∧ b.addr.toNat % 4 = 0 ∧ (regionOf s 128 a = .scratch ∨ regionOf s 128 a = .flash) ∧ eccOf s (globalOf 128 a / 8) = 0 ∧ Mem.wf s.mem = true) ∧
    (∀ c k, (getBank (tapped 2 .loupe none) c k).loan = none ∧ (getBank (tapped 2 .loupe none) c k).merge = []) ∧
    (let s := tapped 2 .loupe none; regionOf s 128 0xFFFFFFFC = .none ∧ (match regionOf s 128 0x10005104 with | .dev _ => true | _ => false) = true ∧
      (devRead s .loupe 0x10005104).isSome = true) ∧
    (let s := { tapped 2 .fuse none with power := { up.power with safe := true } };
      loupeGate s = 2 ∧ s.power.safe = true ∧ s.power.loaded.toNat % 2 ^ 256 = 0 ∧ ¬ (257 = 256 ∨ (257 < 256 ∧ s.power.loaded.toNat % 2 ^ 256 = 0))) :=
  ⟨by decide +kernel, by decide +kernel, by decide +kernel, by decide +kernel, by decide +kernel, fun _ _ => ⟨rfl, rfl⟩, by decide +kernel, by decide +kernel⟩

/-- Core 5 as the Loupe sees it under gate `g`. -/
def looked (g : Nat) (f : LensCore → LensCore) : State := setEnt (core 5 f (runs 5 up)) 0x9000 1 g

/-- Halted and not; the sockets at the ends of each range; a facet off, with legal and illegal patterns; each cause of a halt. -/
theorem witness_LoupeHaltsStepsAndReachesCores :
    (corePresent up 5 = true ∧ loupeGate (looked 1 id) ≠ 2 ∧ loupeGate (looked 2 id) = 2 ∧ (getCore (looked 2 id) 5).lp.halted = false) ∧
    (∀ c ∈ [0x100, 0x3F, 0x101, 0x1FF, 0x220, 0x231], let s := looked 2 fun k => { k with lp := { k.lp with halted := true, sksel := BitVec.ofNat 12 c } };
      (getCore s 5).lp.halted = true ∧ (getCore s 5).lp.sksel.toNat = c ∧ ((trigOf c ≠ none) ↔ c = 0x231) ∧ (c ≠ 0x231 → lskHolds s c = true ∧ windowBusy (getCore s 5) c = false) ∧
        (c = 0x220 → unitAbsent s c = false ∧ codeRole c = .operand)) ∧
    (∀ c ∈ [0x4B0, 0x4B7, 0x4B8, 0x4B9, 0x4BB], let s := looked 2 fun k => { k with lp := { k.lp with halted := true, sksel := BitVec.ofNat 12 c }, r := { k.r with lc := [(0, 1), (1, 1), (3, 1)], ls := [(3, 16)] } };
      (getCore s 5).lp.halted = true ∧ (getCore s 5).lp.sksel.toNat = c ∧ loopLc (getCore s 5) 0 = 1 ∧ loopLc (getCore s 5) 3 = 1 ∧ loopLc (getCore s 5) 2 = 0 ∧ loopLc (getCore s 5) 1 = 1 ∧
        (loopLe (getCore s 5) 3).ult (loopLs (getCore s 5) 3) = true) ∧
    (5 < nClusters up ∧ 9 < nFacets up ∧ (getFacet up 9).state = 0 ∧ up.prbs = none ∧ (getFacet (running 2 0 id) 9).state ≠ 0 ∧ (getFacet (running 2 0 id) 9).state ≠ 5) ∧
    ((0x11#32).toNat % 4 ≠ 3 ∧ (0x11#32).toNat / 4 % 8 ≤ 4 ∧ ¬ (0x14#32).toNat / 4 % 8 ≤ 4) ∧
    (∀ x ∈ [(true, 0), (false, 2)], let s := looked 2 fun k => { k with lp := { k.lp with pending := x.1, stepping := x.2, brken := true } }; let k := getCore s 5;
      k.lp.halted = false ∧ k.i.fault = none ∧ boundary s 5 = true ∧ recognisable s 5 (isIE k) = none ∧ k.i.run = .running ∧ atBreakpoint k = false) ∧
    (let s := looked 2 fun k => { k with lp := { k.lp with lbp := [(0, k.i.pc ||| 1#32)] } }; atBreakpoint (getCore s 5) = true) := by decide +kernel

/-! ### Ill-formed commands -/

/-- Each check of `Instr.wf` refuses a command at the first value beyond its range. -/
theorem test_ill_formed_refused :
    [Instr.aluAdd 130 .alu0 0, .modeSwitchResume 32, .txdoneRead 0 4, .mergeWriteOut 32 0, .mergeWriteOut 0 4, .txts2Read 256, .dacUpdate 16, .eventDelivery 1024,
      .registerWrite (.core 130) (.device 0 0), .bankownWrite (.core 130) 0 0 0, .scrubWord (.scratch 130) 0, .scrubWord (.bank 32 0) 0, .scrubWord (.bank 0 4) 0,
      .scrubWord (.xram 32) 0, .scrubWord (.bitStore 32) 0, .scrubWord (.beamSram 4) 0, .routeWrite 1024 0, .routeWrite 0 65536, .paceWrite 0 4294967296,
      .beamSelectorWrite 4294967296, .beamWindowAccess 256 none, .modeWrite 0 4294967296, .roleWrite 256 0, .slotOpening 0 512, .retirementRequest 0 256,
      .wardenFault 127 .parity true, .wardenFault 130 .parity true, .facetRequalification 4294967296, .fabricPacketHop 88 0 .none, .fabricPacketHop 0 3 .none,
      .killBeam 65536, .wardenKillBeam 4294967296, .releaseQuiesce 4294967296, .calendarWrite 18446744073709551616, .loupeGateWrite 4294967296,
      .budgetWrite 0x2100 2 0, .budgetWrite 0x2101 0 0, .budgetWrite 0x2101 33 0, .budgetWrite 0x2102 1 0, .keySlotWrite 0 [], .keySlotWrite 9 [], .sessionKeyWrite 0 [],
      .sessionKeyWrite 3 [], .imageCommit 0 4294967296, .thermalPaceDrop 4, .warmReset 4294967296, .timebaseAlarm 4, .tapSamplePreload [true] [], .fuseProgram 257].all
      (fun c => !c.wf) = true := by decide +kernel

/-- The last values within the ranges are accepted. -/
theorem test_well_formed_accepted :
    [Instr.aluAdd 129 .alu0 0, .modeSwitchResume 31, .txdoneRead 255 3, .dacUpdate 15, .eventDelivery 1023, .scrubWord (.beamSram 3) 0, .routeWrite 1023 65535,
      .slotOpening 255 511, .wardenFault 128 .parity true, .wardenFault 129 .parity false, .fabricPacketHop 87 2 .none, .killBeam 65535, .budgetWrite 0x2101 32 0,
      .keySlotWrite 8 [], .sessionKeyWrite 2 [], .fuseProgram 256].all Instr.wf = true := by decide +kernel

/-! ### The spec's worked examples -/

/-- File 04: the bundle assembled there, executed with k3 = 1, writes g7 and g6 and leaves g5. -/
theorem test_bundle_encoding_example :
    let s := after (.bundleIssue 5) (code [0x8067800740012345, 0x0BFFB0050040001A] (core 5 (fun k => { k with g := [(5, 0x55)], bits := [(3, true)] }) r5))
    greg (getCore s 5) 7 = 0x12345678 ∧ greg (getCore s 5) 6 = 0x10000000 ∧ greg (getCore s 5) 5 = 0x55 := by decide +kernel

/-- File 00: a software trap of code 42 leaves CAUSE = 0x2A1A. -/
theorem test_software_trap_cause :
    let s := core 5 (fun k => { k with i := { k.i with fills := 0, first := false } }) (after (.ctlTrap 5 42) ready)
    (getCore (after (.exceptionEntry 5) s) 5).r.cause = 0x2A1A := by decide +kernel

/-- File 10, step 1: event 741 is taken from a user task with PSW = 0x22; step 2: the forged return traps. -/
theorem test_event_and_forged_return :
    let s := event 741 (5 + 5 * 256 + 2048) (psw 5 0x22 ready)
    let a := after (.exceptionEntry 5) s
    let b := after (.exceptionEntry 5) (core 5 (fun k => { k with i := { k.i with fills := 0, first := false } })
      (after (.ctlEret 5 0) (core 5 (fun k => { k with r := { k.r with epsw := 0x23 }, i := { k.i with fills := 0, first := false } }) a)))
    ((getCore a 5).r.evnum = 0x000502E5 ∧ (getCore a 5).r.pstk = 0 ∧ (getCore a 5).r.cause = 0x40 ∧ readPsw a 5 (getCore a 5) false = 0x21) ∧
    ((getCore b 5).r.cause = 0x1B ∧ (getCore b 5).r.epsw = 0x21 ∧ (getCore b 5).r.pstk = 1 ∧ (getCore b 5).r.evnum = 0x000502E5) := by decide +kernel

/-- File 11: KEY 0x0201232A hashes to sets 0x666 and 0xB43; way 0 of the first is beam 0x1998. -/
theorem test_beam_hash_example : beamSets key = (0x666, 0xB43) ∧ (beamWays key).head? = some 0x1998 ∧ 8 * beamWordNo 0x1998 = 0x04066600 := by decide +kernel

/-- File 21: CALSLO of 800,000,000 reads 2025-05-08, Thursday, 06:13:20. -/
theorem test_calendar_example :
    calDate 800000000 = 25 + 5 * 2 ^ 8 + 8 * 2 ^ 12 + 4 * 2 ^ 17 ∧ calTime 800000000 = 6 + 13 * 2 ^ 5 + 20 * 2 ^ 11 := by decide +kernel

/-- File 18: the budget of 800 steps divided over the clusters. -/
theorem test_allotment_example :
    let s := [0, 1, 2, 3].foldl (fun s c => modCluster s c fun x => { x with pace := 3 }) (setEnt (setEnt up 0x2100 1 800) 0x2101 6 40)
    let t := after .allotmentRecomputation { s with iris := { s.iris with shared := [(s.tb, 7400)], fresh := true } }
    (getIr t 0).allot = 16 ∧ (getIr t 5).allot = 40 ∧ (getIr t 4).allot = 24 ∧ (getIr t 20).allot = 23 := by decide +kernel

/-- R33 and file 18: at 240 steps the present state fits and pacing cluster 6 at code 1 does not. -/
theorem test_pace_refused_example :
    let s := [0, 1, 2, 3].foldl (fun s c => modCluster s c fun x => { x with pace := 3 }) (setEnt (setEnt (paced true id id) 0x2100 1 240) 0x2101 6 40)
    (after (.paceWrite 6 1) { s with iris := { s.iris with shared := [(s.tb, 7400)] } }).lastAbort = some 0x03000003 := by decide +kernel

/-- File 01: bank base and event numbers of cluster 17, core 70 and facet 137. -/
theorem test_address_example : bankBase 17 0 = globalOf 128 0x02100000 ∧ 560 + 70 = 630 ∧ 800 + 70 = 870 ∧ 704 + 17 = 721 := by decide +kernel

/-- An add that wraps, a subtraction below zero, the arithmetic shift of a negative number (R86). -/
theorem test_alu_corners :
    (sockOf (after (.aluAdd 5 .alu0 1) (sock 5 0x200 0xFFFFFFFF r5)) 5 0x202 = 0) ∧
    aluResult .sub 0 1 = 0xFFFFFFFF ∧ aluResult .sar 0x80000000 31 = 0xFFFFFFFF := by decide +kernel

/-- A division by zero sets the quotient to all ones, and leaves the remainder (R90). -/
theorem test_division_by_zero : (divResult false 100 0).1 = 0xFFFFFFFF ∧ (divResult false 100 0).2.1 = 100 := by decide +kernel

/-- Octets from a number written as hex text reads. -/
def hexOctets (k n : Nat) : Octets := (leOctets k n).reverse

/-- SHA-512 of "abc" (the example of FIPS 180-4), and the first signature of RFC 8032 7.1, which a changed message does not bear. -/
theorem test_signature_vectors :
    sha512 [0x61, 0x62, 0x63] = hexOctets 64
      0xddaf35a193617abacc417349ae20413112e6fa4e89a97ea20a9eeee64b55d39a2192992a274fc1a836ba3c23a3feebbd454d4423643ce80e2a9ac94fa54ca49f ∧
    ∀ m ∈ [[], [0]], ed25519Verify (hexOctets 32 0xd75a980182b10ab7d54bfed3c964073a0ee172f3daa62325af021a68f707511a) m (hexOctets 64
      0xe5564300c360ac729086e2cc806e828a84877f1eb8e5d974d873e065224901555fb8821590a33bacc61e39701cf9b46bd25bf5f0595bbe24655141438e7a100b) = m.isEmpty := by
  unfold ed25519Verify; generalize Config.edCofactor = c; revert c; decide +kernel

/-- AES-256-GCM of 16 zero octets under a key and IV of zeros (test case 14 of the GCM specification). -/
theorem test_gcm_vector :
    gcmSeal (hexOctets 32 0) (hexOctets 12 0) [] (hexOctets 16 0) = hexOctets 32 0xcea7403d4d606b6e074ec5d3baf39d18d0d1c8a799996bf0265b98b5d48ab919 := by
  decide +kernel

/-- The command at the front runs, the queue's rest stays; an empty queue only ticks. -/
theorem test_step_takes_front :
    (match step { r5 with pending := [.tapBypass, .tapIdcode] } with | .next t => t.pending == [.tapIdcode] && t.tap.ir == .bypass | _ => false) = true ∧
    (match step { r5 with tb := 2 ^ 64 - 4 } with | .next t => t.tb == 0 | _ => false) = true := by decide +kernel

/-- The worked example of facet 137, and the group counts of R443. -/
theorem test_balls :
    ballAt 53 26 = .ftx 137 false ∧ ballAt 53 25 = .ftx 137 true ∧ ballAt 53 24 = .vss ∧ ballAt 46 26 = .frx 137 false ∧
    ballAt 46 25 = .frx 137 true ∧ ballAt 37 37 = .refclk 2 false ∧ ballAt 37 36 = .refclk 2 true ∧ ballAt 37 34 = .sdrcal 2 ∧
    (let balls := (List.range 53).flatMap fun r => (List.range 53).map fun c => ballAt (r + 1) (c + 1)
     [.vcore, .vsd09, .vsd12, .avdd, .agnd, .vio18, .vio33, .vss, .dnc].map (balls.count ·)) = [300, 156, 156, 20, 32, 8, 12, 953, 4] := by
  decide +kernel

end Sys2Proof.Tests
end

/-! SUPPORT. The register blocks of R145 by address, and the device register accesses of a core, of a warden and through the dictionary. -/

namespace Sys2Proof.Machine

/-! ### The device blocks by address (R145) -/

theorem nCores_le (s : State) : nCores s ≤ 128 := by
  unfold nCores
  split <;> omega

theorem nClusters_le (s : State) : nClusters s ≤ 32 := by
  unfold nClusters
  split <;> omega

theorem nQuads_le (s : State) : nQuads s ≤ 4 := by
  unfold nQuads
  split <;> omega

theorem corePresent_lens {s : State} {n : Nat} (h : n < nCores s) : corePresent s n = true := by simp [corePresent, h]

theorem isWarden_lens {s : State} {n : Nat} (h : n < nCores s) : isWarden n = false := by
  have := nCores_le s
  simp only [isWarden, decide_eq_false_iff_not]
  omega

theorem clusterOf_lt {s : State} {n : Nat} (h : n < nCores s) : clusterOf n < nClusters s := by
  unfold clusterOf
  unfold nCores at h
  unfold nClusters
  split at h <;> rename_i hp <;> simp only [hp, if_true, if_false, Bool.false_eq_true] <;> omega

theorem regionOf_device {s : State} {m a : Nat} (h1 : 0x10000000 ≤ a) (h2 : a < 0x20000000) : regionOf s m a = deviceRegion s m a :=
  if_pos ⟨h1, h2⟩

section Blocks

variable {s : State} {off : Nat}

theorem regionOf_coreBlock {n : Nat} (m : Nat) (hn : n < nCores s) (ho : off < 0x1000) :
    regionOf s m (0x10000000 + n * 0x1000 + off) = if isWarden m = true ∨ n = m then .dev (0x10000000 + n * 0x1000) else .none := by
  have hle := nCores_le s
  have hb : (0x10000000 + n * 0x1000 + off - 0x10000000) / 0x1000 = n := by omega
  rw [regionOf_device (by omega) (by omega)]
  unfold deviceRegion
  rw [if_pos (by omega)]
  simp only [hb, corePresent_lens hn, true_and]

theorem regionOf_clusterBlock {c : Nat} (m : Nat) (hc : c < nClusters s) (ho : off < 0x10000) :
    regionOf s m (0x11000000 + c * 0x10000 + off) =
      if isWarden m = true ∨ c = clusterOf m then .dev (0x11000000 + c * 0x10000) else .none := by
  have hle := nClusters_le s
  have hb : (0x11000000 + c * 0x10000 + off - 0x11000000) / 0x10000 = c := by omega
  rw [regionOf_device (by omega) (by omega)]
  unfold deviceRegion
  rw [if_neg (by omega), if_pos (by omega)]
  simp only [hb, hc, true_and]

theorem regionOf_quadBlock {q : Nat} (m : Nat) (hq : q < nQuads s) (ho : off < 0x100000) :
    regionOf s m (0x13000000 + q * 0x100000 + off) =
      if isWarden m = true ∨ clusterOf m / 8 = q then .dev (0x13000000 + q * 0x100000) else .none := by
  have hle := nQuads_le s
  have hb : (0x13000000 + q * 0x100000 + off - 0x13000000) / 0x100000 = q := by omega
  rw [regionOf_device (by omega) (by omega)]
  unfold deviceRegion
  rw [if_neg (by omega), if_neg (by omega), if_neg (by omega), if_pos (by omega)]
  simp only [hb, hq, true_and]

/-! ### Which core reaches a block for writing (R7, R145) -/

/-- A Lens core writes the blocks it reaches but those of a quadrant, the timebase and the calendar. -/
theorem regionAllows_dev_write (m b : Nat) :
    regionAllows m true (.dev b) 1 .write = (isWarden m || !decide (0x13000000 ≤ b ∧ b < 0x14020000)) := by
  simp only [regionAllows]
  cases isWarden m <;> simp

theorem reaches_core {m a b : Nat} {p : Prop} [Decidable p] (hm : corePresent s m = true) (hr : regionOf s m a = if p then .dev b else .none) :
    reaches s (.core m) a = (decide p && (isWarden m || !decide (0x13000000 ≤ b ∧ b < 0x14020000))) := by
  simp only [reaches, hm, hr, Bool.true_and, ← regionAllows_dev_write]
  by_cases h : p <;> simp [h]

theorem reaches_coreBlock {m n : Nat} (hm : corePresent s m = true) (hn : n < nCores s) (ho : off < 0x1000) :
    reaches s (.core m) (0x10000000 + n * 0x1000 + off) = (isWarden m || decide (n = m)) := by
  have hle := nCores_le s
  have hb : ¬ (0x13000000 ≤ 0x10000000 + n * 0x1000 ∧ 0x10000000 + n * 0x1000 < 0x14020000) := by omega
  rw [reaches_core hm (regionOf_coreBlock m hn ho), decide_eq_false hb]
  simp

theorem reaches_clusterBlock {m c : Nat} (hm : corePresent s m = true) (hc : c < nClusters s) (ho : off < 0x10000) :
    reaches s (.core m) (0x11000000 + c * 0x10000 + off) = (isWarden m || decide (c = clusterOf m)) := by
  have hle := nClusters_le s
  have hb : ¬ (0x13000000 ≤ 0x11000000 + c * 0x10000 ∧ 0x11000000 + c * 0x10000 < 0x14020000) := by omega
  rw [reaches_core hm (regionOf_clusterBlock m hc ho), decide_eq_false hb]
  simp

theorem reaches_quadBlock {m q : Nat} (hm : corePresent s m = true) (hq : q < nQuads s) (ho : off < 0x100000) :
    reaches s (.core m) (0x13000000 + q * 0x100000 + off) = isWarden m := by
  have hle := nQuads_le s
  have hb : 0x13000000 ≤ 0x13000000 + q * 0x100000 ∧ 0x13000000 + q * 0x100000 < 0x14020000 := by omega
  rw [reaches_core hm (regionOf_quadBlock m hq ho), decide_eq_true hb]
  cases isWarden m <;> simp

/-! ### What a block's register takes and gives -/

theorem devWrite_coreBlock {n : Nat} (m : Master) (v : Word) (hn : n < nCores s) (ho : off < 0x1000) :
    devWrite s m (0x10000000 + n * 0x1000 + off) v = (coreWrite s n off v (m == .loupe), true) := by
  have hle := nCores_le s
  have hb : (0x10000000 + n * 0x1000 + off - 0x10000000) / 0x1000 = n := by omega
  have hr : (0x10000000 + n * 0x1000 + off) % 0x1000 = off := by omega
  unfold devWrite
  rw [if_pos (by omega), hb, hr]

theorem devWrite_clusterBlock {c : Nat} (m : Master) (v : Word) (hc : c < nClusters s) (ho : off < 0x10000) :
    devWrite s m (0x11000000 + c * 0x10000 + off) v = (clusterWrite s m c off v, true) := by
  have hle := nClusters_le s
  have hb : (0x11000000 + c * 0x10000 + off - 0x11000000) / 0x10000 = c := by omega
  have hr : (0x11000000 + c * 0x10000 + off) % 0x10000 = off := by omega
  unfold devWrite
  rw [if_neg (by omega), if_pos (by omega), hb, hr]

theorem devWrite_quadBlock {q : Nat} (m : Master) (v : Word) (hq : q < nQuads s) (ho : off < 0x100000) :
    devWrite s m (0x13000000 + q * 0x100000 + off) v = (quadWrite s q off v, true) := by
  have hle := nQuads_le s
  have hb : (0x13000000 + q * 0x100000 + off - 0x13000000) / 0x100000 = q := by omega
  have hr : (0x13000000 + q * 0x100000 + off) % 0x100000 = off := by omega
  unfold devWrite
  rw [if_neg (by omega), if_neg (by omega), if_neg (by omega), if_pos (by omega), hb, hr]

theorem devRead_coreBlock {n : Nat} (m : Master) (hn : n < nCores s) (ho : off < 0x1000) :
    devRead s m (0x10000000 + n * 0x1000 + off) = coreRead s n off (m == .loupe) := by
  have hle := nCores_le s
  have hb : (0x10000000 + n * 0x1000 + off - 0x10000000) / 0x1000 = n := by omega
  have hr : (0x10000000 + n * 0x1000 + off) % 0x1000 = off := by omega
  unfold devRead
  simp only [hb, hr]
  rw [if_pos (by omega)]

end Blocks

/-! ### REGISTER_WRITE of a device register (R7, R8) -/

theorem exec_registerWrite_device (s : State) (m : Master) {a : Nat} (v : Word) (ha : a < 2 ^ 32) (h4 : a % 4 = 0) :
    exec (.registerWrite m (.device (BitVec.ofNat 32 a) v)) s = .next (if reaches s m a = true then (devWrite s m a v).1 else s) := by
  have hx : exec (.registerWrite m (.device (BitVec.ofNat 32 a) v)) s = execRegisterWrite m (.device (BitVec.ofNat 32 a) v) s := rfl
  have hn : (BitVec.ofNat 32 a).toNat = a := by rw [BitVec.toNat_ofNat, Nat.mod_eq_of_lt ha]
  simp only [hx, execRegisterWrite, hn, h4, true_and]

/-- A Lens core's write meets its own core block only (R145). -/
theorem exec_registerWrite_coreBlock {s : State} {m n off : Nat} (hm : m < nCores s) (hn : n < nCores s) (ho : off < 0x1000) (h4 : off % 4 = 0)
    (v : Word) :
    exec (.registerWrite (.core m) (.device (BitVec.ofNat 32 (0x10000000 + n * 0x1000 + off)) v)) s =
      .next (if n = m then coreWrite s n off v false else s) := by
  have hle := nCores_le s
  have hl : (Master.core m == .loupe) = false := rfl
  rw [exec_registerWrite_device s _ v (by omega) (by omega), reaches_coreBlock (corePresent_lens hm) hn ho, isWarden_lens hm,
    devWrite_coreBlock _ v hn ho, hl]
  simp only [Bool.false_or, decide_eq_true_eq]

theorem exec_registerWrite_ownCluster {s : State} {n off : Nat} (hn : n < nCores s) (ho : off < 0x10000) (h4 : off % 4 = 0) (v : Word) :
    exec (.registerWrite (.core n) (.device (BitVec.ofNat 32 (0x11000000 + n / 4 * 0x10000 + off)) v)) s =
      .next (clusterWrite s (.core n) (n / 4) off v) := by
  have hc : n / 4 < nClusters s := clusterOf_lt hn
  have hle := nClusters_le s
  rw [exec_registerWrite_device s _ v (by omega) (by omega), reaches_clusterBlock (corePresent_lens hn) hc ho, devWrite_clusterBlock _ v hc ho]
  simp [clusterOf]

/-- The quadrant blocks are written by wardens only (R226). -/
theorem exec_registerWrite_quadBlock {s : State} {m q off : Nat} (hm : corePresent s m = true) (hq : q < nQuads s) (ho : off < 0x100000)
    (h4 : off % 4 = 0) (v : Word) :
    exec (.registerWrite (.core m) (.device (BitVec.ofNat 32 (0x13000000 + q * 0x100000 + off)) v)) s =
      .next (if isWarden m = true then quadWrite s q off v else s) := by
  have hle := nQuads_le s
  rw [exec_registerWrite_device s _ v (by omega) (by omega), reaches_quadBlock hm hq ho, devWrite_quadBlock _ v hq ho]

/-! ### The registers named by the statement (R178, R194, R226) -/

theorem coreWrite_evovf (s : State) (n : Nat) (v : Word) :
    coreWrite s n 0x10C v false = setCore s n { getCore s n with e := { (getCore s n).e with evovf := v } } := rfl

theorem coreWrite_exstat (s : State) (n : Nat) (v : Word) : coreWrite s n 0x104 v false = setCore s n (exstatWrite (getCore s n) v) := rfl

theorem clusterWrite_clevt (s : State) (m : Master) (c : Nat) (v : Word) :
    clusterWrite s m c 0xA0 v = setCluster s c { getCluster s c with clevt := (getCluster s c).clevt &&& ~~~v } := rfl

theorem clusterWrite_cleven (s : State) (m : Master) (c : Nat) (v : Word) :
    clusterWrite s m c 0xA4 v = setCluster s c { getCluster s c with cleven := (v &&& clevenMask) ||| 0x070F0F00#32 } := rfl

theorem quadWrite_bethr (s : State) (q : Nat) (v : Word) :
    quadWrite s q 4 v = setQuad s q { getQuad s q with bethr := v.setWidth 16 } := rfl

theorem quadWrite_beevt (s : State) (q : Nat) (v : Word) :
    quadWrite s q 8 v = setQuad s q { getQuad s q with beevt := (getQuad s q).beevt &&& ~~~(v.setWidth 8) } := rfl

theorem coreRead_evovf (s : State) (n : Nat) : coreRead s n 0x10C false = some (s, (getCore s n).e.evovf) := rfl

/-! ### DEVICE_ACCESS_COMPLETION (R156) -/

theorem exec_deviceAccessCompletion (n : Nat) (s : State) : exec (.deviceAccessCompletion n) s = execDeviceAccessCompletion n s := rfl

/-- A device store that nothing blocks is performed at the head of the store buffer. -/
theorem deviceAccessCompletion_store {s : State} {n : Nat} {e : StoreEntry} {rest : List StoreEntry}
    (hst : (getCore s n).u.stores = e :: rest) (hk : e.kind = .device) (hb : storeBlocked s n e = false) :
    exec (.deviceAccessCompletion n) s = .next (deviceStore s n e) := by
  rw [exec_deviceAccessCompletion]
  simp [execDeviceAccessCompletion, hst, hk, hb]

/-- The high word of a device register pair is stored: the entry leaves the buffer, the register is written. -/
theorem deviceStore_high {s : State} {n : Nat} {e : StoreEntry} {rest : List StoreEntry} (hst : (getCore s n).u.stores = e :: rest)
    (hm : e.mask = 0xF0#8) (hlo : 0x10000000 ≤ 8 * e.word + 4) (hhi : 8 * e.word + 4 < 0x20000000) :
    deviceStore s n e =
      (devWrite (setCore s n { getCore s n with u := { (getCore s n).u with stores := rest } }) (.core n) (8 * e.word + 4)
        ((e.data >>> 32).setWidth 32)).1 := by
  have hlow : (e.mask &&& 0x0F#8 != 0#8) = false := by rw [hm]; decide
  simp [deviceStore, hlow, isDeviceAddr, hlo, hhi, modCore, hst]

/-- A device load that is alone in flight is returned. -/
theorem deviceAccessCompletion_load {s : State} {n : Nat} {l : Load} (hst : (getCore s n).u.stores = []) (hl : (getCore s n).u.loads = [l])
    (hk : l.kind = .device) (hd : l.data = none) : exec (.deviceAccessCompletion n) s = .next (returnLoad s n 0 l) := by
  have hb : loadBlocked s n [] l = false := by simp [loadBlocked, hst]
  rw [exec_deviceAccessCompletion]
  simp [execDeviceAccessCompletion, hst, hl, hk, hd, hb]

theorem stepLocked_device {n a : Nat} (kind : AccKind) (h : 0x10000000 ≤ a) : stepLocked n a kind = false := by
  have h1 : ¬ a < 0x10000 := by omega
  have h2 : ¬ a < 0x200000 := by omega
  simp [stepLocked, h1, h2]

theorem loadLate_device (s : State) (n : Nat) {l : Load} (hk : l.kind = .device) : loadLate s n l = countLate s n l.trig 3 := by
  have h : lsuHit n l = false := by simp [lsuHit, hk]
  simp [loadLate, h]

/-- The load of a register whose read changes nothing and does not wait: its lateness is counted, then its value delivered. -/
theorem returnLoad_register {s : State} {n : Nat} {l : Load} {v : Word} (hk : l.kind = .device) (hlo : 0x10000000 ≤ l.addr.toNat)
    (hhi : l.addr.toNat < 0x20000000) (hr : devRead s (.core n) l.addr.toNat = some (s, v)) :
    let d : LoadData := { val := v, pois := none }
    returnLoad s n 0 l = deliverLoad (setLoad (countLate s n l.trig 3) n 0 fun l => { l with data := some d }) n 0 { l with data := some d } d := by
  have hload : deviceLoad s n l = some (s, { val := v, pois := none }) := by simp [deviceLoad, isDeviceAddr, hlo, hhi, hr]
  simp only [returnLoad, stepLocked_device l.kind hlo, hload, loadLate_device s n hk]
  simp

/-- The delivery of an outstanding load of the running code that is alone in flight writes `lsu.out`. -/
theorem deliverLoad_alone {s : State} {n : Nat} {l : Load} {v : Word} (hl : (getCore s n).u.loads = [l]) (hf : l.toFrame = none)
    (ho : l.outst = true) :
    let d : LoadData := { val := v, pois := none }
    deliverLoad (setLoad s n 0 fun l => { l with data := some d }) n 0 { l with data := some d } d =
      setCore s n { getCore s n with u := { (getCore s n).u with
        loads := [{ l with data := some d, deliv := true }], sk := Tab.put 0x24B v (getCore s n).u.sk } } := by
  simp [deliverLoad, setLoad, modCore, hl, hf, ho, setSk]

theorem countLate_frame (s : State) (n trig lat : Nat) : countLate s n trig lat = { s with clusters := (countLate s n trig lat).clusters } := by
  unfold countLate
  split <;> rfl

@[simp] theorem getCore_countLate (s : State) (n trig lat m : Nat) : getCore (countLate s n trig lat) m = getCore s m := by
  rw [countLate_frame]
  rfl

theorem getCluster_countLate (s : State) (n trig lat d : Nat) :
    getCluster (countLate s n trig lat) d = if d = clusterOf n ∧ isDet s n = true
      then { getCluster s (clusterOf n) with
        overrun := min 0xFFFFFFFF ((getCluster s (clusterOf n)).overrun + ((getCore s n).i.steps - (trig + lat))) }
      else getCluster s d := by
  unfold countLate
  by_cases hdet : isDet s n = true
  · by_cases hd : d = clusterOf n
    · subst hd
      simp [hdet]
    · simp [hdet, hd, getCluster_modCluster_ne s hd]
  · simp [hdet]

/-- A core's device load of its own core block, alone in flight, of a register that reads as `v` at once. -/
theorem deviceAccessCompletion_load_coreBlock {s : State} {n off : Nat} {l : Load} {v : Word} (hn : n < nCores s) (hoff : off < 0x1000)
    (hv : coreRead s n off false = some (s, v)) (hst : (getCore s n).u.stores = []) (hl : (getCore s n).u.loads = [l])
    (hk : l.kind = .device) (hd : l.data = none) (hf : l.toFrame = none) (ho : l.outst = true)
    (ha : l.addr = BitVec.ofNat 32 (0x10000000 + n * 0x1000 + off)) :
    exec (.deviceAccessCompletion n) s = .next (setCore (countLate s n l.trig 3) n { getCore s n with u := { (getCore s n).u with
      loads := [{ l with data := some { val := v, pois := none }, deliv := true }], sk := Tab.put 0x24B v (getCore s n).u.sk } }) := by
  have hle := nCores_le s
  have hadr : l.addr.toNat = 0x10000000 + n * 0x1000 + off := by
    rw [ha, BitVec.toNat_ofNat, Nat.mod_eq_of_lt (by omega)]
  have hread : devRead s (.core n) l.addr.toNat = some (s, v) := by
    rw [hadr, devRead_coreBlock _ hn hoff]
    exact hv
  have hl' : (getCore (countLate s n l.trig 3) n).u.loads = [l] := by rw [getCore_countLate, hl]
  rw [deviceAccessCompletion_load hst hl hk hd, returnLoad_register hk (by omega) (by omega) hread, deliverLoad_alone hl' hf ho,
    getCore_countLate]

/-! ### REGISTER_WRITE of a dictionary entry (R331, orders 9 to 12 and 14) -/

theorem exec_registerWrite_entry (s : State) (m : Master) (idx sub : Nat) (v : Octets) :
    exec (.registerWrite m (.entry idx sub v)) s = .next (answered (entryWrite s idx sub v)) := rfl

theorem findEntry_unknown {s : State} {idx : Nat} (sub : Nat) (h : indexKnown idx = false) : findEntry s idx sub = .error 0x02000001 := by
  simp [findEntry, h]

theorem findEntry_absent {s : State} {idx sub : Nat} (h : indexKnown idx = true) (ha : indexAbsent s idx = true ∨ subAbsent s idx sub = true) :
    findEntry s idx sub = .error 0x02000006 := by
  rcases ha with ha | ha <;> simp [findEntry, h, ha, absentResource]

section Entry

variable {s : State} {idx sub : Nat} (hk : indexKnown idx = true) (hi : indexAbsent s idx = false) (hs : subAbsent s idx sub = false)
include hk hi hs

theorem findEntry_reserved (h : entInfo idx sub = none) : findEntry s idx sub = .error 0x02000002 := by simp [findEntry, hk, hi, hs, h]

theorem findEntry_ok {e : EntInfo} (h : entInfo idx sub = some e) : findEntry s idx sub = .ok e := by simp [findEntry, hk, hi, hs, h]

end Entry

theorem entryWrite_error {s : State} {idx sub c : Nat} (v : Octets) (h : findEntry s idx sub = .error c) :
    entryWrite s idx sub v = (s, some c) := by
  simp [entryWrite, h]

section Found

variable {s : State} {idx sub : Nat} {e : EntInfo} {v : Octets} (h : findEntry s idx sub = .ok e)
include h

theorem entryWrite_readOnly (hw : writable e = false) : entryWrite s idx sub v = (s, some 0x02000003) := by simp [entryWrite, h, hw]

theorem entryWrite_badLength (hw : writable e = true) (hz : tySize e.ty ≠ 0) (hv : v.length ≠ tySize e.ty) :
    entryWrite s idx sub v = (s, some 0x02000005) := by
  simp [entryWrite, h, hw, hz, hv]

theorem entryWrite_good (hw : writable e = true) (hv : v.length = tySize e.ty) : entryWrite s idx sub v = dictWrite s 0 idx sub v e := by
  simp [entryWrite, h, hw, hv]

end Found

theorem writable_iff (e : EntInfo) : writable e = true ↔ e.acc = .wo ∨ e.acc = .rw ∨ e.acc = .rws := by simp [writable, or_assoc]

theorem not_writable_iff (e : EntInfo) : writable e = false ↔ e.acc = .const ∨ e.acc = .ro := by
  unfold writable
  cases e.acc <;> decide

/-- A refused write ends with its abort code and changes nothing else. -/
theorem exec_registerWrite_refused {s : State} {idx sub c : Nat} {v : Octets} (m : Master) (h : entryWrite s idx sub v = (s, some c)) :
    exec (.registerWrite m (.entry idx sub v)) s = .next { s with lastAbort := some (BitVec.ofNat 32 c) } := by
  rw [exec_registerWrite_entry, h]
  rfl

/-- 0x1103:01, an RWS entry of two octets, takes 0 and 10 to 10,000. -/
theorem entryWrite_1103 (s : State) {v : Octets} (hlen : v.length = 2) (hv : ofLe v = 0 ∨ (10 ≤ ofLe v ∧ ofLe v ≤ 10000)) :
    entryWrite s 0x1103 1 v = (setEnt s 0x1103 1 (ofLe v), none) := by
  have hfind : findEntry s 0x1103 1 = .ok (rwsOf 3) := findEntry_ok (by decide) (by simp [indexAbsent]) (by simp [subAbsent]) (by decide)
  have hgood : plainGood 0x1103 1 (ofLe v) = true := by simpa [plainGood] using hv
  have hrws : rwsWrite s false 0x1103 1 (ofLe v) = (setEnt s 0x1103 1 (ofLe v), none) := by simp [rwsWrite, hgood]
  rw [entryWrite_good hfind (by decide) hlen, ← hrws]
  simp [dictWrite, numWrite, rwsOf, tySize]

/-! ### The statement -/

theorem coreBlock_writes {s : State} {n : Nat} (hn : n < nCores s) (v : Word) :
    exec (.registerWrite (.core n) (.device (BitVec.ofNat 32 (0x10000000 + n * 0x1000 + 0x10C)) v)) s =
        .next (setCore s n { getCore s n with e := { (getCore s n).e with evovf := v } }) ∧
      exec (.registerWrite (.core n) (.device (BitVec.ofNat 32 (0x10000000 + n * 0x1000 + 0x104)) v)) s =
        .next (setCore s n (exstatWrite (getCore s n) v)) := by
  constructor
  · rw [exec_registerWrite_coreBlock hn hn (by decide) (by decide), if_pos rfl, coreWrite_evovf]
  · rw [exec_registerWrite_coreBlock hn hn (by decide) (by decide), if_pos rfl, coreWrite_exstat]

theorem ownCluster_writes {s : State} {n : Nat} (hn : n < nCores s) (v : Word) :
    exec (.registerWrite (.core n) (.device (BitVec.ofNat 32 (0x11000000 + n / 4 * 0x10000 + 0xA0)) v)) s =
        .next (setCluster s (n / 4) { getCluster s (n / 4) with clevt := (getCluster s (n / 4)).clevt &&& ~~~v }) ∧
      exec (.registerWrite (.core n) (.device (BitVec.ofNat 32 (0x11000000 + n / 4 * 0x10000 + 0xA4)) v)) s =
        .next (setCluster s (n / 4) { getCluster s (n / 4) with cleven := (v &&& clevenMask) ||| 0x070F0F00#32 }) := by
  constructor
  · rw [exec_registerWrite_ownCluster hn (by decide) (by decide), clusterWrite_clevt]
  · rw [exec_registerWrite_ownCluster hn (by decide) (by decide), clusterWrite_cleven]

theorem quadBlock_warden_writes {s : State} {w q : Nat} (hw : w = 128 ∨ w = 129) (hq : q < nQuads s) (v : Word) :
    exec (.registerWrite (.core w) (.device (BitVec.ofNat 32 (0x13000000 + q * 0x100000 + 4)) v)) s =
        .next (setQuad s q { getQuad s q with bethr := v.setWidth 16 }) ∧
      exec (.registerWrite (.core w) (.device (BitVec.ofNat 32 (0x13000000 + q * 0x100000 + 8)) v)) s =
        .next (setQuad s q { getQuad s q with beevt := (getQuad s q).beevt &&& ~~~(v.setWidth 8) }) := by
  have hp : corePresent s w = true := by rcases hw with rfl | rfl <;> simp [corePresent]
  have hwd : isWarden w = true := by rcases hw with rfl | rfl <;> rfl
  constructor
  · rw [exec_registerWrite_quadBlock hp hq (by decide) (by decide), if_pos hwd, quadWrite_bethr]
  · rw [exec_registerWrite_quadBlock hp hq (by decide) (by decide), if_pos hwd, quadWrite_beevt]

theorem devWrite_evovf {s : State} {n : Nat} {k : LensCore} (hn : n < nCores s) (hk : getCore s n = k) (v : Word) :
    devWrite s (.core n) (0x10000000 + n * 0x1000 + 0x10C) v = (setCore s n { k with e := { k.e with evovf := v } }, true) := by
  subst hk
  exact devWrite_coreBlock (.core n) v hn (by decide)

/-- A device store of EVOVF at the head of the store buffer (R156). -/
theorem deviceAccessCompletion_store_evovf {s : State} {n : Nat} {e : StoreEntry} {rest : List StoreEntry} (hn : n < nCores s)
    (hst : (getCore s n).u.stores = e :: rest) (hk : e.kind = .device) (hb : storeBlocked s n e = false)
    (ha : 8 * e.word + 4 = 0x10000000 + n * 0x1000 + 0x10C) (hm : e.mask = 0xF0#8) :
    let k := { getCore s n with u := { (getCore s n).u with stores := rest } }
    exec (.deviceAccessCompletion n) s = .next (setCore (setCore s n k) n { k with e := { k.e with evovf := (e.data >>> 32).setWidth 32 } }) := by
  intro k
  have hle := nCores_le s
  have hnk : n < nCores (setCore s n k) := hn
  rw [deviceAccessCompletion_store hst hk hb, deviceStore_high hst hm (by omega) (by omega), ha]
  exact congrArg (fun r => Host.Outcome.next r.1) (devWrite_evovf hnk (getCore_setCore s n k) _)

/-- Settles O38: the blocks by address, then what each register takes; the device accesses at the head of the store buffer and alone in flight;
the orders of R331 for a dictionary entry. -/
theorem deviceRegisterAccesses : Obligations.DeviceRegisterAccesses := by
  unfold Obligations.DeviceRegisterAccesses
  refine ⟨fun s n hn => ⟨fun v => ?_, fun e rest hst hk hb ha hm => ?_, fun l hst hl hk hd hf ho ha => ?_⟩,
    fun s w q v hw hq => quadBlock_warden_writes hw hq v, fun s m idx sub v => ?_⟩
  case refine_1 =>
    obtain ⟨hevovf, hexstat⟩ := coreBlock_writes hn v
    obtain ⟨hclevt, hcleven⟩ := ownCluster_writes hn v
    refine ⟨hevovf, hexstat, hclevt, hcleven, fun m hm hne => ?_, fun q hq => ?_⟩
    · exact (exec_registerWrite_coreBlock hm hn (by decide) (by decide) v).trans (by rw [if_neg hne.symm])
    · exact (exec_registerWrite_quadBlock (corePresent_lens hn) hq (by decide) (by decide) v).trans (by simp [isWarden_lens hn])
  case refine_2 => exact deviceAccessCompletion_store_evovf hn hst hk hb ha hm
  case refine_3 =>
    refine ⟨_, deviceAccessCompletion_load_coreBlock hn (by decide) (coreRead_evovf s n) hst hl hk hd hf ho ha, ?_, fun m hm => ?_, fun d => ?_, ?_⟩
    · rw [countLate_frame]
      rfl
    · rw [getCore_setCore_ne _ hm, getCore_countLate]
    · exact getCluster_countLate s n l.trig 3 d
    · rw [getCore_setCore]
  case refine_4 =>
    refine ⟨fun h => ?_, fun h ha => ?_, fun ⟨hk, hi, hs⟩ h => ?_, fun ⟨hk, hi, hs⟩ e h => ⟨fun hacc => ?_, fun hacc hz hlen => ?_⟩, ?_⟩
    · exact exec_registerWrite_refused m (entryWrite_error v (findEntry_unknown sub h))
    · exact exec_registerWrite_refused m (entryWrite_error v (findEntry_absent h ha))
    · exact exec_registerWrite_refused m (entryWrite_error v (findEntry_reserved hk hi hs h))
    · exact exec_registerWrite_refused m (entryWrite_readOnly (findEntry_ok hk hi hs h) ((not_writable_iff e).2 hacc))
    · exact exec_registerWrite_refused m (entryWrite_badLength (findEntry_ok hk hi hs h) ((writable_iff e).2 hacc) hz hlen)
    · rintro rfl rfl hlen hv
      rw [exec_registerWrite_entry, entryWrite_1103 s hlen hv]
      rfl

end Sys2Proof.Machine

/-! SUPPORT. What the units of the pipe deliver: products, a divide, the oldest fpu operation (R39, R40, R89 to R91, R109). -/

namespace Sys2Proof.Machine

theorem onlyCore_setCore (s : State) (n : Nat) (k : LensCore) : OnlyCore n s (setCore s n k) := ⟨rfl, fun _ hm => getCore_setCore_ne s hm k⟩

theorem setPbit_eq (k : LensCore) (b : Nat) (v : Bool) : setPbit k b v = { k with bits := if b = 0 then k.bits else Tab.put b v k.bits } := by
  unfold setPbit
  split <;> rfl

theorem exec_mulProductDelivery (n : Nat) (s : State) :
    exec (.mulProductDelivery n) s = .next (setCore s n (deliverProducts (getCore s n).i.steps (getCore s n))) := rfl

/-- The last of the products due stands in MHI:MLO; those not yet due stay in flight. -/
theorem deliverProducts_due {st : Nat} {k : LensCore} {p : Product} (h : (k.u.prods.filter fun p => decide (p.due ≤ st)).getLast? = some p) :
    deliverProducts st k =
      { k with r := { k.r with mhi := p.hi, mlo := p.lo }, u := { k.u with prods := k.u.prods.filter fun p => decide (st < p.due) } } := by
  unfold deliverProducts
  split
  next hnil => simp [hnil] at h
  next => simp [h]

/-- The core after its divide in flight has delivered (R90, R91). -/
def divDelivered (k : LensCore) (d : DivOp) : LensCore :=
  let k1 := setSk (setSk { k with u := { k.u with div := none } } 0x233 d.quo) 0x234 d.rem
  match d.flag with | some b => setPbit k1 b true | none => k1

theorem exec_divDelivery {s : State} {n : Nat} {d : DivOp} (hd : (getCore s n).u.div = some d) (hdue : d.trig + divLatency s n ≤ (getCore s n).i.steps) :
    exec (.divDelivery n) s = .next (setCore s n (divDelivered (getCore s n) d)) := by
  show execDivDelivery n s = _
  simp only [execDivDelivery, hd, if_neg (Nat.not_lt.2 hdue)]
  rfl

theorem divDelivered_eq (s : State) (n : Nat) (d : DivOp) :
    divDelivered (getCore s n) d = { getCore s n with
      u := { (getCore s n).u with div := none, sk := Tab.put 0x234 d.rem (Tab.put 0x233 d.quo (getCore s n).u.sk) },
      bits := match d.flag with | some b => withBit s n b true | none => (getCore s n).bits } := by
  unfold divDelivered
  cases d.flag with
  | none => rfl
  | some b => exact setPbit_eq _ b true

theorem exec_fpuDelivery {s : State} {n : Nat} {f : FpuOp} {rest : List FpuOp} (hf : (getCore s n).u.fpu = f :: rest)
    (hdue : f.trig + f.lat ≤ (getCore s n).i.steps) :
    exec (.fpuDelivery n) s =
      .next (setCore s n (setSk (setSk { getCore s n with u := { (getCore s n).u with fpu := rest } } 0x292 f.out) 0x293 f.fl)) := by
  show execFpuDelivery n s = _
  simp only [execFpuDelivery, hf, if_neg (Nat.not_lt.2 hdue)]

/-- Settles O27: each delivery is one write of core `n`, whose products, divide or oldest fpu operation leave with it. -/
theorem pipeResultsReachTheirRegisters : Obligations.PipeResultsReachTheirRegisters := by
  unfold Obligations.PipeResultsReachTheirRegisters
  intro s n
  exact ⟨fun p hp => ⟨_, exec_mulProductDelivery n s, onlyCore_setCore .., (getCore_setCore ..).trans (deliverProducts_due hp)⟩, rfl,
    fun d hd hdue => ⟨_, exec_divDelivery hd hdue, onlyCore_setCore .., (getCore_setCore ..).trans (divDelivered_eq s n d)⟩,
    fun f rest hf hdue => ⟨_, exec_fpuDelivery hf hdue, onlyCore_setCore .., getCore_setCore ..⟩⟩

end Sys2Proof.Machine

/-! SUPPORT. The tables, folds over distinct numbers, and the entries and reserves a pace is checked against (R32, R33, R364, R365, R377). -/

namespace Sys2Proof

theorem Tab.find_put_same {α : Type} (k : Nat) (v : α) (t : Tab α) : Tab.find k (Tab.put k v t) = some v := by
  induction t with
  | nil => simp [Tab.put, Tab.find]
  | cons x t ih =>
    obtain ⟨i, w⟩ := x
    by_cases hi : i = k
    · simp [Tab.put, Tab.find, hi]
    · by_cases hk : k < i <;> simp [Tab.put, Tab.find, hi, hk, ih]

theorem Tab.get_of_not_mem {α : Type} (d : Nat → α) {k : Nat} {t : Tab α} (h : k ∉ t.map Prod.fst) : Tab.get d k t = d k := by
  induction t with
  | nil => rfl
  | cons x t ih =>
    obtain ⟨i, w⟩ := x
    obtain ⟨hi, ht⟩ : k ≠ i ∧ k ∉ t.map Prod.fst := by simpa using h
    simp [Tab.get, Ne.symm hi, ih ht]

end Sys2Proof

namespace Sys2Proof.Machine

theorem foldl_add_eq_sum {α : Type} (f : α → Nat) (l : List α) (a : Nat) : l.foldl (fun t x => t + f x) a = a + (l.map f).sum := by
  induction l generalizing a with
  | nil => rfl
  | cons x l ih => simp [ih, Nat.add_assoc]

/-! ### Folds over distinct numbers -/

section Folds

variable {σ : Type} {Q : Nat → σ → σ → Prop} (hr : ∀ c s, Q c s s) (ht : ∀ {c a b d}, Q c a b → Q c b d → Q c a d)
  {f : σ → Nat → σ} (hne : ∀ t {c d}, d ≠ c → Q d t (f t c))
include hr ht hne

/-- What no step of a fold but that of number `c` touches, the fold leaves alone where it does not reach `c`. -/
theorem foldl_keeps {c : Nat} {l : List Nat} (hc : c ∉ l) (s : σ) : Q c s (l.foldl f s) := by
  induction l generalizing s with
  | nil => exact hr c s
  | cons x l ih =>
    obtain ⟨hx, hl⟩ : c ≠ x ∧ c ∉ l := by simpa using hc
    exact ht (hne s hx) (ih hl _)

/-- Of the steps of a fold over distinct numbers only that of number `c` touches `c`. -/
theorem foldl_focus {c : Nat} {l : List Nat} (hl : l.Nodup) (hc : c ∈ l) (s : σ) : ∃ u, Q c s u ∧ Q c (f u c) (l.foldl f s) := by
  induction l generalizing s with
  | nil => cases hc
  | cons x l ih =>
    obtain ⟨hx, hl⟩ := List.nodup_cons.1 hl
    by_cases h : c = x
    · subst h
      exact ⟨s, hr c s, foldl_keeps hr ht hne hx _⟩
    · obtain ⟨u, h1, h2⟩ := ih hl ((List.mem_cons.1 hc).resolve_left h) (f s x)
      exact ⟨u, ht (hne s h) h1, h2⟩

end Folds

/-- A fold whose every step is of a reflexive and transitive relation is. -/
theorem foldl_rel {σ α : Type} {R : σ → σ → Prop} (hr : ∀ s, R s s) (ht : ∀ {a b d}, R a b → R b d → R a d) {f : σ → α → σ}
    (h : ∀ t x, R t (f t x)) (l : List α) (s : σ) : R s (l.foldl f s) := by
  induction l generalizing s with
  | nil => exact hr s
  | cons x l ih => exact ht (h s x) (ih _)

/-! ### Entries -/

theorem entKey_inj {i j a b : Nat} (hj : j < 256) (hb : b < 256) (h : entKey i j = entKey a b) : (i, j) = (a, b) := by
  unfold entKey at h
  have : i = a ∧ j = b := by omega
  rw [this.1, this.2]

@[simp] theorem ent_setEnt (s : State) (i j v : Nat) : ent (setEnt s i j v) i j = v := Tab.get_put_same ..

theorem ent_setEnt_ne (s : State) {i j a b : Nat} (v : Nat) (hj : j < 256) (hb : b < 256) (h : (i, j) ≠ (a, b)) : ent (setEnt s a b v) i j = ent s i j :=
  Tab.get_put_ne _ (fun e => h (entKey_inj hj hb e)) ..

/-! ### Reserves (R365, R366) -/

/-- What cluster `c` takes of the budget at pace `p`: the floor of 4 steps while it runs free, else its reserve. -/
def reserveAt (s : State) (c p : Nat) : Nat := if p = 0 then 4 else max (ent s 0x2101 (c + 1)) (max 12 (22 - 2 * p))

/-- The inequality of R366, with cluster `c` at pace `p`. -/
def ReservesFit (s : State) (c p : Nat) : Prop :=
  ((List.range (nClusters s)).map fun i => reserveAt s i (if i = c then p else (getCluster s i).pace)).sum + sharedPeak s ≤ ent s 0x2100 1

theorem paceReserve_eq {p : Nat} (h : p ≠ 0) : paceReserve p = max 12 (22 - 2 * p) := by
  unfold paceReserve
  split_ifs <;> omega

theorem reserveOf_eq (s : State) (c : Nat) {p : Nat} (h : p ≠ 0) : reserveOf s c p = reserveAt s c p := by
  unfold reserveOf reserveAt requestOf
  rw [if_neg h, if_neg h, paceReserve_eq h]

theorem reserveNeed_eq (s : State) (c p : Nat) : reserveNeed s c p =
    ((List.range (nClusters s)).map fun i => reserveAt s i (if i = c then p else (getCluster s i).pace)).sum + sharedPeak s := by
  have hterm : ∀ i q : Nat, (if q = 0 then 4 else reserveOf s i q) = reserveAt s i q := by
    intro i q
    split
    next h => rw [h]; rfl
    next h => exact reserveOf_eq s i h
  simp only [reserveNeed, hterm, foldl_add_eq_sum, Nat.add_comm (sharedPeak s)]

theorem reserveFits_iff (s : State) (c p : Nat) : reserveFits s c p = true ↔ ReservesFit s c p := by
  rw [reserveFits, decide_eq_true_iff, reserveNeed_eq]
  rfl

/-! ### PACE_WRITE (R32 to R34, R366) -/

theorem exec_paceWrite (c v : Nat) (s : State) : exec (.paceWrite c v) s = .next (answered (paceRequest s c v none)) := rfl

section PaceWrite

variable {s : State} {c v : Nat}

theorem slowsDown_iff : slowsDown s c v = true ↔ 0 < (getCluster s c).pace ∧ (getCluster s c).pace < v := by
  simp [slowsDown, Nat.pos_iff_ne_zero]

/-- A core of the cluster serves, and its quadrant is neither above 105 °C nor in state 2 (R33). -/
def Cool (s : State) (c : Nat) : Prop :=
  servingCores s c ≠ [] ∧ Tab.get (fun _ => (0 : Int)) (c / 8) s.iris.temps ≤ 1050 ∧ Tab.get (fun _ => 0) (c / 8) s.iris.tstate ≠ 2

theorem not_cool_iff : ¬ Cool s c ↔
    servingCores s c = [] ∨ 1050 < Tab.get (fun _ => (0 : Int)) (c / 8) s.iris.temps ∨ Tab.get (fun _ => 0) (c / 8) s.iris.tstate = 2 := by
  unfold Cool
  by_cases h : servingCores s c = [] <;> simp [h]
  omega

theorem paceRefused_lowSupply (h : s.iris.vcore < 700) : paceRefused s c v = some 0x04000001 := by simp [paceRefused, h]

theorem paceRefused_reserves (hv : 700 ≤ s.iris.vcore) (hs : ¬ (0 < (getCluster s c).pace ∧ (getCluster s c).pace < v)) (hf : ¬ ReservesFit s c v) :
    paceRefused s c v = some 0x03000003 := by
  rw [← slowsDown_iff] at hs
  rw [← reserveFits_iff] at hf
  simp [paceRefused, Nat.not_lt.2 hv, hs, hf]

theorem paceRefused_cool (hv : 700 ≤ s.iris.vcore) (hs : (0 < (getCluster s c).pace ∧ (getCluster s c).pace < v) ∨ ReservesFit s c v) :
    (Cool s c → paceRefused s c v = none) ∧ (¬ Cool s c → paceRefused s c v = some 0x04000001) := by
  rw [← slowsDown_iff, ← reserveFits_iff] at hs
  have hpass : ¬ ((!slowsDown s c v && !reserveFits s c v) = true) := by rcases hs with hs | hs <;> simp [hs]
  simp only [paceRefused, if_neg (Nat.not_lt.2 hv), if_neg hpass, List.isEmpty_iff]
  constructor
  · rintro ⟨hne, ht, hst⟩
    simp [hne, Int.not_lt.2 ht, hst]
  · intro h
    rcases not_cool_iff.1 h with h | h
    · simp [h]
    · simp [h]

theorem paceCheck_absent (h : nClusters s ≤ c) : paceCheck s c v = some 0x02000006 := by simp [paceCheck, h]

theorem paceCheck_outOfRange (hc : c < nClusters s) (h : 5 < v) : paceCheck s c v = some 0x03000001 := by simp [paceCheck, Nat.not_le.2 hc, h]

theorem paceCheck_paced (hc : c < nClusters s) (h0 : 0 < v) (h5 : v ≤ 5) : paceCheck s c v = paceRefused s c v := by
  simp [paceCheck, Nat.not_le.2 hc, Nat.not_lt.2 h5, Nat.pos_iff_ne_zero.1 h0]

theorem paceCheck_zero (hc : c < nClusters s) : paceCheck s c 0 =
    if (getCluster s c).broken = true ∧ (getCluster s c).why = 1 ∧ Tab.get (fun _ => 0) (c / 8) s.iris.tstate = 2 then some 0x04000001 else none := by
  simp [paceCheck, Nat.not_le.2 hc]

theorem paceWrite_refused {e : Nat} (hsw : c < nClusters s → (getCluster s c).sw = none) (h : paceCheck s c v = some e) :
    exec (.paceWrite c v) s = .next { s with lastAbort := some (BitVec.ofNat 32 e) } := by
  have hidle : ¬ (c < nClusters s ∧ (getCluster s c).sw.isSome = true) := fun ⟨hc, hs⟩ => by simp [hsw hc] at hs
  rw [exec_paceWrite, paceRequest, if_neg hidle, h]
  rfl

theorem paceWrite_accepted (hsw : (getCluster s c).sw = none) (h : paceCheck s c v = none) :
    exec (.paceWrite c v) s = .next { paceAccept s c v none with lastAbort := none } := by
  have hidle : ¬ (c < nClusters s ∧ (getCluster s c).sw.isSome = true) := by simp [hsw]
  rw [exec_paceWrite, paceRequest, if_neg hidle, h]
  rfl

theorem paceWrite_waits (hc : c < nClusters s) (hsw : (getCluster s c).sw ≠ none) :
    exec (.paceWrite c v) s =
      .next { setCluster s c { getCluster s c with sw2 := (getCluster s c).sw2 ++ [(v, none)] } with lastAbort := none } := by
  rw [exec_paceWrite, paceRequest, if_pos ⟨hc, Option.isSome_iff_ne_none.2 hsw⟩]
  rfl

/-- A write between free-running and paced begins a switch (R34, R35). -/
theorem paceAccept_switch (r : Option Reply) (h : ((getCluster s c).pace = 0) ≠ (v = 0)) : paceAccept s c v r =
    setEnt (setCluster s c { getCluster s c with broken := false, sw := some v, swAns := r }) 0x2010 (c + 1) v := by
  rw [paceAccept, if_neg h]
  show modCluster (setEnt _ _ _ _) _ _ = _
  unfold modCluster setEnt
  simp [setCluster, getCluster, Tab.get_put_same, Tab.put_put]

/-- A write within a mode clears the broken mark and sets the pace (R34, R37). -/
theorem paceAccept_set (r : Option Reply) (h : ¬ ((getCluster s c).pace = 0) ≠ (v = 0)) : ∃ b, (((getCluster s c).pace ≠ v) → b = true) ∧
    paceAccept s c v r = { setEnt (setCluster s c { getCluster s c with broken := false, pace := v }) 0x2010 (c + 1) v with
      iris := { s.iris with fresh := b } } := by
  rw [paceAccept, if_pos (not_not.1 h)]
  split
  next heq =>
    refine ⟨s.iris.fresh, fun hne => absurd heq hne, ?_⟩
    subst heq
    rfl
  next =>
    refine ⟨true, fun _ => rfl, ?_⟩
    simp [wantAllot, modCluster, setEnt, setCluster, getCluster, Tab.get_put_same, Tab.put_put]

end PaceWrite

end Sys2Proof.Machine

/-! SUPPORT. What PACE_WRITE and BUDGET_WRITE do (R32 to R35, R351, R366, R377). -/

namespace Sys2Proof.Machine

section PaceWrite

variable {s : State} {c v : Nat}

/-- What an accepted pace write leaves: the entry set, the mark cleared, and the pace set or a switch begun. -/
theorem paceAccept_spec (hc : c < nClusters s) (hn : nClusters s ≤ 32) (hw : exec (.paceWrite c v) s = .next { paceAccept s c v none with lastAbort := none }) :
    ∃ t, exec (.paceWrite c v) s = .next t ∧ (∀ d, d ≠ c → getCluster t d = getCluster s d) ∧ ent t 0x2010 (c + 1) = v ∧
      (∀ i j, j < 256 → (i, j) ≠ (0x2010, c + 1) → ent t i j = ent s i j) ∧
      t = { s with clusters := t.clusters, ent := t.ent, iris := { s.iris with fresh := t.iris.fresh }, lastAbort := none } ∧
      (((getCluster s c).pace = 0) ≠ (v = 0) → getCluster t c = { getCluster s c with broken := false, sw := some v, swAns := none }) ∧
      (¬ ((getCluster s c).pace = 0) ≠ (v = 0) →
        getCluster t c = { getCluster s c with broken := false, pace := v } ∧ ((getCluster s c).pace ≠ v → t.iris.fresh = true)) := by
  have hent : ∀ {x : State}, x.ent = s.ent → ∀ i j, j < 256 → (i, j) ≠ (0x2010, c + 1) → ent (setEnt x 0x2010 (c + 1) v) i j = ent s i j := by
    intro x hx i j hj hne
    rw [ent_setEnt_ne x v hj (by omega) hne, ent, hx, ent]
  refine ⟨_, hw, ?_⟩
  by_cases hswitch : ((getCluster s c).pace = 0) ≠ (v = 0)
  · rw [paceAccept_switch none hswitch]
    exact ⟨fun d hd => getCluster_setCluster_ne s hd _, ent_setEnt .., hent rfl, rfl, fun _ => getCluster_setCluster .., fun h => absurd hswitch h⟩
  · obtain ⟨b, hb, heq⟩ := paceAccept_set (s := s) (c := c) (v := v) none hswitch
    rw [heq]
    exact ⟨fun d hd => getCluster_setCluster_ne s hd _, ent_setEnt (setCluster s c _) .., hent (x := setCluster s c _) rfl, rfl, fun h => absurd h hswitch,
      fun _ => ⟨getCluster_setCluster .., hb⟩⟩

theorem paceWrite_spec (s : State) (c v : Nat) :
    let x := getCluster s c
    let no := fun (e : Word) => exec (.paceWrite c v) s = .next { s with lastAbort := some e }
    let slower := 0 < x.pace ∧ x.pace < v
    let here := c < nClusters s ∧ x.sw = none
    let set_ := here ∧ 0 < v ∧ v ≤ 5
    let heat := Tab.get (fun _ => 0) (c / 8) s.iris.tstate
    (nClusters s ≤ c → no 0x02000006#32) ∧
    (here → 5 < v → no 0x03000001#32) ∧
    (set_ → s.iris.vcore < 700 → no 0x04000001#32) ∧
    (set_ → 700 ≤ s.iris.vcore → ¬ slower → ¬ ReservesFit s c v → no 0x03000003#32) ∧
    (set_ → 700 ≤ s.iris.vcore → slower ∨ ReservesFit s c v → ¬ Cool s c → no 0x04000001#32) ∧
    (here → v = 0 → x.broken = true → x.why = 1 → heat = 2 → no 0x04000001#32) ∧
    ((set_ ∧ 700 ≤ s.iris.vcore ∧ (slower ∨ ReservesFit s c v) ∧ Cool s c) ∨ (here ∧ v = 0 ∧ ¬ (x.broken = true ∧ x.why = 1 ∧ heat = 2)) →
      exec (.paceWrite c v) s = .next { paceAccept s c v none with lastAbort := none }) := by
  refine ⟨fun h => ?_, fun ⟨hc, hsw⟩ h5 => ?_, fun ⟨⟨hc, hsw⟩, h0, h5⟩ hv => ?_, fun ⟨⟨hc, hsw⟩, h0, h5⟩ hv hs hf => ?_,
    fun ⟨⟨hc, hsw⟩, h0, h5⟩ hv hs hcool => ?_, fun ⟨hc, hsw⟩ h0 hb hwhy hst => ?_, ?_⟩
  · exact paceWrite_refused (fun hc => absurd h (Nat.not_le.2 hc)) (paceCheck_absent h)
  · exact paceWrite_refused (fun _ => hsw) (paceCheck_outOfRange hc h5)
  · exact paceWrite_refused (fun _ => hsw) ((paceCheck_paced hc h0 h5).trans (paceRefused_lowSupply hv))
  · exact paceWrite_refused (fun _ => hsw) ((paceCheck_paced hc h0 h5).trans (paceRefused_reserves hv hs hf))
  · exact paceWrite_refused (fun _ => hsw) ((paceCheck_paced hc h0 h5).trans ((paceRefused_cool hv hs).2 hcool))
  · subst h0
    exact paceWrite_refused (fun _ => hsw) ((paceCheck_zero hc).trans (if_pos ⟨hb, hwhy, hst⟩))
  · rintro (⟨⟨⟨hc, hsw⟩, h0, h5⟩, hv, hs, hcool⟩ | ⟨⟨hc, hsw⟩, rfl, hmark⟩)
    · exact paceWrite_accepted hsw ((paceCheck_paced hc h0 h5).trans ((paceRefused_cool hv hs).1 hcool))
    · exact paceWrite_accepted hsw ((paceCheck_zero hc).trans (if_neg hmark))

end PaceWrite

/-! ### BUDGET_WRITE (R351, R366, R377) -/

/-- The reserves are checked of the entry to be written; nothing else of the state after the write enters the check. -/
theorem pacedFit_wantAllot (s : State) : pacedFit (wantAllot s) = pacedFit s := rfl

theorem exec_budgetWrite {idx sub : Nat} (h : (idx = 0x2100 ∧ sub = 1) ∨ (idx = 0x2101 ∧ 1 ≤ sub ∧ sub ≤ 32)) (v : Nat) (s : State) :
    exec (.budgetWrite idx sub v) s = .next (answered (budgetWrite s idx sub v)) := if_pos h

theorem budgetWrite_refused {s : State} {idx sub v e : Nat} (h : (idx = 0x2100 ∧ sub = 1) ∨ (idx = 0x2101 ∧ 1 ≤ sub ∧ sub ≤ 32))
    (hw : budgetWrite s idx sub v = (s, some e)) : exec (.budgetWrite idx sub v) s = .next { s with lastAbort := some (BitVec.ofNat 32 e) } := by
  rw [exec_budgetWrite h, hw]
  rfl

theorem budgetWrite_spec (s : State) {idx sub v : Nat} (h : (idx = 0x2100 ∧ sub = 1) ∨ (idx = 0x2101 ∧ 1 ≤ sub ∧ sub ≤ 32)) :
    let s1 := { s with ent := Tab.put (entKey idx sub) v s.ent }
    let no := fun (e : Word) => exec (.budgetWrite idx sub v) s = .next { s with lastAbort := some e }
    (idx = 0x2100 → v = 0 ∨ 960 < v → no 0x03000001#32) ∧
    (idx = 0x2101 → nClusters s < sub → no 0x02000006#32) ∧
    ((idx = 0x2100 ∧ 0 < v ∧ v ≤ 960) ∨ (idx = 0x2101 ∧ sub ≤ nClusters s) →
      (pacedFit s1 = false → no 0x03000003#32) ∧
      (pacedFit s1 = true → exec (.budgetWrite idx sub v) s = .next { s1 with
        iris := (if idx = 0x2100 then { s.iris with fresh := true, overs := 0, within := s.tb } else { s.iris with fresh := true }),
        lastAbort := none })) := by
  intro s1 no
  have hfit : pacedFit (wantAllot (setEnt s idx sub v)) = pacedFit s1 := pacedFit_wantAllot _
  rcases h with ⟨rfl, rfl⟩ | ⟨rfl, h1, h32⟩
  · refine ⟨fun _ hv => budgetWrite_refused (.inl ⟨rfl, rfl⟩) (by simp [budgetWrite, hv]), fun h => absurd h (by decide), fun hv => ?_⟩
    have hgood : ¬ (v = 0 ∨ 960 < v) := by omega
    refine ⟨fun hp => budgetWrite_refused (.inl ⟨rfl, rfl⟩) (by simp [budgetWrite, hgood, hfit, hp]), fun hp => ?_⟩
    rw [exec_budgetWrite (.inl ⟨rfl, rfl⟩)]
    simp only [budgetWrite, hfit, hp, if_neg hgood]
    rfl
  · refine ⟨fun h => absurd h (by decide), fun _ hn => budgetWrite_refused (.inr ⟨rfl, h1, h32⟩) ?_, fun hn => ?_⟩
    · have hn : nClusters s ≤ sub - 1 := by omega
      simp [budgetWrite, hn]
    have hn : ¬ nClusters s ≤ sub - 1 := by omega
    refine ⟨fun hp => budgetWrite_refused (.inr ⟨rfl, h1, h32⟩) (by simp [budgetWrite, hn, hfit, hp]), fun hp => ?_⟩
    rw [exec_budgetWrite (.inr ⟨rfl, h1, h32⟩)]
    simp only [budgetWrite, hfit, hp, if_neg hn]
    rfl

end Sys2Proof.Machine

/-! SUPPORT. The Iris registers of a cluster, and what the measurement of one cluster does to them (R368, R369, R374). -/

namespace Sys2Proof.Machine

/-! ### The Iris registers of a cluster (R374) -/

@[simp] theorem getIr_setIr (s : State) (c : Nat) (v : IrisCl) : getIr (setIr s c v) c = v := Tab.get_put_same ..

theorem getIr_setIr_ne (s : State) {c d : Nat} (h : d ≠ c) (v : IrisCl) : getIr (setIr s c v) d = getIr s d := Tab.get_put_ne _ h ..

@[simp] theorem getIr_raise (s : State) (src c : Nat) : getIr (raise s src) c = getIr s c := rfl

/-- The registers with bit `i` of STOP, PBRK, SATUR, OVRES set. -/
def irFlag (v : IrisCl) (i : Nat) : IrisCl :=
  { v with stop := v.stop || i == 0, pbrk := v.pbrk || i == 1, satur := v.satur || i == 2, ovres := v.ovres || i == 3 }

theorem setIrBit_eq (s : State) (c i : Nat) : setIrBit s c i =
    if irBits (getIr s c) / 2 ^ i % 2 = 0 ∧ s.iris.clen.getLsbD i = true then raise (setIr s c (irFlag (getIr s c) i)) (704 + c)
    else setIr s c (irFlag (getIr s c) i) := rfl

theorem getIr_setIrBit (s : State) (c i : Nat) : getIr (setIrBit s c i) c = irFlag (getIr s c) i := by
  rw [setIrBit_eq]
  split <;> exact getIr_setIr ..

/-- Event 704 + c is raised as the bit rises while enabled. -/
theorem raised_setIrBit {s : State} {c i : Nat} (hb : irBits (getIr s c) / 2 ^ i % 2 = 0) (he : s.iris.clen.getLsbD i = true) :
    704 + c ∈ (setIrBit s c i).router.raised := by
  rw [setIrBit_eq, if_pos ⟨hb, he⟩]
  exact List.mem_append_right _ (List.mem_singleton_self _)

theorem irBits_stop {v : IrisCl} (h : v.stop = false) : irBits v / 2 ^ 0 % 2 = 0 := by
  simp only [irBits, h]
  split_ifs <;> simp_all

theorem irBits_pbrk {v : IrisCl} (h : v.pbrk = false) : irBits v / 2 ^ 1 % 2 = 0 := by
  simp only [irBits, h]
  split_ifs <;> simp_all

@[simp] theorem irFlag_stop (v : IrisCl) : irFlag v 0 = { v with stop := true } := by simp [irFlag]

@[simp] theorem irFlag_pbrk (v : IrisCl) : irFlag v 1 = { v with pbrk := true } := by simp [irFlag]

@[simp] theorem irFlag_satur (v : IrisCl) : irFlag v 2 = { v with satur := true } := by simp [irFlag]

@[simp] theorem irFlag_ovres (v : IrisCl) : irFlag v 3 = { v with ovres := true } := by simp [irFlag]

/-- Of the state only the Iris registers of the clusters of `P`, the dictionary's counts and the events raised differ, and those only grow. -/
structure IrisBut (P : Nat → Prop) (s t : State) : Prop where
  only : t = { s with iris := { s.iris with cl := t.iris.cl }, ent := t.ent, router := { s.router with raised := t.router.raised } }
  raised : s.router.raised ⊆ t.router.raised
  budget : budgetOf t = budgetOf s
  other : ∀ d, ¬ P d → getIr t d = getIr s d

namespace IrisBut

variable {P P' : Nat → Prop} {s t u : State}

theorem refl (s : State) : IrisBut P s s := ⟨rfl, List.Subset.refl _, rfl, fun _ _ => rfl⟩

theorem trans (h1 : IrisBut P s t) (h2 : IrisBut P t u) : IrisBut P s u where
  only := h2.only.trans (by rw [h1.only])
  raised := List.Subset.trans h1.raised h2.raised
  budget := h2.budget.trans h1.budget
  other d hd := (h2.other d hd).trans (h1.other d hd)

theorem mono (h : IrisBut P s t) (hP : ∀ d, P d → P' d) : IrisBut P' s t := ⟨h.only, h.raised, h.budget, fun d hd => h.other d fun h' => hd (hP d h')⟩

theorem ite {p : Prop} [Decidable p] (h1 : IrisBut P s t) (h2 : IrisBut P s u) : IrisBut P s (if p then t else u) := by split <;> assumption

theorem clusters (h : IrisBut P s t) : t.clusters = s.clusters := by rw [h.only]

theorem iris (h : IrisBut P s t) : ∃ cl, t.iris = { s.iris with cl } := ⟨t.iris.cl, by rw [h.only]⟩

theorem isPaced (h : IrisBut P s t) (c : Nat) : isPaced t c = isPaced s c := by rw [Machine.isPaced, getCluster, h.clusters]; rfl

theorem clen (h : IrisBut P s t) : t.iris.clen = s.iris.clen := by rw [h.only]

theorem raise (s : State) (src : Nat) : IrisBut P s (raise s src) := ⟨rfl, List.subset_append_left _ _, rfl, fun _ _ => rfl⟩

theorem setIr (s : State) (c : Nat) (v : IrisCl) : IrisBut (· = c) s (setIr s c v) :=
  ⟨rfl, List.Subset.refl _, rfl, fun _ hd => getIr_setIr_ne s hd v⟩

theorem setIrBit (s : State) (c i : Nat) : IrisBut (· = c) s (setIrBit s c i) := by
  rw [setIrBit_eq]
  split
  · exact (setIr ..).trans (raise ..)
  · exact setIr ..

/-- The count of stop-downs (R363). -/
theorem bumpEnt (s : State) : IrisBut P s (bumpEnt s 0x2100 6) :=
  ⟨rfl, List.Subset.refl _, ent_setEnt_ne s _ (by decide) (by decide) (by decide), fun _ _ => rfl⟩

end IrisBut

/-! ### A measurement (R363, R368, R369) -/

section Measure

variable {s : State} {c m : Nat}

theorem measureCluster_paced (hp : isPaced s c = true) : measureCluster s c m =
    (let s1 := setIr s c { getIr s c with meas := m, level := 0, low := 0 }
     if 125 * max 4 (getIr s c).allot < m then setIrBit s1 c 3 else s1) := by
  simp only [measureCluster, hp, if_true]

theorem measureCluster_free (hp : isPaced s c = false) : measureCluster s c m =
    (let v := getIr s c
     let a := 125 * max 4 v.allot
     let r := nextLevel v.level v.low m a
     let s1 := setIr s c { v with meas := m, level := r.1, low := r.2 }
     let s2 := if v.level = 0 ∧ r.1 ≠ 0 then bumpEnt (setIrBit s1 c 0) 0x2100 6 else s1
     if v.level = 15 ∧ a < m then setIrBit s2 c 2 else s2) := by
  simp [measureCluster, hp]

/-- The registers of a paced cluster after a measurement: its level is 0, and OVRES tells that it drew more than its reserve. -/
theorem getIr_measureCluster_paced (hp : isPaced s c = true) : getIr (measureCluster s c m) c = { getIr s c with
    meas := m, level := 0, low := 0, ovres := (getIr s c).ovres || decide (125 * max 4 (getIr s c).allot < m) } := by
  rw [measureCluster_paced hp]
  by_cases h : 125 * max 4 (getIr s c).allot < m <;> simp [h, getIr_setIrBit]

/-- The registers of a free-running cluster after a measurement: its level by the table of R368, STOP as it leaves 0, SATUR past 15. -/
theorem getIr_measureCluster_free (hp : isPaced s c = false) :
    let v := getIr s c
    let a := 125 * max 4 v.allot
    let r := nextLevel v.level v.low m a
    getIr (measureCluster s c m) c = { v with
      meas := m, level := r.1, low := r.2, stop := v.stop || decide (v.level = 0 ∧ r.1 ≠ 0), satur := v.satur || decide (v.level = 15 ∧ a < m) } := by
  have hbump : ∀ x : State, getIr (bumpEnt x 0x2100 6) c = getIr x c := fun _ => rfl
  rw [measureCluster_free hp]
  dsimp only
  generalize nextLevel _ _ _ _ = r
  by_cases hstop : (getIr s c).level = 0 ∧ r.1 ≠ 0 <;> by_cases hsat : (getIr s c).level = 15 ∧ 125 * max 4 (getIr s c).allot < m <;>
    simp [hstop, hsat, getIr_setIrBit, hbump]

/-- STOP rising while enabled raises the cluster's event. -/
theorem raised_measureCluster (hp : isPaced s c = false) (hs : (getIr s c).stop = false) (hs' : (getIr (measureCluster s c m) c).stop = true)
    (he : s.iris.clen.getLsbD 0 = true) : 704 + c ∈ (measureCluster s c m).router.raised := by
  have hrise : (getIr s c).level = 0 ∧ (nextLevel (getIr s c).level (getIr s c).low m (125 * max 4 (getIr s c).allot)).1 ≠ 0 := by
    rw [getIr_measureCluster_free hp] at hs'
    simpa [hs] using hs'
  rw [measureCluster_free hp]
  dsimp only
  rw [if_pos hrise]
  have hraise : ∀ v : IrisCl, v.stop = false → 704 + c ∈ (setIrBit (setIr s c v) c 0).router.raised := fun v hv =>
    raised_setIrBit (by rw [getIr_setIr]; exact irBits_stop hv) he
  exact ((IrisBut.bumpEnt _).trans (.ite (P := (· = c)) (.setIrBit ..) (.refl _))).raised (hraise _ hs)

theorem irisBut_measureCluster (s : State) (c m : Nat) : IrisBut (· = c) s (measureCluster s c m) := by
  cases hp : isPaced s c with
  | true =>
    rw [measureCluster_paced hp]
    exact .ite ((IrisBut.setIr ..).trans (.setIrBit ..)) (.setIr ..)
  | false =>
    rw [measureCluster_free hp]
    exact .trans (.ite (((IrisBut.setIr ..).trans (.setIrBit ..)).trans (.bumpEnt _)) (.setIr ..)) (.ite (.setIrBit ..) (.refl _))

/-- Of a round of measurements only that of cluster `c` touches its registers. -/
theorem measure_focus (meas : List Nat) (hc : c < nClusters s) : ∃ u, IrisBut (· ≠ c) s u ∧
    IrisBut (· ≠ c) (measureCluster u c (meas.getD c 0)) ((List.range (nClusters s)).foldl (fun t c => measureCluster t c (meas.getD c 0)) s) :=
  foldl_focus (Q := fun c => IrisBut (· ≠ c)) (f := fun t c => measureCluster t c (meas.getD c 0)) (fun _ => IrisBut.refl) IrisBut.trans
    (fun t d _ hne => (irisBut_measureCluster t d _).mono fun _ hx => hx ▸ hne.symm) List.nodup_range (List.mem_range.2 hc) s

theorem irisBut_measureAll (s : State) (meas : List Nat) (l : List Nat) :
    IrisBut (fun _ => True) s (l.foldl (fun t c => measureCluster t c (meas.getD c 0)) s) :=
  foldl_rel IrisBut.refl IrisBut.trans (fun t c => (irisBut_measureCluster t c _).mono fun _ _ => trivial) l s

end Measure

end Sys2Proof.Machine

/-! SUPPORT. A broken pace, a late handshake and a budget exceeded (R37, R38, R370, R371). -/

namespace Sys2Proof.Machine

/-! ### Broken and lowered paces (R37, R38, R372) -/

/-- Of the state only the clusters of `P` with their Iris registers, the events raised and the demand for new allotments differ, and those two
only grow. -/
structure PaceBut (P : Nat → Prop) (s t : State) : Prop where
  only : t = { s with clusters := t.clusters, iris := { s.iris with cl := t.iris.cl, fresh := t.iris.fresh },
                      router := { s.router with raised := t.router.raised } }
  raised : s.router.raised ⊆ t.router.raised
  fresh : s.iris.fresh = true → t.iris.fresh = true
  cluster : ∀ d, ¬ P d → getCluster t d = getCluster s d
  ir : ∀ d, ¬ P d → getIr t d = getIr s d

namespace PaceBut

variable {P P' : Nat → Prop} {s t u : State}

theorem refl (s : State) : PaceBut P s s := ⟨rfl, List.Subset.refl _, id, fun _ _ => rfl, fun _ _ => rfl⟩

theorem trans (h1 : PaceBut P s t) (h2 : PaceBut P t u) : PaceBut P s u where
  only := h2.only.trans (by rw [h1.only])
  raised := List.Subset.trans h1.raised h2.raised
  fresh := h2.fresh ∘ h1.fresh
  cluster d hd := (h2.cluster d hd).trans (h1.cluster d hd)
  ir d hd := (h2.ir d hd).trans (h1.ir d hd)

theorem mono (h : PaceBut P s t) (hP : ∀ d, P d → P' d) : PaceBut P' s t :=
  ⟨h.only, h.raised, h.fresh, fun d hd => h.cluster d fun h' => hd (hP d h'), fun d hd => h.ir d fun h' => hd (hP d h')⟩

theorem iris (h : PaceBut P s t) : ∃ cl fresh, t.iris = { s.iris with cl, fresh } := ⟨t.iris.cl, t.iris.fresh, by rw [h.only]⟩

theorem setCluster (s : State) (c : Nat) (v : Cluster) : PaceBut (· = c) s (setCluster s c v) :=
  ⟨rfl, List.Subset.refl _, id, fun _ hd => getCluster_setCluster_ne s hd v, fun _ _ => rfl⟩

theorem setIrBit (s : State) (c i : Nat) : PaceBut (· = c) s (setIrBit s c i) := by
  have h := IrisBut.setIrBit s c i
  have hent : (Machine.setIrBit s c i).ent = s.ent ∧ (Machine.setIrBit s c i).clusters = s.clusters := by
    rw [setIrBit_eq]
    split <;> exact ⟨rfl, rfl⟩
  obtain ⟨hent, hcl⟩ := hent
  refine ⟨h.only.trans ?_, h.raised, fun hf => ?_, fun d _ => ?_, h.other⟩
  · rw [hent, hcl]
    have hf : (Machine.setIrBit s c i).iris.fresh = s.iris.fresh := by rw [h.only]
    rw [hf]
  · rw [h.only]; exact hf
  · rw [getCluster, hcl, getCluster]

theorem wantAllot (s : State) : PaceBut P s (wantAllot s) := ⟨rfl, List.Subset.refl _, fun _ => rfl, fun _ _ => rfl, fun _ _ => rfl⟩

end PaceBut

theorem getCluster_setIrBit (s : State) (c i d : Nat) : getCluster (setIrBit s c i) d = getCluster s d := by
  rw [setIrBit_eq]
  split <;> rfl

section BreakPace

variable (s : State) (c why : Nat)

theorem getCluster_breakPace : getCluster (breakPace s c why) c = { getCluster s c with broken := true, why } := by
  rw [breakPace, getCluster_setIrBit, getCluster_modCluster]

theorem getIr_breakPace : getIr (breakPace s c why) c = { getIr s c with pbrk := true } := by
  rw [breakPace, getIr_setIrBit, irFlag_pbrk]
  rfl

theorem raised_breakPace (h : (getIr s c).pbrk = false) (he : s.iris.clen.getLsbD 1 = true) : 704 + c ∈ (breakPace s c why).router.raised :=
  raised_setIrBit (irBits_pbrk h) he

theorem paceBut_breakPace : PaceBut (· = c) s (breakPace s c why) := (PaceBut.setCluster ..).trans (PaceBut.setIrBit ..)

end BreakPace

/-! ### Late handshakes (R37) -/

/-- The cluster had a late step while VCORE stood below 0.70 V (log entry 48). -/
def Late (s : State) (c : Nat) : Prop := c < nClusters s ∧ (getCluster s c).pace ≠ 0 ∧ s.iris.vcore < 700 ∧ Config.lateStep s.free c = true

/-- The clusters of which a late handshake breaks the pace. -/
def lateClusters (s : State) : List Nat := ((List.range (nClusters s)).filter (isPaced s)).filter (Config.lateStep s.free)

theorem lateClusters_nodup (s : State) : (lateClusters s).Nodup := (List.nodup_range.filter _).filter _

theorem late_iff {s : State} {c : Nat} (hv : s.iris.vcore < 700) : Late s c ↔ c ∈ lateClusters s := by
  simp only [Late, lateClusters, isPaced, List.mem_filter, List.mem_range, bne_iff_ne, hv, true_and, and_assoc]

theorem lateHandshakes_none {s : State} (hv : 700 ≤ s.iris.vcore) : lateHandshakes s = s := if_pos hv

theorem lateHandshakes_some {s : State} (hv : s.iris.vcore < 700) :
    lateHandshakes s = (lateClusters s).foldl (fun t c => breakPace t c 2) { s with free := s.free + 1 } := if_neg (Nat.not_le.2 hv)

theorem paceBut_lateHandshakes {s : State} (hv : s.iris.vcore < 700) :
    PaceBut (fun _ => True) { s with free := s.free + 1 } (lateHandshakes s) := by
  rw [lateHandshakes_some hv]
  exact foldl_rel PaceBut.refl PaceBut.trans (fun t c => (paceBut_breakPace t c 2).mono fun _ _ => trivial) _ _

/-- A late cluster: its pace is broken with reason 2, and PBRK tells so. -/
theorem lateHandshakes_late {s : State} {c : Nat} (h : Late s c) :
    getCluster (lateHandshakes s) c = { getCluster s c with broken := true, why := 2 } ∧
    getIr (lateHandshakes s) c = { getIr s c with pbrk := true } ∧
    ((getIr s c).pbrk = false → s.iris.clen.getLsbD 1 = true → 704 + c ∈ (lateHandshakes s).router.raised) := by
  obtain ⟨-, -, hv, -⟩ := id h
  obtain ⟨u, h1, h2⟩ := foldl_focus (Q := fun c => PaceBut (· ≠ c)) (f := fun t c => breakPace t c 2) (fun _ => PaceBut.refl) PaceBut.trans
    (fun t d _ hne => (paceBut_breakPace t d 2).mono fun _ hx => hx ▸ hne.symm) (lateClusters_nodup s) ((late_iff hv).1 h) { s with free := s.free + 1 }
  rw [← lateHandshakes_some hv] at h2
  have hcl : getCluster u c = getCluster s c := h1.cluster c (by simp)
  have hir : getIr u c = getIr s c := h1.ir c (by simp)
  have hclen : u.iris.clen = s.iris.clen := by rw [h1.only]
  refine ⟨?_, ?_, fun hp he => h2.raised (raised_breakPace u c 2 (hir ▸ hp) (hclen ▸ he))⟩
  · rw [h2.cluster c (by simp), getCluster_breakPace, hcl]
  · rw [h2.ir c (by simp), getIr_breakPace, hir]

theorem lateHandshakes_other {s : State} {c : Nat} (h : ¬ Late s c) :
    getCluster (lateHandshakes s) c = getCluster s c ∧ getIr (lateHandshakes s) c = getIr s c := by
  rcases Nat.lt_or_ge s.iris.vcore 700 with hv | hv
  · have hk := foldl_keeps (Q := fun c => PaceBut (· ≠ c)) (f := fun t c => breakPace t c 2) (fun _ => PaceBut.refl) PaceBut.trans
      (fun t d _ hne => (paceBut_breakPace t d 2).mono fun _ hx => hx ▸ hne.symm) (fun hm => h ((late_iff hv).2 hm)) { s with free := s.free + 1 }
    rw [← lateHandshakes_some hv] at hk
    exact ⟨hk.cluster c (by simp), hk.ir c (by simp)⟩
  · rw [lateHandshakes_none hv]
    exact ⟨rfl, rfl⟩

/-! ### The budget exceeded (R371) -/

/-- The conditions under which a measurement finds the current emergency. -/
def Exceeds (s : State) (full : Bool) : Prop := 125 * budgetOf s < s.iris.pkg ∧ full = true ∧ 15 ≤ s.iris.overs ∧ s.iris.excess = false

theorem overBudget_spec (s : State) (full : Bool) : ∃ overs within excess emerg raised,
    overBudget s full = { s with iris := { s.iris with overs, within, excess, emerg }, router := { s.router with raised } } ∧
    s.router.raised ⊆ raised ∧ (Exceeds s full → excess = true ∧ emerg = true ∧ 771 ∈ raised) ∧
    (¬ Exceeds s full → emerg = s.iris.emerg ∧ (s.iris.excess = false → excess = false)) := by
  have hiff : (16 ≤ (if full then min 16 (s.iris.overs + 1) else 0) ∧ (!s.iris.excess) = true) ↔
      full = true ∧ 15 ≤ s.iris.overs ∧ s.iris.excess = false := by
    cases full <;> simp
  unfold overBudget
  by_cases hpkg : 125 * budgetOf s < s.iris.pkg
  · by_cases hx : full = true ∧ 15 ≤ s.iris.overs ∧ s.iris.excess = false
    · simp only [if_pos hpkg, if_pos (hiff.2 hx)]
      exact ⟨_, _, _, _, _, rfl, List.subset_append_left _ _, fun _ => ⟨rfl, rfl, List.mem_append_right _ (List.mem_singleton_self _)⟩,
        fun h => absurd ⟨hpkg, hx⟩ h⟩
    · simp only [if_pos hpkg, if_neg fun h => hx (hiff.1 h)]
      exact ⟨_, _, _, _, _, rfl, List.Subset.refl _, fun ⟨_, h⟩ => absurd h hx, fun _ => ⟨rfl, id⟩⟩
  · simp only [if_neg hpkg]
    exact ⟨_, _, _, _, _, rfl, List.Subset.refl _, fun ⟨h, _⟩ => absurd h hpkg, fun _ => ⟨rfl, fun hx => by simp [hx]⟩⟩

end Sys2Proof.Machine

/-! SUPPORT. The steps of IRIS_MEASUREMENT (R363, R368 to R371). -/

namespace Sys2Proof.Machine

/-! ### IRIS_MEASUREMENT (R363, R368 to R371) -/

/-- Every free-running cluster stands at L = 15. -/
def allStoppedDown (s : State) : Bool := (List.range (nClusters s)).all fun c => isPaced s c || (getIr s c).level == 15

theorem allStoppedDown_iff (s : State) : allStoppedDown s = true ↔ ∀ c, c < nClusters s → (getCluster s c).pace = 0 → (getIr s c).level = 15 := by
  simp only [allStoppedDown, List.all_eq_true, List.mem_range, Bool.or_eq_true, beq_iff_eq, isPaced, bne_iff_ne]
  exact forall_congr' fun c => imp_congr_right fun _ => or_iff_not_imp_left.trans (by rw [not_not])

/-- The currents are taken of every cluster in turn. -/
def measureAll (s : State) (meas : List Nat) : State := (List.range (nClusters s)).foldl (fun t c => measureCluster t c (meas.getD c 0)) s

/-- The supply, the sum and the shared draw are held. -/
def recordDraw (s : State) (meas : List Nat) (shared vcore : Nat) : State :=
  let s1 := measureAll s meas
  { s1 with iris := { s1.iris with
      vcore, lastMeas := s.tb, pkg := (List.range (nClusters s)).foldl (fun t c => t + meas.getD c 0) shared,
      shared := (s1.iris.shared.filter fun e => decide (s.tb < e.1 + 1000000)) ++ [(s.tb, shared)] } }

/-- The measurement up to the late handshakes. -/
def weighDraw (s : State) (meas : List Nat) (shared vcore : Nat) : State := overBudget (recordDraw s meas shared vcore) (allStoppedDown s)

section Measurement

variable {s : State} {meas : List Nat} {shared vcore : Nat}

theorem exec_irisMeasurement (hdue : s.iris.lastMeas + 1000 ≤ s.tb) (hon : s.iris.shutdown = false) :
    exec (.irisMeasurement meas shared vcore) s = .next (lateHandshakes (weighDraw s meas shared vcore)) := by
  have hgo : ¬ (s.tb < s.iris.lastMeas + 1000 ∨ s.iris.shutdown = true) := by simp [hon]; omega
  exact if_neg hgo

theorem weighDraw_spec (s : State) (meas : List Nat) (shared vcore : Nat) :
    let t := weighDraw s meas shared vcore
    let starts := 125 * budgetOf s < t.iris.pkg ∧ allStoppedDown s = true ∧ 15 ≤ s.iris.overs ∧ s.iris.excess = false
    t = { s with iris := t.iris, ent := t.ent, router := { s.router with raised := t.router.raised } } ∧
    (t.iris.vcore = vcore ∧ t.iris.lastMeas = s.tb ∧ t.iris.temps = s.iris.temps ∧ t.iris.tstate = s.iris.tstate ∧ t.iris.clen = s.iris.clen ∧
      t.iris.pkg = shared + ((List.range (nClusters s)).map fun c => meas.getD c 0).sum) ∧
    ((measureAll s meas).router.raised ⊆ t.router.raised ∧ t.iris.cl = (measureAll s meas).iris.cl) ∧
    (starts → t.iris.excess = true ∧ t.iris.emerg = true ∧ 771 ∈ t.router.raised) ∧
    (¬ starts → t.iris.emerg = s.iris.emerg ∧ (s.iris.excess = false → t.iris.excess = false)) := by
  have hall : IrisBut (fun _ => True) s (measureAll s meas) := irisBut_measureAll s meas _
  have hpkg : (recordDraw s meas shared vcore).iris.pkg = shared + ((List.range (nClusters s)).map fun c => meas.getD c 0).sum := foldl_add_eq_sum ..
  have hbudget : budgetOf (recordDraw s meas shared vcore) = budgetOf s := hall.budget
  obtain ⟨cl, hiris⟩ := hall.iris
  have hexceeds : Exceeds (recordDraw s meas shared vcore) (allStoppedDown s) ↔
      125 * budgetOf s < (recordDraw s meas shared vcore).iris.pkg ∧ allStoppedDown s = true ∧ 15 ≤ s.iris.overs ∧ s.iris.excess = false := by
    rw [Exceeds, hbudget]
    simp only [recordDraw, hiris]
  obtain ⟨overs, within, excess, emerg, raised, heq, hraised, hs, hn⟩ := overBudget_spec (recordDraw s meas shared vcore) (allStoppedDown s)
  rw [hexceeds] at hs hn
  have hemerg : (recordDraw s meas shared vcore).iris.emerg = s.iris.emerg := by simp only [recordDraw, hiris]
  have hexcess : (recordDraw s meas shared vcore).iris.excess = s.iris.excess := by simp only [recordDraw, hiris]
  rw [hemerg, hexcess] at hn
  have heq : weighDraw s meas shared vcore = _ := heq
  rw [heq]
  refine ⟨?_, ⟨rfl, rfl, ?_, ?_, ?_, hpkg⟩, ⟨hraised, rfl⟩, hs, hn⟩
  · simp only [recordDraw]
    rw [hall.only]
  · simp only [recordDraw, hiris]
  · simp only [recordDraw, hiris]
  · simp only [recordDraw, hiris]

end Measurement

end Sys2Proof.Machine

/-! SUPPORT. What IRIS_MEASUREMENT does to the device and to each cluster (R368 to R371). -/

namespace Sys2Proof.Machine

section Measurement

variable {s : State} {meas : List Nat} {shared vcore : Nat}

theorem isPaced_iff (s : State) (c : Nat) : isPaced s c = true ↔ (getCluster s c).pace ≠ 0 := by simp [isPaced]

theorem not_isPaced_iff (s : State) (c : Nat) : isPaced s c = false ↔ (getCluster s c).pace = 0 := by simp [isPaced]

theorem measureAll_paced {c : Nat} (hc : c < nClusters s) (hp : (getCluster s c).pace ≠ 0) :
    getIr (measureAll s meas) c = { getIr s c with
      meas := meas.getD c 0, level := 0, low := 0, ovres := (getIr s c).ovres || decide (125 * max 4 (getIr s c).allot < meas.getD c 0) } := by
  obtain ⟨u, h1, h2⟩ := measure_focus meas hc
  have hpu : isPaced u c = true := (h1.isPaced c).trans ((isPaced_iff s c).2 hp)
  exact (h2.other c (by simp)).trans ((getIr_measureCluster_paced hpu).trans (by rw [h1.other c (by simp)]))

theorem measureAll_free {c : Nat} (hc : c < nClusters s) (hp : (getCluster s c).pace = 0) :
    let v := getIr s c
    let a := 125 * max 4 v.allot
    let r := nextLevel v.level v.low (meas.getD c 0) a
    getIr (measureAll s meas) c = { v with
      meas := meas.getD c 0, level := r.1, low := r.2, stop := v.stop || decide (v.level = 0 ∧ r.1 ≠ 0),
      satur := v.satur || decide (v.level = 15 ∧ a < meas.getD c 0) } ∧
    (v.stop = false → (getIr (measureAll s meas) c).stop = true → s.iris.clen.getLsbD 0 = true → 704 + c ∈ (measureAll s meas).router.raised) := by
  obtain ⟨u, h1, h2⟩ := measure_focus meas hc
  have hpu : isPaced u c = false := (h1.isPaced c).trans ((not_isPaced_iff s c).2 hp)
  have hu : getIr u c = getIr s c := h1.other c (by simp)
  have hend : getIr (measureAll s meas) c = _ := h2.other c (by simp)
  refine ⟨hend.trans ((getIr_measureCluster_free hpu).trans (by rw [hu])), fun hs hs' he => h2.raised ?_⟩
  exact raised_measureCluster hpu (hu ▸ hs) (hend ▸ hs') (h1.clen ▸ he)

/-- A cluster of which a measurement of VCORE below 0.70 V finds a late step. -/
def LateAt (s : State) (vcore c : Nat) : Prop := c < nClusters s ∧ (getCluster s c).pace ≠ 0 ∧ vcore < 700 ∧ Config.lateStep s.free c = true

theorem getCluster_weighDraw (c : Nat) : getCluster (weighDraw s meas shared vcore) c = getCluster s c := by
  rw [getCluster, (weighDraw_spec s meas shared vcore).1]
  rfl

theorem late_weighDraw (c : Nat) : Late (weighDraw s meas shared vcore) c ↔ LateAt s vcore c := by
  obtain ⟨honly, ⟨hv, -⟩, -⟩ := weighDraw_spec s meas shared vcore
  have hfree : (weighDraw s meas shared vcore).free = s.free := by rw [honly]
  have hn : nClusters (weighDraw s meas shared vcore) = nClusters s := by rw [honly]; rfl
  rw [Late, LateAt, getCluster_weighDraw, hfree, hn, hv]

/-- The rise of the level is the one of R368. -/
theorem nextLevel_level (l low m a : Nat) : (nextLevel l low m a).1 =
    if 5 * a < 4 * m then min 15 (l + 2) else if a < m then min 15 (l + 1) else if m + 250 ≤ a ∧ 7 ≤ low then l - 1 else l := by
  unfold nextLevel
  by_cases h1 : 5 * a < 4 * m
  · simp [h1]
  by_cases h2 : a < m
  · simp [h1, h2]
  by_cases h3 : m + 250 ≤ a <;> by_cases h4 : 7 ≤ low <;> simp [h1, h2, h3, h4]

/-- The frame of a measurement, what it holds, and the current emergency. -/
theorem measurement_device (s : State) (meas : List Nat) (shared vcore : Nat) :
    let t := lateHandshakes (weighDraw s meas shared vcore)
    let starts := 125 * budgetOf s < t.iris.pkg ∧ allStoppedDown s = true ∧ 15 ≤ s.iris.overs ∧ s.iris.excess = false
    t = { s with
      iris := t.iris, ent := t.ent, router := { s.router with raised := t.router.raised }, clusters := if vcore < 700 then t.clusters else s.clusters,
      free := if vcore < 700 then s.free + 1 else s.free } ∧
    (t.iris.vcore = vcore ∧ t.iris.lastMeas = s.tb ∧ t.iris.temps = s.iris.temps ∧ t.iris.tstate = s.iris.tstate ∧
      t.iris.pkg = shared + ((List.range (nClusters s)).map fun c => meas.getD c 0).sum) ∧
    (measureAll s meas).router.raised ⊆ t.router.raised ∧
    (starts → t.iris.excess = true ∧ t.iris.emerg = true ∧ 771 ∈ t.router.raised) ∧
    (¬ starts → t.iris.emerg = s.iris.emerg ∧ (s.iris.excess = false → t.iris.excess = false)) := by
  obtain ⟨honly, ⟨hv, hl, htemps, hstate, -, hpkg⟩, ⟨hraised, -⟩, hs, hn⟩ := weighDraw_spec s meas shared vcore
  rcases Nat.lt_or_ge vcore 700 with hlow | hhigh
  · have hp := paceBut_lateHandshakes (s := weighDraw s meas shared vcore) (by rw [hv]; exact hlow)
    obtain ⟨cl, fresh, hiris⟩ := hp.iris
    refine ⟨?_, ?_⟩
    · rw [if_pos hlow, if_pos hlow, hp.only, honly]
    · simp only [hiris]
      refine ⟨⟨hv, hl, htemps, hstate, hpkg⟩, List.Subset.trans hraised hp.raised, fun h => ?_, hn⟩
      obtain ⟨h1, h2, h3⟩ := hs h
      exact ⟨h1, h2, hp.raised h3⟩
  · rw [lateHandshakes_none (by rw [hv]; exact hhigh)]
    exact ⟨by rw [if_neg (Nat.not_lt.2 hhigh), if_neg (Nat.not_lt.2 hhigh), honly], ⟨hv, hl, htemps, hstate, hpkg⟩, hraised, hs, hn⟩

/-- A cluster of the device after a measurement. -/
theorem measurement_cluster (s : State) (meas : List Nat) (shared vcore c : Nat) :
    let t := lateHandshakes (weighDraw s meas shared vcore)
    let w := getIr (measureAll s meas) c
    (LateAt s vcore c → getCluster t c = { getCluster s c with broken := true, why := 2 } ∧ getIr t c = { w with pbrk := true } ∧
      (w.pbrk = false → s.iris.clen.getLsbD 1 = true → 704 + c ∈ t.router.raised)) ∧
    (¬ LateAt s vcore c → getCluster t c = getCluster s c ∧ getIr t c = w) := by
  obtain ⟨-, ⟨-, -, -, -, hclen, -⟩, ⟨-, hcl⟩, -⟩ := weighDraw_spec s meas shared vcore
  have hir : getIr (weighDraw s meas shared vcore) c = getIr (measureAll s meas) c := by rw [getIr, hcl, getIr]
  have hc := getCluster_weighDraw (s := s) (meas := meas) (shared := shared) (vcore := vcore) c
  rw [← late_weighDraw (meas := meas) (shared := shared)]
  refine ⟨fun h => ?_, fun h => ?_⟩
  · have := lateHandshakes_late h
    rwa [hc, hir, hclen] at this
  · have := lateHandshakes_other h
    rwa [hc, hir] at this

/-- The registers of one cluster after a measurement (R368, R369, R374). -/
theorem measurement_registers (s : State) (meas : List Nat) (shared vcore : Nat) {c : Nat} (hc : c < nClusters s) :
    let t := lateHandshakes (weighDraw s meas shared vcore)
    let late := c < nClusters s ∧ (getCluster s c).pace ≠ 0 ∧ vcore < 700 ∧ Config.lateStep s.free c = true
    let v := getIr s c
    let w := getIr t c
    let m := meas.getD c 0
    let a := 125 * max 4 v.allot
    w.meas = m ∧ w.allot = v.allot ∧ w.pbrk = (v.pbrk || decide late) ∧
      (late → v.pbrk = false → s.iris.clen.getLsbD 1 = true → 704 + c ∈ t.router.raised) ∧
    ((getCluster s c).pace ≠ 0 → w.level = 0 ∧ w.ovres = (v.ovres || decide (a < m)) ∧ w.stop = v.stop ∧ w.satur = v.satur) ∧
    ((getCluster s c).pace = 0 →
      w.level = (if 5 * a < 4 * m then min 15 (v.level + 2) else if a < m then min 15 (v.level + 1)
        else if m + 250 ≤ a ∧ 7 ≤ v.low then v.level - 1 else v.level) ∧ w.ovres = v.ovres ∧
      w.stop = (v.stop || decide (v.level = 0 ∧ w.level ≠ 0)) ∧ w.satur = (v.satur || decide (v.level = 15 ∧ a < m)) ∧
      (v.stop = false → w.stop = true → s.iris.clen.getLsbD 0 = true → 704 + c ∈ t.router.raised)) := by
  intro t late v w m a
  obtain ⟨hlate, hother⟩ := measurement_cluster s meas shared vcore c
  obtain ⟨-, -, hraised, -⟩ := measurement_device s meas shared vcore
  by_cases hp : (getCluster s c).pace = 0
  · obtain ⟨hw, hrise⟩ := measureAll_free (meas := meas) hc hp
    have hnot : ¬ late := fun h => h.2.1 hp
    have hwt : w = _ := (hother hnot).2.trans hw
    have hlevel := nextLevel_level v.level v.low m a
    refine ⟨by rw [hwt], by rw [hwt], by rw [hwt]; simp [hnot, v], fun h => absurd h hnot, fun h => absurd hp h, fun _ => ⟨by rw [hwt, ← hlevel], by rw [hwt],
      by rw [hwt], by rw [hwt], fun hs hs' he => hraised (hrise hs ?_ he)⟩⟩
    rw [hw]
    rwa [hwt] at hs'
  · have hw := measureAll_paced (meas := meas) hc hp
    have hbrk : (getIr (measureAll s meas) c).pbrk = v.pbrk := by rw [hw]
    by_cases hl : late
    · obtain ⟨-, hwt, hr⟩ := hlate hl
      have hwt : w = _ := hwt
      rw [hw] at hwt
      exact ⟨by rw [hwt], by rw [hwt], by rw [hwt]; simp [hl], fun _ hb he => hr (hbrk.trans hb) he, fun _ => ⟨by rw [hwt], by rw [hwt], by rw [hwt], by rw [hwt]⟩,
        fun h => absurd h hp⟩
    · have hwt : w = _ := (hother hl).2.trans hw
      exact ⟨by rw [hwt], by rw [hwt], by rw [hwt]; simp [hl, v], fun h => absurd h hl, fun _ => ⟨by rw [hwt], by rw [hwt], by rw [hwt], by rw [hwt]⟩,
        fun h => absurd h hp⟩

end Measurement

end Sys2Proof.Machine

/-! SUPPORT. The lists of the plan of the allotments and their sums (R364, R367). -/

namespace Sys2Proof.Machine

/-! ### The plan of the allotments (R364, R367) -/

/-- Requests are granted to each cluster in turn, none below the floor nor above what it asked; what is granted and what is left make the whole. -/
theorem grantRequests_spec (s : State) (l : List Nat) (avail : Nat) :
    (grantRequests s l avail).1.map Prod.fst = l ∧
    (∀ e ∈ (grantRequests s l avail).1, 4 ≤ e.2 ∧ e.2 ≤ max 4 (requestOf s e.1)) ∧
    ((grantRequests s l avail).1.map Prod.snd).sum + (grantRequests s l avail).2 = 4 * l.length + avail := by
  induction l generalizing avail with
  | nil => simp [grantRequests]
  | cons c cs ih =>
    obtain ⟨hkeys, hbounds, hsum⟩ := ih (avail - min (max 4 (requestOf s c) - 4) avail)
    refine ⟨by simp [grantRequests, hkeys], fun e he => ?_, ?_⟩
    · rcases List.mem_cons.1 he with rfl | he
      · dsimp only
        omega
      · exact hbounds e he
    · simp only [grantRequests, List.map_cons, List.sum_cons, List.length_cons]
      omega

/-- Shares of `left` steps for clusters of no request, the first ones a step more where they do not divide. -/
def equalShares (rest : List Nat) (left : Nat) : List (Nat × Nat) :=
  rest.zipIdx.map fun e => (e.1, left / rest.length + if e.2 < left % rest.length then 1 else 0)

theorem equalShares_keys (rest : List Nat) (left : Nat) : (equalShares rest left).map Prod.fst = rest := by
  rw [equalShares, List.map_map]
  exact List.zipIdx_map_fst 0 rest

theorem sum_range_step (q r n : Nat) : ((List.range n).map fun i => q + if i < r then 1 else 0).sum = n * q + min n r := by
  induction n with
  | zero => simp
  | succ n ih =>
    rw [List.range_succ, List.map_append, List.sum_append, ih, Nat.succ_mul]
    by_cases h : n < r <;> simp [h] <;> omega

theorem equalShares_sum (rest : List Nat) (left : Nat) : ((equalShares rest left).map Prod.snd).sum ≤ left := by
  have hsnd : (equalShares rest left).map Prod.snd = (List.range rest.length).map fun i => left / rest.length + if i < left % rest.length then 1 else 0 := by
    rw [equalShares, List.map_map, List.range_eq_range', ← List.zipIdx_map_snd 0 rest, List.map_map]
    rfl
  rw [hsnd, sum_range_step]
  calc rest.length * (left / rest.length) + min rest.length (left % rest.length)
      ≤ rest.length * (left / rest.length) + left % rest.length := Nat.add_le_add_left (Nat.min_le_right ..) _
    _ = left := Nat.div_add_mod ..

theorem equalShares_floor {rest : List Nat} {left : Nat} (h : 4 * rest.length ≤ left) {e : Nat × Nat} (he : e ∈ equalShares rest left) : 4 ≤ e.2 := by
  obtain ⟨⟨c, i⟩, hi, rfl⟩ := List.mem_map.1 he
  have hlen : 0 < rest.length := by
    have := List.snd_lt_of_mem_zipIdx hi
    omega
  exact Nat.le_add_right_of_le ((Nat.le_div_iff_mul_le hlen).2 h)

/-- Of two clusters of no request the lower one has as many steps as the higher one, or one more. -/
theorem equalShares_order {rest : List Nat} (hsorted : rest.Pairwise (· < ·)) {left : Nat} {e f : Nat × Nat} (he : e ∈ equalShares rest left)
    (hf : f ∈ equalShares rest left) (hle : e.1 ≤ f.1) : f.2 ≤ e.2 ∧ e.2 ≤ f.2 + 1 := by
  obtain ⟨⟨c, i⟩, hi, rfl⟩ := List.mem_map.1 he
  obtain ⟨⟨d, j⟩, hj, rfl⟩ := List.mem_map.1 hf
  obtain ⟨hci, hc⟩ := List.getElem?_eq_some_iff.1 (List.mem_zipIdx_iff_getElem?.1 hi)
  obtain ⟨hdj, hd⟩ := List.getElem?_eq_some_iff.1 (List.mem_zipIdx_iff_getElem?.1 hj)
  have hij : i ≤ j := by
    by_contra hlt
    have := List.pairwise_iff_getElem.1 hsorted j i hdj hci (Nat.not_le.1 hlt)
    simp only at hc hd hle
    omega
  dsimp only
  split_ifs <;> omega

section Plan

variable (s : State)

/-- The paced clusters, and of the free-running ones those that ask and those that do not. -/
def pacedOf : List Nat := (List.range (nClusters s)).filter (isPaced s)
def freeOf : List Nat := (List.range (nClusters s)).filter fun c => !isPaced s c
def askOf : List Nat := (freeOf s).filter fun c => requestOf s c != 0
def restOf : List Nat := (freeOf s).filter fun c => requestOf s c == 0

/-- The reserves of the paced clusters. -/
def reservesOf : List (Nat × Nat) := (pacedOf s).map fun c => (c, reserveOf s c (getCluster s c).pace)

/-- Reserves and floors. -/
def needOf : Nat := (reservesOf s).foldl (fun t e => t + e.2) 0 + 4 * (freeOf s).length

theorem paced_free_perm : (pacedOf s ++ freeOf s).Perm (List.range (nClusters s)) := List.filter_append_perm ..

theorem ask_rest_perm : (askOf s ++ restOf s).Perm (freeOf s) := List.perm_append_comm.trans (List.filter_append_perm ..)

theorem allotPlan_short {h : Nat} (hs : budgetOf s < h + needOf s) :
    (allotPlan s h).steps = reservesOf s ++ (freeOf s).map (fun c => (c, 4)) ∧ (allotPlan s h).short = true := by
  have heq : allotPlan s h = { steps := reservesOf s ++ (freeOf s).map (fun c => (c, 4)), pool := budgetOf s - h, short := true } := if_pos hs
  exact heq ▸ ⟨rfl, rfl⟩

theorem allotPlan_ample {h : Nat} (hs : ¬ budgetOf s < h + needOf s) :
    let g := grantRequests s (askOf s) (budgetOf s - h - needOf s)
    (allotPlan s h).steps = reservesOf s ++ g.1 ++ equalShares (restOf s) (g.2 + 4 * (restOf s).length) ∧ (allotPlan s h).short = false := by
  intro g
  have heq : allotPlan s h = { steps := reservesOf s ++ g.1 ++ (if (restOf s).isEmpty then [] else equalShares (restOf s) (g.2 + 4 * (restOf s).length)),
                               pool := budgetOf s - h, short := false } := if_neg hs
  have hshare : (if (restOf s).isEmpty then [] else equalShares (restOf s) (g.2 + 4 * (restOf s).length)) =
      equalShares (restOf s) (g.2 + 4 * (restOf s).length) := by
    cases restOf s <;> rfl
  rw [heq, hshare]
  exact ⟨rfl, rfl⟩

/-- Reserves and floors are the left side of R366 without the shared draw. -/
theorem needOf_eq : needOf s = ((List.range (nClusters s)).map fun i => reserveAt s i (getCluster s i).pace).sum := by
  have hp : ((reservesOf s).map Prod.snd).sum = ((pacedOf s).map fun i => reserveAt s i (getCluster s i).pace).sum := by
    rw [reservesOf, List.map_map]
    refine congrArg List.sum (List.map_congr_left fun c hc => reserveOf_eq s c ((isPaced_iff s c).1 (List.mem_filter.1 hc).2))
  have hf : ((freeOf s).map fun i => reserveAt s i (getCluster s i).pace).sum = 4 * (freeOf s).length := by
    rw [List.map_congr_left (g := fun _ => 4), List.map_const', List.sum_replicate, smul_eq_mul, Nat.mul_comm]
    intro c hc
    have := (List.mem_filter.1 hc).2
    simp only [Bool.not_eq_true', not_isPaced_iff] at this
    simp [reserveAt, this]
  rw [← ((paced_free_perm s).map _).sum_eq, List.map_append, List.sum_append, ← hp, hf, needOf, foldl_add_eq_sum, Nat.zero_add]

/-- The allotments of the plan cover every cluster once. -/
theorem allotPlan_keys (h : Nat) : ((allotPlan s h).steps.map Prod.fst).Perm (List.range (nClusters s)) := by
  have hres : (reservesOf s).map Prod.fst = pacedOf s := by
    rw [reservesOf, List.map_map]
    exact List.map_id _
  by_cases hs : budgetOf s < h + needOf s
  · rw [(allotPlan_short s hs).1, List.map_append, hres, List.map_map]
    exact (List.Perm.of_eq (congrArg _ (List.map_id _))).trans (paced_free_perm s)
  · rw [(allotPlan_ample s hs).1, List.map_append, List.map_append, hres, (grantRequests_spec ..).1, equalShares_keys, List.append_assoc]
    exact ((ask_rest_perm s).append_left _).trans (paced_free_perm s)

/-- Where the pool suffices the plan keeps within it. -/
theorem allotPlan_sum {h : Nat} (hs : ¬ budgetOf s < h + needOf s) : ((allotPlan s h).steps.map Prod.snd).sum + h ≤ budgetOf s := by
  have hneed : needOf s = ((reservesOf s).map Prod.snd).sum + 4 * (freeOf s).length := by rw [needOf, foldl_add_eq_sum, Nat.zero_add]
  have hlen : (askOf s).length + (restOf s).length = (freeOf s).length := by rw [← List.length_append, (ask_rest_perm s).length_eq]
  obtain ⟨-, -, hg⟩ := grantRequests_spec s (askOf s) (budgetOf s - h - needOf s)
  have hshare := equalShares_sum (restOf s) ((grantRequests s (askOf s) (budgetOf s - h - needOf s)).2 + 4 * (restOf s).length)
  rw [(allotPlan_ample s hs).1]
  simp only [List.map_append, List.sum_append]
  omega

end Plan

end Sys2Proof.Machine

/-! SUPPORT. What ALLOTMENT_RECOMPUTATION writes of the plan (R364 to R367). -/

namespace Sys2Proof.Machine

section Planned

variable {s : State} {h : Nat}

theorem allotPlan_paced {c : Nat} (hc : c < nClusters s) (hp : (getCluster s c).pace ≠ 0) :
    (c, reserveAt s c (getCluster s c).pace) ∈ (allotPlan s h).steps := by
  have hres : (c, reserveAt s c (getCluster s c).pace) ∈ reservesOf s :=
    List.mem_map.2 ⟨c, List.mem_filter.2 ⟨List.mem_range.2 hc, (isPaced_iff s c).2 hp⟩, by rw [reserveOf_eq s c hp]⟩
  by_cases hs : budgetOf s < h + needOf s
  · rw [(allotPlan_short s hs).1]
    exact List.mem_append_left _ hres
  · rw [(allotPlan_ample s hs).1, List.append_assoc]
    exact List.mem_append_left _ hres

/-- A free-running cluster of the plan stands among the requests granted or among the shares, where the pool suffices. -/
theorem allotPlan_mem_free (hs : ¬ budgetOf s < h + needOf s) {e : Nat × Nat} (he : e ∈ (allotPlan s h).steps) (hp : (getCluster s e.1).pace = 0) :
    let g := grantRequests s (askOf s) (budgetOf s - h - needOf s)
    (requestOf s e.1 ≠ 0 ∧ e ∈ g.1) ∨ (requestOf s e.1 = 0 ∧ e ∈ equalShares (restOf s) (g.2 + 4 * (restOf s).length)) := by
  intro g
  rw [(allotPlan_ample s hs).1, List.mem_append, List.mem_append] at he
  rcases he with (he | he) | he
  · obtain ⟨c, hc, rfl⟩ := List.mem_map.1 he
    exact absurd hp ((isPaced_iff s c).1 (List.mem_filter.1 hc).2)
  · have hask : e.1 ∈ askOf s := (grantRequests_spec s (askOf s) (budgetOf s - h - needOf s)).1 ▸ List.mem_map_of_mem he
    exact .inl ⟨by simpa using (List.mem_filter.1 hask).2, he⟩
  · have hrest : e.1 ∈ restOf s := equalShares_keys (restOf s) _ ▸ List.mem_map_of_mem he
    exact .inr ⟨by simpa using (List.mem_filter.1 hrest).2, he⟩

theorem allotPlan_short_free (hs : budgetOf s < h + needOf s) {e : Nat × Nat} (he : e ∈ (allotPlan s h).steps) (hp : (getCluster s e.1).pace = 0) :
    e.2 = 4 := by
  rw [(allotPlan_short s hs).1, List.mem_append] at he
  rcases he with he | he
  · obtain ⟨c, hc, rfl⟩ := List.mem_map.1 he
    exact absurd hp ((isPaced_iff s c).1 (List.mem_filter.1 hc).2)
  · obtain ⟨c, -, rfl⟩ := List.mem_map.1 he
    rfl

/-- A free-running cluster has its floor, and no more than it asked where it asked. -/
theorem allotPlan_free {e : Nat × Nat} (he : e ∈ (allotPlan s h).steps) (hp : (getCluster s e.1).pace = 0) :
    4 ≤ e.2 ∧ (requestOf s e.1 ≠ 0 → e.2 ≤ max 4 (requestOf s e.1)) := by
  by_cases hs : budgetOf s < h + needOf s
  · rw [allotPlan_short_free hs he hp]
    exact ⟨Nat.le_refl 4, fun _ => Nat.le_max_left ..⟩
  · rcases allotPlan_mem_free hs he hp with ⟨hr, hg⟩ | ⟨hr, hg⟩
    · obtain ⟨-, hb, -⟩ := grantRequests_spec s (askOf s) (budgetOf s - h - needOf s)
      exact ⟨(hb e hg).1, fun _ => (hb e hg).2⟩
    · exact ⟨equalShares_floor (Nat.le_add_left ..) hg, fun h => absurd hr h⟩

/-- Two clusters of no request have equal shares, the lower one a step more where they do not divide. -/
theorem allotPlan_order {e f : Nat × Nat} (he : e ∈ (allotPlan s h).steps) (hf : f ∈ (allotPlan s h).steps) (hpe : (getCluster s e.1).pace = 0)
    (hpf : (getCluster s f.1).pace = 0) (hre : requestOf s e.1 = 0) (hrf : requestOf s f.1 = 0) (hle : e.1 ≤ f.1) : f.2 ≤ e.2 ∧ e.2 ≤ f.2 + 1 := by
  by_cases hs : budgetOf s < h + needOf s
  · rw [allotPlan_short_free hs he hpe, allotPlan_short_free hs hf hpf]
    exact ⟨Nat.le_refl 4, Nat.le_succ 4⟩
  · have hse := ((allotPlan_mem_free hs he hpe).resolve_left fun h => h.1 hre).2
    have hsf := ((allotPlan_mem_free hs hf hpf).resolve_left fun h => h.1 hrf).2
    have hsorted : (restOf s).Pairwise (· < ·) := (List.pairwise_lt_range.filter _).filter _
    exact equalShares_order hsorted hse hsf hle

theorem allotPlan_mem {c : Nat} (hc : c < nClusters s) : ∃ a, (c, a) ∈ (allotPlan s h).steps := by
  obtain ⟨⟨d, a⟩, he, rfl⟩ := List.mem_map.1 ((allotPlan_keys s h).mem_iff.2 (List.mem_range.2 hc))
  exact ⟨a, he⟩

theorem allotPlan_nodup : ((allotPlan s h).steps.map Prod.fst).Nodup := (allotPlan_keys s h).nodup_iff.2 List.nodup_range

end Planned

/-! ### ALLOTMENT_RECOMPUTATION (R364, R374) -/

/-- The allotments of `l` are written into the Iris, each under its cap. -/
def writeAllots (cap : Nat → Nat → Nat) (l : List (Nat × Nat)) (s : State) : State :=
  l.foldl (fun t e => modIr t e.1 fun v => { v with allot := cap e.1 e.2 }) s

section WriteAllots

variable (cap : Nat → Nat → Nat) (l : List (Nat × Nat)) (s : State)

theorem writeAllots_only : ∃ cl, writeAllots cap l s = { s with iris := { s.iris with cl } } := by
  induction l generalizing s with
  | nil => exact ⟨s.iris.cl, rfl⟩
  | cons e l ih =>
    obtain ⟨cl, h⟩ := ih (modIr s e.1 fun v => { v with allot := cap e.1 e.2 })
    exact ⟨cl, h⟩

theorem writeAllots_keeps (c : Nat) : ∃ allot, getIr (writeAllots cap l s) c = { getIr s c with allot } := by
  induction l generalizing s with
  | nil => exact ⟨(getIr s c).allot, rfl⟩
  | cons e l ih =>
    obtain ⟨a, h⟩ := ih (modIr s e.1 fun v => { v with allot := cap e.1 e.2 })
    refine ⟨a, h.trans ?_⟩
    by_cases hc : c = e.1
    · subst hc
      rw [modIr, getIr_setIr]
    · rw [modIr, getIr_setIr_ne s hc]

variable {l}

theorem writeAllots_not_mem {c : Nat} (hc : c ∉ l.map Prod.fst) : getIr (writeAllots cap l s) c = getIr s c := by
  induction l generalizing s with
  | nil => rfl
  | cons e l ih =>
    obtain ⟨hne, hl⟩ : c ≠ e.1 ∧ c ∉ l.map Prod.fst := by simpa using hc
    exact (ih _ hl).trans (getIr_setIr_ne s hne _)

theorem writeAllots_mem (hl : (l.map Prod.fst).Nodup) {e : Nat × Nat} (he : e ∈ l) : (getIr (writeAllots cap l s) e.1).allot = cap e.1 e.2 := by
  induction l generalizing s with
  | nil => cases he
  | cons f l ih =>
    obtain ⟨hf, hl⟩ := List.nodup_cons.1 hl
    rcases List.mem_cons.1 he with rfl | he
    · exact congrArg IrisCl.allot ((writeAllots_not_mem cap (modIr s e.1 _) hf).trans (getIr_setIr ..))
    · exact ih _ hl he

end WriteAllots

theorem exec_allotmentRecomputation {s : State} (ha : s.active ≠ none) (hst : 9 ≤ s.power.stage) (hon : s.iris.shutdown = false)
    (hdue : s.iris.fresh = true ∨ s.iris.lastAllot + 1000000 ≤ s.tb) : exec .allotmentRecomputation s = .next (recomputeAllot s) :=
  if_pos (by simpa [Option.isSome_iff_ne_none, ha, hst, hon] using hdue)

/-- The plan a recomputation writes. -/
def planOf (s : State) : AllotPlan := allotPlan s (sharedPeak s)

section Recompute

variable (s : State)

theorem recomputeAllot_eq : recomputeAllot s =
    (let t := writeAllots (thermalCap s) (planOf s).steps s
     { t with iris := { t.iris with h := sharedPeak s, pool := (planOf s).pool, short := (planOf s).short, lastAllot := s.tb, fresh := false } }) := rfl

theorem recomputeAllot_only : recomputeAllot s = { s with iris := (recomputeAllot s).iris } ∧ (recomputeAllot s).iris.h = sharedPeak s ∧
    (recomputeAllot s).iris.fresh = false ∧ (recomputeAllot s).iris.short = (planOf s).short := by
  refine ⟨?_, rfl, rfl, rfl⟩
  obtain ⟨cl, h⟩ := writeAllots_only (thermalCap s) (planOf s).steps s
  rw [recomputeAllot_eq, h]

theorem getIr_recomputeAllot (c : Nat) : getIr (recomputeAllot s) c = getIr (writeAllots (thermalCap s) (planOf s).steps s) c := rfl

theorem recomputeAllot_keeps (c : Nat) : (getIr (recomputeAllot s) c).level = (getIr s c).level ∧ (getIr (recomputeAllot s) c).meas = (getIr s c).meas := by
  obtain ⟨a, h⟩ := writeAllots_keeps (thermalCap s) (planOf s).steps s c
  rw [getIr_recomputeAllot, h]
  exact ⟨rfl, rfl⟩

theorem recomputeAllot_planned {e : Nat × Nat} (he : e ∈ (planOf s).steps) : (getIr (recomputeAllot s) e.1).allot = thermalCap s e.1 e.2 :=
  writeAllots_mem _ s allotPlan_nodup he

theorem short_iff : (planOf s).short = true ↔ ¬ ReservesFit s (nClusters s) 0 := by
  have hfit : ReservesFit s (nClusters s) 0 ↔ ¬ budgetOf s < sharedPeak s + needOf s := by
    have hsum : ((List.range (nClusters s)).map fun i => reserveAt s i (if i = nClusters s then 0 else (getCluster s i).pace)) =
        (List.range (nClusters s)).map fun i => reserveAt s i (getCluster s i).pace :=
      List.map_congr_left fun i hi => by rw [if_neg (Nat.ne_of_lt (List.mem_range.1 hi))]
    rw [ReservesFit, hsum, ← needOf_eq, Nat.not_lt, Nat.add_comm]
    rfl
  rw [hfit, not_not]
  by_cases h : budgetOf s < sharedPeak s + needOf s
  · simp [planOf, (allotPlan_short s h).2, h]
  · simp [planOf, (allotPlan_ample s h).2, h]

/-- The device with no quadrant in a thermal state. -/
def coolDevice : State := { s with iris := { s.iris with tstate := [] } }

theorem grantRequests_coolDevice (l : List Nat) (avail : Nat) : grantRequests (coolDevice s) l avail = grantRequests s l avail := by
  induction l generalizing avail with
  | nil => rfl
  | cons c cs ih =>
    simp only [grantRequests, ih]
    rfl

theorem planOf_coolDevice : planOf (coolDevice s) = planOf s := by
  unfold planOf allotPlan
  simp only [grantRequests_coolDevice]
  rfl

theorem thermalCap_coolDevice (c a : Nat) : thermalCap (coolDevice s) c a = a := by
  unfold thermalCap
  split
  · rfl
  · simp [coolDevice, Tab.get]

theorem thermalCap_free {c : Nat} (hp : (getCluster s c).pace = 0) (a : Nat) : thermalCap s c a =
    let t := Tab.get (fun _ => 0) (c / 8) s.iris.tstate
    if t = 2 then 4 else if t = 1 then 4 + (a - 4) / 2 else a := by
  rw [thermalCap, (not_isPaced_iff s c).2 hp]
  rfl

/-- Before the thermal caps the allotments keep within the budget where the reserves and floors do. -/
theorem recomputeAllot_sum (hfit : ReservesFit s (nClusters s) 0) :
    ((List.range (nClusters s)).map fun c => (getIr (recomputeAllot (coolDevice s)) c).allot).sum + sharedPeak s ≤ budgetOf s := by
  have hs : ¬ budgetOf s < sharedPeak s + needOf s := fun h => (short_iff s).1 (allotPlan_short s h).2 hfit
  have heq : ((planOf s).steps.map Prod.fst).map (fun c => (getIr (recomputeAllot (coolDevice s)) c).allot) = (planOf s).steps.map Prod.snd := by
    rw [List.map_map]
    refine List.map_congr_left fun e he => ?_
    exact (recomputeAllot_planned (coolDevice s) ((planOf_coolDevice s).symm ▸ he)).trans (thermalCap_coolDevice ..)
  rw [← ((allotPlan_keys s (sharedPeak s)).map _).sum_eq]
  exact heq ▸ allotPlan_sum s hs

end Recompute

end Sys2Proof.Machine

/-! SUPPORT. The allotment of one cluster, and THERMAL_PACE_DROP (R38, R364, R367, R372). -/

namespace Sys2Proof.Machine

section Recompute

variable {s : State} {c : Nat}

/-- A cluster's allotment: as planned, and under the cap of its quadrant. -/
theorem recomputeAllot_cluster (hc : c < nClusters s) : ∃ a, (c, a) ∈ (planOf s).steps ∧ (getIr (recomputeAllot (coolDevice s)) c).allot = a ∧
    (getIr (recomputeAllot s) c).allot = thermalCap s c a := by
  obtain ⟨a, ha⟩ := allotPlan_mem (h := sharedPeak s) hc
  have hcool : (c, a) ∈ (planOf (coolDevice s)).steps := (planOf_coolDevice s).symm ▸ ha
  exact ⟨a, ha, (recomputeAllot_planned _ hcool).trans (thermalCap_coolDevice ..), recomputeAllot_planned s ha⟩

theorem recomputeAllot_paced (hc : c < nClusters s) (hp : (getCluster s c).pace ≠ 0) :
    (getIr (recomputeAllot s) c).allot = reserveAt s c (getCluster s c).pace :=
  (recomputeAllot_planned s (allotPlan_paced hc hp)).trans (if_pos ((isPaced_iff s c).2 hp))

/-- With the pool short a free-running cluster has the floor, whatever its quadrant's cap. -/
theorem recomputeAllot_short (hc : c < nClusters s) (hp : (getCluster s c).pace = 0) (hshort : ¬ ReservesFit s (nClusters s) 0) :
    (getIr (recomputeAllot s) c).allot = 4 := by
  obtain ⟨a, ha, -, heq⟩ := recomputeAllot_cluster hc
  have hlack : budgetOf s < sharedPeak s + needOf s := by
    by_contra h
    have := (allotPlan_ample s h).2
    exact absurd ((short_iff s).2 hshort) (by rw [planOf, this]; decide)
  have h4 : a = 4 := allotPlan_short_free hlack ha hp
  rw [heq, thermalCap_free s hp, h4]
  dsimp only
  split_ifs <;> rfl

/-- A free-running cluster's allotment before the caps, and under them. -/
theorem recomputeAllot_free (hc : c < nClusters s) (hp : (getCluster s c).pace = 0) :
    let a := (getIr (recomputeAllot (coolDevice s)) c).allot
    let t := Tab.get (fun _ => 0) (c / 8) s.iris.tstate
    4 ≤ a ∧ (getIr (recomputeAllot s) c).allot = (if t = 2 then 4 else if t = 1 then 4 + (a - 4) / 2 else a) ∧
    (requestOf s c ≠ 0 → a ≤ max 4 (requestOf s c)) ∧
    (requestOf s c = 0 → ∀ d, d < nClusters s → (getCluster s d).pace = 0 → requestOf s d = 0 → c ≤ d →
      (getIr (recomputeAllot (coolDevice s)) d).allot ≤ a ∧ a ≤ (getIr (recomputeAllot (coolDevice s)) d).allot + 1) := by
  obtain ⟨a, ha, hcool, hcap⟩ := recomputeAllot_cluster hc
  obtain ⟨hfloor, hask⟩ := allotPlan_free ha hp
  rw [hcool]
  refine ⟨hfloor, hcap.trans (thermalCap_free s hp a), hask, fun hr d hd hpd hrd hle => ?_⟩
  obtain ⟨b, hb, hcoold, -⟩ := recomputeAllot_cluster hd
  rw [hcoold]
  exact allotPlan_order ha hb hp hpd hr hrd hle

end Recompute

/-! ### Paces under heat (R38, R372) -/

/-- A paced cluster drops one pace (R38). -/
def dropPace (s : State) (c : Nat) : State :=
  if (getCluster s c).pace = 0 then s
  else wantAllot (breakPace (modCluster s c fun v => { v with pace := min 5 ((getCluster s c).pace + 1) }) c 1)

/-- The clusters of quadrant `q` (R14). -/
def quadClusters (q : Nat) : List Nat := (List.range 8).map fun i => 8 * q + i

theorem mem_quadClusters {q c : Nat} : c ∈ quadClusters q ↔ c / 8 = q := by
  simp only [quadClusters, List.mem_map, List.mem_range]
  exact ⟨fun ⟨i, hi, h⟩ => by omega, fun h => ⟨c % 8, by omega, by omega⟩⟩

theorem quadClusters_nodup (q : Nat) : (quadClusters q).Nodup := List.nodup_range.map fun a b h => by simpa using h

theorem dropPaces_eq (s : State) (q : Nat) : dropPaces s q = (quadClusters q).foldl dropPace s := rfl

section DropPaces

variable (s : State) (q c : Nat)

theorem paceBut_dropPace : PaceBut (· = c) s (dropPace s c) := by
  unfold dropPace
  split
  · exact .refl s
  · exact ((PaceBut.setCluster ..).trans (paceBut_breakPace ..)).trans (.wantAllot _)

theorem paceBut_dropPaces : PaceBut (fun c => c / 8 = q) s (dropPaces s q) := by
  rw [dropPaces_eq]
  have hkeeps : ∀ d, d / 8 ≠ q → PaceBut (· ≠ d) s ((quadClusters q).foldl dropPace s) := fun d hd =>
    foldl_keeps (Q := fun d => PaceBut (· ≠ d)) (f := dropPace) (fun _ => PaceBut.refl) PaceBut.trans
      (fun t x _ hne => (paceBut_dropPace t x).mono fun _ hx => hx ▸ hne.symm) (fun hm => hd (mem_quadClusters.1 hm)) s
  have hall : PaceBut (fun _ => True) s ((quadClusters q).foldl dropPace s) :=
    foldl_rel PaceBut.refl PaceBut.trans (fun t x => (paceBut_dropPace t x).mono fun _ _ => trivial) _ s
  exact ⟨hall.only, hall.raised, hall.fresh, fun d hd => (hkeeps d hd).cluster d (by simp), fun d hd => (hkeeps d hd).ir d (by simp)⟩

/-- A cluster of the quadrant: lowered and marked where it is paced, else left alone. -/
theorem dropPaces_cluster (hc : c / 8 = q) :
    if (getCluster s c).pace ≠ 0 then
      getCluster (dropPaces s q) c = { getCluster s c with pace := min 5 ((getCluster s c).pace + 1), broken := true, why := 1 } ∧
        (getIr (dropPaces s q) c).pbrk = true
    else getCluster (dropPaces s q) c = getCluster s c := by
  obtain ⟨u, h1, h2⟩ := foldl_focus (Q := fun d => PaceBut (· ≠ d)) (f := dropPace) (fun _ => PaceBut.refl) PaceBut.trans
    (fun t x _ hne => (paceBut_dropPace t x).mono fun _ hx => hx ▸ hne.symm) (quadClusters_nodup q) (mem_quadClusters.2 hc) s
  have hu : getCluster u c = getCluster s c := h1.cluster c (by simp)
  have hend : getCluster (dropPaces s q) c = getCluster (dropPace u c) c := h2.cluster c (by simp)
  have hir : getIr (dropPaces s q) c = getIr (dropPace u c) c := h2.ir c (by simp)
  split
  next hp =>
    have hdrop : dropPace u c = wantAllot (breakPace (modCluster u c fun v => { v with pace := min 5 ((getCluster u c).pace + 1) }) c 1) :=
      if_neg (hu ▸ hp)
    rw [hend, hir, hdrop]
    refine ⟨(getCluster_breakPace ..).trans ?_, congrArg IrisCl.pbrk (getIr_breakPace ..)⟩
    rw [getCluster_modCluster, hu]
  next hp =>
    have hdrop : dropPace u c = u := if_pos (hu ▸ not_not.1 hp)
    rw [hend, hdrop, hu]

end DropPaces

/-! ### THERMAL_PACE_DROP (R372) -/

theorem exec_thermalPaceDrop {s : State} {q at_ : Nat} (hq : q < nQuads s) (hhot : Tab.find q s.iris.hot = some at_)
    (hst : Tab.get (fun _ => 0) q s.iris.tstate = 2) (hdue : at_ + 10000000 ≤ s.tb) :
    exec (.thermalPaceDrop q) s = .next (dropPaces { s with iris := { s.iris with hot := Tab.put q (at_ + 10000000) s.iris.hot } } q) := by
  show execThermalPaceDrop q s = _
  unfold execThermalPaceDrop
  simp only [hhot]
  exact if_pos ⟨hq, hst, hdue⟩

theorem thermalPaceDrop_spec {s : State} {q at_ : Nat} (hq : q < nQuads s) (hhot : Tab.find q s.iris.hot = some at_)
    (hst : Tab.get (fun _ => 0) q s.iris.tstate = 2) (hdue : at_ + 10000000 ≤ s.tb) : ∃ t, exec (.thermalPaceDrop q) s = .next t ∧
    t = { s with iris := t.iris, clusters := t.clusters, router := { s.router with raised := t.router.raised } } ∧ t.iris.tstate = s.iris.tstate ∧
    Tab.find q t.iris.hot = some (at_ + 10000000) ∧
    ∀ c, if c / 8 = q ∧ (getCluster s c).pace ≠ 0 then
      getCluster t c = { getCluster s c with pace := min 5 ((getCluster s c).pace + 1), broken := true, why := 1 } ∧ (getIr t c).pbrk = true
      else getCluster t c = getCluster s c := by
  refine ⟨_, exec_thermalPaceDrop hq hhot hst hdue, ?_⟩
  generalize hs1 : ({ s with iris := { s.iris with hot := Tab.put q (at_ + 10000000) s.iris.hot } } : State) = s1
  have hcl : ∀ c, getCluster s1 c = getCluster s c := fun c => by rw [← hs1]; rfl
  have h := paceBut_dropPaces s1 q
  obtain ⟨cl, fresh, hiris⟩ := h.iris
  refine ⟨by rw [h.only, ← hs1], by rw [hiris, ← hs1], by rw [hiris, ← hs1]; exact Tab.find_put_same .., fun c => ?_⟩
  by_cases hc : c / 8 = q
  · have := dropPaces_cluster s1 q c hc
    simpa only [hc, true_and, hcl] using this
  · simpa only [hc, false_and, if_false, hcl] using h.cluster c hc

end Sys2Proof.Machine

/-! SUPPORT. The reading of one quadrant (R372). -/

namespace Sys2Proof.Machine

/-! ### THERMAL_READING (R372) -/

/-- The last reading of quadrant `q`, and its thermal state. -/
def tempOf (s : State) (q : Nat) : Int := Tab.get (fun _ => 0) q s.iris.temps
def heatOf (s : State) (q : Nat) : Nat := Tab.get (fun _ => 0) q s.iris.tstate

/-- Of the state only the quadrants of `P` with their clusters, what the Iris raises and asks for, and how long a quadrant has been hot differ;
what is raised and asked for stays so. -/
structure HeatBut (P : Nat → Prop) (s t : State) : Prop where
  only : t = { s with iris := t.iris, clusters := t.clusters, router := { s.router with raised := t.router.raised } }
  raised : s.router.raised ⊆ t.router.raised
  fresh : s.iris.fresh = true → t.iris.fresh = true
  emerg : s.iris.emerg = true → t.iris.emerg = true
  heat : ∀ q, ¬ P q → tempOf t q = tempOf s q ∧ heatOf t q = heatOf s q
  cluster : ∀ c, ¬ P (c / 8) → getCluster t c = getCluster s c ∧ getIr t c = getIr s c

namespace HeatBut

variable {P P' : Nat → Prop} {s t u : State}

theorem refl (s : State) : HeatBut P s s := ⟨rfl, List.Subset.refl _, id, id, fun _ _ => ⟨rfl, rfl⟩, fun _ _ => ⟨rfl, rfl⟩⟩

theorem trans (h1 : HeatBut P s t) (h2 : HeatBut P t u) : HeatBut P s u where
  only := h2.only.trans (by rw [h1.only])
  raised := List.Subset.trans h1.raised h2.raised
  fresh := h2.fresh ∘ h1.fresh
  emerg := h2.emerg ∘ h1.emerg
  heat q hq := ⟨(h2.heat q hq).1.trans (h1.heat q hq).1, (h2.heat q hq).2.trans (h1.heat q hq).2⟩
  cluster c hc := ⟨(h2.cluster c hc).1.trans (h1.cluster c hc).1, (h2.cluster c hc).2.trans (h1.cluster c hc).2⟩

theorem mono (h : HeatBut P s t) (hP : ∀ q, P q → P' q) : HeatBut P' s t :=
  ⟨h.only, h.raised, h.fresh, h.emerg, fun q hq => h.heat q fun h' => hq (hP q h'), fun c hc => h.cluster c fun h' => hc (hP _ h')⟩

theorem of_paceBut {q : Nat} (h : PaceBut (fun c => c / 8 = q) s t) : HeatBut (· = q) s t where
  only := h.only.trans (by rw [h.only])
  raised := h.raised
  fresh := h.fresh
  emerg he := by rw [h.only]; exact he
  heat _ _ := by rw [h.only]; exact ⟨rfl, rfl⟩
  cluster c hc := ⟨h.cluster c hc, h.ir c hc⟩

theorem raise (s : State) (src : Nat) : HeatBut P s (raise s src) :=
  ⟨rfl, List.subset_append_left _ _, id, id, fun _ _ => ⟨rfl, rfl⟩, fun _ _ => ⟨rfl, rfl⟩⟩

end HeatBut

/-- A reading of quadrant `q` held, with the state it leads to. -/
def recordHeat (s : State) (q : Nat) (t : Int) : State :=
  { s with iris := { s.iris with
      temps := Tab.put q t s.iris.temps, tstate := Tab.put q (nextThermal (heatOf s q) t) s.iris.tstate,
      hot := if 1150 < t then (match Tab.find q s.iris.hot with | some x => Tab.put q x s.iris.hot | none => Tab.put q s.tb s.iris.hot)
             else Tab.del q s.iris.hot } }

/-- The demand for new allotments after a change of state. -/
def heatChanged (s : State) (q : Nat) (t : Int) : State := wantAllot (recordHeat s q t)

/-- The alarm of a quadrant that enters state 2. -/
def heatAlarm (s : State) (q : Nat) (t : Int) : State :=
  { heatChanged s q t with iris := { (heatChanged s q t).iris with emerg := true } }

/-- A quadrant entering state 2: the alarm, the paces dropped, event 771. -/
def heatEntry (s : State) (q : Nat) (t : Int) : State := raise (dropPaces (heatAlarm s q t) q) 771

section ThermalQuad

variable (s : State) (q : Nat) (t : Int)

theorem thermalQuad_eq : thermalQuad s q t =
    if nextThermal (heatOf s q) t = heatOf s q then recordHeat s q t
    else if nextThermal (heatOf s q) t = 2 then heatEntry s q t else heatChanged s q t := rfl

theorem heatBut_recordHeat : HeatBut (· = q) s (recordHeat s q t) :=
  ⟨rfl, List.Subset.refl _, id, id, fun _ hq => ⟨Tab.get_put_ne _ hq .., Tab.get_put_ne _ hq ..⟩, fun _ _ => ⟨rfl, rfl⟩⟩

theorem tempOf_recordHeat : tempOf (recordHeat s q t) q = t := Tab.get_put_same ..

theorem heatOf_recordHeat : heatOf (recordHeat s q t) q = nextThermal (heatOf s q) t := Tab.get_put_same ..

theorem heatBut_heatChanged : HeatBut (· = q) s (heatChanged s q t) :=
  let h := heatBut_recordHeat s q t
  ⟨rfl, h.raised, fun _ => rfl, h.emerg, h.heat, h.cluster⟩

theorem heatBut_heatAlarm : HeatBut (· = q) s (heatAlarm s q t) :=
  let h := heatBut_heatChanged s q t
  ⟨rfl, h.raised, h.fresh, fun _ => rfl, h.heat, h.cluster⟩

theorem heatBut_heatEntry : HeatBut (· = q) s (heatEntry s q t) := by
  rw [heatEntry]
  exact ((heatBut_heatAlarm s q t).trans (.of_paceBut (paceBut_dropPaces ..))).trans (.raise ..)

theorem heatEntry_iris : ∃ cl fresh, (heatEntry s q t).iris = { (heatAlarm s q t).iris with cl, fresh } := by
  rw [heatEntry, raise_iris]
  exact (paceBut_dropPaces (heatAlarm s q t) q).iris

theorem heatEntry_spec : tempOf (heatEntry s q t) q = t ∧ heatOf (heatEntry s q t) q = nextThermal (heatOf s q) t ∧
    (heatEntry s q t).iris.fresh = true ∧ (heatEntry s q t).iris.emerg = true ∧ 771 ∈ (heatEntry s q t).router.raised := by
  obtain ⟨cl, fresh, hiris⟩ := heatEntry_iris s q t
  refine ⟨?_, ?_, ?_, ?_, ?_⟩
  · rw [tempOf, hiris]
    exact tempOf_recordHeat ..
  · rw [heatOf, hiris]
    exact heatOf_recordHeat ..
  · rw [heatEntry, raise_iris]
    exact (paceBut_dropPaces (heatAlarm s q t) q).fresh rfl
  · rw [hiris]
    rfl
  · rw [heatEntry]
    exact List.mem_append_right _ (List.mem_singleton_self _)

theorem heatBut_thermalQuad : HeatBut (· = q) s (thermalQuad s q t) := by
  rw [thermalQuad_eq]
  split
  · exact heatBut_recordHeat ..
  · split
    · exact heatBut_heatEntry ..
    · exact heatBut_heatChanged ..

/-- The quadrant after its reading, and what a change of its state asks for. -/
theorem thermalQuad_heat : tempOf (thermalQuad s q t) q = t ∧ heatOf (thermalQuad s q t) q = nextThermal (heatOf s q) t ∧
    (nextThermal (heatOf s q) t ≠ heatOf s q → (thermalQuad s q t).iris.fresh = true ∧
      (nextThermal (heatOf s q) t = 2 → (thermalQuad s q t).iris.emerg = true ∧ 771 ∈ (thermalQuad s q t).router.raised)) := by
  rw [thermalQuad_eq]
  split
  next hsame => exact ⟨tempOf_recordHeat .., heatOf_recordHeat .., fun h => absurd hsame h⟩
  next =>
    split
    next =>
      obtain ⟨h1, h2, h3, h4, h5⟩ := heatEntry_spec s q t
      exact ⟨h1, h2, fun _ => ⟨h3, fun _ => ⟨h4, h5⟩⟩⟩
    next hne => exact ⟨tempOf_recordHeat .., heatOf_recordHeat .., fun _ => ⟨rfl, fun h => absurd h hne⟩⟩

/-- The clusters of the quadrant: the paced ones lowered as it enters state 2. -/
theorem thermalQuad_cluster {c : Nat} (hc : c / 8 = q) :
    if nextThermal (heatOf s q) t = 2 ∧ heatOf s q ≠ 2 ∧ (getCluster s c).pace ≠ 0 then
      getCluster (thermalQuad s q t) c = { getCluster s c with pace := min 5 ((getCluster s c).pace + 1), broken := true, why := 1 } ∧
        (getIr (thermalQuad s q t) c).pbrk = true
    else getCluster (thermalQuad s q t) c = getCluster s c := by
  rw [thermalQuad_eq]
  by_cases hsame : nextThermal (heatOf s q) t = heatOf s q
  · rw [if_pos hsame, if_neg fun h => h.2.1 (hsame ▸ h.1)]
    rfl
  · rw [if_neg hsame]
    by_cases h2 : nextThermal (heatOf s q) t = 2
    · have hst : heatOf s q ≠ 2 := fun h => hsame (h2.trans h.symm)
      have hcl : getCluster (heatAlarm s q t) c = getCluster s c := rfl
      have hdrop := dropPaces_cluster (heatAlarm s q t) q c hc
      rw [hcl] at hdrop
      rw [if_pos h2, heatEntry, getCluster_raise, getIr_raise]
      by_cases hp : (getCluster s c).pace ≠ 0
      · rw [if_pos hp] at hdrop
        rw [if_pos ⟨h2, hst, hp⟩]
        exact hdrop
      · rw [if_neg hp] at hdrop
        rw [if_neg fun h => hp h.2.2]
        exact hdrop
    · rw [if_neg h2, if_neg fun h => h2 h.1]
      rfl

end ThermalQuad

end Sys2Proof.Machine

/-! SUPPORT. The readings of THERMAL_READING (R372). -/

namespace Sys2Proof.Machine

section Reading

variable {s : State} {temps : List Int}

/-- Every quadrant read in turn. -/
def readHeat (s : State) (temps : List Int) : State :=
  (List.range (nQuads s)).foldl (fun t q => thermalQuad t q (temps.getD q 0)) { s with iris := { s.iris with lastTemp := s.tb } }

theorem exec_thermalReading (hdue : s.iris.lastTemp + 100000 ≤ s.tb) (hon : s.iris.shutdown = false) : exec (.thermalReading temps) s =
    .next (if (List.range (nQuads s)).any (fun q => decide (1250 ≤ temps.getD q 0)) then thermalShutdown (readHeat s temps) else readHeat s temps) := by
  show execThermalReading temps s = _
  unfold execThermalReading
  rw [if_neg (Nat.not_lt.2 hdue)]
  dsimp only
  rw [if_neg (by simp [hon])]
  rfl

theorem exec_thermalReading_off (hdue : s.iris.lastTemp + 100000 ≤ s.tb) (hoff : s.iris.shutdown = true) : exec (.thermalReading temps) s =
    .next { s with iris := { s.iris with
      lastTemp := s.tb, temps := (List.range (nQuads s)).foldl (fun t q => Tab.put q (temps.getD q 0) t) s.iris.temps } } := by
  show execThermalReading temps s = _
  unfold execThermalReading
  rw [if_neg (Nat.not_lt.2 hdue)]
  dsimp only
  rw [if_pos hoff]

theorem any_hot_iff : (List.range (nQuads s)).any (fun q => decide (1250 ≤ temps.getD q 0)) = true ↔ ∃ q, q < nQuads s ∧ 1250 ≤ temps.getD q 0 := by
  simp

/-- In thermal shutdown the readings are held. -/
theorem readings_held (t0 : Tab Int) {n q : Nat} (hq : q < n) :
    Tab.get (fun _ => (0 : Int)) q ((List.range n).foldl (fun t q => Tab.put q (temps.getD q 0) t) t0) = temps.getD q 0 := by
  obtain ⟨u, -, h⟩ := foldl_focus (Q := fun q (a b : Tab Int) => Tab.get (fun _ => (0 : Int)) q b = Tab.get (fun _ => 0) q a)
    (f := fun t q => Tab.put q (temps.getD q 0) t) (fun _ _ => rfl) (fun h1 h2 => h2.trans h1) (fun t _ _ hne => Tab.get_put_ne _ hne _ t)
    List.nodup_range (List.mem_range.2 hq) t0
  exact h.trans (Tab.get_put_same ..)

theorem heatBut_readHeat (s : State) (temps : List Int) : HeatBut (fun _ => True) s (readHeat s temps) := by
  have hall : HeatBut (fun _ => True) { s with iris := { s.iris with lastTemp := s.tb } } (readHeat s temps) :=
    foldl_rel HeatBut.refl HeatBut.trans (fun t q => (heatBut_thermalQuad t q _).mono fun _ _ => trivial) _ _
  exact ⟨hall.only, hall.raised, hall.fresh, hall.emerg, fun _ h => absurd trivial h, fun _ h => absurd trivial h⟩

/-- Of the readings only that of quadrant `q` touches it and its clusters. -/
theorem readHeat_focus {q : Nat} (hq : q < nQuads s) : ∃ u, HeatBut (· ≠ q) s u ∧ HeatBut (· ≠ q) (thermalQuad u q (temps.getD q 0)) (readHeat s temps) := by
  obtain ⟨u, h1, h2⟩ := foldl_focus (Q := fun q => HeatBut (· ≠ q)) (f := fun t q => thermalQuad t q (temps.getD q 0)) (fun _ => HeatBut.refl)
    HeatBut.trans (fun t d _ hne => (heatBut_thermalQuad t d _).mono fun _ hx => hx ▸ hne.symm) List.nodup_range (List.mem_range.2 hq)
    { s with iris := { s.iris with lastTemp := s.tb } }
  exact ⟨u, ⟨h1.only, h1.raised, h1.fresh, h1.emerg, h1.heat, h1.cluster⟩, h2⟩

theorem readHeat_heat {q : Nat} (hq : q < nQuads s) : tempOf (readHeat s temps) q = temps.getD q 0 ∧
    heatOf (readHeat s temps) q = nextThermal (heatOf s q) (temps.getD q 0) ∧
    (heatOf (readHeat s temps) q ≠ heatOf s q → (readHeat s temps).iris.fresh = true ∧
      (heatOf (readHeat s temps) q = 2 → (readHeat s temps).iris.emerg = true ∧ 771 ∈ (readHeat s temps).router.raised)) := by
  obtain ⟨u, h1, h2⟩ := readHeat_focus (temps := temps) hq
  obtain ⟨htemp, hheat, hask⟩ := thermalQuad_heat u q (temps.getD q 0)
  obtain ⟨htemp', hheat'⟩ := h2.heat q (by simp)
  rw [(h1.heat q (by simp)).2] at hheat hask
  rw [htemp', hheat', htemp, hheat]
  refine ⟨rfl, rfl, fun hne => ?_⟩
  obtain ⟨hf, h771⟩ := hask hne
  refine ⟨h2.fresh hf, fun h => ?_⟩
  obtain ⟨he, hr⟩ := h771 h
  exact ⟨h2.emerg he, h2.raised hr⟩

theorem quad_lt {c : Nat} (hc : c < nClusters s) : c / 8 < nQuads s := by
  have h8 : nClusters s = 8 * nQuads s := by
    unfold nClusters nQuads
    split <;> rfl
  omega

theorem readHeat_cluster {c : Nat} (hc : c < nClusters s) :
    if heatOf (readHeat s temps) (c / 8) = 2 ∧ heatOf s (c / 8) ≠ 2 ∧ (getCluster s c).pace ≠ 0 then
      getCluster (readHeat s temps) c = { getCluster s c with pace := min 5 ((getCluster s c).pace + 1), broken := true, why := 1 } ∧
        (getIr (readHeat s temps) c).pbrk = true
    else getCluster (readHeat s temps) c = getCluster s c := by
  obtain ⟨u, h1, h2⟩ := readHeat_focus (temps := temps) (quad_lt hc)
  have hspec := thermalQuad_cluster u (c / 8) (temps.getD (c / 8) 0) (c := c) rfl
  have hheat := (h2.heat (c / 8) (by simp)).2.trans (thermalQuad_heat u (c / 8) _).2.1
  obtain ⟨hcl, hir⟩ := h2.cluster c (by simp)
  rw [(h1.heat (c / 8) (by simp)).2, (h1.cluster c (by simp)).1, ← hcl, ← hir] at hspec
  rw [hheat, (h1.heat (c / 8) (by simp)).2]
  exact hspec

end Reading

end Sys2Proof.Machine

/-! SUPPORT. The mode switch and its answer (R34, R35). -/

namespace Sys2Proof.Machine

/-! ### What an answer of the dictionary engine leaves alone (R296, R331, R336) -/

/-- The cores, the clusters and the Iris stand as they did. -/
structure ClustersStand (s t : State) : Prop where
  cores : t.cores = s.cores
  clusters : t.clusters = s.clusters
  iris : t.iris = s.iris

namespace ClustersStand

variable {s t u : State}

theorem refl (s : State) : ClustersStand s s := ⟨rfl, rfl, rfl⟩

theorem trans (h1 : ClustersStand s t) (h2 : ClustersStand t u) : ClustersStand s u :=
  ⟨h2.cores.trans h1.cores, h2.clusters.trans h1.clusters, h2.iris.trans h1.iris⟩

theorem portSend (s : State) (p : Nat) (v : Octets) : ClustersStand s (portSend s p v) := by
  obtain ⟨x, h⟩ := portSend_only s p v
  rw [h]
  exact ⟨rfl, rfl, rfl⟩

theorem sendPdu (s : State) (ep : Endpoint) (pdu : Octets) : ClustersStand s (sendPdu s ep pdu) := by
  unfold Machine.sendPdu
  dsimp only
  split
  · exact ⟨rfl, rfl, rfl⟩
  · refine .trans ?_ (portSend ..)
    exact ⟨rfl, rfl, rfl⟩

theorem broadcast (s : State) (cmd : Nat) (body : Octets) : ClustersStand s (broadcast s cmd body) := by
  have h : ClustersStand (unasked s cmd 0 0 body).1 (Machine.broadcast s cmd body) := foldl_rel refl trans (fun t _ => sendPdu t _ _) _ _
  exact ⟨h.cores, h.clusters, h.iris⟩

theorem sendEmergency (s : State) : ClustersStand s (sendEmergency s) := by
  unfold Machine.sendEmergency
  split
  · exact refl s
  · next rest _ =>
    have h := broadcast { s with emerg := rest } 0x60 (emergBody ‹_›)
    exact ⟨h.cores, h.clusters, h.iris⟩

theorem sendEmergencies (n : Nat) (s : State) : ClustersStand s (sendEmergencies n s) := by
  induction n generalizing s with
  | zero => exact refl s
  | succ n ih => exact (sendEmergency s).trans (ih _)

theorem edpSend (s : State) (ep : Endpoint) (pdu : Octets) : ClustersStand s (edpSend s ep pdu) := (sendEmergencies ..).trans (sendPdu ..)

theorem answerTo (s : State) (r : Reply) (cmd : Nat) (body : Octets) : ClustersStand s (answerTo s r cmd body) := by
  have hlog : ClustersStand s (logAnswered s r) := ⟨rfl, rfl, rfl⟩
  unfold Machine.answerTo
  dsimp only
  split
  · exact hlog.trans (edpSend ..)
  · split
    · exact hlog
    · refine hlog.trans (.trans ?_ (edpSend ..))
      split
      · exact ⟨rfl, rfl, rfl⟩
      · exact refl _

theorem writeResult (x : State × Option Nat) (r : Reply) : ClustersStand x.1 (writeResult x r) := by
  unfold Machine.writeResult
  split <;> exact answerTo ..

end ClustersStand

/-! ### MODE_SWITCH_RESUME (R35) -/

section Switch

variable {s : State} {c v : Nat}

theorem exec_modeSwitchResume_waits (h : (getCluster s c).sw = none ∨ switchReady s c = false) : exec (.modeSwitchResume c) s = .next s := by
  show execModeSwitchResume c s = _
  unfold execModeSwitchResume
  dsimp only
  split
  next => rfl
  next v hv => rw [if_neg (by simpa [hv] using h)]

/-- The switch made and its write answered. -/
def switchAnswered (s : State) (c v : Nat) : State :=
  match (getCluster s c).swAns with | none => switchMode s c v | some r => writeDone (switchMode s c v) r

theorem exec_modeSwitchResume (hv : (getCluster s c).sw = some v) (hready : switchReady s c = true) :
    exec (.modeSwitchResume c) s = .next ((getCluster s c).sw2.foldl (paceLater c) (switchAnswered s c v)) := by
  show execModeSwitchResume c s = _
  unfold execModeSwitchResume
  simp only [hv, hready, if_true]
  rfl

theorem switchAnswered_stands (s : State) (c v : Nat) : ClustersStand (switchMode s c v) (switchAnswered s c v) := by
  unfold switchAnswered
  split
  · exact .refl _
  · exact .answerTo ..

theorem paceRequest_cores (s : State) (c v : Nat) (r : Option Reply) : (paceRequest s c v r).1.cores = s.cores := by
  unfold paceRequest
  split
  · rfl
  · split
    · rfl
    · unfold paceAccept
      dsimp only
      split_ifs <;> rfl

theorem paceLater_cores (c : Nat) (s : State) (w : Nat × Option Reply) : (paceLater c s w).cores = s.cores := by
  unfold paceLater
  dsimp only
  split
  · exact paceRequest_cores ..
  · split
    · exact paceRequest_cores ..
    · exact (ClustersStand.writeResult ..).cores.trans (paceRequest_cores ..)

/-- The cores of cluster `c` that are present. -/
def switchCores (s : State) (c : Nat) : List Nat := ((List.range 4).map fun i => 4 * c + i).filter (corePresent s)

theorem mem_switchCores {n : Nat} : n ∈ switchCores s c ↔ n / 4 = c ∧ corePresent s n = true := by
  simp only [switchCores, List.mem_filter, List.mem_map, List.mem_range]
  refine and_congr_left fun _ => ⟨fun ⟨i, hi, h⟩ => by omega, fun h => ⟨n % 4, by omega, by omega⟩⟩

theorem switchCores_nodup (s : State) (c : Nat) : (switchCores s c).Nodup := (List.nodup_range.map fun a b h => by simpa using h).filter _

/-- The line caches and the BTBs of the cores of `l` are emptied. -/
def emptyAll (l : List Nat) (s : State) : State := l.foldl (fun t n => modCore t n emptyCaches) s

theorem emptyAll_only (l : List Nat) (s : State) : ∃ cores, emptyAll l s = { s with cores } := by
  induction l generalizing s with
  | nil => exact ⟨s.cores, rfl⟩
  | cons n l ih =>
    obtain ⟨x, h⟩ := ih (modCore s n emptyCaches)
    exact ⟨x, h⟩

theorem getCore_emptyAll {l : List Nat} (hl : l.Nodup) (s : State) (n : Nat) :
    getCore (emptyAll l s) n = if n ∈ l then emptyCaches (getCore s n) else getCore s n := by
  have hne : ∀ (t : State) {m n : Nat}, n ≠ m → getCore (modCore t m emptyCaches) n = getCore t n := fun t _ _ h => getCore_modCore_ne t h _
  split
  next hn =>
    obtain ⟨u, h1, h2⟩ := foldl_focus (Q := fun n (a b : State) => getCore b n = getCore a n) (f := fun t n => modCore t n emptyCaches)
      (fun _ _ => rfl) (fun h1 h2 => h2.trans h1) hne hl hn s
    exact h2.trans ((getCore_modCore ..).trans (by rw [h1]))
  next hn =>
    exact foldl_keeps (Q := fun n (a b : State) => getCore b n = getCore a n) (f := fun t n => modCore t n emptyCaches)
      (fun _ _ => rfl) (fun h1 h2 => h2.trans h1) hne hn s

/-- Steps 2 and 3 of the switch: loans end, operations complete, merge entries are written. -/
def switchSettled (s : State) (c : Nat) : State := flushCluster ((switchCores s c).foldl finishCore (endLoansOf s c fun _ => true)) c

/-- Steps 4 to 6 of the switch. -/
def switchCluster (x : Cluster) (v : Nat) (arb : Bool) : Cluster := { x with pace := v, sw := none, swAns := none, sw2 := [], classic := v != 0 || arb }

theorem switchMode_eq (s : State) (c v : Nat) : switchMode s c v =
    wantAllot (modIr (modCluster (emptyAll (switchCores s c) (switchSettled s c)) c fun x => switchCluster x v s.power.arb) c
      fun x => { x with level := 0, low := 0 }) := rfl

theorem getCore_switchMode (s : State) (c v n : Nat) : getCore (switchMode s c v) n = getCore (emptyAll (switchCores s c) (switchSettled s c)) n := rfl

theorem switchMode_caches {n : Nat} (hc : n / 4 = c) (hp : corePresent s n = true) :
    (getCore (switchMode s c v) n).i.cache = [] ∧ (getCore (switchMode s c v) n).i.btb = [] := by
  rw [getCore_switchMode, getCore_emptyAll (switchCores_nodup s c), if_pos (mem_switchCores.2 ⟨hc, hp⟩)]
  exact ⟨rfl, rfl⟩

theorem getCluster_switchMode (s : State) (c v : Nat) : getCluster (switchMode s c v) c =
    switchCluster (getCluster (emptyAll (switchCores s c) (switchSettled s c)) c) v s.power.arb :=
  getCluster_modCluster (emptyAll (switchCores s c) (switchSettled s c)) c fun x => switchCluster x v s.power.arb

theorem getIr_switchMode (s : State) (c v : Nat) : (getIr (switchMode s c v) c).level = 0 := congrArg IrisCl.level (getIr_setIr ..)

end Switch

end Sys2Proof.Machine

/-! SUPPORT. A mode switch with nothing in flight changes nothing in flight (R34, R35). -/

namespace Sys2Proof.Machine

/-! ### A switch with nothing in flight -/

/-- Nothing is in flight in the core that the switch must complete. -/
structure Idle (k : LensCore) : Prop where
  stores : k.u.stores = []
  loads : k.u.loads = []
  div : k.u.div = none
  fpu : k.u.fpu = []
  beam : k.u.beam = none

/-- Every core reads as it did, and nothing but their table differs. -/
def SameCores (s t : State) : Prop := (∃ cores, t = { s with cores }) ∧ ∀ n, getCore t n = getCore s n

theorem SameCores.refl (s : State) : SameCores s s := ⟨⟨_, rfl⟩, fun _ => rfl⟩

theorem SameCores.trans {s t u : State} (h1 : SameCores s t) (h2 : SameCores t u) : SameCores s u := by
  obtain ⟨⟨x, rfl⟩, hx⟩ := h1
  obtain ⟨⟨y, rfl⟩, hy⟩ := h2
  exact ⟨⟨y, rfl⟩, fun n => (hy n).trans (hx n)⟩

section Idle

variable {s : State} {n : Nat} (h : Idle (getCore s n))
include h

theorem finishMath_idle : finishMath (getCore s n) = getCore s n := by simp [finishMath, h.div, h.fpu]

theorem finishLoads_idle (m : Nat) : finishLoads m s n = s := by
  cases m with
  | zero => rfl
  | succ m => simp [finishLoads, h.loads]

theorem beamFinish_idle : beamFinish s n = s := by simp [beamFinish, h.beam]

theorem finishCore_idle : SameCores s (finishCore s n) := by
  have hmath : modCore s n finishMath = setCore s n (getCore s n) := by rw [modCore, finishMath_idle h]
  have hsame : SameCores s (setCore s n (getCore s n)) := by
    refine ⟨⟨_, rfl⟩, fun m => ?_⟩
    by_cases hm : m = n
    · rw [hm, getCore_setCore]
    · exact getCore_setCore_ne s hm _
  have hidle : Idle (getCore (setCore s n (getCore s n)) n) := by rwa [getCore_setCore]
  have hfinish : finishCore s n = setCore s n (getCore s n) := by
    unfold finishCore
    simp only [finishLoads_idle h, hmath, beamFinish_idle hidle, hidle.stores]
    rfl
  rwa [hfinish]

end Idle

theorem finishAll_idle {l : List Nat} {s : State} (h : ∀ n ∈ l, Idle (getCore s n)) : SameCores s (l.foldl finishCore s) := by
  induction l generalizing s with
  | nil => exact .refl s
  | cons n l ih =>
    obtain ⟨hn, hl⟩ := List.forall_mem_cons.1 h
    have h1 := finishCore_idle hn
    exact h1.trans (ih fun m hm => (h1.2 m).symm ▸ hl m hm)

theorem endLoansOf_none {s : State} {c : Nat} (o : Nat → Bool) (h : ∀ k, (getBank s c k).loan = none) : endLoansOf s c o = s := by
  have hstep : ∀ k, (if o (getBank s c k).owner then restoreLoan s c k else s) = s := by
    intro k
    split
    · simp [restoreLoan, h k]
    · rfl
  unfold endLoansOf
  generalize List.range 4 = l
  induction l with
  | nil => rfl
  | cons k l ih => rw [List.foldl_cons, hstep, ih]

theorem flushCluster_empty {s : State} {c : Nat} (h : ∀ k, (getBank s c k).merge = []) : flushCluster s c = s := by
  have hstep : ∀ k, flushMerge s c k = s := fun k => by simp [flushMerge, h k]
  unfold flushCluster
  generalize List.range 4 = l
  induction l with
  | nil => rfl
  | cons k l ih => rw [List.foldl_cons, hstep, ih]

section Switch

variable {s : State} {c v : Nat}

theorem switchSettled_idle (hbank : ∀ k, (getBank s c k).loan = none ∧ (getBank s c k).merge = []) (hidle : ∀ n ∈ switchCores s c, Idle (getCore s n)) :
    SameCores s (switchSettled s c) := by
  have h := finishAll_idle hidle
  obtain ⟨⟨cores, hcores⟩, -⟩ := id h
  rw [switchSettled, endLoansOf_none _ fun k => (hbank k).1, flushCluster_empty fun k => ?_]
  · exact h
  · rw [hcores]
    exact (hbank k).2

/-- A switch with nothing in flight changes the mode of its cluster, empties the caches of its cores and asks for new allotments. -/
theorem switchMode_idle (hans : (getCluster s c).swAns = none) (hwait : (getCluster s c).sw2 = [])
    (hbank : ∀ k, (getBank s c k).loan = none ∧ (getBank s c k).merge = []) (hidle : ∀ n ∈ switchCores s c, Idle (getCore s n)) :
    let t := switchMode s c v
    (∀ d, d ≠ c → getCluster t d = getCluster s d) ∧
    t = { s with cores := t.cores, clusters := t.clusters, iris := { s.iris with cl := t.iris.cl, fresh := true } } ∧
    (∀ d, d ≠ c → getIr t d = getIr s d) ∧ (∀ k, getBank t c k = getBank s c k) ∧
    { getCluster t c with banks := (getCluster s c).banks } =
      { getCluster s c with pace := v, sw := none, classic := v != 0 || s.power.arb } ∧
    ∀ n, getCore t n = if n / 4 = c ∧ corePresent s n = true then { getCore s n with i := { (getCore s n).i with cache := [], btb := [] } }
      else getCore s n := by
  intro t
  obtain ⟨⟨x, hsettled⟩, hcores⟩ := switchSettled_idle hbank hidle
  obtain ⟨y, hempty⟩ := emptyAll_only (switchCores s c) (switchSettled s c)
  have hbase : emptyAll (switchCores s c) (switchSettled s c) = { s with cores := y } := by rw [hempty, hsettled]
  have ht : t = wantAllot (modIr (modCluster { s with cores := y } c fun x => switchCluster x v s.power.arb) c fun x => { x with level := 0, low := 0 }) :=
    hbase ▸ switchMode_eq s c v
  have hself : { getCluster s c with swAns := none, sw2 := [] } = getCluster s c := by rw [← hans, ← hwait]
  have hcluster : getCluster t c = switchCluster (getCluster s c) v s.power.arb := by
    rw [getCluster_switchMode, hbase]
    rfl
  refine ⟨fun d hd => ?_, ?_, fun d hd => ?_, fun k => ?_, ?_, fun n => ?_⟩
  · rw [ht]
    exact getCluster_setCluster_ne _ hd _
  · rw [ht]
    rfl
  · rw [ht]
    exact getIr_setIr_ne _ hd _
  · rw [getBank, hcluster]
    rfl
  · rw [hcluster, ← hself]
    rfl
  · have := getCore_emptyAll (switchCores_nodup s c) (switchSettled s c) n
    rw [getCore_switchMode, this, hcores]
    simp only [mem_switchCores]
    rfl

end Switch

end Sys2Proof.Machine

/-! SUPPORT. The memories, their checks and the beam engines leave cores, facets and supplies alone. -/

namespace Sys2Proof.Machine

/-! ### What the memories, their checks and the beam engines leave alone -/

/-- The cores, the facets and the state of the supplies stand as they did. -/
structure UnitsStand (s t : State) : Prop where
  power : t.power = s.power
  facets : t.facets = s.facets
  cores : t.cores = s.cores

namespace UnitsStand

variable {s t u : State}

theorem refl (s : State) : UnitsStand s s := ⟨rfl, rfl, rfl⟩

theorem trans (h1 : UnitsStand s t) (h2 : UnitsStand t u) : UnitsStand s u :=
  ⟨h2.power.trans h1.power, h2.facets.trans h1.facets, h2.cores.trans h1.cores⟩

theorem ite {p : Prop} [Decidable p] (h1 : UnitsStand s t) (h2 : UnitsStand s u) : UnitsStand s (if p then t else u) := by split <;> assumption

theorem foldl {α : Type} {f : State → α → State} (h : ∀ t x, UnitsStand t (f t x)) (l : List α) (s : State) : UnitsStand s (l.foldl f s) :=
  foldl_rel refl trans h l s

/-! One named update. -/

theorem raise (s : State) (src : Nat) : UnitsStand s (raise s src) := ⟨rfl, rfl, rfl⟩
theorem bumpEnt (s : State) (i j : Nat) : UnitsStand s (bumpEnt s i j) := ⟨rfl, rfl, rfl⟩
theorem setEcc (s : State) (w v : Nat) : UnitsStand s (setEcc s w v) := ⟨rfl, rfl, rfl⟩
theorem setRawWord (s : State) (w : Nat) (v : BitVec 64) : UnitsStand s (setRawWord s w v) := ⟨rfl, rfl, rfl⟩
theorem modCluster (s : State) (c : Nat) (f : Cluster → Cluster) : UnitsStand s (modCluster s c f) := ⟨rfl, rfl, rfl⟩
theorem modBank (s : State) (c k : Nat) (f : Bank → Bank) : UnitsStand s (modBank s c k f) := ⟨rfl, rfl, rfl⟩
theorem modQuad (s : State) (q : Nat) (f : Quad → Quad) : UnitsStand s (modQuad s q f) := ⟨rfl, rfl, rfl⟩
theorem setBeam (s : State) (b : Nat) (x : BeamCtx) : UnitsStand s (setBeam s b x) := ⟨rfl, rfl, rfl⟩
theorem logErr (s : State) (code origin : Nat) (data : Octets) : UnitsStand s (logErr s code origin data) := ⟨rfl, rfl, rfl⟩

theorem emergency (s : State) (code origin : Nat) (data : Octets) : UnitsStand s (emergency s code origin data) :=
  .ite ⟨rfl, rfl, rfl⟩ ⟨rfl, rfl, rfl⟩

theorem setClevt (s : State) (c : Nat) (mask : Word) : UnitsStand s (setClevt s c mask) := .ite ⟨rfl, rfl, rfl⟩ ⟨rfl, rfl, rfl⟩

theorem setBeevt (s : State) (q bit i : Nat) : UnitsStand s (setBeevt s q bit i) := .ite ⟨rfl, rfl, rfl⟩ ⟨rfl, rfl, rfl⟩

theorem setIstat (s : State) (n : Nat) (mask : BitVec 11) : UnitsStand s (setIstat s n mask) := .ite ⟨rfl, rfl, rfl⟩ ⟨rfl, rfl, rfl⟩

theorem setHistory (s : State) (p : Place) (h : List Corr) : UnitsStand s (setHistory s p h) := by
  cases p <;> try exact ⟨rfl, rfl, rfl⟩
  exact .ite ⟨rfl, rfl, rfl⟩ ⟨rfl, rfl, rfl⟩

theorem sendPacket (s : State) (vc : Nat) (kind : PacketKind) (route : List Nat) (octets : Nat) (body : PktBody) :
    UnitsStand s (sendPacket s vc kind route octets body) := by
  obtain ⟨x, h⟩ := sendPacket_only s vc kind route octets body
  rw [h]
  exact ⟨rfl, rfl, rfl⟩

/-! Checks and corrections of words (R179, R180, R183, R184). -/

theorem reportPlace (s : State) (w : Nat) (p : Place) : UnitsStand s (reportPlace s w p) := by
  cases p with
  | bank c k => exact setClevt ..
  | beam q => exact .ite (setBeam ..) ((setBeam ..).trans (setBeevt ..))
  | xram c => exact setClevt ..
  | bits c => exact setClevt ..
  | scratch n => exact .ite (raise ..) (setClevt ..)
  | mgmt => exact raise ..
  | other => exact refl s

theorem newPoison (s : State) (w : Nat) : UnitsStand s (newPoison s w) :=
  (((setEcc s w 3).trans (reportPlace ..)).trans (logErr ..)).trans (bumpEnt ..)

theorem permanentWord (s : State) (w : Nat) : UnitsStand s (permanentWord s w) := by
  unfold Machine.permanentWord
  split
  · exact .ite ((modBank ..).trans (setClevt ..)) (((modBank ..).trans (setClevt ..)).trans (emergency ..))
  · exact .ite (modQuad ..) (((modQuad ..).trans (setBeevt ..)).trans (emergency ..))
  · exact refl s
  · exact bumpEnt ..

theorem noteCorrection (s : State) (w : Nat) : UnitsStand s (noteCorrection s w) := by
  refine (bumpEnt s 0x2400 6).trans ?_
  unfold Machine.noteCorrection
  dsimp only
  split
  · exact .ite ((setHistory ..).trans (permanentWord ..)) (setHistory ..)
  · refine .ite (setHistory ..) ?_
    split
    · exact (setHistory ..).trans (modBank ..)
    · exact setHistory ..

theorem checkWord (s : State) (w : Nat) : UnitsStand s (checkWord s w).1 := by
  unfold Machine.checkWord
  split
  · exact refl s
  · exact (setEcc ..).trans (noteCorrection ..)
  · exact newPoison ..
  · exact refl s

theorem wholeWord (s : State) (w : Nat) (data : BitVec 64) : UnitsStand s (wholeWord s w data) := (setRawWord ..).trans (setEcc ..)

theorem memWrite (s : State) (w : Nat) (data : BitVec 64) (mask : Byte) : UnitsStand s (memWrite s w data mask) :=
  .ite (wholeWord ..) ((checkWord ..).trans (setRawWord ..))

theorem forceMerge (s : State) (w : Nat) : UnitsStand s (forceMerge s w) := by
  unfold Machine.forceMerge
  split
  · exact refl s
  · split
    · exact refl s
    · exact (modBank ..).trans (memWrite ..)

theorem restoreLoan (s : State) (c k : Nat) : UnitsStand s (restoreLoan s c k) := by
  unfold Machine.restoreLoan
  split
  · exact refl s
  · refine (foldl (fun t e => ?_) _ s).trans (modBank ..)
    exact .ite (((setRawWord ..).trans (setEcc ..)).trans (newPoison ..)) ((setRawWord ..).trans (setEcc ..))

theorem endLoansOf (s : State) (c : Nat) (o : Nat → Bool) : UnitsStand s (endLoansOf s c o) :=
  foldl (fun t _ => .ite (restoreLoan ..) (refl t)) _ s

/-! The beam engines (R210, R213 to R217, R225). -/

theorem engineCheck (s : State) (b i : Nat) : UnitsStand s (engineCheck s b i).1 :=
  (checkWord s (beamWordNo b + i)).trans (.ite (.ite (refl _) ((setBeam ..).trans (setBeevt ..))) (refl _))

theorem engineMod (s : State) (b i : Nat) (g : BeamCtx → BeamCtx) : UnitsStand s (engineMod s b i g) := (engineCheck s b i).trans (setBeam ..)

theorem beamSearch (k : Word) (l : List Nat) (s : State) (o : Option Nat) : UnitsStand s (beamSearch k l s o).1 := by
  induction l generalizing s o with
  | nil => exact refl s
  | cons b l ih =>
    unfold Machine.beamSearch
    dsimp only
    have hcheck := engineCheck s b 0
    split_ifs
    · exact hcheck.trans (ih ..)
    · exact hcheck
    · exact hcheck.trans (ih ..)
    · exact hcheck.trans (ih ..)

theorem cleanBeam (s : State) (b : Nat) : UnitsStand s (cleanBeam s b) := foldl (fun _ _ => setEcc ..) _ s

theorem cacheBeam (s : State) (c b : Nat) : UnitsStand s (cacheBeam s c b) := ⟨rfl, rfl, rfl⟩

theorem writeBuf (s : State) (n off : Nat) (v : Octets) : UnitsStand s (writeBuf s n off v) := foldl (fun _ _ => wholeWord ..) _ s

theorem checkCtx (s : State) (b : Nat) : UnitsStand s (checkCtx s b).1 :=
  foldl_rel (R := fun x y : State × Option Word => UnitsStand x.1 y.1) (fun x => refl x.1) trans (fun x i => engineCheck x.1 b i) (List.range 8) (s, none)

theorem lockCtx (s : State) (n b : Nat) : UnitsStand s (lockCtx s n b).1 := by
  unfold Machine.lockCtx
  split
  · exact engineCheck ..
  · dsimp only
    exact checkCtx ..

theorem commitWords (s : State) (b : Nat) : UnitsStand s (commitWords s b) := by
  unfold Machine.commitWords
  dsimp only
  refine .trans (t := [0, 1, 3, 4].foldl (fun t i => (Machine.engineCheck t b i).1) s) ?_ ?_
  · exact foldl (fun t i => engineCheck t b i) ..
  · exact foldl (fun t _ => setEcc ..) ..

theorem opFind (s : State) (k : Word) : UnitsStand s (opFind s k).s := by
  unfold Machine.opFind
  have hsearch := beamSearch k (beamWays k) s none
  split
  · exact refl s
  split
  · exact refl s
  dsimp only
  split <;> exact hsearch

theorem opNew (s : State) (n : Nat) (k : Word) (buf : Nat) : UnitsStand s (opNew s n k buf).s := by
  unfold Machine.opNew
  have hsearch := beamSearch k (beamWays k) s none
  split
  · exact refl s
  split
  · exact refl s
  split
  · exact refl s
  dsimp only
  split
  · exact hsearch
  split
  · exact hsearch.trans (setBeevt ..)
  split
  · exact hsearch
  next b _ _ =>
    have hclean : ∀ x, UnitsStand s (Machine.cleanBeam (Machine.setBeam (Machine.beamSearch k (beamWays k) s none).1 b x) b) := fun x =>
      hsearch.trans ((setBeam ..).trans (cleanBeam ..))
    dsimp only
    refine .trans (.ite ?_ ?_) (writeBuf ..)
    · exact .ite ((hclean _).trans (setBeevt ..)) (hclean _)
    · refine .trans ?_ (cacheBeam ..)
      exact .ite ((hclean _).trans (setBeevt ..)) (hclean _)

theorem opLock (s : State) (n : Nat) (a : Word) (buf : Nat) : UnitsStand s (opLock s n a buf).s := by
  unfold Machine.opLock
  split
  · exact refl s
  next b _ =>
    have hctx := lockCtx s n b
    dsimp only
    split
    · exact refl s
    split
    · exact refl s
    split
    · exact refl s
    split
    · exact refl s
    split
    · exact hctx
    · dsimp only
      refine .trans (.ite (hctx.trans (setBeam ..)) (.trans ?_ (cacheBeam ..))) (writeBuf ..)
      exact hctx.trans (setBeam ..)

end UnitsStand

end Sys2Proof.Machine

/-! SUPPORT. Completions, the ends of frames and the work of a stopping core start no core and move no other link (R218, R246, R253, R267). -/

namespace Sys2Proof

theorem Tab.get_map_field {α β : Type} (φ : α → β) (d : Nat → α) (f : Nat × α → α) (hf : ∀ e, φ (f e) = φ e.2) (k : Nat) (t : Tab α) :
    φ (Tab.get d k (t.map fun e => (e.1, f e))) = φ (Tab.get d k t) := by
  induction t with
  | nil => rfl
  | cons x t ih =>
    obtain ⟨i, w⟩ := x
    by_cases hi : i = k
    · simp [Tab.get, hi, hf]
    · by_cases hk : k < i <;> simp [Tab.get, hi, hk, ih]

end Sys2Proof

namespace Sys2Proof.Machine

/-! ### What completions, the ends of frames and the work of a stopping core leave alone -/

/-- The state of the supplies stands, no core starts or stops, no facet is retired, and no link but those of `P` changes its state. -/
structure SteadyBut (P : Nat → Prop) (s t : State) : Prop where
  power : t.power = s.power
  link : ∀ p, ¬ P p → (getFacet t p).state = (getFacet s p).state
  retired : ∀ p, (getFacet t p).retired = (getFacet s p).retired
  run : ∀ n, (getCore t n).i.run = (getCore s n).i.run

namespace SteadyBut

variable {P P' : Nat → Prop} {s t u : State}

theorem refl (s : State) : SteadyBut P s s := ⟨rfl, fun _ _ => rfl, fun _ => rfl, fun _ => rfl⟩

theorem trans (h1 : SteadyBut P s t) (h2 : SteadyBut P t u) : SteadyBut P s u :=
  ⟨h2.power.trans h1.power, fun p hp => (h2.link p hp).trans (h1.link p hp), fun p => (h2.retired p).trans (h1.retired p),
    fun n => (h2.run n).trans (h1.run n)⟩

/-- As `trans`, the later step first: what a definition unfolds to ends with it. -/
theorem after (h2 : SteadyBut P t u) (h1 : SteadyBut P s t) : SteadyBut P s u := h1.trans h2

theorem mono (h : SteadyBut P s t) (hP : ∀ p, P p → P' p) : SteadyBut P' s t :=
  ⟨h.power, fun p hp => h.link p fun h' => hp (hP p h'), h.retired, h.run⟩

theorem ite {p : Prop} [Decidable p] (h1 : SteadyBut P s t) (h2 : SteadyBut P s u) : SteadyBut P s (if p then t else u) := by split <;> assumption

theorem foldl {α : Type} {f : State → α → State} (h : ∀ t x, SteadyBut P t (f t x)) (l : List α) (s : State) : SteadyBut P s (l.foldl f s) :=
  foldl_rel refl trans h l s

theorem of_stand (h : UnitsStand s t) : SteadyBut P s t := by
  have hf : ∀ p, getFacet t p = getFacet s p := fun p => by rw [getFacet, h.facets, getFacet]
  have hc : ∀ n, getCore t n = getCore s n := fun n => by rw [getCore, h.cores, getCore]
  exact ⟨h.power, fun p _ => by rw [hf], fun p => by rw [hf], fun n => by rw [hc]⟩

theorem modCore (s : State) (n : Nat) {g : LensCore → LensCore} (hg : ∀ k, (g k).i.run = k.i.run) : SteadyBut P s (modCore s n g) := by
  refine ⟨rfl, fun _ _ => rfl, fun _ => rfl, fun m => ?_⟩
  by_cases hm : m = n
  · rw [hm, getCore_modCore, hg]
  · rw [getCore_modCore_ne s hm]

theorem setFacet {p : Nat} {f : Facet} (hs : f.state = (getFacet s p).state) (hr : f.retired = (getFacet s p).retired) :
    SteadyBut P s (setFacet s p f) := by
  have hf : ∀ q, (getFacet (Machine.setFacet s p f) q).state = (getFacet s q).state ∧ (getFacet (Machine.setFacet s p f) q).retired = (getFacet s q).retired := by
    intro q
    by_cases hq : q = p
    · rw [hq, getFacet_setFacet]
      exact ⟨hs, hr⟩
    · rw [getFacet_setFacet_ne s hq]
      exact ⟨rfl, rfl⟩
  exact ⟨rfl, fun q _ => (hf q).1, fun q => (hf q).2, fun _ => rfl⟩

theorem modFacet (s : State) (p : Nat) {g : Facet → Facet} (hs : ∀ f, (g f).state = f.state) (hr : ∀ f, (g f).retired = f.retired) :
    SteadyBut P s (modFacet s p g) := setFacet (hs _) (hr _)

/-- Every facet of the table mapped to one of the same link state. -/
theorem mapFacets (s : State) (f : Nat × Facet → Facet) (hs : ∀ e, (f e).state = e.2.state) (hr : ∀ e, (f e).retired = e.2.retired) :
    SteadyBut P s { s with facets := s.facets.map fun e => (e.1, f e) } :=
  ⟨rfl, fun p _ => Tab.get_map_field Facet.state _ f hs p s.facets, fun p => Tab.get_map_field Facet.retired _ f hr p s.facets, fun _ => rfl⟩

/-! Facet events, counters and completions (R253, R255, R344, R355). -/

theorem raise (s : State) (src : Nat) : SteadyBut P s (raise s src) := of_stand (.raise ..)

theorem sendPacket (s : State) (vc : Nat) (kind : PacketKind) (route : List Nat) (octets : Nat) (body : PktBody) :
    SteadyBut P s (sendPacket s vc kind route octets body) := of_stand (.sendPacket ..)

theorem engineMod (s : State) (b i : Nat) (g : BeamCtx → BeamCtx) : SteadyBut P s (engineMod s b i g) := of_stand (.engineMod ..)

theorem setFevt (s : State) (p : Nat) (mask : BitVec 16) : SteadyBut P s (setFevt s p mask) := by
  unfold Machine.setFevt
  dsimp only
  split <;> split
  · exact after (raise ..) (after (raise ..) (setFacet rfl rfl))
  · exact after (raise ..) (setFacet rfl rfl)
  · exact after (raise ..) (setFacet rfl rfl)
  · exact setFacet rfl rfl

theorem setEnt (s : State) (i j v : Nat) : SteadyBut P s (setEnt s i j v) := of_stand ⟨rfl, rfl, rfl⟩

theorem bumpCounter (s : State) (p sub n : Nat) : SteadyBut P s (bumpCounter s p sub n) := .ite (refl s) (setEnt ..)

theorem countFacet (s : State) (p sub : Nat) : SteadyBut P s (countFacet s p sub) := .ite (refl s) (setEnt ..)

theorem pushRtxDone (s : State) (n id : Nat) (d : Done) : SteadyBut P s (pushRtxDone s n id d) := modCore s n fun _ => rfl

theorem pushStaging (s : State) (p lc : Nat) (e : Done) : SteadyBut P s (pushStaging s p lc e) := by
  unfold Machine.pushStaging
  dsimp only
  split
  · exact setFacet rfl rfl
  · exact after (countFacet ..) (setFacet rfl rfl)

theorem countResult (s : State) (p : Nat) (d : TxDesc) (result : Nat) : SteadyBut P s (countResult s p d result) :=
  .ite ((bumpCounter ..).trans (bumpCounter ..)) (.ite (countFacet ..) (refl s))

theorem showDone (s : State) (p : Nat) : SteadyBut P s (showDone s p) := .ite (setFevt ..) (refl s)

theorem freeBuf (s : State) (face idx : Nat) : SteadyBut P s (freeBuf s face idx) := modFacet s face (fun _ => rfl) fun _ => rfl

theorem completeDesc (s : State) (p : Nat) (d : TxDesc) (result : Nat) : SteadyBut P s (completeDesc s p d result) := by
  have hcount : SteadyBut P s (if d.poster = .own then s else Machine.countResult s p d result) := .ite (refl s) (countResult ..)
  refine hcount.trans ?_
  unfold Machine.completeDesc
  dsimp only
  generalize (if d.poster = .own then s else Machine.countResult s p d result) = x
  have hpost : SteadyBut P x (match d.poster with
      | .own => x
      | .staging lc => Machine.pushStaging x d.face lc { cookie := d.cookie, result }
      | .fabric n =>
        if n / 4 = p / 8 then Machine.pushRtxDone x n d.id { cookie := d.cookie, result }
        else Machine.sendPacket x (kindVc .completion (d.slot == 0x1FF)) .completion (routeBetween (p / 8) (n / 4)) 4 (.done n d.id { cookie := d.cookie, result })
      | .relay g idx => Machine.modFacet x g fun f => { f with bufs := Tab.put idx .free f.bufs }) := by
    cases d.poster with
    | own => exact refl x
    | staging lc => exact pushStaging ..
    | fabric n => exact .ite (pushRtxDone ..) (sendPacket ..)
    | relay g idx => exact freeBuf ..
  exact .ite hpost (hpost.trans (showDone ..))

/-! The ends of received and relayed frames, deferral (R246, R249, R258). -/

theorem relayEnd (s : State) (e id : Nat) (good : Bool) : SteadyBut P s (relayEnd s e id good) := by
  unfold Machine.relayEnd
  dsimp only
  split
  · exact setFacet rfl rfl
  · refine (setFacet ?_ ?_).trans (foldl (fun t d => ?_) _ _)
    · rfl
    · rfl
    · have hbuf : SteadyBut P t (match d.poster with | .relay p i => Machine.freeBuf t p i | _ => t) := by
        split
        · exact freeBuf ..
        · exact refl t
      split
      · exact hbuf.trans (engineMod ..)
      · exact hbuf

theorem endRelay (s : State) (q : Nat) (l : Option Lookup) : SteadyBut P s (endRelay s q l) := by
  unfold Machine.endRelay
  split
  · exact .ite (relayEnd ..) (sendPacket ..)
  · exact refl s

theorem dropRx (s : State) (q : Nat) : SteadyBut P s (dropRx s q) :=
  after (endRelay ..) (modFacet s q (fun _ => rfl) fun _ => rfl)

theorem deferFrame (q : Nat) (s : State) (d : TxDesc) : SteadyBut P s (deferFrame q s d) := by
  unfold Machine.deferFrame
  dsimp only
  split
  · exact (completeDesc ..).trans (setFevt ..)
  · refine .trans (.trans (modFacet s q ?_ ?_) (countFacet ..)) (setFevt ..) <;> exact fun _ => rfl

theorem deferAll (s : State) (q : Nat) : SteadyBut P s (deferAll s q) :=
  after (foldl (fun t d => deferFrame q t d) _ _) (modFacet s q (fun _ => rfl) fun _ => rfl)

/-! The work of a core that stops (R218, R267). -/

theorem discardTx (s : State) (b result : Nat) : SteadyBut P s (discardTx s b result) := by
  refine foldl (fun t e => ?_) s.facets s
  dsimp only
  refine .after (foldl (fun u d => completeDesc u e.1 d result) _ _) (modFacet t e.1 ?_ ?_) <;> exact fun _ => rfl

theorem dropLock (s : State) (b : Nat) : SteadyBut P s (dropLock s b) := by
  unfold Machine.dropLock
  dsimp only
  exact (discardTx s b 9).trans (of_stand (((UnitsStand.engineCheck ..).trans (.engineCheck ..)).trans (.engineMod ..)))

theorem releaseLocks (s : State) (n : Nat) : SteadyBut P s (releaseLocks s n) := by
  unfold Machine.releaseLocks
  refine foldl (fun t e => ?_) _ s
  exact (dropLock t e.1 :)

theorem releaseTx (s : State) (b : Nat) : SteadyBut P s { s with facets := (releaseTx b s.facets).1 } := mapFacets s _ (fun _ => rfl) fun _ => rfl

theorem freeRx (s : State) (b : Nat) : SteadyBut P s { s with facets := freeRx b s.facets } := mapFacets s _ (fun _ => rfl) fun _ => rfl

theorem opCommit (s : State) (n : Nat) (a : Word) (data : Octets) : SteadyBut P s (opCommit s n a data).s := by
  unfold Machine.opCommit
  split
  · exact refl s
  next b _ =>
    dsimp only
    split
    · exact refl s
    split
    · exact dropLock ..
    · have hfree : SteadyBut P s { s with facets := Machine.freeRx b (Machine.releaseTx b s.facets).1 } :=
        (releaseTx s b).trans (freeRx { s with facets := (Machine.releaseTx b s.facets).1 } b)
      refine hfree.trans (of_stand (.trans (.commitWords _ b) ?_))
      exact .ite (.setBeam ..) ((UnitsStand.setBeam ..).trans (.cacheBeam ..))

theorem opDrop (s : State) (n : Nat) (a : Word) : SteadyBut P s (opDrop s n a).s := by
  unfold Machine.opDrop
  split
  · exact refl s
  · dsimp only
    split
    · exact dropLock ..
    · exact refl s

theorem beamOp (s : State) (n : Nat) (o : BeamOp) : SteadyBut P s (beamOp s n o).s := by
  unfold Machine.beamOp
  split
  · exact of_stand (.opFind ..)
  · exact of_stand (.opNew ..)
  · exact of_stand (.opLock ..)
  · exact opCommit ..
  · exact opDrop ..

theorem beamServe (s : State) (n : Nat) : SteadyBut P s (beamServe s n) := by
  unfold Machine.beamServe
  split
  · exact refl s
  · split
    · exact refl s
    · exact (beamOp ..).trans (modCore _ n fun _ => rfl)

theorem engineFinish (s : State) (n : Nat) : SteadyBut P s (engineFinish s n) := by
  unfold Machine.engineFinish
  split
  · exact refl s
  · exact (beamServe ..).trans (modCore _ n fun _ => rfl)

theorem settleWork (s : State) (n : Nat) : SteadyBut P s (settleWork s n) := by
  unfold Machine.settleWork
  dsimp only
  refine .after (of_stand (.foldl (fun t w => .forceMerge t w) _ _)) (.after (modCore _ n ?_) (.after (releaseLocks ..) (engineFinish ..)))
  exact fun _ => rfl

end SteadyBut

end Sys2Proof.Machine

/-! SUPPORT. Thermal shutdown: links down, outputs safe, cores reset (R310, R373, R406). -/

namespace Sys2Proof.Machine

/-! ### Links that end, cores that are reset, thermal shutdown (R235, R373, R406) -/

theorem SteadyBut.setLinkState (s : State) (p st : Nat) : SteadyBut (· = p) s (setLinkState s p st) := by
  refine .ite (.refl s) (.after (.setFevt ..) ⟨rfl, fun q hq => ?_, fun q => ?_, fun _ => rfl⟩)
  · rw [getFacet_modFacet_ne s hq]
  · by_cases hq : q = p
    · rw [hq, getFacet_modFacet]
    · rw [getFacet_modFacet_ne s hq]

theorem setLinkState_state (s : State) (p st : Nat) : (getFacet (setLinkState s p st) p).state = st := by
  unfold setLinkState
  split
  · assumption
  · rw [(SteadyBut.setFevt (P := fun _ => False) _ p _).link p id, getFacet_modFacet]

theorem SteadyBut.linkOff (s : State) (p : Nat) : SteadyBut (· = p) s (linkOff s p) := by
  unfold Machine.linkOff
  dsimp only
  refine .after (.setLinkState ..) (.after (.modFacet _ p ?_ ?_) (.after (.deferAll ..) (.dropRx ..))) <;> exact fun _ => rfl

theorem linkOff_state (s : State) (p : Nat) : (getFacet (linkOff s p) p).state = 0 := setLinkState_state ..

/-- The supplies and the links stand, and no core starts. -/
structure StopsCores (s t : State) : Prop where
  power : t.power = s.power
  link : ∀ p, (getFacet t p).state = (getFacet s p).state
  run : ∀ n, (getCore s n).i.run ≠ .running → (getCore t n).i.run ≠ .running

theorem StopsCores.refl (s : State) : StopsCores s s := ⟨rfl, fun _ => rfl, fun _ => id⟩

theorem StopsCores.trans {s t u : State} (h1 : StopsCores s t) (h2 : StopsCores t u) : StopsCores s u :=
  ⟨h2.power.trans h1.power, fun p => (h2.link p).trans (h1.link p), fun n h => h2.run n (h1.run n h)⟩

/-- A core reset ends as an update of the core that leaves it not released, or retired. -/
theorem coreResetOp_eq (s : State) (n : Nat) :
    ∃ u g, SteadyBut (fun _ => False) s u ∧ coreResetOp s n = modCore u n g ∧ ∀ k, (g k).i.run ≠ .running := by
  unfold coreResetOp
  dsimp only
  refine ⟨_, _, ?_, rfl, fun k => ?_⟩
  · refine (SteadyBut.settleWork s n).trans (.of_stand (.ite (.ite (.foldl (fun t e => ?_) _ _) (.refl _)) (.endLoansOf ..)))
    exact .endLoansOf ..
  · split <;> simp [resetRegs, Issue.reset]

theorem coreResetOp_run (s : State) (n : Nat) : (getCore (coreResetOp s n) n).i.run ≠ .running := by
  obtain ⟨u, g, -, h, hg⟩ := coreResetOp_eq s n
  rw [h, getCore_modCore]
  exact hg _

theorem StopsCores.coreResetOp (s : State) (n : Nat) : StopsCores s (coreResetOp s n) := by
  obtain ⟨u, g, hu, h, hg⟩ := coreResetOp_eq s n
  rw [h]
  refine ⟨hu.power, fun p => hu.link p id, fun m hm => ?_⟩
  by_cases hmn : m = n
  · rw [hmn, getCore_modCore]
    exact hg _
  · rw [getCore_modCore_ne u hmn, hu.run]
    exact hm

theorem resetCores_stops (l : List (Nat × LensCore)) (s : State) : StopsCores s (l.foldl (fun t e => coreResetOp t e.1) s) :=
  foldl_rel .refl .trans (fun t e => .coreResetOp t e.1) l s

theorem resetCores_run {n : Nat} {l : List (Nat × LensCore)} (hn : n ∈ l.map Prod.fst) (s : State) :
    (getCore (l.foldl (fun t e => coreResetOp t e.1) s) n).i.run ≠ .running := by
  induction l generalizing s with
  | nil => cases hn
  | cons e l ih =>
    rcases List.mem_cons.1 hn with rfl | h
    · exact (resetCores_stops l _).run e.1 (coreResetOp_run s e.1)
    · exact ih h _

/-- A core the state holds no entry of stands as after power-on. -/
theorem resetAll_run (s : State) (n : Nat) : (getCore (s.cores.foldl (fun t e => coreResetOp t e.1) s) n).i.run ≠ .running := by
  by_cases hn : n ∈ s.cores.map Prod.fst
  · exact resetCores_run hn s
  · refine (resetCores_stops s.cores s).run n ?_
    rw [getCore, Tab.get_of_not_mem LensCore.reset hn]
    simp [LensCore.reset, Issue.reset]

theorem writeGasp_only (s : State) (reason : Nat) : ∃ cal, writeGasp s reason = { s with cal := cal } := by
  unfold writeGasp
  split
  · exact ⟨s.cal, rfl⟩
  · refine foldl_rel (R := fun a b : State => ∃ cal, b = { a with cal := cal }) (fun a => ⟨a.cal, rfl⟩) ?_ (fun t w => ⟨_, rfl⟩) (List.range 8) s
    rintro a b d ⟨cal, rfl⟩ ⟨cal', rfl⟩
    exact ⟨cal', rfl⟩

/-- The link of facet `p` goes down, a retired facet's aside. -/
def dropLink (s : State) (p : Nat) : State := if (getFacet s p).retired then s else linkOff s p

theorem SteadyBut.dropLink (s : State) (p : Nat) : SteadyBut (· = p) s (dropLink s p) := .ite (.refl s) (.linkOff s p)

theorem dropLinks_state (s : State) {n p : Nat} (hp : p < n) (h : (getFacet s p).retired = false) :
    (getFacet ((List.range n).foldl dropLink s) p).state = 0 := by
  obtain ⟨u, h1, h2⟩ := foldl_focus (Q := fun p => SteadyBut (· ≠ p)) (f := dropLink) (fun _ => .refl) .trans
    (fun t q _ hne => (SteadyBut.dropLink t q).mono fun _ hx => hx ▸ hne.symm) List.nodup_range (List.mem_range.2 hp) s
  rw [h2.link p (by simp), dropLink, if_neg (by simp [h1.retired, h]), linkOff_state]

theorem SteadyBut.dropLinks (s : State) (n : Nat) : SteadyBut (fun _ => True) s ((List.range n).foldl Machine.dropLink s) :=
  .foldl (fun t p => (SteadyBut.dropLink t p).mono fun _ _ => trivial) _ s

theorem SteadyBut.forceSafe {P : Nat → Prop} (l : List Nat) (s : State) : SteadyBut P s (l.foldl Machine.forceSafe s) :=
  .foldl (fun t n => .of_stand (.setIstat t n _)) l s

/-- Links down, outputs at their safe values, cores reset (R373). -/
def quietUnits (s : State) : State :=
  let t := (List.range (nFacets s)).foldl dropLink s
  let u := (List.range (nChans t)).foldl forceSafe t
  u.cores.foldl (fun v e => coreResetOp v e.1) u

theorem quietUnits_power (s : State) : (quietUnits s).power = s.power :=
  (resetCores_stops _ _).power.trans ((SteadyBut.forceSafe (P := fun _ => True) _ _).power.trans (SteadyBut.dropLinks s _).power)

theorem quietUnits_link (s : State) {p : Nat} (hp : p < nFacets s) (h : (getFacet s p).retired = false) : (getFacet (quietUnits s) p).state = 0 :=
  ((resetCores_stops _ _).link p).trans (((SteadyBut.forceSafe (P := fun _ => False) _ _).link p id).trans (dropLinks_state s hp h))

theorem quietUnits_run (s : State) (n : Nat) : (getCore (quietUnits s) n).i.run ≠ .running := resetAll_run _ n

theorem thermalShutdown_eq (s : State) : thermalShutdown s =
    let t := quietUnits (writeGasp { s with power := { s.power with alarm := true } } 2)
    { t with active := none, fabric := Fabric.reset, iris := { t.iris with shutdown := true }
             edp := { Edp.reset with out := t.edp.out, active := t.edp.active, other := t.edp.other }, power := { t.power with stage := 1 } } := rfl

theorem thermalShutdown_power (s : State) : (thermalShutdown s).power.alarm = true ∧ (thermalShutdown s).power.stage = 1 := by
  obtain ⟨cal, hgasp⟩ := writeGasp_only { s with power := { s.power with alarm := true } } 2
  rw [thermalShutdown_eq, hgasp]
  exact ⟨congrArg Power.alarm (quietUnits_power _), rfl⟩

theorem thermalShutdown_link (s : State) {p : Nat} (hp : p < nFacets s) (h : (getFacet s p).retired = false) :
    (getFacet (thermalShutdown s) p).state = 0 := by
  obtain ⟨cal, hgasp⟩ := writeGasp_only { s with power := { s.power with alarm := true } } 2
  rw [thermalShutdown_eq, hgasp]
  exact quietUnits_link _ hp h

theorem thermalShutdown_run (s : State) (n : Nat) : (getCore (thermalShutdown s) n).i.run ≠ .running := by
  rw [thermalShutdown_eq]
  exact quietUnits_run _ n

end Sys2Proof.Machine

/-! SUPPORT. The paces, the budget and the heat, clause by clause. -/

namespace Sys2Proof.Machine

/-! ### MODE_SWITCH_RESUME and THERMAL_READING as they end (R34, R35, R372, R373) -/

theorem getCore_of_cores {s t : State} (h : t.cores = s.cores) (n : Nat) : getCore t n = getCore s n := by rw [getCore, h, getCore]

section Resume

variable {s : State} {c v : Nat}

theorem switchAnswered_caches {n : Nat} (hc : n / 4 = c) (hp : corePresent s n = true) :
    (getCore (switchAnswered s c v) n).i.cache = [] ∧ (getCore (switchAnswered s c v) n).i.btb = [] := by
  rw [getCore_of_cores (switchAnswered_stands s c v).cores]
  exact switchMode_caches hc hp

/-- The writes that waited leave the cores as the switch made them. -/
theorem modeSwitchResume_caches (hv : (getCluster s c).sw = some v) (hready : switchReady s c = true) :
    ∃ t, exec (.modeSwitchResume c) s = .next t ∧
      ∀ n, n / 4 = c ∧ corePresent s n = true → (getCore t n).i.cache = [] ∧ (getCore t n).i.btb = [] := by
  have hcores : ∀ l : List (Nat × Option Reply), (l.foldl (paceLater c) (switchAnswered s c v)).cores = (switchAnswered s c v).cores :=
    fun l => foldl_rel (R := fun a b : State => b.cores = a.cores) (fun _ => rfl) (fun h1 h2 => h2.trans h1) (paceLater_cores c) l _
  refine ⟨_, exec_modeSwitchResume hv hready, fun n ⟨hc, hp⟩ => ?_⟩
  rw [getCore_of_cores (hcores _)]
  exact switchAnswered_caches hc hp

theorem modeSwitchResume_last (hv : (getCluster s c).sw = some v) (hwait : (getCluster s c).sw2 = []) (hready : switchReady s c = true) :
    exec (.modeSwitchResume c) s = .next (switchAnswered s c v) := by
  rw [exec_modeSwitchResume hv hready, hwait]
  rfl

theorem switchAnswered_cluster : (getCluster (switchAnswered s c v) c).pace = v ∧ (getCluster (switchAnswered s c v) c).sw = none ∧
    (getCluster (switchAnswered s c v) c).classic = (v != 0 || s.power.arb) ∧ (getIr (switchAnswered s c v) c).level = 0 := by
  obtain ⟨-, hcl, hiris⟩ := switchAnswered_stands s c v
  rw [getCluster, hcl, ← getCluster, getIr, hiris, ← getIr, getCluster_switchMode]
  exact ⟨rfl, rfl, rfl, getIr_switchMode s c v⟩

theorem switchAnswered_unanswered (h : (getCluster s c).swAns = none) : switchAnswered s c v = switchMode s c v := by rw [switchAnswered, h]

end Resume

section Reading

variable {s : State} {temps : List Int}

theorem readHeat_units (s : State) (temps : List Int) : nFacets (readHeat s temps) = nFacets s ∧ ∀ p, getFacet (readHeat s temps) p = getFacet s p := by
  rw [(heatBut_readHeat s temps).only]
  exact ⟨rfl, fun _ => rfl⟩

theorem thermalReading_cool (hdue : s.iris.lastTemp + 100000 ≤ s.tb) (hon : s.iris.shutdown = false) (hcool : ∀ q, q < nQuads s → temps.getD q 0 < 1250) :
    exec (.thermalReading temps) s = .next (readHeat s temps) := by
  rw [exec_thermalReading hdue hon, if_neg]
  rw [any_hot_iff]
  exact fun ⟨q, hq, h⟩ => absurd (hcool q hq) (Int.not_lt.2 h)

theorem thermalReading_hot (hdue : s.iris.lastTemp + 100000 ≤ s.tb) (hon : s.iris.shutdown = false) (hhot : ∃ q, q < nQuads s ∧ 1250 ≤ temps.getD q 0) :
    ∃ t, exec (.thermalReading temps) s = .next t ∧ t.iris.shutdown = true ∧ t.power.alarm = true ∧ t.power.stage = 1 ∧ t.active = none ∧
      (∀ p, p < nFacets s → (getFacet s p).retired = false → (getFacet t p).state = 0) ∧ ∀ n, (getCore t n).i.run ≠ .running := by
  obtain ⟨hn, hfacet⟩ := readHeat_units s temps
  obtain ⟨halarm, hstage⟩ := thermalShutdown_power (readHeat s temps)
  refine ⟨thermalShutdown (readHeat s temps), ?_, rfl, halarm, hstage, rfl, fun p hp h => ?_, thermalShutdown_run _⟩
  · rw [exec_thermalReading hdue hon, if_pos (any_hot_iff.2 hhot)]
  · exact thermalShutdown_link _ (hn ▸ hp) (by rw [hfacet]; exact h)

end Reading

/-- Settles O53: a clause an instruction, each by the lemma that says what the instruction does. -/
theorem pacesBudgetAndHeat : Obligations.PacesBudgetAndHeat := by
  unfold Obligations.PacesBudgetAndHeat
  intro s pace temp heat reserve fits others lowered
  refine ⟨fun c v => ?_, fun c v => ?_, fun idx sub v h => budgetWrite_spec s h, fun meas shared vcore hdue hon => ?_, fun ha hst hon hdue => ?_,
    fun temps hdue => ?_, fun q at_ hq hhot hstate hdue => thermalPaceDrop_spec hq hhot hstate hdue⟩
  case refine_1 =>
    intro x no slower here set_ cool
    obtain ⟨h1, h2, h3, h4, h5, h6, hgo⟩ := paceWrite_spec s c v
    refine ⟨h1, h2, h3, h4, h5, h6, fun h => paceAccept_spec ?_ (nClusters_le s) (hgo h), fun hc hsw => ?_⟩
    · rcases h with ⟨⟨⟨hc, -⟩, -⟩, -⟩ | ⟨⟨hc, -⟩, -⟩ <;> exact hc
    · exact ⟨_, paceWrite_waits hc hsw, fun d hd => getCluster_setCluster_ne s hd _, getCluster_setCluster .., rfl⟩
  case refine_2 =>
    intro x mine
    refine ⟨exec_modeSwitchResume_waits, modeSwitchResume_caches, fun hv hwait hready => ?_⟩
    obtain ⟨hpace, hsw, hclassic, hlevel⟩ := switchAnswered_cluster (s := s) (c := c) (v := v)
    refine ⟨_, modeSwitchResume_last hv hwait hready, hpace, hsw, hclassic, hlevel, fun n ⟨hc, hp⟩ => switchAnswered_caches hc hp,
      fun hans hbank hidle _ => ?_⟩
    rw [switchAnswered_unanswered hans]
    refine switchMode_idle hans hwait hbank fun n hn => ?_
    obtain ⟨hstores, hloads, hdiv, hfpu, hbeam⟩ := hidle n (mem_switchCores.1 hn)
    exact ⟨hstores, hloads, hdiv, hfpu, hbeam⟩
  case refine_3 =>
    intro late
    refine ⟨_, exec_irisMeasurement hdue hon, ?_⟩
    obtain ⟨honly, ⟨hv, hlast, htemps, htstate, hpkg⟩, -, hs, hn⟩ := measurement_device s meas shared vcore
    rw [allStoppedDown_iff] at hs hn
    have hrouter := congrArg State.router honly
    refine ⟨?_, fun c => ?_, by rw [hrouter], hv, hlast, htemps, htstate, hpkg, fun c hc => measurement_registers s meas shared vcore hc, hs, hn⟩
    · rw [hrouter]
      exact honly
    · obtain ⟨hlate, hother⟩ := measurement_cluster s meas shared vcore c
      split
      next h => exact (hlate h).1
      next h => exact (hother h).1
  case refine_4 =>
    obtain ⟨honly, hh, hfresh, hshort⟩ := recomputeAllot_only s
    refine ⟨_, exec_allotmentRecomputation ha hst hon hdue, honly, hh, hfresh, hshort ▸ short_iff s, fun c hc => ⟨fun hp _ _ => recomputeAllot_paced hc hp,
      recomputeAllot_short hc⟩, recomputeAllot_keeps s, _, exec_allotmentRecomputation (s := coolDevice s) ha hst hon hdue,
      fun c hc hp => recomputeAllot_free hc hp, recomputeAllot_sum s⟩
  case refine_5 =>
    intro at_
    refine ⟨fun hoff => ⟨_, exec_thermalReading_off hdue hoff, rfl, fun q hq => readings_held _ hq⟩, fun hon hcool => ?_, thermalReading_hot hdue⟩
    refine ⟨_, thermalReading_cool hdue hon hcool, (heatBut_readHeat s temps).only, fun q hq => readHeat_heat hq, fun c hc => readHeat_cluster hc⟩

end Sys2Proof.Machine

/-! SUPPORT. What power-on reset leaves: every resource its reset value, every route its default (R205, R404). -/

namespace Sys2Proof.Machine

/-- The 1,024 routes stand in 0x7000 to 0x7007, 128 to an index, from sub-index 1 on (R205). -/
theorem ent_reset_route {src : Nat} (h : src < 1024) : ent State.reset (0x7000 + src / 128) (src % 128 + 1) = routeDflt src := by
  have hidx : entKey (0x7000 + src / 128) (src % 128 + 1) / 256 = 0x7000 + src / 128 := by unfold entKey; omega
  have hsub : entKey (0x7000 + src / 128) (src % 128 + 1) % 256 = src % 128 + 1 := by unfold entKey; omega
  have hsrc : (0x7000 + src / 128 - 0x7000) * 128 + (src % 128 + 1 - 1) = src := by omega
  show entDflt (entKey (0x7000 + src / 128) (src % 128 + 1)) = routeDflt src
  unfold entDflt
  dsimp only
  rw [hidx, hsub, if_pos (by omega), hsrc]

theorem routeDflt_coreDoorbell {n : Nat} (h : n < 128) : routeDflt (560 + n) = n + 4 * 256 + 2048 := by
  rw [routeDflt, if_pos (by omega), Nat.add_sub_cancel_left]

theorem routeDflt_toWarden {src : Nat} (h : src = 770 ∨ src = 771 ∨ src = 772 ∨ src = 778 ∨ (800 ≤ src ∧ src ≤ 927)) :
    routeDflt src = 130 + 7 * 256 + 2048 := by
  rw [routeDflt, if_neg (by omega), if_neg (by omega), ite_eq_left_iff]
  intro hne
  exact if_pos (by omega)

theorem routeDflt_off {src : Nat}
    (h : src < 560 ∨ (687 < src ∧ src < 768) ∨ (772 < src ∧ src < 778) ∨ (778 < src ∧ src < 800) ∨ (927 < src ∧ src < 1024)) :
    routeDflt src = 130 := by
  rw [routeDflt, if_neg (by omega), if_neg (by omega), if_neg (by omega), if_neg (by omega)]

/-- Settles O4: each resource is its reset value; a route is its default. -/
theorem resetLeavesTheStatedValues : Obligations.ResetLeavesTheStatedValues := by
  unfold Obligations.ResetLeavesTheStatedValues
  intro s route
  have hroute : ∀ src, src < 1024 → route src = routeDflt src := fun src h => ent_reset_route h
  refine ⟨rfl, fun n i => ⟨rfl, rfl⟩, fun n => ⟨rfl, rfl, rfl, rfl, rfl, rfl, rfl, rfl⟩, fun c k => ⟨rfl, rfl, rfl⟩,
    fun c => ⟨rfl, rfl, rfl, rfl⟩, fun b => rfl, fun p => ⟨rfl, rfl, rfl, rfl, ?_⟩, fun n hn => ?_, ?_, ?_, fun src h => ?_, fun src h => ?_⟩
  case refine_1 =>
    show 0x1C0000 + (p % 8) * 0x4000 = _
    omega
  case refine_2 => rw [hroute _ (by omega), routeDflt_coreDoorbell hn]
  case refine_3 => exact hroute 768 (by omega)
  case refine_4 => exact hroute 769 (by omega)
  case refine_5 => rw [hroute src (by omega), routeDflt_toWarden h]
  case refine_6 => rw [hroute src (by omega), routeDflt_off h]

end Sys2Proof.Machine

/-! SUPPORT. A bundle of register moves: its checks, its writes, the end of its step (R44, R47, R49, R51, R53, R132, R137). -/

namespace Sys2Proof.Machine

/-- A move of an immediate or a general register to a general register. -/
def RegMove (m : Move) : Prop := m.dst < 0x40 ∧ ((∃ v, m.src = .imm v) ∨ ∃ c, m.src = .sock c ∧ c < 0x40)

/-- The value of the source of such a move in core `k`. -/
def regValue (k : LensCore) (m : Move) : Word := match m.src with | .imm v => v | .sock c => greg k c

/-- Such moves with the values they carry. -/
def regWrites (k : LensCore) (ms : List Move) : List (Move × Word) := ms.map fun m => (m, regValue k m)

/-! ### One move -/

theorem trigOf_none {code : Nat} (h : code < 0x200) : trigOf code = none := by
  rw [Option.eq_none_iff_forall_ne_some]
  intro o ho
  exact absurd (trigOf_dst ho).1 (Nat.not_le.2 h)

theorem unitAbsent_low (s : State) {code : Nat} (h : code < 0x40) : unitAbsent s code = false := by
  unfold unitAbsent
  rw [decide_eq_false (by omega : ¬ 0x290 ≤ code)]
  rfl

namespace RegMove

variable {m : Move}

theorem noTrig (h : RegMove m) : trigOf m.dst = none := trigOf_none (Nat.lt_trans h.1 (by decide))

theorem legal (h : RegMove m) (s : State) (sup : Bool) : moveCheck s sup m = none := by
  obtain ⟨hd, hs⟩ := h
  have hdst : dstLegal m.dst = true := by simp [dstLegal, hd]
  have huser : userForbids m.dst = false := by rw [userForbids, trigOf_none (by omega)]
  have hlow : ∀ c < 0x40, (decide (0x480 ≤ c) && decide (c < 0x500)) = false := fun c hc => by simp; omega
  unfold moveCheck
  obtain ⟨v, hv⟩ | ⟨c, hc, hlt⟩ := hs
  · simp [hv, unitAbsent_low s hd, hdst, huser, hlow _ hd]
  · have hsrc : srcLegal c = true := by simp [srcLegal, hlt]
    simp [hc, unitAbsent_low s hd, unitAbsent_low s hlt, hdst, hsrc, huser, hlow _ hd, hlow _ hlt]

theorem read (h : RegMove m) (s : State) (n : Nat) (k : LensCore) (rp : Bool) : readSrc s n k rp m.src = .val (regValue k m) := by
  obtain ⟨-, ⟨v, hv⟩ | ⟨c, hc, hlt⟩⟩ := h
  · simp [regValue, readSrc, hv]
  · simp [regValue, readSrc, readSock, hc, hlt]

theorem srcCode_lt (h : RegMove m) {c : Nat} (hc : srcCode m = some c) : c < 0x40 := by
  obtain ⟨-, ⟨v, hv⟩ | ⟨d, hd, hlt⟩⟩ := h
  · simp [srcCode, hv] at hc
  · simp only [srcCode, hd, Option.some.injEq] at hc
    omega

end RegMove

/-! ### The checks over a bundle of register moves -/

section Checks

variable {ms : List Move} (hms : ∀ m ∈ ms, RegMove m)
include hms

theorem firstIllegal_regMoves (s : State) (sup : Bool) : firstIllegal s sup ms = none := by
  rw [firstIllegal, List.findSome?_eq_none_iff]
  intro m hm
  rw [(hms m hm).legal, Option.map_none]

theorem firstConflict_regMoves {ds us : List Nat} (hnd : (ms.map Move.dst).Nodup) (hds : ∀ m ∈ ms, m.dst ∉ ds) : firstConflict ms ds us = none := by
  induction ms generalizing ds with
  | nil => rfl
  | cons m ms ih =>
    obtain ⟨hm, hnd⟩ := List.nodup_cons.1 hnd
    have hreg := hms m List.mem_cons_self
    unfold firstConflict
    rw [if_neg (Nat.ne_of_lt (Nat.lt_trans hreg.1 (by decide))), if_neg (by simpa using hds m List.mem_cons_self), hreg.noTrig]
    refine ih (fun x hx => hms x (List.mem_cons_of_mem _ hx)) hnd fun x hx hmem => ?_
    obtain hx' | hx' := List.mem_cons.1 hmem
    · exact hm (hx' ▸ List.mem_map_of_mem hx)
    · exact hds x (List.mem_cons_of_mem _ hx) hx'

theorem readAll_regMoves (s : State) (n : Nat) (rp : Bool) :
    readAll s n rp ms = (regWrites (getCore s n) ms).map fun v => (v.1, Rd.val v.2) := by
  rw [regWrites, List.map_map]
  exact List.map_congr_left fun m hm => by rw [(hms m hm).read]; rfl

end Checks

/-- Reads that all give their values neither stall nor are poisoned (R46, R216). -/
theorem reads_of_values (vs : List (Move × Word)) :
    let rs := vs.map fun v => (v.1, Rd.val v.2)
    rs.any (fun r => r.2 == .stall) = false ∧ firstPoison rs = none ∧ valuesOf rs = vs := by
  refine ⟨?_, ?_, ?_⟩
  · simp
  · rw [firstPoison, List.findSome?_eq_none_iff]
    intro r hr
    obtain ⟨v, -, rfl⟩ := List.mem_map.1 hr
    rfl
  · simp [valuesOf]

section Writes

variable {vs : List (Move × Word)} (hvs : ∀ v ∈ vs, v.1.dst < 0x40)
include hvs

theorem trigMoves_regWrites : trigMoves vs = [] := by
  rw [trigMoves, List.filterMap_eq_nil_iff]
  intro v hv
  rw [trigOf_none (Nat.lt_trans (hvs v hv) (by decide)), Option.map_none]

theorem resultConflict_regWrites (n : Nat) (k1 kb : LensCore) : resultConflict n k1 kb vs [] = none := by
  induction vs with
  | nil => rfl
  | cons v vs ih =>
    have hd : v.1.dst < 0x40 := hvs v List.mem_cons_self
    have hbits : ∀ k, bitsWritten n k v.1 v.2 = [] := fun k => by
      rw [bitsWritten, if_neg (by omega), trigOf_none (by omega)]
    unfold resultConflict
    dsimp only
    rw [hbits]
    exact ih fun x hx => hvs x (List.mem_cons_of_mem _ hx)

theorem loopChecks_regWrites {k0 : LensCore} (k1 : LensCore) {b : Bund} (hend : endsActive k0 b.off = false) : loopChecks k0 k1 [b] vs = none := by
  have hviews : (vs.filter fun v => isView v.1.dst) = [] := by
    rw [List.filter_eq_nil_iff]
    intro v hv
    have := hvs v hv
    simp only [isView, Bool.and_eq_true, decide_eq_true_eq]
    omega
  have hloop : (vs.find? fun v => v.1.dst == 0x268) = none := by
    rw [List.find?_eq_none]
    intro v hv
    have := hvs v hv
    rw [beq_iff_eq]
    omega
  unfold loopChecks
  simp [hviews, hloop, hend]

/-- The writes change the general registers alone. -/
theorem writeMoves_regWrites_only (k : LensCore) (n : Nat) : writeMoves k n vs = { k with g := (writeMoves k n vs).g } := by
  unfold writeMoves
  induction vs generalizing k with
  | nil => rfl
  | cons v vs ih =>
    have hd : v.1.dst < 0x40 := hvs v List.mem_cons_self
    rw [List.foldl_cons, trigOf_none (by omega), writeDst, if_pos hd]
    exact (ih (fun x hx => hvs x (List.mem_cons_of_mem _ hx)) _).trans rfl

/-- A register no write names keeps its value. -/
theorem greg_writeMoves_ne (k : LensCore) (n : Nat) {r : Nat} (hr : ∀ v ∈ vs, v.1.dst ≠ r) : greg (writeMoves k n vs) r = greg k r := by
  unfold writeMoves
  induction vs generalizing k with
  | nil => rfl
  | cons v vs ih =>
    have hd : v.1.dst < 0x40 := hvs v List.mem_cons_self
    rw [List.foldl_cons, trigOf_none (by omega), writeDst, if_pos hd]
    exact (ih (fun x hx => hvs x (List.mem_cons_of_mem _ hx)) _ fun x hx => hr x (List.mem_cons_of_mem _ hx)).trans
      (Tab.get_put_ne _ (Ne.symm (hr v List.mem_cons_self)) ..)

/-- Of writes to distinct registers each holds its value. -/
theorem greg_writeMoves_mem (k : LensCore) (n : Nat) (hnd : (vs.map fun v => v.1.dst).Nodup) {v : Move × Word} (hv : v ∈ vs) :
    greg (writeMoves k n vs) v.1.dst = v.2 := by
  induction vs generalizing k with
  | nil => cases hv
  | cons x vs ih =>
    have hd : x.1.dst < 0x40 := hvs x List.mem_cons_self
    obtain ⟨hx, hnd⟩ := List.nodup_cons.1 hnd
    have hrest : ∀ y ∈ vs, y.1.dst < 0x40 := fun y hy => hvs y (List.mem_cons_of_mem _ hy)
    have hstep : writeMoves k n (x :: vs) = writeMoves (setGreg k x.1.dst x.2) n vs := by
      rw [writeMoves, List.foldl_cons, trigOf_none (by omega), writeDst, if_pos hd]
      rfl
    rw [hstep]
    obtain rfl | hv := List.mem_cons.1 hv
    · rw [greg_writeMoves_ne hrest _ _ fun y hy e => hx (List.mem_map.2 ⟨y, hy, e⟩)]
      exact Tab.get_put_same ..
    · exact ih hrest _ hnd hv

end Writes

/-! ### The plan of the bundle -/

/-- The moves of a bundle whose guards are true in core `k` (R53). -/
def liveMoves (k : LensCore) (b : Bund) : List Move := b.ms.filter (guardOf k)

theorem mem_liveMoves {k : LensCore} {b : Bund} {m : Move} : m ∈ liveMoves k b ↔ m ∈ b.ms ∧ guardOf k m = true := List.mem_filter

/-- The writes of a bundle of register moves that core `k` issues. -/
def liveWrites (k : LensCore) (b : Bund) : List (Move × Word) := regWrites k (liveMoves k b)

/-- The work of a bundle of register moves. -/
def regWork (k : LensCore) (n : Nat) (b : Bund) (rep : Option Rep) : Work :=
  { k1 := writeMoves k n (liveWrites k b), vs2 := [], reads := (liveMoves k b).filterMap srcCode, dsts := (liveMoves k b).map Move.dst,
    trigs := [], off := b.off, size := b.size, last := b.off, xfer := none, rep, skipped := none, delay := false }

section Plan

variable {b : Bund} (hms : ∀ m ∈ b.ms, RegMove m)
include hms

theorem liveMoves_reg (k : LensCore) : ∀ m ∈ liveMoves k b, RegMove m := fun m hm => hms m (mem_liveMoves.1 hm).1

theorem liveWrites_dst (k : LensCore) : ∀ v ∈ liveWrites k b, v.1.dst < 0x40 := by
  intro v hv
  obtain ⟨m, hm, rfl⟩ := List.mem_map.1 hv
  exact (liveMoves_reg hms k m hm).1

theorem noTransfer_of_regMoves : b.ms.any isTransfer = false := by
  rw [List.any_eq_false]
  intro m hm
  have := (hms m hm).1
  simp only [isTransfer, Bool.and_eq_true, decide_eq_true_eq]
  omega

omit hms in
/-- The writes of a bundle issued alone are all writes of the first bundle. -/
theorem liveWrites_first (k : LensCore) (hfirst : ∀ m ∈ b.ms, m.second = false) :
    (liveWrites k b).filter (fun v => !v.1.second) = liveWrites k b ∧ (liveWrites k b).filter (fun v => v.1.second) = [] := by
  have hv : ∀ v ∈ liveWrites k b, v.1.second = false := fun v hv => by
    obtain ⟨m, hm, rfl⟩ := List.mem_map.1 hv
    exact hfirst m (mem_liveMoves.1 hm).1
  rw [List.filter_eq_self, List.filter_eq_nil_iff]
  exact ⟨fun v h => by rw [hv v h]; rfl, fun v h => by rw [hv v h]; decide⟩

theorem planMoves_regMoves {s : State} {n : Nat} (rep : Option Rep) (hfirst : ∀ m ∈ b.ms, m.second = false)
    (hnd : ((liveMoves (getCore s n) b).map Move.dst).Nodup) (hend : endsActive (getCore s n) b.off = false) :
    planMoves s n [b] rep = .go (regWork (getCore s n) n b rep) := by
  have hlive := liveMoves_reg hms (getCore s n)
  have hdst := liveWrites_dst hms (getCore s n)
  have hfilter : b.ms.filter (guardOf (getCore s n)) = liveMoves (getCore s n) b := rfl
  have hread : ∀ rp, readAll s n rp (liveMoves (getCore s n) b) = (liveWrites (getCore s n) b).map fun v => (v.1, Rd.val v.2) :=
    readAll_regMoves hlive s n
  obtain ⟨hall, hnone⟩ := liveWrites_first (getCore s n) hfirst
  obtain ⟨hstall, hpoison, hvalues⟩ := reads_of_values (liveWrites (getCore s n) b)
  unfold planMoves
  simp only [List.flatMap_cons, List.flatMap_nil, List.append_nil, List.headD_cons, hfilter, firstIllegal_regMoves hlive,
    firstConflict_regMoves hlive hnd (ds := []) (by simp), hread, hstall, hpoison, hvalues, hall, hnone, trigMoves_regWrites hdst,
    noTransfer_of_regMoves hms, resultConflict_regWrites hdst, loopChecks_regWrites hdst _ hend, Bool.false_eq_true, if_false, Option.bind_none,
    ite_self, firstHold, checkTrigs, List.any_nil, Bool.false_and, List.foldl_cons, List.foldl_nil, Nat.zero_add, regWork]

end Plan

/-! ### The step performed -/

/-- The end of a step that writes no aperture: counted, the holds of its bundle over (R10, R94, R95, R465). -/
def stepEnd (k : LensCore) : LensCore :=
  let k1 := countStep k
  { k1 with
    i := { k1.i with drain := false, dueStep := none, wait5 := none, fence := false, first := false }
    lp := { k1.lp with pass := false, stepping := if k1.lp.stepping = 0 then 0 else 2 } }

theorem stepEnd_eq (k : LensCore) : ∃ rem hend stepping, stepEnd k = { k with
    r := { k.r with hushRem := rem }, e := { k.e with hushEnd := hend }, lp := { k.lp with pass := false, stepping }
    i := { k.i with steps := k.i.steps + 1, drain := false, dueStep := none, wait5 := none, fence := false, first := false } } := by
  unfold stepEnd countStep
  cases h : k.e.hushEnd with
  | none => exact ⟨k.r.hushRem, k.e.hushEnd, _, rfl⟩
  | some x => exact ⟨_, _, _, rfl⟩

theorem loopLc_of_lt_loopDepth {k : LensCore} {i : Nat} (h : i < loopDepth k) : i < 4 ∧ loopLc k i ≠ 0 := by
  unfold loopDepth at h
  split_ifs at h <;> refine ⟨by omega, ?_⟩ <;> interval_cases i <;> assumption

/-- A bundle at whose offset no active level ends is followed by its successor (R132). -/
theorem sequence_of_not_endsActive {k : LensCore} {p : Nat} (h : endsActive k p = false) (succ : Nat) :
    sequence k p succ = modIssue k fun i => { i with pc := BitVec.ofNat 32 succ } := by
  have hend : loopEnd p (loopDepth k) k = (k, none) := by
    cases hd : loopDepth k with
    | zero => rfl
    | succ d =>
      obtain ⟨hd4, hlc⟩ := loopLc_of_lt_loopDepth (k := k) (i := d) (by omega)
      have hle : (loopLe k d).toNat ≠ p := fun he => hlc (by simpa [he] using List.any_eq_false.1 h d (List.mem_range.2 hd4))
      rw [loopEnd, if_neg hle]
  unfold sequence
  rw [hend]

theorem endsActive_congr {k k' : LensCore} (hle : k'.r.le = k.r.le) (hlc : k'.r.lc = k.r.lc) (p : Nat) : endsActive k' p = endsActive k p := by
  unfold endsActive loopLc loopLe
  rw [hle, hlc]

/-- The core as the moves of a bundle and the end of its step leave it, before the next bundle is chosen. -/
def movedCore (k : LensCore) (n : Nat) (b : Bund) : LensCore := stepEnd (writeMoves k n (liveWrites k b))

/-- REPC gives up an iteration where the repeat takes its count from it (R137). -/
def countRepc (r : Rep) (k : LensCore) : LensCore := if r.useRepc = true ∧ r.left ≠ 0 then { k with r := { k.r with repc := k.r.repc - 1 } } else k

/-- A bundle with neither trigger nor transfer leads to what follows in sequence. -/
theorem afterStep_noTrigs {w : Work} (htrigs : w.trigs = []) (hxfer : w.xfer = none) (s : State) (n : Nat) :
    afterStep s n w = modCore s n fun k => sequence k w.last (w.off + w.size) := by
  unfold afterStep
  simp [htrigs, hxfer]

section Perform

variable {b : Bund} (hms : ∀ m ∈ b.ms, RegMove m)
include hms

/-- General registers are neither `lsu.out` nor TBLO. -/
theorem regReads_lt (k : LensCore) {c : Nat} (hc : 0x40 ≤ c) : ((liveMoves k b).filterMap srcCode).contains c = false := by
  rw [List.contains_eq_mem, decide_eq_false_iff_not, List.mem_filterMap]
  rintro ⟨m, hm, hmc⟩
  exact absurd ((liveMoves_reg hms k m hm).srcCode_lt hmc) (Nat.not_lt.2 hc)

theorem noAp0_of_regMoves (k : LensCore) : writesAp0 ((liveMoves k b).map Move.dst) = false := by
  rw [writesAp0, List.any_eq_false]
  intro c hc
  obtain ⟨m, hm, rfl⟩ := List.mem_map.1 hc
  have := (liveMoves_reg hms k m hm).1
  simp only [Bool.or_eq_true, beq_iff_eq]
  omega

theorem perform_regWork (s : State) (n : Nat) : perform s n (regWork (getCore s n) n b none) =
    setCore s n (sequence (modIssue (movedCore (getCore s n) n b) fun i => { i with resumeRep := false })
      b.off (b.off + b.size)) := by
  unfold perform
  simp only [regWork, regReads_lt hms _ (c := 0x24B) (by decide), regReads_lt hms _ (c := 0x407) (by decide), noAp0_of_regMoves hms, secondHalf,
    Bool.false_eq_true, if_false, List.filter_nil, List.isEmpty_nil, Bool.and_self, if_true, List.foldl_nil, modCore_setCore, Bool.not_false]
  rw [afterStep_noTrigs rfl rfl, modCore_setCore]
  rfl

theorem perform_regWork_repeat (s : State) (n : Nat) (r : Rep) : perform s n (regWork (getCore s n) n b (some r)) =
    let k := countRepc r (movedCore (getCore s n) n b)
    setCore s n (if 1 < r.left then modIssue k fun i => { i with resumeRep := false, rep := some { r with left := r.left - 1, begun := true } }
      else endRepeat k b.off (b.off + b.size)) := by
  unfold perform
  simp only [regWork, regReads_lt hms _ (c := 0x24B) (by decide), regReads_lt hms _ (c := 0x407) (by decide), noAp0_of_regMoves hms, secondHalf,
    Bool.false_eq_true, if_false, List.filter_nil, List.isEmpty_nil, Bool.and_self, if_true, List.foldl_nil, modCore_setCore]
  split <;> rfl

end Perform

/-! ### The bundle at the front of issue stands first (R123) -/

theorem parseSlots_first {i : Nat} {lit : Bool} {vs : List Nat} {ms : List Move} (h : parseSlots i lit vs = .inr ms) : ∀ m ∈ ms, m.second = false := by
  fun_induction parseSlots i lit vs generalizing ms
  case case1 =>
    obtain rfl := Sum.inr.inj h
    exact fun m hm => absurd hm List.not_mem_nil
  case case2 ih => exact ih h
  case case4 hrest ih | case10 hrest ih =>
    obtain rfl := Sum.inr.inj h
    exact List.forall_mem_cons.2 ⟨rfl, ih hrest⟩
  case case8 hrest ih =>
    rw [hrest] at h
    obtain rfl := Sum.inr.inj h
    exact List.forall_mem_cons.2 ⟨rfl, ih hrest⟩
  case case7 hrest _ =>
    rw [hrest] at h
    cases h
  case case3 | case5 | case6 | case9 | case11 => cases h

theorem decodeBundle_moves {w0 w1 : BitVec 64} {rpt rint : Bool} {rcnt : Nat} {ms : List Move} (h : decodeBundle w0 w1 = .moves rpt rint rcnt ms) :
    ∃ vs, parseSlots 0 false vs = .inr ms := by
  unfold decodeBundle at h
  dsimp only at h
  split at h
  · cases h
  · split at h
    · cases h
    · split at h
      · cases h
      next hp =>
        cases h
        exact ⟨_, hp⟩
  · split at h
    · cases h
    · split at h
      · cases h
      next hp =>
        cases h
        exact ⟨_, hp⟩
  · cases h

theorem frontOf_bund {o : Nat} {w0 w1 : BitVec 64} {b : Bund} (h : frontOf o w0 w1 = .bund b) :
    ∃ rpt rint rcnt, decodeBundle w0 w1 = .moves rpt rint rcnt b.ms := by
  unfold frontOf at h
  split at h
  · cases h
  · cases h
  next hd =>
    cases h
    exact ⟨_, _, _, hd⟩

theorem frontAt_bund {s : State} {n o : Nat} {b : Bund} (h : frontAt s n o = .bund b) : ∃ w0 w1, frontOf o w0 w1 = .bund b := by
  unfold frontAt at h
  split at h
  · cases h
  · cases h
  · split at h
    · exact ⟨_, _, h⟩
    · split at h
      · cases h
      · cases h
      · exact ⟨_, _, h⟩

theorem nextFront_bund {s : State} {n : Nat} {b : Bund} (h : nextFront s n = .bund b) : ∃ o w0 w1, frontOf o w0 w1 = .bund b := by
  unfold nextFront at h
  dsimp only at h
  split at h
  · split at h
    · exact ⟨_, _, _, h⟩
    · exact ⟨_, frontAt_bund h⟩
  · exact ⟨_, frontAt_bund h⟩

theorem nextFront_first {s : State} {n : Nat} {b : Bund} (h : nextFront s n = .bund b) : ∀ m ∈ b.ms, m.second = false := by
  obtain ⟨o, w0, w1, hfront⟩ := nextFront_bund h
  obtain ⟨rpt, rint, rcnt, hdecode⟩ := frontOf_bund hfront
  obtain ⟨vs, hparse⟩ := decodeBundle_moves hdecode
  exact parseSlots_first hparse

/-! ### The commands -/

theorem planNext_plain {s : State} {n : Nat} {b : Bund} (hdelay : (getCore s n).i.delay = none) (hnext : nextFront s n = .bund b)
    (hrpt : b.rpt = false) : planNext s n = (.plain, planMoves s n (withPair s n b) none) := by
  simp [planNext, hdelay, hnext, hrpt]

theorem planNext_repeat {s : State} {n : Nat} {b : Bund} {r : Rep} (hdelay : (getCore s n).i.delay = none) (hnext : nextFront s n = .bund b)
    (hrpt : b.rpt = true) (hr : repeatNow (getCore s n) b = some r) (hleft : 0 < r.left) : planNext s n = (.rpt, planMoves s n [b] (some r)) := by
  simp [planNext, hdelay, hnext, hrpt, hr, Nat.ne_of_gt hleft]

theorem exec_bundleIssue {s : State} {n : Nat} {w : Work} (hmay : mayIssue s n = true) (hplan : planNext s n = (.plain, .go w)) :
    exec (.bundleIssue n) s = .next (perform s n w) := by
  show execBundleIssue n s = _
  rw [execBundleIssue, if_pos hmay, hplan]
  rfl

theorem exec_repeatIteration {s : State} {n : Nat} {w : Work} (hmay : mayIssue s n = true) (hplan : planNext s n = (.rpt, .go w)) :
    exec (.repeatIteration n) s = .next (perform s n w) := by
  show execRepeatIteration n s = _
  rw [execRepeatIteration, if_pos hmay, hplan]
  rfl

theorem run_of_mayIssue {s : State} {n : Nat} (h : mayIssue s n = true) : (getCore s n).i.run = .running := by
  simp only [mayIssue, issues, Bool.and_eq_true, beq_iff_eq] at h
  tauto

/-! ### What the step leaves -/

/-- `k'` is core `k` after a step that moved general registers alone and left REPC at `repc`. -/
structure RegStep (k k' : LensCore) (repc : BitVec 16) : Prop where
  u     : k'.u = k.u
  bits  : k'.bits = k.bits
  q     : k'.q = k.q
  st    : k'.st = k.st
  r     : k'.r = { k.r with hushRem := k'.r.hushRem, repc }
  e     : k'.e = { k.e with hushEnd := k'.e.hushEnd }
  lp    : k'.lp = { k.lp with pass := false, stepping := k'.lp.stepping }
  run   : k'.i.run = k.i.run
  steps : k'.i.steps = k.i.steps + 1

namespace RegStep

variable {k k' : LensCore} {repc : BitVec 16}

theorem issue (h : RegStep k k' repc) {f : Issue → Issue} (hrun : (f k'.i).run = k'.i.run) (hsteps : (f k'.i).steps = k'.i.steps) :
    RegStep k (modIssue k' f) repc :=
  { h with run := hrun.trans h.run, steps := hsteps.trans h.steps }

theorem repeated (h : RegStep k k' k.r.repc) {r : Rep} (hleft : 0 < r.left) :
    RegStep k (countRepc r k') (if r.useRepc then k.r.repc - 1 else k.r.repc) := by
  unfold countRepc
  cases r.useRepc with
  | false => simpa using h
  | true =>
    rw [if_pos ⟨rfl, Nat.ne_of_gt hleft⟩, if_pos rfl]
    exact { h with r := by rw [h.r] }

theorem endsActive (h : RegStep k k' repc) {p : Nat} (hend : endsActive k p = false) : Machine.endsActive k' p = false :=
  (endsActive_congr (by rw [h.r]) (by rw [h.r]) p).trans hend

end RegStep

theorem countRepc_keeps (r : Rep) (k : LensCore) : (countRepc r k).g = k.g ∧ (countRepc r k).i = k.i := by
  unfold countRepc
  split <;> exact ⟨rfl, rfl⟩

/-- The last iteration of a repeat at an offset that ends no active level is followed by the bundle after it (R137). -/
theorem endRepeat_of_not_endsActive {k : LensCore} {p : Nat} (h : endsActive k p = false) (succ : Nat) : endRepeat k p succ =
    modIssue k fun i => { i with
      resumeRep := false, rep := none, ap0Step := none, fills := max i.fills (i.ap0Step.elim 0 fun s => s + 5 - i.steps), pc := BitVec.ofNat 32 succ } :=
  (sequence_of_not_endsActive (k := modIssue k _) h succ).trans rfl

theorem movedCore_spec {b : Bund} (hms : ∀ m ∈ b.ms, RegMove m) (k : LensCore) (n : Nat) :
    RegStep k (movedCore k n b) k.r.repc ∧ (movedCore k n b).g = (writeMoves k n (liveWrites k b)).g ∧
      (movedCore k n b).i.pc = k.i.pc ∧ (movedCore k n b).i.rep = k.i.rep := by
  obtain ⟨rem, hend, stepping, h⟩ := stepEnd_eq (writeMoves k n (liveWrites k b))
  rw [movedCore, h, writeMoves_regWrites_only (liveWrites_dst hms k)]
  exact ⟨⟨rfl, rfl, rfl, rfl, rfl, rfl, rfl, rfl, rfl⟩, rfl, rfl, rfl⟩

section Issued

variable {s : State} {n : Nat} {b : Bund} (hmay : mayIssue s n = true) (hdelay : (getCore s n).i.delay = none) (hnext : nextFront s n = .bund b)
  (hms : ∀ m ∈ b.ms, RegMove m) (hnd : ((liveMoves (getCore s n) b).map Move.dst).Nodup) (hend : endsActive (getCore s n) b.off = false)
include hmay hdelay hnext hms hnd hend

theorem exec_bundleIssue_regMoves (hpair : withPair s n b = [b]) (hrpt : b.rpt = false) :
    ∃ k', exec (.bundleIssue n) s = .next (setCore s n k') ∧ RegStep (getCore s n) k' (getCore s n).r.repc ∧
      k'.g = (writeMoves (getCore s n) n (liveWrites (getCore s n) b)).g ∧
      k'.i.pc = BitVec.ofNat 32 (b.off + b.size) ∧ k'.i.rep = (getCore s n).i.rep := by
  obtain ⟨hstep, hg, -, hrep⟩ := movedCore_spec hms (getCore s n) n
  have hplan := planNext_plain hdelay hnext hrpt
  rw [hpair, planMoves_regMoves hms none (nextFront_first hnext) hnd hend] at hplan
  refine ⟨_, (exec_bundleIssue hmay hplan).trans (congrArg _ (perform_regWork hms s n)), ?_⟩
  rw [sequence_of_not_endsActive ((hstep.issue rfl rfl).endsActive hend)]
  exact ⟨(hstep.issue rfl rfl).issue rfl rfl, hg, rfl, hrep⟩

theorem exec_repeatIteration_regMoves {r : Rep} (hrpt : b.rpt = true) (hr : repeatNow (getCore s n) b = some r) (hleft : 0 < r.left) :
    ∃ k', exec (.repeatIteration n) s = .next (setCore s n k') ∧
      RegStep (getCore s n) k' (if r.useRepc then (getCore s n).r.repc - 1 else (getCore s n).r.repc) ∧
      k'.g = (writeMoves (getCore s n) n (liveWrites (getCore s n) b)).g ∧
      if r.left = 1 then k'.i.rep = none ∧ k'.i.pc = BitVec.ofNat 32 (b.off + b.size)
      else k'.i.rep = some { r with left := r.left - 1, begun := true } ∧ k'.i.pc = (getCore s n).i.pc := by
  obtain ⟨hstep, hg, hpc, -⟩ := movedCore_spec hms (getCore s n) n
  obtain ⟨hkg, hki⟩ := countRepc_keeps r (movedCore (getCore s n) n b)
  have hcount := hstep.repeated hleft
  have hplan := planNext_repeat hdelay hnext hrpt hr hleft
  rw [planMoves_regMoves hms (some r) (nextFront_first hnext) hnd hend] at hplan
  refine ⟨_, (exec_repeatIteration hmay hplan).trans (congrArg _ (perform_regWork_repeat hms s n r)), ?_⟩
  by_cases hone : r.left = 1
  · rw [if_neg (by omega), if_pos hone, endRepeat_of_not_endsActive (hcount.endsActive hend)]
    exact ⟨hcount.issue rfl rfl, hkg.trans hg, rfl, rfl⟩
  · rw [if_pos (by omega), if_neg hone]
    exact ⟨hcount.issue rfl rfl, hkg.trans hg, rfl, (congrArg Issue.pc hki).trans hpc⟩

end Issued

/-- Settles O23: the plan of such a bundle is its writes alone, and no loop level ends after it. -/
theorem bundleMovesRunInParallel : Obligations.BundleMovesRunInParallel := by
  unfold Obligations.BundleMovesRunInParallel
  intro s n b hmay k hdelay hnext hpair hend _ hms hnd value moved
  have hdst := liveWrites_dst hms k
  have hdistinct : ((liveWrites k b).map fun v => v.1.dst).Nodup := by
    rw [liveWrites, regWrites, List.map_map]
    exact hnd
  have hdone : ∀ (c : Instr) (repc : BitVec 16) (P : Issue → Prop), (∃ k', exec c s = .next (setCore s n k') ∧ RegStep k k' repc ∧
      k'.g = (writeMoves k n (liveWrites k b)).g ∧ P k'.i) → moved c repc P := by
    rintro c repc P ⟨k', hexec, hstep, hg, hP⟩
    have hreg : ∀ r, greg k' r = greg (writeMoves k n (liveWrites k b)) r := fun r => congrArg (Tab.get _ r) hg
    refine ⟨_, hexec, onlyCore_setCore .., ?_⟩
    rw [getCore_setCore]
    refine ⟨fun m hm hguard => ?_, fun r hr => ?_, hstep.u, hstep.bits, hstep.q, hstep.st, hstep.r, hstep.e, hstep.lp,
      hstep.run.trans (run_of_mayIssue hmay), hstep.steps, hP⟩
    · exact (hreg m.dst).trans (greg_writeMoves_mem hdst k n hdistinct (List.mem_map_of_mem (mem_liveMoves.2 ⟨hm, hguard⟩)))
    · refine (hreg r).trans (greg_writeMoves_ne hdst k n fun v hv => ?_)
      obtain ⟨m, hm, rfl⟩ := List.mem_map.1 hv
      obtain ⟨hmem, hguard⟩ := mem_liveMoves.1 hm
      exact hr m hmem hguard
  clear_value moved
  exact ⟨fun hrpt => hdone _ _ _ (exec_bundleIssue_regMoves hmay hdelay hnext hms hnd hend hpair hrpt),
    fun hrpt r hr hleft => hdone _ _ _ (exec_repeatIteration_regMoves hmay hdelay hnext hms hnd hend hrpt hr hleft)⟩

end Sys2Proof.Machine

/-! SUPPORT. The trigger commands whose checks fail, and what a waiting fault leaves alone (R47, R51, R81, R93, R189). -/

namespace Sys2Proof.Machine

/-! ### The one move of a trigger command -/

@[simp] theorem soloBundle_ms (s : State) (n code : Nat) (a : Word) : (soloBundle s n code a).ms = [soloMove code a] := rfl
@[simp] theorem soloBundle_off (s : State) (n code : Nat) (a : Word) : (soloBundle s n code a).off = (getCore s n).i.pc.toNat := rfl
@[simp] theorem soloBundle_size (s : State) (n code : Nat) (a : Word) : (soloBundle s n code a).size = 8 := rfl
@[simp] theorem soloMove_slot (code : Nat) (a : Word) : (soloMove code a).slot = 0 := rfl
@[simp] theorem soloMove_second (code : Nat) (a : Word) : (soloMove code a).second = false := rfl
@[simp] theorem soloMove_src (code : Nat) (a : Word) : (soloMove code a).src = .imm a := rfl
@[simp] theorem soloMove_dst (code : Nat) (a : Word) : (soloMove code a).dst = code := rfl
@[simp] theorem reads_soloMove (code : Nat) (a : Word) : [soloMove code a].filterMap srcCode = [] := rfl

/-- What fails of a trigger command's bundle stands in slot 0. -/
def soloFail (c : Nat) : MoveFail := { cause := c, slot := 0, second := false }

theorem firstIllegal_soloMove (s : State) (sup : Bool) (code : Nat) (a : Word) :
    firstIllegal s sup [soloMove code a] = (moveCheck s sup (soloMove code a)).map soloFail := by
  rw [firstIllegal, List.findSome?_singleton]
  rfl

theorem filter_guardOf_soloMove (k : LensCore) (code : Nat) (a : Word) : [soloMove code a].filter (guardOf k) = [soloMove code a] := rfl

theorem readAll_soloMove (s : State) (n : Nat) (rp : Bool) (code : Nat) (a : Word) :
    readAll s n rp [soloMove code a] = [(soloMove code a, .val a)] := rfl

theorem resultConflict_soloMove (n : Nat) (k1 kb : LensCore) (code : Nat) (a : Word) :
    resultConflict n k1 kb [(soloMove code a, a)] [] = if hasDup (bitsWritten n k1 (soloMove code a) a) then some (soloFail 3) else none := by
  simp [resultConflict, soloFail]

theorem moveCheck_absent {s : State} {code : Nat} {sup : Bool} (a : Word) (hu : unitAbsent s code = true) :
    moveCheck s sup (soloMove code a) = some 5 := by
  simp [moveCheck, hu]

theorem isTransfer_soloMove {code : Nat} (a : Word) : isTransfer (soloMove code a) = (decide (0x261 ≤ code) && decide (code ≤ 0x265)) := rfl

theorem firstHold_soloMove (s : State) (n : Nat) (k1 kb : LensCore) (code : Nat) (o : Op) (a : Word) :
    firstHold s n k1 kb [(soloMove code a, o, a)] = trigHold s n k1 o a := by
  unfold firstHold
  cases h : trigHold s n k1 o a <;> simp [h, firstHold]

theorem checkTrigs_soloMove_ok {s : State} {n code : Nat} {a : Word} {o : Op} {k1 kb : LensCore} {p q : Nat}
    (hc : (trigCheck s n k1 o a).2 = .ok p q) :
    checkTrigs s n k1 kb [(soloMove code a, o, a)] = .inr [{ op := o, a, p, q, second := false }] := by
  unfold checkTrigs
  rcases h : trigCheck s n k1 o a with ⟨t, r⟩
  rw [h] at hc
  obtain rfl : r = .ok p q := hc
  simp [h, checkTrigs]

theorem checkTrigs_soloMove_bad {s t : State} {n code : Nat} {a : Word} {o : Op} {k1 kb : LensCore} {c : Nat} {x : Option Word}
    (hc : trigCheck s n k1 o a = (t, .bad c x)) : checkTrigs s n k1 kb [(soloMove code a, o, a)] = .inl (t, c, x, false) := by
  simp [checkTrigs, hc]

section Trigger

variable {s : State} {n code : Nat} {a : Word} {o : Op} (ht : trigOf code = some o)
include ht

theorem firstConflict_soloMove : firstConflict [soloMove code a] [] [] = none := by
  have hne : code ≠ 0x100 := by
    have := trigOf_dst ht
    omega
  simp [firstConflict, ht, hne]

theorem writeMoves_soloMove (k : LensCore) : writeMoves k n [(soloMove code a, a)] = k := by simp [writeMoves, ht]

theorem trigMoves_soloMove : trigMoves [(soloMove code a, a)] = [(soloMove code a, o, a)] := by simp [trigMoves, ht]

/-- A trigger is a legal destination where its unit is present, in user mode but for three of ctl (R51, R100). -/
theorem moveCheck_soloMove {sup : Bool} (hu : unitAbsent s code = false) (hsup : sup = true ∨ userForbids code = false) :
    moveCheck s sup (soloMove code a) = none := by
  have hr := trigOf_dst ht
  have hl : dstLegal code = true := by simp [dstLegal, ht]
  have hsv : ¬ 0x480 ≤ code := by omega
  unfold moveCheck
  rcases hsup with rfl | hf
  · simp [hu, hl]
  · simp [hu, hl, hf, hsv]

/-- The loop checks concern a ctl trigger at the end of an active level, and `ctl.loop` (R131, R133). -/
theorem loopChecks_soloMove {k0 : LensCore} (k1 : LensCore) (hend : o.unit = 6 → endsActive k0 (getCore s n).i.pc.toNat = false)
    (hloop : code ≠ 0x268) : loopChecks k0 k1 [soloBundle s n code a] [(soloMove code a, a)] = none := by
  have hv : isView code = false := by
    have := trigOf_dst ht
    simp [isView]
    omega
  have hctl : (endsActive k0 (getCore s n).i.pc.toNat && isCtlTrig (soloMove code a)) = false := by
    by_cases h6 : o.unit = 6
    · simp [hend h6]
    · simp [isCtlTrig, ht, h6]
  simp [loopChecks, hv, hctl, hloop]

end Trigger

/-! ### The plans of a trigger command that fails -/

section Plans

variable {s : State} {n code : Nat} {a : Word} {o : Op}

theorem planMoves_illegal {c : Nat} (hm : moveCheck s (isSup (getCore s n)) (soloMove code a) = some c) :
    planMoves s n [soloBundle s n code a] none = .fault s (mkFault (getCore s n).i.pc.toNat c 0 false none none) true := by
  unfold planMoves
  simp [filter_guardOf_soloMove, firstIllegal_soloMove, hm, soloFail]

theorem planMoves_clash (ht : trigOf code = some o) (hm : moveCheck s (isSup (getCore s n)) (soloMove code a) = none)
    (hx : isTransfer (soloMove code a) = false) (hd : hasDup (bitsWritten n (getCore s n) (soloMove code a) a) = true) :
    planMoves s n [soloBundle s n code a] none = .fault s (mkFault (getCore s n).i.pc.toNat 3 0 false none none) true := by
  unfold planMoves
  simp [filter_guardOf_soloMove, firstIllegal_soloMove, hm, firstConflict_soloMove ht, readAll_soloMove, valuesOf, firstPoison, writeMoves_soloMove ht, hx,
    resultConflict_soloMove, hd, soloFail]

theorem planMoves_bad (ht : trigOf code = some o) (hm : moveCheck s (isSup (getCore s n)) (soloMove code a) = none)
    (hx : isTransfer (soloMove code a) = false) (hd : hasDup (bitsWritten n (getCore s n) (soloMove code a) a) = false)
    (hend : o.unit = 6 → endsActive (getCore s n) (getCore s n).i.pc.toNat = false) (hloop : code ≠ 0x268)
    (hh : trigHold s n (getCore s n) o a = .none) {t : State} {c : Nat} {x : Option Word} (hc : trigCheck s n (getCore s n) o a = (t, .bad c x)) :
    planMoves s n [soloBundle s n code a] none = .fault t (mkFault (getCore s n).i.pc.toNat c 0 false x none) false := by
  have hw : writeMoves (getCore s n) n [] = getCore s n := rfl
  unfold planMoves
  simp [filter_guardOf_soloMove, firstIllegal_soloMove, hm, firstConflict_soloMove ht, readAll_soloMove, valuesOf, firstPoison, writeMoves_soloMove ht, hx,
    resultConflict_soloMove, hd, trigMoves_soloMove ht, firstHold_soloMove, hh, checkTrigs_soloMove_bad hc, loopChecks_soloMove ht _ hend hloop, hw]

/-- A trigger of another unit, or one of ctl that is neither transfer nor loop nor return, that passes its checks. -/
theorem planMoves_go (ht : trigOf code = some o) (hm : moveCheck s (isSup (getCore s n)) (soloMove code a) = none)
    (hx : isTransfer (soloMove code a) = false) (hd : hasDup (bitsWritten n (getCore s n) (soloMove code a) a) = false)
    (hend : o.unit = 6 → endsActive (getCore s n) (getCore s n).i.pc.toNat = false) (hloop : code ≠ 0x268) (he : o ≠ .ctl .eret)
    (hh : trigHold s n (getCore s n) o a = .none) {p q : Nat} (hc : (trigCheck s n (getCore s n) o a).2 = .ok p q) :
    planMoves s n [soloBundle s n code a] none = .go (soloWork s n code a o p q) := by
  have hw : writeMoves (getCore s n) n [] = getCore s n := rfl
  unfold planMoves
  simp [filter_guardOf_soloMove, firstIllegal_soloMove, hm, firstConflict_soloMove ht, readAll_soloMove, valuesOf, firstPoison, writeMoves_soloMove ht, hx,
    resultConflict_soloMove, hd, trigMoves_soloMove ht, firstHold_soloMove, hh, checkTrigs_soloMove_ok hc, loopChecks_soloMove ht _ hend hloop, hw, he, soloWork]

/-- A delay bundle that passes its check: what was fetched of it, and each of the three later checks (R99). -/
theorem checkDelay_ok {p d : Nat} (h : checkDelay s n p = .ok d) :
    let kd := coreAhead s n [] (getCore s n) []
    ∃ db, delayFront s n kd p = .ok db ∧ db.elim 8 Bund.size = d ∧ db.bind (delayIllegal s kd) = none ∧ db.bind (delayClash s n kd) = none ∧
      db.bind (delayLoops s n (getCore s n) kd) = none := by
  intro kd
  unfold checkDelay at h
  dsimp only at h
  split at h
  · cases h
  · cases h
  next hf =>
    cases h
    exact ⟨none, hf, rfl, rfl, rfl, rfl⟩
  next b hf =>
    split at h
    · cases h
    next hnone =>
      cases h
      simp only [Option.orElse_eq_or, Option.or_eq_none_iff] at hnone
      obtain ⟨h1, h2, h3⟩ := hnone
      exact ⟨some b, hf, rfl, h1, h2, h3⟩

/-- A transfer with a good delay bundle of `d` bytes after it (R99). -/
theorem planMoves_transfer {c : CtlOp} (ht : trigOf code = some (.ctl c)) (hm : moveCheck s (isSup (getCore s n)) (soloMove code a) = none)
    (hx : isTransfer (soloMove code a) = true) (hend : endsActive (getCore s n) (getCore s n).i.pc.toNat = false) (hloop : code ≠ 0x268)
    (he : c ≠ .eret) {d : Nat} (hdelay : checkDelay s n ((getCore s n).i.pc.toNat + 8) = .ok d) :
    planMoves s n [soloBundle s n code a] none = .go { soloWork s n code a (.ctl c) 0 0 with xfer := some d } := by
  have hd := no_bits (n := n) (k := getCore s n) (a := a) ht (fun _ _ => Op.noConfusion) (fun _ => Op.noConfusion)
  have hw : writeMoves (getCore s n) n [] = getCore s n := rfl
  have hh : trigHold s n (getCore s n) (.ctl c) a = .none := by
    cases c <;> first | rfl | exact absurd rfl he
  have hahead : coreAhead s n [] (getCore s n) [(.ctl c, a)] = coreAhead s n [] (getCore s n) [] := rfl
  have hc : (trigCheck s n (getCore s n) (.ctl c) a).2 = .ok 0 0 := rfl
  obtain ⟨db, hfront, rfl, hillegal, hclash, hloops⟩ := checkDelay_ok hdelay
  unfold planMoves
  simp [filter_guardOf_soloMove, firstIllegal_soloMove, hm, firstConflict_soloMove ht, readAll_soloMove, valuesOf, firstPoison, writeMoves_soloMove ht, hx,
    resultConflict_soloMove, hd, trigMoves_soloMove ht, firstHold_soloMove, hh, checkTrigs_soloMove_ok hc, loopChecks_soloMove ht _ (fun _ => hend) hloop,
    hw, he, soloWork, hahead, hfront, hillegal, hclash, hloops]

end Plans

/-! ### A fault that waits -/

/-- Command `c` completes with fault `f` waiting at core `n`, and nothing takes effect (R189). -/
def Trapped (s : State) (n : Nat) (c : Instr) (f : PFault) : Prop :=
  ∃ t, exec c s = .next t ∧ OnlyCore n s t ∧ (getCore t n).i.fault = some f ∧ (getCore t n).u = (getCore s n).u ∧
    (getCore t n).bits = (getCore s n).bits ∧ (getCore t n).g = (getCore s n).g ∧ (getCore t n).r = (getCore s n).r ∧ (getCore t n).i.steps = (getCore s n).i.steps

section Trapped

variable {s : State} {n code : Nat} {a : Word} {c : Instr} (h : takesTrigger s n = true) (hexec : exec c s = .next (soloTrigger s n code a))
include h hexec

theorem trapped_of_plan {f : PFault} {check : Bool} (hp : planMoves s n [soloBundle s n code a] none = .fault s f check) : Trapped s n c f := by
  rw [soloTrigger_eq h, hp] at hexec
  refine ⟨_, hexec, onlyCore_setCore .., ?_⟩
  rw [issuePlan, recordFault, getCore_modCore]
  exact ⟨rfl, rfl, rfl, rfl, rfl, rfl⟩

theorem trapped_of_absent (hu : unitAbsent s code = true) : Trapped s n c (mkFault (getCore s n).i.pc.toNat 5 0 false none none) :=
  trapped_of_plan h hexec (planMoves_illegal (moveCheck_absent a hu))

end Trapped

section TrappedTrigger

variable {s : State} {n code : Nat} {a : Word} {o : Op} {c : Instr} (h : takesTrigger s n = true) (hexec : exec c s = .next (soloTrigger s n code a))
  (ht : trigOf code = some o) (hu : unitAbsent s code = false) (h6 : o.unit ≠ 6)
include h hexec ht hu h6

omit h hexec in
/-- A unit other than ctl: its trigger is legal in either mode, transfers nothing and sets up no loop. -/
theorem legal_of_unit (a : Word) : (∀ sup, moveCheck s sup (soloMove code a) = none) ∧ isTransfer (soloMove code a) = false ∧ code ≠ 0x268 := by
  refine ⟨fun sup => moveCheck_soloMove ht hu (.inr ?_), ?_, ?_⟩
  · unfold userForbids
    rw [ht]
    cases o <;> simp_all [Op.unit]
  · rw [isTransfer_soloMove, Bool.and_eq_false_iff, decide_eq_false_iff_not, decide_eq_false_iff_not, ← not_and_or]
    rintro ⟨hlo, hhi⟩
    interval_cases code <;> (simp [trigOf, codeRole, portRole] at ht; exact h6 (ht ▸ rfl))
  · rintro rfl
    simp [trigOf, codeRole, portRole] at ht
    exact h6 (ht ▸ rfl)

theorem trapped_of_clash (hd : hasDup (bitsWritten n (getCore s n) (soloMove code a) a) = true) :
    Trapped s n c (mkFault (getCore s n).i.pc.toNat 3 0 false none none) := by
  obtain ⟨hm, hx, -⟩ := legal_of_unit ht hu h6 a
  exact trapped_of_plan h hexec (planMoves_clash ht (hm _) hx hd)

theorem trapped_of_bad (hd : hasDup (bitsWritten n (getCore s n) (soloMove code a) a) = false)
    (hh : trigHold s n (getCore s n) o a = .none) {cause : Nat} {x : Option Word} (hc : trigCheck s n (getCore s n) o a = (s, .bad cause x)) :
    Trapped s n c (mkFault (getCore s n).i.pc.toNat cause 0 false x none) := by
  obtain ⟨hm, hx, hloop⟩ := legal_of_unit ht hu h6 a
  exact trapped_of_plan h hexec (planMoves_bad ht (hm _) hx hd (fun he => absurd he h6) hloop hh hc)

end TrappedTrigger

end Sys2Proof.Machine

/-! SUPPORT. The step-locked and interlocked arithmetic units: alu, mul, div (R87 to R91). -/

namespace Sys2Proof.Machine

/-! ### alu (R87, R88) -/

/-- A shift count is the whole value of `b`; from 32 on nothing of `a` is left but its sign (R87). -/
theorem aluResult_shifts (a b : Word) : aluResult .shl a b = a <<< b.toNat ∧ aluResult .shr a b = a >>> b.toNat ∧
    aluResult .sar a b = a.sshiftRight b.toNat := by
  refine ⟨?_, ?_, ?_⟩ <;> unfold aluResult <;> dsimp only <;> split
  case refine_1.isTrue hb => exact (BitVec.shiftLeft_eq_zero hb).symm
  case refine_2.isTrue hb => exact (BitVec.ushiftRight_eq_zero hb).symm
  case refine_3.isTrue hb =>
    ext i hi
    rw [BitVec.getElem_sshiftRight, dif_neg (by omega)]
    cases a.msb
    · exact BitVec.getElem_zero hi
    · exact BitVec.getElem_allOnes i hi
  all_goals rfl

theorem boolOut_bit (v : Bool) : (boolOut v).getLsbD 0 = v := by cases v <;> rfl

section Alu

variable {s : State} {n code i : Nat} {a : Word} {o : AluOp} {c : Instr} (h : takesTrigger s n = true) (hi : i < 2)
  (ht : trigOf code = some (.alu i o)) (hu : unitAbsent s code = false) (hexec : exec c s = .next (soloTrigger s n code a))
include h hi ht hu hexec

theorem alu_done {r : Word} (hr : aluResult o a (sockOf s n (0x200 + 16 * i)) = r) : UnitDone s n c (withSock s n (0x200 + 16 * i + 2) r)
    (if o.isCompare then withBit s n ((sockOf s n (0x200 + 16 * i + 1)).toNat % 256) (r.getLsbD 0) else (getCore s n).bits) := by
  subst hr
  have hd : hasDup (bitsWritten n (getCore s n) (soloMove code a) a) = false := by
    have hr := trigOf_dst ht
    rw [bitsWritten, if_neg (by rw [soloMove_dst]; omega), soloMove_dst, ht]
    dsimp only
    split
    · rw [List.filter_singleton]
      cases _ != 0 <;> rfl
    · rfl
  have hk : doAlu (getCore s n) i o a = { getCore s n with
      u := withSock s n (0x200 + 16 * i + 2) (aluResult o a (sockOf s n (0x200 + 16 * i)))
      bits := if o.isCompare then withBit s n ((sockOf s n (0x200 + 16 * i + 1)).toNat % 256) ((aluResult o a (sockOf s n (0x200 + 16 * i))).getLsbD 0)
        else (getCore s n).bits } := by
    unfold doAlu
    dsimp only
    split
    · rw [setPbit_eq]
      rfl
    · rfl
  have hdone := solo_unit_done h ht (by show i ≠ 6; omega) hu hd rfl (p := 0) (q := 0) rfl c hexec (doAlu (getCore s n) i o a)
    (by simp only [trigDo, modCore_setCore]) (by rw [hk])
  rwa [hk] at hdone

end Alu

/-- The number of an alu copy (R50). -/
def aluIndex : AluUnit → Nat
  | .alu0 => 0
  | .alu1 => 1

/-- The port of an alu operation (R87). -/
def AluOp.port : AluOp → Nat
  | .add => 3
  | .sub => 4
  | .and => 5
  | .or => 6
  | .xor => 7
  | .andn => 8
  | .shl => 9
  | .shr => 10
  | .sar => 11
  | .rotl => 12
  | .eq => 13
  | .lt => 14
  | .ltu => 15

theorem aluBase_eq (u : AluUnit) : aluBase u = 0x200 + 16 * aluIndex u := by cases u <;> rfl

theorem trigOf_alu (u : AluUnit) (o : AluOp) : trigOf (aluBase u + o.port) = some (.alu (aluIndex u) o) := by cases u <;> cases o <;> rfl

theorem unitAbsent_alu (s : State) (u : AluUnit) (o : AluOp) : unitAbsent s (aluBase u + o.port) = false := by cases u <;> cases o <;> rfl

/-- Settles O5: each operation is one trigger whose result is `aluResult`. -/
theorem aluTriggersWriteResult : Obligations.AluTriggersWriteResult := by
  unfold Obligations.AluTriggersWriteResult
  intro s n u a h b done
  have hi : aluIndex u < 2 := by cases u <;> decide
  obtain ⟨hshl, hshr, hsar⟩ := aluResult_shifts a b
  have hdone : ∀ (o : AluOp) (c : Instr), exec c s = .next (soloTrigger s n (aluBase u + o.port) a) → o.isCompare = false →
      done c (aluResult o a b) := by
    intro o c hexec ho
    have hd := alu_done h hi (trigOf_alu u o) (unitAbsent_alu s u o) hexec rfl
    rwa [ho, ← aluBase_eq] at hd
  have htold : ∀ (o : AluOp) (v : Bool) (c : Instr), exec c s = .next (soloTrigger s n (aluBase u + o.port) a) → o.isCompare = true →
      aluResult o a b = boolOut v →
      UnitDone s n c (withSock s n (aluBase u + 2) (if v then 1 else 0)) (withBit s n ((sockOf s n (aluBase u + 1)).toNat % 256) v) := by
    intro o v c hexec ho hv
    have hd := alu_done h hi (trigOf_alu u o) (unitAbsent_alu s u o) hexec ((congrArg (fun x => aluResult o a (sockOf s n x)) (aluBase_eq u)).symm.trans hv)
    rwa [ho, ← aluBase_eq, boolOut_bit] at hd
  exact ⟨hdone .add _ rfl rfl, hdone .sub _ rfl rfl, hdone .and _ rfl rfl, hdone .or _ rfl rfl, hdone .xor _ rfl rfl, hdone .andn _ rfl rfl,
    hshl ▸ hdone .shl _ rfl rfl, hshr ▸ hdone .shr _ rfl rfl, hsar ▸ hdone .sar _ rfl rfl, hdone .rotl _ rfl rfl,
    htold .eq _ _ rfl rfl rfl, htold .lt _ _ rfl rfl rfl, htold .ltu _ _ rfl rfl rfl⟩

/-! ### mul (R89) -/

/-- The two words of a product. -/
theorem words_toNat (r : BitVec 64) : ((r >>> 32).setWidth 32).toNat * 2 ^ 32 + (r.setWidth 32).toNat = r.toNat := by
  simp only [BitVec.toNat_setWidth, BitVec.toNat_ushiftRight, Nat.shiftRight_eq_div_pow]
  omega

theorem words_toInt (r : BitVec 64) : ((r >>> 32).setWidth 32).toInt * 2 ^ 32 + ((r.setWidth 32).toNat : Int) = r.toInt := by
  simp only [BitVec.toInt_eq_toNat_cond, BitVec.toNat_setWidth, BitVec.toNat_ushiftRight, Nat.shiftRight_eq_div_pow]
  omega

theorem word_toInt_bounds (a : Word) : -2 ^ 31 ≤ a.toInt ∧ a.toInt < 2 ^ 31 := ⟨BitVec.le_toInt a, BitVec.toInt_lt⟩

theorem mulResult_mulu (a b : Word) : (mulResult .mulu a b).toNat = a.toNat * b.toNat := by
  have hlt : a.toNat * b.toNat < 2 ^ 64 := (Nat.mul_lt_mul'' a.isLt b.isLt).trans_eq (by norm_num)
  have ha := a.isLt
  have hb := b.isLt
  rw [mulResult, BitVec.toNat_mul, BitVec.toNat_setWidth, BitVec.toNat_setWidth, Nat.mod_eq_of_lt (by omega : a.toNat < 2 ^ 64),
    Nat.mod_eq_of_lt (by omega : b.toNat < 2 ^ 64), Nat.mod_eq_of_lt hlt]

theorem mulResult_muls (a b : Word) : (mulResult .muls a b).toInt = a.toInt * b.toInt := by
  obtain ⟨ha, ha'⟩ := word_toInt_bounds a
  obtain ⟨hb, hb'⟩ := word_toInt_bounds b
  rw [mulResult, BitVec.toInt_mul, BitVec.toInt_signExtend_of_le (by decide), BitVec.toInt_signExtend_of_le (by decide)]
  refine Int.bmod_eq_of_le ?_ ?_ <;> norm_num <;> nlinarith

theorem mulResult_mulsu (a b : Word) : (mulResult .mulsu a b).toInt = a.toInt * b.toNat := by
  obtain ⟨ha, ha'⟩ := word_toInt_bounds a
  have hb := b.isLt
  have hz : (b.setWidth 64).toInt = b.toNat := by
    rw [BitVec.toInt_eq_toNat_cond, BitVec.toNat_setWidth, Nat.mod_eq_of_lt (by omega)]
    omega
  rw [mulResult, BitVec.toInt_mul, BitVec.toInt_signExtend_of_le (by decide), hz]
  refine Int.bmod_eq_of_le ?_ ?_ <;> norm_num <;> nlinarith

section Mul

variable {s : State} {n code : Nat} {a : Word} {o : MulOp} {c : Instr} (h : takesTrigger s n = true)
  (ht : trigOf code = some (.mul o)) (hu : unitAbsent s code = false) (hexec : exec c s = .next (soloTrigger s n code a))
include h ht hu hexec

/-- The product a multiply puts in flight. -/
def mulProduct (k : LensCore) (r : BitVec 64) : Product := { due := k.i.steps + 3, hi := (r >>> 32).setWidth 32, lo := r.setWidth 32 }

theorem mul_done : UnitDone s n c
    { (getCore s n).u with prods := (getCore s n).u.prods ++ [mulProduct (getCore s n) (mulResult o a (sockOf s n 0x220))] } (getCore s n).bits :=
  solo_unit_done h ht (show 2 ≠ 6 by decide) hu (no_bits ht (fun _ _ => Op.noConfusion) fun _ => Op.noConfusion) rfl (p := 0) (q := 0) rfl c hexec
    (startMul (getCore s n) o a) (by simp only [trigDo, modCore_setCore]) rfl

end Mul

/-- Settles O6: the two words of the product in flight make up the 64-bit result, which is exact. -/
theorem mulTriggersStartProduct : Obligations.MulTriggersStartProduct := by
  unfold Obligations.MulTriggersStartProduct
  intro s n a h k b done
  exact ⟨⟨_, ⟨rfl, mul_done h rfl rfl rfl⟩, (words_toNat _).trans (mulResult_mulu a b)⟩,
    ⟨_, ⟨rfl, mul_done h rfl rfl rfl⟩, (words_toInt _).trans (mulResult_muls a b)⟩,
    ⟨_, ⟨rfl, mul_done h rfl rfl rfl⟩, (words_toInt _).trans (mulResult_mulsu a b)⟩⟩

/-! ### div (R90, R91) -/

theorem toInt_ofInt_word {x : Int} (h1 : -2 ^ 31 ≤ x) (h2 : x < 2 ^ 31) : (BitVec.ofInt 32 x).toInt = x := by
  rw [BitVec.toInt_ofInt]
  exact Int.bmod_eq_of_le (by norm_num; omega) (by norm_num; omega)

/-- The quotient of two words that truncates toward zero is a word but for the most negative number by -1. -/
theorem tdiv_word {a z : Word} (hz : z ≠ 0) (hedge : ¬ (a = 0x80000000#32 ∧ z = 0xFFFFFFFF#32)) :
    -2 ^ 31 ≤ a.toInt.tdiv z.toInt ∧ a.toInt.tdiv z.toInt < 2 ^ 31 := by
  obtain ⟨ha, ha'⟩ := word_toInt_bounds a
  have hz' : z.toInt ≠ 0 := fun h => hz (BitVec.eq_of_toInt_eq h)
  have habs : (a.toInt.tdiv z.toInt).natAbs = a.toInt.natAbs / z.toInt.natAbs := Int.natAbs_tdiv ..
  have hle : a.toInt.natAbs / z.toInt.natAbs ≤ a.toInt.natAbs := Nat.div_le_self ..
  refine ⟨by omega, ?_⟩
  by_contra hge
  have htop : a.toInt.tdiv z.toInt = 2 ^ 31 := by omega
  have hmin : a.toInt = -2 ^ 31 := by omega
  have hmul := Int.mul_tdiv_add_tmod a.toInt z.toInt
  have hlt : (a.toInt.tmod z.toInt).natAbs < z.toInt.natAbs := by
    rw [Int.natAbs_tmod]
    exact Nat.mod_lt _ (Int.natAbs_pos.2 hz')
  rw [htop] at hmul
  exact hedge ⟨BitVec.eq_of_toInt_eq hmin, BitVec.eq_of_toInt_eq (show z.toInt = -1 by omega)⟩

theorem tmod_word (a : Word) {z : Word} (hz : z ≠ 0) :
    -2 ^ 31 ≤ a.toInt.tmod z.toInt ∧ a.toInt.tmod z.toInt < 2 ^ 31 ∧ (a.toInt.tmod z.toInt).natAbs < z.toInt.natAbs := by
  obtain ⟨hz1, hz2⟩ := word_toInt_bounds z
  have hz' : z.toInt ≠ 0 := fun h => hz (BitVec.eq_of_toInt_eq h)
  have hlt : (a.toInt.tmod z.toInt).natAbs < z.toInt.natAbs := by
    rw [Int.natAbs_tmod]
    exact Nat.mod_lt _ (Int.natAbs_pos.2 hz')
  exact ⟨by omega, by omega, hlt⟩

/-- The remainder of a division that truncates toward zero is 0 or has the sign of the dividend. -/
theorem tmod_sign (a z : Int) : a.tmod z = 0 ∨ (a.tmod z < 0 ↔ a < 0) := by
  rcases lt_or_ge a 0 with ha | ha
  · have hneg : 0 ≤ (-a).tmod z := Int.tmod_nonneg z (by omega)
    rw [Int.neg_tmod] at hneg
    omega
  · have hpos := Int.tmod_nonneg z ha
    exact .inr (by omega)

theorem divResult_zero (sg : Bool) (a : Word) : divResult sg a 0 = (0xFFFFFFFF#32, a, some 16) := rfl

theorem divResult_unsigned {a z : Word} (hz : z ≠ 0) :
    a.toNat = (divResult false a z).1.toNat * z.toNat + (divResult false a z).2.1.toNat ∧ (divResult false a z).2.1.toNat < z.toNat ∧
      (divResult false a z).2.2 = none := by
  have hpos : 0 < z.toNat := Nat.pos_of_ne_zero fun h => hz (BitVec.eq_of_toNat_eq h)
  simp only [divResult, hz, if_false, Bool.false_eq_true, BitVec.toNat_udiv, BitVec.toNat_umod]
  exact ⟨(Nat.div_add_mod' ..).symm, Nat.mod_lt _ hpos, trivial⟩

theorem divResult_signed {a z : Word} (hz : z ≠ 0) (hedge : ¬ (a = 0x80000000#32 ∧ z = 0xFFFFFFFF#32)) :
    let d := divResult true a z
    a.toInt = d.1.toInt * z.toInt + d.2.1.toInt ∧ d.2.1.toInt.natAbs < z.toInt.natAbs ∧ (d.2.1.toInt = 0 ∨ (d.2.1.toInt < 0 ↔ a.toInt < 0)) ∧
      d.2.2 = none := by
  obtain ⟨hq, hq'⟩ := tdiv_word hz hedge
  obtain ⟨hr, hr', hlt⟩ := tmod_word a hz
  simp only [divResult, hz, hedge, if_false, if_true]
  rw [toInt_ofInt_word hq hq', toInt_ofInt_word hr hr']
  exact ⟨(Int.tdiv_mul_add_tmod ..).symm, hlt, tmod_sign .., trivial⟩

/-- The divide a trigger starts. -/
def divStarted (k : LensCore) (r : Word × Word × Option Nat) : DivOp := { trig := k.i.steps, quo := r.1, rem := r.2.1, flag := r.2.2 }

theorem div_done {s : State} {n code : Nat} {a : Word} {sg : Bool} {c : Instr} (h : takesTrigger s n = true) (hidle : (getCore s n).u.div = none)
    (ht : trigOf code = some (.div sg)) (hu : unitAbsent s code = false) (hexec : exec c s = .next (soloTrigger s n code a)) :
    UnitDone s n c { (getCore s n).u with div := some (divStarted (getCore s n) (divResult sg a (sockOf s n 0x230))) } (getCore s n).bits :=
  solo_unit_done h ht (show 3 ≠ 6 by decide) hu (no_bits ht (fun _ _ => Op.noConfusion) fun _ => Op.noConfusion) (by simp [trigHold, hidle])
    (p := 0) (q := 0) rfl c hexec (startDiv (getCore s n) sg a) (by simp only [trigDo, modCore_setCore]) rfl

/-- Settles O7: the divide started carries `divResult`, whose cases are those of R90. -/
theorem divTriggersStartDivide : Obligations.DivTriggersStartDivide := by
  unfold Obligations.DivTriggersStartDivide
  intro s n a h hidle k z done byZero
  have hzero : ∀ sg, z = 0 → byZero (divStarted k (divResult sg a z)) := by
    intro sg hz
    rw [hz, divResult_zero]
    exact ⟨rfl, rfl, rfl⟩
  refine ⟨⟨_, ⟨rfl, div_done h hidle (sg := false) rfl rfl rfl⟩, ?_⟩, ⟨_, ⟨rfl, div_done h hidle (sg := true) rfl rfl rfl⟩, ?_⟩⟩
  · split
    next hz => exact hzero false hz
    next hz => exact divResult_unsigned hz
  · split
    next hz => exact hzero true hz
    next hz =>
      split
      next hedge =>
        show (divResult true a z).1 = _ ∧ (divResult true a z).2.1 = _ ∧ (divResult true a z).2.2 = _
        rw [hedge.1, hedge.2]
        exact ⟨rfl, rfl, rfl⟩
      next hedge => exact divResult_signed hz hedge

end Sys2Proof.Machine

/-! SUPPORT. The fpu: the start of its operations, and its results for special operands (R108 to R110). -/

namespace Sys2Proof.Machine

/-! ### The start of an operation (R108, R110) -/

section Fpu

variable {s : State} {n code : Nat} {a : Word} {o : FpuOpc} {c : Instr} (h : takesTrigger s n = true)
  (ht : trigOf code = some (.fpu o)) (hexec : exec c s = .next (soloTrigger s n code a))
include h ht hexec

/-- The operation a trigger puts in flight. -/
def fpuStarted (s : State) (n : Nat) (o : FpuOpc) (a : Word) : FpuOp :=
  let r := fpuResult o a (sockOf s n 0x290) (sockOf s n 0x291)
  { trig := (getCore s n).i.steps, lat := fpuLatency o, out := r.1, fl := r.2 }

theorem fpu_done (hfull : s.part.full = true) (hhold : trigHold s n (getCore s n) (.fpu o) a = .none) :
    UnitDone s n c { (getCore s n).u with fpu := (getCore s n).u.fpu ++ [fpuStarted s n o a] } (getCore s n).bits :=
  solo_unit_done h ht (show 9 ≠ 6 by decide) (by simp [unitAbsent, hfull]) (no_bits ht (fun _ _ => Op.noConfusion) fun _ => Op.noConfusion) hhold
    (p := 0) (q := 0) rfl c hexec (startFpu (getCore s n) o a) (by simp only [trigDo, modCore_setCore]) rfl

end Fpu

/-- A fast operation waits for a divide or square root in flight alone (R110). -/
theorem trigHold_fpu_fast {s : State} {n : Nat} {o : FpuOpc} (k1 : LensCore) (a : Word) (ho : fpuLatency o = 4)
    (hslow : ∀ f ∈ (getCore s n).u.fpu, f.lat ≠ 16) : trigHold s n k1 (.fpu o) a = .none := by
  have hany : ((getCore s n).u.fpu.any fun x => x.lat == 16) = false := by simpa using hslow
  simp [trigHold, ho, hany]

theorem trigHold_fpu_idle {s : State} {n : Nat} (o : FpuOpc) (k1 : LensCore) (a : Word) (hidle : (getCore s n).u.fpu = []) :
    trigHold s n k1 (.fpu o) a = .none := by
  simp [trigHold, hidle]

/-- The trigger code of an operation (R108). -/
def fpuCode : FpuOpc → Nat
  | .add => 0x294
  | .sub => 0x295
  | .mul => 0x296
  | .fma => 0x297
  | .div => 0x298
  | .sqrt => 0x299
  | .eq => 0x29A
  | .lt => 0x29B
  | .le => 0x29C
  | .itof => 0x29D
  | .utof => 0x29E
  | .ftoi => 0x29F

theorem trigOf_fpu (o : FpuOpc) : trigOf (fpuCode o) = some (.fpu o) := by cases o <;> rfl

theorem unitAbsent_fpu {s : State} (hfull : s.part.full = false) (o : FpuOpc) : unitAbsent s (fpuCode o) = true := by
  cases o <;> simp [unitAbsent, fpuCode, hfull]

/-- Settles O21: a trigger of a present unit that is not held adds its operation; on a part without the unit it is illegal. -/
theorem fpuTriggersStartOperation : Obligations.FpuTriggersStartOperation := by
  unfold Obligations.FpuTriggersStartOperation
  intro s n a h k b x starts all
  have hexec : ∀ c ∈ (Instr.fpuDiv n a, FpuOpc.div) :: (.fpuSqrt n a, .sqrt) :: all, exec c.1 s = .next (soloTrigger s n (fpuCode c.2) a) := by
    simp only [all, List.forall_mem_cons]
    exact ⟨rfl, rfl, rfl, rfl, rfl, rfl, rfl, rfl, rfl, rfl, rfl, rfl, fun _ h => absurd h List.not_mem_nil⟩
  have hfast : ∀ c ∈ all, fpuLatency c.2 = 4 := by simp [all, fpuLatency]
  refine ⟨fun hfull => ⟨fun hslow c hc => ?_, fun hidle => ⟨?_, ?_⟩⟩, fun hfull c hc => ?_⟩
  · have hdone := fpu_done h (trigOf_fpu c.2) (hexec c (List.mem_cons_of_mem _ (List.mem_cons_of_mem _ hc))) hfull
      (trigHold_fpu_fast _ _ (hfast c hc) hslow)
    rw [fpuStarted, hfast c hc] at hdone
    exact hdone
  · exact fpu_done h (trigOf_fpu .div) rfl hfull (trigHold_fpu_idle _ _ _ hidle)
  · exact fpu_done h (trigOf_fpu .sqrt) rfl hfull (trigHold_fpu_idle _ _ _ hidle)
  · obtain ⟨c, hmem, rfl⟩ : ∃ d ∈ (Instr.fpuDiv n a, FpuOpc.div) :: (.fpuSqrt n a, .sqrt) :: all, d.1 = c := List.mem_map.1 hc
    obtain ⟨t, ht, honly, hfault, hu, -⟩ := trapped_of_absent h (hexec c hmem) (unitAbsent_fpu hfull c.2)
    exact ⟨t, _, ht, honly, hfault, rfl, hu⟩

/-! ### Results for special operands (R109) -/

theorem toNat_signBits {neg : Bool} {m : Nat} (hm : m < 0x80000000) : (signBits neg m).toNat % 0x80000000 = m := by
  rw [signBits, BitVec.toNat_ofNat]
  split <;> omega

/-- A word no larger in magnitude than infinity is no NaN. -/
theorem fIsNaN_signBits {neg : Bool} {m : Nat} (hm : m ≤ 0x7F800000) : fIsNaN (signBits neg m) = false := by
  rw [fIsNaN, toNat_signBits (by omega)]
  exact decide_eq_false (by omega)

theorem fIsNaN_of_inf {a : Word} (h : fIsInf a = true) : fIsNaN a = false := by
  have := of_decide_eq_true h
  exact decide_eq_false (by omega)

theorem fIsNaN_of_zero {a : Word} (h : fIsZero a = true) : fIsNaN a = false := by
  have := of_decide_eq_true h
  exact decide_eq_false (by omega)

/-- A result whose only NaN is the quiet one, with flags in bits [4:0]. -/
def Tame (r : Word × Word) : Prop := (fIsNaN r.1 = true → r.1 = 0x7FC00000#32) ∧ r.2.toNat < 32

theorem fFlags_lt (nv dz ov uf nx : Bool) : (fFlags nv dz ov uf nx).toNat < 32 := by
  cases nv <;> cases dz <;> cases ov <;> cases uf <;> cases nx <;> decide

namespace Tame

theorem of_number {v f : Word} (hv : fIsNaN v = false) (hf : f.toNat < 32) : Tame (v, f) := ⟨fun h => absurd (hv.symm.trans h) Bool.false_ne_true, hf⟩

theorem quiet {f : Word} (hf : f.toNat < 32) : Tame (qNaN, f) := ⟨fun _ => rfl, hf⟩

theorem ite {p : Prop} [Decidable p] {r t : Word × Word} (hr : p → Tame r) (ht : ¬ p → Tame t) : Tame (if p then r else t) := by
  split
  next h => exact hr h
  next h => exact ht h

theorem fRound (neg : Bool) (m : Nat) (e : Int) : Tame (fRound neg m e) := by
  unfold Machine.fRound
  dsimp only
  split
  · exact of_number (fIsNaN_signBits (le_refl _)) (fFlags_lt ..)
  next h => exact of_number (fIsNaN_signBits (by omega)) (fFlags_lt ..)

theorem fRoundInt (v e : Int) (z : Bool) : Tame (fRoundInt v e z) :=
  ite (fun _ => of_number (fIsNaN_signBits (Nat.zero_le _)) (by decide)) fun _ => fRound ..

theorem invalid : Tame fInvalid := quiet (fFlags_lt ..)

theorem nan (sg : Bool) : Tame (fNaNOut sg) := quiet (fFlags_lt ..)

theorem inf {a : Word} (h : fIsInf a = true) : Tame (a, 0) := of_number (fIsNaN_of_inf h) (by decide)

theorem signedInf (neg : Bool) {f : Word} (hf : f.toNat < 32) : Tame (signBits neg 0x7F800000, f) := of_number (fIsNaN_signBits (le_refl _)) hf

theorem signedZero (neg : Bool) : Tame (signBits neg 0, 0) := of_number (fIsNaN_signBits (Nat.zero_le _)) (by decide)

theorem fAdd (a b : Word) : Tame (fAdd a b) :=
  ite (fun _ => nan _) fun _ => ite (fun ha => ite (fun _ => invalid) fun _ => inf ha) fun _ => ite inf fun _ => fRoundInt ..

theorem fMul (a b : Word) : Tame (fMul a b) :=
  ite (fun _ => nan _) fun _ => ite (fun _ => invalid) fun _ => ite (fun _ => signedInf _ (by decide)) fun _ => fRoundInt ..

theorem fFma (a b c : Word) : Tame (fFma a b c) :=
  ite (fun _ => nan _) fun _ => ite (fun _ => quiet (fFlags_lt ..)) fun _ => ite (fun _ => invalid) fun _ =>
    ite (fun _ => ite (fun _ => invalid) fun _ => signedInf _ (by decide)) fun _ => ite inf fun _ => fRoundInt ..

theorem fDiv (a b : Word) : Tame (fDiv a b) :=
  ite (fun _ => nan _) fun _ => ite (fun _ => ite (fun _ => invalid) fun _ => signedInf _ (by decide)) fun _ =>
    ite (fun _ => signedZero _) fun _ => ite (fun _ => ite (fun _ => invalid) fun _ => signedInf _ (fFlags_lt ..)) fun _ =>
      ite (fun _ => signedZero _) fun _ => fRound ..

theorem fSqrt (a : Word) : Tame (fSqrt a) :=
  ite (fun _ => nan _) fun _ => ite (fun h => of_number (fIsNaN_of_zero h) (by decide)) fun _ => ite (fun _ => invalid) fun _ =>
    ite inf fun _ => fRound ..

end Tame

theorem fCompare_flags (o : FpuOpc) (a b : Word) : (fCompare o a b).2.toNat < 32 := by
  unfold fCompare
  split
  · exact fFlags_lt ..
  · exact (by decide : (0#32).toNat < 32)

theorem fCompare_nan (o : FpuOpc) {a b : Word} (h : fIsNaN a = true ∨ fIsNaN b = true) : (fCompare o a b).1 = 0 := by
  unfold fCompare
  rw [if_pos (by simpa using h)]

theorem fToInt_flags (a : Word) : (fToInt a).2.toNat < 32 := by
  unfold fToInt
  dsimp only
  split_ifs <;> exact fFlags_lt ..

/-- The magnitude of a finite number from 2^31 on: its exponent and significand. -/
theorem magnitude_large {a : Word} {x : Nat} (hx : x < 0x7F800000) (hge : 0x4F000000 ≤ x) (ha : a.toNat % 0x80000000 = x) :
    8 ≤ fExp a ∧ 0x800000 ≤ fMant a ∧ (0x4F000000 < x → 9 ≤ fExp a ∨ 0x800000 < fMant a) := by
  have he : a.toNat / 0x800000 % 256 = x / 0x800000 := by omega
  have hm : a.toNat % 0x800000 = x % 0x800000 := by omega
  rw [fExp, fMant, he, hm, if_neg (by omega), if_neg (by omega)]
  omega

/-- `ftoi` of a finite number whose exponent is not negative cuts nothing off. -/
theorem fToInt_whole {a : Word} (hn : fIsNaN a = false) (hi : fIsInf a = false) (he : 0 ≤ fExp a) :
    fToInt a = if fSign a then
        if fMant a * 2 ^ (fExp a).toNat > 0x80000000 then (0x80000000#32, 1)
        else (BitVec.ofInt 32 (-((fMant a * 2 ^ (fExp a).toNat : Nat) : Int)), 0)
      else if 0x80000000 ≤ fMant a * 2 ^ (fExp a).toNat then (0x7FFFFFFF#32, 1)
      else (BitVec.ofNat 32 (fMant a * 2 ^ (fExp a).toNat), 0) := by
  simp only [fToInt, hn, hi, he, Bool.false_eq_true, if_false, if_true, and_false, or_false]
  rfl

theorem fIsInf_or_small {a : Word} (hn : fIsNaN a = false) : fIsInf a = true ∨ fIsInf a = false ∧ a.toNat % 0x80000000 < 0x7F800000 := by
  have hle := of_decide_eq_false hn
  by_cases hi : a.toNat % 0x80000000 = 0x7F800000
  · exact .inl (decide_eq_true hi)
  · exact .inr ⟨decide_eq_false hi, by omega⟩

theorem fToInt_above {a : Word} (hn : fIsNaN a = false) (hs : fSign a = false) (h : 0x4F000000 ≤ a.toNat) : fToInt a = (0x7FFFFFFF#32, 1) := by
  have hlt : a.toNat < 0x80000000 := by
    simpa [fSign, BitVec.msb_eq_decide] using hs
  rcases fIsInf_or_small hn with hi | ⟨hi, hx⟩
  · simp only [fToInt, hn, hi, hs, Bool.false_eq_true, if_false, if_true]
    rfl
  · obtain ⟨he, hm, -⟩ := magnitude_large hx (by omega) rfl
    have hpow : 2 ^ 8 ≤ 2 ^ (fExp a).toNat := Nat.pow_le_pow_right (by decide) (by omega)
    have hlarge : 0x80000000 ≤ fMant a * 2 ^ (fExp a).toNat := Nat.mul_le_mul hm hpow
    rw [fToInt_whole hn hi (by omega), hs, if_neg Bool.false_ne_true, if_pos hlarge]

theorem fToInt_below {a : Word} (hn : fIsNaN a = false) (h : 0xCF000000 < a.toNat) : fToInt a = (0x80000000#32, 1) := by
  have hs : fSign a = true := by
    simp [fSign, BitVec.msb_eq_decide]
    omega
  have hlt := a.isLt
  rcases fIsInf_or_small hn with hi | ⟨hi, hx⟩
  · simp only [fToInt, hn, hi, hs, Bool.false_eq_true, if_false, if_true]
    rfl
  · obtain ⟨he, hm, hbig⟩ := magnitude_large hx (by omega) rfl
    have hlarge : fMant a * 2 ^ (fExp a).toNat > 0x80000000 := by
      rcases hbig (by omega) with he9 | hm'
      · exact (by decide : 0x80000000 < 0x800000 * 2 ^ 9).trans_le (Nat.mul_le_mul hm (Nat.pow_le_pow_right (by decide) (by omega)))
      · exact (by omega : 0x80000000 < fMant a * 2 ^ 8).trans_le (Nat.mul_le_mul_left _ (Nat.pow_le_pow_right (by decide) (by omega)))
    rw [fToInt_whole hn hi (by omega), hs, if_pos rfl, if_pos hlarge]

theorem fpuResult_tame {o : FpuOpc} (hftoi : o ≠ .ftoi) (heq : o ≠ .eq) (hlt : o ≠ .lt) (hle : o ≠ .le) (a b c : Word) : Tame (fpuResult o a b c) := by
  cases o with
  | add => exact .fAdd ..
  | sub => exact .fAdd ..
  | mul => exact .fMul ..
  | fma => exact .fFma ..
  | div => exact .fDiv ..
  | sqrt => exact .fSqrt ..
  | itof => exact .fRoundInt ..
  | utof => exact .fRoundInt ..
  | ftoi => exact absurd rfl hftoi
  | eq => exact absurd rfl heq
  | lt => exact absurd rfl hlt
  | le => exact absurd rfl hle

theorem fpuResult_flags (o : FpuOpc) (a b c : Word) : (fpuResult o a b c).2.toNat < 32 := by
  cases o with
  | eq | lt | le => exact fCompare_flags ..
  | ftoi => exact fToInt_flags a
  | _ => exact (fpuResult_tame (by decide) (by decide) (by decide) (by decide) a b c).2

/-- Settles O22: the numeric operations are tame, compares and `ftoi` answer their special operands by case. -/
theorem fpuResultsFollowTheRules : Obligations.FpuResultsFollowTheRules := by
  unfold Obligations.FpuResultsFollowTheRules
  intro a b c
  refine ⟨fun o h1 h2 h3 h4 => (fpuResult_tame h1 h2 h3 h4 a b c).1, fun o ho hn => ?_, fun hn => ?_, fToInt_above, fToInt_below,
    fun o => fpuResult_flags o a b c, fun hn hi hz hb => ?_⟩
  · simp only [List.mem_cons, List.not_mem_nil, or_false] at ho
    rcases ho with rfl | rfl | rfl <;> exact fCompare_nan _ hn
  · simp only [fpuResult, fToInt, hn, if_true]
    rfl
  · have hinf : fIsInf b = false := by
      have := of_decide_eq_true hb
      exact decide_eq_false (by omega)
    simp only [fpuResult, fDiv, hn, hi, hz, hb, hinf, fIsNaN_of_zero hb, Bool.or_self, Bool.false_eq_true, if_false, if_true]
    rfl

end Sys2Proof.Machine

/-! SUPPORT. The bitu unit on the bits of its core: the bit-address and the logic operations, and the conflict of `tas` (R53, R54, R96, R97). -/

namespace Sys2Proof.Machine

/-- The trigger code of a bitu operation (R96). -/
def bituCode : BitOp → Nat
  | .tst => 0x253
  | .set => 0x254
  | .clr => 0x255
  | .tgl => 0x256
  | .tas => 0x257
  | .and => 0x258
  | .or => 0x259
  | .xor => 0x25A
  | .andn => 0x25B

theorem trigOf_bitu (o : BitOp) : trigOf (bituCode o) = some (.bitu o) := by cases o <;> rfl

theorem unitAbsent_bitu (s : State) (o : BitOp) : unitAbsent s (bituCode o) = false := by cases o <;> rfl

theorem bitPlace_priv {a : Word} (n : Nat) (ha : a.toNat < 0x1000) : bitPlace n a = .priv a.toNat := by simp [bitPlace, ha]

theorem bituCheck_logic {o : BitOp} (s : State) (n : Nat) (a : Word) (ho : o.byAddress = false) : bituCheck s n o a = (s, none) := by
  simp [bituCheck, ho]

theorem bituCheck_priv {a : Word} (s : State) (n : Nat) (o : BitOp) (ha : a.toNat < 0x1000) : bituCheck s n o a = (s, none) := by
  simp [bituCheck, bitPlace_priv n ha]

theorem bitsWritten_bitu (n : Nat) (k : LensCore) (o : BitOp) (a : Word) :
    bitsWritten n k (soloMove (bituCode o) a) a = bituWrites n o a (sk k 0x251).toNat := by
  have hr := trigOf_dst (trigOf_bitu o)
  rw [bitsWritten, if_neg (by rw [soloMove_dst]; omega), soloMove_dst, trigOf_bitu]

theorem hasDup_filter_singleton (f : Nat → Bool) (i : Nat) : hasDup ([i].filter f) = false := by
  rw [List.filter_singleton]
  cases f i <;> rfl

/-- `tas` names two bits; they clash where they are one and not b0 (R47, R97). -/
theorem hasDup_bituWrites_tas {n : Nat} {a : Word} (kd : Nat) (ha : a.toNat < 0x1000) :
    hasDup (bituWrites n .tas a kd) = decide (a.toNat ≠ 0 ∧ a.toNat = kd % 256) := by
  unfold bituWrites
  rw [bitPlace_priv n ha]
  by_cases hi : a.toNat < 256
  · by_cases h0 : a.toNat = 0 <;> by_cases hk : kd % 256 = 0 <;> simp [BitOp.byAddress, BitOp.newBit, BitOp.writesKd, hi, h0, hk, hasDup]
  · have hne : a.toNat ≠ kd % 256 := by omega
    simp [BitOp.byAddress, BitOp.newBit, BitOp.writesKd, hi, hne, hasDup_filter_singleton]

/-- Any other operation names one bit at most. -/
theorem hasDup_bituWrites_ne_tas (n : Nat) (a : Word) {o : BitOp} (kd : Nat) (ho : o ≠ .tas) : hasDup (bituWrites n o a kd) = false := by
  have hnamed : ∀ p : Prop, ∀ _ : Decidable p, ∀ i, hasDup ((if p then [i] else []).filter fun i => i != 0) = false := by
    intro p _ i
    split
    · exact hasDup_filter_singleton ..
    · rfl
  unfold bituWrites
  cases o with
  | tas => exact absurd rfl ho
  | tst | and | or | xor | andn =>
    cases bitPlace n a <;> simp [BitOp.byAddress, BitOp.newBit, BitOp.writesKd, hasDup_filter_singleton]
  | set | clr | tgl =>
    cases bitPlace n a with
    | priv i => simpa [BitOp.byAddress, BitOp.newBit, BitOp.writesKd] using hnamed _ _ i
    | shared i => rfl
    | none => rfl

/-- `out` takes the result, b[kd] where the operation writes it and it is not b0 (R53, R96). -/
theorem bituOut_eq (k : LensCore) (o : BitOp) (kd : Nat) (v : Bool) : bituOut k o kd v =
    { k with u := { k.u with sk := Tab.put 0x252 (boolWord v) k.u.sk }
             bits := if o.writesKd then (if kd = 0 then k.bits else Tab.put kd v k.bits) else k.bits } := by
  unfold bituOut
  by_cases hw : o.writesKd = true <;> by_cases hk : kd = 0 <;> simp [hw, hk, setPbit_eq, setSk]

section Bitu

variable {s : State} {n : Nat} {a : Word} {o : BitOp} {c : Instr} (h : takesTrigger s n = true)
  (hexec : exec c s = .next (soloTrigger s n (bituCode o) a))
include h hexec

theorem bitu_logic_done (ho : o.byAddress = false) {v : Bool}
    (hv : bitLogic o (pbit (getCore s n) (a.toNat % 256)) (pbit (getCore s n) ((sockOf s n 0x250).toNat % 256)) = v) :
    UnitDone s n c (withSock s n 0x252 (if v then 1 else 0)) (withBit s n ((sockOf s n 0x251).toNat % 256) v) := by
  have hw : o.writesKd = true := by cases o <;> first | rfl | exact Bool.noConfusion ho
  have hdone := solo_unit_done h (trigOf_bitu o) (show 5 ≠ 6 by decide) (unitAbsent_bitu s o)
    (by rw [bitsWritten_bitu, hasDup_bituWrites_ne_tas _ _ _ (by rintro rfl; cases ho)]) rfl (p := 0) (q := 0) (by simp [trigCheck, bituCheck_logic, ho]) c hexec
    (bituOut (getCore s n) o ((sockOf s n 0x251).toNat % 256) v)
    (by simp [trigDo, bituDo, ho, sockOf, ← hv]) (by rw [bituOut_eq])
  have hbits : (bituOut (getCore s n) o ((sockOf s n 0x251).toNat % 256) v).bits = withBit s n ((sockOf s n 0x251).toNat % 256) v := by
    rw [bituOut_eq]
    simp only [withBit, hw, if_true]
  rwa [hbits, bituOut_eq] at hdone

/-- A bit-address operation on bit `a` of its core that does not clash. -/
theorem bitu_priv_done (ho : o.byAddress = true) (ha : a.toNat < 0x1000)
    (hclash : o = .tas → a.toNat = 0 ∨ a.toNat ≠ (sockOf s n 0x251).toNat % 256) :
    let kd := (sockOf s n 0x251).toNat % 256
    let old := pbit (getCore s n) a.toNat
    let named := (o.newBit old).elim (getCore s n).bits fun b => withBit s n a.toNat b
    UnitDone s n c (withSock s n 0x252 (if old then 1 else 0)) (if o.writesKd then (if kd = 0 then named else Tab.put kd old named) else named) := by
  intro kd old named
  have hk1 : (match o.newBit old with | some b => setPbit (getCore s n) a.toNat b | none => getCore s n) = { getCore s n with bits := named } := by
    simp only [named]
    cases o.newBit old with
    | none => rfl
    | some b => exact setPbit_eq ..
  have hdone := solo_unit_done h (trigOf_bitu o) (show 5 ≠ 6 by decide) (unitAbsent_bitu s o)
    (by
      rw [bitsWritten_bitu]
      by_cases ht : o = .tas
      · subst ht
        rw [hasDup_bituWrites_tas _ ha, decide_eq_false_iff_not]
        rintro ⟨h0, hkd⟩
        exact (hclash rfl).elim h0 fun hne => hne hkd
      · exact hasDup_bituWrites_ne_tas _ _ _ ht)
    rfl (p := 0) (q := 0) (by simp [trigCheck, bituCheck_priv, ha]) c hexec
    (bituOut { getCore s n with bits := named } o kd old)
    (by simp only [trigDo, bituDo, ho, bitPlace_priv n ha, getCore_setCore, setCore_setCore, ← hk1]; rfl) (by rw [bituOut_eq])
  rwa [bituOut_eq] at hdone

end Bitu

theorem bitLogic_xor {x y : Bool} : bitLogic .xor x y = (x ^^ y) := by cases x <;> cases y <;> rfl

/-- Settles O8: each operation is one trigger; the only two bits one writes are those of `tas`, which trap where they are one. -/
theorem bituPrivateAndLogic : Obligations.BituPrivateAndLogic := by
  unfold Obligations.BituPrivateAndLogic
  intro s n a h k kd x y out
  refine ⟨bitu_logic_done (o := .and) h rfl rfl rfl, bitu_logic_done (o := .or) h rfl rfl rfl, bitu_logic_done (o := .xor) h rfl rfl bitLogic_xor,
    bitu_logic_done (o := .andn) h rfl rfl rfl, ?_⟩
  intro ha i old
  refine ⟨bitu_priv_done (o := .tst) h rfl rfl ha nofun, bitu_priv_done (o := .set) h rfl rfl ha nofun, bitu_priv_done (o := .clr) h rfl rfl ha nofun,
    bitu_priv_done (o := .tgl) h rfl rfl ha nofun, fun hne => bitu_priv_done (o := .tas) h rfl rfl ha fun _ => hne, ?_⟩
  · rintro ⟨h0, hkd⟩
    obtain ⟨t, he, honly, hf, hu, hbits, -⟩ := trapped_of_clash (c := .bituTas n a) (code := bituCode .tas) h rfl (trigOf_bitu .tas)
      (unitAbsent_bitu s .tas) (show 5 ≠ 6 by decide) (by
      rw [bitsWritten_bitu, hasDup_bituWrites_tas _ ha]
      exact decide_eq_true ⟨h0, hkd⟩)
    exact ⟨t, he, honly, hbits, hu, by rw [hf]; rfl⟩

end Sys2Proof.Machine

/-! SUPPORT. The checks of loads, stores and exchanges: how one that fails traps (R93, R95, R150, R151). -/

namespace Sys2Proof.Machine

/-- The trigger code of a load of `z` bytes (R92). -/
def loadCode (z : Nat) (sext : Bool) : Nat :=
  match z, sext with
  | 1, false => 0x242
  | 1, true => 0x243
  | 2, false => 0x244
  | 2, true => 0x245
  | _, _ => 0x246

/-- The trigger code of a store of `z` bytes (R92). -/
def storeCode (z : Nat) : Nat :=
  match z with
  | 1 => 0x247
  | 2 => 0x248
  | _ => 0x249

/-- The operations of the lsu: loads, stores, the exchange. -/
def isLsuOp : Op → Bool
  | .ld _ _ | .st _ | .xchg => true
  | _ => false

/-- A trigger of the lsu is none of ctl's and writes no bit. -/
theorem lsuOp_facts {code : Nat} {o : Op} (hl : isLsuOp o = true) (ht : trigOf code = some o) (n : Nat) (k : LensCore) (a : Word) :
    o.unit ≠ 6 ∧ hasDup (bitsWritten n k (soloMove code a) a) = false := by
  constructor
  · cases o with
    | ld | st | xchg => exact (show 4 ≠ 6 by decide)
    | _ => cases hl
  · exact no_bits ht (fun _ _ he => by rw [he] at hl; cases hl) (fun _ he => by rw [he] at hl; cases hl)

theorem badAt_eq (c x : Nat) : badAt c x = .bad c (some (BitVec.ofNat 32 x)) := rfl

theorem storeCount_le (p z : Nat) : storeCount p z ≤ 2 := by
  unfold storeCount
  split <;> omega

/-- A load or exchange is held for a fifth load, and in bare mode for an undelivered one (R64, R95). -/
theorem no_load_hold {s : State} {n : Nat} (k1 : LensCore) (a : Word) (h5 : fifthLoad (getCore s n) = false)
    (hb : isBare (getCore s n) = false ∨ undelivered (getCore s n) = []) (z : Nat) (x : Bool) :
    trigHold s n k1 (.ld z x) a = .none ∧ trigHold s n k1 .xchg a = .none := by
  rcases hb with hb | hb <;> simp [trigHold, h5, hb]

theorem no_store_hold {s : State} {n z : Nat} {k1 : LensCore} {a : Word}
    (hroom : (getCore s n).u.stores.length + storeCount ((dataAp s n k1).start + a.toNat) z ≤ 8) : trigHold s n k1 (.st z) a = .none := by
  simp [trigHold, hroom]

/-- The order of the first checks of R150. -/
theorem checkAccess_order (s : State) (n : Nat) (sup : Bool) (ap : Aperture) (d : Dir) (a z : Nat) : checkAccess s n sup ap d a z =
    if ap.kind = 3 then .bad 0x11 ((ap.start + a) % 2 ^ 32)
    else if ap.limit.toNat < a + z - 1 then .bad 0x10 ((ap.start + a) % 2 ^ 32)
    else if 2 ^ 32 ≤ ap.start + a + z - 1 then .bad 0x16 ((ap.start + a) % 2 ^ 32)
    else if ap.allows sup d = false then .bad 0x11 ((ap.start + a) % 2 ^ 32)
    else checkAccess s n sup ap d a z := by
  by_cases hkind : ap.kind = 3
  · simp [checkAccess, hkind]
  by_cases hlimit : ap.limit.toNat < a + z - 1
  · simp [checkAccess, hkind, hlimit]
  by_cases hmap : 2 ^ 32 ≤ ap.start + a + z - 1
  · simp_all [checkAccess]
  by_cases hright : ap.allows sup d = false
  · simp_all [checkAccess]
  rw [if_neg hkind, if_neg hlimit, if_neg hmap, if_neg hright]

section

variable {s : State} {n code : Nat} {a : Word} {o : Op} {c : Instr} {d : Dir} {z : Nat} (h : takesTrigger s n = true)
  (hexec : exec c s = .next (soloTrigger s n code a)) (ht : trigOf code = some o) (hu : unitAbsent s code = false) (hl : isLsuOp o = true)
  (hh : trigHold s n (getCore s n) o a = .none)
  (hcheck : trigCheck s n (getCore s n) o a = (s, lsuRes (checkAccess s n (isSup (getCore s n)) (dataAp s n (getCore s n)) d a.toNat z)))
include h hexec ht hu hl hh hcheck

/-- An access that fails its check waits as a fault of that cause (R93, R189). -/
theorem access_traps {cause x : Nat}
    (hbad : checkAccess s n (isSup (getCore s n)) (dataAp s n (getCore s n)) d a.toNat z = .bad cause x) :
    ∃ t f, exec c s = .next t ∧ OnlyCore n s t ∧ (getCore t n).i.fault = some f ∧ f.cause = cause ∧ f.bad = some (BitVec.ofNat 32 x) ∧
      f.epc = (getCore s n).i.pc ∧ (getCore t n).u = (getCore s n).u ∧ (getCore t n).bits = (getCore s n).bits ∧
      (getCore t n).g = (getCore s n).g ∧ (getCore t n).r = (getCore s n).r ∧ (getCore t n).i.steps = (getCore s n).i.steps := by
  obtain ⟨h6, hd⟩ := lsuOp_facts hl ht n (getCore s n) a
  rw [hbad, lsuRes, badAt_eq] at hcheck
  obtain ⟨t, he, honly, hf, hunits, hbits, hg, hr, hsteps⟩ := trapped_of_bad h hexec ht hu h6 hd hh hcheck
  exact ⟨t, _, he, honly, hf, rfl, rfl, BitVec.ofNat_toNat .., hunits, hbits, hg, hr, hsteps⟩

end

/-- Settles O13: the check of a trigger that is not held decides its trap, and its first tests are those of `checkAccess_order`. -/
theorem accessChecksTrap : Obligations.AccessChecksTrap := by
  unfold Obligations.AccessChecksTrap
  intro s n a h h5 hb hroom k ap traps
  have hload := no_load_hold k a h5 hb
  have hstore : ∀ z, trigHold s n k (.st z) a = .none := fun z => no_store_hold (by have := storeCount_le ((dataAp s n k).start + a.toNat) z; omega)
  exact ⟨fun _ _ => access_traps (code := loadCode 1 false) h rfl rfl rfl rfl (hload 1 false).1 rfl,
    fun _ _ => access_traps (code := loadCode 1 true) h rfl rfl rfl rfl (hload 1 true).1 rfl,
    fun _ _ => access_traps (code := loadCode 2 false) h rfl rfl rfl rfl (hload 2 false).1 rfl,
    fun _ _ => access_traps (code := loadCode 2 true) h rfl rfl rfl rfl (hload 2 true).1 rfl,
    fun _ _ => access_traps (code := loadCode 4 false) h rfl rfl rfl rfl (hload 4 false).1 rfl,
    fun _ _ => access_traps (code := storeCode 1) h rfl rfl rfl rfl (hstore 1) rfl,
    fun _ _ => access_traps (code := storeCode 2) h rfl rfl rfl rfl (hstore 2) rfl,
    fun _ _ => access_traps (code := storeCode 4) h rfl rfl rfl rfl (hstore 4) rfl,
    fun _ _ => access_traps (code := 0x24A) h rfl rfl rfl rfl (hload 4 false).2 rfl,
    fun d z => checkAccess_order ..⟩

end Sys2Proof.Machine

/-! SUPPORT. The bytes of 64-bit words: in numbers, in masks, in memory (R3, R4, R154, R158). -/

namespace Sys2Proof.Machine

/-! ### Words as eight bytes -/

theorem getLsbD_byteOf (v : BitVec 64) (j i : Nat) : (byteOf v j).getLsbD i = (decide (i < 8) && v.getLsbD (8 * j + i)) := by
  simp [byteOf]

/-- Two words with the same bytes are the same. -/
theorem eq_of_byteOf_eq {v v' : BitVec 64} (h : ∀ j, j < 8 → byteOf v j = byteOf v' j) : v = v' := by
  refine BitVec.eq_of_getLsbD_eq fun i hi => ?_
  have hbyte := congrArg (fun b => b.getLsbD (i % 8)) (h (i / 8) (by omega))
  rwa [getLsbD_byteOf, getLsbD_byteOf, decide_eq_true (Nat.mod_lt i (by decide)), Nat.div_add_mod] at hbyte

theorem byteOf_ofNat (x : Nat) {j : Nat} (hj : j < 8) : byteOf (BitVec.ofNat 64 x) j = BitVec.ofNat 8 (x / 256 ^ j) := by
  refine BitVec.eq_of_getLsbD_eq fun i hi => ?_
  rw [getLsbD_byteOf, BitVec.getLsbD_ofNat, BitVec.getLsbD_ofNat, show (256 : Nat) ^ j = 2 ^ (8 * j) by rw [Nat.pow_mul], Nat.testBit_div_two_pow,
    decide_eq_true hi, decide_eq_true (show 8 * j + i < 64 by omega)]
  simp only [Bool.true_and, Nat.add_comm i]

theorem getLsbD_byteMask (j i : Nat) : (0xFF#64 <<< (8 * j)).getLsbD i = decide (i < 64 ∧ i / 8 = j) := by
  have hff : ∀ x, (0xFF#64).getLsbD x = decide (x < 8) := fun x => by
    rw [show (0xFF#64) = BitVec.ofNat 64 (2 ^ 8 - 1) from rfl, BitVec.getLsbD_ofNat, Nat.testBit_two_pow_sub_one, ← Bool.decide_and]
    exact decide_eq_decide.2 (by omega)
  rw [BitVec.getLsbD_shiftLeft, hff]
  by_cases hi : i < 64
  · by_cases hlow : i < 8 * j
    · simp [hi, hlow]
      omega
    · simp [hi, hlow]
      omega
  · simp [hi]

theorem getLsbD_maskFold (m : Byte) (l : List Nat) (acc : BitVec 64) (i : Nat) :
    (l.foldl (fun acc j => if m.getLsbD j then acc ||| (0xFF#64 <<< (8 * j)) else acc) acc).getLsbD i =
      (acc.getLsbD i || l.any fun j => m.getLsbD j && decide (i < 64 ∧ i / 8 = j)) := by
  induction l generalizing acc with
  | nil => simp
  | cons j l ih =>
    rw [List.foldl_cons, ih, List.any_cons]
    split
    next hj => rw [BitVec.getLsbD_or, getLsbD_byteMask, hj, Bool.true_and, Bool.or_assoc]
    next hj => simp [hj]

theorem getLsbD_maskBits (m : Byte) {i : Nat} (hi : i < 64) : (maskBits m).getLsbD i = m.getLsbD (i / 8) := by
  rw [maskBits, getLsbD_maskFold, show (0 : BitVec 64).getLsbD i = false from BitVec.getLsbD_zero, Bool.false_or, Bool.eq_iff_iff, List.any_eq_true]
  constructor
  · rintro ⟨j, -, hj⟩
    simp only [Bool.and_eq_true, decide_eq_true_eq] at hj
    obtain ⟨hm, -, rfl⟩ := hj
    exact hm
  · intro hm
    exact ⟨i / 8, List.mem_range.2 (by omega), by simp [hm, hi]⟩

theorem byteOf_mergeBytes (old new : BitVec 64) (m : Byte) {j : Nat} (hj : j < 8) :
    byteOf (mergeBytes old new m) j = if m.getLsbD j then byteOf new j else byteOf old j := by
  refine BitVec.eq_of_getLsbD_eq fun i hi => ?_
  have hmask : (maskBits m).getLsbD (8 * j + i) = m.getLsbD j := by
    rw [getLsbD_maskBits m (by omega), show (8 * j + i) / 8 = j by omega]
  have hlt : 8 * j + i < 64 := by omega
  rw [getLsbD_byteOf, mergeBytes, BitVec.getLsbD_or, BitVec.getLsbD_and, BitVec.getLsbD_and, BitVec.getLsbD_not, hmask, decide_eq_true hlt]
  cases hm : m.getLsbD j <;> simp only [Bool.not_false, Bool.not_true, Bool.and_true, Bool.and_false, Bool.or_false, Bool.false_or, if_true,
    Bool.false_eq_true, if_false, getLsbD_byteOf]

/-! ### Numbers as octets -/

theorem ofLe_lt (v : Octets) : ofLe v < 256 ^ v.length := by
  induction v with
  | nil => decide
  | cons b v ih =>
    have hb := b.isLt
    rw [ofLe, List.length_cons, Nat.pow_succ]
    omega

theorem leOctets_ofLe (v : Octets) : leOctets v.length (ofLe v) = v := by
  induction v with
  | nil => rfl
  | cons b v ih =>
    have hb := b.isLt
    have hhead : BitVec.ofNat 8 (b.toNat + 256 * ofLe v) = b := BitVec.eq_of_toNat_eq (by rw [BitVec.toNat_ofNat]; omega)
    rw [List.length_cons, leOctets, ofLe, hhead, show (b.toNat + 256 * ofLe v) / 256 = ofLe v by omega, ih]

theorem leOctets_eq_map (n x : Nat) : leOctets n x = (List.range n).map fun i => BitVec.ofNat 8 (x / 256 ^ i) := by
  induction n generalizing x with
  | zero => rfl
  | succ n ih =>
    rw [leOctets, ih, List.range_succ_eq_map, List.map_cons, List.map_map]
    congr 1
    · simp
    · refine List.map_congr_left fun i _ => ?_
      rw [Function.comp, Nat.div_div_eq_div_mul, ← Nat.pow_succ']

theorem leOctets_word (v : BitVec 64) : leOctets 8 v.toNat = (List.range 8).map (byteOf v) := by
  rw [leOctets_eq_map]
  refine List.map_congr_left fun i hi => ?_
  rw [← byteOf_ofNat _ (List.mem_range.1 hi), BitVec.ofNat_toNat, BitVec.setWidth_eq]

/-! ### Memory -/

theorem Mem.readAll_eq_map (a n : Nat) (m : List Host.Cell) : Mem.readAll a n m = (List.range' a n).map fun x => Mem.read x m := by
  induction n generalizing a with
  | zero => rfl
  | succ n ih => rw [Mem.readAll, ih, List.range'_succ, List.map_cons]

/-- The octets of a word are the bytes of memory it stands for. -/
theorem leOctets_rawWord (s : State) (w : Nat) : leOctets 8 (rawWord s w).toNat = Mem.readAll (8 * w) 8 s.mem := by
  have hlt := ofLe_lt (Mem.readAll (8 * w) 8 s.mem)
  have hoct := leOctets_ofLe (Mem.readAll (8 * w) 8 s.mem)
  rw [Mem.readAll_length] at hlt hoct
  rw [rawWord, BitVec.toNat_ofNat, Nat.mod_eq_of_lt (by norm_num at hlt ⊢; exact hlt), hoct]

theorem byteOf_rawWord (s : State) (w : Nat) {j : Nat} (hj : j < 8) : byteOf (rawWord s w) j = Mem.read (8 * w + j) s.mem := by
  have hoct := leOctets_rawWord s w
  rw [leOctets_word, Mem.readAll_eq_map] at hoct
  have hj' := congrArg (fun l => l[j]?) hoct
  simpa [hj] using hj'

theorem Mem.readAll_append (a i j : Nat) (m : List Host.Cell) : Mem.readAll a (i + j) m = Mem.readAll a i m ++ Mem.readAll (a + i) j m := by
  rw [Mem.readAll_eq_map, Mem.readAll_eq_map, Mem.readAll_eq_map, ← List.map_append, List.range'_append_1]

/-- `z` bytes of a word from byte `o` are those of memory. -/
theorem bytesOf_rawWord (s : State) (w : Nat) {o z : Nat} (h : o + z ≤ 8) : bytesOf (rawWord s w) o z = Mem.readAll (8 * w + o) z s.mem := by
  rw [bytesOf, leOctets_rawWord, show 8 = o + (z + (8 - o - z)) by omega, Mem.readAll_append, Mem.readAll_append,
    List.drop_left' (Mem.readAll_length ..), List.take_left' (Mem.readAll_length ..)]

section Write

variable {s : State} (hwf : Mem.wf s.mem = true)
include hwf

theorem wf_setRawWord (w : Nat) (v : BitVec 64) : Mem.wf (setRawWord s w v).mem = true := Mem.wf_writeAll _ _ _ hwf

/-- A byte after a write of word `w`. -/
theorem read_setRawWord (w : Nat) (v : BitVec 64) (x : Nat) :
    Mem.read x (setRawWord s w v).mem = if x / 8 = w then byteOf v (x % 8) else Mem.read x s.mem := by
  by_cases hx : x / 8 = w
  · have hall := Mem.readAll_writeAll (8 * w) (leOctets 8 v.toNat) s.mem hwf
    rw [leOctets_length, Mem.readAll_eq_map, leOctets_word] at hall
    have hj := congrArg (fun l => l[x % 8]?) hall
    simp only [List.getElem?_map, List.getElem?_range (Nat.mod_lt x (by decide : 0 < 8))] at hj
    rw [if_pos hx, setRawWord, leOctets_word]
    simpa [Nat.mod_lt, ← hx, Nat.div_add_mod] using hj
  · rw [if_neg hx]
    exact Mem.read_writeAll_out _ _ _ _ hwf (by rw [leOctets_length]; omega)

theorem rawWord_setRawWord_same (w : Nat) (v : BitVec 64) : rawWord (setRawWord s w v) w = v :=
  eq_of_byteOf_eq fun j hj => by
    rw [byteOf_rawWord _ _ hj, read_setRawWord hwf, if_pos (by omega), show (8 * w + j) % 8 = j by omega]

theorem rawWord_setRawWord_ne {w x : Nat} (hx : x ≠ w) (v : BitVec 64) : rawWord (setRawWord s w v) x = rawWord s x :=
  eq_of_byteOf_eq fun j hj => by
    rw [byteOf_rawWord _ _ hj, byteOf_rawWord _ _ hj, read_setRawWord hwf, if_neg (by omega)]

end Write

/-! ### Byte masks -/

theorem getLsbD_maskOf (o z : Nat) {j : Nat} (hj : j < 8) : (maskOf o z).getLsbD j = decide (o ≤ j ∧ j < o + z) := by
  rw [maskOf, BitVec.getLsbD_ofNat, Nat.testBit_mul_two_pow, Nat.testBit_two_pow_sub_one]
  by_cases ho : o ≤ j
  · simp [hj, ho]
    omega
  · simp [ho]

/-! ### Words outside the banks -/

section NoBank

variable {w : Nat} (h : bankAt (8 * w) = none) (s : State)
include h

/-- No loan and no merge entry is outside the banks. -/
theorem endLoanAt_of_no_bank : endLoanAt s w = s := by simp [endLoanAt, h]

theorem forceMerge_of_no_bank : forceMerge s w = s := by simp [forceMerge, h]

theorem mergeOf_of_no_bank : mergeOf s w = none := by simp [mergeOf, h]

theorem visWord_of_no_bank : visWord s w = rawWord s w := by simp [visWord, mergeOf_of_no_bank h]

end NoBank

theorem bankAt_high {w : Nat} (h : 0x100000000 ≤ 8 * w) : bankAt (8 * w) = none := by
  rw [bankAt, if_neg (by omega)]

theorem anyWord_high {w : Nat} (h : 0x100000000 ≤ 8 * w) (s : State) : anyWord s w = rawWord s w := by
  rw [anyWord]
  dsimp only
  rw [if_neg (by omega), if_neg (by omega), visWord_of_no_bank (bankAt_high h)]

/-- Word `w` is one of a scratch memory (log entry 3). -/
def InScratch (w : Nat) : Prop := 0x100000000 ≤ 8 * w ∧ 8 * w < 0x200000000

theorem placeOf_scratch {w : Nat} (h : InScratch w) : placeOf w = .scratch ((8 * w - 0x100000000) / 0x10000) := by
  obtain ⟨hlo, hhi⟩ := h
  simp only [placeOf]
  rw [if_neg (by omega), if_neg (by omega), if_pos ⟨hlo, hhi⟩]

/-- No other core has an access pending at a scratch memory. -/
theorem meetWord_scratch {w : Nat} (h : InScratch w) (s : State) (n : Nat) (wr : Bool) : meetWord s n w wr = s := by
  rw [meetWord, placeOf_scratch h]

/-! ### Clean words -/

theorem checkWord_clean {s : State} {w : Nat} (h : eccOf s w = 0) : checkWord s w = (s, false) := by
  simp only [checkWord, h]

/-- A write of some bytes of a clean word. -/
theorem memWrite_clean {s : State} {w : Nat} (h : eccOf s w = 0) {mask : Byte} (hm : mask ≠ 0xFF#8) (data : BitVec 64) :
    memWrite s w data mask = setRawWord s w (mergeBytes (rawWord s w) data mask) := by
  rw [memWrite, if_neg hm, rmwWord, checkWord_clean h]

theorem portRead_clean {s : State} {w : Nat} (hb : bankAt (8 * w) = none) (h : eccOf s w = 0) : portRead s w = (s, rawWord s w, false) := by
  simp only [portRead, endLoanAt_of_no_bank hb, checkWord_clean h, visWord_of_no_bank hb]

/-- A port that reads clean words outside the banks reads memory. -/
theorem portReadBytes_clean {s : State} (f : Nat) {a n : Nat} (hf : n ≤ 8 * f) (ha : a % 8 = 0) (hn : n % 8 = 0)
    (hb : ∀ x, a ≤ x → x < a + n → bankAt (8 * (x / 8)) = none) (he : ∀ x, a ≤ x → x < a + n → eccOf s (x / 8) = 0) :
    portReadBytes f s a n = (s, Mem.readAll a n s.mem, false) := by
  induction f generalizing a n with
  | zero =>
    obtain rfl : n = 0 := by omega
    rfl
  | succ f ih =>
    by_cases hz : n = 0
    · rw [portReadBytes, if_pos hz, hz]
      rfl
    · have hrest := ih (a := a + 8) (n := n - 8) (by omega) (by omega) (by omega) (fun x h1 h2 => hb x (by omega) (by omega))
        fun x h1 h2 => he x (by omega) (by omega)
      have hbytes := bytesOf_rawWord s (a / 8) (o := 0) (z := 8) (by omega)
      rw [bytesOf, Nat.add_zero, show 8 * (a / 8) = a by omega] at hbytes
      have hsplit := Mem.readAll_append a 8 (n - 8) s.mem
      rw [show 8 + (n - 8) = n by omega] at hsplit
      simp only [portReadBytes, if_neg hz, ha, Nat.sub_zero, Nat.min_eq_left (show 8 ≤ n by omega),
        portRead_clean (hb a (by omega) (by omega)) (he a (by omega) (by omega)), hbytes, hrest, hsplit, Bool.or_false]

end Sys2Proof.Machine

/-! SUPPORT. Loads, stores and exchanges of own scratch from their trigger (R92 to R95, R152 to R154). -/

namespace Sys2Proof.Machine

/-! ### A trigger that changes memory -/

/-- Command `c` completes as one step of core `n` after which its units stand as `u`, its bits as `bits` and memory as `m`. -/
def CoreMemDone (s : State) (n : Nat) (c : Instr) (u : Units) (bits : Tab Bool) (m : List Host.Cell) : Prop :=
  ∃ t, exec c s = .next t ∧ t = { s with cores := t.cores, mem := t.mem } ∧ (∀ i, i ≠ n → getCore t i = getCore s i) ∧
    CoreStep (getCore s n) (getCore t n) ∧ (getCore t n).u = u ∧ (getCore t n).bits = bits ∧ t.mem = m

section Trig

variable {s : State} {n code : Nat} {a : Word} {o : Op} {p q : Nat} {c : Instr} (h : takesTrigger s n = true)
  (hexec : exec c s = .next (soloTrigger s n code a)) (ht : trigOf code = some o) (h6 : o.unit ≠ 6) (hu : unitAbsent s code = false)
  (hd : hasDup (bitsWritten n (getCore s n) (soloMove code a) a) = false) (hh : trigHold s n (getCore s n) o a = .none)
  (hc : (trigCheck s n (getCore s n) o a).2 = .ok p q)
include h hexec ht h6 hu hd hh hc

/-- A trigger that changes units and bits of its core, no other core, and what else `t0` shows. -/
theorem step_of_trig {t0 : State} {u : Units} {bits : Tab Bool}
    (htrig : trigDo s (setCore s n (getCore s n)) n (getCore s n) { op := o, a, p, q, second := false } = t0)
    (hcore : getCore t0 n = { getCore s n with u, bits }) (hothers : ∀ i, i ≠ n → getCore t0 i = getCore s i) :
    ∃ t, exec c s = .next t ∧ t = { t0 with cores := t.cores } ∧ (∀ i, i ≠ n → getCore t i = getCore s i) ∧
      CoreStep (getCore s n) (getCore t n) ∧ (getCore t n).u = u ∧ (getCore t n).bits = bits := by
  rw [soloTrigger_done h ht h6 hu hd hh hc, htrig] at hexec
  refine ⟨_, hexec, rfl, fun i hi => ?_, ?_⟩
  · rw [getCore_modCore_ne _ hi, hothers i hi]
  · rw [getCore_modCore, hcore]
    obtain ⟨hstep, hu', hb'⟩ := soloEnd_keeps (getCore s n).i.pc.toNat { getCore s n with u, bits }
    obtain ⟨hg, hr, hq, hst, he, hlp, hrun, hsteps⟩ := hstep
    exact ⟨⟨hg, hr, hq, hst, he, hlp, hrun, hsteps⟩, hu', hb'⟩

theorem coreMemDone_of_trig (u : Units) (bits : Tab Bool) (m : List Host.Cell)
    (htrig : trigDo s (setCore s n (getCore s n)) n (getCore s n) { op := o, a, p, q, second := false } =
      { setCore s n { getCore s n with u, bits } with mem := m }) : CoreMemDone s n c u bits m := by
  obtain ⟨t, hrun, ht', hothers, hstep, hunits, hbits⟩ := step_of_trig h hexec ht h6 hu hd hh hc htrig (getCore_setCore ..)
    fun i hi => getCore_setCore_ne s hi _
  exact ⟨t, hrun, by rw [ht']; rfl, hothers, hstep, hunits, hbits, by rw [ht']⟩

end Trig

/-! ### Scratch addresses -/

theorem core_le_of_takesTrigger {s : State} {n : Nat} (h : takesTrigger s n = true) : n ≤ 129 := by
  have hn : corePresent s n = true := by
    simp only [takesTrigger, mayIssue, issues, Bool.and_eq_true] at h
    simp [h]
  have hle : nCores s ≤ 128 := by
    unfold nCores
    split <;> omega
  simp only [corePresent, Bool.or_eq_true, decide_eq_true_eq, beq_iff_eq] at hn
  omega

theorem globalOf_scratch (n : Nat) {p : Nat} (hp : p < 0x10000) : globalOf n p = scratchBase n + p := by
  have ha : aliased p = p := by
    rw [aliased, if_neg (by omega), if_neg (by omega)]
  simp [globalOf, ha, hp]

theorem inScratch_of_core {n : Nat} (hn : n ≤ 129) {p : Nat} (hp : p < 0x10000) : InScratch ((scratchBase n + p) / 8) := by
  simp only [InScratch, scratchBase]
  omega

/-! ### The checks that pass -/

theorem checkHalves_ok {s : State} {n : Nat} {sup : Bool} {kind : Nat} {d : Dir} {p z q : Nat} (h : checkHalves s n sup kind d p z = .ok q) : q = p := by
  unfold checkHalves at h
  dsimp only at h
  split at h
  · cases h
  · split at h
    · cases h
      rfl
    · split at h <;> cases h
      rfl

/-- An access that passes its checks starts `a` bytes into its aperture; an exchange is aligned and of normal kind (R93, R150). -/
theorem checkAccess_ok {s : State} {n : Nat} {sup : Bool} {ap : Aperture} {d : Dir} {a z p : Nat} (h : checkAccess s n sup ap d a z = .ok p) :
    p = ap.start + a ∧ (d = .both → ap.kind = 0 ∧ a % 4 = 0) := by
  unfold checkAccess at h
  dsimp only at h
  iterate 6 (split at h; · cases h)
  split at h
  · cases h
  next hkind _ halign =>
    refine ⟨checkHalves_ok h, ?_⟩
    rintro rfl
    simp at hkind halign
    exact ⟨hkind, halign⟩

/-! ### Loads (R92 to R94) -/

theorem extendLoad_unsigned {z : Nat} {bs : Octets} (hz : z ≤ 4) (hlen : bs.length = z) : (extendLoad z false bs).toNat = ofLe bs := by
  have hlt := ofLe_lt bs
  have hle : 256 ^ bs.length ≤ 2 ^ 32 := (Nat.pow_le_pow_right (by decide) (hlen ▸ hz)).trans (by norm_num)
  simp only [extendLoad, Bool.false_eq_true, false_and, if_false, BitVec.toNat_ofNat]
  exact Nat.mod_eq_of_lt (hlt.trans_le hle)

theorem extendLoad_signed {z : Nat} {bs : Octets} (hz : z = 1 ∨ z = 2) (hlen : bs.length = z) :
    (extendLoad z true bs).toInt = if ofLe bs < 2 ^ (8 * z - 1) then (ofLe bs : Int) else (ofLe bs : Int) - 2 ^ (8 * z) := by
  have hlt := ofLe_lt bs
  have hpow : (256 : Nat) ^ z = 2 ^ (8 * z) := by rw [Nat.pow_mul]
  have hle : (2 : Nat) ^ (8 * z) ≤ 2 ^ 16 := Nat.pow_le_pow_right (by decide) (by omega)
  rw [hlen, hpow] at hlt
  by_cases hneg : ofLe bs < 2 ^ (8 * z - 1)
  · have hpos : extendLoad z true bs = BitVec.ofNat 32 (ofLe bs) := by simp [extendLoad, hneg]
    rw [if_pos hneg, hpos, BitVec.toInt_eq_toNat_cond, BitVec.toNat_ofNat]
    omega
  · have hpos : extendLoad z true bs = BitVec.ofInt 32 (ofLe bs - (2 ^ (8 * z) : Nat)) := by simp [extendLoad, Nat.le_of_not_lt hneg]
    rw [if_neg hneg, hpos, toInt_ofInt_word (by omega) (by omega), Nat.cast_pow, Nat.cast_ofNat]

/-- Each half of an access within 8 bytes of one or two words. -/
theorem halvesOf_one {g z : Nat} (h : g % 8 + z ≤ 8) : halvesOf g z = [(g / 8, g % 8, z)] := by simp [halvesOf, h]

theorem halvesOf_two {g z : Nat} (h : ¬ g % 8 + z ≤ 8) : halvesOf g z = [(g / 8, g % 8, 8 - g % 8), (g / 8 + 1, 0, g % 8 + z - 8)] := by
  simp [halvesOf, h]

section Read

variable {perf : State → Nat → StoreEntry → State} {s : State} {n : Nat} (hst : (getCore s n).u.stores = [])
include hst

/-- A half of clean scratch, with no store before it, is read from memory. -/
theorem readHalf_clean {w o z : Nat} (hw : InScratch w) (he : eccOf s w = 0) (hz : o + z ≤ 8) (snap addr : Nat) (wr : Bool) :
    readHalf perf s n snap (w, o, z) addr wr = (s, Mem.readAll (8 * w + o) z s.mem, none) := by
  simp only [readHalf, hst, List.filter_nil, youngestOverlap, List.zipIdx_nil, List.getLast?_nil, Option.map_none, meetWord_scratch hw,
    endLoanAt_of_no_bank (bankAt_high hw.1), checkWord_clean he, anyWord_high hw.1, bytesOf_rawWord _ _ hz, Bool.false_eq_true, if_false]

theorem performLoad_clean {l : Load} {g : Nat} (hg : globalOf n l.addr.toNat = g) (hx : l.xchg = none) (hz : 1 ≤ l.size) (hz' : l.size ≤ 8)
    (hw : InScratch (g / 8)) (hw' : InScratch ((g + l.size - 1) / 8)) (he : eccOf s (g / 8) = 0) (he' : eccOf s ((g + l.size - 1) / 8) = 0) :
    performLoad perf s n l = (s, { val := extendLoad l.size l.sext (Mem.readAll g l.size s.mem), pois := none }) := by
  unfold performLoad
  rw [hg]
  by_cases hone : g % 8 + l.size ≤ 8
  · have hread := readHalf_clean (perf := perf) hst hw he hone l.snap l.addr.toNat false
    rw [Nat.div_add_mod] at hread
    simp only [halvesOf_one hone, hx, Option.isSome_none, hread]
  · have hlast : (g + l.size - 1) / 8 = g / 8 + 1 := by omega
    rw [hlast] at hw' he'
    have hfirst := readHalf_clean (perf := perf) hst hw he (o := g % 8) (z := 8 - g % 8) (by omega) l.snap l.addr.toNat false
    have hsecond := readHalf_clean (perf := perf) hst hw' he' (o := 0) (z := g % 8 + l.size - 8) (by omega) l.snap (l.addr.toNat + (8 - g % 8)) false
    have hsplit := Mem.readAll_append g (8 - g % 8) (g % 8 + l.size - 8) s.mem
    rw [Nat.div_add_mod] at hfirst
    rw [show 8 - g % 8 + (g % 8 + l.size - 8) = l.size by omega, show g + (8 - g % 8) = 8 * (g / 8 + 1) + 0 by omega] at hsplit
    simp only [halvesOf_two hone, hfirst, hsecond, hsplit, Option.orElse_none]

end Read

/-- The load a trigger enters (R94). -/
def loadStarted (k : LensCore) (late z : Nat) (sext : Bool) (p : Nat) (ap : Aperture) (bare : Bool) (x : Option Word) : Load :=
  { trig := k.i.steps, addr := BitVec.ofNat 32 p, size := z, sext, kind := accKind ap p, xchg := x, snap := k.u.nstore, late, bare,
    data := none, deliv := false, outst := true, toFrame := none }

/-- A load of own scratch reads where its address points. -/
theorem loadStarted_global {n late z p : Nat} {sext bare : Bool} {ap : Aperture} {x : Option Word} (k : LensCore) (hp : p < 0x10000) :
    globalOf n (loadStarted k late z sext p ap bare x).addr.toNat = scratchBase n + p := by
  rw [loadStarted, BitVec.toNat_ofNat, Nat.mod_eq_of_lt (by omega), globalOf_scratch n hp]

/-- A lsu without a load holds none. -/
theorem no_load_hold_idle {s : State} {n : Nat} (k1 : LensCore) (a : Word) (hl : (getCore s n).u.loads = []) (z : Nat) (x : Bool) :
    trigHold s n k1 (.ld z x) a = .none ∧ trigHold s n k1 .xchg a = .none := by
  have hnone : undelivered (getCore s n) = [] := by rw [undelivered, hl, List.filter_nil]
  refine no_load_hold k1 a ?_ (.inr hnone) z x
  unfold fifthLoad
  rw [hnone]
  cases (getCore s n).i.wait5 <;> rfl

/-- No core is ahead at a scratch memory (R42). -/
theorem coresAhead_scratch {g : Nat} (s : State) (n : Nat) (hg : InScratch (g / 8)) : coresAhead s n g = 0 := by
  rw [coresAhead, placeOf_scratch hg]

/-- The first load or exchange of an idle lsu is performed at once (R94). -/
theorem startLoad_idle {s : State} {n z p : Nat} {sext bare : Bool} {ap : Aperture} {x : Option Word} (hst : (getCore s n).u.stores = [])
    (hl : (getCore s n).u.loads = []) (hk : ap.kind = 0) :
    let l := loadStarted (getCore s n) (coresAhead s n (globalOf n p)) z sext p ap bare x
    let s1 := setCore s n { getCore s n with u := { (getCore s n).u with loads := [l] } }
    let r := performLoad drainEntry s1 n l
    startLoad s n z sext p ap bare x = setLoad r.1 n 0 fun l => { l with data := some r.2 } := by
  intro l s1 r
  have hkind : l.kind = .normal := by simp [l, loadStarted, accKind, hk]
  have hcore : getCore s1 n = { getCore s n with u := { (getCore s n).u with loads := [l] } } := getCore_setCore ..
  have hstart : startLoad s n z sext p ap bare x = tryPerform drainEntry s1 n 0 := by
    simp only [startLoad, hl, List.nil_append, List.length_nil]
    rfl
  have hblocked : loadBlocked s1 n [] l = false := by simp [loadBlocked, hcore, hst]
  rw [hstart, tryPerform, hcore]
  simp [hblocked, hkind, r]
  simp [l, loadStarted]

section Load

variable {s : State} {n z p : Nat} {a : Word} {sext : Bool} {c : Instr} (h : takesTrigger s n = true)
  (hst : (getCore s n).u.stores = []) (hl : (getCore s n).u.loads = []) (hk : (dataAp s n (getCore s n)).kind = 0)
  (hz : 1 ≤ z) (hz' : z ≤ 4) (hp : p + z ≤ 0x10000) (he : eccOf s ((scratchBase n + p) / 8) = 0) (he' : eccOf s ((scratchBase n + p + z - 1) / 8) = 0)
include h hst hl hk hz hz' hp he he'

/-- A load trigger on clean own scratch enters its load, its value read (R92 to R94). -/
theorem load_done (hexec : exec c s = .next (soloTrigger s n (loadCode z sext) a)) (ht : trigOf (loadCode z sext) = some (.ld z sext))
    (hu : unitAbsent s (loadCode z sext) = false) (hc : checkAccess s n (isSup (getCore s n)) (dataAp s n (getCore s n)) .read a.toNat z = .ok p) :
    let l := loadStarted (getCore s n) 0 z sext p (dataAp s n (getCore s n)) (isBare (getCore s n)) none
    let d : LoadData := { val := extendLoad z sext (Mem.readAll (scratchBase n + p) z s.mem), pois := none }
    UnitDone s n c { (getCore s n).u with loads := [{ l with data := some d }] } (getCore s n).bits := by
  intro l d
  have hn := core_le_of_takesTrigger h
  obtain ⟨h6, hd⟩ := lsuOp_facts rfl ht n (getCore s n) a
  refine solo_unit_done h ht h6 hu hd (no_load_hold_idle _ a hl z sext).1 (p := p) (q := 0) (by simp [trigCheck, hc, lsuRes]) c hexec
    { getCore s n with u := { (getCore s n).u with loads := [{ l with data := some d }] } } ?_ rfl
  have hperf := performLoad_clean (perf := drainEntry) (s := setCore s n { getCore s n with u := { (getCore s n).u with loads := [l] } }) (n := n) (l := l)
    (by rw [getCore_setCore]; exact hst) (loadStarted_global _ (by omega)) rfl hz (by show z ≤ 8; omega) (inScratch_of_core hn (by omega))
    (by rw [show scratchBase n + p + l.size - 1 = scratchBase n + (p + z - 1) by show _ + z - 1 = _; omega]; exact inScratch_of_core hn (by omega)) he he'
  have hstart := startLoad_idle (s := setCore s n (getCore s n)) (n := n) (z := z) (p := p) (sext := sext) (bare := isBare (getCore s n))
    (ap := dataAp s n (getCore s n)) (x := none) (by rw [getCore_setCore]; exact hst) (by rw [getCore_setCore]; exact hl) hk
  simp only [getCore_setCore, setCore_setCore, globalOf_scratch n (show p < 0x10000 by omega),
    coresAhead_scratch _ _ (inScratch_of_core hn (show p < 0x10000 by omega))]
    at hstart
  refine hstart.trans ?_
  exact (congrArg (fun r => setLoad r.1 n 0 fun l => { l with data := some r.2 }) hperf).trans (by simp only [setLoad, modCore_setCore]; rfl)

end Load

/-- Settles O10: a load is performed at its trigger, and reads the bytes of memory. -/
theorem loadTriggersReadMemory : Obligations.LoadTriggersReadMemory := by
  unfold Obligations.LoadTriggersReadMemory
  intro s n a p h hst hl k ap g done
  have hload : ∀ (c : Instr) (z : Nat), 1 ≤ z ∧ z ≤ 4 → exec c s = .next (soloTrigger s n (loadCode z false) a) →
      trigOf (loadCode z false) = some (.ld z false) → unitAbsent s (loadCode z false) = false → done c z false := by
    intro c z hz hexec ht hu hc hk hp he he'
    exact ⟨_, load_done h hst hl hk hz.1 hz.2 hp he he' hexec ht hu hc, rfl, rfl, rfl, _, rfl, rfl,
      extendLoad_unsigned hz.2 (Mem.readAll_length ..)⟩
  have hsigned : ∀ (c : Instr) (z : Nat), z = 1 ∨ z = 2 → exec c s = .next (soloTrigger s n (loadCode z true) a) →
      trigOf (loadCode z true) = some (.ld z true) → unitAbsent s (loadCode z true) = false → done c z true := by
    intro c z hz hexec ht hu hc hk hp he he'
    exact ⟨_, load_done h hst hl hk (by omega) (by omega) hp he he' hexec ht hu hc, rfl, rfl, rfl, _, rfl, rfl,
      extendLoad_signed hz (Mem.readAll_length ..)⟩
  exact ⟨hload _ 1 (by decide) rfl rfl rfl, hsigned _ 1 (by decide) rfl rfl rfl, hload _ 2 (by decide) rfl rfl rfl,
    hsigned _ 2 (by decide) rfl rfl rfl, hload _ 4 (by decide) rfl rfl rfl⟩

end Sys2Proof.Machine

/-! SUPPORT. The exchange of own scratch and the store-buffer entries of a store (R92, R93, R95, R153, R154). -/

namespace Sys2Proof.Machine

/-! ### Numbers moved up by whole bytes -/

theorem shifted_div (x : Nat) {o j : Nat} (h : o ≤ j) : x * 256 ^ o / 256 ^ j = x / 256 ^ (j - o) := by
  rw [← Nat.sub_add_cancel h, Nat.pow_add, Nat.mul_div_mul_right _ _ (by positivity), Nat.add_sub_cancel]

/-- The bytes of a number below its length `z` are those of its remainder. -/
theorem byte_of_mod (d : Nat) {i z : Nat} (h : i < z) : BitVec.ofNat 8 (d % 256 ^ z / 256 ^ i) = BitVec.ofNat 8 (d / 256 ^ i) := by
  have hz : (256 : Nat) ^ z = 256 ^ i * (256 * 256 ^ (z - i - 1)) := by
    rw [← Nat.pow_succ', ← Nat.pow_add]
    congr 1
    omega
  refine BitVec.eq_of_toNat_eq ?_
  rw [hz, Nat.mod_mul_right_div_self, BitVec.toNat_ofNat, BitVec.toNat_ofNat, show (2 : Nat) ^ 8 = 256 from rfl, Nat.mod_mul_right_mod]

/-- The byte at `j` of a word that holds a number from byte `o` up. -/
theorem byteOf_shifted (x : Nat) {o j : Nat} (ho : o ≤ j) (hj : j < 8) :
    byteOf (BitVec.ofNat 64 (x * 256 ^ o)) j = BitVec.ofNat 8 (x / 256 ^ (j - o)) := by
  rw [byteOf_ofNat _ hj, shifted_div _ ho]

/-! ### The exchange (R92, R93) -/

theorem maskOf_four (o : Nat) : maskOf o 4 ≠ 0xFF#8 := by
  intro h
  by_cases h0 : o = 0
  · have h7 := congrArg (fun m => m.getLsbD 7) h
    rw [getLsbD_maskOf _ _ (by decide)] at h7
    simp [h0] at h7
  · have h0' := congrArg (fun m => m.getLsbD 0) h
    rw [getLsbD_maskOf _ _ (by decide)] at h0'
    simp [h0] at h0'

theorem portWrite_scratch {s : State} {w : Nat} (hw : InScratch w) (m f : Nat) (data : BitVec 64) (mask : Byte) :
    portWrite s m f w data mask = memWrite s w data mask := by
  have hb := bankAt_high hw.1
  simp only [portWrite, endLoanAt_of_no_bank hb, mergeOf_of_no_bank hb, placeOf_scratch hw, forceMerge_of_no_bank hb]

/-- An exchange of an aligned word of clean scratch: the old word read, the new one written. -/
theorem performLoad_exchange {s : State} {n : Nat} {perf : State → Nat → StoreEntry → State} {l : Load} {g : Nat} {v : Word}
    (hst : (getCore s n).u.stores = []) (hg : globalOf n l.addr.toNat = g) (hx : l.xchg = some v) (hz : l.size = 4) (hsext : l.sext = false)
    (ha : g % 4 = 0) (hw : InScratch (g / 8)) (he : eccOf s (g / 8) = 0) :
    performLoad perf s n l = (setRawWord s (g / 8) (mergeBytes (rawWord s (g / 8)) (BitVec.ofNat 64 (v.toNat * 256 ^ (g % 8))) (maskOf (g % 8) 4)),
      { val := extendLoad 4 false (Mem.readAll g 4 s.mem), pois := none }) := by
  have hfit : g % 8 + 4 ≤ 8 := by omega
  have hread := readHalf_clean (perf := perf) hst hw he hfit l.snap l.addr.toNat true
  rw [Nat.div_add_mod] at hread
  unfold performLoad
  simp only [hg, hz, hsext, halvesOf_one hfit, hx, Option.isSome_some, hread, placeOf_scratch hw, portWrite_scratch hw,
    memWrite_clean he (maskOf_four _)]

/-- What memory holds after `z` bytes of a word from byte `o` were written. -/
theorem read_merged {s : State} (hwf : Mem.wf s.mem = true) (g z v : Nat) (hfit : g % 8 + z ≤ 8) (x : Nat) :
    Mem.read x (setRawWord s (g / 8) (mergeBytes (rawWord s (g / 8)) (BitVec.ofNat 64 (v * 256 ^ (g % 8))) (maskOf (g % 8) z))).mem =
      if g ≤ x ∧ x < g + z then BitVec.ofNat 8 (v / 256 ^ (x - g)) else Mem.read x s.mem := by
  have hj : x % 8 < 8 := Nat.mod_lt _ (by decide)
  rw [read_setRawWord hwf]
  by_cases hword : x / 8 = g / 8
  · rw [if_pos hword, byteOf_mergeBytes _ _ _ hj, getLsbD_maskOf _ _ hj, byteOf_rawWord _ _ hj, ← hword, Nat.div_add_mod]
    by_cases hin : g % 8 ≤ x % 8 ∧ x % 8 < g % 8 + z
    · rw [decide_eq_true hin, if_pos rfl, byteOf_shifted _ hin.1 hj, if_pos (by omega), show x % 8 - g % 8 = x - g by omega]
    · rw [decide_eq_false hin, if_neg (by decide), if_neg (by omega)]
  · rw [if_neg hword, if_neg (by omega)]

/-- The core's units set after memory was written. -/
theorem setLoad_setRawWord (s : State) (n w : Nat) (v : BitVec 64) (k : LensCore) (f : Load → Load) :
    setLoad (setRawWord (setCore s n k) w v) n 0 f =
      { setCore s n { k with u := { k.u with loads := k.u.loads.modify 0 f } } with mem := (setRawWord s w v).mem } := by
  have hcore : getCore (setRawWord (setCore s n k) w v) n = k := getCore_setCore ..
  have hset := setCore_setCore s n { k with u := { k.u with loads := k.u.loads.modify 0 f } } k
  rw [setLoad, modCore, hcore, ← hset]
  rfl

section Exchange

variable {s : State} {n p : Nat} {a : Word} (h : takesTrigger s n = true) (hst : (getCore s n).u.stores = []) (hl : (getCore s n).u.loads = [])
  (hc : checkAccess s n (isSup (getCore s n)) (dataAp s n (getCore s n)) .both a.toNat 4 = .ok p) (hp : p + 4 ≤ 0x10000)
  (he : eccOf s ((scratchBase n + p) / 8) = 0)
include h hst hl hc hp he

omit h hst hl hp he in
theorem exchange_aligned : (dataAp s n (getCore s n)).kind = 0 ∧ (scratchBase n + p) % 4 = 0 := by
  obtain ⟨rfl, hboth⟩ := checkAccess_ok hc
  obtain ⟨hk, ha⟩ := hboth rfl
  refine ⟨hk, ?_⟩
  simp only [scratchBase, Aperture.start]
  omega

/-- An exchange trigger on clean own scratch enters its load, the old word read and the new one written (R92, R93). -/
theorem exchange_done :
    let g := scratchBase n + p
    let v := sockOf s n 0x241
    let l := loadStarted (getCore s n) 0 4 false p (dataAp s n (getCore s n)) (isBare (getCore s n)) (some v)
    let d : LoadData := { val := extendLoad 4 false (Mem.readAll g 4 s.mem), pois := none }
    CoreMemDone s n (.lsuXchg32 n a) { (getCore s n).u with loads := [{ l with data := some d }] } (getCore s n).bits
      (setRawWord s (g / 8) (mergeBytes (rawWord s (g / 8)) (BitVec.ofNat 64 (v.toNat * 256 ^ (g % 8))) (maskOf (g % 8) 4))).mem := by
  intro g v l d
  obtain ⟨hk, hg4⟩ := exchange_aligned hc
  have hw : InScratch ((scratchBase n + p) / 8) := inScratch_of_core (core_le_of_takesTrigger h) (by omega)
  obtain ⟨h6, hd⟩ := lsuOp_facts (code := 0x24A) (o := .xchg) rfl rfl n (getCore s n) a
  refine coreMemDone_of_trig (code := 0x24A) (o := .xchg) h rfl rfl h6 rfl hd (no_load_hold_idle _ a hl 4 false).2 (p := p) (q := 0)
    (by simp [trigCheck, hc, lsuRes]) _ _ _ ?_
  have hperf := performLoad_exchange (perf := drainEntry) (s := setCore s n { getCore s n with u := { (getCore s n).u with loads := [l] } }) (n := n) (l := l)
    (by rw [getCore_setCore]; exact hst) (loadStarted_global _ (by omega)) rfl rfl rfl hg4 hw he
  have hstart := startLoad_idle (s := setCore s n (getCore s n)) (n := n) (z := 4) (p := p) (sext := false) (bare := isBare (getCore s n))
    (ap := dataAp s n (getCore s n)) (x := some v) (by rw [getCore_setCore]; exact hst) (by rw [getCore_setCore]; exact hl) hk
  simp only [getCore_setCore, setCore_setCore, globalOf_scratch n (show p < 0x10000 by omega), coresAhead_scratch _ _ hw] at hstart
  refine hstart.trans ?_
  exact (congrArg (fun r => setLoad r.1 n 0 fun l => { l with data := some r.2 }) hperf).trans
    ((setLoad_setRawWord ..).trans rfl)

end Exchange

/-- Settles O12: the exchange is one read and one write of the word, in the step of its trigger. -/
theorem exchangeSwapsWord : Obligations.ExchangeSwapsWord := by
  unfold Obligations.ExchangeSwapsWord
  intro s n a p h hwf hst hl k g hc hp he
  obtain ⟨-, hg4⟩ := exchange_aligned hc
  obtain ⟨t, hexec, ht, hothers, hstep, hu, hbits, hmem⟩ := exchange_done h hst hl hc hp he
  refine ⟨t, _, _, hexec, ht, hothers, hstep, hbits, hu, rfl, rfl, rfl, extendLoad_unsigned (by decide) (Mem.readAll_length ..), fun x => ?_⟩
  rw [hmem]
  exact read_merged hwf g 4 _ (show g % 8 + 4 ≤ 8 by omega) x

/-! ### Stores (R95, R153, R154) -/

theorem heldByte_cons (e : StoreEntry) (es : List StoreEntry) (x : Nat) :
    heldByte (e :: es) x = if e.word = x / 8 ∧ e.mask.getLsbD (x % 8) = true then some (byteOf e.data (x % 8)) else heldByte es x := by
  rw [heldByte, List.find?_cons]
  by_cases h : e.word = x / 8 ∧ e.mask.getLsbD (x % 8) = true
  · simp [h]
  · rw [if_neg h, show (e.word == x / 8 && e.mask.getLsbD (x % 8)) = false by simpa using h]
    rfl

/-- The entry that holds `len` bytes of number `d` from address `8 w + o` up. -/
theorem heldByte_entry {w o len : Nat} (hfit : o + len ≤ 8) (e : StoreEntry) (hw : e.word = w) (hm : e.mask = maskOf o len) {d : Nat}
    (hd : e.data = BitVec.ofNat 64 (d * 256 ^ o)) (es : List StoreEntry) (x : Nat) :
    heldByte (e :: es) x =
      if 8 * w + o ≤ x ∧ x < 8 * w + o + len then some (BitVec.ofNat 8 (d / 256 ^ (x - (8 * w + o)))) else heldByte es x := by
  have hj : x % 8 < 8 := Nat.mod_lt _ (by decide)
  have hcov : (e.word = x / 8 ∧ e.mask.getLsbD (x % 8) = true) ↔ 8 * w + o ≤ x ∧ x < 8 * w + o + len := by
    rw [hw, hm, getLsbD_maskOf _ _ hj, decide_eq_true_iff]
    omega
  rw [heldByte_cons]
  by_cases hin : 8 * w + o ≤ x ∧ x < 8 * w + o + len
  · rw [if_pos (hcov.2 hin), if_pos hin, hd, byteOf_shifted _ (by omega) hj, show x % 8 - o = x - (8 * w + o) by omega]
  · rw [if_neg (mt hcov.1 hin), if_neg hin]

/-- The address the first byte of a store goes to: a device register's own, any other's in the memories (log entry 3). -/
def storeAt (n p : Nat) (kind : AccKind) : Nat := if kind = .device ∧ 0x10000000 ≤ p ∧ p < 0x20000000 then p else globalOf n p

section Store

variable (n p z : Nat) (v : Word) (kind : AccKind) (id : Nat)

theorem storeEntries_one (h : storeAt n p kind % 8 + z ≤ 8) : storeEntries n p z v kind id =
    [{ id, word := storeAt n p kind / 8, mask := maskOf (storeAt n p kind % 8) z,
       data := BitVec.ofNat 64 (v.toNat % 256 ^ z * 256 ^ (storeAt n p kind % 8)), kind, linked := false }] := by
  simp only [storeAt] at h ⊢
  simp only [storeEntries, halvesOf_one h]

theorem storeEntries_two (h : ¬ storeAt n p kind % 8 + z ≤ 8) :
    let o := storeAt n p kind % 8
    storeEntries n p z v kind id =
      [{ id, word := storeAt n p kind / 8, mask := maskOf o (8 - o),
         data := BitVec.ofNat 64 (v.toNat % 256 ^ z % 256 ^ (8 - o) * 256 ^ o), kind, linked := true },
       { id := id + 1, word := storeAt n p kind / 8 + 1, mask := maskOf 0 (o + z - 8), data := BitVec.ofNat 64 (v.toNat % 256 ^ z / 256 ^ (8 - o)), kind,
         linked := false }] := by
  simp only [storeAt] at h ⊢
  simp only [storeEntries, halvesOf_two h]

theorem storeEntries_length : (storeEntries n p z v kind id).length = if storeAt n p kind % 8 + z ≤ 8 then 1 else 2 := by
  split
  next h => rw [storeEntries_one _ _ _ _ _ _ h]; rfl
  next h => rw [storeEntries_two _ _ _ _ _ _ h]; rfl

theorem storeEntries_kind : ∀ e ∈ storeEntries n p z v kind id, e.kind = kind := by
  by_cases h : storeAt n p kind % 8 + z ≤ 8
  · simp [storeEntries_one _ _ _ _ _ _ h]
  · simp [storeEntries_two _ _ _ _ _ _ h]

/-- The entries of a store hold the low `z` bytes of its value, the first at its address. -/
theorem heldByte_storeEntries (hz : z ≤ 8) (x : Nat) : heldByte (storeEntries n p z v kind id) x =
    if storeAt n p kind ≤ x ∧ x < storeAt n p kind + z then some (BitVec.ofNat 8 (v.toNat / 256 ^ (x - storeAt n p kind))) else none := by
  have hnil : heldByte [] x = none := rfl
  by_cases h : storeAt n p kind % 8 + z ≤ 8
  · rw [storeEntries_one _ _ _ _ _ _ h, heldByte_entry h _ rfl rfl rfl, hnil, Nat.div_add_mod]
    split
    · rw [byte_of_mod _ (by omega)]
    · rfl
  · rw [storeEntries_two _ _ _ _ _ _ h, heldByte_entry (w := storeAt n p kind / 8) (by omega) _ rfl rfl rfl,
      heldByte_entry (w := storeAt n p kind / 8 + 1) (o := 0) (by omega) _ rfl rfl (by rw [Nat.pow_zero, Nat.mul_one]), hnil, Nat.div_add_mod]
    by_cases hfirst : storeAt n p kind ≤ x ∧ x < storeAt n p kind + (8 - storeAt n p kind % 8)
    · rw [if_pos hfirst, if_pos (by omega), byte_of_mod _ (by omega), byte_of_mod _ (by omega)]
    · rw [if_neg hfirst]
      by_cases hsecond : storeAt n p kind ≤ x ∧ x < storeAt n p kind + z
      · rw [if_pos (by omega), if_pos hsecond, Nat.div_div_eq_div_mul, ← Nat.pow_add, byte_of_mod _ (by omega)]
        congr 4
        omega
      · rw [if_neg (by omega), if_neg hsecond]

end Store

theorem store_done {s : State} {n z p : Nat} {a : Word} {c : Instr} (h : takesTrigger s n = true)
    (hexec : exec c s = .next (soloTrigger s n (storeCode z) a)) (ht : trigOf (storeCode z) = some (.st z)) (hu : unitAbsent s (storeCode z) = false)
    (hc : checkAccess s n (isSup (getCore s n)) (dataAp s n (getCore s n)) .write a.toNat z = .ok p)
    (hroom : (getCore s n).u.stores.length + storeCount p z ≤ 8) :
    let es := storeEntries n p z (sockOf s n 0x241) (accKind (dataAp s n (getCore s n)) p) (getCore s n).u.nstore
    UnitDone s n c { (getCore s n).u with stores := (getCore s n).u.stores ++ es, nstore := (getCore s n).u.nstore + es.length } (getCore s n).bits := by
  intro es
  obtain ⟨hp, -⟩ := checkAccess_ok hc
  obtain ⟨h6, hd⟩ := lsuOp_facts rfl ht n (getCore s n) a
  exact solo_unit_done h ht h6 hu hd (no_store_hold (hp ▸ hroom)) (p := p) (q := 0) (by simp [trigCheck, hc, lsuRes]) c hexec
    { getCore s n with u := { (getCore s n).u with stores := (getCore s n).u.stores ++ es, nstore := (getCore s n).u.nstore + es.length } }
    (by simp only [trigDo, startStore, modCore_setCore]; rfl) rfl

/-- Settles O11: a store only enters its entries, and these hold its bytes. -/
theorem storeTriggersFillBuffer : Obligations.StoreTriggersFillBuffer := by
  unfold Obligations.StoreTriggersFillBuffer
  intro s n a p h k ap d done
  have hstore : ∀ (c : Instr) (z : Nat), z ≤ 8 → exec c s = .next (soloTrigger s n (storeCode z) a) → trigOf (storeCode z) = some (.st z) →
      unitAbsent s (storeCode z) = false → done c z := by
    intro c z hz hexec ht hu hc hroom g
    exact ⟨_, store_done h hexec ht hu hc hroom, storeEntries_length .., storeEntries_kind _ _ _ _ _ _, heldByte_storeEntries _ _ _ _ _ _ hz⟩
  exact ⟨hstore _ 1 (by decide) rfl rfl rfl, hstore _ 2 (by decide) rfl rfl rfl, hstore _ 4 (by decide) rfl rfl rfl⟩

end Sys2Proof.Machine

/-! SUPPORT. The ctl triggers: transfers with their delay bundle, and the operations that hold or stop (R98 to R101, R121, R160, R200). -/

namespace Sys2Proof.Machine

/-! ### The step of a ctl trigger -/

/-- The core at the end of a step that writes no aperture and is in no repeat, before the next bundle is chosen. -/
def ctlEnd (k : LensCore) : LensCore := modIssue (stepEnd k) fun i => { i with resumeRep := false }

/-- What the end of a step leaves alone, with the loop counts. -/
theorem ctlEnd_eq (k : LensCore) : ∃ rem hend stepping, ctlEnd k = { k with
    r := { k.r with hushRem := rem }, e := { k.e with hushEnd := hend }, lp := { k.lp with pass := false, stepping }
    i := { k.i with steps := k.i.steps + 1, drain := false, dueStep := none, wait5 := none, fence := false, first := false, resumeRep := false } } := by
  obtain ⟨rem, hend, stepping, h⟩ := stepEnd_eq k
  exact ⟨rem, hend, stepping, by rw [ctlEnd, h]; rfl⟩

/-- The work of a ctl trigger. -/
def ctlWork (s : State) (n code : Nat) (a : Word) (c : CtlOp) (xfer : Option Nat) : Work :=
  { soloWork s n code a (.ctl c) 0 0 with xfer }

theorem perform_ctl {s : State} {n code : Nat} {a : Word} {c : CtlOp} (ht : trigOf code = some (.ctl c)) (xfer : Option Nat) :
    perform s n (ctlWork s n code a c xfer) = afterStep (setCore s n (ctlEnd (getCore s n))) n (ctlWork s n code a c xfer) := by
  have hr := trigOf_dst ht
  have hw : writesAp0 [code] = false := by
    simp [writesAp0]
    omega
  unfold perform
  simp [ctlWork, soloWork, secondHalf, hw, trigDo, modCore_setCore]
  rfl

section Facts

variable {s : State} {n code : Nat} {a : Word} {c : CtlOp} {i : Instr} (h : takesTrigger s n = true)
  (hexec : exec i s = .next (soloTrigger s n code a)) (ht : trigOf code = some (.ctl c))
  (hend : endsActive (getCore s n) (getCore s n).i.pc.toNat = false)
include h hexec ht hend

theorem exec_transfer (hu : unitAbsent s code = false) (hf : userForbids code = false) (hx : isTransfer (soloMove code a) = true) (hloop : code ≠ 0x268)
    (he : c ≠ .eret) {d : Nat} (hdelay : checkDelay s n ((getCore s n).i.pc.toNat + 8) = .ok d) :
    exec i s = .next (afterStep (setCore s n (ctlEnd (getCore s n))) n (ctlWork s n code a c (some d))) := by
  rw [hexec, soloTrigger_eq h, planMoves_transfer ht (moveCheck_soloMove ht hu (.inr hf)) hx hend hloop he hdelay, ← perform_ctl ht]
  rfl

theorem exec_control (hu : unitAbsent s code = false) (hsup : isSup (getCore s n) = true ∨ userForbids code = false)
    (hx : isTransfer (soloMove code a) = false) (hloop : code ≠ 0x268) (he : c ≠ .eret) :
    exec i s = .next (afterStep (setCore s n (ctlEnd (getCore s n))) n (ctlWork s n code a c none)) := by
  have hd := no_bits (n := n) (k := getCore s n) (a := a) ht (fun _ _ => Op.noConfusion) (fun _ => Op.noConfusion)
  have hh : trigHold s n (getCore s n) (.ctl c) a = .none := by
    cases c with
    | eret => exact absurd rfl he
    | _ => rfl
  rw [hexec, soloTrigger_eq h, planMoves_go (p := 0) (q := 0) ht (moveCheck_soloMove ht hu hsup) hx hd (fun _ => hend) hloop
    (fun heq => he (Op.ctl.inj heq)) hh rfl, ← perform_ctl ht]
  rfl

end Facts

/-! ### Transfers (R98, R121) -/

theorem traceOn_cases (s : State) (n kind cause : Nat) (src dst : Word) : traceOn s n kind cause src dst = s ∨
    ∃ tr, traceOn s n kind cause src dst = setCluster s (clusterOf n) { getCluster s (clusterOf n) with trace := tr } := by
  unfold traceOn
  dsimp only
  generalize (!((getCluster s (clusterOf n)).trctl.getLsbD (n % 4) && _)) = off
  split
  · exact .inl rfl
  · split
    · exact .inl rfl
    · split
      · exact .inr ⟨_, rfl⟩
      · split
        · exact .inl rfl
        · exact .inr ⟨_, rfl⟩

/-- A trace entry changes the trace buffer of a cluster alone (R468). -/
theorem traceOn_keeps (s : State) (n kind cause : Nat) (src dst : Word) :
    let t := traceOn s n kind cause src dst
    t = { s with clusters := t.clusters } ∧ ∀ c, { getCluster t c with trace := [] } = { getCluster s c with trace := [] } := by
  intro t
  rcases traceOn_cases s n kind cause src dst with ht | ⟨tr, ht⟩
  · rw [show t = s from ht]
    exact ⟨rfl, fun _ => rfl⟩
  · rw [show t = _ from ht]
    refine ⟨rfl, fun c => ?_⟩
    by_cases hc : c = clusterOf n
    · rw [hc, getCluster_setCluster]
    · rw [getCluster_setCluster_ne _ hc]

/-- The core after a transfer bundle: the delay bundle next, the target to follow it; a call has written its link. -/
def transferred (k : LensCore) (o : CtlOp) (off d : Nat) (a : Word) : LensCore :=
  modIssue (if o = .call ∨ o = .callr then setSk k 0x26E (BitVec.ofNat 32 (off + 8 + d)) else k) fun i =>
    { i with pc := BitVec.ofNat 32 (off + 8), delay := some (some (transferTarget o off a)),
             xferOff := if o = .ret then none else some off, xferSize := 8 }

theorem afterStep_transfer {o : CtlOp} (ho : o ∈ [CtlOp.jmp, .jr, .call, .callr, .ret]) (s0 s : State) (n code d : Nat) (a : Word) (k : LensCore) :
    let off := (getCore s n).i.pc.toNat
    afterStep (setCore s0 n k) n (ctlWork s n code a o (some d)) =
      traceOn (setCore s0 n (transferred k o off d a)) n 0 0 (BitVec.ofNat 32 off) (transferTarget o off a) := by
  intro off
  unfold afterStep transferred
  fin_cases ho <;> simp [ctlWork, soloWork, off, modCore_setCore]

theorem transfer_done {s : State} {n d code : Nat} {a : Word} {c : Instr} {o : CtlOp} (ho : o ∈ [CtlOp.jmp, .jr, .call, .callr, .ret])
    (h : takesTrigger s n = true) (hexec : exec c s = .next (soloTrigger s n code a)) (ht : trigOf code = some (.ctl o))
    (hend : endsActive (getCore s n) (getCore s n).i.pc.toNat = false) (hu : unitAbsent s code = false) (hf : userForbids code = false)
    (hx : isTransfer (soloMove code a) = true) (hloop : code ≠ 0x268) (hdelay : checkDelay s n ((getCore s n).i.pc.toNat + 8) = .ok d)
    {tgt : Word} (htgt : transferTarget o (getCore s n).i.pc.toNat a = tgt) :
    let k := getCore s n
    let off := k.i.pc.toNat
    ∃ t, exec c s = .next t ∧ t = { s with cores := t.cores, clusters := t.clusters } ∧ (∀ m, m ≠ n → getCore t m = getCore s m) ∧
      (∀ c, { getCluster t c with trace := [] } = { getCluster s c with trace := [] }) ∧ CoreStep k (getCore t n) ∧
      (getCore t n).u = (if o = .call ∨ o = .callr then withSock s n 0x26E (BitVec.ofNat 32 (off + 8 + d)) else k.u) ∧
      (getCore t n).bits = k.bits ∧ (getCore t n).i.pc = BitVec.ofNat 32 (off + 8) ∧
      (getCore t n).i.delay = some (some tgt) ∧ (getCore t n).i.xferOff = if o = .ret then none else some off := by
  intro k off
  subst htgt
  have he : o ≠ .eret := by
    rintro rfl
    simp at ho
  have hrun := exec_transfer h hexec ht hend hu hf hx hloop he hdelay
  rw [afterStep_transfer ho] at hrun
  obtain ⟨hstate, htrace⟩ := traceOn_keeps (setCore s n (transferred (ctlEnd k) o off d a)) n 0 0 (BitVec.ofNat 32 off) (transferTarget o off a)
  have hcores : ∀ m, getCore (traceOn (setCore s n (transferred (ctlEnd k) o off d a)) n 0 0 (BitVec.ofNat 32 off) (transferTarget o off a)) m =
      getCore (setCore s n (transferred (ctlEnd k) o off d a)) m := fun m => by rw [hstate]; rfl
  obtain ⟨rem, hend', stepping, hk⟩ := ctlEnd_eq k
  refine ⟨_, hrun, by rw [hstate]; rfl, fun m hm => ?_, fun c => (htrace c).trans rfl, ?_⟩
  · rw [hcores, getCore_setCore_ne _ hm]
  · rw [hcores, getCore_setCore, hk, transferred]
    by_cases hcall : o = .call ∨ o = .callr
    · rw [if_pos hcall, if_pos hcall]
      exact ⟨⟨rfl, rfl, rfl, rfl, rfl, rfl, rfl, rfl⟩, rfl, rfl, rfl, rfl, rfl⟩
    · rw [if_neg hcall, if_neg hcall]
      exact ⟨⟨rfl, rfl, rfl, rfl, rfl, rfl, rfl, rfl⟩, rfl, rfl, rfl, rfl, rfl⟩

/-- Settles O14: with a good delay bundle each transfer goes on to it, the target set. -/
theorem transfersGoThroughDelayBundle : Obligations.TransfersGoThroughDelayBundle := by
  unfold Obligations.TransfersGoThroughDelayBundle
  intro s n d a h k o hend hdelay done even link
  have htarget : ∀ c, c = .jr ∨ c = .callr → transferTarget c o.toNat a = even (o + a) := by
    rintro c (rfl | rfl) <;> simp [transferTarget, even]
  exact ⟨transfer_done (code := 0x261) (o := .jmp) (by decide) h rfl rfl hend rfl rfl rfl (by decide) hdelay rfl,
    transfer_done (code := 0x262) (o := .jr) (by decide) h rfl rfl hend rfl rfl rfl (by decide) hdelay (htarget _ (.inl rfl)),
    transfer_done (code := 0x263) (o := .call) (by decide) h rfl rfl hend rfl rfl rfl (by decide) hdelay rfl,
    transfer_done (code := 0x264) (o := .callr) (by decide) h rfl rfl hend rfl rfl rfl (by decide) hdelay (htarget _ (.inr rfl)),
    transfer_done (code := 0x265) (o := .ret) (by decide) h rfl rfl hend rfl rfl rfl (by decide) hdelay rfl⟩

end Sys2Proof.Machine

/-! SUPPORT. The ctl operations that hold the next bundle, stop the core or open a hush window (R98, R100, R101, R160, R200). -/

namespace Sys2Proof.Machine

theorem running_of_takesTrigger {s : State} {n : Nat} (h : takesTrigger s n = true) : (getCore s n).i.run = .running := by
  simp only [takesTrigger, mayIssue, issues, Bool.and_eq_true] at h
  exact beq_iff_eq.1 (by simp [h])

theorem targetCore_setCore {s : State} {n : Nat} {k : LensCore} (hrun : k.i.run = (getCore s n).i.run) (src : Nat) :
    targetCore (setCore s n k) src = targetCore s src := by
  have hall : ∀ m, (getCore (setCore s n k) m).i.run = (getCore s m).i.run := by
    intro m
    by_cases hm : m = n
    · rw [hm, getCore_setCore, hrun]
    · rw [getCore_setCore_ne _ hm]
  simp only [targetCore, isRetired, hall]
  rfl

/-- What wakes a core is pending at the router or its watchdog; a change of the core that leaves both alone leaves it pending. -/
theorem wakePending_setCore {s : State} {n : Nat} {k : LensCore} (hrun : k.i.run = (getCore s n).i.run) (hwd : k.e.wd20 = (getCore s n).e.wd20) :
    wakePending (setCore s n k) n = wakePending s n := by
  have hbest : (bestEvent (setCore s n k) n fun _ => true).isSome = (bestEvent s n fun _ => true).isSome := by
    simp only [bestEvent, targetCore_setCore hrun]
    rw [show (setCore s n k).router = s.router from rfl]
    cases s.router.pending.filter fun e => true && targetCore s e == some n <;> rfl
  rw [wakePending, wakePending, hbest, getCore_setCore, hwd]

/-- The core after a step that leads on to the bundle at `succ`. -/
def ctlNext (k : LensCore) (succ : Nat) : LensCore := modIssue (ctlEnd k) fun i => { i with pc := BitVec.ofNat 32 succ }

theorem endsActive_ctlEnd {k : LensCore} {off : Nat} (hend : endsActive k off = false) : endsActive (ctlEnd k) off = false := by
  obtain ⟨rem, hend', stepping, hk⟩ := ctlEnd_eq k
  rw [hk]
  exact (endsActive_congr rfl rfl off).trans hend

theorem ctlNext_eq (k : LensCore) (succ : Nat) : ∃ rem hend stepping, ctlNext k succ = { k with
    r := { k.r with hushRem := rem }, e := { k.e with hushEnd := hend }, lp := { k.lp with pass := false, stepping }
    i := { k.i with pc := BitVec.ofNat 32 succ, steps := k.i.steps + 1, drain := false, dueStep := none, wait5 := none, fence := false, first := false,
                    resumeRep := false } } := by
  obtain ⟨rem, hend, stepping, h⟩ := ctlEnd_eq k
  exact ⟨rem, hend, stepping, by rw [ctlNext, h]; rfl⟩

section After

variable {s : State} {n code off : Nat} {a : Word} (hoff : (getCore s n).i.pc.toNat = off) (hend : endsActive (getCore s n) off = false)
include hoff hend

/-- What each of the operations leaves of the core (R98). -/
theorem afterStep_fence : afterStep (setCore s n (ctlEnd (getCore s n))) n (ctlWork s n code a .fence none) =
    setCore s n (modIssue (ctlNext (getCore s n) (off + 8)) fun i => { i with fence := true }) := by
  simp [afterStep, ctlWork, soloWork, modCore_setCore, hoff, sequence_of_not_endsActive (endsActive_ctlEnd hend), ctlNext]

theorem afterStep_trap : afterStep (setCore s n (ctlEnd (getCore s n))) n (ctlWork s n code a .trap none) =
    setCore s n (modIssue (ctlNext (getCore s n) (off + 8)) fun i =>
      { i with fault := some { mkFault (off + 8) 0x1A 0 false none none with sw := a.toNat % 256 }, delay := none }) := by
  simp [afterStep, ctlWork, soloWork, modCore_setCore, hoff, sequence_of_not_endsActive (endsActive_ctlEnd hend), ctlNext]

theorem afterStep_sleep : afterStep (setCore s n (ctlEnd (getCore s n))) n (ctlWork s n code a .sleep none) =
    setCore s n (if wakePending s n then closeHush (ctlNext (getCore s n) (off + 8))
      else modIssue (closeHush (ctlNext (getCore s n) (off + 8))) fun i => { i with run := .sleeping }) := by
  obtain ⟨rem, hend', stepping, hk⟩ := ctlNext_eq (getCore s n) (off + 8)
  have hwake : wakePending (setCore s n (closeHush (ctlNext (getCore s n) (off + 8)))) n = wakePending s n :=
    wakePending_setCore (by rw [hk]; rfl) (by rw [hk]; rfl)
  have hstep : afterStep (setCore s n (ctlEnd (getCore s n))) n (ctlWork s n code a .sleep none) =
      if wakePending (setCore s n (closeHush (ctlNext (getCore s n) (off + 8)))) n then setCore s n (closeHush (ctlNext (getCore s n) (off + 8)))
      else setCore s n (modIssue (closeHush (ctlNext (getCore s n) (off + 8))) fun i => { i with run := .sleeping }) := by
    simp [afterStep, ctlWork, soloWork, modCore_setCore, hoff, sequence_of_not_endsActive (endsActive_ctlEnd hend), ctlNext]
    rfl
  rw [hstep, hwake, ← apply_ite (setCore s n)]

theorem afterStep_halt : afterStep (setCore s n (ctlEnd (getCore s n))) n (ctlWork s n code a .halt none) =
    let k := closeHush (ctlNext (getCore s n) (off + 8))
    setCore s n { k with i := { k.i with run := .halted }, e := wdPause s.tb k.e } := by
  simp [afterStep, ctlWork, soloWork, modCore_setCore, hoff, sequence_of_not_endsActive (endsActive_ctlEnd hend), ctlNext]

theorem afterStep_hush : afterStep (setCore s n (ctlEnd (getCore s n))) n (ctlWork s n code a .hush none) =
    doHush (setCore s n (ctlNext (getCore s n) (off + 8))) n a := by
  simp [afterStep, ctlWork, soloWork, modCore_setCore, hoff, sequence_of_not_endsActive (endsActive_ctlEnd hend), ctlNext]

theorem afterStep_flush : afterStep (setCore s n (ctlEnd (getCore s n))) n (ctlWork s n code a .flush none) =
    let x := (sk (ctlEnd (getCore s n)) 0x260).toNat
    setCore s n (modIssue (flushRange (ctlEnd (getCore s n)) n a.toNat x) fun i =>
      { i with pc := BitVec.ofNat 32 (off + 8), fills := max i.fills (flushFills (isDet s n) a.toNat x) }) := by
  have hflush : endsActive (flushRange (ctlEnd (getCore s n)) n a.toNat (sk (ctlEnd (getCore s n)) 0x260).toNat) off = false := by
    refine (endsActive_congr ?_ ?_ off).trans (endsActive_ctlEnd hend) <;> unfold flushRange <;> split <;> rfl
  simp [afterStep, ctlWork, soloWork, modCore_setCore, hoff, sequence_of_not_endsActive hflush]
  rfl

end After

/-- `ctl.hush` with n not 0 opens a window, or counts that it was ignored (R200). -/
def hushed (s : State) (n : Nat) (k : LensCore) (m : Byte) : LensCore :=
  if k.e.hushOk then
    { k with r := { k.r with hushRem := m }
             e := { k.e with hushOk := false, hushEnd := some (s.tb + 200), hushStop := k.i.steps + hushLimit (getCluster s (clusterOf n)).pace } }
  else { k with r := { k.r with hushIgn := if k.r.hushIgn = 0xFF#8 then 0xFF#8 else k.r.hushIgn + 1 } }

theorem doHush_setCore (s : State) (n : Nat) (k : LensCore) (a : Word) :
    doHush (setCore s n k) n a = setCore s n (if a.setWidth 8 = (0 : Byte) then k else hushed s n k (a.setWidth 8)) := by
  unfold doHush
  dsimp only
  by_cases hz : a.setWidth 8 = (0 : Byte)
  · rw [if_pos hz, if_pos hz]
  · rw [if_neg hz, if_neg hz, modCore_setCore]
    rfl

theorem byte_toNat (a : Word) : (a.setWidth 8).toNat = a.toNat % 256 := BitVec.toNat_setWidth ..

/-- The ignored count saturates (R200). -/
theorem hushIgn_toNat (b : Byte) : (if b = 0xFF#8 then 0xFF#8 else b + 1).toNat = min 255 (b.toNat + 1) := by
  have hlt := b.isLt
  split
  next hb => rw [hb]; rfl
  next hb =>
    have hne : b.toNat ≠ 255 := fun h => hb (BitVec.eq_of_toNat_eq h)
    rw [BitVec.toNat_add, show (1 : Byte).toNat = 1 from rfl]
    omega

/-- What a flush leaves of the line cache and the BTB (R101). -/
theorem flushRange_spec (k : LensCore) (n a x : Nat) : let k' := flushRange k n a x
    k' = { k with i := k'.i } ∧ k'.i.lines = [] ∧ k'.i.run = k.i.run ∧ k'.i.steps = k.i.steps ∧
      if x = 0 then k'.i.cache = [] ∧ k'.i.btb = [] else ∀ c ∈ k'.i.cache, overlaps c.1 32 ((apOf k n 0).start + a) x = false := by
  intro k'
  simp only [k', flushRange]
  by_cases hx : x = 0
  · simp only [if_pos hx]
    exact ⟨rfl, rfl, rfl, rfl, rfl, rfl⟩
  · simp only [if_neg hx]
    refine ⟨rfl, rfl, rfl, rfl, fun c hc => ?_⟩
    simpa using (List.mem_filter.1 hc).2

/-- What a flush leaves of the core, `succ` next (R98, R101). -/
theorem flushed_spec (k : LensCore) (n a succ : Nat) {f : Nat} (hf : 4 ≤ f) :
    let x := (sk k 0x260).toNat
    let k' := modIssue (flushRange (ctlEnd k) n a (sk (ctlEnd k) 0x260).toNat) fun i => { i with pc := BitVec.ofNat 32 succ, fills := max i.fills f }
    k'.g = k.g ∧ k'.bits = k.bits ∧ k'.u = k.u ∧ k'.q = k.q ∧ k'.st = k.st ∧ k'.i.steps = k.i.steps + 1 ∧ k'.i.pc = BitVec.ofNat 32 succ ∧
      CoreStep k k' ∧ k'.i.lines = [] ∧ 4 ≤ k'.i.fills ∧
      if x = 0 then k'.i.cache = [] ∧ k'.i.btb = [] else ∀ c ∈ k'.i.cache, overlaps c.1 32 ((apOf k n 0).start + a) x = false := by
  intro x k'
  obtain ⟨rem, hend, stepping, hk⟩ := ctlEnd_eq k
  have hx : sk (ctlEnd k) 0x260 = sk k 0x260 := by rw [hk]; rfl
  have hap : apOf (ctlEnd k) n 0 = apOf k n 0 := by rw [hk]; rfl
  obtain ⟨hF, hlines, hrun, hsteps, hcache⟩ := flushRange_spec (ctlEnd k) n a x
  rw [hap] at hcache
  have hk' : k' = modIssue (flushRange (ctlEnd k) n a x) fun i => { i with pc := BitVec.ofNat 32 succ, fills := max i.fills f } := by
    simp only [k', hx, x]
  rw [hk']
  generalize flushRange (ctlEnd k) n a x = k1 at hF hlines hrun hsteps hcache ⊢
  rw [hk] at hF hrun hsteps
  refine ⟨?_, ?_, ?_, ?_, ?_, hsteps, rfl, ⟨?_, ?_, ?_, ?_, ?_, ?_, hrun, hsteps⟩, hlines, hf.trans (Nat.le_max_right ..), hcache⟩
  all_goals rw [hF]; rfl

/-- Settles O15: each operation passes its checks, and what it leaves of its core is that of the `afterStep` lemmas. -/
theorem controlTriggersHoldOrStop : Obligations.ControlTriggersHoldOrStop := by
  unfold Obligations.ControlTriggersHoldOrStop
  intro s n a h k o hend done
  obtain ⟨rem, hend', stepping, hk⟩ := ctlNext_eq k (o + 8)
  have hfence := exec_control (c := .fence) (i := .ctlFence n a) (code := 0x26A) h rfl rfl hend rfl (.inr rfl) rfl (by decide) nofun
  rw [afterStep_fence rfl hend, hk] at hfence
  have htrap := exec_control (c := .trap) (i := .ctlTrap n a) (code := 0x267) h rfl rfl hend rfl (.inr rfl) rfl (by decide) nofun
  rw [afterStep_trap rfl hend, hk] at htrap
  have hsleep := exec_control (c := .sleep) (i := .ctlSleep n a) (code := 0x26C) h rfl rfl hend rfl (.inr rfl) rfl (by decide) nofun
  rw [afterStep_sleep rfl hend, hk] at hsleep
  have hflush := exec_control (c := .flush) (i := .ctlFlush n a) (code := 0x269) h rfl rfl hend rfl (.inr rfl) rfl (by decide) nofun
  rw [afterStep_flush rfl hend] at hflush
  refine ⟨?_, ?_, ?_, ?_, fun hsup => ⟨?_, ?_⟩⟩
  · refine ⟨_, hfence, onlyCore_setCore .., ?_⟩
    rw [getCore_setCore]
    exact ⟨rfl, rfl, rfl, rfl, rfl, rfl, rfl, ⟨⟨rfl, rfl, rfl, rfl, rfl, rfl, rfl, rfl⟩, rfl⟩⟩
  · refine ⟨_, htrap, onlyCore_setCore .., ?_⟩
    rw [getCore_setCore]
    exact ⟨rfl, rfl, rfl, rfl, rfl, rfl, rfl, ⟨⟨rfl, rfl, rfl, rfl, rfl, rfl, rfl, rfl⟩, rfl⟩⟩
  · cases hw : wakePending s n with
    | true =>
      rw [hw, if_pos rfl] at hsleep
      refine ⟨_, hsleep, onlyCore_setCore .., ?_⟩
      rw [getCore_setCore]
      exact ⟨rfl, rfl, rfl, rfl, rfl, rfl, rfl, ⟨rfl, rfl, running_of_takesTrigger h⟩⟩
    | false =>
      rw [hw, if_neg (by decide)] at hsleep
      refine ⟨_, hsleep, onlyCore_setCore .., ?_⟩
      rw [getCore_setCore]
      exact ⟨rfl, rfl, rfl, rfl, rfl, rfl, rfl, ⟨rfl, rfl, rfl⟩⟩
  · refine ⟨_, hflush, onlyCore_setCore .., ?_⟩
    rw [getCore_setCore]
    exact flushed_spec k n a.toNat (o + 8) (Nat.le_max_right ..)
  · have hhalt := exec_control (c := .halt) (i := .ctlHalt n a) (code := 0x26D) h rfl rfl hend rfl (.inl hsup) rfl (by decide) nofun
    rw [afterStep_halt rfl hend, hk] at hhalt
    refine ⟨_, hhalt, onlyCore_setCore .., ?_⟩
    rw [getCore_setCore]
    exact ⟨rfl, rfl, rfl, rfl, rfl, rfl, rfl, ⟨rfl, rfl, rfl⟩⟩
  · have hhush := exec_control (c := .hush) (i := .ctlHush n a) (code := 0x26B) h rfl rfl hend rfl (.inl hsup) rfl (by decide) nofun
    rw [afterStep_hush rfl hend, doHush_setCore, hk] at hhush
    by_cases hz : a.toNat % 256 = 0
    · rw [if_pos (BitVec.eq_of_toNat_eq (y := (0 : Byte)) ((byte_toNat a).trans hz))] at hhush
      refine ⟨_, hhush, onlyCore_setCore .., ?_⟩
      rw [getCore_setCore]
      refine ⟨rfl, rfl, rfl, rfl, rfl, rfl, rfl, ?_⟩
      beta_reduce
      rw [if_pos hz]
      exact ⟨rfl, rfl, rfl, rfl, rfl, rfl, rfl, rfl⟩
    · rw [if_neg fun he => hz ((byte_toNat a).symm.trans (congrArg BitVec.toNat he)), hushed] at hhush
      by_cases hok : k.e.hushOk = true
      · rw [if_pos hok] at hhush
        refine ⟨_, hhush, onlyCore_setCore .., ?_⟩
        rw [getCore_setCore]
        refine ⟨rfl, rfl, rfl, rfl, rfl, rfl, rfl, ?_⟩
        beta_reduce
        rw [if_neg hz, if_pos hok]
        exact ⟨byte_toNat a, rfl, rfl⟩
      · rw [if_neg hok] at hhush
        refine ⟨_, hhush, onlyCore_setCore .., ?_⟩
        rw [getCore_setCore]
        refine ⟨rfl, rfl, rfl, rfl, rfl, rfl, rfl, ?_⟩
        beta_reduce
        rw [if_neg hz, if_neg hok]
        exact ⟨hushIgn_toNat _, Bool.eq_false_iff.2 hok⟩

end Sys2Proof.Machine

/-! SUPPORT. The bitu unit on shared bits: one bit of the cluster's bit store read and changed in its word (R54, R55, R96). -/

namespace Sys2Proof.Machine

/-- Word `v` with bit `j` set to `b`. -/
def withWordBit (v : BitVec 64) (j : Nat) (b : Bool) : BitVec 64 := if b then v ||| 1#64 <<< j else v &&& ~~~(1#64 <<< j)

theorem getLsbD_withWordBit (v : BitVec 64) {i j : Nat} (hi : i < 64) (b : Bool) :
    (withWordBit v j b).getLsbD i = if i = j then b else v.getLsbD i := by
  have hone : (1#64 <<< j).getLsbD i = decide (i = j) := by
    rw [BitVec.getLsbD_shiftLeft, BitVec.getLsbD_one, decide_eq_true hi]
    by_cases hij : i = j
    · simp [hij]
    · simp [hij]
      omega
  unfold withWordBit
  cases b
  · simp only [Bool.false_eq_true, if_false, BitVec.getLsbD_and, BitVec.getLsbD_not, hone, decide_eq_true hi]
    by_cases hij : i = j <;> simp [hij]
  · simp only [if_true, BitVec.getLsbD_or, hone]
    by_cases hij : i = j <;> simp [hij]

/-- With no other access to the word pending an access meets nothing (R55). -/
theorem meetWord_alone {s : State} {n w : Nat} (hr : rivalOf s n w = none) (wr : Bool) : meetWord s n w wr = s := by
  have hnil : rivalsOf s n w = [] := List.head?_eq_none_iff.1 hr
  unfold meetWord
  simp only [hnil, List.filter_nil, List.foldl_nil, rivalOf, List.head?_nil, ite_self]
  split <;> rfl

theorem sharedBit_alone {s : State} {n i : Nat} (hr : rivalOf s n (bitWord n i) = none) (he : eccOf s (bitWord n i) = 0) (o : BitOp) :
    let v := rawWord s (bitWord n i)
    let old := v.getLsbD (i % 64)
    sharedBit s n i o = ((o.newBit old).elim s fun b => setRawWord s (bitWord n i) (withWordBit v (i % 64) b), old) := by
  intro v old
  unfold sharedBit
  simp only [meetWord_alone hr, checkWord_clean he]
  cases hb : o.newBit old <;> simp only [v, old] at hb ⊢ <;> rfl

/-- The rivals of a core are other cores. -/
theorem rivalOf_setCore (s : State) (n w : Nat) (k : LensCore) : rivalOf (setCore s n k) n w = rivalOf s n w := by
  unfold rivalOf rivalsOf
  split
  · rfl
  · congr 1
    refine List.filter_congr fun m _ => ?_
    by_cases hm : m = n
    · simp [hm]
    · rw [getCore_setCore_ne _ hm]

/-- A core set and then changed, memory apart. -/
theorem modCore_withMem (s : State) (n : Nat) (k : LensCore) (m : List Host.Cell) (f : LensCore → LensCore) :
    modCore { setCore s n k with mem := m } n f = { setCore s n (f k) with mem := m } := by
  have hcore : getCore ({ setCore s n k with mem := m } : State) n = k := getCore_setCore ..
  have hset := setCore_setCore s n (f k) k
  rw [modCore, hcore, ← hset]
  rfl

section Shared

variable {s : State} {n : Nat} {a : Word} {o : BitOp} {c : Instr} (h : takesTrigger s n = true)
  (hexec : exec c s = .next (soloTrigger s n (bituCode o) a)) (hn : n < 128) (ha : 0x10000 ≤ a.toNat) (ha' : a.toNat < 0x20000)
  (he : eccOf s (bitWord n (a.toNat - 0x10000)) = 0) (hr : rivalOf s n (bitWord n (a.toNat - 0x10000)) = none) (ho : o.byAddress = true)
include h hexec hn ha ha' he hr ho

omit h hexec he hr ho in
theorem bitPlace_shared : bitPlace n a = .shared (a.toNat - 0x10000) := by
  rw [bitPlace, if_neg (by omega), if_pos ⟨ha, ha', by omega⟩]

/-- A bit-address operation on a shared bit of a clean word with no rival (R54, R96). -/
theorem bitu_shared_done :
    let i := a.toNat - 0x10000
    let w := bitWord n i
    let old := (rawWord s w).getLsbD (i % 64)
    CoreMemDone s n c (withSock s n 0x252 (if old then 1 else 0))
      (if o.writesKd then withBit s n ((sockOf s n 0x251).toNat % 256) old else (getCore s n).bits)
      ((o.newBit old).elim s fun b => setRawWord s w (withWordBit (rawWord s w) (i % 64) b)).mem := by
  intro i w old
  have hplace := bitPlace_shared hn ha ha'
  have hd : hasDup (bitsWritten n (getCore s n) (soloMove (bituCode o) a) a) = false := by
    rw [bitsWritten_bitu]
    simp only [bituWrites, hplace, ho, List.nil_append]
    split
    · exact hasDup_filter_singleton ..
    · rfl
  have hcheck : bituCheck s n o a = (s, none) := by
    simp only [bituCheck, ho, hplace, he]
    rfl
  refine coreMemDone_of_trig h hexec (trigOf_bitu o) (show 5 ≠ 6 by decide) (unitAbsent_bitu s o) hd rfl (p := 0) (q := 0) (by simp [trigCheck, hcheck]) _ _ _ ?_
  have hshared := sharedBit_alone (s := setCore s n (getCore s n)) (i := i) ((rivalOf_setCore ..).trans hr) he o
  have htrig : trigDo s (setCore s n (getCore s n)) n (getCore s n) { op := .bitu o, a, p := 0, q := 0, second := false } =
      modCore (sharedBit (setCore s n (getCore s n)) n i o).1 n fun k =>
        bituOut k o ((sockOf s n 0x251).toNat % 256) (sharedBit (setCore s n (getCore s n)) n i o).2 := by
    simp only [trigDo, bituDo, ho, hplace, getCore_setCore]
    rfl
  have hout : bituOut (getCore s n) o ((sockOf s n 0x251).toNat % 256) old = { getCore s n with
      u := withSock s n 0x252 (if old then 1 else 0)
      bits := if o.writesKd then withBit s n ((sockOf s n 0x251).toNat % 256) old else (getCore s n).bits } := bituOut_eq ..
  rw [htrig, hshared, ← hout]
  simp only [show rawWord (setCore s n (getCore s n)) (bitWord n i) = rawWord s w from rfl]
  have hmem : (o.newBit old).elim (setCore s n (getCore s n)) (fun b => setRawWord (setCore s n (getCore s n)) w (withWordBit (rawWord s w) (i % 64) b)) =
      { setCore s n (getCore s n) with mem := ((o.newBit old).elim s fun b => setRawWord s w (withWordBit (rawWord s w) (i % 64) b)).mem } := by
    cases o.newBit old <;> rfl
  exact (congrArg (fun t => modCore t n fun k => bituOut k o ((sockOf s n 0x251).toNat % 256) old) hmem).trans (modCore_withMem ..)

end Shared

/-- Settles O9: the word's other bits and every other byte stand, the bit itself becomes what the operation makes of it. -/
theorem bituSharedBitAtomic : Obligations.BituSharedBitAtomic := by
  unfold Obligations.BituSharedBitAtomic
  intro s n a h hn hwf ha ha' k i w he hr old kd done
  have hset : ∀ (o : BitOp) (c : Instr) (b : Bool), exec c s = .next (soloTrigger s n (bituCode o) a) → o.byAddress = true →
      o.newBit old = some b → done c b (if o.writesKd then withBit s n kd old else k.bits) := by
    intro o c b hexec ho hb
    obtain ⟨t, hrun, ht, hothers, hstep, hu, hbits, hmem⟩ := bitu_shared_done h hexec hn ha ha' he hr ho
    rw [show o.newBit ((rawWord s (bitWord n (a.toNat - 0x10000))).getLsbD ((a.toNat - 0x10000) % 64)) = some b from hb, Option.elim_some] at hmem
    have hraw : rawWord t w = withWordBit (rawWord s w) (i % 64) b := by
      refine Eq.trans ?_ (rawWord_setRawWord_same hwf w _)
      simp only [rawWord, hmem]
      rfl
    refine ⟨t, hrun, ht, hothers, hstep, hu, hbits, fun j hj => ?_, fun x hx => ?_⟩
    · rw [hraw, getLsbD_withWordBit _ hj]
    · rw [hmem]
      exact (read_setRawWord hwf w _ x).trans (if_neg (by omega))
  refine ⟨?_, hset .set _ true rfl rfl rfl, hset .clr _ false rfl rfl rfl, hset .tgl _ _ rfl rfl rfl, hset .tas _ true rfl rfl rfl⟩
  obtain ⟨t, hrun, ht, hothers, hstep, hu, hbits, hmem⟩ := bitu_shared_done (o := .tst) (c := .bituTst n a) h rfl hn ha ha' he hr rfl
  refine ⟨t, hrun, ht, hothers, hstep, hu, hbits, fun j hj => ?_, fun x _ => congrArg (Mem.read x) hmem⟩
  have hraw : rawWord t w = rawWord s w := congrArg (fun m => BitVec.ofNat 64 (ofLe (Mem.readAll (8 * w) 8 m))) hmem
  rw [hraw]
  split
  next hj' => rw [hj']
  next => rfl

end Sys2Proof.Machine

/-! SUPPORT. The copy unit's park and resume, and the start of the beam operations (R105, R107, R214, R217). -/

namespace Sys2Proof.Machine

/-! ### Records in own scratch (R105) -/

/-- A record that passes its check starts on a word (R105). -/
theorem recordCheck_aligned {s : State} {n a p q : Nat} {sup : Bool} {d : Dir} (h : recordCheck s n sup d a = .ok p q) : p % 8 = 0 := by
  unfold recordCheck at h
  dsimp only at h
  iterate 5 (split at h; · cases h)
  split at h
  · cases h
  next ha =>
    split at h
    · cases h
    · split at h
      · cases h
        simp only [Aperture.start]
        omega
      · cases h

/-- The 8-byte words of a range of own scratch, read through a port where they are clean. -/
theorem portReadBytes_scratch {s : State} {n p len f : Nat} (hn : n ≤ 129) (hp : p + len ≤ 0x10000) (ha : p % 8 = 0) (hl : len % 8 = 0) (hf : len ≤ 8 * f)
    (he : ∀ i, i < len / 8 → eccOf s ((scratchBase n + p) / 8 + i) = 0) :
    portReadBytes f s (scratchBase n + p) len = (s, Mem.readAll (scratchBase n + p) len s.mem, false) := by
  have hbase : scratchBase n = 0x100000000 + n * 0x10000 := rfl
  refine portReadBytes_clean f hf (by omega) hl (fun x h1 h2 => bankAt_high (by omega)) fun x h1 h2 => ?_
  rw [show x / 8 = (scratchBase n + p) / 8 + (x / 8 - (scratchBase n + p) / 8) by omega]
  exact he _ (by omega)

/-- A record of 32 octets of 0 says no operation; one with a reserved octet set says nothing (R105). -/
theorem parseRecord_zero : parseRecord (List.replicate 32 0) = .none := by decide

theorem parseRecord_reserved : parseRecord (List.replicate 31 0 ++ [1]) = .bad := by decide

section Copy

variable {s : State} {n p : Nat} {a : Word} (h : takesTrigger s n = true) (hidle : (getCore s n).u.copy = none) (hp : p + 32 ≤ 0x10000)
include h hidle hp

/-- The operation a park of an idle unit makes busy with: the park alone. -/
def parkAlone (s : State) (n g : Nat) : CopyOp :=
  { kind := .none, trig := (getCore s n).i.steps, lat := 8, src := 0, dst := 0, srcP := 0, dstP := 0, left := 0, done := 0, down := false, seg := 0,
    word := 0, remote := 0, since := s.tb, park := some g }

theorem park_done (hc : recordCheck s n (isSup (getCore s n)) .write a.toNat = .ok p 0) :
    UnitDone s n (.copyPark n a) { (getCore s n).u with copy := some (parkAlone s n (scratchBase n + p)) } (getCore s n).bits :=
  solo_unit_done (code := 0x277) (o := .copy .park) h rfl (show 7 ≠ 6 by decide) rfl (no_bits rfl nofun nofun) rfl (p := p) (q := 0)
    (by simp [trigCheck, hidle, hc]) _ rfl { getCore s n with u := { (getCore s n).u with copy := some (parkAlone s n (scratchBase n + p)) } }
    (by simp only [trigDo, copyPark, getCore_setCore, hidle, modCore_setCore, globalOf_scratch n (show p < 0x10000 by omega)]; rfl) rfl

/-- A resume of a record that starts no operation ends with `st`. -/
theorem resume_done (hc : recordCheck s n (isSup (getCore s n)) .read a.toNat = .ok p 0) (he : ∀ i, i < 4 → eccOf s ((scratchBase n + p) / 8 + i) = 0)
    {st : Word} (hrec : parseRecord (Mem.readAll (scratchBase n + p) 32 s.mem) = .none ∧ st = 0 ∨
      parseRecord (Mem.readAll (scratchBase n + p) 32 s.mem) = .bad ∧ st = 4) :
    UnitDone s n (.copyResume n a) { (getCore s n).u with copy := none, sk := Tab.put 0x27A st (Tab.put 0x279 0 (getCore s n).u.sk) } (getCore s n).bits := by
  have hn := core_le_of_takesTrigger h
  have hg := globalOf_scratch n (show p < 0x10000 by omega)
  have hread := portReadBytes_scratch (s := s) (f := 6) hn hp (recordCheck_aligned hc) (by decide) (by decide) he
  have hread' := portReadBytes_scratch (s := setCore s n (getCore s n)) (f := 6) hn hp (recordCheck_aligned hc) (by decide) (by decide) he
  have hcheck : resumeCheck s n (isSup (getCore s n)) p = .ok 0 0 := by
    unfold resumeCheck
    rcases hrec with ⟨hrec, -⟩ | ⟨hrec, -⟩ <;> simp only [hg, hread, hrec, Bool.false_eq_true, if_false]
  have hresume : copyResume (setCore s n (getCore s n)) n p 0 0 = copyDone (setCore s n (getCore s n)) n st 0 := by
    unfold copyResume
    rw [hg, hread']
    rcases hrec with ⟨hrec, rfl⟩ | ⟨hrec, rfl⟩ <;>
      simp only [show (setCore s n (getCore s n)).mem = s.mem from rfl, hrec, Bool.false_eq_true, if_false]
    · rfl
    · rfl
  refine solo_unit_done (code := 0x278) (o := .copy .resume) h rfl (show 7 ≠ 6 by decide) rfl (no_bits rfl nofun nofun) rfl (p := p) (q := 0)
    (by simp [trigCheck, hidle, hc, hcheck]) _ rfl
    { getCore s n with u := { (getCore s n).u with copy := none, sk := Tab.put 0x27A st (Tab.put 0x279 0 (getCore s n).u.sk) } } ?_ rfl
  simp only [trigDo, hcheck, hresume, copyDone, modCore_setCore]
  rfl

end Copy

/-- Settles O19: the park of an idle unit, the two records that start nothing, and a resume while an operation is active. -/
theorem copyParkAndResume : Obligations.CopyParkAndResume := by
  unfold Obligations.CopyParkAndResume
  intro s n a p h k g units
  refine ⟨fun hidle hc hp => ⟨_, rfl, rfl, rfl, rfl, park_done h hidle hp hc⟩, fun hidle hc hp he => ⟨fun hz => ?_, fun hr => ?_⟩, fun hbusy => ?_⟩
  · exact resume_done h hidle hp hc he (.inl ⟨hz ▸ parseRecord_zero, rfl⟩)
  · exact resume_done h hidle hp hc he (.inr ⟨hr ▸ parseRecord_reserved, rfl⟩)
  · have hcheck : trigCheck s n (getCore s n) (.copy .resume) a = (s, .bad 6 none) := by
      have hsome : (getCore s n).u.copy.isSome = true := Option.isSome_iff_ne_none.2 hbusy
      simp only [trigCheck, hsome, if_true]
    obtain ⟨t, hexec, honly, hf, hu, hbits, hg, hr, -⟩ := trapped_of_bad (c := .copyResume n a) (code := 0x278) (o := .copy .resume) h rfl rfl rfl
      (show 7 ≠ 6 by decide) (no_bits rfl nofun nofun) rfl hcheck
    exact ⟨t, _, hexec, honly, hf, rfl, hu, hbits, hg, hr⟩

/-! ### The beam unit (R107, R214, R217) -/

/-- The trigger code of a beam operation (R107). -/
def beamCode : BeamKind → Nat
  | .find => 0x283
  | .lock => 0x284
  | .commit => 0x285
  | .drop => 0x286
  | .new => 0x287

theorem trigOf_beam (o : BeamKind) : trigOf (beamCode o) = some (.beam o) := by cases o <;> rfl

theorem unitAbsent_beam (s : State) (o : BeamKind) : unitAbsent s (beamCode o) = false := by cases o <;> rfl

/-- The buffer of a beam trigger is 64-octet aligned in its aperture and inside the scratch. -/
theorem beamCheck_ok {s : State} {n : Nat} {sup : Bool} {buf : Word} {p q : Nat} (h : beamCheck s n sup buf = .ok p q) : p % 8 = 0 ∧ p + 64 ≤ 0x10000 := by
  unfold beamCheck at h
  dsimp only at h
  iterate 2 (split at h; · cases h)
  split at h
  · cases h
  next hin =>
    cases h
    simp only [not_or, not_lt] at hin
    refine ⟨?_, hin.2.2⟩
    simp only [Aperture.start]
    omega

section Beam

variable {s : State} {n p : Nat} {a : Word} (h : takesTrigger s n = true) (hidle : (getCore s n).u.beam = none) (hst : (getCore s n).u.stores = [])
include h hidle hst

omit h in
/-- An idle unit with an empty store buffer holds no beam trigger (R217). -/
theorem no_beam_hold (o : BeamKind) (k1 : LensCore) : trigHold s n k1 (.beam o) a = .none := by
  cases o <;> simp [trigHold, hidle, hst]

/-- The octets an operation hands to the engine: those of the buffer for a commit (R107). -/
def beamData (s : State) (n p : Nat) (o : BeamKind) : Octets := if o = .commit then Mem.readAll (scratchBase n + p) 64 s.mem else []

theorem beam_done {o : BeamKind} {c : Instr} (hexec : exec c s = .next (soloTrigger s n (beamCode o) a))
    (hc : beamCheck s n (isSup (getCore s n)) (sockOf s n 0x280) = .ok p 0) (he : ∀ i, i < 8 → eccOf s ((scratchBase n + p) / 8 + i) = 0) :
    UnitDone s n c { (getCore s n).u with beam := some { kind := o, trig := (getCore s n).i.steps, arg := a, buf := p, data := beamData s n p o, res := none } }
      (getCore s n).bits := by
  obtain ⟨halign, hfit⟩ := beamCheck_ok hc
  have hread := portReadBytes_scratch (s := setCore s n (getCore s n)) (f := 9) (core_le_of_takesTrigger h) hfit halign (by decide) (by decide) he
  refine solo_unit_done h (trigOf_beam o) (show 8 ≠ 6 by decide) (unitAbsent_beam s o) (no_bits (trigOf_beam o) nofun nofun) (no_beam_hold hidle hst o _)
    (p := p) (q := 0) hc c hexec { getCore s n with u := { (getCore s n).u with
      beam := some { kind := o, trig := (getCore s n).i.steps, arg := a, buf := p, data := beamData s n p o, res := none } } } ?_ rfl
  unfold trigDo startBeam beamData
  by_cases ho : o = .commit
  · simp only [if_pos ho, hread, modCore_setCore]
    rfl
  · simp only [if_neg ho, modCore_setCore]

theorem beam_traps {o : BeamKind} {c : Instr} (hexec : exec c s = .next (soloTrigger s n (beamCode o) a)) (hkind : (apOf (getCore s n) n 1).kind ≠ 3)
    (hlimit : (apOf (getCore s n) n 1).limit.toNat < (sockOf s n 0x280).toNat / 64 * 64 + 63) :
    ∃ t f, exec c s = .next t ∧ OnlyCore n s t ∧ (getCore t n).i.fault = some f ∧ f.cause = 0x10 ∧ (getCore t n).u = (getCore s n).u := by
  have hcheck : trigCheck s n (getCore s n) (.beam o) a = (s, badAt 0x10 ((apOf (getCore s n) n 1).start + (sockOf s n 0x280).toNat / 64 * 64)) := by
    show (s, beamCheck s n (isSup (getCore s n)) (sockOf s n 0x280)) = _
    simp only [beamCheck, if_neg hkind, if_pos hlimit]
  obtain ⟨t, hrun, honly, hf, hu, -⟩ := trapped_of_bad h hexec (trigOf_beam o) (unitAbsent_beam s o) (show 8 ≠ 6 by decide)
    (no_bits (trigOf_beam o) nofun nofun) (no_beam_hold hidle hst o _) hcheck
  exact ⟨t, _, hrun, honly, hf, rfl, hu⟩

end Beam

/-- Settles O20: each trigger only makes the unit busy, a commit with what its buffer holds. -/
theorem beamTriggersStartOperation : Obligations.BeamTriggersStartOperation := by
  unfold Obligations.BeamTriggersStartOperation
  intro s n a p h hidle hst k buf op
  refine ⟨fun hc he => ⟨beam_done (o := .find) h hidle hst rfl hc he, beam_done (o := .lock) h hidle hst rfl hc he,
    beam_done (o := .commit) h hidle hst rfl hc he, beam_done (o := .drop) h hidle hst rfl hc he, beam_done (o := .new) h hidle hst rfl hc he⟩, ?_⟩
  intro hkind hlimit c hmem
  simp only [List.mem_cons, List.not_mem_nil, or_false] at hmem
  rcases hmem with rfl | rfl | rfl | rfl | rfl
  · exact beam_traps (o := .find) h hidle hst rfl hkind hlimit
  · exact beam_traps (o := .lock) h hidle hst rfl hkind hlimit
  · exact beam_traps (o := .commit) h hidle hst rfl hkind hlimit
  · exact beam_traps (o := .drop) h hidle hst rfl hkind hlimit
  · exact beam_traps (o := .new) h hidle hst rfl hkind hlimit

end Sys2Proof.Machine

/-! SUPPORT. The start of move, fill and crc: the operation entered, its packet, the answer of banks of the own cluster (R102 to R106, R168, R288). -/

namespace Sys2Proof.Machine

/-- The operation a copy trigger starts (R102, R104, R106). -/
def copyStarted (s : State) (n : Nat) (kind : CopyKind) (a : Word) (p q remote : Nat) : CopyOp :=
  let len := copyLen (sockOf s n 0x271)
  { kind, trig := (getCore s n).i.steps, lat := copyLatency kind (sockOf s n 0x270).toNat a.toNat len, src := sockOf s n 0x270, dst := a, srcP := p, dstP := q,
    left := len, done := 0, down := kind == .move && decide (p < q) && decide (q < p + len), seg := sockOf s n 0x272,
    word := if kind = .crc then ~~~(sockOf s n 0x273) else sockOf s n 0x273, remote, since := s.tb, park := none }

/-- The operation goes to the banks of a cluster through the fabric's ports (R103). -/
def copyFar (s : State) (n : Nat) (kind : CopyKind) : Prop :=
  segRmt (sockOf s n 0x272) = true ∧ kind.usesDst = true ∧ copyLen (sockOf s n 0x271) ≠ 0

/-- The core with the operation in its unit. -/
def copyBusy (s : State) (n : Nat) (o : CopyOp) : LensCore := { getCore s n with u := { (getCore s n).u with copy := some o } }

section Start

variable {s : State} {n p q : Nat} {kind : CopyKind} {a : Word}

theorem copyTrigger_near (hnear : ¬ copyFar s n kind) :
    copyTrigger (setCore s n (getCore s n)) n kind a p q = setCore s n (copyBusy s n (copyStarted s n kind a p q 0)) := by
  unfold copyFar sockOf at hnear
  simp only [copyTrigger, getCore_setCore, if_neg hnear, copyStart, modCore_setCore, if_true]
  rfl

theorem copyTrigger_far (hfar : copyFar s n kind) : copyTrigger (setCore s n (getCore s n)) n kind a p q =
    copyStart (setCore s n (getCore s n)) n (copyStarted s n kind a p q 1) := by
  unfold copyFar sockOf at hfar
  simp only [copyTrigger, getCore_setCore, if_pos hfar]
  rfl

/-- A remote operation sends its packet towards the cluster of its destination (R103, R288). -/
theorem copyStart_sends (o : CopyOp) (ho : o.remote = 1) {hop : Nat} {rest : List Nat} (hroute : routeOfCopy n (segCl o.seg) = hop :: rest) :
    copyStart (setCore s n (getCore s n)) n o = setHopQueue (setCore s n (copyBusy s n o)) hop 2
      (hopQueue s hop 2 ++ [{ kind := .remoteCopy, flits := dataFlits o.left, route := rest, poison := false, body := .copy n }]) := by
  simp only [copyStart, modCore_setCore, ho, hroute, if_neg (show ¬ 1 = 0 by decide)]
  rfl

/-- One to the own cluster is answered by its banks at once (R105, R168). -/
theorem copyStart_answered (o : CopyOp) (ho : o.remote = 1) (hroute : routeOfCopy n (segCl o.seg) = []) :
    copyStart (setCore s n (getCore s n)) n o = remoteAnswer (setCore s n (copyBusy s n o)) n := by
  simp only [copyStart, modCore_setCore, ho, hroute, if_neg (show ¬ 1 = 0 by decide)]
  rfl

theorem remoteAnswer_open (o : CopyOp) (hopen : banksOpen s o.dstP o.left = true) :
    remoteAnswer (setCore s n (copyBusy s n o)) n = setCore s n (copyBusy s n { o with remote := 2 }) := by
  have hopen' : banksOpen (setCore s n (copyBusy s n o)) o.dstP o.left = true := hopen
  simp only [remoteAnswer, getCore_setCore, copyBusy] at hopen' ⊢
  simp only [hopen', modCore_setCore, if_true]

theorem remoteAnswer_closed (o : CopyOp) (hclosed : banksOpen s o.dstP o.left = false) {c k : Nat} (hbank : bankAt o.dstP = some (c, k)) :
    remoteAnswer (setCore s n (copyBusy s n o)) n = setClevt (setCore s n (copyBusy s n { o with remote := 3 })) c (1#32 <<< 27) := by
  have hclosed' : banksOpen (setCore s n (copyBusy s n o)) o.dstP o.left = false := hclosed
  simp only [remoteAnswer, getCore_setCore, copyBusy] at hclosed' ⊢
  simp only [hclosed', hbank, modCore_setCore, Bool.false_eq_true, if_false]

end Start

/-- The destination of a remote operation lies in a bank of the cluster it names (R103). -/
theorem bankAt_of_copyCheck {s : State} {n p q src dst len : Nat} {sup : Bool} {kind : CopyKind} {seg : Word}
    (h : copyCheck s n sup kind seg src dst len = .ok p q) (hr : segRmt seg = true) (hk : kind.usesDst = true) (hl : len ≠ 0) :
    ∃ k, bankAt q = some (segCl seg, k) := by
  have hq : remoteDst s (segCl seg) dst len = .ok q := by
    simp only [copyCheck, if_neg hl, hk, hr, Bool.not_true, Bool.false_eq_true, if_false, if_true] at h
    split at h
    · cases h
    · split at h
      · cases h
      next hdst => cases h; exact hdst
  have hcl : nClusters s ≤ 32 := by
    unfold nClusters
    split <;> omega
  unfold remoteDst bankBase at hq
  split at hq
  next hin =>
    obtain ⟨hc, hlo, hhi⟩ := hin
    have hq' := Checked.ok.inj hq
    refine ⟨q % 0x100000 / 0x40000, ?_⟩
    rw [bankAt, if_pos (by omega), show (q - 0x01000000) / 0x100000 = segCl seg by omega]
  · cases hq

/-- CLEVT bits set change the cluster and what it raises (R178). -/
theorem setClevt_spec (s : State) (c : Nat) (mask : Word) :
    let t := setClevt s c mask
    t = { s with clusters := t.clusters, router := t.router } ∧ (getCluster t c).clevt = (getCluster s c).clevt ||| mask := by
  unfold setClevt
  dsimp only
  split
  · exact ⟨rfl, congrArg Cluster.clevt (getCluster_setCluster ..)⟩
  · exact ⟨rfl, congrArg Cluster.clevt (getCluster_setCluster ..)⟩

section Done

variable {s : State} {n code : Nat} {a : Word} {p q : Nat} {c : Instr} {t : CopyTrig} (h : takesTrigger s n = true)
  (hidle : (getCore s n).u.copy = none) (hst : (getCore s n).u.stores = []) (hexec : exec c s = .next (soloTrigger s n code a))
  (ht : trigOf code = some (.copy t)) (hu : unitAbsent s code = false) (hk : copyKindOf t ≠ .none)
  (hc : copyCheck s n (isSup (getCore s n)) (copyKindOf t) (sockOf s n 0x272) (sockOf s n 0x270).toNat a.toNat (copyLen (sockOf s n 0x271)) = .ok p q)
include h hidle hst hexec ht hu hk hc

omit h hexec ht hu in
/-- An idle unit with an empty store buffer starts the operation once its ranges pass (R104). -/
theorem copy_passes : trigHold s n (getCore s n) (.copy t) a = .none ∧ (trigCheck s n (getCore s n) (.copy t) a).2 = .ok p q ∧
    ∀ p q, trigDo s (setCore s n (getCore s n)) n (getCore s n) { op := .copy t, a, p, q, second := false } =
      copyTrigger (setCore s n (getCore s n)) n (copyKindOf t) a p q := by
  cases t with
  | park => exact absurd rfl hk
  | resume => exact absurd rfl hk
  | move | fill | crc =>
    refine ⟨by simp [trigHold, hst], ?_, fun _ _ => rfl⟩
    simp only [trigCheck, hidle, Option.isSome_none, Bool.false_eq_true, if_false]
    exact hc

theorem copy_near (hnear : ¬ copyFar s n (copyKindOf t)) :
    UnitDone s n c { (getCore s n).u with copy := some (copyStarted s n (copyKindOf t) a p q 0) } (getCore s n).bits := by
  obtain ⟨hh, hcheck, hdo⟩ := copy_passes hidle hst hk hc
  exact solo_unit_done h ht (show 7 ≠ 6 by decide) hu (no_bits ht nofun nofun) hh hcheck c hexec (copyBusy s n (copyStarted s n (copyKindOf t) a p q 0))
    ((hdo p q).trans (copyTrigger_near hnear)) rfl

/-- A remote operation, its unit busy with it as `remote` says; `t0` is the device it leaves. -/
theorem copy_far (hfar : copyFar s n (copyKindOf t)) {t0 : State} {o : CopyOp}
    (hstart : copyStart (setCore s n (getCore s n)) n (copyStarted s n (copyKindOf t) a p q 1) = t0)
    (hcores : t0.cores = (setCore s n (copyBusy s n o)).cores) :
    ∃ t1, exec c s = .next t1 ∧ t1 = { t0 with cores := t1.cores } ∧ (∀ m, m ≠ n → getCore t1 m = getCore s m) ∧
      CoreStep (getCore s n) (getCore t1 n) ∧ (getCore t1 n).u = { (getCore s n).u with copy := some o } ∧ (getCore t1 n).bits = (getCore s n).bits := by
  obtain ⟨hh, hcheck, hdo⟩ := copy_passes hidle hst hk hc
  have hget : ∀ m, getCore t0 m = getCore (setCore s n (copyBusy s n o)) m := fun m => congrArg (Tab.get LensCore.reset m) hcores
  exact step_of_trig h hexec ht (show 7 ≠ 6 by decide) hu (no_bits ht nofun nofun) hh hcheck (((hdo p q).trans (copyTrigger_far hfar)).trans hstart)
    ((hget n).trans (getCore_setCore ..)) fun m hm => (hget m).trans (getCore_setCore_ne s hm _)

end Done

/-- Settles O18: an operation of one place starts in its unit alone; a remote one sends its packet, or meets the own cluster's banks. -/
theorem copyTriggersStartOperation : Obligations.CopyTriggersStartOperation := by
  unfold Obligations.CopyTriggersStartOperation
  intro s n a p q h hidle hst k src seg pat len done
  have hlen : copyLen (sockOf s n 0x271) = len := by simp [copyLen, field, len]
  have hdone : ∀ (c : Instr) (code : Nat) (t : CopyTrig) (word : Word) (down : Bool) (lat : Nat), exec c s = .next (soloTrigger s n code a) →
      trigOf code = some (.copy t) → unitAbsent s code = false → copyKindOf t ≠ .none →
      (if copyKindOf t = .crc then ~~~pat else pat) = word → (copyKindOf t == .move && decide (p < q) && decide (q < p + len)) = down →
      copyLatency (copyKindOf t) src.toNat a.toNat len = lat → done c (copyKindOf t) word down lat := by
    rintro c code t word down lat hexec ht hu hk rfl rfl rfl hc far u mine
    rw [← hlen] at hc
    have hbusy : ∀ remote, ({ k.u with copy := some (copyStarted s n (copyKindOf t) a p q remote) } : Units) = u remote := fun remote => by
      simp only [copyStarted, hlen]
      rfl
    have hfar : far → copyFar s n (copyKindOf t) := fun hf => ⟨hf.1, hf.2.1, hlen ▸ hf.2.2⟩
    refine ⟨fun hnear => ?_, fun hf hop' rest hroute => ?_, fun hf hroute hopen => ?_, fun hf hroute hclosed => ?_⟩
    · rw [← hbusy]
      exact copy_near h hidle hst hexec ht hu hk hc fun hf => hnear ⟨hf.1, hf.2.1, hlen ▸ hf.2.2⟩
    · obtain ⟨t1, hrun, hstate, hothers, hstep, hunits, hbits⟩ := copy_far h hidle hst hexec ht hu hk hc (hfar hf)
        (copyStart_sends (copyStarted s n (copyKindOf t) a p q 1) rfl hroute) (o := copyStarted s n (copyKindOf t) a p q 1) rfl
      refine ⟨t1, { kind := .remoteCopy, flits := dataFlits (copyLen (sockOf s n 0x271)), route := rest, poison := false, body := .copy n }, hrun,
        by rw [hstate]; rfl, ⟨hothers, hstep, hunits.trans (hbusy 1), hbits⟩, ?_, rfl, rfl, rfl, rfl⟩
      rw [hstate]
      exact Tab.get_put_same ..
    · rw [← hlen] at hopen
      obtain ⟨t1, hrun, hstate, hothers, hstep, hunits, hbits⟩ := copy_far h hidle hst hexec ht hu hk hc (hfar hf)
        ((copyStart_answered (copyStarted s n (copyKindOf t) a p q 1) rfl hroute).trans (remoteAnswer_open (copyStarted s n (copyKindOf t) a p q 1) hopen))
        (o := copyStarted s n (copyKindOf t) a p q 2) rfl
      exact ⟨t1, hrun, ⟨by rw [hstate]; rfl, hothers⟩, hothers, hstep, hunits.trans (hbusy 2), hbits⟩
    · rw [← hlen] at hclosed
      obtain ⟨k', hbank⟩ := bankAt_of_copyCheck hc hf.1 hf.2.1 (hlen ▸ hf.2.2)
      obtain ⟨hev, hbit⟩ := setClevt_spec (setCore s n (copyBusy s n (copyStarted s n (copyKindOf t) a p q 3))) (segCl seg) (1#32 <<< 27)
      obtain ⟨t1, hrun, hstate, hothers, hstep, hunits, hbits⟩ := copy_far h hidle hst hexec ht hu hk hc (hfar hf)
        ((copyStart_answered (copyStarted s n (copyKindOf t) a p q 1) rfl hroute).trans (remoteAnswer_closed (copyStarted s n (copyKindOf t) a p q 1) hclosed hbank))
        (o := copyStarted s n (copyKindOf t) a p q 3) ((congrArg State.cores hev).trans rfl)
      refine ⟨t1, hrun, ?_, ⟨hothers, hstep, hunits.trans (hbusy 3), hbits⟩, ?_⟩
      · rw [hstate]
        exact (congrArg (fun x : State => { x with cores := t1.cores }) hev).trans rfl
      · rw [hstate]
        exact hbit
  exact ⟨hdone _ 0x274 .move _ _ _ rfl rfl rfl nofun rfl (by simp [copyKindOf]) rfl, hdone _ 0x275 .fill _ _ _ rfl rfl rfl nofun rfl rfl rfl,
    hdone _ 0x276 .crc _ _ _ rfl rfl rfl nofun rfl rfl rfl⟩

end Sys2Proof.Machine

/-! SUPPORT. The delivery of a load, and the drains of the store buffer and of the merge buffers (R42, R93, R94, R117, R154, R157). -/

namespace Sys2Proof.Machine

/-! ### The delivery of a load (R93, R94) -/

theorem tryPerform_performed {perf : State → Nat → StoreEntry → State} {s : State} {n i : Nat} {l : Load} (hl : (getCore s n).u.loads[i]? = some l)
    (hd : l.data.isSome = true) : tryPerform perf s n i = s := by
  simp only [tryPerform, hl, hd, true_or, if_true]

/-- The loads before number `i` once it has delivered: those of the running code are no longer outstanding, and go where they had delivered. -/
def spentLoads (k : LensCore) (i : Nat) : List Load :=
  ((k.u.loads.take i).map fun x => if x.toFrame.isNone then { x with outst := false } else x).filter fun x => x.outst || !x.deliv || x.toFrame.isSome

theorem spentLoads_spent (k : LensCore) (i : Nat) : ∀ x ∈ spentLoads k i, x.toFrame ≠ none ∨ x.outst = false := by
  intro x hx
  obtain ⟨y, -, rfl⟩ := List.mem_map.1 (List.mem_filter.1 hx).1
  split
  · exact .inr rfl
  next hf => exact .inl fun hnone => hf (by rw [hnone]; rfl)

/-- The core after load `i` of the running code delivered. -/
def loadDelivered (k : LensCore) (i : Nat) (l : Load) (d : LoadData) : LensCore :=
  { k with u := { k.u with
      loads := spentLoads k i ++ { l with deliv := true } :: k.u.loads.drop (i + 1)
      sk := if d.pois.isSome then k.u.sk else Tab.put 0x24B d.val k.u.sk } }

theorem deliverLoad_running (s : State) (n i : Nat) {l : Load} (d : LoadData) (hf : l.toFrame = none) (ho : l.outst = true) :
    deliverLoad s n i l d = setCore s n (loadDelivered (getCore s n) i l d) := by
  simp only [deliverLoad, modCore, hf, ho, Bool.not_true, Bool.false_eq_true, if_false]
  cases hp : d.pois.isSome
  · simp only [loadDelivered, hp, hf, ho, Bool.false_eq_true, if_false]
    rfl
  · simp only [loadDelivered, hp, hf, ho, if_true]
    rfl

/-- The device after the flash channel's turn for a load: where it served the load, idle with its core the last served (R117). -/
def flashServed (s : State) (n : Nat) (flash : Bool) : State :=
  if flash then setCluster s (clusterOf n) { getCluster s (clusterOf n) with flash := none, flashLast := n % 4 } else s

theorem flashServed_frame (s : State) (n : Nat) (flash : Bool) : flashServed s n flash = { s with clusters := (flashServed s n flash).clusters } := by
  unfold flashServed
  split <;> rfl

theorem getCluster_flashServed (s : State) (n : Nat) (flash : Bool) :
    let v := getCluster s (clusterOf n)
    getCluster (flashServed s n flash) (clusterOf n) =
        { v with flash := if flash then none else v.flash, flashLast := if flash then n % 4 else v.flashLast } ∧
      ∀ c, c ≠ clusterOf n → getCluster (flashServed s n flash) c = getCluster s c := by
  unfold flashServed
  cases flash
  · exact ⟨rfl, fun _ _ => rfl⟩
  · exact ⟨getCluster_setCluster .., fun c hc => getCluster_setCluster_ne s hc _⟩

theorem flashTurn_serves {s : State} {n : Nat} {mine : FlashReq → Bool} {r : FlashReq} (hw : isWarden n = false)
    (hr : ((getCluster s (clusterOf n)).flash.orElse fun _ => flashNext s (clusterOf n)) = some r) (hn : r.core = n) (hm : mine r = true) :
    flashTurn s n mine = (flashServed s n true, some r) := by
  simp only [flashTurn, hw, Bool.false_eq_true, if_false, hr, hn, hm, and_self, if_true, flashServed]

section Delivery

variable {s : State} {n i : Nat} {l : Load} {d : LoadData} (hl : (getCore s n).u.loads[i]? = some l) (hd : l.data = some d) (hv : l.deliv = false)
  (hk : l.kind ≠ .device) (hf : l.toFrame = none) (ho : l.outst = true) (hdue : lsuHit n l = true → loadDue s n l ≤ (getCore s n).i.steps)
  (hflash : flashLoad s n l = true → ((getCluster s (clusterOf n)).flash.orElse fun _ => flashNext s (clusterOf n)) =
    some { core := n, line := l.addr.toNat / 64, kind := .load })
include hl hd hv hk hf ho hdue hflash

theorem exec_loadDelivery : exec (.loadDelivery n i) s =
    .next (setCore (loadLate (flashServed s n (flashLoad s n l)) n l) n (loadDelivered (getCore s n) i l d)) := by
  have hcore : getCore (loadLate (flashServed s n (flashLoad s n l)) n l) n = getCore s n := by
    unfold loadLate
    split
    · rw [flashServed_frame]
      rfl
    · rw [getCore_countLate, flashServed_frame]
      rfl
  have hwait : (l.deliv || (lsuHit n l && decide ((getCore s n).i.steps < loadDue s n l)) || l.kind == .device) = false := by
    rw [hv, beq_eq_false_iff_ne.2 hk]
    cases hhit : lsuHit n l
    · rfl
    · simpa using hdue hhit
  have hrun : exec (.loadDelivery n i) s = .next (deliverLoad (loadLate (flashServed s n (flashLoad s n l)) n l) n i l d) := by
    show execLoadDelivery n i s = _
    simp only [execLoadDelivery, tryPerform_performed hl (by rw [hd]; rfl), hl, hd, hwait, Bool.false_eq_true, if_false]
    cases hfl : flashLoad s n l
    · rfl
    · have hw : isWarden n = false := by
        simp only [flashLoad, Bool.and_eq_true, Bool.not_eq_true'] at hfl
        exact hfl.1.1.1
      have hturn := flashTurn_serves (mine := fun r => r.kind == .load && r.line == l.addr.toNat / 64) hw (hflash hfl) rfl (by
        simp only [BEq.rfl, Bool.and_self])
      simp only [hturn, if_true, Option.isSome_some]
  rw [hrun, deliverLoad_running _ _ _ _ hf ho, hcore]

/-- LOAD_DELIVERY of a performed load of the running code whose time has come (R42, R94, R117). -/
theorem loadDelivery_done :
    let k := getCore s n
    let v := getCluster s (clusterOf n)
    let flash := flashLoad s n l
    ∃ t, exec (.loadDelivery n i) s = .next t ∧ t = { s with cores := t.cores, clusters := t.clusters } ∧ (∀ m, m ≠ n → getCore t m = getCore s m) ∧
      (∀ c, c ≠ clusterOf n → getCluster t c = getCluster s c) ∧
      getCluster t (clusterOf n) = { v with
        flash := if flash then none else v.flash, flashLast := if flash then n % 4 else v.flashLast,
        overrun := if lsuHit n l || !isDet s n then v.overrun else min 0xFFFFFFFF (v.overrun + (k.i.steps - (l.trig + 3))) } ∧
      getCore t n = loadDelivered k i l d := by
  intro k v flash
  obtain ⟨hown, hother⟩ := getCluster_flashServed s n flash
  have hframe := flashServed_frame s n flash
  have hcores : ∀ m, getCore (flashServed s n flash) m = getCore s m := fun m => by rw [hframe]; rfl
  have hdet : isDet (flashServed s n flash) n = isDet s n := by
    simp only [isDet, hown]
  have hlate : loadLate (flashServed s n flash) n l = { s with clusters := (loadLate (flashServed s n flash) n l).clusters } := by
    unfold loadLate
    split
    · exact hframe
    · rw [countLate_frame, hframe]
  refine ⟨_, exec_loadDelivery hl hd hv hk hf ho hdue hflash, ?_, fun m hm => ?_, fun c hc => ?_, ?_, getCore_setCore ..⟩
  · rw [hlate]
    rfl
  · rw [getCore_setCore_ne _ hm, hlate]
    rfl
  · show getCluster (loadLate (flashServed s n flash) n l) c = _
    unfold loadLate
    split
    · exact hother c hc
    · rw [getCluster_countLate, if_neg fun h => hc h.1, hother c hc]
  · show getCluster (loadLate (flashServed s n flash) n l) (clusterOf n) = _
    unfold loadLate
    cases hhit : lsuHit n l
    · cases hd' : isDet s n
      · simp only [Bool.false_eq_true, if_false, getCluster_countLate, hdet, hd', and_false, hown]
        rfl
      · simp only [Bool.false_eq_true, if_false, getCluster_countLate, hdet, hd', and_self, hown, hcores]
        rfl
    · simp only [if_true, hown]
      rfl

end Delivery

end Sys2Proof.Machine

/-! SUPPORT. STORE_DRAIN and MERGE_WRITE_OUT in a memory without errors (R154, R157, R173). -/

namespace Sys2Proof.Machine

/-! ### Banks -/

@[simp] theorem getBank_modBank (s : State) (c k : Nat) (f : Bank → Bank) : getBank (modBank s c k f) c k = f (getBank s c k) := by
  rw [getBank, modBank, getCluster_modCluster]
  exact Tab.get_put_same ..

theorem getBank_modBank_ne (s : State) {c k c' k' : Nat} (h : (c', k') ≠ (c, k)) (f : Bank → Bank) :
    getBank (modBank s c k f) c' k' = getBank s c' k' := by
  rw [getBank, modBank]
  by_cases hc : c' = c
  · subst hc
    have hk : k' ≠ k := fun hk => h (by rw [hk])
    rw [getCluster_modCluster]
    exact Tab.get_put_ne _ hk ..
  · rw [getCluster_modCluster_ne _ hc]
    rfl

/-- The bank a word belongs to (R143). -/
theorem bankAt_of_placeOf {w c k : Nat} (h : placeOf w = .bank c k) : bankAt (8 * w) = some (c, k) := by
  unfold placeOf at h
  dsimp only at h
  split at h
  next hin =>
    cases h
    exact if_pos hin
  · iterate 5 (split at h; · cases h)
    cases h

/-! ### Writes in a memory without errors (R158, R179) -/

theorem mergeBytes_whole (old new : BitVec 64) : mergeBytes old new 0xFF#8 = new :=
  eq_of_byteOf_eq fun j hj => by
    have hbit : (0xFF#8).getLsbD j = true := by
      rw [show (0xFF#8) = BitVec.allOnes 8 from rfl, BitVec.getLsbD_allOnes, decide_eq_true hj]
    rw [byteOf_mergeBytes _ _ _ hj, hbit, if_pos rfl]

theorem memWrite_noErrors {s : State} (he : s.ecc = []) (w : Nat) (data : BitVec 64) (mask : Byte) :
    memWrite s w data mask = setRawWord s w (mergeBytes (rawWord s w) data mask) := by
  by_cases hm : mask = 0xFF#8
  · subst hm
    rw [memWrite, if_pos rfl, mergeBytes_whole, wholeWord, setEcc, if_pos rfl, show (setRawWord s w data).ecc = [] from he]
    exact congrArg (fun x => { setRawWord s w data with ecc := x }) he.symm
  · exact memWrite_clean (by rw [eccOf, he]; rfl) hm data

theorem read_setMerged {s : State} (hwf : Mem.wf s.mem = true) (w : Nat) (data : BitVec 64) (mask : Byte) (x : Nat) :
    Mem.read x (setRawWord s w (mergeBytes (rawWord s w) data mask)).mem =
      if x / 8 = w ∧ mask.getLsbD (x % 8) = true then byteOf data (x % 8) else Mem.read x s.mem := by
  have hj : x % 8 < 8 := Nat.mod_lt _ (by decide)
  rw [read_setRawWord hwf]
  by_cases hword : x / 8 = w
  · rw [if_pos hword, byteOf_mergeBytes _ _ _ hj, byteOf_rawWord _ _ hj, ← hword, Nat.div_add_mod]
    simp only [true_and]
  · rw [if_neg hword, if_neg fun h => hword h.1]

/-! ### The store buffer (R154, R157, R173) -/

section Drain

variable {s : State} {n : Nat} {e : StoreEntry} {rest : List StoreEntry} (hst : (getCore s n).u.stores = e :: rest) (hk : e.kind = .normal)
  (hl : e.linked = false) (hb : storeBlocked s n e = false) (hw : classicWait s n e.word = false)
include hst hk hl hb hw

theorem exec_storeDrain : exec (.storeDrain n) s =
    .next (drainEntry (setCore s n { getCore s n with u := { (getCore s n).u with stores := rest } }) n e) := by
  have hkd : (e.kind == .device) = false := by rw [hk]; rfl
  show execStoreDrain n s = _
  simp only [execStoreDrain, hst, hkd, hb, hw, hl, Bool.or_self, Bool.false_eq_true, if_false, drainFirst, modCore]

omit hst hl hb hw in
/-- An entry drained where nothing is pending: a word of scratch, exchange RAM or the bit store is written. -/
theorem drainEntry_memory {t : State} (hr : rivalOf t n e.word = none)
    (hp : (∃ m, placeOf e.word = .scratch m) ∨ (∃ c, placeOf e.word = .xram c) ∨ ∃ c, placeOf e.word = .bits c) :
    drainEntry t n e = memWrite t e.word e.data e.mask := by
  rcases hp with ⟨m, hp⟩ | ⟨m, hp⟩ | ⟨m, hp⟩ <;> simp only [drainEntry, performDrain, hp, meetWord_alone hr, performStore, hk]

omit hst hl hb hw in
/-- An incomplete entry drained into a bank opens a merge entry where it finds none of its word (R157). -/
theorem drainEntry_bank {t : State} {c b : Nat} (hp : placeOf e.word = .bank c b) (hloan : (getBank t c b).loan = none)
    (hnew : ∀ x ∈ (getBank t c b).merge, x.word ≠ e.word) (hroom : (getBank t c b).merge.length < 4) (hm : e.mask ≠ 0xFF#8) :
    drainEntry t n e = modBank t c b fun v => { v with merge := v.merge ++
      [{ word := e.word, mask := e.mask, data := e.data &&& maskBits e.mask, core := n, opened := stepsOf t n }] } := by
  have hmeet : meetWord t n e.word true = t := by rw [meetWord, hp]
  have hend : endLoanAt t e.word = t := by simp only [endLoanAt, bankAt_of_placeOf hp, hloan]
  have hfind : ((getBank t c b).merge.find? fun x => x.word == e.word) = none := by
    rw [List.find?_eq_none]
    intro x hx
    simpa using hnew x hx
  have hkd : ¬ AccKind.normal = AccKind.device := nofun
  simp only [drainEntry, hp, performDrain, hmeet, performStore, hk, if_neg hkd, mergeStore, hend, hfind, if_neg (Nat.not_le.2 hroom), if_neg hm]

end Drain

/-! ### The merge buffers (R157) -/

theorem exec_mergeWriteOut {s : State} {c b : Nat} {e : MergeEntry}
    (hdue : ((getBank s c b).merge.find? fun e => decide (e.opened + 17 ≤ stepsOf s e.core)) = some e) :
    exec (.mergeWriteOut c b) s = .next (forceMerge s e.word) := by
  show execMergeWriteOut c b s = _
  simp only [execMergeWriteOut, hdue]

section WriteOut

variable {s : State} {c b : Nat} {e : MergeEntry} (he : s.ecc = []) (hbank : bankAt (8 * e.word) = some (c, b)) (hmem : e ∈ (getBank s c b).merge)
  (hone : ∀ x ∈ (getBank s c b).merge, x.word = e.word → x = e)
include hbank hmem hone

/-- The bank without the merge entry of a word. -/
def withoutMerge (s : State) (c b w : Nat) : State := modBank s c b fun v => { v with merge := v.merge.filter fun x => x.word != w }

omit hbank in
theorem find_merge : ((getBank s c b).merge.find? fun x => x.word == e.word) = some e := by
  cases hf : (getBank s c b).merge.find? fun x => x.word == e.word with
  | none => exact absurd (BEq.rfl) (List.find?_eq_none.1 hf e hmem)
  | some x =>
    have hword := List.find?_some hf
    rw [hone x (List.mem_of_find?_eq_some hf) (beq_iff_eq.1 hword)]

include he in
/-- The entry is written to memory and leaves its bank. -/
theorem forceMerge_entry : forceMerge s e.word =
    setRawWord (withoutMerge s c b e.word) e.word (mergeBytes (rawWord s e.word) e.data e.mask) := by
  simp only [forceMerge, hbank, find_merge hmem hone]
  exact memWrite_noErrors (s := withoutMerge s c b e.word) he ..

/-- Another word's merge entry stands. -/
theorem mergeOf_withoutMerge {w : Nat} (hw : w ≠ e.word) : mergeOf (withoutMerge s c b e.word) w = mergeOf s w := by
  unfold mergeOf
  cases hat : bankAt (8 * w) with
  | none => rfl
  | some v =>
    obtain ⟨c', b'⟩ := v
    by_cases hcb : (c', b') = (c, b)
    · obtain ⟨rfl, rfl⟩ := Prod.mk.inj hcb
      simp only [withoutMerge, getBank_modBank]
      rw [List.find?_filter]
      congr 1
      funext x
      by_cases hx : x.word = w <;> simp [hx, hw]
    · simp only [withoutMerge, getBank_modBank_ne s hcb]

theorem mergeOf_entry : mergeOf s e.word = some e ∧ mergeOf (withoutMerge s c b e.word) e.word = none := by
  refine ⟨by simp only [mergeOf, hbank, find_merge hmem hone], ?_⟩
  simp only [mergeOf, hbank, withoutMerge, getBank_modBank]
  rw [List.find?_eq_none]
  intro x hx
  simpa using (List.mem_filter.1 hx).2

include he in
/-- Every reader sees the same word before and after (R157). -/
theorem visWord_forceMerge (hwf : Mem.wf s.mem = true) (w : Nat) : visWord (forceMerge s e.word) w = visWord s w := by
  obtain ⟨hbefore, hafter⟩ := mergeOf_entry hbank hmem hone
  rw [forceMerge_entry he hbank hmem hone]
  have hmerge : ∀ v, mergeOf (setRawWord (withoutMerge s c b e.word) e.word v) w = mergeOf (withoutMerge s c b e.word) w := fun _ => rfl
  have hwf' : Mem.wf (withoutMerge s c b e.word).mem = true := hwf
  by_cases hw : w = e.word
  · subst hw
    simp only [visWord, hmerge, hbefore, hafter, rawWord_setRawWord_same hwf']
  · simp only [visWord, hmerge, mergeOf_withoutMerge hbank hmem hone hw, rawWord_setRawWord_ne hwf' hw]
    rfl

end WriteOut

/-- Settles O28: one case each for the load, for the drain into a memory and into a bank, and for the entry written out. -/
theorem loadsDeliverStoresDrain : Obligations.LoadsDeliverStoresDrain := by
  unfold Obligations.LoadsDeliverStoresDrain
  intro s n k
  refine ⟨?_, fun e rest hst hk hl hb hw he hwf => ⟨fun hr hp => ?_, fun c b hp hloan hnew hroom hm => ?_⟩, fun c b e he hwf hdue hbank hone => ?_⟩
  · intro i l d hl hd hv hk hf ho hdue v flash hflash
    obtain ⟨t, hrun, hstate, hothers, hclusters, hown, hcore⟩ := loadDelivery_done hl hd hv hk hf ho hdue hflash
    exact ⟨t, _, hrun, hstate, hothers, hclusters, hown, hcore, spentLoads_spent k i⟩
  · have hrun := exec_storeDrain hst hk hl hb hw
    rw [drainEntry_memory hk ((rivalOf_setCore ..).trans hr) hp, memWrite_noErrors (s := setCore s n _) he] at hrun
    exact ⟨_, hrun, rfl, fun m hm => getCore_setCore_ne s hm _, getCore_setCore .., read_setMerged (s := setCore s n _) hwf _ _ _⟩
  · have hrun := exec_storeDrain hst hk hl hb hw
    rw [drainEntry_bank (t := setCore s n _) hk hp hloan hnew hroom hm] at hrun
    refine ⟨_, hrun, rfl, fun m hm => getCore_setCore_ne s hm _, getCore_setCore .., fun c' hc' => getCluster_modCluster_ne _ hc' _,
      fun b' hb' => getBank_modBank_ne _ (fun h => hb' (Prod.mk.inj h).2) _, (getBank_modBank ..).trans ?_⟩
    rw [stepsOf, getCore_setCore]
    rfl
  · have hmem : e ∈ (getBank s c b).merge := List.mem_of_find?_eq_some hdue
    have hrun := exec_mergeWriteOut hdue
    have hvis := visWord_forceMerge he hbank hmem hone hwf
    rw [forceMerge_entry he hbank hmem hone] at hrun hvis
    refine ⟨_, hrun, rfl, fun c' hc' => ?_, fun b' hb' => ?_, ?_, read_setMerged (s := withoutMerge s c b e.word) hwf _ _ _, hvis⟩
    · exact (getCluster_modCluster_ne s hc' _ : getCluster (withoutMerge s c b e.word) c' = _)
    · exact (getBank_modBank_ne s (fun h => hb' (Prod.mk.inj h).2) _ : getBank (withoutMerge s c b e.word) c b' = _)
    · exact (getBank_modBank s c b _ : getBank (withoutMerge s c b e.word) c b = _)

end Sys2Proof.Machine

/-! SUPPORT. A copy operation of a core number beyond the device's: its "scratch" is exchange RAM (R102, R173). -/

namespace Sys2Proof.Machine

/-- A core number the device does not have: the addresses its scratch would take are those of the exchange RAM of cluster 0 (log entry 3). -/
def strayCore : Nat := 65536

theorem scratchBase_strayCore : scratchBase strayCore = xramBase 0 := by decide

/-- A fill of the eight bytes of the first word there. -/
def strayFill : CopyOp :=
  { kind := .fill, trig := 0, lat := 0, src := 0, dst := 0, srcP := 0, dstP := scratchBase strayCore, left := 8, done := 0, down := false, seg := 0, word := 0,
    remote := 0, since := 0, park := none }

/-- A store of core 0 that waits at the same word. -/
def waitingStore : StoreEntry := { id := 0, word := xramBase 0 / 8, mask := 1#8, data := 0, kind := .normal, linked := false }

/-- Cluster 0 in classic arbitration, the store waiting at core 0 and the fill active at the stray core. -/
def strayState : State :=
  { State.reset with
    cores := [(0, { LensCore.reset 0 with u := { (LensCore.reset 0).u with stores := [waitingStore] } }),
      (strayCore, { LensCore.reset strayCore with u := { (LensCore.reset strayCore).u with copy := some strayFill } })]
    clusters := [(0, { Cluster.reset with classic := true })] }

/-- The entries left in the store buffer of core 0 after a command. -/
def storesLeft : Host.Outcome State Fault Refusal → Option Nat
  | .next t => some (getCore t 0).u.stores.length
  | _ => none

/-- The fill meets the waiting store and has it made first (R173). -/
theorem storesLeft_copyCompletion : storesLeft (exec (.copyCompletion strayCore) strayState) = some 0 := by decide +kernel

/-- Refutes O30: the statement speaks of every number of a core. For one of 65,536 or more the range it calls own scratch is memory that other cores
share, and COPY_COMPLETION there changes another core: core 0 of `strayState` loses its waiting store. -/
theorem not_copyOperationsEnd : ¬ Obligations.CopyOperationsEnd := by
  unfold Obligations.CopyOperationsEnd
  intro h
  obtain ⟨hcompletes, -, -⟩ := h strayState strayCore strayFill rfl rfl rfl rfl
  obtain ⟨t, hrun, -, ⟨hothers, -⟩, -⟩ := hcompletes rfl rfl rfl ⟨le_rfl, by decide⟩ (by decide) (.inl ⟨rfl, rfl⟩)
  have hleft := storesLeft_copyCompletion
  rw [hrun, storesLeft, hothers 0 (by decide)] at hleft
  exact absurd hleft (by decide)

end Sys2Proof.Machine

/-! SUPPORT. The commands of a core that issue no program bundle: fill bundles, break bundles, the end of a hush window, the end of a sleep
(R83, R100, R114, R200). -/

namespace Sys2Proof.Machine

/-- Counting a step moves the step count, and of an open hush window what is left of it (R10, R200). -/
theorem countStep_eq (k : LensCore) : ∃ rem hend, countStep k =
    { k with r := { k.r with hushRem := rem }, e := { k.e with hushEnd := hend }, i := { k.i with steps := k.i.steps + 1 } } := by
  unfold countStep
  cases h : k.e.hushEnd with
  | none => exact ⟨k.r.hushRem, k.e.hushEnd, rfl⟩
  | some x => exact ⟨_, _, rfl⟩

theorem fault_of_mayIssue {s : State} {n : Nat} (h : mayIssue s n = true) : (getCore s n).i.fault = none := by
  simp only [mayIssue, issues, Bool.and_eq_true, Option.isNone_iff_eq_none] at h
  tauto

section

variable {s : State} {n : Nat}

/-- FILL_BUNDLE where a fill step is due (R114). -/
theorem exec_fillBundle (hp : corePresent s n = true) (hh : (getCore s n).lp.halted = false) (hrun : (getCore s n).i.run = .running)
    (hdue : dueUndelivered s n = false) (hfill : 0 < (getCore s n).i.fills) : exec (.fillBundle n) s = .next (fillStep s n false) := by
  show execFillBundle n s = _
  simp only [execFillBundle, hp, hrun, hh, hdue, BEq.rfl, Bool.not_false, Bool.and_self, if_true]
  rw [if_pos (Nat.ne_of_gt hfill)]

theorem planNext_break {tag : Nat} (hdelay : (getCore s n).i.delay = none) (hnext : nextFront s n = .brk tag) :
    planNext s n = (.brk tag, .fault s { mkFault (getCore s n).i.pc.toNat 0x1A 0 false none none with sw := tag } false) := by
  simp [planNext, hdelay, hnext]

/-- BREAK_BUNDLE at a break bundle: a halt for the Loupe where it is armed, else a trap at the break bundle (R83). -/
theorem exec_breakBundle {tag : Nat} (hmay : mayIssue s n = true) (hdelay : (getCore s n).i.delay = none) (hnext : nextFront s n = .brk tag) :
    exec (.breakBundle n) s = .next (if (getCore s n).lp.brken then loupeHaltCore s n 4
      else recordFault s n { cause := 0x1A, slot := 0, second := false, sw := tag, bad := none, epc := (getCore s n).i.pc, rep := none } false) := by
  show execBreakBundle n s = _
  rw [execBreakBundle, if_pos hmay, planNext_break hdelay hnext]
  simp only [issuePlan, mkFault, BitVec.ofNat_toNat, BitVec.setWidth_eq]

/-- HUSH_WINDOW_CLOSE where the window has run out (R200). -/
theorem exec_hushWindowClose (hp : corePresent s n = true) (hend : (getCore s n).e.hushEnd ≠ none) (hopen : hushOpen s n = false) :
    exec (.hushWindowClose n) s = .next (modCore s n closeHush) := by
  show execHushWindowClose n s = _
  simp only [execHushWindowClose, hp, Option.isSome_iff_ne_none.2 hend, hopen, Bool.not_false, Bool.and_self, if_true]

/-- SLEEP_WAKE for a cause that is pending but not recognisable (R100). -/
theorem exec_sleepWake (hp : corePresent s n = true) (hh : (getCore s n).lp.halted = false) (hrun : (getCore s n).i.run = .sleeping)
    (hhold : clusterHolds s n = false) (hwake : wakePending s n = true) (hrec : recognisable s n (isIE (getCore s n)) = none) :
    exec (.sleepWake n) s = .next (modCore s n fun k => modIssue k fun i => { i with run := .running }) := by
  show execSleepWake n s = _
  simp only [execSleepWake, hp, hrun, hh, hhold, hwake, hrec, BEq.rfl, Bool.not_false, Bool.and_self, if_true]

end

/-- Settles O25: each command has one outcome in the states described, and it is an update of core n alone. -/
theorem fillBreakHushAndSleep : Obligations.FillBreakHushAndSleep := by
  unfold Obligations.FillBreakHushAndSleep
  intro s n hp k hh same
  refine ⟨fun hrun hdue hfill => ?fill, fun tag hmay hdelay hnext => ?brk, fun hend hopen => ?hush, fun hrun hhold hwake hrec => ?wake⟩
  case fill =>
    obtain ⟨rem, hend, hcount⟩ := countStep_eq k
    refine ⟨_, exec_fillBundle hp hh hrun hdue hfill, onlyCore_setCore .., ?_⟩
    rw [fillStep, getCore_modCore, hcount]
    exact ⟨rfl, rfl, rfl, rfl, rfl, rfl, rfl, rfl, rfl⟩
  case brk =>
    have hrun := exec_breakBundle hmay hdelay hnext
    cases harm : k.lp.brken with
    | true =>
      rw [harm, if_pos rfl] at hrun
      refine ⟨_, hrun, onlyCore_setCore .., ?_⟩
      rw [loupeHaltCore, getCore_modCore]
      exact ⟨rfl, rfl, rfl, rfl, rfl, rfl, rfl, rfl, rfl, rfl, rfl, fault_of_mayIssue hmay⟩
    | false =>
      rw [harm, if_neg Bool.false_ne_true] at hrun
      refine ⟨_, hrun, onlyCore_setCore .., ?_⟩
      rw [recordFault, getCore_modCore]
      exact ⟨rfl, rfl, rfl, rfl, rfl, rfl, rfl, rfl, rfl, rfl, rfl⟩
  case hush =>
    refine ⟨_, exec_hushWindowClose hp hend hopen, onlyCore_setCore .., ?_⟩
    rw [getCore_modCore]
    exact ⟨rfl, rfl, rfl, rfl, rfl, rfl, rfl, rfl, rfl, rfl⟩
  case wake =>
    refine ⟨_, exec_sleepWake hp hh hrun hhold hwake hrec, onlyCore_setCore .., ?_⟩
    rw [getCore_modCore]
    exact ⟨rfl, rfl, rfl, rfl, rfl, rfl, rfl, rfl, rfl, rfl⟩

end Sys2Proof.Machine

/-! SUPPORT. The fetch of lines in a memory without errors: what a delivery brings, and what it leaves alone (R115 to R117, R119). -/

namespace Sys2Proof.Machine

theorem lineOff_lineOff (o : Nat) : lineOff (lineOff o) = lineOff o := by unfold lineOff; omega

theorem findLine_lineOff (ls : List FLine) (o : Nat) : findLine ls (lineOff o) = findLine ls o := by
  rw [findLine, lineOff_lineOff, findLine]

/-- The wanted line missing, fetch asks for it and the one after it (R118). -/
theorem wantedLines_missing {k : LensCore} (h : findLine k.i.lines (fetchPc k) = none) (det : Bool) :
    wantedLines det k = [lineOff (fetchPc k), lineOff (fetchPc k) + 32] := by
  simp [wantedLines, findLine_lineOff, h]

/-! ### What a line's source rests on (R116, R143, R145, R168) -/

section Source

variable {s t : State} (hpart : t.part = s.part)
include hpart

/-- The map is the part's. -/
theorem regionOf_of_part (n p : Nat) : regionOf t n p = regionOf s n p := by
  have hcores : corePresent t = corePresent s := funext fun m => by rw [corePresent, nCores, hpart]; rfl
  have hclusters : nClusters t = nClusters s := by rw [nClusters, hpart, nClusters]
  have hfacets : nFacets t = nFacets s := by rw [nFacets, hpart, nFacets]
  have hquads : nQuads t = nQuads s := by rw [nQuads, hpart, nQuads]
  have hbeams : nBeams t = nBeams s := by rw [nBeams, hpart, nBeams]
  have hchans : nChans t = nChans s := by rw [nChans, hpart, nChans]
  have hplain : plainRegion t n = plainRegion s n := funext fun q => by rw [plainRegion, hclusters, hbeams, plainRegion]
  have hdevice : deviceRegion t n = deviceRegion s n := funext fun q => by
    rw [deviceRegion, hcores, hclusters, hfacets, hquads, hchans, deviceRegion]
  rw [regionOf, hplain, hdevice, regionOf]

theorem lineError_congr {n : Nat} (hdet : isDet t n = isDet s n) (hbank : ∀ c b, getBank t c b = getBank s c b) (hactive : t.active = s.active) (p : Nat)
    (dev : Bool) : lineError t n p dev = lineError s n p dev := by
  have hregion : regionOf t n = regionOf s n := funext (regionOf_of_part hpart n)
  have howner : ownerAllows t n = ownerAllows s n := funext fun q => funext fun wr => by simp only [ownerAllows, hbank, hactive]
  rw [lineError, hregion, hdet, howner, lineError]

end Source

/-! ### Memory without errors and loans (R116, R180, R186) -/

/-- No word of memory has an error and no bank is on loan. -/
structure CleanMem (s : State) : Prop where
  ecc  : s.ecc = []
  loan : ∀ c b, (getBank s c b).loan = none

/-- The four words from address `p` of core `n` on, as memory holds them. -/
def memLine (s : State) (n p : Nat) : List FWord := (List.range 4).map fun i => { w := anyWord s (globalOf n (p + 8 * i) / 8), bad := false }

theorem memLine_good (s : State) (n p : Nat) : (memLine s n p).any FWord.bad = false := rfl

theorem endLoanAt_noLoan {s : State} (h : ∀ c b, (getBank s c b).loan = none) (w : Nat) : endLoanAt s w = s := by
  unfold endLoanAt
  split
  · rfl
  next c b _ => rw [h c b]

theorem readLine_clean {s : State} (h : CleanMem s) (n p : Nat) : readLine s n p = (s, memLine s n p) := by
  have hcheck : ∀ w, checkWord (endLoanAt s w) w = (s, false) := fun w => by
    rw [endLoanAt_noLoan h.loan, checkWord_clean (by rw [eccOf, h.ecc]; rfl)]
  simp only [readLine, memLine, List.range, List.range.loop, List.foldl_cons, List.foldl_nil, List.map_cons, List.map_nil, hcheck, List.nil_append,
    List.cons_append]

/-! ### The line cache (R115) -/

/-- Every cached line is good, and one at physical address `p` holds the words `ws`. -/
def CacheHolds (k : LensCore) (p : Nat) (ws : List FWord) : Prop := ∀ c ∈ k.i.cache, c.2.any FWord.bad = false ∧ (c.1 = p → c.2 = ws)

theorem parityCheck_good {k : LensCore} (h : ∀ c ∈ k.i.cache, c.2.any FWord.bad = false) (q : Nat) : parityCheck k q = k := by
  have hnone : (k.i.cache.any fun c => c.1 == q && c.2.any FWord.bad) = false :=
    List.any_eq_false.2 fun c hc => by rw [h c hc, Bool.and_false]; exact Bool.false_ne_true
  rw [parityCheck, hnone, if_neg Bool.false_ne_true]

theorem cachedLine_some {k : LensCore} {q : Nat} {c : Nat × List FWord} (h : cachedLine k q = some c) : c ∈ k.i.cache ∧ c.1 = q := by
  refine ⟨List.mem_of_find?_eq_some h, ?_⟩
  have hq := List.find?_some h
  simp only [Bool.and_eq_true, beq_iff_eq] at hq
  exact hq.1

theorem mem_insertLru {α : Type} {setOf : α → Nat} {ways : Nat} {x y : α} {l : List α} (h : y ∈ insertLru setOf ways x l) : y = x ∨ y ∈ l := by
  simp only [insertLru, List.cons_append, List.mem_cons, List.mem_append] at h
  obtain rfl | h | h := h
  · exact .inl rfl
  · exact .inr (List.mem_filter.1 h).1
  · exact .inr (List.mem_filter.1 (List.mem_of_mem_take h)).1

/-! ### One line delivered (R115, R116) -/

/-- The check of cached parity that a delivery of the line at `q` begins with (R115). -/
def parityChecked (s : State) (n q : Nat) : State := if cacheOn s n then modCore s n fun k => parityCheck k q else s

/-- A line from its source or the line cache. -/
def sourceLine (s : State) (n o q : Nat) : State × FLine :=
  match if cacheOn s n then cachedLine (getCore s n) q else none with
  | some c => (modCore s n fun k => modIssue k fun i => { i with cache := c :: i.cache.filter fun x => x.1 != q }, { off := o, ws := c.2, err := none })
  | none =>
    let r := readLine s n q
    ((if cacheOn s n then modCore r.1 n fun k => cacheFill k q r.2 else r.1), { off := o, ws := r.2, err := none })

theorem deliverLine_served {s : State} {n o : Nat} (hlim : o + 7 ≤ (apOf (getCore s n) n 0).limit.toNat)
    (hmap : (apOf (getCore s n) n 0).start + o + 31 < 0x100000000)
    (herr : lineError s n ((apOf (getCore s n) n 0).start + o) ((apOf (getCore s n) n 0).kind == 1) = none) :
    deliverLine s n o = sourceLine (parityChecked s n ((apOf (getCore s n) n 0).start + o)) n o ((apOf (getCore s n) n 0).start + o) := by
  simp only [deliverLine, herr]
  rw [if_neg (by omega)]
  rfl

/-- A delivery brings the line of its source or one that failed. -/
theorem deliverLine_cases (s : State) (n o : Nat) :
    deliverLine s n o = sourceLine (parityChecked s n ((apOf (getCore s n) n 0).start + o)) n o ((apOf (getCore s n) n 0).start + o) ∨
      ∃ e, deliverLine s n o = (s, { off := o, ws := [], err := e }) := by
  by_cases hlim : (apOf (getCore s n) n 0).limit.toNat < o + 7 ∨ 0x100000000 ≤ (apOf (getCore s n) n 0).start + o + 31
  · exact .inr ⟨none, by simp only [deliverLine, if_pos hlim]⟩
  · cases herr : lineError s n ((apOf (getCore s n) n 0).start + o) ((apOf (getCore s n) n 0).kind == 1) with
    | none => exact .inl (deliverLine_served (by omega) (by omega) herr)
    | some e => exact .inr ⟨some e, by simp only [deliverLine, if_neg hlim, herr]⟩

/-! ### Lines delivered (R116, R117) -/

/-- The line at AP0 offset `o` stands among the lines delivered to core `n`. -/
def lineIn (s : State) (n o : Nat) : State :=
  let r := deliverLine s n o
  modCore r.1 n fun k => modIssue k fun i => { i with lines := (i.lines.filter fun l => l.off != o) ++ [r.2] }

theorem deliverLines_cons_served {s : State} {n o : Nat} {served : Option Nat} (h : flashLineAt s n o = none ∨ flashLineAt s n o = served) (os : List Nat) :
    deliverLines s n served (o :: os) = deliverLines (lineIn s n o) n served os := by
  rw [deliverLines]
  cases hf : flashLineAt s n o with
  | none => rfl
  | some l =>
    rw [hf] at h
    obtain h | h := h
    · cases h
    · simp only [← h, if_true]
      rfl

theorem deliverLines_cons_cases (s : State) (n o : Nat) (served : Option Nat) (os : List Nat) :
    deliverLines s n served (o :: os) = deliverLines (lineIn s n o) n served os ∨ deliverLines s n served (o :: os) = deliverLines s n served os := by
  by_cases h : flashLineAt s n o = none ∨ flashLineAt s n o = served
  · exact .inl (deliverLines_cons_served h os)
  · obtain ⟨hnone, hserved⟩ := not_or.1 h
    obtain ⟨l, hl⟩ := Option.ne_none_iff_exists'.1 hnone
    refine .inr ?_
    rw [deliverLines]
    simp only [hl]
    rw [if_neg fun he => hserved (hl.trans he.symm)]

/-! ### A fetch under way -/

/-- Core `k'` is core `k` but for its lines, line cache, BTB and loop-start buffers. -/
structure FetchOnly (k k' : LensCore) : Prop where
  core  : k' = { k with i := k'.i }
  pc    : k'.i.pc = k.i.pc
  run   : k'.i.run = k.i.run
  steps : k'.i.steps = k.i.steps

namespace FetchOnly

theorem refl (k : LensCore) : FetchOnly k k := ⟨rfl, rfl, rfl, rfl⟩

theorem issue {k k' : LensCore} (h : FetchOnly k k') {i : Issue} (hpc : i.pc = k'.i.pc) (hrun : i.run = k'.i.run) (hsteps : i.steps = k'.i.steps) :
    FetchOnly k { k' with i } := ⟨by rw [h.core], hpc.trans h.pc, hrun.trans h.run, hsteps.trans h.steps⟩

end FetchOnly

/-- A good line enters the line cache: the words asked for at `p`, if it is the line at `p` (R115). -/
theorem cacheFill_keeps {k0 k : LensCore} {p q : Nat} {ws x : List FWord} (hk : FetchOnly k0 k) (hc : CacheHolds k p ws) (hgood : x.any FWord.bad = false)
    (hq : q = p → x = ws) : let k' := cacheFill k q x; FetchOnly k0 k' ∧ CacheHolds k' p ws ∧ k'.i.lines = k.i.lines := by
  unfold cacheFill
  split
  · exact ⟨hk, hc, rfl⟩
  · refine ⟨hk.issue rfl rfl rfl, fun c hcached => ?_, rfl⟩
    obtain rfl | hold := mem_insertLru hcached
    · exact ⟨hgood, hq⟩
    · exact hc c (List.mem_filter.1 hold).1

/-- Core `n` fetches and wants the line at AP0 offset `o`, which is not delivered; it stands at address `p`, inside AP0, and its source serves it
(R116, R118). -/
structure WantsLine (s : State) (n o p : Nat) : Prop where
  present : corePresent s n = true
  run     : (getCore s n).i.run = .running
  free    : fetchWaits (getCore s n) n = false
  off     : lineOff (fetchPc (getCore s n)) = o
  missing : findLine (getCore s n).i.lines (fetchPc (getCore s n)) = none
  addr    : (apOf (getCore s n) n 0).start + o = p
  limit   : o + 7 ≤ (apOf (getCore s n) n 0).limit.toNat
  space   : p + 31 < 0x100000000
  served  : lineError s n p ((apOf (getCore s n) n 0).kind == 1) = none

namespace WantsLine

variable {s : State} {n o p : Nat} (h : WantsLine s n o p)
include h

theorem fetches : fetches (getCore s n) = true := by rw [Machine.fetches, h.run]; rfl

theorem wantedLines (det : Bool) : wantedLines det (getCore s n) = [o, o + 32] := by rw [wantedLines_missing h.missing, h.off]

end WantsLine

/-- State `t` is `s` but for what core `n` has fetched: its delivered lines are `ls`, and of the line at `p` its cache holds nothing but the words of
memory. -/
structure Fetching (s : State) (n p : Nat) (ls : List FLine) (t : State) : Prop where
  only  : OnlyCore n s t
  core  : FetchOnly (getCore s n) (getCore t n)
  cache : CacheHolds (getCore t n) p (memLine s n p)
  lines : (getCore t n).i.lines = ls

namespace Fetching

variable {s t : State} {n p : Nat} {ls : List FLine}

theorem start (h : CacheHolds (getCore s n) p (memLine s n p)) : Fetching s n p (getCore s n).i.lines s := ⟨⟨rfl, fun _ _ => rfl⟩, .refl _, h, rfl⟩

theorem setCore (h : Fetching s n p ls t) {k : LensCore} {ls' : List FLine} (hk : FetchOnly (getCore s n) k) (hc : CacheHolds k p (memLine s n p))
    (hl : k.i.lines = ls') : Fetching s n p ls' (setCore t n k) where
  only := ⟨by rw [h.only.1]; rfl, fun m hm => (getCore_setCore_ne t hm k).trans (h.only.2 m hm)⟩
  core := by rwa [getCore_setCore]
  cache := by rwa [getCore_setCore]
  lines := by rwa [getCore_setCore]

variable (h : Fetching s n p ls t)
include h

theorem isDet_eq : isDet t n = isDet s n := by rw [h.only.1]; rfl

theorem apOf_eq (i : Nat) : apOf (getCore t n) n i = apOf (getCore s n) n i := by rw [h.core.core]; rfl

theorem fetchPc_eq : fetchPc (getCore t n) = fetchPc (getCore s n) := by rw [fetchPc, h.core.pc, fetchPc]

theorem lineError_eq (q : Nat) (dev : Bool) : lineError t n q dev = lineError s n q dev :=
  lineError_congr (by rw [h.only.1]) h.isDet_eq (fun _ _ => by rw [h.only.1]; rfl) (by rw [h.only.1]) q dev

theorem memLine_eq (q : Nat) : memLine t n q = memLine s n q := by rw [h.only.1]; rfl

theorem clean (hs : CleanMem s) : CleanMem t := by
  rw [h.only.1]
  exact ⟨hs.ecc, hs.loan⟩

/-- The line cache takes the line at `q` as memory holds it. -/
theorem fill (q : Nat) : Fetching s n p ls (modCore t n fun k => cacheFill k q (memLine s n q)) := by
  obtain ⟨hcore, hcache, hlines⟩ := cacheFill_keeps h.core h.cache (memLine_good s n q) fun hq : q = p => by rw [hq]
  exact h.setCore hcore hcache (hlines.trans h.lines)

/-- A cached line is used (R115). -/
theorem touch {q : Nat} {c : Nat × List FWord} (hc : c ∈ (getCore t n).i.cache) :
    Fetching s n p ls (modCore t n fun k => modIssue k fun i => { i with cache := c :: i.cache.filter fun x => x.1 != q }) := by
  refine h.setCore (h.core.issue rfl rfl rfl) (fun x hx => ?_) h.lines
  obtain rfl | hx := List.mem_cons.1 hx
  · exact h.cache x hc
  · exact h.cache x (List.mem_filter.1 hx).1

theorem parityChecked (q : Nat) : Fetching s n p ls (parityChecked t n q) := by
  unfold Machine.parityChecked
  split
  · rw [modCore, parityCheck_good fun c hc => (h.cache c hc).1]
    exact h.setCore h.core h.cache h.lines
  · exact h

theorem sourceLine (hs : CleanMem s) (o q : Nat) :
    Fetching s n p ls (sourceLine t n o q).1 ∧ (q = p → (sourceLine t n o q).2 = { off := o, ws := memLine s n p, err := none }) := by
  unfold Machine.sourceLine
  split
  next c hc =>
    have hcached : cachedLine (getCore t n) q = some c := by
      split at hc
      · exact hc
      · cases hc
    obtain ⟨hmem, hq⟩ := cachedLine_some hcached
    exact ⟨h.touch hmem, fun hqp => by rw [(h.cache c hmem).2 (hq.trans hqp)]⟩
  next =>
    rw [readLine_clean (h.clean hs), h.memLine_eq]
    refine ⟨?_, fun hqp => by rw [hqp]⟩
    dsimp only
    split
    · exact h.fill q
    · exact h

theorem deliverLine (hs : CleanMem s) (o : Nat) : Fetching s n p ls (deliverLine t n o).1 := by
  obtain heq | ⟨e, heq⟩ := deliverLine_cases t n o
  · rw [heq]
    exact ((h.parityChecked _).sourceLine hs o _).1
  · rw [heq]
    exact h

/-- The lines once the one at offset `o` stands among them. -/
theorem lineIn (hs : CleanMem s) (o : Nat) :
    Fetching s n p ((ls.filter fun l => l.off != o) ++ [(Machine.deliverLine t n o).2]) (lineIn t n o) := by
  have hfetch := h.deliverLine hs o
  exact hfetch.setCore (hfetch.core.issue rfl rfl rfl) hfetch.cache (congrArg (fun ls : List FLine => (ls.filter fun l => l.off != o) ++ _) hfetch.lines)

/-- The wanted line is delivered with the words of memory, the one after it as far as it can be. -/
theorem deliverLines (hs : CleanMem s) {o : Nat} (hw : WantsLine s n o p) {served : Option Nat}
    (hserved : flashLineAt t n o = none ∨ flashLineAt t n o = served) :
    ∃ ls', Fetching s n p ls' (deliverLines t n served [o, o + 32]) ∧ { off := o, ws := memLine s n p, err := none } ∈ ls' := by
  obtain rfl := hw.addr
  have hline : (Machine.deliverLine t n o).2 = { off := o, ws := memLine s n ((apOf (getCore s n) n 0).start + o), err := none } := by
    rw [deliverLine_served (by rw [h.apOf_eq]; exact hw.limit) (by rw [h.apOf_eq]; exact hw.space) (by rw [h.apOf_eq, h.lineError_eq]; exact hw.served),
      h.apOf_eq]
    exact ((h.parityChecked _).sourceLine hs o _).2 rfl
  have hfirst := h.lineIn hs o
  rw [hline] at hfirst
  rw [deliverLines_cons_served hserved]
  obtain heq | heq := deliverLines_cons_cases (Machine.lineIn t n o) n (o + 32) served []
  · rw [heq]
    refine ⟨_, hfirst.lineIn hs (o + 32), List.mem_append_left _ (List.mem_filter.2 ⟨List.mem_append_right _ (List.mem_singleton_self _), ?_⟩)⟩
    simp
  · rw [heq]
    exact ⟨_, hfirst, List.mem_append_right _ (List.mem_singleton_self _)⟩

end Fetching

/-! ### The end of a delivery (R119, R134) -/

theorem lineSideEffects_keeps (det normal : Bool) (i : Issue) (ls : Nat → Nat) : let i' := lineSideEffects det normal i ls
    i'.lines = i.lines ∧ i'.pc = i.pc ∧ i'.run = i.run ∧ i'.steps = i.steps := by
  unfold lineSideEffects
  extract_lets i1 i'
  have h : i1.lines = i.lines ∧ i1.pc = i.pc ∧ i1.run = i.run ∧ i1.steps = i.steps := by
    unfold i1
    split
    · exact ⟨rfl, rfl, rfl, rfl⟩
    split
    · exact ⟨rfl, rfl, rfl, rfl⟩
    split_ifs <;> exact ⟨rfl, rfl, rfl, rfl⟩
  unfold i'
  split
  · exact h
  · dsimp only
    split <;> exact h

/-- The BTB entry and the loop-start buffer that waited for their lines are made, lines fetch has left behind go, and the BTB is looked up. -/
def fetchSettled (det : Bool) (n : Nat) (k : LensCore) : LensCore :=
  let o := lineOff (fetchPc k)
  let i := lineSideEffects det ((apOf k n 0).kind == 0) k.i fun lv => (loopLs k lv).toNat
  let k2 : LensCore := { k with i := { i with lines := i.lines.filter fun l => decide (o ≤ l.off) && decide (l.off ≤ o + 64) } }
  if det then k2 else btbLookups k2

/-- Nothing but fetch changes, and the line of the next bundle stays. -/
theorem fetchSettled_keeps {k0 k : LensCore} (h : FetchOnly k0 k) (det : Bool) (n : Nat) :
    FetchOnly k0 (fetchSettled det n k) ∧ ∀ l ∈ k.i.lines, l.off = lineOff (fetchPc k) → l ∈ (fetchSettled det n k).i.lines := by
  obtain ⟨hlines, hpc, hrun, hsteps⟩ := lineSideEffects_keeps det ((apOf k n 0).kind == 0) k.i fun lv => (loopLs k lv).toNat
  have hmem : ∀ l ∈ k.i.lines, l.off = lineOff (fetchPc k) →
      l ∈ (lineSideEffects det ((apOf k n 0).kind == 0) k.i fun lv => (loopLs k lv).toNat).lines.filter fun l =>
        decide (lineOff (fetchPc k) ≤ l.off) && decide (l.off ≤ lineOff (fetchPc k) + 64) := by
    intro l hl hoff
    rw [hlines, List.mem_filter, hoff]
    simp [hl]
  cases det
  · exact ⟨h.issue hpc hrun hsteps, hmem⟩
  · exact ⟨h.issue hpc hrun hsteps, hmem⟩

/-! ### The flash read channel (R117) -/

theorem flashLineAt_cases (s : State) (n o : Nat) :
    flashLineAt s n o = none ∨ flashLineAt s n o = some (((apOf (getCore s n) n 0).start + o) / 64) := by
  unfold flashLineAt
  dsimp only
  split_ifs <;> simp

/-- A line that has to come from code flash is a Lens core's, inside AP0 and served. -/
theorem flashLineAt_some {s : State} {n o l : Nat} (h : flashLineAt s n o = some l) :
    isWarden n = false ∧ o + 7 ≤ (apOf (getCore s n) n 0).limit.toNat ∧ (apOf (getCore s n) n 0).start + o + 31 < 0x100000000 ∧
      lineError s n ((apOf (getCore s n) n 0).start + o) ((apOf (getCore s n) n 0).kind == 1) = none := by
  unfold flashLineAt at h
  dsimp only at h
  split at h
  · cases h
  next hno =>
    simp only [Bool.or_eq_true, decide_eq_true_eq, not_or, Bool.not_eq_true, not_lt, not_le, Option.isSome_eq_false_iff, Option.isNone_iff_eq_none] at hno
    obtain ⟨⟨⟨hwarden, hlim⟩, hmap⟩, herr⟩ := hno
    exact ⟨hwarden, hlim, hmap, herr⟩

/-- Where no core of the cluster has a request for the channel, core `n` has none. -/
theorem flashWant_of_flashNext {s : State} {n : Nat} (h : flashNext s (clusterOf n) = none) : flashWant s n = none := by
  have hall := List.findSome?_eq_none_iff.1 h
  obtain ⟨i, hi, hn⟩ : ∃ i < 4, ((getCluster s (clusterOf n)).flashLast + 1 + i) % 4 = n % 4 :=
    ⟨(n % 4 + 3 * ((getCluster s (clusterOf n)).flashLast + 1)) % 4, Nat.mod_lt _ (by decide), by omega⟩
  have hwant := hall i (List.mem_range.2 hi)
  rwa [hn, clusterOf, Nat.div_add_mod] at hwant

/-- A core that has no request for the channel has the line it wants from elsewhere. -/
theorem WantsLine.flashLineAt_none {s : State} {n o p : Nat} (hw : WantsLine s n o p) (h : flashWant s n = none) : flashLineAt s n o = none := by
  simp only [flashWant, hw.present, hw.fetches, hw.wantedLines, Bool.and_self, if_true] at h
  split at h
  · cases h
  next hnone => exact List.findSome?_eq_none_iff.1 hnone o List.mem_cons_self

theorem flashLineAt_line {s : State} {n o l : Nat} (h : flashLineAt s n o = some l) : ((apOf (getCore s n) n 0).start + o) / 64 = l := by
  obtain hnone | hsome := flashLineAt_cases s n o
  · rw [h] at hnone
    cases hnone
  · exact Option.some.inj (hsome.symm.trans h)

/-- The line the channel served is there, in whichever way it is asked for. -/
theorem Fetching.flashLineAt_served {s t : State} {n p o l : Nat} {ls : List FLine} (h : Fetching s n p ls t)
    (hl : ((apOf (getCore s n) n 0).start + o) / 64 = l) : flashLineAt t n o = none ∨ flashLineAt t n o = some l := by
  rw [← hl, ← h.apOf_eq]
  exact flashLineAt_cases t n o

theorem flashTurn_idle {s : State} {n : Nat} (h : isWarden n = true ∨ (getCluster s (clusterOf n)).flash = none ∧ flashNext s (clusterOf n) = none)
    (mine : FlashReq → Bool) : flashTurn s n mine = (s, none) := by
  unfold flashTurn
  obtain hw | ⟨hidle, hnext⟩ := h
  · rw [if_pos hw]
  · simp only [hidle, hnext, Option.orElse_none, ite_self]

/-- Both halves of a served line enter the line cache with the words of memory. -/
theorem Fetching.fillHalf {s t : State} {n p : Nat} {ls : List FLine} (h : Fetching s n p ls t) (hs : CleanMem s) (q : Nat) :
    Fetching s n p ls (fillHalf t n false q) := by
  unfold Machine.fillHalf
  split
  · exact h
  · rw [if_neg Bool.false_ne_true, readLine_clean (h.clean hs), h.memLine_eq]
    exact h.fill q

theorem Fetching.fillFlash {s t : State} {n p l : Nat} {ls : List FLine} (h : Fetching s n p ls t) (hs : CleanMem s) :
    Fetching s n p ls (fillFlash t n { core := n, line := l, kind := .demand }) :=
  (h.fillHalf hs _).fillHalf hs _

/-! The channel's turn leaves memory, its banks and its map alone. -/

section Turn

variable (s : State) (n : Nat) (flash : Bool)

theorem getCluster_flashServed_eq (c : Nat) : ∃ f l, getCluster (flashServed s n flash) c = { getCluster s c with flash := f, flashLast := l } := by
  obtain ⟨hown, hother⟩ := getCluster_flashServed s n flash
  by_cases hc : c = clusterOf n
  · exact ⟨_, _, hc ▸ hown⟩
  · exact ⟨_, _, hother c hc⟩

@[simp] theorem getBank_flashServed (c b : Nat) : getBank (flashServed s n flash) c b = getBank s c b := by
  obtain ⟨f, l, h⟩ := getCluster_flashServed_eq s n flash c
  rw [getBank, h]
  rfl

@[simp] theorem isDet_flashServed (m : Nat) : isDet (flashServed s n flash) m = isDet s m := by
  obtain ⟨f, l, h⟩ := getCluster_flashServed_eq s n flash (clusterOf m)
  rw [isDet, h, isDet]

@[simp] theorem getCore_flashServed (m : Nat) : getCore (flashServed s n flash) m = getCore s m := by
  rw [flashServed_frame]
  rfl

theorem lineError_flashServed (m p : Nat) (dev : Bool) : lineError (flashServed s n flash) m p dev = lineError s m p dev :=
  lineError_congr (by rw [flashServed_frame]) (isDet_flashServed ..) (getBank_flashServed s n flash) (by rw [flashServed_frame]) p dev

theorem memLine_flashServed (m p : Nat) : memLine (flashServed s n flash) m p = memLine s m p := by
  have hvis : ∀ w, visWord (flashServed s n flash) w = visWord s w := fun w => by
    have hmerge : mergeOf (flashServed s n flash) w = mergeOf s w := by simp only [mergeOf, getBank_flashServed]
    rw [visWord, hmerge, flashServed_frame]
    rfl
  have hbeam : ∀ b, getBeam (flashServed s n flash) b = getBeam s b := fun b => by rw [flashServed_frame]; rfl
  simp only [memLine, anyWord, hvis, hbeam]

theorem CleanMem.flashServed {s : State} (h : CleanMem s) : CleanMem (flashServed s n flash) where
  ecc := by rw [flashServed_frame]; exact h.ecc
  loan c b := by rw [getBank_flashServed]; exact h.loan c b

theorem WantsLine.flashServed {s : State} {m o p : Nat} (h : WantsLine s m o p) : WantsLine (flashServed s n flash) m o p := by
  have hk := getCore_flashServed s n flash m
  exact ⟨by rw [flashServed_frame]; exact h.present, by rw [hk]; exact h.run, by rw [hk]; exact h.free, by rw [hk]; exact h.off, by rw [hk]; exact h.missing,
    by rw [hk]; exact h.addr, by rw [hk]; exact h.limit, h.space, by rw [hk, lineError_flashServed]; exact h.served⟩

end Turn

/-! ### FETCH_LINE_DELIVERY (R116 to R118) -/

/-- The requests for the channel that a delivery to core `n` completes. -/
def fetchMine (s : State) (n : Nat) (r : FlashReq) : Bool :=
  r.kind != .load || !(getCore s n).u.loads.any fun l => flashLoad s n l && l.addr.toNat / 64 == r.line

/-- The line of the request served enters the line cache, but for a load's (R116). -/
def servedLineCached (s : State) (n : Nat) : Option FlashReq → State
  | none => s
  | some r => if r.kind == .load then s else fillFlash s n r

theorem fetchDelivery_eq (s : State) (n : Nat) : fetchDelivery s n =
    let v := flashTurn s n (fetchMine s n)
    let t := servedLineCached v.1 n v.2
    if !corePresent t n || !fetches (getCore t n) || fetchWaits (getCore t n) n then t
    else modCore (deliverLines t n (v.2.map FlashReq.line) (wantedLines (isDet t n) (getCore t n))) n (fetchSettled (isDet t n) n) := by
  unfold fetchDelivery
  dsimp only
  generalize hv : flashTurn s n (fetchMine s n) = v
  obtain ⟨u, r⟩ := v
  rw [show (flashTurn s n fun r => r.kind != .load || !(getCore s n).u.loads.any fun l => flashLoad s n l && l.addr.toNat / 64 == r.line) = (u, r) from hv]
  cases r <;> rfl

/-- The delivery to a core that wants a line, the channel's turn having led from `s` to `u`, and the served line in the cache to `t`: the wanted line
comes with the words of memory, unless it has to come from the channel and is not the one served. -/
theorem WantsLine.fetchLineDelivery {s u t : State} {n o p : Nat} {r : Option FlashReq} (hw : WantsLine u n o p) (hs : CleanMem u)
    (h : Fetching u n p (getCore u n).i.lines t) (hturn : flashTurn s n (fetchMine s n) = (u, r)) (ht : servedLineCached u n r = t)
    (hserved : flashLineAt t n o = none ∨ flashLineAt t n o = r.map FlashReq.line) :
    ∃ t', exec (.fetchLineDelivery n) s = .next t' ∧ OnlyCore n u t' ∧ FetchOnly (getCore u n) (getCore t' n) ∧
      { off := o, ws := memLine u n p, err := none } ∈ (getCore t' n).i.lines := by
  have hexec : exec (.fetchLineDelivery n) s =
      .next (modCore (deliverLines t n (r.map FlashReq.line) [o, o + 32]) n (fetchSettled (isDet t n) n)) := by
    have hpresent : corePresent t n = true := by rw [h.only.1]; exact hw.present
    have hrun : Machine.fetches (getCore t n) = true := by rw [Machine.fetches, h.core.run]; exact hw.fetches
    have hfree : fetchWaits (getCore t n) n = false := by rw [fetchWaits, h.apOf_eq, h.core.core]; exact hw.free
    have hmissing : findLine (getCore t n).i.lines (fetchPc (getCore t n)) = none := by rw [h.lines, h.fetchPc_eq]; exact hw.missing
    show Host.Outcome.next (fetchDelivery s n) = _
    simp only [fetchDelivery_eq, hturn, ht, hpresent, hrun, hfree, Bool.not_true, Bool.or_self, Bool.false_eq_true, if_false,
      wantedLines_missing hmissing, h.fetchPc_eq, hw.off]
  obtain ⟨ls, hfetch, hmem⟩ := h.deliverLines hs hw hserved
  obtain ⟨hcore, hkeep⟩ := fetchSettled_keeps hfetch.core (isDet t n) n
  refine ⟨_, hexec, ⟨?_, fun m hm => (getCore_modCore_ne _ hm _).trans (hfetch.only.2 m hm)⟩, ?_, ?_⟩
  · rw [modCore, hfetch.only.1]
    rfl
  · rwa [getCore_modCore]
  · rw [getCore_modCore]
    exact hkeep _ (hfetch.lines.symm ▸ hmem) (by rw [hfetch.fetchPc_eq, hw.off])

/-- Settles O26: the channel's turn either serves nobody or this core's demand; then the wanted line is delivered from its source, or from a cache
that holds nothing else of it. -/
theorem fetchDeliversTheLine : Obligations.FetchDeliversTheLine := by
  unfold Obligations.FetchDeliversTheLine
  intro s n hpresent hecc hloan k o ap p v hrun hmissing hcache hfree delivered
  have hs : CleanMem s := ⟨hecc, hloan⟩
  have hholds : ∀ ws, CacheHolds k p ws := fun ws c hc => ⟨(hcache c hc).2, fun hq => absurd hq (hcache c hc).1⟩
  refine ⟨fun hlimit hspace herr hidle => ?source, fun l hl hturn => ?channel⟩
  case source =>
    have hw : WantsLine s n o p := ⟨hpresent, hrun, hfree, rfl, hmissing, rfl, hlimit, hspace, herr⟩
    have hnone : flashLineAt s n o = none := by
      obtain hwarden | ⟨-, hnext⟩ := hidle
      · simp [flashLineAt, isWarden, hwarden]
      · exact hw.flashLineAt_none (flashWant_of_flashNext hnext)
    obtain ⟨t, hexec, honly, hcore, hline⟩ :=
      hw.fetchLineDelivery hs (.start (hholds _)) (flashTurn_idle (hidle.imp_left decide_eq_true) _) rfl (.inl hnone)
    exact ⟨t, hexec, honly, honly.2, hcore.core, hcore.pc, hcore.run.trans hrun, hcore.steps, hline⟩
  case channel =>
    obtain ⟨hlens, hlimit, hspace, herr⟩ := flashLineAt_some hl
    have hw : WantsLine s n o p := ⟨hpresent, hrun, hfree, rfl, hmissing, rfl, hlimit, hspace, herr⟩
    have hk : getCore (flashServed s n true) n = k := getCore_flashServed ..
    have hclean := hs.flashServed n true
    have hfill := (Fetching.start (s := flashServed s n true) (n := n) (p := p) (hk.symm ▸ hholds _)).fillFlash (l := l) hclean
    have hserved := hfill.flashLineAt_served (o := o) (l := l) (by rw [hk]; exact flashLineAt_line hl)
    obtain ⟨t, hexec, ⟨hframe, hothers⟩, hcore, hline⟩ :=
      (hw.flashServed n true).fetchLineDelivery hclean hfill (flashTurn_serves hlens hturn rfl rfl) rfl hserved
    rw [hk] at hcore
    rw [memLine_flashServed] at hline
    have hclusters : t.clusters = (flashServed s n true).clusters := by rw [hframe]
    obtain ⟨hown, hother⟩ := getCluster_flashServed s n true
    refine ⟨t, hexec, ?_, ⟨fun m hm => (hothers m hm).trans (getCore_flashServed s n true m), hcore.core, hcore.pc, hcore.run.trans hrun, hcore.steps,
      hline⟩, fun c hc => ?_, ?_⟩
    · rw [hframe, flashServed_frame]
    · rw [getCluster, hclusters]
      exact hother c hc
    · rw [getCluster, hclusters]
      exact hown

end Sys2Proof.Machine

/-! SUPPORT. The loop trigger: its checks, the level it sets up, the level it ends (R130, R131). -/

namespace Sys2Proof.Machine

/-! ### The registers of a level (R129) -/

/-- Level `i` has in `k'` the registers it has in `k`. -/
def SameLevel (k k' : LensCore) (i : Nat) : Prop := loopLs k' i = loopLs k i ∧ loopLe k' i = loopLe k i ∧ loopLc k' i = loopLc k i

theorem SameLevel.trans {k k' k'' : LensCore} {i : Nat} (h : SameLevel k k' i) (h' : SameLevel k' k'' i) : SameLevel k k'' i :=
  ⟨h'.1.trans h.1, h'.2.1.trans h.2.1, h'.2.2.trans h.2.2⟩

theorem sameLevel_of_regs {k k' : LensCore} (hr : k'.r = k.r) (i : Nat) : SameLevel k k' i := by
  unfold SameLevel loopLs loopLe loopLc
  rw [hr]
  exact ⟨rfl, rfl, rfl⟩

/-- A write of a register of one level leaves the other levels alone. -/
theorem sameLevel_setLoopReg {i j : Nat} (hij : i ≠ j) (k : LensCore) (kind : Nat) (v : Word) : SameLevel k (setLoopReg k kind j v) i := by
  unfold setLoopReg
  split
  · exact ⟨Tab.get_put_ne _ hij .., rfl, rfl⟩
  · exact ⟨rfl, Tab.get_put_ne _ hij .., rfl⟩
  · exact ⟨rfl, rfl, Tab.get_put_ne _ hij ..⟩

@[simp] theorem loopLs_setLoopReg_ls (k : LensCore) (i : Nat) (v : Word) : loopLs (setLoopReg k 0 i v) i = v &&& 0xFFFFFFF8#32 := Tab.get_put_same ..
@[simp] theorem loopLe_setLoopReg_le (k : LensCore) (i : Nat) (v : Word) : loopLe (setLoopReg k 1 i v) i = v &&& 0xFFFFFFF8#32 := Tab.get_put_same ..
@[simp] theorem loopLc_setLoopReg_lc (k : LensCore) (i : Nat) (v : Word) : loopLc (setLoopReg k 2 i v) i = v := Tab.get_put_same ..
@[simp] theorem loopLs_setLoopReg_le (k : LensCore) (i j : Nat) (v : Word) : loopLs (setLoopReg k 1 j v) i = loopLs k i := rfl
@[simp] theorem loopLs_setLoopReg_lc (k : LensCore) (i j : Nat) (v : Word) : loopLs (setLoopReg k 2 j v) i = loopLs k i := rfl
@[simp] theorem loopLe_setLoopReg_lc (k : LensCore) (i j : Nat) (v : Word) : loopLe (setLoopReg k 2 j v) i = loopLe k i := rfl

/-- The depth depends on the counts alone. -/
theorem loopDepth_congr {k k' : LensCore} (h : k'.r.lc = k.r.lc) : loopDepth k' = loopDepth k := by
  unfold loopDepth loopLc
  rw [h]

/-- The end of the step touches no loop register. -/
theorem ctlEnd_loops (k : LensCore) : loopDepth (ctlEnd k) = loopDepth k ∧ ∀ i, SameLevel k (ctlEnd k) i := by
  obtain ⟨rem, hend, stepping, hk⟩ := ctlEnd_eq k
  rw [hk]
  exact ⟨loopDepth_congr rfl, fun _ => ⟨rfl, rfl, rfl⟩⟩

/-! ### The checks (R131) -/

/-- An offset with bits [2:0] cleared, as a number. -/
theorem toNat_and_clear3 (x : Word) : (x &&& 0xFFFFFFF8#32).toNat = x.toNat / 8 * 8 := by
  have hshift : x &&& 0xFFFFFFF8#32 = (x >>> 3) <<< 3 := by
    ext i hi
    interval_cases i <;> simp
  have hx := x.isLt
  rw [hshift, BitVec.toNat_shiftLeft, BitVec.toNat_ushiftRight, Nat.shiftLeft_eq, Nat.shiftRight_eq_div_pow]
  omega

/-- The checks of a loop trigger that stands alone in its bundle. -/
theorem loopTrigFails_alone (k : LensCore) (a : Word) (succ : Nat) : loopTrigFails k k a succ false =
    if a ≠ 0 ∧ loopDepth k = 4 then some 8
    else if (a = 0 ∧ loopDepth k = 0) ∨ (a ≠ 0 ∧ (sk k 0x260 &&& 0xFFFFFFF8#32).toNat < succ) then some 9
    else none := by
  rw [toNat_and_clear3, ite_or]
  rfl

section Plan

variable {s : State} {n : Nat} (a : Word) (hend : endsActive (getCore s n) (getCore s n).i.pc.toNat = false)
include hend

theorem loopChecks_loop : loopChecks (getCore s n) (getCore s n) [soloBundle s n 0x268 a] [(soloMove 0x268 a, a)] =
    (loopTrigFails (getCore s n) (getCore s n) a ((getCore s n).i.pc.toNat + 8) false).map soloFail := by
  have hview : isView 0x268 = false := rfl
  unfold loopChecks
  cases hfail : loopTrigFails (getCore s n) (getCore s n) a ((getCore s n).i.pc.toNat + 8) false <;> simp [hview, hend, hfail, soloFail]

/-- The checks of R131 alone decide whether a loop trigger traps or takes effect. -/
theorem planMoves_loop : planMoves s n [soloBundle s n 0x268 a] none =
    (loopTrigFails (getCore s n) (getCore s n) a ((getCore s n).i.pc.toNat + 8) false).elim (.go (ctlWork s n 0x268 a .loop none))
      fun c => .fault s (mkFault (getCore s n).i.pc.toNat c 0 false none none) false := by
  have ht : trigOf 0x268 = some (.ctl .loop) := rfl
  have hm : moveCheck s (isSup (getCore s n)) (soloMove 0x268 a) = none := moveCheck_soloMove ht rfl (.inr rfl)
  have hx : isTransfer (soloMove 0x268 a) = false := rfl
  have hd := no_bits (n := n) (k := getCore s n) (a := a) ht (fun _ _ => Op.noConfusion) (fun _ => Op.noConfusion)
  have hh : trigHold s n (getCore s n) (.ctl .loop) a = .none := rfl
  have hc : (trigCheck s n (getCore s n) (.ctl .loop) a).2 = .ok 0 0 := rfl
  have hw : writeMoves (getCore s n) n [] = getCore s n := rfl
  unfold planMoves
  cases hfail : loopTrigFails (getCore s n) (getCore s n) a ((getCore s n).i.pc.toNat + 8) false <;>
  simp [filter_guardOf_soloMove, firstIllegal_soloMove, hm, firstConflict_soloMove ht, readAll_soloMove, valuesOf, firstPoison, writeMoves_soloMove ht, hx,
    resultConflict_soloMove, hd, trigMoves_soloMove ht, firstHold_soloMove, hh, checkTrigs_soloMove_ok hc, loopChecks_loop a hend, hfail, soloFail,
    hw, ctlWork, soloWork]

end Plan

/-! ### The effect (R130, R131) -/

/-- Level `d` set up: its start, its end from `ctl.x`, its count (R130). -/
def openLevel (k : LensCore) (d : Nat) (a : Word) (succ : Nat) : LensCore :=
  setLoopReg (setLoopReg (setLoopReg k 0 d (BitVec.ofNat 32 succ)) 1 d (sk k 0x260)) 2 d a

theorem openLevel_level (k : LensCore) (d : Nat) (a : Word) (succ : Nat) :
    loopLs (openLevel k d a succ) d = BitVec.ofNat 32 succ &&& 0xFFFFFFF8#32 ∧ loopLe (openLevel k d a succ) d = sk k 0x260 &&& 0xFFFFFFF8#32 ∧
      loopLc (openLevel k d a succ) d = a := by
  simp [openLevel]

theorem sameLevel_openLevel {d i : Nat} (hi : i ≠ d) (k : LensCore) (a : Word) (succ : Nat) : SameLevel k (openLevel k d a succ) i :=
  ((sameLevel_setLoopReg hi ..).trans (sameLevel_setLoopReg hi ..)).trans (sameLevel_setLoopReg hi ..)

theorem doLoop_zero (k : LensCore) (succ : Nat) : doLoop k 0 succ = setLoopReg k 2 (loopDepth k - 1) 0 := rfl

/-- Besides its registers, setting up a level fills its loop-start buffer or waits for the lines of it (R134). -/
theorem doLoop_open {a : Word} (ha : a ≠ 0) (k : LensCore) (succ : Nat) : ∃ buf wait, doLoop k a succ =
    modIssue (openLevel k (loopDepth k) a succ) fun i => { i with loopBuf := buf, loopWait := wait } := by
  unfold doLoop
  dsimp only
  rw [if_neg ha]
  unfold modIssue
  dsimp only
  split
  · exact ⟨_, k.i.loopWait, rfl⟩
  · exact ⟨_, _, rfl⟩

/-- The core after a loop trigger that passes its checks: the bundle at `succ` next. -/
def looped (k : LensCore) (a : Word) (succ : Nat) : LensCore := modIssue (doLoop (ctlEnd k) a succ) fun i => { i with pc := BitVec.ofNat 32 succ }

theorem looped_keeps (k : LensCore) (a : Word) (succ : Nat) :
    let k' := looped k a succ
    k'.g = k.g ∧ k'.bits = k.bits ∧ k'.u = k.u ∧ k'.i.pc = BitVec.ofNat 32 succ ∧ k'.i.steps = k.i.steps + 1 ∧ k'.i.fills = k.i.fills := by
  obtain ⟨rem, hend, stepping, hk⟩ := ctlEnd_eq k
  unfold looped
  by_cases ha : a = 0
  · rw [ha, doLoop_zero, hk]
    exact ⟨rfl, rfl, rfl, rfl, rfl, rfl⟩
  · obtain ⟨buf, wait, hopen⟩ := doLoop_open ha (ctlEnd k) succ
    rw [hopen, hk]
    exact ⟨rfl, rfl, rfl, rfl, rfl, rfl⟩

theorem looped_opens {a : Word} (ha : a ≠ 0) (k : LensCore) (succ : Nat) :
    let k' := looped k a succ
    let d := loopDepth k
    loopLs k' d = BitVec.ofNat 32 succ &&& 0xFFFFFFF8#32 ∧ loopLe k' d = sk k 0x260 &&& 0xFFFFFFF8#32 ∧ loopLc k' d = a ∧
      ∀ i, i ≠ d → SameLevel k k' i := by
  intro k' d
  obtain ⟨hdepth, hsame⟩ := ctlEnd_loops k
  obtain ⟨buf, wait, hopen⟩ := doLoop_open ha (ctlEnd k) succ
  have hr : k'.r = (openLevel (ctlEnd k) d a succ).r := by
    simp only [k', looped, hopen, hdepth, d]
    rfl
  have hx : sk (ctlEnd k) 0x260 = sk k 0x260 := by
    obtain ⟨rem, hend, stepping, hk⟩ := ctlEnd_eq k
    rw [hk]
    rfl
  have hto := sameLevel_of_regs hr
  obtain ⟨hls, hle, hlc⟩ := openLevel_level (ctlEnd k) d a succ
  obtain ⟨tols, tole, tolc⟩ := hto d
  exact ⟨tols.trans hls, tole.trans (hx ▸ hle), tolc.trans hlc,
    fun i hi => ((hsame i).trans (sameLevel_openLevel hi ..)).trans (hto i)⟩

theorem looped_zero (k : LensCore) (succ : Nat) :
    let k' := looped k 0 succ
    let d := loopDepth k - 1
    loopLc k' d = 0 ∧ loopLs k' d = loopLs k d ∧ loopLe k' d = loopLe k d ∧ ∀ i, i ≠ d → SameLevel k k' i := by
  intro k' d
  obtain ⟨hdepth, hsame⟩ := ctlEnd_loops k
  have hr : k'.r = (setLoopReg (ctlEnd k) 2 d 0).r := by
    simp only [k', looped, doLoop_zero, hdepth, d]
    rfl
  have hto := sameLevel_of_regs hr
  obtain ⟨tols, tole, tolc⟩ := hto d
  obtain ⟨hls, hle, -⟩ := hsame d
  exact ⟨tolc.trans (loopLc_setLoopReg_lc ..), tols.trans hls, tole.trans hle,
    fun i hi => ((hsame i).trans (sameLevel_setLoopReg hi ..)).trans (hto i)⟩

theorem afterStep_loop (s : State) (n : Nat) (a : Word) : afterStep (setCore s n (ctlEnd (getCore s n))) n (ctlWork s n 0x268 a .loop none) =
    setCore s n (looped (getCore s n) a ((getCore s n).i.pc.toNat + 8)) := by
  simp [afterStep, ctlWork, soloWork, modCore_setCore, looped]

/-! ### The command -/

section Command

variable {s : State} {n : Nat} {a : Word} (h : takesTrigger s n = true) (hend : endsActive (getCore s n) (getCore s n).i.pc.toNat = false)
include h hend

theorem exec_ctlLoop (hok : loopTrigFails (getCore s n) (getCore s n) a ((getCore s n).i.pc.toNat + 8) false = none) :
    exec (.ctlLoop n a) s = .next (setCore s n (looped (getCore s n) a ((getCore s n).i.pc.toNat + 8))) := by
  have hplan := planMoves_loop a hend
  rw [hok] at hplan
  show Host.Outcome.next (soloTrigger s n 0x268 a) = _
  rw [soloTrigger_eq h, hplan, ← afterStep_loop, ← perform_ctl rfl]
  rfl

theorem trapped_ctlLoop {c : Nat} (hbad : loopTrigFails (getCore s n) (getCore s n) a ((getCore s n).i.pc.toNat + 8) false = some c) :
    Trapped s n (.ctlLoop n a) (mkFault (getCore s n).i.pc.toNat c 0 false none none) := by
  have hplan := planMoves_loop a hend
  rw [hbad] at hplan
  exact trapped_of_plan h rfl hplan

end Command

/-- Settles O16: the checks of R131 decide; a trigger that passes them opens the next level or ends the innermost, one that fails changes nothing. -/
theorem loopTriggerSetsLevel : Obligations.LoopTriggerSetsLevel := by
  unfold Obligations.LoopTriggerSetsLevel
  intro s n a h k o d e hend same done
  have hfails : loopTrigFails k k a (o + 8) false =
      if a ≠ 0 ∧ d = 4 then some 8 else if (a = 0 ∧ d = 0) ∨ (a ≠ 0 ∧ e.toNat < o + 8) then some 9 else none := loopTrigFails_alone k a (o + 8)
  obtain ⟨hg, hbits, hu, hpc, hsteps, hfills⟩ := looped_keeps k a (o + 8)
  have hdone : loopTrigFails k k a (o + 8) false = none → ∀ P : LensCore → Prop, P (looped k a (o + 8)) → done P := by
    intro hok P hP
    refine ⟨_, exec_ctlLoop h hend hok, onlyCore_setCore .., ?_⟩
    rw [getCore_setCore]
    exact ⟨hg, hbits, hu, hP⟩
  have htrapped : ∀ c, loopTrigFails k k a (o + 8) false = some c →
      done fun k' => k'.i.fault.map (fun f => f.cause) = some c ∧ (∀ i, same k' i) ∧ k'.i.steps = k.i.steps := by
    intro c hbad
    obtain ⟨t, hexec, honly, hfault, htu, htbits, htg, htr, htsteps⟩ := trapped_ctlLoop h hend hbad
    exact ⟨t, hexec, honly, htg, htbits, htu, by rw [hfault]; rfl, sameLevel_of_regs htr, htsteps⟩
  clear_value done
  refine ⟨fun ⟨ha, hd, he⟩ => ?opens, fun ⟨ha, hd⟩ => ?ends, fun hbad => ?traps⟩
  case opens =>
    have hok : loopTrigFails k k a (o + 8) false = none := by
      rw [hfails, if_neg fun hfull => Nat.ne_of_lt hd hfull.2, if_neg]
      rintro (⟨hzero, -⟩ | ⟨-, hlow⟩)
      · exact ha hzero
      · exact Nat.not_lt.2 he hlow
    obtain ⟨hls, hle, hlc, hsame⟩ := looped_opens ha k (o + 8)
    exact hdone hok _ ⟨hls, hle, hlc, hsame, hpc, hsteps, hfills⟩
  case ends =>
    have hok : loopTrigFails k k a (o + 8) false = none := by
      rw [hfails, if_neg fun hfull => hfull.1 ha, if_neg]
      rintro (⟨-, hnone⟩ | ⟨hne, -⟩)
      · exact Nat.ne_of_gt hd hnone
      · exact hne ha
    subst ha
    obtain ⟨hlc, hls, hle, hsame⟩ := looped_zero k (o + 8)
    exact hdone hok _ ⟨hlc, hls, hle, hsame, hpc, hsteps⟩
  case traps =>
    have hcause : loopTrigFails k k a (o + 8) false = some (if a ≠ 0 ∧ d = 4 then 8 else 9) := by
      rw [hfails]
      by_cases hfull : a ≠ 0 ∧ d = 4
      · rw [if_pos hfull, if_pos hfull]
      · rw [if_neg hfull, if_neg hfull, if_pos]
        obtain hfull' | hnone | ⟨ha, -, hlow⟩ := hbad
        · exact absurd hfull' hfull
        · exact .inl hnone
        · exact .inr ⟨ha, hlow⟩
    exact htrapped _ hcause

end Sys2Proof.Machine

/-! SUPPORT. One bank of a cluster written, and the writes of BANKOWN and BANKCFG (R168 to R170, R178). -/

namespace Sys2Proof.Machine

/-! ### One bank -/

/-- Of the clusters only bank `k` of cluster `c` differs. -/
structure BankBut (c k : Nat) (s t : State) : Prop where
  clusters : ∀ x, x ≠ c → getCluster t x = getCluster s x
  rest : { getCluster t c with banks := [] } = { getCluster s c with banks := [] }
  banks : ∀ j, j ≠ k → getBank t c j = getBank s c j

namespace BankBut

variable {c k : Nat} {s t u : State}

theorem refl (s : State) : BankBut c k s s := ⟨fun _ _ => rfl, rfl, fun _ _ => rfl⟩

theorem trans (h1 : BankBut c k s t) (h2 : BankBut c k t u) : BankBut c k s u :=
  ⟨fun x hx => (h2.clusters x hx).trans (h1.clusters x hx), h2.rest.trans h1.rest, fun j hj => (h2.banks j hj).trans (h1.banks j hj)⟩

theorem modBank (s : State) (c k : Nat) (f : Bank → Bank) : BankBut c k s (modBank s c k f) :=
  ⟨fun _ hx => getCluster_modCluster_ne s hx _, by rw [Machine.modBank, getCluster_modCluster]; rfl,
    fun _ hj => getBank_modBank_ne s (fun h => hj (Prod.mk.inj h).2) f⟩

end BankBut

/-! ### Who may write, and what (R168, R169) -/

theorem masterOwns_core_iff (s : State) (c k n : Nat) : masterOwns s c k (.core n) = true ↔
    (128 ≤ n ∧ s.active = some n) ∨ (n < 128 ∧ n / 4 = c ∧ (getBank s c k).owner = n % 4) := by
  by_cases hn : 128 ≤ n
  · simp [masterOwns, isWarden, hn, Nat.not_lt.2 hn]
  · simp [masterOwns, isWarden, hn, Nat.not_le.1 hn]

theorem ownerServes_iff (s : State) (c o : Nat) : ownerServes s c o = true ↔
    if o = 4 then s.active ≠ none else corePresent s (4 * c + o) = true ∧ (getCore s (4 * c + o)).i.run ≠ .retired := by
  unfold ownerServes
  split
  · rw [Option.isSome_iff_ne_none]
  · simp [isRetired]

/-- The conditions of R169 on a write of BANKOWN. -/
def OwnerAccepted (s : State) (m : Master) (c k : Nat) (v : Word) : Prop :=
  masterOwns s c k m = true ∧ (getBank s c k).pend = none ∧ field v 0 3 ≤ 4 ∧ ownerServes s c (field v 0 3) = true

section Write

variable {s : State} {m : Master} {c k : Nat} {v : Word}

theorem exec_bankownWrite (hc : c < nClusters s) (hk : k < 4) : exec (.bankownWrite m c k v) s = .next (bankownWrite s m c k v) :=
  congrArg _ (if_pos ⟨hc, hk⟩)

theorem exec_bankcfgWrite (hc : c < nClusters s) (hk : k < 4) : exec (.bankcfgWrite m c k v) s = .next (bankcfgWrite s m c k v) :=
  congrArg _ (if_pos ⟨hc, hk⟩)

/-- What a write of BANKOWN does: an accepted one starts a handover unless it names the owner, any other is refused. -/
theorem bankownWrite_cases (s : State) (m : Master) (c k : Nat) (v : Word) :
    (OwnerAccepted s m c k v → field v 0 3 = (getBank s c k).owner → bankownWrite s m c k v = s) ∧
    (OwnerAccepted s m c k v → field v 0 3 ≠ (getBank s c k).owner →
      ∃ i, bankownWrite s m c k v = modBank s c k fun b => { b with pend := some (field v 0 3), pendId := i }) ∧
    (¬ OwnerAccepted s m c k v → bankownWrite s m c k v = setRefused s c k) := by
  have hguard : (!masterOwns s c k m || (getBank s c k).pend.isSome || decide (4 < field v 0 3) || !ownerServes s c (field v 0 3)) = false ↔
      OwnerAccepted s m c k v := by
    simp [OwnerAccepted, and_assoc]
  unfold bankownWrite
  dsimp only
  refine ⟨fun h heq => ?same, fun h hne => ?handover, fun h => ?refused⟩
  case same => rw [hguard.2 h, if_neg Bool.false_ne_true, if_pos heq]
  case handover => exact ⟨_, by rw [hguard.2 h, if_neg Bool.false_ne_true, if_neg hne]⟩
  case refused => exact if_pos (eq_true_of_ne_false (mt hguard.1 h))

end Write

/-- Settles O31: a write is refused, starts a handover or does nothing; whichever it is, one bank alone is written. -/
theorem bankOwnershipWrites : Obligations.BankOwnershipWrites := by
  unfold Obligations.BankOwnershipWrites
  intro s n c k v hc hk b o owner serves accepted only
  have howner : masterOwns s c k (.core n) = true ↔ owner := masterOwns_core_iff s c k n
  have haccepted : OwnerAccepted s (.core n) c k v ↔ accepted :=
    and_congr howner (and_congr_right' (and_congr_right' (ownerServes_iff s c o)))
  obtain ⟨hsame, hhandover, hrefused⟩ := bankownWrite_cases s (.core n) c k v
  have honly : ∀ {cmd f} {P : Bank → Prop}, exec cmd s = .next (modBank s c k f) → P (f b) → only cmd P := fun {cmd f P} hexec hP =>
    have hbut := BankBut.modBank s c k f
    ⟨_, hexec, rfl, hbut.clusters, hbut.rest, hbut.banks, (getBank_modBank s c k f).symm ▸ hP⟩
  clear_value only
  have hown := exec_bankownWrite (m := .core n) (v := v) hc hk
  have hcfg := exec_bankcfgWrite (m := .core n) (v := v) hc hk
  refine ⟨fun ⟨h, heq⟩ => ?same, fun ⟨h, hne⟩ => ?handover, fun h => ?refused, fun h => ?config, fun h => ?configRefused⟩
  case same => rw [hown, hsame (haccepted.2 h) heq]
  case handover =>
    obtain ⟨i, hi⟩ := hhandover (haccepted.2 h) hne
    exact honly (hi ▸ hown) ⟨i, rfl⟩
  case refused => exact honly (hrefused (mt haccepted.1 h) ▸ hown) rfl
  case config =>
    rw [bankcfgWrite, if_pos (howner.2 h)] at hcfg
    exact honly hcfg rfl
  case configRefused =>
    rw [bankcfgWrite, if_neg (mt howner.1 h)] at hcfg
    exact honly hcfg rfl

end Sys2Proof.Machine

/-! SUPPORT. Merge entries written out of a bank in a memory without errors (R157), and the handover that waits for them (R170). -/

namespace Sys2Proof.Machine

/-! ### CLEVT bits (R178) -/

theorem setClevt_state (s : State) (c : Nat) (mask : Word) :
    let t := setClevt s c mask
    t = { s with clusters := t.clusters, router := { s.router with raised := t.router.raised } } := by
  unfold setClevt
  dsimp only
  split <;> rfl

theorem getCluster_setClevt (s : State) (c x : Nat) (mask : Word) : getCluster (setClevt s c mask) x =
    if x = c then { getCluster s c with clevt := (getCluster s c).clevt ||| mask } else getCluster s x := by
  have hset : getCluster (setClevt s c mask) x =
      getCluster (setCluster s c { getCluster s c with clevt := (getCluster s c).clevt ||| mask }) x := by
    unfold setClevt
    dsimp only
    split <;> rfl
  rw [hset]
  split
  next hx => rw [hx, getCluster_setCluster]
  next hx => exact getCluster_setCluster_ne s hx _

@[simp] theorem getBank_setClevt (s : State) (c x j : Nat) (mask : Word) : getBank (setClevt s c mask) x j = getBank s x j := by
  rw [getBank, getCluster_setClevt]
  split
  next hx => rw [hx]; rfl
  next => rfl

/-- Bits that are set are read. -/
theorem or_and_cancel_right (x m : Word) : (x ||| m) &&& m = m := by
  ext
  simp +contextual

/-! ### The merge entry of one word (R157) -/

/-- What every reader sees rests on memory and the merge buffers. -/
theorem visWord_congr {s t : State} (hmem : t.mem = s.mem) (hmerge : ∀ c k, (getBank t c k).merge = (getBank s c k).merge) (w : Nat) :
    visWord t w = visWord s w := by
  have hof : mergeOf t w = mergeOf s w := by
    unfold mergeOf
    split
    · rfl
    · rw [hmerge]
  rw [visWord, hof, rawWord, hmem, visWord, rawWord]

/-- A change of the bank that keeps its merge buffer changes no word a reader sees. -/
theorem visWord_modBank {f : Bank → Bank} (hf : ∀ b, (f b).merge = b.merge) (s : State) (c k w : Nat) :
    visWord (modBank s c k f) w = visWord s w := by
  refine visWord_congr (s := s) (t := modBank s c k f) rfl (fun x j => ?_) w
  by_cases hxj : (x, j) = (c, k)
  · obtain ⟨rfl, rfl⟩ := Prod.mk.inj hxj
    rw [getBank_modBank, hf]
  · rw [getBank_modBank_ne s hxj]

section Word

variable {s : State} {c k w : Nat}

theorem mergeOf_bank (hw : bankAt (8 * w) = some (c, k)) : mergeOf s w = (getBank s c k).merge.find? fun e => e.word == w := by
  rw [mergeOf, hw]

theorem mergeOf_none_iff (hw : bankAt (8 * w) = some (c, k)) : mergeOf s w = none ↔ ∀ e ∈ (getBank s c k).merge, e.word ≠ w := by
  simp [mergeOf_bank hw]

theorem visWord_of_no_entry (h : mergeOf s w = none) : visWord s w = rawWord s w := by rw [visWord, h]

/-- A word without an entry is not written. -/
theorem forceMerge_of_no_entry (hw : bankAt (8 * w) = some (c, k)) (h : mergeOf s w = none) : forceMerge s w = s := by
  rw [mergeOf_bank hw] at h
  simp only [forceMerge, hw, h]

/-- The entry of a word leaves its bank, and memory holds the word as every reader saw it. -/
theorem forceMerge_of_entry (he : s.ecc = []) (hw : bankAt (8 * w) = some (c, k)) (h : mergeOf s w ≠ none) :
    forceMerge s w = setRawWord (withoutMerge s c k w) w (visWord s w) := by
  obtain ⟨e, hof⟩ := Option.ne_none_iff_exists'.1 h
  rw [visWord, hof]
  rw [mergeOf_bank hw] at hof
  simp only [forceMerge, hw, hof]
  exact memWrite_noErrors (s := withoutMerge s c k w) he ..

/-- The entries of the bank's other words stand. -/
theorem getBank_forceMerge (he : s.ecc = []) (hw : bankAt (8 * w) = some (c, k)) :
    getBank (forceMerge s w) c k = { getBank s c k with merge := (getBank s c k).merge.filter fun e => e.word != w } := by
  by_cases h : mergeOf s w = none
  · have hall : (getBank s c k).merge.filter (fun e => e.word != w) = (getBank s c k).merge :=
      List.filter_eq_self.2 fun e hmem => bne_iff_ne.2 ((mergeOf_none_iff hw).1 h e hmem)
    rw [forceMerge_of_no_entry hw h, hall]
  · rw [forceMerge_of_entry he hw h]
    exact (getBank_modBank s c k _ : getBank (withoutMerge s c k w) c k = _)

/-- Without the entries of word `w` the merge entry of another word is the same. -/
theorem mergeOf_forceMerge_ne (he : s.ecc = []) (hw : bankAt (8 * w) = some (c, k)) {x : Nat} (hx : x ≠ w) :
    mergeOf (forceMerge s w) x = mergeOf s x := by
  by_cases h : mergeOf s w = none
  · rw [forceMerge_of_no_entry hw h]
  · rw [forceMerge_of_entry he hw h]
    show mergeOf (withoutMerge s c k w) x = _
    unfold mergeOf
    split
    · rfl
    next c' k' hat =>
      by_cases hck : (c', k') = (c, k)
      · obtain ⟨rfl, rfl⟩ := Prod.mk.inj hck
        rw [withoutMerge, getBank_modBank, List.find?_filter]
        congr 1
        funext e
        by_cases hex : e.word = x <;> simp [hex, hx]
      · rw [withoutMerge, getBank_modBank_ne s hck]

theorem mergeOf_forceMerge_same (he : s.ecc = []) (hw : bankAt (8 * w) = some (c, k)) : mergeOf (forceMerge s w) w = none := by
  rw [mergeOf_none_iff hw, getBank_forceMerge he hw]
  exact fun e hmem => bne_iff_ne.1 (List.mem_filter.1 hmem).2

end Word

/-! ### Entries written out -/

/-- In a memory without errors merge entries of bank `k` of cluster `c` were written out: its merge buffer and memory differ and nothing else, and
every reader sees every word as before (R157). -/
structure WritesOut (c k : Nat) (s t : State) : Prop where
  state : t = { s with clusters := t.clusters, mem := t.mem }
  wf : Mem.wf s.mem = true → Mem.wf t.mem = true
  but : BankBut c k s t
  bank : getBank t c k = { getBank s c k with merge := (getBank t c k).merge }
  vis : ∀ w, visWord t w = visWord s w

namespace WritesOut

variable {c k : Nat} {s t u : State}

theorem refl (s : State) : WritesOut c k s s := ⟨rfl, id, .refl s, rfl, fun _ => rfl⟩

theorem trans (h1 : WritesOut c k s t) (h2 : WritesOut c k t u) : WritesOut c k s u := by
  refine ⟨?_, h2.wf ∘ h1.wf, h1.but.trans h2.but, ?_, fun w => (h2.vis w).trans (h1.vis w)⟩
  · rw [h2.state, h1.state]
  · rw [h2.bank, h1.bank]

theorem ecc (h : WritesOut c k s t) : t.ecc = s.ecc := by rw [h.state]

/-- The entries of one word. -/
theorem forceMerge (he : s.ecc = []) (hwf : Mem.wf s.mem = true) {w : Nat} (hw : bankAt (8 * w) = some (c, k)) :
    WritesOut c k s (Machine.forceMerge s w) := by
  by_cases h : mergeOf s w = none
  · rw [forceMerge_of_no_entry hw h]
    exact .refl s
  · have hforce := forceMerge_of_entry he hw h
    have hbut : BankBut c k s (Machine.withoutMerge s c k w) := .modBank s c k _
    have hwf' : Mem.wf (Machine.withoutMerge s c k w).mem = true := hwf
    have hbank := getBank_forceMerge he hw
    refine ⟨by rw [hforce]; rfl, fun _ => hforce ▸ wf_setRawWord hwf' .., hforce ▸ ⟨hbut.clusters, hbut.rest, hbut.banks⟩, by rw [hbank],
      fun x => ?_⟩
    by_cases hx : x = w
    · rw [hx, visWord_of_no_entry (mergeOf_forceMerge_same he hw), hforce, rawWord_setRawWord_same hwf']
    · rw [visWord, mergeOf_forceMerge_ne he hw hx, hforce, rawWord_setRawWord_ne hwf' hx]
      rfl

/-- The entries of the words of a list: those of other words are left. -/
theorem words (l : List Nat) (he : s.ecc = []) (hwf : Mem.wf s.mem = true) (hl : ∀ w ∈ l, bankAt (8 * w) = some (c, k)) :
    WritesOut c k s (l.foldl Machine.forceMerge s) ∧
      ∀ e ∈ (getBank (l.foldl Machine.forceMerge s) c k).merge, e ∈ (getBank s c k).merge ∧ e.word ∉ l := by
  induction l generalizing s with
  | nil => exact ⟨.refl s, fun e hmem => ⟨hmem, List.not_mem_nil⟩⟩
  | cons w l ih =>
    obtain ⟨hw, hl⟩ := List.forall_mem_cons.1 hl
    have h1 := forceMerge he hwf hw
    obtain ⟨h2, hleft⟩ := ih (h1.ecc.trans he) (h1.wf hwf) hl
    refine ⟨h1.trans h2, fun e hmem => ?_⟩
    obtain ⟨hmem, hnot⟩ := hleft e hmem
    rw [getBank_forceMerge he hw] at hmem
    obtain ⟨hmem, hne⟩ := List.mem_filter.1 hmem
    exact ⟨hmem, List.not_mem_cons_of_ne_of_not_mem (bne_iff_ne.1 hne) hnot⟩

/-- Every entry of the bank. -/
theorem flushMerge (h : (getBank s c k).merge = [] ∨
      (s.ecc = [] ∧ Mem.wf s.mem = true) ∧ ∀ e ∈ (getBank s c k).merge, bankAt (8 * e.word) = some (c, k)) :
    WritesOut c k s (flushMerge s c k) ∧ (getBank (Machine.flushMerge s c k) c k).merge = [] := by
  obtain hempty | ⟨⟨he, hwf⟩, hbank⟩ := h
  · have hflush : Machine.flushMerge s c k = s := by rw [Machine.flushMerge, hempty, List.foldl_nil]
    rw [hflush]
    exact ⟨.refl s, hempty⟩
  have hflush : Machine.flushMerge s c k = ((getBank s c k).merge.map MergeEntry.word).foldl Machine.forceMerge s := (List.foldl_map ..).symm
  obtain ⟨hout, hleft⟩ := words ((getBank s c k).merge.map MergeEntry.word) he hwf (List.forall_mem_map.2 hbank)
  rw [hflush]
  refine ⟨hout, List.eq_nil_iff_forall_not_mem.2 fun e hmem => ?_⟩
  obtain ⟨hmem, hnot⟩ := hleft e hmem
  exact hnot (List.mem_map_of_mem hmem)

end WritesOut

/-! ### HANDOVER_COMPLETION (R170) -/

section Handover

variable {s : State} {c k o : Nat} (hpend : (getBank s c k).pend = some o) (hwait : handoverWaits s c k = false)

/-- The bank with its new owner, the event of the handover set. -/
def handedOver (s : State) (c k o : Nat) : State :=
  setClevt (modBank s c k fun b => { b with owner := o, pend := none, pendId := 0 }) c (1#32 <<< (20 + k))

include hpend hwait in
theorem exec_handoverCompletion : exec (.handoverCompletion c k) s = .next (handedOver (flushMerge s c k) c k o) := by
  show execHandoverCompletion c k s = _
  simp only [execHandoverCompletion, hpend, hwait, Bool.false_eq_true, if_false]
  rfl

theorem getBank_handedOver (s : State) (c k o : Nat) :
    getBank (handedOver s c k o) c k = { getBank s c k with owner := o, pend := none, pendId := 0 } :=
  (getBank_setClevt ..).trans (getBank_modBank ..)

theorem getCluster_handedOver (s : State) (c k o : Nat) :
    (getCluster (handedOver s c k o) c).clevt = (getCluster s c).clevt ||| 1#32 <<< (20 + k) ∧
      { getCluster (handedOver s c k o) c with banks := [], clevt := 0 } = { getCluster s c with banks := [], clevt := 0 } := by
  rw [handedOver, getCluster_setClevt, if_pos rfl, modBank, getCluster_modCluster]
  exact ⟨rfl, rfl⟩

theorem handedOver_others (s : State) (c k o : Nat) :
    (∀ x, x ≠ c → getCluster (handedOver s c k o) x = getCluster s x) ∧ ∀ j, j ≠ k → getBank (handedOver s c k o) c j = getBank s c j := by
  refine ⟨fun x hx => ?_, fun j hj => (getBank_setClevt ..).trans ((BankBut.modBank s c k _).banks j hj)⟩
  rw [handedOver, getCluster_setClevt, if_neg hx]
  exact (BankBut.modBank s c k _).clusters x hx

theorem visWord_handedOver (s : State) (c k o w : Nat) : visWord (handedOver s c k o) w = visWord s w := by
  have hmodBank := visWord_modBank (f := fun b => { b with owner := o, pend := none, pendId := 0 }) (fun _ => rfl) s c k w
  refine (visWord_congr ?_ (fun x j => ?_) w).trans hmodBank
  · rw [handedOver, setClevt_state]
  · rw [handedOver, getBank_setClevt]

end Handover

/-- Memory and clusters first, then clusters and raised events. -/
theorem state_of_writesOut {s u t : State} (hu : u = { s with clusters := u.clusters, mem := u.mem })
    (ht : t = { u with clusters := t.clusters, router := { u.router with raised := t.router.raised } }) :
    t = { s with clusters := t.clusters, mem := t.mem, router := { s.router with raised := t.router.raised } } := by
  obtain ⟨x, m, rfl⟩ : ∃ x m, u = { s with clusters := x, mem := m } := ⟨_, _, hu⟩
  obtain ⟨y, r, rfl⟩ : ∃ y r, t = { s with clusters := y, mem := m, router := { s.router with raised := r } } := ⟨_, _, ht⟩
  rfl

/-- Where the entries of the bank can be written out, a handover changes its owner and its buffer, and every reader sees every word as before. -/
theorem handedOver_flushed {s : State} {c k o : Nat} (h : (getBank s c k).merge = [] ∨
      (s.ecc = [] ∧ Mem.wf s.mem = true) ∧ ∀ e ∈ (getBank s c k).merge, bankAt (8 * e.word) = some (c, k)) :
    let t := handedOver (flushMerge s c k) c k o
    t = { s with clusters := t.clusters, mem := t.mem, router := { s.router with raised := t.router.raised } } ∧
      (∀ x, x ≠ c → getCluster t x = getCluster s x) ∧ (∀ j, j ≠ k → getBank t c j = getBank s c j) ∧
      getBank t c k = { getBank s c k with owner := o, pend := none, pendId := 0, merge := [] } ∧
      { getCluster t c with banks := [], clevt := 0 } = { getCluster s c with banks := [], clevt := 0 } ∧
      (getCluster t c).clevt = (getCluster s c).clevt ||| 1#32 <<< (20 + k) ∧ ∀ w, visWord t w = visWord s w := by
  intro t
  obtain ⟨hout, hempty⟩ := WritesOut.flushMerge h
  obtain ⟨hothers, hbanks⟩ := handedOver_others (flushMerge s c k) c k o
  obtain ⟨hclevt, hrest⟩ := getCluster_handedOver (flushMerge s c k) c k o
  refine ⟨?_, fun x hx => (hothers x hx).trans (hout.but.clusters x hx), fun j hj => (hbanks j hj).trans (hout.but.banks j hj), ?_, ?_, ?_,
    fun w => (visWord_handedOver ..).trans (hout.vis w)⟩
  · exact state_of_writesOut hout.state (setClevt_state ..)
  · rw [getBank_handedOver, hout.bank, hempty]
  · exact hrest.trans (congrArg (fun v => { v with clevt := 0 }) hout.but.rest)
  · rw [hclevt, congrArg Cluster.clevt hout.but.rest]

end Sys2Proof.Machine

/-! SUPPORT. Scrubs, the end of a scrub period and the expiry of histories (R180, R182, R183). -/

namespace Sys2Proof.Machine

/-! ### What reports and corrections leave alone (R180, R183, R184) -/

/-- The bytes of memory and their errors stand as they did. -/
structure MemoryStands (s t : State) : Prop where
  mem : t.mem = s.mem
  ecc : t.ecc = s.ecc

namespace MemoryStands

variable {s t u : State}

theorem refl (s : State) : MemoryStands s s := ⟨rfl, rfl⟩

theorem trans (h1 : MemoryStands s t) (h2 : MemoryStands t u) : MemoryStands s u := ⟨h2.mem.trans h1.mem, h2.ecc.trans h1.ecc⟩

theorem ite {p : Prop} [Decidable p] (h1 : MemoryStands s t) (h2 : MemoryStands s u) : MemoryStands s (if p then t else u) := by split <;> assumption

theorem raise (s : State) (src : Nat) : MemoryStands s (raise s src) := ⟨rfl, rfl⟩
theorem bumpEnt (s : State) (i j : Nat) : MemoryStands s (bumpEnt s i j) := ⟨rfl, rfl⟩
theorem modBank (s : State) (c k : Nat) (f : Bank → Bank) : MemoryStands s (modBank s c k f) := ⟨rfl, rfl⟩
theorem modQuad (s : State) (q : Nat) (f : Quad → Quad) : MemoryStands s (modQuad s q f) := ⟨rfl, rfl⟩
theorem setBeam (s : State) (b : Nat) (x : BeamCtx) : MemoryStands s (setBeam s b x) := ⟨rfl, rfl⟩
theorem logErr (s : State) (code origin : Nat) (data : Octets) : MemoryStands s (logErr s code origin data) := ⟨rfl, rfl⟩

theorem emergency (s : State) (code origin : Nat) (data : Octets) : MemoryStands s (emergency s code origin data) := .ite ⟨rfl, rfl⟩ ⟨rfl, rfl⟩

theorem setClevt (s : State) (c : Nat) (mask : Word) : MemoryStands s (setClevt s c mask) := .ite ⟨rfl, rfl⟩ ⟨rfl, rfl⟩

theorem setBeevt (s : State) (q bit i : Nat) : MemoryStands s (setBeevt s q bit i) := .ite ⟨rfl, rfl⟩ ⟨rfl, rfl⟩

theorem reportPlace (s : State) (w : Nat) (p : Place) : MemoryStands s (reportPlace s w p) := by
  cases p with
  | bank c k => exact setClevt ..
  | beam q => exact .ite (setBeam ..) ((setBeam ..).trans (setBeevt ..))
  | xram c => exact setClevt ..
  | bits c => exact setClevt ..
  | scratch n => exact .ite (raise ..) (setClevt ..)
  | mgmt => exact raise ..
  | other => exact refl s

/-- Beside its report a newly poisoned word is marked so. -/
theorem newPoison (s : State) (w : Nat) : MemoryStands (setEcc s w 3) (newPoison s w) :=
  ((reportPlace ..).trans (logErr ..)).trans (bumpEnt ..)

theorem setHistory (s : State) (p : Place) (h : List Corr) : MemoryStands s (setHistory s p h) := by
  cases p with
  | scratch n => exact .ite ⟨rfl, rfl⟩ ⟨rfl, rfl⟩
  | _ => exact ⟨rfl, rfl⟩

theorem permanentWord (s : State) (w : Nat) : MemoryStands s (permanentWord s w) := by
  unfold Machine.permanentWord
  split
  · exact .ite ((modBank ..).trans (setClevt ..)) (((modBank ..).trans (setClevt ..)).trans (emergency ..))
  · exact .ite (modQuad ..) (((modQuad ..).trans (setBeevt ..)).trans (emergency ..))
  · exact refl s
  · exact bumpEnt ..

theorem noteCorrection (s : State) (w : Nat) : MemoryStands s (noteCorrection s w) := by
  refine (bumpEnt s 0x2400 6).trans ?_
  unfold Machine.noteCorrection
  dsimp only
  split
  · exact .ite ((setHistory ..).trans (permanentWord ..)) (setHistory ..)
  · refine .ite (setHistory ..) ?_
    split
    · exact (setHistory ..).trans (modBank ..)
    · exact setHistory ..

end MemoryStands

/-! ### The ECC state of a word (R179, R180) -/

theorem eccOf_of_stands {s t : State} (h : MemoryStands s t) (w : Nat) : eccOf t w = eccOf s w := by rw [eccOf, h.ecc, eccOf]

theorem eccOf_setEcc_zero {s : State} (hsorted : Tab.sorted s.ecc = true) (w : Nat) : eccOf (setEcc s w 0) w = 0 :=
  Tab.get_del_same _ w s.ecc hsorted

theorem eccOf_setEcc_ne_zero (s : State) (w : Nat) {v : Nat} (hv : v ≠ 0) : eccOf (setEcc s w v) w = v := by
  rw [eccOf, setEcc, if_neg hv]
  exact Tab.get_put_same ..

section Check

variable {s : State} {g : Nat}

theorem checkWord_standing (h : eccOf s g ≠ 1 ∧ eccOf s g ≠ 2) : (checkWord s g).1 = s := by
  unfold checkWord
  split
  next => rfl
  next h1 => exact absurd h1 h.1
  next h2 => exact absurd h2 h.2
  next => rfl

/-- A correctable error is corrected, and its word keeps its bytes. -/
theorem checkWord_correctable (h : eccOf s g = 1) (hsorted : Tab.sorted s.ecc = true) :
    eccOf (checkWord s g).1 g = 0 ∧ (checkWord s g).1.mem = s.mem := by
  have hnote := MemoryStands.noteCorrection (setEcc s g 0) g
  simp only [checkWord, h]
  exact ⟨(eccOf_of_stands hnote g).trans (eccOf_setEcc_zero hsorted g), hnote.mem⟩

/-- An uncorrectable one poisons its word. -/
theorem checkWord_uncorrectable (h : eccOf s g = 2) : eccOf (checkWord s g).1 g = 3 ∧ (checkWord s g).1.mem = s.mem := by
  have hpoison := MemoryStands.newPoison s g
  simp only [checkWord, h]
  exact ⟨(eccOf_of_stands hpoison g).trans (eccOf_setEcc_ne_zero s g (by decide)), hpoison.mem⟩

end Check

/-! ### SCRUB_WORD and SCRUB_PERIOD_END (R182) -/

theorem exec_scrubWord_absent {s : State} {m : MemId} {w : Nat} (h : memWord s m w = none) : exec (.scrubWord m w) s = .next s := by
  show execScrubWord m w s = _
  simp only [execScrubWord, h]

theorem exec_scrubWord {s : State} {m : MemId} {w g : Nat} (h : memWord s m w = some g) :
    exec (.scrubWord m w) s = .next { (checkWord s g).1 with polisher := passOver s.polisher m w } := by
  show execScrubWord m w s = _
  simp only [execScrubWord, h]

/-- A scrub of a word the part has checks it and counts it in the pass. -/
theorem scrubWord_spec {s : State} {m : MemId} {w g : Nat} (h : memWord s m w = some g) :
    (eccOf s g ≠ 1 ∧ eccOf s g ≠ 2 → exec (.scrubWord m w) s = .next { s with polisher := passOver s.polisher m w }) ∧
    (eccOf s g = 1 → Tab.sorted s.ecc = true →
      ∃ t, exec (.scrubWord m w) s = .next t ∧ eccOf t g = 0 ∧ t.mem = s.mem ∧ t.cores = s.cores ∧ t.polisher = passOver s.polisher m w) ∧
    (eccOf s g = 2 →
      ∃ t, exec (.scrubWord m w) s = .next t ∧ eccOf t g = 3 ∧ t.mem = s.mem ∧ t.cores = s.cores ∧ t.polisher = passOver s.polisher m w) := by
  have hrun := exec_scrubWord h
  have hcores := (UnitsStand.checkWord s g).cores
  refine ⟨fun hstand => ?_, fun h1 hsorted => ?_, fun h2 => ?_⟩
  · rw [hrun, checkWord_standing hstand]
  · obtain ⟨hecc, hmem⟩ := checkWord_correctable h1 hsorted
    exact ⟨_, hrun, hecc, hmem, hcores, rfl⟩
  · obtain ⟨hecc, hmem⟩ := checkWord_uncorrectable h2
    exact ⟨_, hrun, hecc, hmem, hcores, rfl⟩

theorem satInc_eq_min {top x : Nat} : satInc top x = min top (x + 1) := by
  unfold satInc
  split <;> omega

theorem exec_scrubPeriodEnd {s : State} (h : s.polisher.since + ent s 0x2400 1 * 1000000 ≤ s.tb) :
    exec .scrubPeriodEnd s = .next (if scrubTotal s ≤ s.polisher.done
      then { setEnt s 0x2400 4 (min 0xFFFFFFFF (ent s 0x2400 4 + 1)) with polisher := { done := 0, since := s.tb, pos := [] } }
      else { setEnt s 0x2400 5 (min 0xFFFFFFFF (ent s 0x2400 5 + 1)) with polisher := { s.polisher with since := s.tb } }) := by
  show execScrubPeriodEnd s = _
  rw [execScrubPeriodEnd, if_neg (Nat.not_lt.2 h), bumpEnt, bumpEnt, satInc_eq_min, satInc_eq_min]
  split <;> rfl

/-! ### CORRECTION_HISTORY_EXPIRY (R183) -/

theorem exec_correctionHistoryExpiry {s : State} {m : MemId} {g : Nat} (h : memWord s m 0 = some g) :
    exec (.correctionHistoryExpiry m) s = .next (setHistory s (placeOf g) (freshHist s.tb (historyAt s (placeOf g)))) := by
  show execCorrectionHistoryExpiry m s = _
  simp only [execCorrectionHistoryExpiry, h]

theorem setHistory_state (s : State) (p : Place) (h : List Corr) :
    let t := setHistory s p h
    t = { s with clusters := t.clusters, quads := t.quads, mhist := t.mhist } := by
  cases p with
  | scratch n =>
    simp only [setHistory]
    split <;> rfl
  | _ => rfl

/-- The history of a place is the one written; a place outside the memories has none. -/
theorem historyAt_setHistory (s : State) (p : Place) (h : List Corr) : historyAt (setHistory s p h) p = if p = .other then [] else h := by
  cases p with
  | bank c k => simp [historyAt, setHistory]
  | beam q => simp [historyAt, setHistory]
  | xram c => simp [historyAt, setHistory]
  | bits c => simp [historyAt, setHistory]
  | scratch n => cases hn : isWarden n <;> simp [historyAt, setHistory, hn]
  | mgmt => rfl
  | other => rfl

theorem historyAt_expired (s : State) (p : Place) :
    historyAt (setHistory s p (freshHist s.tb (historyAt s p))) p = (historyAt s p).filter fun e => decide (s.tb ≤ e.first + 86400000000000) := by
  rw [historyAt_setHistory]
  split
  next hp => rw [hp]; rfl
  next => rfl

end Sys2Proof.Machine

/-! SUPPORT. The loan of a window and its return (R184 to R187). -/

namespace Sys2Proof.Machine

/-! ### The words of a window (R143, R185) -/

/-- The first word of window `win` of a bank. -/
def windowBase (c k win : Nat) : Nat := (bankBase c k + win * 256) / 8

theorem windowBase_bytes (c k win : Nat) : 8 * windowBase c k win = bankBase c k + win * 256 := by
  unfold windowBase bankBase
  omega

theorem placeOf_window {c k win i : Nat} (hc : c < 32) (hk : k < 4) (hwin : win < 1024) (hi : i < 32) :
    placeOf (windowBase c k win + i) = .bank c k := by
  have hbytes := windowBase_bytes c k win
  unfold bankBase at hbytes
  unfold placeOf
  dsimp only
  rw [if_pos (by omega)]
  congr 1 <;> omega

/-! ### LOAN_START (R185) -/

section Start

variable {s : State} {c k : Nat}

/-- The state when the merge entries of the bank's next window are written out. -/
def windowForced (s : State) (c k : Nat) : State :=
  ((List.range 32).map fun i => windowBase c k (getBank s c k).nextWin + i).foldl forceMerge s

/-- The bank lends window `win`. -/
def lend (tb win : Nat) (shadow : List (BitVec 64 × Nat)) (b : Bank) : Bank :=
  { b with loan := some { win, shadow }, nextWin := (win + 1) % 1024, lastLoan := tb }

theorem exec_loanStart (h : mayLend s c k = true) : exec (.loanStart c k) s =
    .next (modBank (windowForced s c k) c k
      (lend s.tb (getBank s c k).nextWin (windowWords (windowForced s c k) c k (getBank s c k).nextWin))) := by
  show execLoanStart c k s = _
  rw [execLoanStart, if_pos h, windowForced, List.foldl_map]
  rfl

theorem mayLend_bounds (h : mayLend s c k = true) : c < 32 ∧ k < 4 := by
  simp only [mayLend, Bool.and_eq_true, decide_eq_true_eq] at h
  obtain ⟨⟨⟨⟨⟨⟨⟨⟨hc, hk⟩, -⟩, -⟩, -⟩, -⟩, -⟩, -⟩, -⟩ := h
  exact ⟨Nat.lt_of_lt_of_le hc (nClusters_le s), hk⟩

variable (h : mayLend s c k = true) (hwin : (getBank s c k).nextWin < 1024) (he : s.ecc = []) (hwf : Mem.wf s.mem = true)
include h hwin he hwf

/-- In a memory without errors the window's entries are written out and none of its words has one. -/
theorem windowForced_spec : WritesOut c k s (windowForced s c k) ∧
    ∀ i, i < 32 → mergeOf (windowForced s c k) (windowBase c k (getBank s c k).nextWin + i) = none := by
  obtain ⟨hc, hk⟩ := mayLend_bounds h
  have hbank : ∀ i, i < 32 → bankAt (8 * (windowBase c k (getBank s c k).nextWin + i)) = some (c, k) := fun i hi =>
    bankAt_of_placeOf (placeOf_window hc hk hwin hi)
  obtain ⟨hout, hleft⟩ := WritesOut.words ((List.range 32).map fun i => windowBase c k (getBank s c k).nextWin + i) he hwf
    (List.forall_mem_map.2 fun i hi => hbank i (List.mem_range.1 hi))
  refine ⟨hout, fun i hi => (mergeOf_none_iff (hbank i hi)).2 fun e hmem heq => ?_⟩
  exact (hleft e hmem).2 (heq ▸ List.mem_map_of_mem (List.mem_range.2 hi))

/-- The shadow holds the window's words as every reader sees them. -/
theorem windowWords_forced : windowWords (windowForced s c k) c k (getBank s c k).nextWin =
    (List.range 32).map fun i => (visWord s (windowBase c k (getBank s c k).nextWin + i), 0) := by
  obtain ⟨hout, hnone⟩ := windowForced_spec h hwin he hwf
  refine List.map_congr_left fun i hi => Prod.ext ?_ ?_
  · show rawWord _ (windowBase c k _ + i) = _
    rw [← visWord_of_no_entry (hnone i (List.mem_range.1 hi)), hout.vis]
  · show eccOf _ _ = 0
    rw [eccOf, hout.ecc, he]
    rfl

end Start

/-- Clusters and memory first, then the bank. -/
theorem modBank_state {s u : State} (hu : u = { s with clusters := u.clusters, mem := u.mem }) (c k : Nat) (f : Bank → Bank) :
    modBank u c k f = { s with clusters := (modBank u c k f).clusters, mem := (modBank u c k f).mem } := by
  obtain ⟨x, m, rfl⟩ : ∃ x m, u = { s with clusters := x, mem := m } := ⟨_, _, hu⟩
  rfl

/-- A bank that lends once entries of it are written out: it differs and nothing else, and every reader sees every word as before. -/
theorem WritesOut.lend {s u : State} {c k : Nat} (hout : WritesOut c k s u) (tb win : Nat) (shadow : List (BitVec 64 × Nat)) :
    let t := modBank u c k (lend tb win shadow)
    t = { s with clusters := t.clusters, mem := t.mem } ∧ BankBut c k s t ∧
      getBank t c k = Machine.lend tb win shadow { getBank s c k with merge := (getBank t c k).merge } ∧ ∀ w, visWord t w = visWord s w := by
  intro t
  have hbank : getBank t c k = Machine.lend tb win shadow (getBank u c k) := getBank_modBank ..
  refine ⟨modBank_state hout.state .., hout.but.trans (.modBank ..), ?_, fun w => ?_⟩
  · rw [hbank, hout.bank]
    rfl
  · exact (visWord_modBank (f := Machine.lend tb win shadow) (fun _ => rfl) u c k w).trans (hout.vis w)

/-- A loan in a memory without errors: of the device the bank and memory differ, which got its merge entries. -/
theorem loanStart_clean {s : State} {c k : Nat} (h : mayLend s c k = true) (hwin : (getBank s c k).nextWin < 1024) (he : s.ecc = [])
    (hwf : Mem.wf s.mem = true) :
    ∃ t, exec (.loanStart c k) s = .next t ∧ t = { s with clusters := t.clusters, mem := t.mem } ∧ BankBut c k s t ∧
      getBank t c k = lend s.tb (getBank s c k).nextWin
        ((List.range 32).map fun i => (visWord s (windowBase c k (getBank s c k).nextWin + i), 0))
        { getBank s c k with merge := (getBank t c k).merge } ∧
      ∀ w, visWord t w = visWord s w := by
  obtain ⟨hout, -⟩ := windowForced_spec h hwin he hwf
  have hrun := exec_loanStart h
  rw [windowWords_forced h hwin he hwf] at hrun
  exact ⟨_, hrun, hout.lend ..⟩

/-! ### Reports change no bank, permanent words no loan (R180, R184) -/

theorem getBank_newPoison (s : State) (w c k : Nat) : getBank (newPoison s w) c k = getBank s c k := by
  show getBank (reportPlace (setEcc s w 3) w (placeOf w)) c k = _
  cases placeOf w with
  | bank x j => exact getBank_setClevt ..
  | beam q =>
    simp only [reportPlace, setBeevt]
    split
    · rfl
    · split <;> rfl
  | xram x => exact getBank_setClevt ..
  | bits x => exact getBank_setClevt ..
  | scratch n =>
    simp only [reportPlace]
    split
    · rfl
    · exact getBank_setClevt ..
  | mgmt => rfl
  | other => rfl

@[simp] theorem getBank_emergency (s : State) (code origin : Nat) (data : Octets) (c k : Nat) :
    getBank (emergency s code origin data) c k = getBank s c k := by
  unfold emergency
  dsimp only
  split <;> rfl

/-- A change of one bank that keeps its loan keeps every bank's. -/
theorem loan_modBank {f : Bank → Bank} (hf : ∀ b, (f b).loan = b.loan) (s : State) (x j c k : Nat) :
    (getBank (modBank s x j f) c k).loan = (getBank s c k).loan := by
  by_cases hck : (c, k) = (x, j)
  · obtain ⟨rfl, rfl⟩ := Prod.mk.inj hck
    rw [getBank_modBank, hf]
  · rw [getBank_modBank_ne s hck]

theorem loan_permanentWord (s : State) (w c k : Nat) : (getBank (permanentWord s w) c k).loan = (getBank s c k).loan := by
  unfold permanentWord
  split
  · dsimp only
    split
    · rw [getBank_setClevt]
      refine loan_modBank ?_ ..
      exact fun _ => rfl
    · rw [getBank_emergency, getBank_setClevt]
      refine loan_modBank ?_ ..
      exact fun _ => rfl
  · dsimp only
    split
    · rfl
    · rw [getBank_emergency]
      unfold setBeevt
      dsimp only
      split <;> rfl
  · rfl
  · rfl

/-- A permanent word of a bank goes to a free spare. -/
theorem remap_permanentWord {s : State} {w c k : Nat} (hw : placeOf w = .bank c k) (hroom : (getBank s c k).remap.length < 16) :
    (getBank (permanentWord s w) c k).remap = (getBank s c k).remap ++ [w] := by
  simp only [permanentWord, hw, if_pos hroom, getBank_setClevt, getBank_modBank]

/-! ### A window restored (R185 to R187) -/

/-- Word `i` of the window restored from the shadow. -/
def restoreWord (w0 : Nat) (s : State) (e : (BitVec 64 × Nat) × Nat) : State :=
  let t := setEcc (setRawWord s (w0 + e.2) e.1.1) (w0 + e.2) (if e.1.2 = 3 then 3 else 0)
  if e.1.2 = 2 then newPoison t (w0 + e.2) else t

/-- The words of a shadow restored, from word `i` of the window on. -/
def restoreWords (w0 i : Nat) (l : List (BitVec 64 × Nat)) (s : State) : State := (l.zipIdx i).foldl (restoreWord w0) s

section Restore

variable {s : State} {c k : Nat} {l : Loan}

theorem restoreLoan_eq (h : (getBank s c k).loan = some l) :
    restoreLoan s c k = modBank (restoreWords (windowBase c k l.win) 0 l.shadow s) c k fun b => { b with loan := none } := by
  simp only [restoreLoan, h]
  rfl

theorem getBank_restoreWords (w0 i : Nat) (l : List (BitVec 64 × Nat)) (s : State) (c k : Nat) :
    getBank (restoreWords w0 i l s) c k = getBank s c k := by
  refine foldl_rel (R := fun s t : State => getBank t c k = getBank s c k) (fun _ => rfl) (fun h1 h2 => h2.trans h1) (fun t e => ?_) _ s
  unfold restoreWord
  dsimp only
  split
  · exact getBank_newPoison ..
  · rfl

theorem getBank_restoreLoan (h : (getBank s c k).loan = some l) : getBank (restoreLoan s c k) c k = { getBank s c k with loan := none } := by
  rw [restoreLoan_eq h, getBank_modBank, getBank_restoreWords]

theorem restoreLoan_bank (h : (getBank s c k).loan = some l) :
    (getBank (restoreLoan s c k) c k).loan = none ∧ (getBank (restoreLoan s c k) c k).remap = (getBank s c k).remap := by
  rw [getBank_restoreLoan h]
  exact ⟨rfl, rfl⟩

end Restore

/-- In a memory without errors a clean word is written back and nothing else is done. -/
theorem restoreWord_clean {s : State} (he : s.ecc = []) (w0 : Nat) {e : (BitVec 64 × Nat) × Nat} (hclean : e.1.2 = 0) :
    restoreWord w0 s e = setRawWord s (w0 + e.2) e.1.1 := by
  simp only [restoreWord, hclean, setEcc, show (setRawWord s (w0 + e.2) e.1.1).ecc = [] from he]
  exact congrArg (fun x => { setRawWord s (w0 + e.2) e.1.1 with ecc := x }) he.symm

/-- Memory outside a span of bytes is that of before. -/
def SameOutside (lo hi : Nat) (s t : State) : Prop := ∀ a, (a < lo ∨ hi ≤ a) → Mem.read a t.mem = Mem.read a s.mem

theorem rawWord_of_sameOutside {lo hi : Nat} {s t : State} (h : SameOutside lo hi s t) {w : Nat} (hw : 8 * w + 8 ≤ lo ∨ hi ≤ 8 * w) :
    rawWord t w = rawWord s w :=
  eq_of_byteOf_eq fun j hj => by rw [byteOf_rawWord _ _ hj, byteOf_rawWord _ _ hj, h _ (by omega)]

/-- Clean words restored in a memory without errors are the words of the shadow, and memory outside them stands. -/
theorem restoreWords_clean (w0 : Nat) {l : List (BitVec 64 × Nat)} (hclean : ∀ x ∈ l, x.2 = 0) (i : Nat) {s : State} (he : s.ecc = [])
    (hwf : Mem.wf s.mem = true) :
    let t := restoreWords w0 i l s
    t = { s with mem := t.mem } ∧ (∀ j, j < l.length → rawWord t (w0 + i + j) = (l.getD j (0, 0)).1) ∧
      SameOutside (8 * (w0 + i)) (8 * (w0 + i + l.length)) s t := by
  induction l generalizing i s with
  | nil => exact ⟨rfl, fun j hj => absurd hj (Nat.not_lt_zero j), fun _ _ => rfl⟩
  | cons x l ih =>
    obtain ⟨hx, hl⟩ := List.forall_mem_cons.1 hclean
    have hfirst : restoreWords w0 i (x :: l) s = restoreWords w0 (i + 1) l (setRawWord s (w0 + i) x.1) := by
      rw [restoreWords, List.zipIdx_cons, List.foldl_cons, restoreWord_clean (e := (x, i)) he w0 hx]
      rfl
    obtain ⟨hstate, hwords, hout⟩ := ih hl (i + 1) (s := setRawWord s (w0 + i) x.1) he (wf_setRawWord hwf ..)
    rw [hfirst]
    refine ⟨hstate, fun j hj => ?_, fun a ha => ?_⟩
    · cases j with
      | zero => exact (rawWord_of_sameOutside hout (.inl (by omega))).trans (rawWord_setRawWord_same hwf ..)
      | succ j =>
        rw [show w0 + i + (j + 1) = w0 + (i + 1) + j by omega]
        exact hwords j (by simpa using hj)
    · rw [List.length_cons] at ha
      rw [hout a (by omega), read_setRawWord hwf, if_neg (by omega)]

/-! ### LOAN_RETURN (R184, R185) -/

section Return

variable {s : State} {c k : Nat} {l : Loan} (h : (getBank s c k).loan = some l)

/-- The words of a window with a failing cell become permanent. -/
def failWords (c k win : Nat) (bad : List Nat) (s : State) : State :=
  (bad.filter fun i => decide (i < 32)).foldl (fun t i => permanentWord t (windowBase c k win + i)) s

include h

theorem exec_loanReturn (bad : List Nat) : exec (.loanReturn c k bad) s = .next (restoreLoan (failWords c k l.win bad s) c k) := by
  show execLoanReturn c k bad s = _
  simp only [execLoanReturn, h]
  rfl

/-- The failing words leave the loan as it is. -/
theorem loan_failWords (bad : List Nat) : (getBank (failWords c k l.win bad s) c k).loan = some l :=
  (foldl_rel (R := fun s t : State => (getBank t c k).loan = (getBank s c k).loan) (fun _ => rfl) (fun h1 h2 => h2.trans h1)
    (fun t _ => loan_permanentWord t _ c k) _ s).trans h

omit h in
theorem failWords_one {i : Nat} (hi : i < 32) (win : Nat) : failWords c k win [i] s = permanentWord s (windowBase c k win + i) := by
  rw [failWords, List.filter_cons_of_pos (p := fun i => decide (i < 32)) (decide_eq_true hi), List.filter_nil, List.foldl_cons, List.foldl_nil]

theorem loanReturn_ends (bad : List Nat) : ∃ t, exec (.loanReturn c k bad) s = .next t ∧ (getBank t c k).loan = none ∧ t.cores = s.cores ∧
    ∀ i, bad = [i] → i < 32 → c < 32 → k < 4 → l.win < 1024 → (getBank s c k).remap.length < 16 →
      (getBank t c k).remap = (getBank s c k).remap ++ [windowBase c k l.win + i] := by
  obtain ⟨hloan, hremap⟩ := restoreLoan_bank (loan_failWords h bad)
  have hcores : UnitsStand s (failWords c k l.win bad s) := .foldl (fun t _ => .permanentWord t _) _ s
  refine ⟨_, exec_loanReturn h bad, hloan, (hcores.trans (.restoreLoan ..)).cores, fun i hi hlt hc hk hwin hroom => ?_⟩
  subst hi
  rw [hremap, failWords_one hlt]
  exact remap_permanentWord (placeOf_window hc hk hwin hlt) hroom

/-- With no failing cell and clean words in the shadow the window gets them back, and nothing else changes. -/
theorem loanReturn_clean (hlen : l.shadow.length = 32) (hclean : ∀ x ∈ l.shadow, x.2 = 0) (he : s.ecc = []) (hwf : Mem.wf s.mem = true) :
    ∃ t, exec (.loanReturn c k []) s = .next t ∧ t = { s with clusters := t.clusters, mem := t.mem } ∧ BankBut c k s t ∧
      getBank t c k = { getBank s c k with loan := none } ∧
      let lo := bankBase c k + l.win * 256
      (∀ i, i < 32 → rawWord t (windowBase c k l.win + i) = (l.shadow.getD i (0, 0)).1) ∧ SameOutside lo (lo + 256) s t := by
  obtain ⟨hstate, hwords, hout⟩ := restoreWords_clean (windowBase c k l.win) hclean 0 he hwf
  rw [Nat.add_zero, hlen] at hwords hout
  rw [Nat.mul_add, windowBase_bytes] at hout
  have hrun := exec_loanReturn h []
  rw [show failWords c k l.win [] s = s from rfl, restoreLoan_eq h] at hrun
  obtain ⟨m, hmem⟩ : ∃ m, restoreWords (windowBase c k l.win) 0 l.shadow s = { s with mem := m } := ⟨_, hstate⟩
  have hbut := BankBut.modBank (restoreWords (windowBase c k l.win) 0 l.shadow s) c k fun b => { b with loan := none }
  refine ⟨_, hrun, modBank_state (by rw [hmem]) .., ?_, ?_, hwords, hout⟩
  · rw [hmem] at hbut ⊢
    exact ⟨hbut.clusters, hbut.rest, hbut.banks⟩
  · rw [getBank_modBank, getBank_restoreWords]

end Return

end Sys2Proof.Machine

/-! SUPPORT. The power-up fill (R181, R408), and the statement about the memory's own steps. -/

namespace Sys2Proof

theorem Tab.get_filter_out {α : Type} (d : Nat → α) {p : Nat → Bool} {k : Nat} (hk : p k = false) (t : Tab α) :
    Tab.get d k (t.filter fun e => p e.1) = d k := by
  refine Tab.get_of_not_mem d fun hmem => ?_
  obtain ⟨e, he, rfl⟩ := List.mem_map.1 hmem
  exact absurd (List.mem_filter.1 he).2 (by simp [hk])

theorem Tab.get_filter_in {α : Type} (d : Nat → α) {p : Nat → Bool} {k : Nat} (hk : p k = true) {t : Tab α} (ht : Tab.sorted t = true) :
    Tab.get d k (t.filter fun e => p e.1) = Tab.get d k t := by
  induction t with
  | nil => rfl
  | cons x t ih =>
    obtain ⟨i, w⟩ := x
    obtain ⟨hall, hsorted⟩ := (Tab.sorted_cons i w t).1 ht
    by_cases hi : p i = true
    · rw [List.filter_cons_of_pos (p := fun e : Nat × α => p e.1) hi, Tab.get, Tab.get, ih hsorted]
    · have hne : i ≠ k := fun h => hi (h ▸ hk)
      rw [List.filter_cons_of_neg (p := fun e : Nat × α => p e.1) hi, ih hsorted, Tab.get, if_neg hne]
      split
      next hlt => exact Tab.get_of_lt d k t fun e he => Nat.lt_trans hlt (hall e he)
      next => rfl

end Sys2Proof

namespace Sys2Proof.Machine

/-! ### MEMORY_FILL (R181) -/

/-- Every word but those of code flash 0 and without error, the beams free, stage 6. -/
def filled (s : State) : State :=
  { s with mem := s.mem.filter (fun c => inFlash c.1), ecc := s.ecc.filter (fun e => inFlash (8 * e.1)), beams := []
           power := { s.power with stage := 6 } }

theorem read_filled {s : State} (hwf : Mem.wf s.mem = true) (a : Nat) :
    Mem.read a (filled s).mem = if inFlash a then Mem.read a s.mem else 0 := by
  cases ha : inFlash a with
  | true => exact Tab.get_filter_in _ ha ((Mem.wf_iff s.mem).1 hwf).1
  | false =>
    have hzero : memDflt a = 0 := by
      rw [inFlash, ← Bool.decide_and, decide_eq_false_iff_not] at ha
      exact if_neg ha
    exact (Tab.get_filter_out memDflt ha s.mem).trans hzero

theorem eccOf_filled (s : State) {w : Nat} (hw : inFlash (8 * w) = false) : eccOf (filled s) w = 0 :=
  Tab.get_filter_out (p := fun x => inFlash (8 * x)) _ hw s.ecc

/-- Warden `w` begins the ROM, unless it is retired; `hold` tells whether the Loupe holds it. -/
def beginRom (hold : Bool) (s : State) (w : Nat) : State :=
  let t := if isRetired s w then s else startWarden s w
  if hold then loupeHaltCore t w 5 else t

theorem exec_memoryFill {s : State} (h : s.power.stage = 5) :
    exec .memoryFill s = .next ((romWardens s).foldl (beginRom (holdStrap s)) (filled s)) :=
  if_pos h

theorem onlyCore_modCore (s : State) (n : Nat) (f : LensCore → LensCore) : OnlyCore n s (modCore s n f) := onlyCore_setCore ..

theorem OnlyCore.trans {n : Nat} {s t u : State} (h1 : OnlyCore n s t) (h2 : OnlyCore n t u) : OnlyCore n s u :=
  ⟨by rw [h2.1, h1.1], fun m hm => (h2.2 m hm).trans (h1.2 m hm)⟩

theorem onlyCore_beginRom (hold : Bool) (s : State) (w : Nat) : OnlyCore w s (beginRom hold s w) := by
  have hstart : OnlyCore w s (if isRetired s w then s else startWarden s w) := by
    split
    · exact ⟨rfl, fun _ _ => rfl⟩
    · exact onlyCore_modCore ..
  unfold beginRom
  dsimp only
  split
  · exact hstart.trans (onlyCore_modCore ..)
  · exact hstart

/-- A warden in service runs from address 0. -/
theorem beginRom_runs (hold : Bool) {s : State} {w : Nat} (h : isRetired s w = false) :
    (getCore (beginRom hold s w) w).i.run = .running ∧ (getCore (beginRom hold s w) w).i.pc = 0 := by
  unfold beginRom
  rw [h, if_neg Bool.false_ne_true]
  cases hold <;> simp [loupeHaltCore, startWarden]

theorem romWardens_spec (s : State) : (romWardens s).Nodup ∧ (∀ n ∈ romWardens s, n = 128 ∨ n = 129) ∧
    ∀ n, n = 128 ∨ n = 129 → isRetired s n = false → n ∈ romWardens s := by
  have hboth : ∀ n, n ∈ [128, 129] ↔ n = 128 ∨ n = 129 := fun n => by simp
  unfold romWardens
  dsimp only
  split
  · exact ⟨by decide, fun n hn => (hboth n).1 hn, fun n hn _ => (hboth n).2 hn⟩
  · exact ⟨List.Nodup.filter _ (by decide), fun n hn => (hboth n).1 (List.mem_filter.1 hn).1,
      fun n hn hin => List.mem_filter.2 ⟨(hboth n).2 hn, by rw [hin]; rfl⟩⟩

/-- The wardens' start changes cores only. -/
theorem wardensBegun_state (hold : Bool) (l : List Nat) (s : State) :
    l.foldl (beginRom hold) s = { s with cores := (l.foldl (beginRom hold) s).cores } :=
  foldl_rel (R := fun s t : State => t = { s with cores := t.cores }) (fun _ => rfl) (fun h1 h2 => by rw [h2, h1])
    (fun t w => (onlyCore_beginRom hold t w).1) l s

theorem getCore_wardensBegun {hold : Bool} {l : List Nat} {n : Nat} (hn : n ∉ l) (s : State) : getCore (l.foldl (beginRom hold) s) n = getCore s n :=
  foldl_keeps (Q := fun n s t => getCore t n = getCore s n) (fun _ _ => rfl) (fun h1 h2 => h2.trans h1)
    (fun t {c d} hd => (onlyCore_beginRom hold t c).2 d hd) hn s

theorem wardenBegun_runs {hold : Bool} {l : List Nat} (hl : l.Nodup) {n : Nat} (hn : n ∈ l) {s : State} (hin : isRetired s n = false) :
    (getCore (l.foldl (beginRom hold) s) n).i.run = .running ∧ (getCore (l.foldl (beginRom hold) s) n).i.pc = 0 := by
  obtain ⟨u, hu, hafter⟩ := foldl_focus (Q := fun n s t => getCore t n = getCore s n) (fun _ _ => rfl) (fun h1 h2 => h2.trans h1)
    (fun t {c d} hd => (onlyCore_beginRom hold t c).2 d hd) hl hn s
  rw [hafter]
  exact beginRom_runs hold (by rw [isRetired, hu]; exact hin)

theorem memoryFill_spec {s : State} (h : s.power.stage = 5) (hwf : Mem.wf s.mem = true) :
    ∃ t, exec .memoryFill s = .next t ∧
      t = { s with cores := t.cores, mem := t.mem, ecc := t.ecc, beams := [], power := { s.power with stage := 6 } } ∧
      (∀ a, Mem.read a t.mem = if inFlash a then Mem.read a s.mem else 0) ∧ (∀ w, inFlash (8 * w) = false → eccOf t w = 0) ∧
      (∀ n, n < 128 → getCore t n = getCore s n) ∧
      ∀ n, n = 128 ∨ n = 129 → isRetired s n = false → (getCore t n).i.run = .running ∧ (getCore t n).i.pc = 0 := by
  obtain ⟨hnodup, hwardens, hserving⟩ := romWardens_spec s
  have hrun := exec_memoryFill h
  rw [wardensBegun_state] at hrun
  refine ⟨_, hrun, rfl, read_filled hwf, fun w hw => eccOf_filled s hw, fun n hn => ?_, fun n hn hin => ?_⟩
  · refine getCore_wardensBegun (fun hmem => ?_) (filled s)
    have := hwardens n hmem
    omega
  · exact wardenBegun_runs (s := filled s) hnodup (hserving n hn hin) hin

/-- Settles O32: each step of the memory's own by the lemma that says what it does; the memory without errors lets merge entries be written out
and windows be restored word by word. -/
theorem memoryMaintenance : Obligations.MemoryMaintenance := by
  unfold Obligations.MemoryMaintenance
  intro s c k b clean hover
  refine ⟨fun o hpend hwait => ⟨?owner, fun hflush => ?handover⟩, fun m w h => exec_scrubWord_absent h, fun m w g h => scrubWord_spec h,
    exec_scrubPeriodEnd, fun m g h => ?expiry, fun h => ⟨?lends, fun hwin hclean => ?loan⟩, fun l bad h => loanReturn_ends h bad,
    fun l h hlen hwords he hwf => ?restored, fun h hwf => memoryFill_spec h hwf⟩
  case owner =>
    have hbank := getBank_handedOver (flushMerge s c k) c k o
    refine ⟨_, exec_handoverCompletion hpend hwait, by rw [hbank], by rw [hbank], ?_⟩
    rw [(getCluster_handedOver ..).1, or_and_cancel_right]
  case handover => exact ⟨_, exec_handoverCompletion hpend hwait, handedOver_flushed hflush⟩
  case expiry => exact ⟨_, exec_correctionHistoryExpiry h, setHistory_state .., historyAt_expired ..⟩
  case lends =>
    have hbank := getBank_modBank (windowForced s c k) c k (lend s.tb b.nextWin (windowWords (windowForced s c k) c k b.nextWin))
    refine ⟨_, _, exec_loanStart h, by rw [hbank]; rfl, rfl, ?_, by rw [hbank]; rfl, by rw [hbank]; rfl⟩
    rw [windowWords, List.length_map, List.length_range]
  case loan =>
    obtain ⟨t, hrun, hstate, hbut, hbank, hvis⟩ := loanStart_clean h hwin hclean.1 hclean.2
    exact ⟨t, hrun, hstate, hbut.clusters, hbut.banks, hbank, hvis⟩
  case restored =>
    obtain ⟨t, hrun, hstate, hbut, hbank, hback, hout⟩ := loanReturn_clean h hlen hwords he hwf
    exact ⟨t, hrun, hstate, hbut.clusters, hbut.banks, hbank, hback, hout⟩

end Sys2Proof.Machine

/-! SUPPORT. The return from an exception: its check, and what it restores where no cause is recognisable (R121, R195, R197). -/

namespace Sys2Proof.Machine

theorem eretForged_iff (k : LensCore) : eretForged k = true ↔ k.r.epsw.getLsbD 0 = true ∧ k.r.pstk.getLsbD 0 = false ∧ k.r.grant = false := by
  simp [eretForged, and_assoc]

theorem handlerLoads_eq_false_iff (k : LensCore) : handlerLoads k = false ↔ ∀ l ∈ k.u.loads, l.deliv = true ∨ l.toFrame ≠ none := by
  simp only [handlerLoads, undelivered, List.any_eq_false, List.mem_filter, Bool.not_eq_true', Option.isNone_iff_eq_none]
  exact forall_congr' fun l => ⟨fun h hl => by cases hd : l.deliv <;> simp_all, fun h hl => by have := h hl.1; simp_all⟩

section Command

variable {s : State} {n : Nat} {a : Word} (h : takesTrigger s n = true) (hend : endsActive (getCore s n) (getCore s n).i.pc.toNat = false)
  (hsup : isSup (getCore s n) = true) (hloads : handlerLoads (getCore s n) = false)
include h hend hsup hloads

omit h in
/-- An `eret` alone in its bundle passes every check but that of R197, which decides. -/
theorem planMoves_eret : planMoves s n [soloBundle s n 0x266 a] none =
    if eretForged (getCore s n) then .fault s (mkFault (getCore s n).i.pc.toNat 0x1B 0 false none none) false
    else .go (ctlWork s n 0x266 a .eret none) := by
  have ht : trigOf 0x266 = some (.ctl .eret) := rfl
  have hm := moveCheck_soloMove (s := s) (a := a) ht rfl (.inl hsup)
  have hd := no_bits (n := n) (k := getCore s n) (a := a) ht (fun _ _ => Op.noConfusion) (fun _ => Op.noConfusion)
  have hh : trigHold s n (getCore s n) (.ctl .eret) a = .none := by simp [trigHold, hloads]
  have hc : (trigCheck s n (getCore s n) (.ctl .eret) a).2 = .ok 0 0 := rfl
  have hw : writeMoves (getCore s n) n [] = getCore s n := rfl
  have hx : isTransfer (soloMove 0x266 a) = false := rfl
  unfold planMoves
  simp [filter_guardOf_soloMove, firstIllegal_soloMove, hm, firstConflict_soloMove ht, readAll_soloMove, valuesOf, firstPoison, writeMoves_soloMove ht, hx,
    resultConflict_soloMove, hd, trigMoves_soloMove ht, firstHold_soloMove, hh, checkTrigs_soloMove_ok hc,
    loopChecks_soloMove ht _ (fun _ => hend), hw, soloWork, ctlWork]

theorem trapped_eret (hf : eretForged (getCore s n) = true) : Trapped s n (.ctlEret n a) (mkFault (getCore s n).i.pc.toNat 0x1B 0 false none none) :=
  trapped_of_plan (code := 0x266) h rfl (by rw [planMoves_eret hend hsup hloads, if_pos hf])

/-- A return that passes its check is made at the end of its own step (R121, R195). -/
theorem exec_ctlEret (hf : eretForged (getCore s n) = false) :
    exec (.ctlEret n a) s = .next (eretReturn (setCore s n (modIssue (ctlEnd (getCore s n)) fun i => { i with delay := none })) n (getCore s n).i.pc) := by
  have hstand : handlerLoads (ctlEnd (getCore s n)) = false := by
    obtain ⟨rem, hend', stepping, hk⟩ := ctlEnd_eq (getCore s n)
    rw [hk]
    exact hloads
  have hexec : exec (.ctlEret n a) s = .next (soloTrigger s n 0x266 a) := rfl
  rw [hexec, soloTrigger_eq h, planMoves_eret hend hsup hloads, hf, if_neg Bool.false_ne_true, issuePlan, perform_ctl rfl]
  simp [afterStep, ctlWork, soloWork, modCore_setCore, hstand]

end Command

/-- No event is the best of none pending. -/
theorem bestEvent_of_no_pending {s : State} (h : s.router.pending = []) (n : Nat) (f : Nat → Bool) : bestEvent s n f = none := by simp [bestEvent, h]

/-- Where neither the watchdog nor the router has a cause pending nothing is recognisable (R191). -/
theorem recognisable_none {s : State} {n : Nat} (hwd : (getCore s n).e.wd20 = false) (hpend : s.router.pending = []) (ie : Bool) :
    recognisable s n ie = none := by
  simp [recognisable, hwd, bestEvent_of_no_pending hpend]

/-- The core after a return: its status restored, its frame reinstated, EPC next behind four fill bundles (R197). -/
def returned (k : LensCore) : LensCore :=
  let k1 := reinstateFrame { k with r := { k.r with grant := false, hushRem := 0 }, e := { k.e with hushEnd := none } } (k.i.steps + 4)
  { k1 with
    r := { k1.r with psw := (k.r.epsw &&& 0x23#32) ||| (k.r.psw &&& k.r.epsw &&& 4#32), pstk := k.r.pstk >>> 1 }
    i := { emptyFetch k.i with pc := k.r.epc, fills := 4, rep := none, resumeRep := k.r.epsw.getLsbD 4, first := false, ret := none } }

theorem eretReturn_unchained {s : State} {n : Nat} (k : LensCore) (hwd : k.e.wd20 = false) (hpend : s.router.pending = []) (src : Word) :
    eretReturn (setCore s n k) n src = traceOn (setCore s n (returned k)) n 2 0 src k.r.epc := by
  have hnone : ∀ r e, e.wd20 = false → recognisable (setCore s n { k with r, e }) n (r.epsw.getLsbD 1) = none := fun r e he =>
    recognisable_none (s := setCore s n { k with r, e }) (by rw [getCore_setCore]; exact he) hpend _
  unfold eretReturn
  simp only [modCore_setCore, getCore_setCore]
  rw [hnone { k.r with grant := false, hushRem := 0 } { k.e with hushEnd := none } hwd]
  dsimp only
  rw [setCore_setCore]
  rfl

/-- A core set, with at most an entry in its cluster's trace (R468). -/
theorem traceOn_setCore (s : State) (n : Nat) (k : LensCore) (kind cause : Nat) (src dst : Word) :
    let t := traceOn (setCore s n k) n kind cause src dst
    t = { s with cores := t.cores, clusters := t.clusters } ∧ (∀ m, m ≠ n → getCore t m = getCore s m) ∧
      (∀ c, { getCluster t c with trace := [] } = { getCluster s c with trace := [] }) ∧ getCore t n = k := by
  intro t
  obtain ⟨hstate, htrace⟩ := traceOn_keeps (setCore s n k) n kind cause src dst
  have hcores : t.cores = (setCore s n k).cores := (congrArg State.cores hstate :)
  exact ⟨hstate.trans (by rw [hcores]; rfl), fun m hm => by rw [getCore_of_cores hcores, getCore_setCore_ne _ hm], htrace,
    by rw [getCore_of_cores hcores, getCore_setCore]⟩

/-- Settles O17: the check of R197 decides; a return that passes it and finds no cause recognisable leaves `returned` and, at most, a trace entry. -/
theorem eretRestoresOrTraps : Obligations.EretRestoresOrTraps := by
  unfold Obligations.EretRestoresOrTraps
  intro s n a h k hend hsup hdelivered forged
  have hloads := (handlerLoads_eq_false_iff k).2 hdelivered
  refine ⟨fun hforged => ?traps, fun hgood hwd hpend => ?returns⟩
  case traps =>
    obtain ⟨t, hrun, honly, hfault, hu, hbits, hg, hr, -⟩ := trapped_eret (a := a) h hend hsup hloads ((eretForged_iff k).2 hforged)
    exact ⟨t, _, hrun, honly, hfault, rfl, by rw [mkFault, BitVec.ofNat_toNat, BitVec.setWidth_eq], hr, hg, hbits, hu⟩
  case returns =>
    obtain ⟨rem, hend', stepping, hk⟩ := ctlEnd_eq k
    have hrun := exec_ctlEret (a := a) h hend hsup hloads (Bool.eq_false_iff.2 fun hf => hgood ((eretForged_iff k).1 hf))
    rw [eretReturn_unchained _ (by rw [hk]; exact hwd) hpend, hk] at hrun
    obtain ⟨hstate, hothers, -, hcore⟩ := traceOn_setCore ..
    refine ⟨_, hrun, hstate, hothers, ?_⟩
    rw [hcore]
    exact ⟨rfl, rfl, rfl, rfl, rfl, rfl, rfl, rfl, rfl, rfl, rfl, rfl⟩

end Sys2Proof.Machine

/-! SUPPORT. A retirement whose core owns a beam ID beyond the beam table's: the window address of its context lies in the management exchange RAM
(R183, R213, R270). -/

namespace Sys2Proof.Machine

/-- A beam ID the device does not have: the window addresses its context would take are those of the management exchange RAM (log entry 3). -/
def strayBeam : Nat := 0x8700000

theorem placeOf_strayBeam : placeOf (beamWordNo strayBeam + 1) = .mgmt := by decide

/-- The released core 5 of a device with cores 4 to 7 serving owns the stray beam, whose word with OWNER holds a correctable error. -/
def strayOwner : State :=
  { State.reset with
    cores := [(5, { LensCore.reset 5 with i := { (LensCore.reset 5).i with run := .running } })]
    beams := [(strayBeam, { BeamCtx.free with valid := true, owner := 5 })]
    ecc := [(beamWordNo strayBeam + 1, 1)] }

/-- The entries of the management memories' correction history after a command. -/
def managementCorrections : Host.Outcome State Fault Refusal → Option Nat
  | .next t => some t.mhist.length
  | _ => none

/-- The engine corrects the word as the beam is given to its heir, and the correction is noted with the memory the word lies in (R183). -/
theorem managementCorrections_retirement : managementCorrections (exec (.retirementRequest 5 1) strayOwner) = some 1 := by decide +kernel

/-- Refutes O34: the statement speaks of every table of beams. Of a core that owns a beam ID beyond the table's, retirement hands over a context whose
words lie in the management exchange RAM, and a correction there enters that memory's history, which the statement has stand: `strayOwner` gains an
entry. -/
theorem not_coreFaultsStopRestartAndRetire : ¬ Obligations.CoreFaultsStopRestartAndRetire := by
  unfold Obligations.CoreFaultsStopRestartAndRetire
  intro h
  obtain ⟨-, -, -, -, -, -, -, -, -, -, -, hretires, -, -⟩ := h strayOwner 5 (by decide)
  obtain ⟨t, hrun, hstate, -⟩ := hretires ⟨rfl, by decide, rfl⟩ (by decide) (by decide) ⟨4, by decide, rfl, by decide⟩
  have hstands : t.mhist = [] := (congrArg State.mhist hstate :)
  have hlen := managementCorrections_retirement
  rw [hrun, managementCorrections, hstands] at hlen
  exact absurd hlen (by decide)

end Sys2Proof.Machine

/-! SUPPORT. Taking an exception, for a waiting fault and for an event (R126, R191, R192, R203). -/

namespace Sys2Proof.Machine

/-- Products that deliver write MHI and MLO and leave the unit; the rest of the core stands (R89). -/
theorem deliverProducts_eq (st : Nat) (k : LensCore) : ∃ mhi mlo prods,
    deliverProducts st k = { k with r := { k.r with mhi, mlo }, u := { k.u with prods } } := by
  unfold deliverProducts
  split
  · exact ⟨_, _, _, rfl⟩
  · split <;> exact ⟨_, _, _, rfl⟩

/-- An entry leaves of a core what R192 names, with the fourteen steps of R126. -/
structure Entered (k k' : LensCore) (epc epsw cause evnum badaddr : Word) (rp : Option Nat) : Prop where
  g : k'.g = k.g
  bits : k'.bits = k.bits
  sk : k'.u.sk = k.u.sk
  q : k'.q = k.q
  st : k'.st = k.st
  r : k'.r = { k.r with
    epc := epc &&& 0xFFFFFFF8#32, epsw, cause, evnum, badaddr, psw := (k.r.psw ||| 1#32) &&& 0xFFFFFFFD#32,
    pstk := (k.r.pstk <<< 1) ||| (if isSup k then 1#8 else 0#8), grant := false, chainc := 0, hushRem := 0,
    repc := rp.elim k.r.repc (BitVec.ofNat 16), mlo := k'.r.mlo, mhi := k'.r.mhi }
  pc : k'.i.pc = k.r.evec
  steps : k'.i.steps = k.i.steps + 14
  fault : k'.i.fault = none
  run : k'.i.run = k.i.run

theorem takeEntry_entered (s : State) (n : Nat) (epc : Word) (rp : Option Nat) (cause : Word) (evnum badaddr : Option Word) :
    let t := takeEntry s n epc rp cause evnum badaddr
    let k := getCore s n
    t = { s with cores := t.cores, clusters := t.clusters } ∧ (∀ m, m ≠ n → getCore t m = getCore s m) ∧
      (∀ c, { getCluster t c with trace := [] } = { getCluster s c with trace := [] }) ∧
      Entered k (getCore t n) epc (readPsw s n k false ||| (if rp.isSome then 16#32 else 0)) cause (evnum.getD k.r.evnum) (badaddr.getD k.r.badaddr) rp := by
  intro t k
  obtain ⟨hstate, hothers, htrace, hcore⟩ := traceOn_setCore s n _ 1 (cause.toNat % 256) epc k.r.evec
  refine ⟨hstate, hothers, htrace, ?_⟩
  obtain ⟨mhi, mlo, prods, hk⟩ := deliverProducts_eq _ _
  rw [show getCore t n = _ from hcore, hk]
  cases rp <;> exact ⟨rfl, rfl, rfl, rfl, rfl, rfl, rfl, rfl, rfl, rfl⟩

theorem settleStop_running {s : State} {n : Nat} (h : (getCore s n).i.run = .running) : settleStop s n = s := by simp [settleStop, h]

section Command

variable {s : State} {n : Nat} (hp : corePresent s n = true) (hrun : (getCore s n).i.run = .running) (hh : (getCore s n).lp.halted = false)
include hp hrun hh

/-- EXCEPTION_ENTRY of a waiting fault that is not that of a handler's first bundle (R126). -/
theorem exec_exceptionEntry_fault {f : PFault} (hf : (getCore s n).i.fault = some f) (hfills : (getCore s n).i.fills = 0)
    (hfirst : (getCore s n).i.first = false) :
    exec (.exceptionEntry n) s = .next (takeEntry s n f.epc f.rep (causeWord f.cause f.sw f.slot f.second) none f.bad) := by
  obtain ⟨-, -, -, hentered⟩ := takeEntry_entered s n f.epc f.rep (causeWord f.cause f.sw f.slot f.second) none f.bad
  show execExceptionEntry n s = _
  simp only [execExceptionEntry, hp, hrun, hh, BEq.rfl, Bool.not_false, Bool.and_self, if_true, hf, hfills, enterFault, hfirst, Bool.false_eq_true, if_false]
  rw [settleStop_running (hentered.run.trans hrun)]

/-- EXCEPTION_ENTRY of an asynchronous cause, at a boundary (R190, R191). -/
theorem exec_exceptionEntry_async {x : Async} (hf : (getCore s n).i.fault = none) (hb : boundary s n = true) (hhold : clusterHolds s n = false)
    (hrec : recognisable s n (isIE (getCore s n)) = some x) : exec (.exceptionEntry n) s = .next (enterAsync s n x) := by
  show execExceptionEntry n s = _
  simp only [execExceptionEntry, hp, hrun, hh, BEq.rfl, Bool.not_false, Bool.and_self, if_true, hf, hb, hhold, hrec]

end Command

/-- An event is recognised with one of the two causes of events (R191). -/
theorem code_of_recognisable {s : State} {n e code : Nat} {ie : Bool} (h : recognisable s n ie = some (.event e code)) : code = 0x40 ∨ code = 0x41 := by
  unfold recognisable at h
  dsimp only at h
  split at h
  · cases h
  split at h
  · cases h
  split at h
  · cases h
    exact .inr rfl
  split at h
  · obtain ⟨x, -, hx⟩ := Option.map_eq_some_iff.1 h
    cases hx
    exact .inl rfl
  · cases h

/-- Settles O24: either command is one `takeEntry`; of an event the pending state goes first. -/
theorem exceptionEntrySavesAndGoesToEvec : Obligations.ExceptionEntrySavesAndGoesToEvec := by
  unfold Obligations.ExceptionEntrySavesAndGoesToEvec
  intro s n hp k hrun hh entered
  have hentered : ∀ epc rp cause ev bad events,
      exec (.exceptionEntry n) s = .next (takeEntry { s with router := { s.router with pending := events } } n epc rp cause ev bad) →
      entered epc rp cause ev bad events := by
    intro epc rp cause ev bad events hexec
    obtain ⟨hstate, hothers, htrace, hcore⟩ := takeEntry_entered { s with router := { s.router with pending := events } } n epc rp cause ev bad
    exact ⟨_, hexec, hstate, hothers, htrace, hcore.g, hcore.bits, hcore.sk, hcore.q, hcore.st, hcore.r, hcore.pc, hcore.steps, hcore.fault,
      hcore.run.trans hrun⟩
  refine ⟨fun f hf hfills hfirst => hentered _ _ _ _ _ _ (exec_exceptionEntry_fault hp hrun hh hf hfills hfirst), fun e code hf hb hhold hrec => ?event⟩
  case event =>
    have hcode := code_of_recognisable hrec
    refine ⟨hentered _ _ _ _ _ _ ((exec_exceptionEntry_async hp hrun hh hf hb hhold hrec).trans ?_), hcode⟩
    have hword : causeWord code 0 0 false = BitVec.ofNat 32 code := by rcases hcode with rfl | rfl <;> rfl
    rw [← hword]
    rfl

end Sys2Proof.Machine

/-! SUPPORT. The event router, the watchdog and the socket window of a core (R194, R202 to R205). -/

namespace Sys2Proof.Machine

/-! ### Raises, deliveries and routes (R194, R203, R204) -/

theorem exec_evraiseWrite {s : State} {n : Nat} (hp : corePresent s n = true) (v : Word) : exec (.evraiseWrite n v) s = .next (evraise s n v) := by
  show execEvraiseWrite n v s = _
  rw [execEvraiseWrite, if_pos hp]

theorem mayRaise_iff {x : Nat} (hx : x < 1024) : mayRaise x = true ↔ (560 ≤ x ∧ x ≤ 687) ∨ x = 768 ∨ x = 769 ∨ 928 ≤ x := by
  simp [mayRaise]
  omega

theorem field_low10 (v : Word) : field v 0 10 = v.toNat % 1024 := by simp [field]

theorem evraise_eq (s : State) (n : Nat) (v : Word) : evraise s n v =
    if mayRaise (v.toNat % 1024) then raise s (v.toNat % 1024) else modCore s n fun k => { k with e := { k.e with badraise := true } } := by
  rw [evraise, field_low10]

theorem exec_eventDelivery {s : State} {src : Nat} (h : s.router.raised.contains src = true) : exec (.eventDelivery src) s = .next (deliverEvent s src) := by
  show execEventDelivery src s = _
  rw [execEventDelivery, if_pos h]

/-- The state with one raise of `src` delivered. -/
def unraised (s : State) (src : Nat) : State := { s with router := { s.router with raised := s.router.raised.erase src } }

section Delivery

variable {s : State} {src : Nat}

theorem deliverEvent_off (h : routeEn (routeOf s src) = false) : deliverEvent s src = unraised s src := by
  simp only [deliverEvent, h, Bool.not_false, Bool.or_true, if_true]
  rfl

variable (hcan : neverPending s src = false) (hen : routeEn (routeOf s src) = true)
include hcan hen

theorem deliverEvent_coalesced {n : Nat} (h : src ∈ s.router.pending) (htarget : targetCore s src = some n) :
    deliverEvent s src = modCore (unraised s src) n fun k =>
      { k with e := { k.e with evovf := if k.e.evovf = 0xFFFFFFFF#32 then k.e.evovf else k.e.evovf + 1 } } := by
  simp only [deliverEvent, hcan, hen, Bool.not_true, Bool.or_self, Bool.false_eq_true, if_false, List.contains_iff_mem.2 h, if_true, htarget]
  rfl

theorem deliverEvent_pending (h : src ∉ s.router.pending) : deliverEvent s src =
    { s with router := { raised := s.router.raised.erase src, pending := insertNum src s.router.pending } } := by
  have hc : s.router.pending.contains src = false := by simpa using h
  simp only [deliverEvent, hcan, hen, Bool.not_true, Bool.or_self, Bool.false_eq_true, if_false, hc]

end Delivery

theorem mem_insertNum {x y : Nat} {l : List Nat} : y ∈ insertNum x l ↔ y = x ∨ y ∈ l := by
  induction l with
  | nil => simp [insertNum]
  | cons z zs ih =>
    unfold insertNum
    split
    next heq => simp [heq]
    · split
      · simp
      · simp only [List.mem_cons, ih, or_left_comm]

theorem exec_routeWrite {s : State} {src : Nat} (h : src < 1024) (v : Nat) : exec (.routeWrite src v) s = .next (answered (routeWrite s src v)) := by
  show execRouteWrite src v s = _
  rw [execRouteWrite, if_pos h]

/-- A route R204 refuses. -/
def RouteRefused (src v : Nat) : Prop :=
  131 ≤ v % 256 ∨ 4096 ≤ v ∨ (unmaskable src = true ∧ v / 2048 % 2 = 0) ∨ ((src = 772 ∨ src = 778) ∧ v % 256 ≠ 130)

theorem routeEn_iff (v : Nat) : routeEn v = true ↔ v / 2048 % 2 = 1 := decide_eq_true_iff

theorem routeEn_eq_false_iff (v : Nat) : routeEn v = false ↔ v / 2048 % 2 = 0 := by
  rw [routeEn, decide_eq_false_iff_not]
  omega

theorem routeWrite_refused {src v : Nat} (h : RouteRefused src v) (s : State) : routeWrite s src v = (s, some 0x03000001) := by
  rw [routeWrite]
  exact if_pos (by rwa [routeEn_eq_false_iff])

theorem routeWrite_taken {src v : Nat} (h : ¬ RouteRefused src v) (s : State) : routeWrite s src v =
    (let s1 := setEnt s (0x7000 + src / 128) (src % 128 + 1) v
     if routeEn v then s1 else { s1 with router := { s1.router with pending := s1.router.pending.filter fun e => e != src } }, none) := by
  rw [routeWrite]
  exact if_neg (by rwa [routeEn_eq_false_iff])

theorem routeKey_inj {x y : Nat} (h : entKey (0x7000 + x / 128) (x % 128 + 1) = entKey (0x7000 + y / 128) (y % 128 + 1)) : x = y := by
  unfold entKey at h
  omega

theorem routeOf_setEnt (s : State) (src v x : Nat) :
    routeOf (setEnt s (0x7000 + src / 128) (src % 128 + 1) v) x = if x = src then v else routeOf s x := by
  by_cases hx : x = src
  · rw [if_pos hx, hx]
    exact Tab.get_put_same ..
  · rw [if_neg hx]
    exact Tab.get_put_ne _ (fun h => hx (routeKey_inj h)) ..

theorem routeWrite_spec {s : State} {src v : Nat} (hsrc : src < 1024) (h : ¬ RouteRefused src v) :
    ∃ t, exec (.routeWrite src v) s = .next t ∧
      t = { s with ent := t.ent, router := { s.router with pending := t.router.pending }, lastAbort := none } ∧
      routeOf t src = v ∧ (∀ x, x ≠ src → routeOf t x = routeOf s x) ∧
      t.router.pending = if v / 2048 % 2 = 1 then s.router.pending else s.router.pending.filter fun e => e != src := by
  have hrun := exec_routeWrite (s := s) hsrc v
  rw [routeWrite_taken h, answered] at hrun
  refine ⟨_, hrun, ?_⟩
  by_cases hen : routeEn v = true
  · simp only [if_pos hen, if_pos ((routeEn_iff v).1 hen)]
    exact ⟨rfl, (routeOf_setEnt ..).trans (if_pos rfl), fun x hx => (routeOf_setEnt ..).trans (if_neg hx), rfl⟩
  · simp only [if_neg hen, if_neg fun h1 => hen ((routeEn_iff v).2 h1)]
    exact ⟨rfl, (routeOf_setEnt ..).trans (if_pos rfl), fun x hx => (routeOf_setEnt ..).trans (if_neg hx), rfl⟩

/-! ### The watchdog (R202) -/

theorem exec_watchdogFirstExpiry {s : State} {n : Nat} (hp : corePresent s n = true) (hdue : wdDue s (getCore s n) = true)
    (hfirst : (getCore s n).e.wdFirst = false) : exec (.watchdogFirstExpiry n) s =
      .next (setCore s n { getCore s n with e := { (getCore s n).e with wdFirst := true, wd20 := true, wdStart := s.tb, wdAcc := 0 } }) := by
  show execWatchdogFirstExpiry n s = _
  simp only [execWatchdogFirstExpiry, hp, hdue, hfirst, Bool.not_false, Bool.and_self, if_true, wdRestart]

theorem exec_watchdogKick {s : State} {n : Nat} (hp : corePresent s n = true) (v : Word) : exec (.watchdogKick n v) s = .next (watchdogWrite s n v) := by
  show execWatchdogKick n v s = _
  rw [execWatchdogKick, if_pos hp]

/-- What a write of WDCTL leaves of the watchdog: a warden takes no PERIOD of 0, which without KICK restarts nothing (R202). -/
theorem watchdogWrite_eq (s : State) (n : Nat) (v : Word) : watchdogWrite s n v = modCore s n fun k => { k with e := { k.e with
    wdPeriod := if 128 ≤ n ∧ v.setWidth 16 = (0 : BitVec 16) then k.e.wdPeriod else v.setWidth 16
    wdFirst := if v.getLsbD 16 then false else k.e.wdFirst
    wdStart := if 128 ≤ n ∧ v.setWidth 16 = (0 : BitVec 16) ∧ v.getLsbD 16 = false then k.e.wdStart else s.tb
    wdAcc := if 128 ≤ n ∧ v.setWidth 16 = (0 : BitVec 16) ∧ v.getLsbD 16 = false then k.e.wdAcc else 0 } } := by
  have hnone : (isWarden n && v.setWidth 16 == (0 : BitVec 16)) = decide (128 ≤ n ∧ v.setWidth 16 = (0 : BitVec 16)) := by
    rw [isWarden, Bool.decide_and, beq_eq_decide]
  unfold watchdogWrite
  congr 1
  funext k
  dsimp only
  rw [hnone]
  simp only [← and_assoc]
  by_cases hz : 128 ≤ n ∧ v.setWidth 16 = (0 : BitVec 16) <;> cases v.getLsbD 16 <;>
    simp only [hz, wdRestart, decide_true, decide_false, and_true, and_false, Bool.not_true, Bool.not_false, Bool.and_true, Bool.and_false,
      Bool.false_eq_true, Bool.true_eq_false, if_true, if_false]

/-! ### The socket window (R194) -/

section Window

variable {s : State} {n : Nat} (hp : corePresent s n = true)
include hp

theorem exec_skvalRead {r : State × Word} (h : skvalRead s n = some r) : exec (.skvalRead n) s = .next { r.1 with rdata := some r.2 } := by
  show execSkvalRead n s = _
  simp only [execSkvalRead, hp, h, Bool.not_true, Bool.false_eq_true, if_false]

theorem exec_skvalWrite (v : Word) : exec (.skvalWrite n v) s = .next (skvalWrite s n v) := by
  show execSkvalWrite n v s = _
  rw [execSkvalWrite, if_pos hp]

end Window

/-- A result or operand code of the window that is neither MLO nor MHI is that of a port (R194). -/
theorem codeRole_of_windowCode {s : State} {c : Nat} (h2 : c ≠ 0x402) (h3 : c ≠ 0x403) :
    (windowCode s c = .operand → codeRole c = .operand) ∧ (windowCode s c = .result → codeRole c = .result) := by
  unfold windowCode
  rw [if_neg (by tauto)]
  split
  · cases codeRole c <;> simp
  · simp

theorem ne_of_codeRole {c d : Nat} {x : Role} (hc : codeRole c = x) (hd : codeRole d ≠ x) : c ≠ d := fun h => hd (h ▸ hc)

/-- A unit with nothing undelivered keeps no read of the window waiting. -/
theorem skvalBusy_of_idle {k : LensCore} {c : Nat} (h : windowBusy k c = false) (n : Nat) : skvalBusy n k c = false := by
  unfold skvalBusy
  split
  next hc =>
    subst hc
    have hall : ∀ l ∈ k.u.loads, l.deliv = true := by simpa [windowBusy, resultUnit, codeRole, portRole, unitPending] using h
    rw [List.any_eq_false]
    intro l hl
    simp [hall l (List.takeWhile_subset _ hl)]
  · exact h

section Socket

variable {s : State} {n c : Nat} (hc : (getCore s n).e.sksel.toNat = c)
include hc

theorem skvalRead_operand (h : windowCode s c = .operand) : skvalRead s n = some (s, sockOf s n c) := by
  simp only [skvalRead, hc, h]
  rfl

theorem skvalRead_none (h : windowCode s c = .none) : skvalRead s n = some (setCore s n (setSkbad (getCore s n)), 0) := by simp only [skvalRead, hc, h]

theorem skvalRead_result (h : windowCode s c = .result) (hidle : windowBusy (getCore s n) c = false) (h2 : c ≠ 0x402) (h3 : c ≠ 0x403) (hrdy : c ≠ 0x24C) :
    skvalRead s n = some (s, sockOf s n c) := by
  have hvalue : windowValue (getCore s n) c = sockOf s n c := by simp [windowValue, h2, h3, hrdy, sockOf]
  simp only [skvalRead, hc, h, skvalBusy_of_idle hidle, Bool.false_and, Bool.false_eq_true, if_false, hvalue]

theorem skvalWrite_none (h : windowCode s c = .none) (v : Word) : skvalWrite s n v = setCore s n (setSkbad (getCore s n)) := by
  simp only [skvalWrite, modCore, hc, h]

theorem skvalWrite_operand (h : windowCode s c = .operand) (v : Word) :
    skvalWrite s n v = setCore s n (setSk (getCore s n) c (if c = 0x272 then v &&& 0x1FF7#32 else v)) := by
  have h2 : c ≠ 0x402 := by rintro rfl; cases h
  have h3 : c ≠ 0x403 := by rintro rfl; cases h
  have hrole := (codeRole_of_windowCode h2 h3).1 h
  have hout : c ≠ 0x281 := ne_of_codeRole hrole (by decide)
  have hst : c ≠ 0x282 := ne_of_codeRole hrole (by decide)
  simp only [skvalWrite, modCore, hc, h, windowLoad, h2, h3, hout, hst, or_self, if_false]

theorem skvalWrite_busy (h : windowCode s c = .result) (hbusy : windowBusy (getCore s n) c = true) (v : Word) :
    skvalWrite s n v = setCore s n (setSkref (getCore s n)) := by
  simp only [skvalWrite, modCore, hc, h, hbusy, Bool.true_or, if_true]

theorem skvalWrite_result (h : windowCode s c = .result) (hidle : windowBusy (getCore s n) c = false) (h2 : c ≠ 0x402) (h3 : c ≠ 0x403)
    (hrdy : c ≠ 0x24C) (hout : c ≠ 0x281) (hst : c ≠ 0x282) (v : Word) : skvalWrite s n v = setCore s n (setSk (getCore s n) c v) := by
  have hseg : c ≠ 0x272 := ne_of_codeRole ((codeRole_of_windowCode h2 h3).2 h) (by decide)
  simp only [skvalWrite, modCore, hc, h, hidle, beq_eq_false_iff_ne.2 hrdy, Bool.or_self, Bool.false_eq_true, windowLoad, h2, h3, hout, hst, hseg,
    or_self, if_false]

end Socket

/-- Settles O33: each command is one update of the router, of a route or of the core, as its equation above says. -/
theorem eventsWatchdogAndWindow : Obligations.EventsWatchdogAndWindow := by
  unfold Obligations.EventsWatchdogAndWindow
  intro s n hp k core
  have hcore : ∀ {c f}, exec c s = .next (modCore s n f) → core c (f k) := fun h => ⟨_, h, onlyCore_modCore .., getCore_modCore ..⟩
  refine ⟨fun v => ?raise, fun src hraised hcan => ⟨fun hoff => ?off, fun hen hnew => ?pends, fun hen hold htarget => ?coalesces⟩, fun src v hsrc => ?route,
    fun hdue hfirst => ?expiry, fun v => ?kick, ?window⟩
  case raise =>
    have hrun := exec_evraiseWrite hp v
    rw [evraise_eq] at hrun
    have hmay := mayRaise_iff (Nat.mod_lt v.toNat (show 0 < 1024 by decide))
    dsimp only
    split
    next hin =>
      rw [if_pos (hmay.2 hin)] at hrun
      exact hrun
    next hout =>
      rw [if_neg fun h => hout (hmay.1 h)] at hrun
      exact hcore hrun
  case off => exact (exec_eventDelivery hraised).trans (congrArg _ (deliverEvent_off hoff))
  case pends =>
    refine ⟨_, exec_eventDelivery hraised, ?_⟩
    rw [deliverEvent_pending hcan hen hnew]
    exact ⟨rfl, fun x => mem_insertNum⟩
  case coalesces =>
    refine ⟨_, exec_eventDelivery hraised, ?_⟩
    rw [deliverEvent_coalesced hcan hen hold htarget]
    exact ⟨rfl, fun m hm => getCore_modCore_ne _ hm _, getCore_modCore ..⟩
  case route =>
    split
    next hbad => exact (exec_routeWrite hsrc v).trans (by rw [routeWrite_refused hbad]; rfl)
    next hgood => exact routeWrite_spec hsrc hgood
  case expiry => exact ⟨_, exec_watchdogFirstExpiry hp hdue hfirst, onlyCore_setCore .., getCore_setCore ..⟩
  case kick => exact hcore ((exec_watchdogKick hp v).trans (by rw [watchdogWrite_eq]))
  case window =>
    intro c
    have hwrite : ∀ {v k'}, skvalWrite s n v = setCore s n k' → core (.skvalWrite n v) k' := fun {v _} h =>
      ⟨_, (exec_skvalWrite hp v).trans (congrArg _ h), onlyCore_setCore .., getCore_setCore ..⟩
    refine ⟨fun h => ?operand, fun h => ?nothing, fun h hidle hc => ?result, fun h hbusy v => hwrite (skvalWrite_busy rfl h hbusy v)⟩
    case operand => exact ⟨exec_skvalRead hp (skvalRead_operand rfl h), fun v => hwrite (skvalWrite_operand rfl h v)⟩
    case nothing =>
      exact ⟨⟨_, exec_skvalRead hp (skvalRead_none rfl h), rfl, fun m hm => getCore_setCore_ne _ hm _, getCore_setCore ..⟩,
        fun v => hwrite (skvalWrite_none rfl h v)⟩
    case result =>
      simp only [List.mem_cons, List.not_mem_nil, or_false, not_or] at hc
      obtain ⟨h2, h3, hrdy, hout, hst⟩ := hc
      exact ⟨exec_skvalRead hp (skvalRead_result rfl h hidle h2 h3 hrdy), fun v => hwrite (skvalWrite_result rfl h hidle h2 h3 hrdy hout hst v)⟩

end Sys2Proof.Machine

/-! SUPPORT. The Loupe at a core: halts, resumes and steps, LPC and the socket window (R462, R464 to R467, R471). -/

namespace Sys2Proof.Machine

theorem loupeMayWrite_iff (s : State) : loupeMayWrite s = true ↔ loupeGate s = 2 := beq_iff_eq

theorem onlyCore_self (n : Nat) (s : State) : OnlyCore n s s := ⟨rfl, fun _ _ => rfl⟩

/-- Below gate 2 the Loupe writes nothing (R462). -/
theorem loupe_shut {s : State} (h : loupeGate s ≠ 2) (n : Nat) :
    exec (.loupeHaltRequest n) s = .next s ∧ exec (.loupeResume n) s = .next s ∧ exec (.loupeStep n) s = .next s ∧ exec (.setbare n) s = .next s ∧
      ∀ v p, exec (.lpcWrite n v) s = .next s ∧ exec (.lskvalAccess n (some v)) s = .next s ∧ exec (.trctlWrite n v) s = .next s ∧
        exec (.ftctlWrite p v) s = .next s ∧ exec (.bitInjection p) s = .next s := by
  have hw : loupeMayWrite s = false := Bool.eq_false_iff.2 fun hm => h ((loupeMayWrite_iff s).1 hm)
  have hcore : ∀ t : State, Host.Outcome.next (φ := Fault) (ρ := Refusal) (if corePresent s n && loupeMayWrite s then t else s) = .next s := fun t => by
    rw [hw, Bool.and_false, if_neg Bool.false_ne_true]
  have hunit : ∀ (P : Prop) [Decidable P] (t : State), Host.Outcome.next (φ := Fault) (ρ := Refusal) (if P ∧ loupeMayWrite s then t else s) = .next s :=
    fun P _ t => by rw [if_neg fun hp => Bool.false_ne_true (hw.symm.trans hp.2)]
  refine ⟨hcore _, hcore _, hcore _, hcore _, fun v p => ⟨hcore _, ?window, hunit _ _, hunit _ _, ?inject⟩⟩
  case window =>
    show execLskvalAccess n (some v) s = _
    simp only [execLskvalAccess, hw, Bool.false_eq_true, if_false, ite_self]
  case inject =>
    show execBitInjection p s = _
    simp only [execBitInjection, hw, Bool.false_eq_true, false_and, and_false, if_false]

section Open

variable {s : State} {n : Nat} (hp : corePresent s n = true) (hw : loupeMayWrite s = true)
include hp hw

theorem exec_loupeHaltRequest : exec (.loupeHaltRequest n) s = .next (haltRequest s n) := by
  show execLoupeHaltRequest n s = _
  rw [execLoupeHaltRequest, hp, hw, Bool.and_self, if_pos rfl]

theorem exec_loupeResume : exec (.loupeResume n) s = .next (loupeResume s n) := by
  show execLoupeResume n s = _
  rw [execLoupeResume, hp, hw, Bool.and_self, if_pos rfl]

theorem exec_loupeStep : exec (.loupeStep n) s = .next (loupeStep s n) := by
  show execLoupeStep n s = _
  rw [execLoupeStep, hp, hw, Bool.and_self, if_pos rfl]

theorem exec_setbare : exec (.setbare n) s = .next (setBare s n) := by
  show execSetbare n s = _
  rw [execSetbare, hp, hw, Bool.and_self, if_pos rfl]

theorem exec_lpcWrite (v : Word) : exec (.lpcWrite n v) s = .next (lpcWrite s n v) := by
  show execLpcWrite n v s = _
  rw [execLpcWrite, hp, hw, Bool.and_self, if_pos rfl]

theorem exec_lskvalWrite (v : Word) : exec (.lskvalAccess n (some v)) s = .next (lskWrite s n v) := by
  show execLskvalAccess n (some v) s = _
  simp only [execLskvalAccess, hp, hw, Bool.not_true, Bool.false_eq_true, if_false, if_true]

theorem exec_lskvalRead {r : State × Word} (h : lskRead s n = some r) : exec (.lskvalAccess n none) s = .next { r.1 with rdata := some r.2 } := by
  have hr : loupeMayRead s = true := by rw [loupeMayRead, (loupeMayWrite_iff s).1 hw]; rfl
  show execLskvalAccess n none s = _
  simp only [execLskvalAccess, hp, hr, h, Bool.not_true, Bool.false_eq_true, if_false, if_true]

end Open

/-! ### Resume and step (R464 to R466) -/

/-- A core the Loupe had halted issues again; its watchdog counts on unless `halt` holds it (R202, R465). -/
def loupeFreed (tb : Nat) (k : LensCore) : LensCore :=
  if k.lp.halted then
    { k with lp := { k.lp with halted := false, why := 0, pass := true }, e := if k.i.run = .halted then k.e else { k.e with wdStart := tb } }
  else k

theorem loupeResumeCore_eq (s : State) (n : Nat) : loupeResumeCore s n = modCore s n (loupeFreed s.tb) := rfl

/-- A resume starts a core stopped by `halt` too (R100). -/
theorem loupeResume_eq (s : State) (n : Nat) : loupeResume s n = modCore s n fun k =>
    if k.i.run = .halted then { loupeFreed s.tb k with i := { k.i with run := .running }, e := { k.e with wdStart := s.tb } } else loupeFreed s.tb k := by
  rw [loupeResume, loupeResumeCore_eq, modCore_modCore]
  congr 1
  funext k
  unfold loupeFreed
  cases k.lp.halted <;> by_cases hrun : k.i.run = .halted <;> simp only [hrun, Bool.false_eq_true, if_true, if_false]

theorem loupeStep_eq (s : State) (n : Nat) : loupeStep s n =
    if (getCore s n).lp.halted then modCore s n fun k => { loupeFreed s.tb k with lp := { (loupeFreed s.tb k).lp with stepping := 1 } } else s := by
  rw [loupeStep, loupeResumeCore_eq, modCore_modCore]

/-! ### Halts (R465, R466) -/

/-- A halt can be taken of a core that issues nothing, or at a boundary with nothing to enter (R465). -/
theorem haltPoint_iff (s : State) (n : Nat) : let k := getCore s n
    haltPoint s n = true ↔ k.lp.halted = false ∧ (k.i.run ≠ .running ∨ (k.i.fault = none ∧ boundary s n = true ∧ recognisable s n (isIE k) = none)) := by
  simp [haltPoint, and_assoc]

section Halt

variable {s : State} {n : Nat} (hp : corePresent s n = true) (hpoint : haltPoint s n = true)
include hp hpoint

theorem exec_loupeHalt_requested (h : (getCore s n).lp.pending = true) : exec (.loupeHalt n) s =
    .next (loupeHaltCore s n (if (getCore s n).i.run = .running ∧ atBreakpoint (getCore s n) = true then 3 else 1)) := by
  show execLoupeHalt n s = _
  simp only [execLoupeHalt, hp, hpoint, h, Bool.and_self, if_true]

theorem exec_loupeHalt_stepped (h : (getCore s n).lp.pending = false) (hstep : (getCore s n).lp.stepping = 2) :
    exec (.loupeHalt n) s = .next (loupeHaltCore s n 2) := by
  show execLoupeHalt n s = _
  simp only [execLoupeHalt, hp, hpoint, h, hstep, Bool.and_self, Bool.false_eq_true, if_true, if_false]

theorem exec_breakpointHalt (hrun : (getCore s n).i.run = .running) (hb : atBreakpoint (getCore s n) = true) :
    exec (.breakpointHalt n) s = .next (loupeHaltCore s n 3) := by
  show execBreakpointHalt n s = _
  simp only [execBreakpointHalt, hp, hpoint, hrun, hb, BEq.rfl, Bool.and_self, if_true]

end Halt

/-! ### The socket window of the Loupe (R467) -/

/-- A trigger code is no socket that holds a value, and none a write may name. -/
theorem not_socket_of_trigger {c : Nat} (h : trigOf c ≠ none) (s : State) : lskHolds s c = false ∧ lskTakes s c = false := by
  obtain ⟨o, ho⟩ := Option.ne_none_iff_exists'.1 h
  obtain ⟨hlo, hhi⟩ := trigOf_dst ho
  have hrole : codeRole c = .trig o := by
    unfold trigOf at ho
    split at ho
    next p hr =>
      cases ho
      exact hr
    · cases ho
  have hread : specialReadable c = false := by
    simp [specialReadable]
    omega
  have hwrite : specialWritable c = false := by
    simp [specialWritable]
    omega
  have h1 : ¬ c < 0x40 := by omega
  have h2 : ¬ c < 0x200 := by omega
  have h3 : (Role.trig o == .operand) = false ∧ (Role.trig o == .result) = false := ⟨by simp, by simp⟩
  simp [lskHolds, lskTakes, hrole, hread, hwrite, h1, h2, h3]

/-- A register is a socket a write may name. -/
theorem lskTakes_register (s : State) {c : Nat} (h : c < 0x40 ∨ (0x100 ≤ c ∧ c < 0x200)) : lskTakes s c = true := by
  have hpresent : unitAbsent s c = false := by
    simp [unitAbsent]
    omega
  rcases h with h | ⟨h1, h2⟩
  · simp [lskTakes, hpresent, h]
  · simp [lskTakes, hpresent, h1, h2]

theorem getCore_setSkerr (s : State) (n : Nat) : getCore (setSkerr s n) n = { getCore s n with lp := { (getCore s n).lp with skerr := true } } :=
  getCore_modCore ..

theorem onlyCore_setSkerr (s : State) (n : Nat) : OnlyCore n s (setSkerr s n) := onlyCore_modCore ..

section Window

variable {s : State} {n c : Nat} (hc : (getCore s n).lp.sksel.toNat = c)
include hc

theorem lskRead_refused (h : (getCore s n).lp.halted = false ∨ lskHolds s c = false) : lskRead s n = some (setSkerr s n, 0) := by
  simp only [lskRead, hc]
  rcases h with h | h <;> simp [h]

theorem lskRead_value (h : (getCore s n).lp.halted = true) (hholds : lskHolds s c = true) (hidle : windowBusy (getCore s n) c = false) (htb : c ≠ 0x407) :
    lskRead s n = some (s, lskValue s n (getCore s n) c) := by
  simp [lskRead, hc, h, hholds, hidle, htb]

theorem lskWrite_refused {v : Word}
    (h : (getCore s n).lp.halted = false ∨ lskTakes s c = false ∨ lskViewFails (getCore s n) n c v = true) : lskWrite s n v = setSkerr s n := by
  simp only [lskWrite, hc]
  rcases h with h | h | h <;> simp [h]

/-- A write below the special registers is a move's. -/
theorem lskWrite_taken (h : (getCore s n).lp.halted = true) (htakes : lskTakes s c = true) (hlow : c < 0x400) (v : Word) :
    lskWrite s n v = setCore s n (writeDst (getCore s n) n c v) := by
  have hview : isView c = false := by
    simp [isView]
    omega
  have hap : ¬ (c = 0x490 ∨ c = 0x498 ∨ c = 0x4A0) := by omega
  simp only [lskWrite, modCore, hc, h, htakes, lskViewFails, hview, Bool.not_true, Bool.false_and, Bool.or_self, Bool.false_eq_true, if_false, if_neg hap]

end Window

theorem writeDst_greg {c : Nat} (h : c < 0x40) (k : LensCore) (n : Nat) (v : Word) : writeDst k n c v = { k with g := Tab.put c v k.g } := by
  rw [writeDst, if_pos h, setGreg]

theorem writeDst_pbit {c : Nat} (h1 : 0x100 ≤ c) (h2 : c < 0x200) (k : LensCore) (n : Nat) (v : Word) :
    writeDst k n c v = if c = 0x100 then k else { k with bits := Tab.put (c - 0x100) (v.getLsbD 0) k.bits } := by
  have hz : c - 0x100 = 0 ↔ c = 0x100 := by omega
  rw [writeDst, if_neg (by omega), if_pos ⟨h1, h2⟩, setPbit]
  simp only [hz]

theorem writeDst_operand {c : Nat} (h : codeRole c = .operand) (h1 : 0x200 ≤ c) (h2 : c < 0x400) (hseg : c ≠ 0x272) (k : LensCore) (n : Nat) (v : Word) :
    writeDst k n c v = { k with u := { k.u with sk := Tab.put c v k.u.sk } } := by
  rw [writeDst, if_neg (by omega), if_neg (by omega), if_neg (by omega), if_pos h, if_neg hseg, setSk]

/-- A write of a loop count through its view writes the count of the level (R135). -/
theorem writeDst_count {c : Nat} (h1 : 0x4B8 ≤ c) (h2 : c ≤ 0x4BB) (k : LensCore) (n : Nat) (v : Word) :
    ∃ i, writeDst k n c v = { setLoopReg k 2 (c % 4) v with i } := by
  interval_cases c <;> simp only [writeDst, writeSpecial] <;> norm_num <;> split <;> exact ⟨_, rfl⟩

section View

variable {k : LensCore} {n c : Nat} {v : Word}

/-- A bound of an active level is not written (R135). -/
theorem lskViewFails_bound (h1 : 0x4B0 ≤ c) (h2 : c < 0x4B8) (h : loopLc k (c % 4) ≠ 0) : lskViewFails k n c v = true := by
  have hview : isView c = true := by
    simp [isView]
    omega
  rw [lskViewFails, hview, Bool.true_and, viewFails, if_pos h2]
  exact bne_iff_ne.2 h

variable (h1 : 0x4B8 ≤ c) (h2 : c ≤ 0x4BB)
include h1 h2

/-- Of a write of a count the fourth case of R135 looks at the levels around, which stand. -/
theorem lskViewFails_count : lskViewFails k n c v =
    if v != 0 then (decide (1 ≤ c % 4) && loopLc k (c % 4 - 1) == 0) || (loopLe k (c % 4)).ult (loopLs k (c % 4))
    else decide (c % 4 < 3) && loopLc k (c % 4 + 1) != 0 := by
  obtain ⟨i, hk⟩ := writeDst_count h1 h2 k n v
  have hview : isView c = true := by
    simp [isView]
    omega
  have hother : ∀ j, j ≠ c % 4 → loopLc (writeDst k n c v) j = loopLc k j := fun j hj => by
    rw [hk]
    exact (sameLevel_setLoopReg hj k 2 v).2.2
  have hbelow : (decide (1 ≤ c % 4) && loopLc (writeDst k n c v) (c % 4 - 1) == 0) = (decide (1 ≤ c % 4) && loopLc k (c % 4 - 1) == 0) := by
    by_cases hpos : 1 ≤ c % 4
    · rw [hother _ (by omega)]
    · rw [decide_eq_false hpos, Bool.false_and, Bool.false_and]
  have hbounds : loopLe (writeDst k n c v) (c % 4) = loopLe k (c % 4) ∧ loopLs (writeDst k n c v) (c % 4) = loopLs k (c % 4) := by
    rw [hk]
    exact ⟨rfl, rfl⟩
  rw [lskViewFails, hview, Bool.true_and, viewFails, if_neg (Nat.not_lt.2 h1)]
  simp only [hbelow, hbounds, hother _ (Nat.succ_ne_self _)]

theorem lskViewFails_opens (hv : v ≠ 0) (h : (1 ≤ c % 4 ∧ loopLc k (c % 4 - 1) = 0) ∨ (loopLe k (c % 4)).ult (loopLs k (c % 4)) = true) :
    lskViewFails k n c v = true := by
  rw [lskViewFails_count h1 h2, if_pos (bne_iff_ne.2 hv), Bool.or_eq_true, Bool.and_eq_true, decide_eq_true_iff, beq_iff_eq]
  exact h

theorem lskViewFails_ends (hi : c % 4 < 3) (h : loopLc k (c % 4 + 1) ≠ 0) : lskViewFails k n c 0 = true := by
  rw [lskViewFails_count h1 h2, if_neg (by decide), Bool.and_eq_true, decide_eq_true_iff, bne_iff_ne]
  exact ⟨hi, h⟩

end View

/-! ### The trace and the facet test hooks (R468, R470) -/

section Hooks

variable {s : State} (hw : loupeMayWrite s = true)
include hw

theorem exec_trctlWrite {c : Nat} (hc : c < nClusters s) (v : Word) : exec (.trctlWrite c v) s = .next (trctlWrite s c v) := by
  show execTrctlWrite c v s = _
  rw [execTrctlWrite, if_pos ⟨hc, hw⟩]

variable {p : Nat} (hp : p < nFacets s)
include hp

theorem exec_ftctlWrite (v : Word) : exec (.ftctlWrite p v) s = .next (ftctlWrite s p v).1 := by
  show execFtctlWrite p v s = _
  rw [execFtctlWrite, if_pos ⟨hp, hw⟩]

theorem exec_bitInjection : exec (.bitInjection p) s = .next (if hooksOpen s p then modFacet s p injectBit else s) := by
  show execBitInjection p s = _
  simp only [execBitInjection, hp, hw, true_and]

end Hooks

theorem hooksOpen_iff (s : State) (p : Nat) : hooksOpen s p = true ↔ ((getFacet s p).state = 0 ∨ (getFacet s p).state = 5) ∧ s.prbs = none := by
  simp [hooksOpen]

theorem low31_toNat (w : Word) : w.toNat % 2 ^ 31 = (w.setWidth 31).toNat := (BitVec.toNat_setWidth ..).symm

/-- LOCK written beside the count of FTERR (R470). -/
theorem fterr_lock (w : Word) (lock : Bool) : let x := (w &&& 0x7FFFFFFF#32) ||| (if lock then 0x80000000#32 else 0)
    x.getLsbD 31 = lock ∧ x.toNat % 2 ^ 31 = w.toNat % 2 ^ 31 := by
  intro x
  have hmask : w.setWidth 31 &&& (0x7FFFFFFF#32).setWidth 31 = w.setWidth 31 := BitVec.and_allOnes
  refine ⟨by cases lock <;> simp [x], ?_⟩
  rw [low31_toNat, low31_toNat, BitVec.setWidth_or, BitVec.setWidth_and, hmask]
  cases lock <;> simp

/-- The count of FTERR written beside LOCK (R470). -/
theorem fterr_count (w : Word) {m : Nat} (hm : m < 2 ^ 31) : let x := (w &&& 0x80000000#32) ||| BitVec.ofNat 32 m
    x.getLsbD 31 = w.getLsbD 31 ∧ x.toNat % 2 ^ 31 = m := by
  intro x
  have hhigh : (BitVec.ofNat 32 m).getLsbD 31 = false := by rw [BitVec.getLsbD_ofNat, Nat.testBit_lt_two_pow hm, Bool.and_false]
  have hmask : (0x80000000#32).getLsbD 31 = true := rfl
  refine ⟨by rw [BitVec.getLsbD_or, BitVec.getLsbD_and, hmask, hhigh, Bool.and_true, Bool.or_false], ?_⟩
  have hclear : w.setWidth 31 &&& (0x80000000#32).setWidth 31 = 0#31 := BitVec.and_zero
  rw [low31_toNat, BitVec.setWidth_or, BitVec.setWidth_and, hclear, BitVec.zero_or, ← low31_toNat, BitVec.toNat_ofNat]
  omega

/-- Near-end loopback of a pattern, whose checker counts (R470). -/
abbrev Loops (w : Word) : Prop := w.toNat % 4 = 1 ∧ w.toNat / 4 % 8 ≠ 0

theorem loops_iff (w : Word) : (field w 0 2 = 1 ∧ field w 2 3 ≠ 0) ↔ Loops w := by simp [field, Loops]

theorem injectBit_spec (f : Facet) : injectBit f = { f with fterr := (injectBit f).fterr } ∧ (injectBit f).fterr.getLsbD 31 = f.fterr.getLsbD 31 ∧
    (Loops f.ftctl → (injectBit f).fterr.toNat % 2 ^ 31 = min (2 ^ 31 - 1) (f.fterr.toNat % 2 ^ 31 + 1)) ∧
    (¬ Loops f.ftctl → (injectBit f).fterr.toNat % 2 ^ 31 = f.fterr.toNat % 2 ^ 31) := by
  by_cases h : Loops f.ftctl
  · have hcount : satInc 0x7FFFFFFF (field f.fterr 0 31) = min (2 ^ 31 - 1) (f.fterr.toNat % 2 ^ 31 + 1) := by simp [satInc_eq_min, field]
    have hinj : injectBit f = { f with fterr := (f.fterr &&& 0x80000000#32) ||| BitVec.ofNat 32 (min (2 ^ 31 - 1) (f.fterr.toNat % 2 ^ 31 + 1)) } := by
      rw [injectBit, if_pos ((loops_iff _).2 h), hcount]
    obtain ⟨hbit, hlow⟩ := fterr_count f.fterr (m := min (2 ^ 31 - 1) (f.fterr.toNat % 2 ^ 31 + 1)) (by omega)
    rw [hinj]
    exact ⟨rfl, hbit, fun _ => hlow, fun hn => absurd h hn⟩
  · rw [injectBit, if_neg fun hl => h ((loops_iff _).1 hl)]
    exact ⟨rfl, rfl, fun hl => absurd hl h, fun _ => rfl⟩

/-- LOOP and PAT that name a loop and a pattern (R470). -/
def FtctlLegal (v : Word) : Prop := v.toNat % 4 ≠ 3 ∧ v.toNat / 4 % 8 ≤ 4

/-- FTCTL with LOOP and PAT of `v`, the checker locked or not as they say, before INJ (R470). -/
def ftctlHeld (f : Facet) (v : Word) : Facet :=
  { f with ftctl := v &&& 0x1F#32, fterr := (f.fterr &&& 0x7FFFFFFF#32) ||| (if decide (Loops v) then 0x80000000#32 else 0) }

theorem ftctlWrite_refused {s : State} {p : Nat} {v : Word} (h : hooksOpen s p = false ∨ ¬ FtctlLegal v) : (ftctlWrite s p v).1 = s := by
  have hbad : (!hooksOpen s p || field v 0 2 == 3 || decide (4 < field v 2 3)) = true := by
    rcases h with h | h
    · simp [h]
    · rw [FtctlLegal, not_and_or, not_not, Nat.not_le] at h
      rcases h with h | h <;> simp [field, h]
  rw [ftctlWrite, if_pos hbad]

theorem ftctlWrite_held {s : State} {p : Nat} {v : Word} (hopen : hooksOpen s p = true) (h : FtctlLegal v) :
    (ftctlWrite s p v).1 = modFacet s p fun f => if v.getLsbD 5 then injectBit (ftctlHeld f v) else ftctlHeld f v := by
  have hgood : ¬ (!hooksOpen s p || field v 0 2 == 3 || decide (4 < field v 2 3)) = true := by
    obtain ⟨h1, h2⟩ := h
    simp [hopen, field, h1, Nat.not_lt.2 h2]
  have hlock : (decide (field v 0 2 = 1) && field v 2 3 != 0) = decide (Loops v) := by
    rw [Bool.eq_iff_iff, Bool.and_eq_true, decide_eq_true_iff, bne_iff_ne, decide_eq_true_iff]
    exact loops_iff v
  rw [ftctlWrite, if_neg hgood]
  simp only [ftctlHeld, ← hlock]

/-- What a legal write of FTCTL leaves of the facet (R470). -/
theorem ftctlHeld_spec (f : Facet) (v : Word) :
    let f' := if v.getLsbD 5 then injectBit (ftctlHeld f v) else ftctlHeld f v
    f' = { f with ftctl := v &&& 0x1F#32, fterr := f'.fterr } ∧ f'.fterr.getLsbD 31 = decide (Loops v) ∧
      (v.getLsbD 5 = false → f'.fterr.toNat % 2 ^ 31 = f.fterr.toNat % 2 ^ 31) := by
  intro f'
  obtain ⟨hlock, hcount⟩ := fterr_lock f.fterr (decide (Loops v))
  obtain ⟨hrest, hbit, -⟩ := injectBit_spec (ftctlHeld f v)
  cases hinj : v.getLsbD 5 with
  | false =>
    have hf : f' = ftctlHeld f v := by simp only [f', hinj, Bool.false_eq_true, if_false]
    rw [hf]
    exact ⟨rfl, hlock, fun _ => hcount⟩
  | true =>
    have hf : f' = injectBit (ftctlHeld f v) := by simp only [f', hinj, if_true]
    rw [hf]
    exact ⟨hrest, hbit.trans hlock, fun h => absurd h (by decide)⟩

/-! ### The clauses of O60 -/

section Settle

variable {s : State} {n : Nat}

/-- A command that updates core `n` alone. -/
theorem only_of_modCore {i : Instr} {f : LensCore → LensCore} (h : exec i s = .next (modCore s n f)) :
    ∃ t, exec i s = .next t ∧ OnlyCore n s t ∧ getCore t n = f (getCore s n) := ⟨_, h, onlyCore_modCore .., getCore_modCore ..⟩

theorem only_of_setCore {i : Instr} {k x : LensCore} (h : exec i s = .next (setCore s n k)) (hk : k = x) :
    ∃ t, exec i s = .next t ∧ OnlyCore n s t ∧ getCore t n = x := ⟨_, h, onlyCore_setCore .., (getCore_setCore ..).trans hk⟩

variable (hp : corePresent s n = true) (hw : loupeMayWrite s = true)
include hp hw

/-- LOUPE_STEP of a core not halted changes nothing. -/
theorem only_loupeStep : ∃ t, exec (.loupeStep n) s = .next t ∧ OnlyCore n s t ∧ getCore t n =
    if (getCore s n).lp.halted then { loupeFreed s.tb (getCore s n) with lp := { (loupeFreed s.tb (getCore s n)).lp with stepping := 1 } } else getCore s n := by
  have hexec := exec_loupeStep hp hw
  rw [loupeStep_eq] at hexec
  split
  next hh =>
    rw [if_pos hh] at hexec
    exact only_of_modCore hexec
  next hh =>
    rw [if_neg hh] at hexec
    exact ⟨s, hexec, onlyCore_self n s, rfl⟩

/-- LPC of a halted core is the next bundle; of another core the write is an error (R466). -/
theorem only_lpcWrite (v : Word) : ∃ t, exec (.lpcWrite n v) s = .next t ∧ OnlyCore n s t ∧ getCore t n =
    let k := getCore s n
    if k.lp.halted then
      { k with i := { k.i with lines := [], xferOff := none, loopWait := none, pc := v &&& 0xFFFFFFF8#32, fills := 4, delay := none, rep := none, resumeRep := false } }
    else { k with lp := { k.lp with skerr := true } } := by
  have hexec := exec_lpcWrite hp hw v
  rw [lpcWrite] at hexec
  dsimp only
  split
  next hh =>
    rw [if_pos hh] at hexec
    exact only_of_modCore hexec
  next hh =>
    rw [if_neg hh] at hexec
    exact only_of_modCore hexec

/-- Writes through the socket window at the core (R467). -/
theorem lskvalWrites (v : Word) :
    let k := getCore s n
    let c := k.lp.sksel.toNat
    let err := { k with lp := { k.lp with skerr := true } }
    let gives := fun (x : LensCore) => ∃ t, exec (.lskvalAccess n (some v)) s = .next t ∧ OnlyCore n s t ∧ getCore t n = x
    (k.lp.halted = false → gives err) ∧
    (k.lp.halted = true → trigOf c ≠ none → gives err) ∧
    (k.lp.halted = true → c < 0x40 → gives { k with g := Tab.put c v k.g }) ∧
    (k.lp.halted = true → 0x100 < c → c < 0x200 → gives { k with bits := Tab.put (c - 0x100) (v.getLsbD 0) k.bits }) ∧
    (k.lp.halted = true → c = 0x100 → gives k) ∧
    (k.lp.halted = true → 0x4B0 ≤ c → c < 0x4B8 → loopLc k (c % 4) ≠ 0 → gives err) ∧
    (k.lp.halted = true → 0x4B8 ≤ c → c ≤ 0x4BB →
      let i := c % 4
      (v ≠ 0 → (1 ≤ i ∧ loopLc k (i - 1) = 0) ∨ (loopLe k i).ult (loopLs k i) = true → gives err) ∧
      (v = 0 → i < 3 → loopLc k (i + 1) ≠ 0 → gives err)) ∧
    (k.lp.halted = true → unitAbsent s c = false → codeRole c = .operand → c ≠ 0x272 → 0x200 ≤ c → c < 0x400 →
      gives { k with u := { k.u with sk := Tab.put c v k.u.sk } }) := by
  intro k c err gives
  have hrefused : k.lp.halted = false ∨ lskTakes s c = false ∨ lskViewFails k n c v = true → gives err := fun h => by
    have hexec := exec_lskvalWrite hp hw v
    rw [lskWrite_refused rfl h] at hexec
    exact only_of_modCore hexec
  have htaken : ∀ {x}, k.lp.halted = true → lskTakes s c = true → c < 0x400 → writeDst k n c v = x → gives x := fun hh ht hlow hx => by
    have hexec := exec_lskvalWrite hp hw v
    rw [lskWrite_taken rfl hh ht hlow] at hexec
    exact only_of_setCore hexec hx
  refine ⟨fun h => hrefused (.inl h), fun _ h => hrefused (.inr (.inl (not_socket_of_trigger h s).2)), ?general, ?bits, ?zero, ?bound, ?count, ?operand⟩
  case general =>
    intro hh h
    exact htaken hh (lskTakes_register s (.inl h)) (by omega) (writeDst_greg h k n v)
  case bits =>
    intro hh h1 h2
    refine htaken hh (lskTakes_register s (.inr ⟨h1.le, h2⟩)) (by omega) ?_
    rw [writeDst_pbit (by omega) h2, if_neg (by omega)]
  case zero =>
    intro hh h
    refine htaken hh (lskTakes_register s (by omega)) (by omega) ?_
    rw [writeDst_pbit (by omega) (by omega), if_pos h]
  case bound => exact fun _ h1 h2 h => hrefused (.inr (.inr (lskViewFails_bound h1 h2 h)))
  case count =>
    refine fun _ h1 h2 => ⟨fun hv h => hrefused (.inr (.inr (lskViewFails_opens h1 h2 hv h))), fun hv hi h => hrefused (.inr (.inr ?_))⟩
    rw [hv]
    exact lskViewFails_ends h1 h2 hi h
  case operand =>
    intro hh hpresent hrole hseg h1 h2
    exact htaken hh (by simp [lskTakes, hpresent, hrole]) h2 (writeDst_operand hrole h1 h2 hseg k n v)

/-- Reads through the socket window at the core (R467). -/
theorem lskvalReads :
    let k := getCore s n
    let c := k.lp.sksel.toNat
    (k.lp.halted = false ∨ trigOf c ≠ none → ∃ t, exec (.lskvalAccess n none) s = .next t ∧ getCore t n = { k with lp := { k.lp with skerr := true } } ∧
      t.rdata = some 0 ∧ OnlyCore n s { t with rdata := s.rdata }) ∧
    (k.lp.halted = true → lskHolds s c = true → windowBusy k c = false → c ≠ 0x407 →
      exec (.lskvalAccess n none) s = .next { s with rdata := some (lskValue s n k c) }) := by
  intro k c
  refine ⟨fun h => ?_, fun hh hholds hidle htb => exec_lskvalRead hp hw (lskRead_value rfl hh hholds hidle htb)⟩
  have hrefused : lskRead s n = some (setSkerr s n, 0) := lskRead_refused rfl (h.imp_right fun ht => (not_socket_of_trigger ht s).1)
  exact ⟨_, exec_lskvalRead hp hw hrefused, getCore_setSkerr s n, rfl, onlyCore_setSkerr s n⟩

end Settle

/-- The test hooks of a facet (R470). -/
theorem facetHooks {s : State} (hw : loupeMayWrite s = true) {p : Nat} (hp : p < nFacets s) (v : Word) :
    let f := getFacet s p
    let may := (f.state = 0 ∨ f.state = 5) ∧ s.prbs = none
    let others := fun (t : State) => t = { s with facets := t.facets } ∧ ∀ q, q ≠ p → getFacet t q = getFacet s q
    (¬ may → exec (.ftctlWrite p v) s = .next s ∧ exec (.bitInjection p) s = .next s) ∧
    (may → ¬ FtctlLegal v → exec (.ftctlWrite p v) s = .next s) ∧
    (may → FtctlLegal v → ∃ t, exec (.ftctlWrite p v) s = .next t ∧ others t ∧
      getFacet t p = { f with ftctl := v &&& 0x1F#32, fterr := (getFacet t p).fterr } ∧
      (getFacet t p).fterr.getLsbD 31 = decide (Loops v) ∧
      (v.getLsbD 5 = false → (getFacet t p).fterr.toNat % 2 ^ 31 = f.fterr.toNat % 2 ^ 31)) ∧
    (may → ∃ t, exec (.bitInjection p) s = .next t ∧ others t ∧ getFacet t p = { f with fterr := (getFacet t p).fterr } ∧
      (getFacet t p).fterr.getLsbD 31 = f.fterr.getLsbD 31 ∧
      (getFacet t p).fterr.toNat % 2 ^ 31 =
        if Loops f.ftctl then min (2 ^ 31 - 1) (f.fterr.toNat % 2 ^ 31 + 1) else f.fterr.toNat % 2 ^ 31) := by
  intro f may others
  have hothers : ∀ g, others (modFacet s p g) := fun g => ⟨rfl, fun q hq => getFacet_modFacet_ne s hq g⟩
  refine ⟨fun hmay => ?shut, fun _ hv => ?illegal, fun hmay hv => ?held, fun hmay => ?inject⟩
  case shut =>
    have hshut : hooksOpen s p = false := Bool.eq_false_iff.2 fun h => hmay ((hooksOpen_iff s p).1 h)
    constructor
    · rw [exec_ftctlWrite hw hp, ftctlWrite_refused (.inl hshut)]
    · rw [exec_bitInjection hw hp, hshut, if_neg Bool.false_ne_true]
  case illegal => rw [exec_ftctlWrite hw hp, ftctlWrite_refused (.inr hv)]
  case held =>
    refine ⟨_, exec_ftctlWrite hw hp v, ?_⟩
    rw [ftctlWrite_held ((hooksOpen_iff s p).2 hmay) hv, getFacet_modFacet]
    exact ⟨hothers _, ftctlHeld_spec f v⟩
  case inject =>
    refine ⟨_, exec_bitInjection hw hp, ?_⟩
    rw [if_pos ((hooksOpen_iff s p).2 hmay), getFacet_modFacet]
    obtain ⟨hrest, hbit, hcounts, hkeeps⟩ := injectBit_spec f
    refine ⟨hothers _, hrest, hbit, ?_⟩
    split
    next h => exact hcounts h
    next h => exact hkeeps h

/-- Settles O60: the commands of the Loupe, each an update of the one core, cluster or facet it names. -/
theorem loupeHaltsStepsAndReachesCores : Obligations.LoupeHaltsStepsAndReachesCores := by
  intro s n hp k lp only paused stopped counting freed rests err
  refine ⟨fun h => loupe_shut h n, fun hgate => ?_, fun hrests => ?_⟩
  · have hw : loupeMayWrite s = true := (loupeMayWrite_iff s).2 hgate
    refine ⟨only_of_modCore (exec_loupeHaltRequest hp hw), ?resume, only_loupeStep hp hw, only_of_modCore (exec_setbare hp hw),
      only_lpcWrite hp hw, ⟨lskvalWrites hp hw, lskvalReads hp hw⟩, fun c v hc => ?trace, fun p v hf => facetHooks hw hf v⟩
    case resume =>
      have hexec := exec_loupeResume hp hw
      rw [loupeResume_eq] at hexec
      exact only_of_modCore hexec
    case trace =>
      exact ⟨_, exec_trctlWrite hw hc v, rfl, getCluster_modCluster .., fun d hd => getCluster_modCluster_ne s hd _⟩
  · have hpoint : haltPoint s n = true := (haltPoint_iff s n).2 hrests
    exact ⟨fun h => only_of_modCore (exec_loupeHalt_requested hp hpoint h), fun h hstep => only_of_modCore (exec_loupeHalt_stepped hp hpoint h hstep),
      fun hrun hb => only_of_modCore (exec_breakpointHalt hp hpoint hrun hb)⟩

end Sys2Proof.Machine

/-! SUPPORT. The beam engine in a memory without errors: its checks find nothing, a search only looks (R180, R210, R225). -/

namespace Sys2Proof.Machine

section NoErrors

variable {s : State} (he : s.ecc = [])
include he

theorem checkWord_noErrors (w : Nat) : checkWord s w = (s, false) := checkWord_clean (by rw [eccOf, he]; rfl)

theorem setEcc_noErrors (w : Nat) : setEcc s w 0 = s := by
  rw [setEcc, if_pos rfl, he]
  exact congrArg (fun x => { s with ecc := x }) he.symm

theorem wholeWord_noErrors (w : Nat) (data : BitVec 64) : wholeWord s w data = setRawWord s w data := setEcc_noErrors (s := setRawWord s w data) he w

theorem engineCheck_noErrors (b i : Nat) : engineCheck s b i = (s, false) := by rw [engineCheck, checkWord_noErrors he]; rfl

theorem engineMod_noErrors (b i : Nat) (g : BeamCtx → BeamCtx) : engineMod s b i g = modBeam s b g := by rw [engineMod, engineCheck_noErrors he]

theorem cleanBeam_noErrors (b : Nat) : cleanBeam s b = s := List.foldl_fixed' (fun _ => setEcc_noErrors he _) _

theorem checkCtx_noErrors (b : Nat) : checkCtx s b = (s, none) :=
  List.foldl_fixed' (fun i => by rw [engineCheck_noErrors he]; rfl) _

theorem commitWords_noErrors (b : Nat) : commitWords s b = s := by
  have hread : [0, 1, 3, 4].foldl (fun t i => (engineCheck t b i).1) s = s := List.foldl_fixed' (fun i => by rw [engineCheck_noErrors he]) _
  rw [commitWords, hread]
  exact List.foldl_fixed' (fun _ => setEcc_noErrors he _) _

/-- A search changes nothing; it finds the first way that is valid with the key (R210). -/
theorem beamSearch_noErrors (k : Word) (l : List Nat) (fr : Option Nat) :
    (beamSearch k l s fr).1 = s ∧ (beamSearch k l s fr).2.1 = l.find? fun b => (getBeam s b).valid && (getBeam s b).key == k := by
  induction l generalizing fr with
  | nil => exact ⟨rfl, rfl⟩
  | cons b l ih =>
    rw [beamSearch]
    simp only [engineCheck_noErrors he, Bool.false_eq_true, if_false, List.find?_cons]
    cases hv : (getBeam s b).valid
    case false => simpa using ih _
    case true =>
      by_cases hk : (getBeam s b).key = k
      · simp [hk]
      · have hk' : ((getBeam s b).key == k) = false := beq_eq_false_iff_ne.2 hk
        simpa [hk, hk'] using ih fr

end NoErrors

end Sys2Proof.Machine

/-! SUPPORT. What completions, reports and the beam engines leave alone beside the links (R180, R210, R223, R246, R249, R253). -/

namespace Sys2Proof.Machine

/-! ### Completions (R246, R253, R255) -/

/-- Only cores, facets, the fabric, the router and counters have changed: what a completion reaches. -/
structure Completes (s t : State) : Prop where
  frame : t = { s with cores := t.cores, facets := t.facets, fabric := t.fabric, router := t.router, ent := t.ent }

namespace Completes

variable {s t u : State}

theorem refl (s : State) : Completes s s := ⟨rfl⟩

theorem trans (h1 : Completes s t) (h2 : Completes t u) : Completes s u :=
  ⟨h2.frame.trans (congrArg (fun x : State => { x with cores := u.cores, facets := u.facets, fabric := u.fabric, router := u.router, ent := u.ent }) h1.frame)⟩

theorem ite {p : Prop} [Decidable p] (h1 : Completes s t) (h2 : Completes s u) : Completes s (if p then t else u) := by split <;> assumption

theorem foldl {α : Type} {f : State → α → State} (h : ∀ t x, Completes t (f t x)) (l : List α) (s : State) : Completes s (l.foldl f s) :=
  foldl_rel refl trans h l s

theorem modCore (s : State) (n : Nat) (g : LensCore → LensCore) : Completes s (modCore s n g) := ⟨rfl⟩
theorem setFacet (s : State) (p : Nat) (f : Facet) : Completes s (setFacet s p f) := ⟨rfl⟩
theorem modFacet (s : State) (p : Nat) (g : Facet → Facet) : Completes s (modFacet s p g) := ⟨rfl⟩
theorem setEnt (s : State) (i j v : Nat) : Completes s (setEnt s i j v) := ⟨rfl⟩

theorem sendPacket (s : State) (vc : Nat) (kind : PacketKind) (route : List Nat) (octets : Nat) (body : PktBody) :
    Completes s (sendPacket s vc kind route octets body) := by
  obtain ⟨x, h⟩ := sendPacket_only s vc kind route octets body
  rw [h]
  exact ⟨rfl⟩

theorem setFevt (s : State) (p : Nat) (mask : BitVec 16) : Completes s (setFevt s p mask) := by
  unfold Machine.setFevt
  dsimp only
  split <;> split <;> exact ⟨rfl⟩

theorem setLinkState (s : State) (p st : Nat) : Completes s (setLinkState s p st) := .ite (refl s) ((modFacet ..).trans (setFevt ..))

theorem bumpCounter (s : State) (p sub n : Nat) : Completes s (bumpCounter s p sub n) := .ite (refl s) (setEnt ..)

theorem countFacet (s : State) (p sub : Nat) : Completes s (countFacet s p sub) := .ite (refl s) (setEnt ..)

theorem pushStaging (s : State) (p lc : Nat) (e : Done) : Completes s (pushStaging s p lc e) :=
  .ite (setFacet ..) ((setFacet ..).trans (countFacet ..))

theorem countResult (s : State) (p : Nat) (d : TxDesc) (result : Nat) : Completes s (countResult s p d result) :=
  .ite ((bumpCounter ..).trans (bumpCounter ..)) (.ite (countFacet ..) (refl s))

theorem showDone (s : State) (p : Nat) : Completes s (showDone s p) := .ite (setFevt ..) (refl s)

theorem freeBuf (s : State) (face idx : Nat) : Completes s (freeBuf s face idx) := modFacet ..

theorem completeDesc (s : State) (p : Nat) (d : TxDesc) (result : Nat) : Completes s (completeDesc s p d result) := by
  have hcount := countResult s p d result
  unfold Machine.completeDesc
  cases hposter : d.poster with
  | own => exact refl s
  | staging lc => exact (hcount.trans (pushStaging ..)).trans (showDone ..)
  | fabric n => exact (hcount.trans (.ite (modCore ..) (sendPacket ..))).trans (showDone ..)
  | relay g idx => exact (hcount.trans (freeBuf ..)).trans (showDone ..)

theorem deferFrame (q : Nat) (s : State) (d : TxDesc) : Completes s (deferFrame q s d) :=
  .ite ((completeDesc ..).trans (setFevt ..)) (((modFacet ..).trans (countFacet ..)).trans (setFevt ..))

theorem deferAll (s : State) (q : Nat) : Completes s (deferAll s q) :=
  trans (modFacet s q fun f => { f with await := [], retry := [], lane := keepUnscheduled f.lane, back := keepUnscheduled f.back })
    (foldl (deferFrame q) ..)

theorem discardTx (s : State) (b result : Nat) : Completes s (discardTx s b result) := by
  refine foldl (fun t e => ?_) s.facets s
  dsimp only
  exact (modFacet t e.1 _).trans (foldl (fun u d => completeDesc u e.1 d result) _ _)

theorem freeRx (s : State) (b : Nat) : Completes s { s with facets := freeRx b s.facets } := ⟨rfl⟩

theorem getBeam (h : Completes s t) (b : Nat) : getBeam t b = getBeam s b := by rw [h.frame]; rfl

theorem rfx (h : Completes s t) : t.rfx = s.rfx := by rw [h.frame]

end Completes

/-! ### Reports, corrections and the engines (R180, R183, R184, R210, R225) -/

/-- The reflex unit, the count of free values and the error windows stand, and so do the beams but those of `P`. -/
structure BeamsBut (P : Nat → Prop) (s t : State) : Prop where
  rfx : t.rfx = s.rfx
  free : t.free = s.free
  winErrs : ∀ p, (getFacet t p).winErrs = (getFacet s p).winErrs
  beam : ∀ b, ¬ P b → getBeam t b = getBeam s b

namespace BeamsBut

variable {P : Nat → Prop} {s t u : State}

theorem of_fields (hr : t.rfx = s.rfx) (hfree : t.free = s.free) (hf : t.facets = s.facets) (hb : t.beams = s.beams) : BeamsBut P s t :=
  ⟨hr, hfree, fun p => by rw [getFacet, hf, getFacet], fun b _ => by rw [getBeam, hb, getBeam]⟩

theorem refl (s : State) : BeamsBut P s s := of_fields rfl rfl rfl rfl

theorem trans (h1 : BeamsBut P s t) (h2 : BeamsBut P t u) : BeamsBut P s u :=
  ⟨h2.rfx.trans h1.rfx, h2.free.trans h1.free, fun p => (h2.winErrs p).trans (h1.winErrs p), fun b hb => (h2.beam b hb).trans (h1.beam b hb)⟩

theorem ite {p : Prop} [Decidable p] (h1 : BeamsBut P s t) (h2 : BeamsBut P s u) : BeamsBut P s (if p then t else u) := by split <;> assumption

theorem foldl {α : Type} {f : State → α → State} (h : ∀ t x, BeamsBut P t (f t x)) (l : List α) (s : State) : BeamsBut P s (l.foldl f s) :=
  foldl_rel refl trans h l s

theorem raise (s : State) (src : Nat) : BeamsBut P s (raise s src) := of_fields rfl rfl rfl rfl
theorem bumpEnt (s : State) (i j : Nat) : BeamsBut P s (bumpEnt s i j) := of_fields rfl rfl rfl rfl
theorem setEcc (s : State) (w v : Nat) : BeamsBut P s (setEcc s w v) := of_fields rfl rfl rfl rfl
theorem modCluster (s : State) (c : Nat) (f : Cluster → Cluster) : BeamsBut P s (modCluster s c f) := of_fields rfl rfl rfl rfl
theorem modBank (s : State) (c k : Nat) (f : Bank → Bank) : BeamsBut P s (modBank s c k f) := of_fields rfl rfl rfl rfl
theorem modQuad (s : State) (q : Nat) (f : Quad → Quad) : BeamsBut P s (modQuad s q f) := of_fields rfl rfl rfl rfl
theorem logErr (s : State) (code origin : Nat) (data : Octets) : BeamsBut P s (logErr s code origin data) := of_fields rfl rfl rfl rfl

theorem setBeam {b : Nat} (hb : P b) (s : State) (x : BeamCtx) : BeamsBut P s (setBeam s b x) :=
  ⟨rfl, rfl, fun _ => rfl, fun a ha => getBeam_setBeam_ne s (fun h : a = b => ha (h.symm ▸ hb)) x⟩

theorem emergency (s : State) (code origin : Nat) (data : Octets) : BeamsBut P s (emergency s code origin data) :=
  .ite (of_fields rfl rfl rfl rfl) (of_fields rfl rfl rfl rfl)

theorem setClevt (s : State) (c : Nat) (mask : Word) : BeamsBut P s (setClevt s c mask) :=
  .ite (of_fields rfl rfl rfl rfl) (of_fields rfl rfl rfl rfl)

theorem setBeevt (s : State) (q bit i : Nat) : BeamsBut P s (setBeevt s q bit i) :=
  .ite (of_fields rfl rfl rfl rfl) (of_fields rfl rfl rfl rfl)

theorem setHistory (s : State) (p : Place) (h : List Corr) : BeamsBut P s (setHistory s p h) := by
  cases p with
  | scratch n => exact .ite (of_fields rfl rfl rfl rfl) (of_fields rfl rfl rfl rfl)
  | _ => exact of_fields rfl rfl rfl rfl

theorem permanentWord (s : State) (w : Nat) : BeamsBut P s (permanentWord s w) := by
  unfold Machine.permanentWord
  split
  · exact .ite ((modBank ..).trans (setClevt ..)) (((modBank ..).trans (setClevt ..)).trans (emergency ..))
  · exact .ite (modQuad ..) (((modQuad ..).trans (setBeevt ..)).trans (emergency ..))
  · exact refl s
  · exact bumpEnt ..

theorem noteCorrection (s : State) (w : Nat) : BeamsBut P s (noteCorrection s w) := by
  refine (bumpEnt s 0x2400 6).trans ?_
  unfold Machine.noteCorrection
  dsimp only
  split
  · exact .ite ((setHistory ..).trans (permanentWord ..)) (setHistory ..)
  · refine .ite (setHistory ..) ?_
    split
    · exact (setHistory ..).trans (modBank ..)
    · exact setHistory ..

section Word

variable {w : Nat} (hw : P ((8 * w - beamBase) / 64)) (s : State)
include hw

/-- A word of the beam table is reported at its own beam. -/
theorem reportPlace (p : Place) : BeamsBut P s (reportPlace s w p) := by
  cases p with
  | bank c k => exact setClevt ..
  | beam q => exact .ite (setBeam hw ..) ((setBeam hw ..).trans (setBeevt ..))
  | xram c => exact setClevt ..
  | bits c => exact setClevt ..
  | scratch n => exact .ite (raise ..) (setClevt ..)
  | mgmt => exact raise ..
  | other => exact refl s

theorem newPoison : BeamsBut P s (newPoison s w) :=
  (((setEcc s w 3).trans (reportPlace hw ..)).trans (logErr ..)).trans (bumpEnt ..)

theorem checkWord : BeamsBut P s (checkWord s w).1 := by
  unfold Machine.checkWord
  split
  · exact refl s
  · exact (setEcc ..).trans (noteCorrection ..)
  · exact newPoison hw s
  · exact refl s

end Word

section Engine

variable {b i : Nat} (hb : P b) (hi : i < 8) (s : State)
include hb hi

theorem engineCheck : BeamsBut P s (engineCheck s b i).1 := by
  have hw : P ((8 * (beamWordNo b + i) - beamBase) / 64) := by
    have hword : (8 * (beamWordNo b + i) - beamBase) / 64 = b := by
      unfold beamWordNo beamBase
      omega
    exact hword.symm ▸ hb
  exact (checkWord hw s).trans (.ite (.ite (refl _) ((setBeam hb ..).trans (setBeevt ..))) (refl _))

theorem engineMod (g : BeamCtx → BeamCtx) : BeamsBut P s (engineMod s b i g) := (engineCheck hb hi s).trans (setBeam hb ..)

end Engine

/-! ### A received frame that is dropped (R249, R258) -/

theorem setFacet {p : Nat} {f : Facet} (hf : f.winErrs = (getFacet s p).winErrs) : BeamsBut P s (setFacet s p f) := by
  refine ⟨rfl, rfl, fun q => ?_, fun _ _ => rfl⟩
  by_cases hq : q = p
  · rw [hq, getFacet_setFacet, hf]
  · rw [getFacet_setFacet_ne s hq]

theorem sendPacket (s : State) (vc : Nat) (kind : PacketKind) (route : List Nat) (octets : Nat) (body : PktBody) :
    BeamsBut P s (sendPacket s vc kind route octets body) := by
  obtain ⟨x, h⟩ := sendPacket_only s vc kind route octets body
  rw [h]
  exact of_fields rfl rfl rfl rfl

theorem incDrops (s : State) (b : Nat) : BeamsBut (fun _ => True) s (incDrops s b) := engineMod trivial (by decide) s _

theorem relayEnd (s : State) (e id : Nat) (good : Bool) : BeamsBut (fun _ => True) s (relayEnd s e id good) := by
  unfold Machine.relayEnd
  dsimp only
  split
  · exact setFacet rfl
  refine .trans (setFacet ?_) (foldl (fun t d => ?_) _ _)
  · rfl
  have hbuf : BeamsBut (fun _ => True) t (match d.poster with | .relay p i => freeBuf t p i | _ => t) := by
    split
    · exact setFacet rfl
    · exact refl t
  split
  · exact hbuf.trans (incDrops ..)
  · exact hbuf

theorem endRelay (s : State) (q : Nat) (l : Option Lookup) : BeamsBut (fun _ => True) s (endRelay s q l) := by
  unfold Machine.endRelay
  split
  · exact .ite (relayEnd ..) (sendPacket ..)
  · exact refl s

theorem dropRx (s : State) (q : Nat) : BeamsBut (fun _ => True) s (dropRx s q) :=
  trans (setFacet (p := q) (f := { getFacet s q with look := none }) rfl) (endRelay ..)

end BeamsBut

/-! ### Window stores (R223) -/

/-- A deletion leaves the reflex unit and the other beams. -/
theorem deleteBeam_apart (s : State) (b : Nat) :
    (deleteBeam s b).rfx = s.rfx ∧ ∀ a, a ≠ b → getBeam (deleteBeam s b) a = getBeam s a := by
  have hends : Completes s { discardTx s b 9 with facets := freeRx b (discardTx s b 9).facets } := (Completes.discardTx s b 9).trans (.freeRx ..)
  have hclean : BeamsBut (· = b) { discardTx s b 9 with facets := freeRx b (discardTx s b 9).facets } (deleteBeam s b) :=
    (BeamsBut.setBeam (P := (· = b)) (b := b) rfl ..).trans (.foldl (fun _ _ => .setEcc ..) _ _)
  exact ⟨hclean.rfx.trans hends.rfx, fun a ha => (hclean.beam a ha).trans (hends.getBeam a)⟩

/-- So does a store to a word of the window, whatever memory holds. -/
theorem windowStore_apart (s : State) (b : Nat) {i : Nat} (hi : i < 16) (v mask : Word) :
    (windowStore s b i v mask).rfx = s.rfx ∧ ∀ a, a ≠ b → getBeam (windowStore s b i v mask) a = getBeam s a := by
  have hcheck : BeamsBut (· = b) s (engineCheck s b (i / 2)).1 := .engineCheck (P := (· = b)) (b := b) (i := i / 2) rfl (by omega) s
  unfold windowStore
  dsimp only
  split
  · obtain ⟨hrfx, hbeam⟩ := deleteBeam_apart (engineCheck s b (i / 2)).1 b
    exact ⟨hrfx.trans hcheck.rfx, fun a ha => (hbeam a ha).trans (hcheck.beam a ha)⟩
  · have hput : BeamsBut (· = b) s
        (if windowFields (getBeam (engineCheck s b (i / 2)).1 b) i v mask = getBeam (engineCheck s b (i / 2)).1 b then (engineCheck s b (i / 2)).1
          else setBeam (engineCheck s b (i / 2)).1 b { windowFields (getBeam (engineCheck s b (i / 2)).1 b) i v mask with
            version := (windowFields (getBeam (engineCheck s b (i / 2)).1 b) i v mask).version + 1 }) :=
      .ite hcheck (hcheck.trans (.setBeam (P := (· = b)) (b := b) rfl ..))
    exact ⟨hput.rfx, hput.beam⟩

end Sys2Proof.Machine

/-! SUPPORT. The window of the beam table: one word of one beam, from a warden's store and from the dictionary (R212, R213, R223, R224). -/

namespace Sys2Proof.Machine

/-! ### The fields of a word (R212, R213) -/

theorem blend_all (w v : Word) : blend w v 0xFFFFFFFF#32 = v := by
  have hall : (0xFFFFFFFF#32) = BitVec.allOnes 32 := rfl
  rw [blend, hall, BitVec.not_allOnes, BitVec.and_zero, BitVec.and_allOnes, BitVec.zero_or]

section Fields

variable (x : BeamCtx) (v : Word)

/-! Words 0, 2 and 4 to 8 of a context, valid or free. -/

theorem windowFields_key : windowFields x 0 v 0xFFFFFFFF#32 = x := by
  unfold windowFields
  rw [blend_all]
  split <;> rfl

theorem windowFields_owner : windowFields x 2 v 0xFFFFFFFF#32 = { x with owner := v.setWidth 8 } := by
  unfold windowFields
  rw [blend_all]
  split <;> rfl

theorem windowFields_rxframes : windowFields x 4 v 0xFFFFFFFF#32 = { x with rxframes := v } := by
  unfold windowFields
  rw [blend_all]
  split <;> rfl

theorem windowFields_rxbytes : windowFields x 5 v 0xFFFFFFFF#32 = { x with rxbytes := v } := by
  unfold windowFields
  rw [blend_all]
  split <;> rfl

theorem windowFields_txframes : windowFields x 6 v 0xFFFFFFFF#32 = { x with txframes := v } := by
  unfold windowFields
  rw [blend_all]
  split <;> rfl

theorem windowFields_drops : windowFields x 7 v 0xFFFFFFFF#32 = { x with drops := v } := by
  unfold windowFields
  rw [blend_all]
  split <;> rfl

theorem windowFields_held : windowFields x 8 v 0xFFFFFFFF#32 = x := by
  unfold windowFields
  rw [blend_all]
  split <;> rfl

variable {x}

/-! Words 1, 3 and 9 to 15 of a valid context. -/

theorem windowFields_relay (hx : x.valid = true) :
    windowFields x 1 v 0xFFFFFFFF#32 = { x with relay := v.getLsbD 1, egress := (v >>> 8).setWidth 8 } := by
  unfold windowFields
  rw [blend_all, hx]
  rfl

theorem windowFields_seq (hx : x.valid = true) :
    windowFields x 3 v 0xFFFFFFFF#32 = { x with rxseq := v.setWidth 16, txseq := (v >>> 16).setWidth 16 } := by
  unfold windowFields
  rw [blend_all, hx]
  rfl

theorem windowFields_user (hx : x.valid = true) {i : Nat} (hi : 9 ≤ i) :
    windowFields x i v 0xFFFFFFFF#32 = { x with user := x.user.set (i - 9) v } := by
  unfold windowFields
  simp only [blend_all, hx, Bool.not_true, Bool.false_eq_true, if_false]
  split
  iterate 9 omega
  rfl

/-- A free context takes nothing but its owner and its counters (R223). -/
theorem windowFields_free (mask : Word) (hx : x.valid = false) {i : Nat} (hi : i = 1 ∨ i = 3 ∨ 9 ≤ i) : windowFields x i v mask = x := by
  unfold windowFields
  simp only [hx, Bool.not_false, if_true]
  split
  iterate 5 omega
  rfl

end Fields

/-! ### A store to one word (R223) -/

section Store

variable {s : State} (he : s.ecc = []) (b i : Nat) (v : Word)
include he

/-- A store that deletes nothing writes the word's fields, and VERSION advances when one changes. -/
theorem windowStore_fields {mask : Word} {y : BeamCtx} (hy : windowFields (getBeam s b) i v mask = y) (hv : y.version = (getBeam s b).version)
    (hkeep : (getBeam s b).valid = true → i = 1 → (blend (beamWord (getBeam s b) 1) v mask).getLsbD 0 = true) :
    windowStore s b i v mask = if y = getBeam s b then s else setBeam s b { y with version := (getBeam s b).version + 1 } := by
  have hno : ((getBeam s b).valid && i == 1 && !(blend (beamWord (getBeam s b) 1) v mask).getLsbD 0) = false := by
    by_contra hdel
    simp only [Bool.not_eq_false, Bool.and_eq_true, beq_iff_eq, Bool.not_eq_true'] at hdel
    obtain ⟨⟨hx, hi⟩, hbit⟩ := hdel
    exact absurd (hkeep hx hi) (by rw [hbit]; decide)
  simp only [windowStore, engineCheck_noErrors he, hno, Bool.false_eq_true, if_false, hy, hv]

theorem deleteBeam_noErrors : deleteBeam s b =
    setBeam { discardTx s b 9 with facets := freeRx b (discardTx s b 9).facets } b { BeamCtx.free with version := (getBeam s b).version + 1 } := by
  have hends := Completes.discardTx s b 9
  have hecc : (discardTx s b 9).ecc = [] := by rw [hends.frame, he]
  have hold : getBeam { discardTx s b 9 with facets := freeRx b (discardTx s b 9).facets } b = getBeam s b := hends.getBeam b
  rw [deleteBeam]
  dsimp only
  rw [cleanBeam_noErrors (by exact hecc), modBeam, hold, deletedCtx]

/-- A store that clears VALID of a valid context deletes the beam. -/
theorem windowStore_deletes (mask : Word) (hx : (getBeam s b).valid = true) (hbit : (blend (beamWord (getBeam s b) 1) v mask).getLsbD 0 = false) :
    windowStore s b 1 v mask = deleteBeam s b := by
  simp only [windowStore, engineCheck_noErrors he, hx, hbit, BEq.rfl, Bool.and_self, Bool.not_false, if_true]

theorem deleteBeam_done :
    getBeam (deleteBeam s b) b = { BeamCtx.free with version := (getBeam s b).version + 1 } ∧ (∀ a, a ≠ b → getBeam (deleteBeam s b) a = getBeam s a) ∧
      (deleteBeam s b).mem = s.mem ∧ (deleteBeam s b).clusters = s.clusters := by
  have hends := (Completes.discardTx s b 9).frame
  refine ⟨?_, (deleteBeam_apart s b).2, ?_, ?_⟩
  · rw [deleteBeam_noErrors he, getBeam_setBeam]
  · rw [deleteBeam_noErrors he, setBeam_mem, hends]
  · rw [deleteBeam_noErrors he, setBeam_clusters, hends]

end Store

/-- What a command that writes word `i` of beam `b` with `v` does (R213, R223); `u` is what the command sets beside. -/
def WritesWord (s : State) (b : Nat) (c : Instr) (u : State → State) (i : Nat) (v : Word) : Prop :=
  let x := getBeam s b
  let sets := fun (y : BeamCtx) => exec c s = .next (u (if y = x then s else setBeam s b { y with version := x.version + 1 }))
  (i = 0 ∨ i = 8 → sets x) ∧
  (i = 2 → sets { x with owner := v.setWidth 8 }) ∧
  (i = 4 → sets { x with rxframes := v }) ∧ (i = 5 → sets { x with rxbytes := v }) ∧
  (i = 6 → sets { x with txframes := v }) ∧ (i = 7 → sets { x with drops := v }) ∧
  (x.valid = false → i = 1 ∨ i = 3 ∨ 9 ≤ i → sets x) ∧
  (x.valid = true → i = 3 → sets { x with rxseq := v.setWidth 16, txseq := (v >>> 16).setWidth 16 }) ∧
  (x.valid = true → 9 ≤ i → sets { x with user := x.user.set (i - 9) v }) ∧
  (x.valid = true → i = 1 → v.getLsbD 0 = true → sets { x with relay := v.getLsbD 1, egress := (v >>> 8).setWidth 8 }) ∧
  (x.valid = true → i = 1 → v.getLsbD 0 = false →
    ∃ t, exec c s = .next t ∧ getBeam t b = { BeamCtx.free with version := x.version + 1 } ∧ (∀ a, a ≠ b → getBeam t a = getBeam s a) ∧
      t.mem = s.mem ∧ t.clusters = s.clusters)

theorem writesWord_of_windowStore {s : State} (he : s.ecc = []) {b i : Nat} {v : Word} {c : Instr} {u : State → State}
    (hexec : exec c s = .next (u (windowStore s b i v 0xFFFFFFFF#32))) (hu : ∀ t, (u t).beams = t.beams ∧ (u t).mem = t.mem ∧ (u t).clusters = t.clusters) :
    WritesWord s b c u i v := by
  unfold WritesWord
  intro x sets
  have hsets : ∀ y : BeamCtx, windowFields x i v 0xFFFFFFFF#32 = y → y.version = x.version → (x.valid = true → i = 1 → v.getLsbD 0 = true) → sets y :=
    fun y hy hv hkeep => by
      show exec c s = _
      rw [hexec, windowStore_fields he b i v hy hv fun hx hi => by rw [blend_all]; exact hkeep hx hi]
  have hword : ∀ {j : Nat} {y : BeamCtx}, i = j → j ≠ 1 → windowFields x j v 0xFFFFFFFF#32 = y → y.version = x.version → sets y :=
    fun hij hj hy hv => hsets _ (hij ▸ hy) hv fun _ hi => absurd (hij.symm.trans hi) hj
  refine ⟨?_, fun hi => ?_, fun hi => ?_, fun hi => ?_, fun hi => ?_, fun hi => ?_, fun hx hi => ?_, fun hx hi => ?_, fun hx hi => ?_,
    fun hx hi hbit => ?_, fun hx hi hbit => ?_⟩
  · rintro (hi | hi)
    · exact hword hi (by decide) (windowFields_key x v) rfl
    · exact hword hi (by decide) (windowFields_held x v) rfl
  · exact hword hi (by decide) (windowFields_owner x v) rfl
  · exact hword hi (by decide) (windowFields_rxframes x v) rfl
  · exact hword hi (by decide) (windowFields_rxbytes x v) rfl
  · exact hword hi (by decide) (windowFields_txframes x v) rfl
  · exact hword hi (by decide) (windowFields_drops x v) rfl
  · exact hsets x (windowFields_free v _ hx hi) rfl fun hx' _ => absurd (hx.symm.trans hx') (by decide)
  · exact hword hi (by decide) (windowFields_seq v hx) rfl
  · exact hsets _ (windowFields_user v hx hi) rfl fun _ h1 => by omega
  · exact hsets _ (hi ▸ windowFields_relay v hx) rfl fun _ _ => hbit
  · obtain ⟨hbeam, hmem, hclusters⟩ := hu (deleteBeam s b)
    obtain ⟨hfree, hothers, hmem', hclusters'⟩ := deleteBeam_done he b
    have hget : ∀ a, getBeam (u (deleteBeam s b)) a = getBeam (deleteBeam s b) a := fun a => by rw [getBeam, hbeam, getBeam]
    rw [hi, windowStore_deletes he b v _ hx (by rw [blend_all]; exact hbit)] at hexec
    exact ⟨_, hexec, (hget b).trans hfree, fun a ha => (hget a).trans (hothers a ha), hmem.trans hmem', hclusters.trans hclusters'⟩

/-! ### The commands (R223, R224) -/

section Commands

variable {s : State} {b i : Nat} (hi : i < 16)
include hi

theorem exec_beamWindowStore (hb : b < nBeams s) {w : Nat} (hw : w = 128 ∨ w = 129) (v : Word) :
    exec (.beamWindowStore w (BitVec.ofNat 32 (0x04000000 + 64 * b + 4 * i)) v) s = .next (windowStore s b i v 0xFFFFFFFF#32) := by
  have hmax : nBeams s ≤ 65536 := by
    unfold nBeams
    split <;> decide
  have haddr : (BitVec.ofNat 32 (0x04000000 + 64 * b + 4 * i)).toNat = 0x04000000 + 64 * b + 4 * i := by
    rw [BitVec.toNat_ofNat, Nat.mod_eq_of_lt (by omega)]
  have hbeam : (0x04000000 + 64 * b + 4 * i - beamBase) / 64 = b := by
    unfold beamBase
    omega
  have hword : (0x04000000 + 64 * b + 4 * i) % 64 / 4 = i := by omega
  have hlow : beamBase ≤ 0x04000000 + 64 * b + 4 * i := by
    unfold beamBase
    omega
  have halign : (0x04000000 + 64 * b + 4 * i) % 4 = 0 := by omega
  have hwarden : isWarden w = true ∧ corePresent s w = true := by rcases hw with rfl | rfl <;> exact ⟨rfl, by simp [corePresent]⟩
  show execBeamWindowStore w _ v s = _
  simp only [execBeamWindowStore, haddr, hbeam, hword, hlow, halign, hwarden, hb, decide_true, BEq.rfl, Bool.and_self, if_true]

theorem exec_beamWindowAccess_write (hsel : ent s 0x6001 0 = b) (v : Word) :
    exec (.beamWindowAccess (i + 1) (some v)) s = .next { windowStore s b i v 0xFFFFFFFF#32 with lastAbort := none } := by
  show execBeamWindowAccess (i + 1) (some v) s = _
  rw [execBeamWindowAccess, if_neg (by omega), ← hsel]
  exact if_neg (by omega)

/-- A read of the selected beam answers the word, or ends where the engine's check fails. -/
theorem exec_beamWindowAccess_read (hsel : ent s 0x6001 0 = b) {bad : Bool} (hcheck : engineCheck s b (i / 2) = (s, bad)) :
    exec (.beamWindowAccess (i + 1) none) s =
      .next (if bad then { s with lastAbort := some 0x04000003#32 } else { s with rdata := some (beamWord (getBeam s b) i), lastAbort := none }) := by
  show execBeamWindowAccess (i + 1) none s = _
  simp only [execBeamWindowAccess, if_neg (show ¬ 0x10 < i + 1 by omega), if_neg (Nat.succ_ne_zero i), Nat.add_sub_cancel, windowRead, selectedBeam, hsel,
    hcheck]
  cases bad
  · simp [answered]
  · rfl

end Commands

/-- The check of a poisoned word of a context marked so finds it and changes nothing. -/
theorem engineCheck_poisoned {s : State} {b i : Nat} (hp : (getBeam s b).poison = true) (he : eccOf s (beamWordNo b + i) = 3) :
    engineCheck s b i = (s, true) := by
  have hcheck : checkWord s (beamWordNo b + i) = (s, true) := by
    simp [checkWord, he]
  simp only [engineCheck, hcheck, if_true, markPoison, hp]

theorem beamWordNo_eq (b : Nat) : beamWordNo b = (0x04000000 + 64 * b) / 8 := by
  unfold beamWordNo beamBase
  omega

/-- Settles O37: both commands are one store of the engine to a word of the beam, or its read. -/
theorem beamTableWindow : Obligations.BeamTableWindow := by
  unfold Obligations.BeamTableWindow
  intro s b hb x writes
  refine ⟨fun w i v hw hi => ⟨_, exec_beamWindowStore hi hb hw v, (windowStore_apart s b hi v _).2⟩, ?store, ?access, ?poisoned, fun sub wr hsub => ?absent,
    fun v => rfl, rfl, ?select, fun v hv => ?quadrant⟩
  case store =>
    exact fun he w i v hw hi => writesWord_of_windowStore he (u := id) (exec_beamWindowStore hi hb hw v) fun _ => ⟨rfl, rfl, rfl⟩
  case access =>
    intro he hsel i hi
    refine ⟨fun v => ?_, ?_⟩
    · exact writesWord_of_windowStore he (u := fun t => { t with lastAbort := none }) (exec_beamWindowAccess_write hi hsel v) fun _ => ⟨rfl, rfl, rfl⟩
    · exact exec_beamWindowAccess_read hi hsel (engineCheck_noErrors he ..)
  case poisoned =>
    intro i hi hsel hp hecc
    exact exec_beamWindowAccess_read hi hsel (engineCheck_poisoned hp (by rw [beamWordNo_eq]; exact hecc))
  case absent =>
    exact if_pos hsub
  case select =>
    refine ⟨_, rfl, ?_⟩
    rw [selectorWrite, if_neg (Nat.not_le.2 hb)]
    exact ⟨rfl, Tab.get_put_same .., fun i j hij => Tab.get_put_ne _ hij ..⟩
  case quadrant =>
    show Host.Outcome.next (answered (selectorWrite s v)) = _
    rw [selectorWrite, if_pos hv]
    rfl

end Sys2Proof.Machine

/-! SUPPORT. The answers of the beam engine to find, lock, commit and drop in a memory without errors (R214 to R219). -/

namespace Sys2Proof

/-- What a field of the values of a mapped table is, where the map makes the same of it at the default. -/
theorem Tab.get_map_values {α β : Type} {φ ψ : α → β} (d : Nat → α) (g : α → α) (hg : ∀ x, φ (g x) = ψ x) (hd : ∀ k, φ (d k) = ψ (d k)) (k : Nat) (t : Tab α) :
    φ (Tab.get d k (t.map fun e => (e.1, g e.2))) = ψ (Tab.get d k t) := by
  induction t with
  | nil => exact hd k
  | cons x t ih =>
    obtain ⟨i, w⟩ := x
    by_cases hi : i = k
    · simp [Tab.get, hi, hg]
    · by_cases hk : k < i <;> simp [Tab.get, hi, hk, ih, hd]

end Sys2Proof

namespace Sys2Proof.Machine

/-! ### A buffer written (R216) -/

theorem Mem.writeAll_append (a : Nat) (u v : Octets) (m : List Host.Cell) : Mem.writeAll a (u ++ v) m = Mem.writeAll (a + u.length) v (Mem.writeAll a u m) := by
  induction u generalizing a m with
  | nil => rfl
  | cons b u ih => rw [List.cons_append, Mem.writeAll, ih, Mem.writeAll, List.length_cons, Nat.add_assoc, Nat.add_comm 1]

theorem setRawWord_octets (s : State) (w : Nat) {v : Octets} (hv : v.length = 8) : setRawWord s w (BitVec.ofNat 64 (ofLe v)) = writeMem s (8 * w) v := by
  have hlt := ofLe_lt v
  have hoct := leOctets_ofLe v
  rw [hv] at hlt hoct
  rw [setRawWord, BitVec.toNat_ofNat, Nat.mod_eq_of_lt (by norm_num at hlt ⊢; exact hlt), hoct, writeMem]

/-- Words written one after the other from `a` up hold the octets of `v` in order. -/
theorem foldl_writeMem (s : State) (a : Nat) (v : Octets) (j : Nat) :
    (List.range j).foldl (fun t i => writeMem t (a + 8 * i) ((v.drop (8 * i)).take 8)) s = writeMem s a (v.take (8 * j)) := by
  induction j with
  | zero => rfl
  | succ j ih =>
    rw [List.range_succ, List.foldl_append, ih, List.foldl_cons, List.foldl_nil, show 8 * (j + 1) = 8 * j + 8 by omega, List.take_add]
    by_cases hlen : 8 * j ≤ v.length
    · rw [writeMem, writeMem, writeMem, Mem.writeAll_append, List.length_take_of_le hlen]
    · rw [List.drop_eq_nil_of_le (by omega), List.take_nil, List.append_nil]
      rfl

theorem writeBuf_noErrors {s : State} (he : s.ecc = []) {n off : Nat} (ho : off % 8 = 0) {v : Octets} (hv : v.length = 64) :
    writeBuf s n off v = writeMem s (scratchBase n + off) v := by
  have halign : 8 * ((scratchBase n + off) / 8) = scratchBase n + off := by
    unfold scratchBase
    omega
  have hword : ∀ (t : State) (i : Nat), t.ecc = [] → i < 8 → wholeWord t ((scratchBase n + off) / 8 + i) (BitVec.ofNat 64 (ofLe ((v.drop (8 * i)).take 8))) =
      writeMem t (scratchBase n + off + 8 * i) ((v.drop (8 * i)).take 8) := by
    intro t i ht hi
    rw [wholeWord_noErrors ht, setRawWord_octets _ _ (by rw [List.length_take, List.length_drop]; omega), Nat.mul_add, halign]
  have hfold : ∀ l : List Nat, (∀ i ∈ l, i < 8) → ∀ t : State, t.ecc = [] →
      l.foldl (fun t i => wholeWord t ((scratchBase n + off) / 8 + i) (BitVec.ofNat 64 (ofLe ((v.drop (8 * i)).take 8)))) t =
        l.foldl (fun t i => writeMem t (scratchBase n + off + 8 * i) ((v.drop (8 * i)).take 8)) t := by
    intro l
    induction l with
    | nil => exact fun _ _ _ => rfl
    | cons i l ih =>
      intro hl t ht
      rw [List.foldl_cons, List.foldl_cons, hword t i ht (hl i (List.mem_cons_self ..))]
      exact ih (fun j hj => hl j (List.mem_cons_of_mem _ hj)) _ ht
  rw [writeBuf, hfold _ (fun i hi => List.mem_range.1 hi) s he, foldl_writeMem, List.take_of_length_le (by omega)]

theorem ctxOctets_length (x : BeamCtx) : (ctxOctets x).length = 64 := rfl

/-! ### The beam cache (R220) -/

theorem getCluster_cacheBeam (s : State) (c b d : Nat) : { getCluster (cacheBeam s c b) d with cache := [] } = { getCluster s d with cache := [] } := by
  unfold cacheBeam
  by_cases hd : d = c
  · subst hd
    rw [getCluster_modCluster]
    dsimp only
    split
    · rfl
    · split <;> rfl
  · rw [getCluster_modCluster_ne s hd]

/-! ### An operation served and handed over (R214, R222) -/

/-- Core `n` has its answer, and nothing else of a core or of a cluster has changed but cached contexts; `P` is what became of the table (R214). -/
def EngineAnswers (s : State) (n : Nat) (st out : Word) (P : State → Prop) : Prop :=
  ∃ t, exec (.beamOperationDelivery n) s = .next t ∧
    t = { s with cores := t.cores, beams := t.beams, clusters := t.clusters, facets := t.facets, mem := t.mem } ∧
    (∀ m, m ≠ n → getCore t m = getCore s m) ∧
    getCore t n = { getCore s n with u := { (getCore s n).u with
      beam := none, beamPois := none, sk := Tab.put 0x282 st (Tab.put 0x281 out (getCore s n).u.sk) } } ∧
    (∀ c, { getCluster t c with cache := [], overrun := 0 } = { getCluster s c with cache := [], overrun := 0 } ∧
      ((getCluster s c).overrun ≤ 0xFFFFFFFF → (getCluster t c).overrun = (getCluster s c).overrun)) ∧ P t

/-- What an operation leaves that has neither changed a core nor more of a cluster than its cache. -/
structure Served (s t : State) : Prop where
  frame : t = { s with beams := t.beams, clusters := t.clusters, facets := t.facets, mem := t.mem }
  cluster : ∀ c, { getCluster t c with cache := [] } = { getCluster s c with cache := [] }

namespace Served

variable {s t : State}

theorem of_frame {b : Tab BeamCtx} {f : Tab Facet} {m : List Host.Cell} : Served s { s with beams := b, facets := f, mem := m } := ⟨rfl, fun _ => rfl⟩

/-- A context entered in a cluster's cache, unless a warden serves itself. -/
theorem cached (h : Served s t) (n c b : Nat) : Served s (if isWarden n then t else cacheBeam t c b) := by
  split
  · exact h
  · refine ⟨?_, fun d => (getCluster_cacheBeam t c b d).trans (h.cluster d)⟩
    exact congrArg (fun x : State => { x with clusters := (cacheBeam t c b).clusters }) h.frame

theorem writeMem (h : Served s t) (a : Nat) (v : Octets) : Served s (writeMem t a v) :=
  ⟨congrArg (fun x : State => { x with mem := (Machine.writeMem t a v).mem }) h.frame, h.cluster⟩

end Served

section Served

variable {s : State} {n : Nat} {o : BeamOp} (ho : (getCore s n).u.beam = some o) (hdet : isDet s n = false) (hres : o.res = none)
  (hdue : o.trig + (if s.part.b0 then 40 else 52) ≤ (getCore s n).i.steps) (hfirst : servedBefore s n (opQuad o) = [])
include ho hdet hres hdue hfirst

/-- The delivery of an operation the engine serves now: its answer in the sockets, and no lateness in a free-running cluster. -/
theorem exec_beamOperationDelivery {r : BeamRes} (hr : beamOp s n o = r) (hpois : r.pois = none) (hcore : getCore r.s n = getCore s n) :
    let t := setCore r.s n { getCore s n with u := { (getCore s n).u with
      beam := none, beamPois := none, sk := Tab.put 0x282 (BitVec.ofNat 32 r.st) (Tab.put 0x281 r.out (getCore s n).u.sk) } }
    exec (.beamOperationDelivery n) s =
      .next (if isWarden n then t else modCluster t (clusterOf n) fun v => { v with overrun := min 0xFFFFFFFF (v.overrun + 0) }) := by
  intro t
  have hserve : beamServe s n = setCore r.s n { getCore s n with u := { (getCore s n).u with beam := some { o with res := some (r.st, r.out, none) } } } := by
    simp only [beamServe, ho, hres, hr, hpois, modCore, hcore]
  have hfinish : beamFinish s n = t := by
    simp only [beamFinish, ho, hres, Option.isNone_none, if_true, hfirst, List.foldl_nil, hserve, getCore_setCore, Option.bind_some, modCore_setCore]
    rfl
  have hlat : ¬ (getCore s n).i.steps < o.trig + beamLatency s n := by
    rw [beamLatency, hdet]
    exact Nat.not_lt.2 hdue
  show Host.Outcome.next (beamDeliver s n) = _
  simp only [beamDeliver, ho, if_neg hlat, hdet, Bool.false_eq_true, if_false, hfinish, ne_eq, not_true_eq_false]

theorem engineAnswers_of_served {r : BeamRes} (hr : beamOp s n o = r) (hpois : r.pois = none) (h : Served s r.s) {st : Word} (hst : BitVec.ofNat 32 r.st = st)
    {P : State → Prop} (hP : ∀ t : State, t.beams = r.s.beams → t.facets = r.s.facets → t.mem = r.s.mem → P t) : EngineAnswers s n st r.out P := by
  have hcores : r.s.cores = s.cores := by rw [h.frame]
  have hcore : ∀ m, getCore r.s m = getCore s m := fun m => by rw [getCore, hcores, getCore]
  have hexec := exec_beamOperationDelivery ho hdet hres hdue hfirst hr hpois (hcore n)
  rw [hst] at hexec
  have hfields : ∀ c, { getCluster r.s c with cache := [], overrun := 0 } = { getCluster s c with cache := [], overrun := 0 } ∧
      (getCluster r.s c).overrun = (getCluster s c).overrun := fun c =>
    ⟨congrArg (fun v : Cluster => { v with overrun := 0 }) (h.cluster c), (congrArg Cluster.overrun (h.cluster c) :)⟩
  have hframe : ∀ x y, { r.s with cores := x, clusters := y } =
      { s with cores := x, beams := r.s.beams, clusters := y, facets := r.s.facets, mem := r.s.mem } := fun x y =>
    congrArg (fun t : State => { t with cores := x, clusters := y }) h.frame
  refine ⟨_, hexec, ?_, fun m hm => ?_, ?_, fun c => ?_, hP _ ?_ ?_ ?_⟩
  · split
    · exact hframe _ _
    · exact hframe _ _
  · have hother : ∀ k, getCore (setCore r.s n k) m = getCore s m := fun k => (getCore_setCore_ne r.s hm k).trans (hcore m)
    split <;> exact hother _
  · split <;> exact getCore_setCore ..
  · split
    · exact ⟨(hfields c).1, fun _ => (hfields c).2⟩
    · by_cases hc : c = clusterOf n
      · subst hc
        rw [getCluster_modCluster]
        exact ⟨(hfields _).1, fun hle => (Nat.min_eq_right (by rw [Nat.add_zero]; exact (hfields _).2 ▸ hle)).trans (hfields _).2⟩
      · rw [getCluster_modCluster_ne _ hc]
        exact ⟨(hfields c).1, fun _ => (hfields c).2⟩
  · split <;> rfl
  · split <;> rfl
  · split <;> rfl

end Served

/-! ### The operations (R215 to R219) -/

section Operations

variable {s : State} (he : s.ecc = [])
include he

theorem opFind_noErrors {k : Word} (hk : keyBad k = false) (hq : keyFacet k / 64 < nQuads s) :
    let hit := (beamWays k).find? fun c => (getBeam s c).valid && (getBeam s c).key == k
    opFind s k = { s, st := if hit.isSome then 0 else 1, out := hit.elim noBeam (BitVec.ofNat 32), pois := none } := by
  intro hit
  obtain ⟨hstate, hfound⟩ := beamSearch_noErrors he k (beamWays k) none
  change _ = hit at hfound
  simp only [opFind, hk, Bool.false_eq_true, if_false, if_neg (Nat.not_le.2 hq), hstate, hfound]
  clear_value hit
  cases hit <;> rfl

omit he in
theorem validBeam_some {a : Word} (hb : a.toNat < nBeams s) (hv : (getBeam s a.toNat).valid = true) : validBeam s a = some a.toNat := if_pos ⟨hb, hv⟩

omit he in
theorem beamId_toNat (a : Word) : beamId a.toNat = a := by rw [beamId, BitVec.ofNat_toNat, BitVec.setWidth_eq]

section Context

variable {n : Nat} {a : Word} (hv : (getBeam s a.toNat).valid = true) (hb : a.toNat < nBeams s)
include hv hb

/-- A context cached as the SRAM holds it, or read from there, is the one locked (R216). -/
theorem opLock_noErrors {buf : Nat} (hunlocked : (getBeam s a.toNat).locked = false) (hpoison : (getBeam s a.toNat).poison = false)
    (hown : 128 ≤ n ∨ (getBeam s a.toNat).owner.toNat = n) (hroom : lockCount s n < 8) (hcached : ∀ y, cachedCtx s n a.toNat = some y → y = getBeam s a.toNat)
    (halign : buf % 8 = 0) :
    let z : BeamCtx := { getBeam s a.toNat with locked := true, locker := BitVec.ofNat 8 n, lockVer := (getBeam s a.toNat).version }
    opLock s n a buf = {
      s := writeMem (if isWarden n then setBeam s a.toNat z else cacheBeam (setBeam s a.toNat z) (clusterOf n) a.toNat) (scratchBase n + buf) (ctxOctets z)
      st := 0, out := a, pois := none } := by
  intro z
  have hctx : lockCtx s n a.toNat = (s, getBeam s a.toNat, none) := by
    unfold lockCtx
    split
    next y hy =>
      rw [hcached y hy, engineCheck_noErrors he]
      rfl
    next => rw [checkCtx_noErrors he]
  have hallowed : (!isWarden n && (getBeam s a.toNat).owner.toNat != n) = false := by
    rcases hown with hw | ho
    · rw [isWarden, decide_eq_true hw]
      rfl
    · rw [ho, bne_self_eq_false, Bool.and_false]
  have hclean : ((getBeam s a.toNat).poison = true) = False := by rw [hpoison]; simp
  have hecc : (if isWarden n then setBeam s a.toNat z else cacheBeam (setBeam s a.toNat z) (clusterOf n) a.toNat).ecc = [] := by split <;> exact he
  simp only [opLock, validBeam_some hb hv, hallowed, hunlocked, Bool.false_and, Bool.false_eq_true, if_false, if_neg (Nat.not_le.2 hroom), hctx, hclean,
    beamId_toNat]
  exact congrArg (fun t => ({ s := t, st := 0, out := a, pois := none } : BeamRes)) (writeBuf_noErrors hecc halign (ctxOctets_length z))

omit he hv hb in
theorem holds_lock (hl : (getBeam s a.toNat).locked = true) (hn : (getBeam s a.toNat).locker.toNat = n) :
    ((getBeam s a.toNat).locked && (getBeam s a.toNat).locker.toNat == n) = true := by rw [hl, hn, BEq.rfl, Bool.and_self]

theorem opCommit_noErrors {data : Octets} (hl : (getBeam s a.toNat).locked = true) (hn : (getBeam s a.toNat).locker.toNat = n)
    (hver : (getBeam s a.toNat).version = (getBeam s a.toNat).lockVer) :
    let fs := releaseTx a.toNat s.facets
    let s2 := setBeam { s with facets := freeRx a.toNat fs.1 } a.toNat { unlockCtx (commitFields (getBeam s a.toNat) data) with
      version := (getBeam s a.toNat).version + 1, txframes := (getBeam s a.toNat).txframes + BitVec.ofNat 32 fs.2, heldrx := 0, heldtx := 0 }
    opCommit s n a data = { s := if isWarden n then s2 else cacheBeam s2 (clusterOf n) a.toNat, st := 0, out := a, pois := none } := by
  intro fs s2
  have hlast : ((getBeam s a.toNat).version ≠ (getBeam s a.toNat).lockVer) = False := by simp [hver]
  simp only [opCommit, validBeam_some hb hv, holds_lock hl hn, Bool.not_true, Bool.false_eq_true, if_false, hlast, beamId_toNat,
    commitWords_noErrors (s := { s with facets := freeRx a.toNat (releaseTx a.toNat s.facets).1 }) he]
  rfl

end Context

end Operations

/-- With none held for the beam, a drop discards nothing. -/
theorem discardTx_none {s : State} {b : Nat} (h : ∀ p, (getFacet s p).queue.filter (heldFor b) = []) (result : Nat) :
    ∃ f, discardTx s b result = { s with facets := f } ∧ ∀ p, getFacet { s with facets := f } p = getFacet s p := by
  refine List.foldlRecOn s.facets _ (motive := fun t => ∃ f, t = { s with facets := f } ∧ ∀ p, getFacet { s with facets := f } p = getFacet s p)
    ⟨s.facets, rfl, fun _ => rfl⟩ ?_
  rintro _ ⟨f, rfl, hf⟩ e -
  refine ⟨_, by rw [hf, h]; rfl, fun p => ?_⟩
  by_cases hp : p = e.1
  · subst hp
    refine (Tab.get_put_same ..).trans ?_
    have hq : ((getFacet s e.1).queue.filter fun d => !heldFor b d) = (getFacet s e.1).queue :=
      List.filter_eq_self.2 fun d hd => by
        have := List.filter_eq_nil_iff.1 (h e.1) d hd
        simpa using this
    simp only [hf, hq]
  · exact (Tab.get_put_ne _ hp ..).trans (hf p)

/-- So it leaves everything but the lock and the count. -/
theorem opDrop_noErrors {s : State} (he : s.ecc = []) {n : Nat} {a : Word} (hv : (getBeam s a.toNat).valid = true) (hb : a.toNat < nBeams s)
    (hl : (getBeam s a.toNat).locked = true) (hn : (getBeam s a.toNat).locker.toNat = n) (hnone : ∀ p, (getFacet s p).queue.filter (heldFor a.toNat) = []) :
    ∃ f, (∀ p, getFacet { s with facets := f } p = getFacet s p) ∧
      opDrop s n a = { s := setBeam { s with facets := f } a.toNat { unlockCtx (getBeam s a.toNat) with heldtx := 0 }, st := 0, out := a, pois := none } := by
  obtain ⟨f, hdiscard, hf⟩ := discardTx_none hnone 9
  have hdrop : dropLock s a.toNat = setBeam { s with facets := f } a.toNat { unlockCtx (getBeam s a.toNat) with heldtx := 0 } := by
    have he' : { s with facets := f }.ecc = [] := he
    rw [dropLock, hdiscard]
    dsimp only
    rw [engineCheck_noErrors he', engineCheck_noErrors he', engineMod_noErrors he']
    rfl
  refine ⟨f, hf, ?_⟩
  simp only [opDrop, validBeam_some hb hv, holds_lock hl hn, if_true, hdrop, beamId_toNat]

/-- The cache of a cluster is no part of the table, of a facet or of memory. -/
theorem cached_fields (t : State) (n c b : Nat) :
    let u := if isWarden n then t else cacheBeam t c b
    u.beams = t.beams ∧ u.facets = t.facets ∧ u.mem = t.mem := by
  dsimp only
  split <;> exact ⟨rfl, rfl, rfl⟩

theorem getBeam_of_beams {s t : State} (h : t.beams = s.beams) (b : Nat) : getBeam t b = getBeam s b := by rw [getBeam, h, getBeam]

theorem getFacet_of_facets {s t : State} (h : t.facets = s.facets) (p : Nat) : getFacet t p = getFacet s p := by rw [getFacet, h, getFacet]

/-- What was held for the beam waits no longer, and no other queued descriptor changes (R219). -/
theorem queue_of_commit (s : State) (b p : Nat) :
    (getFacet { s with facets := freeRx b (releaseTx b s.facets).1 } p).queue =
      (getFacet s p).queue.map fun d => if heldFor b d then { d with held := false } else d := by
  have hfree : (getFacet { s with facets := freeRx b (releaseTx b s.facets).1 } p).queue = (getFacet { s with facets := (releaseTx b s.facets).1 } p).queue := by
    refine Tab.get_map_field Facet.queue Facet.reset _ ?_ p (releaseTx b s.facets).1
    exact fun _ => rfl
  exact hfree.trans (Tab.get_map_values (φ := Facet.queue) (ψ := fun f => f.queue.map fun d => if heldFor b d then { d with held := false } else d) Facet.reset
      (fun f => { f with queue := f.queue.map fun d => if heldFor b d then { d with held := false } else d }) (fun _ => rfl) (fun _ => rfl) p s.facets)

/-- Settles O29: each operation's effect at the engine, then its answer handed over. -/
theorem beamEngineAnswers : Obligations.BeamEngineAnswers := by
  unfold Obligations.BeamEngineAnswers
  intro s n o ho hdet he hwf hres hdue hfirst k b x answers onlyBeam held
  have honly : ∀ {t u : State} {y : BeamCtx}, t.beams = (setBeam u b y).beams → u.beams = s.beams → onlyBeam t ∧ getBeam t b = y := fun ht hu =>
    ⟨fun c hc => (getBeam_of_beams ht c).trans ((getBeam_setBeam_ne _ hc _).trans (getBeam_of_beams hu c)),
      (getBeam_of_beams ht b).trans (getBeam_setBeam ..)⟩
  refine ⟨fun hkind hkey hquad => ?find, fun hkind hv hb hunlocked hpoison hown _ hroom hcached halign _ => ?lock, fun hkind hheld hver => ?commit,
    fun hkind hheld hnone => ?drop⟩
  case find =>
    have hop := (show beamOp s n o = opFind s o.arg by rw [beamOp, hkind]).trans (opFind_noErrors he hkey hquad)
    refine engineAnswers_of_served ho hdet hres hdue hfirst hop rfl ⟨rfl, fun _ => rfl⟩ ?_ fun t hbeams hfacets hmem => ⟨hbeams, hfacets, hmem⟩
    dsimp only
    split <;> rfl
  case lock =>
    have hop := (show beamOp s n o = opLock s n o.arg o.buf by rw [beamOp, hkind]).trans (opLock_noErrors he hv hb hunlocked hpoison hown hroom hcached halign)
    refine engineAnswers_of_served ho hdet hres hdue hfirst hop rfl ((Served.of_frame.cached ..).writeMem ..) rfl fun t hbeams hfacets hmem => ?_
    obtain ⟨hbeams', hfacets', hmem'⟩ := cached_fields (setBeam s b { x with locked := true, locker := BitVec.ofNat 8 n, lockVer := x.version }) n (clusterOf n) b
    obtain ⟨hothers, hlocked⟩ := honly (hbeams.trans hbeams') rfl
    have hread := Mem.readAll_writeAll (scratchBase n + o.buf) (ctxOctets (getBeam t b)) s.mem hwf
    rw [ctxOctets_length] at hread
    have hwritten : t.mem = Mem.writeAll (scratchBase n + o.buf) (ctxOctets (getBeam t b)) s.mem := by
      rw [hlocked]
      exact hmem.trans (congrArg (Mem.writeAll _ _) hmem')
    refine ⟨hothers, hfacets.trans hfacets', hlocked, hwritten ▸ hread, fun a ha => ?_⟩
    rw [hwritten]
    exact Mem.read_writeAll_out _ _ _ _ hwf (by rw [ctxOctets_length]; exact ha)
  case commit =>
    obtain ⟨hv, hb, hlocked, hlocker⟩ := hheld
    have hop := (show beamOp s n o = opCommit s n o.arg o.data by rw [beamOp, hkind]).trans (opCommit_noErrors he hv hb hlocked hlocker hver)
    refine engineAnswers_of_served ho hdet hres hdue hfirst hop rfl (Served.of_frame.cached ..) rfl fun t hbeams hfacets hmem => ?_
    obtain ⟨hbeams', hfacets', hmem'⟩ := cached_fields (setBeam { s with facets := freeRx b (releaseTx b s.facets).1 } b
      { unlockCtx (commitFields x o.data) with version := x.version + 1, txframes := x.txframes + BitVec.ofNat 32 (releaseTx b s.facets).2, heldrx := 0, heldtx := 0 })
      n (clusterOf n) b
    obtain ⟨hothers, hcommitted⟩ := honly (hbeams.trans hbeams') rfl
    refine ⟨hothers, hmem.trans hmem', ?_, fun p => ?_⟩
    · rw [hcommitted]
      rfl
    · rw [getFacet_of_facets (hfacets.trans hfacets') p]
      exact queue_of_commit s b p
  case drop =>
    obtain ⟨hv, hb, hlocked, hlocker⟩ := hheld
    obtain ⟨f, hf, hdrop⟩ := opDrop_noErrors he hv hb hlocked hlocker hnone
    have hop := (show beamOp s n o = opDrop s n o.arg by rw [beamOp, hkind]).trans (hdrop)
    refine engineAnswers_of_served ho hdet hres hdue hfirst hop rfl .of_frame rfl fun t hbeams hfacets hmem => ?_
    obtain ⟨hothers, hdropped⟩ := honly hbeams rfl
    exact ⟨hothers, hmem, fun p => (getFacet_of_facets hfacets p).trans (hf p), hdropped⟩

end Sys2Proof.Machine

/-! SUPPORT. The three actions of the reflex unit and the warden's own: a facet disabled, a beam killed, a cluster quiesced (R223, R299 to R301). -/

namespace Sys2Proof.Machine

/-! ### One facet and its events (R247, R255) -/

/-- Nothing but facet `p` and its events has changed. -/
structure FacetOnly (p : Nat) (s t : State) : Prop where
  frame : t = { s with facets := t.facets, router := t.router }
  others : ∀ q, q ≠ p → getFacet t q = getFacet s q

namespace FacetOnly

variable {p : Nat} {s t u : State}

theorem refl (s : State) : FacetOnly p s s := ⟨rfl, fun _ _ => rfl⟩

theorem trans (h1 : FacetOnly p s t) (h2 : FacetOnly p t u) : FacetOnly p s u :=
  ⟨h2.frame.trans (congrArg (fun x : State => { x with facets := u.facets, router := u.router }) h1.frame),
    fun q hq => (h2.others q hq).trans (h1.others q hq)⟩

theorem modFacet (s : State) (p : Nat) (g : Facet → Facet) : FacetOnly p s (modFacet s p g) := ⟨rfl, fun _ hq => getFacet_modFacet_ne s hq g⟩

theorem setFevt (s : State) (p : Nat) (mask : BitVec 16) : FacetOnly p s (setFevt s p mask) := by
  unfold Machine.setFevt
  dsimp only
  split <;> split <;> exact ⟨rfl, fun _ hq => getFacet_setFacet_ne s hq _⟩

theorem setLinkState (s : State) (p st : Nat) : FacetOnly p s (setLinkState s p st) := by
  unfold Machine.setLinkState
  split
  · exact refl s
  · exact (modFacet ..).trans (setFevt ..)

end FacetOnly

@[simp] theorem getFacet_setFevt (s : State) (p : Nat) (mask : BitVec 16) :
    getFacet (setFevt s p mask) p = { getFacet s p with fevt := (getFacet s p).fevt ||| mask } := by
  unfold setFevt
  dsimp only
  split <;> split <;> exact getFacet_setFacet ..

theorem queue_setLinkState (s : State) (p st : Nat) : (getFacet (setLinkState s p st) p).queue = (getFacet s p).queue := by
  unfold setLinkState
  split
  · rfl
  · rw [getFacet_setFevt, getFacet_modFacet]

/-! ### A link that ends (R235, R247) -/

theorem dropRx_idle {s : State} {p : Nat} (h : (getFacet s p).look = none) : dropRx s p = modFacet s p fun f => { f with look := none } := by
  rw [dropRx, h]
  rfl

theorem deferAll_idle {s : State} {p : Nat} (h : unfinished (getFacet s p) = []) :
    deferAll s p = modFacet s p fun f => { f with await := [], retry := [], lane := keepUnscheduled f.lane, back := keepUnscheduled f.back } := by
  rw [deferAll, h]
  rfl

/-- No frame of the facet is on its lanes, awaits its ACK, is to be sent again or is arriving. -/
structure Calm (f : Facet) : Prop where
  look : f.look = none
  lane : f.lane = none
  back : f.back = none
  await : f.await = []
  retry : f.retry = []

theorem linkOff_calm {s : State} {p : Nat} (h : Calm (getFacet s p)) :
    FacetOnly p s (linkOff s p) ∧ (getFacet (linkOff s p) p).queue = (getFacet s p).queue := by
  have hidle : unfinished (getFacet (dropRx s p) p) = [] := by
    rw [dropRx_idle h.look, getFacet_modFacet]
    simp [unfinished, lanesOf, h.lane, h.back, h.await, h.retry]
  unfold linkOff
  dsimp only
  rw [deferAll_idle hidle, dropRx_idle h.look]
  refine ⟨(((FacetOnly.modFacet ..).trans (.modFacet ..)).trans (.modFacet ..)).trans (.setLinkState ..), ?_⟩
  rw [queue_setLinkState, getFacet_modFacet, getFacet_modFacet, getFacet_modFacet]
  simp [lanesOf, keepUnscheduled, h.lane, h.back]

theorem rfx_linkOff (s : State) (p : Nat) : (linkOff s p).rfx = s.rfx := by
  unfold linkOff
  dsimp only
  rw [(Completes.setLinkState ..).rfx]
  exact (Completes.deferAll ..).rfx.trans (BeamsBut.dropRx ..).rfx

/-! ### A facet disabled (R299) -/

section Disable

variable (s : State) (p : Nat)

theorem rfx_disableOp : (disableOp s p).rfx = s.rfx := by
  show (if (getFacet s p).retired then s else linkOff s p).rfx = s.rfx
  split
  · rfl
  · exact rfx_linkOff s p

/-- The facet is disabled, and the link of one in service is in OFF. -/
theorem disableOp_off : (getFacet (disableOp s p) p).stopped = true ∧ ((getFacet s p).retired = false → (getFacet (disableOp s p) p).state = 0) := by
  rw [disableOp, getFacet_modFacet]
  refine ⟨rfl, fun h => ?_⟩
  rw [h, if_neg Bool.false_ne_true]
  exact linkOff_state s p

variable {s p} in
theorem disableOp_calm (hr : (getFacet s p).retired = false) (h : Calm (getFacet s p)) :
    FacetOnly p s (disableOp s p) ∧ (getFacet (disableOp s p) p).queue = (getFacet s p).queue := by
  obtain ⟨honly, hqueue⟩ := linkOff_calm h
  rw [disableOp, hr, if_neg Bool.false_ne_true]
  refine ⟨honly.trans (.modFacet ..), ?_⟩
  rw [getFacet_modFacet]
  exact hqueue

end Disable

/-! ### A beam killed (R223, R299) -/

/-- The beam is free, its version advanced, and nothing else of the table, of memory or of a cluster has changed. -/
def Killed (s t : State) (b : Nat) : Prop :=
  getBeam t b = (if (getBeam s b).valid then { BeamCtx.free with version := (getBeam s b).version + 1 } else getBeam s b) ∧
  (∀ a, a ≠ b → getBeam t a = getBeam s a) ∧ t.mem = s.mem ∧ t.clusters = s.clusters

theorem Killed.congr {s s' t t' : State} {b : Nat} (h : Killed s t b) (hs : s'.beams = s.beams ∧ s'.mem = s.mem ∧ s'.clusters = s.clusters)
    (ht : t'.beams = t.beams ∧ t'.mem = t.mem ∧ t'.clusters = t.clusters) : Killed s' t' b := by
  obtain ⟨hb, hm, hc⟩ := hs
  obtain ⟨hb', hm', hc'⟩ := ht
  unfold Killed
  rw [getBeam_of_beams hb, getBeam_of_beams hb', hm, hm', hc, hc']
  exact ⟨h.1, fun a ha => by rw [getBeam_of_beams hb, getBeam_of_beams hb', h.2.1 a ha], h.2.2⟩

theorem killOp_noErrors {s : State} (he : s.ecc = []) (b : Nat) : Killed s (killOp s b) b := by
  unfold Killed
  by_cases hx : (getBeam s b).valid = true
  · rw [killOp, windowStore_deletes he b 0 1#32 hx (by simp [blend]), if_pos hx]
    exact deleteBeam_done he b
  · have hfree : windowFields (getBeam s b) 1 0 1#32 = getBeam s b := windowFields_free 0 _ (Bool.not_eq_true _ ▸ hx) (.inl rfl)
    rw [killOp, windowStore_fields he b 1 0 hfree rfl fun h => absurd h hx, if_pos rfl, if_neg hx]
    exact ⟨rfl, fun _ _ => rfl, rfl, rfl⟩

/-! ### The action taken off, its completion sent back (R299) -/

theorem rfxWaiting_some {s : State} {op target : Nat} {a : RfxAct} (h : rfxWaiting s op target = some a) : a.op = op ∧ a.target = target := by
  simpa using List.find?_some h

/-- A completion has gone to the fabric or to the answers of facet `p`. -/
structure CompletionSent (p : Nat) (s t : State) : Prop where
  frame : t = { s with facets := t.facets, fabric := t.fabric, free := t.free }
  others : ∀ q, q ≠ p → getFacet t q = getFacet s q

namespace CompletionSent

variable {p : Nat} {s t u : State}

theorem refl (s : State) : CompletionSent p s s := ⟨rfl, fun _ _ => rfl⟩

theorem ite {c : Prop} [Decidable c] (h1 : CompletionSent p s t) (h2 : CompletionSent p s u) : CompletionSent p s (if c then t else u) := by
  split <;> assumption

theorem sendPacket (s : State) (vc : Nat) (kind : PacketKind) (route : List Nat) (octets : Nat) (body : PktBody) :
    CompletionSent p s (sendPacket { s with free := s.free + 1 } vc kind route octets body) := by
  obtain ⟨x, hx⟩ := sendPacket_only { s with free := s.free + 1 } vc kind route octets body
  rw [hx]
  exact ⟨rfl, fun _ _ => rfl⟩

theorem rfxComplete (s : State) (a : RfxAct) : CompletionSent a.facet s (rfxComplete s a) :=
  .ite (refl s) (.ite ⟨rfl, fun _ hq => getFacet_modFacet_ne _ hq _⟩ (sendPacket ..))

theorem rfx (h : CompletionSent p s t) : t.rfx = s.rfx := by rw [h.frame]

theorem router (h : CompletionSent p s t) : t.router = s.router := by rw [h.frame]

end CompletionSent

/-- A facet's own disabling has been answered before. -/
theorem rfxComplete_own {a : RfxAct} (hop : a.op = 1) (ht : a.target = a.facet) (s : State) : rfxComplete s a = s := if_pos ⟨hop, ht⟩

section Actions

variable {s : State} {p : Nat} {a : RfxAct}

theorem exec_disableFacet (h : rfxWaiting s 1 p = some a) :
    exec (.disableFacet p) s = .next (if ownAnswerGone s a then rfxComplete (disableOp (rfxTake s a) p) a else s) := by
  show execDisableFacet p s = _
  rw [execDisableFacet, h]

theorem exec_killBeam (h : rfxWaiting s 2 p = some a) : exec (.killBeam p) s = .next (rfxComplete (killOp (rfxTake s a) p) a) := by
  show execKillBeam p s = _
  rw [execKillBeam, h]

theorem exec_quiesceCluster (h : rfxWaiting s 3 p = some a) :
    exec (.quiesceCluster p) s = .next (if allStopped (quiesceOp s p) p then rfxComplete (rfxTake (quiesceOp s p) a) a else quiesceOp s p) := by
  show execQuiesceCluster p s = _
  rw [execQuiesceCluster, h]

/-- The completion of a disabling leaves the disabled facet as it is. -/
theorem getFacet_rfxComplete_disabled (h : rfxWaiting s 1 p = some a) (t : State) : getFacet (rfxComplete t a) p = getFacet t p := by
  obtain ⟨hop, htarget⟩ := rfxWaiting_some h
  by_cases hp : p = a.facet
  · rw [rfxComplete_own hop (htarget.trans hp)]
  · exact (CompletionSent.rfxComplete t a).others p hp

theorem disableFacet_off (h : rfxWaiting s 1 p = some a) (hgone : ownAnswerGone s a = true) :
    ∃ t, exec (.disableFacet p) s = .next t ∧
      ((getFacet t p).stopped = true ∧ ((getFacet s p).retired = false → (getFacet t p).state = 0)) ∧
      t.rfx = { s.rfx with acts := s.rfx.acts.erase a } := by
  refine ⟨_, (exec_disableFacet h).trans (by rw [if_pos hgone]), ?_, ?_⟩
  · rw [getFacet_rfxComplete_disabled h]
    exact disableOp_off (rfxTake s a) p
  · exact (CompletionSent.rfxComplete ..).rfx.trans (rfx_disableOp ..)

/-- A facet disabled from another one, which answers. -/
theorem disableFacet_calm (h : rfxWaiting s 1 p = some a) (hf : a.facet ≠ p) (hr : (getFacet s p).retired = false) (hcalm : Calm (getFacet s p)) :
    ∃ t, exec (.disableFacet p) s = .next t ∧
      t = { s with facets := t.facets, router := t.router, fabric := t.fabric, free := t.free, rfx := { s.rfx with acts := s.rfx.acts.erase a } } ∧
      ((getFacet t p).stopped = true ∧ (getFacet t p).state = 0 ∧ (getFacet t p).queue = (getFacet s p).queue) ∧
      ∀ q, q ≠ p → q ≠ a.facet → getFacet t q = getFacet s q := by
  have hgone : ownAnswerGone s a = true := by
    simp [ownAnswerGone, (rfxWaiting_some h).2, hf.symm]
  obtain ⟨honly, hqueue⟩ := disableOp_calm (s := rfxTake s a) hr hcalm
  obtain ⟨hstopped, hstate⟩ := disableOp_off (rfxTake s a) p
  have hsent := CompletionSent.rfxComplete (disableOp (rfxTake s a) p) a
  refine ⟨_, (exec_disableFacet h).trans (by rw [if_pos hgone]), ?_, ?_, fun q hq hqa => (hsent.others q hqa).trans (honly.others q hq)⟩
  · rw [hsent.router]
    exact hsent.frame.trans (congrArg (fun x : State => { x with
      facets := (rfxComplete (disableOp (rfxTake s a) p) a).facets
      fabric := (rfxComplete (disableOp (rfxTake s a) p) a).fabric
      free := (rfxComplete (disableOp (rfxTake s a) p) a).free }) honly.frame)
  · rw [getFacet_rfxComplete_disabled h]
    exact ⟨hstopped, hstate hr, hqueue⟩

/-- Whatever memory holds, the action is taken off; in a memory without errors the beam is killed. -/
theorem killBeam_done (h : rfxWaiting s 2 p = some a) :
    ∃ t, exec (.killBeam p) s = .next t ∧ t.rfx = { s.rfx with acts := s.rfx.acts.erase a } ∧ (s.ecc = [] → Killed s t p) := by
  have hsent := CompletionSent.rfxComplete (killOp (rfxTake s a) p) a
  refine ⟨_, exec_killBeam h, hsent.rfx.trans (windowStore_apart _ p (by decide) ..).1, fun he => ?_⟩
  refine (killOp_noErrors (s := rfxTake s a) he p).congr ⟨rfl, rfl, rfl⟩ ?_
  rw [hsent.frame]
  exact ⟨rfl, rfl, rfl⟩

theorem quiesceCluster_stopped (h : rfxWaiting s 3 p = some a) (hstopped : allStopped (quiesceOp s p) p = true) :
    ∃ t, exec (.quiesceCluster p) s = .next t ∧
      t = { quiesceOp s p with facets := t.facets, fabric := t.fabric, free := t.free, rfx := { s.rfx with acts := s.rfx.acts.erase a } } :=
  ⟨_, (exec_quiesceCluster h).trans (by rw [if_pos hstopped]), (CompletionSent.rfxComplete (rfxTake (quiesceOp s p) a) a).frame⟩

end Actions

/-! ### The warden's own (R301) -/

theorem sizes_le (s : State) : nFacets s ≤ 256 ∧ nBeams s ≤ 65536 ∧ nClusters s ≤ 32 := by
  unfold nFacets nBeams nClusters
  split <;> decide

/-- A write that names an object: refused beyond the field's range, then for an absent object. -/
theorem answered_object (s : State) (r : State × Option Nat) (top m v : Nat) :
    let w := answered (if top < v then (s, some 0x03000001) else if m ≤ v then (s, some 0x02000006) else r)
    (top < v → w = { s with lastAbort := some 0x03000001#32 }) ∧ (v ≤ top → m ≤ v → w = { s with lastAbort := some 0x02000006#32 }) ∧
      (v ≤ top → v < m → w = answered r) := by
  refine ⟨fun h => ?_, fun h hm => ?_, fun h hm => ?_⟩
  · rw [if_pos h]
    rfl
  · rw [if_neg (Nat.not_lt.2 h), if_pos hm]
    rfl
  · rw [if_neg (Nat.not_lt.2 h), if_neg (Nat.not_le.2 hm)]

section Warden

variable {s : State} {v : Nat}

theorem exec_wardenDisableFacet (hv : v < nFacets s) : exec (.wardenDisableFacet v) s = .next { disableOp s v with lastAbort := none } :=
  congrArg Host.Outcome.next ((answered_object s (disableOp s v, none) 255 (nFacets s) v).2.2 (by have := (sizes_le s).1; omega) hv)

theorem exec_wardenKillBeam (hv : v < nBeams s) : exec (.wardenKillBeam v) s = .next { killOp s v with lastAbort := none } :=
  congrArg Host.Outcome.next ((answered_object s (killOp s v, none) 65535 (nBeams s) v).2.2 (by have := (sizes_le s).2.1; omega) hv)

theorem exec_wardenQuiesceCluster (hv : v < nClusters s) : exec (.wardenQuiesceCluster v) s = .next { quiesceOp s v with lastAbort := none } :=
  congrArg Host.Outcome.next ((answered_object s (quiesceOp s v, none) 31 (nClusters s) v).2.2 (by have := (sizes_le s).2.2; omega) hv)

theorem exec_releaseQuiesce (hv : v < nClusters s) : exec (.releaseQuiesce v) s =
    .next (if (getCluster s v).quiesced then { setCluster s v { getCluster s v with quiesced := false } with lastAbort := none }
      else { s with lastAbort := some 0x04000001#32 }) := by
  refine (congrArg Host.Outcome.next ((answered_object s _ 31 (nClusters s) v).2.2 (by have := (sizes_le s).2.2; omega) hv)).trans ?_
  cases (getCluster s v).quiesced <;> rfl

/-- The facet disabled by a warden, whatever its link does. -/
theorem wardenDisableFacet_off (hv : v < nFacets s) :
    ∃ t, exec (.wardenDisableFacet v) s = .next t ∧
      ((getFacet t v).stopped = true ∧ ((getFacet s v).retired = false → (getFacet t v).state = 0)) ∧ t.lastAbort = none :=
  ⟨_, exec_wardenDisableFacet hv, disableOp_off s v, rfl⟩

theorem wardenDisableFacet_calm (hv : v < nFacets s) (hr : (getFacet s v).retired = false) (hcalm : Calm (getFacet s v)) :
    ∃ t, exec (.wardenDisableFacet v) s = .next t ∧ t = { s with facets := t.facets, router := t.router, lastAbort := none } ∧
      ((getFacet t v).stopped = true ∧ (getFacet t v).state = 0 ∧ (getFacet t v).queue = (getFacet s v).queue) ∧
      ∀ q, q ≠ v → getFacet t q = getFacet s q := by
  obtain ⟨honly, hqueue⟩ := disableOp_calm hr hcalm
  obtain ⟨hstopped, hstate⟩ := disableOp_off s v
  exact ⟨_, exec_wardenDisableFacet hv, congrArg (fun x : State => { x with lastAbort := none }) honly.frame, ⟨hstopped, hstate hr, hqueue⟩, honly.others⟩

end Warden

/-- Settles O42: each action is one operation on the object it names, then the completion on its way or the answer to the warden. -/
theorem reflexActionsTakeEffect : Obligations.ReflexActionsTakeEffect := by
  unfold Obligations.ReflexActionsTakeEffect
  intro s calm disabled killed held ends off
  have hcalm : ∀ p, calm p → Calm (getFacet s p) ∧ (getFacet s p).retired = false := fun p ⟨hlook, hlane, hback, hawait, hretry, hretired⟩ =>
    ⟨⟨hlook, hlane, hback, hawait, hretry⟩, hretired⟩
  obtain ⟨hfacets, hbeams, hclusters⟩ := sizes_le s
  refine ⟨fun p a h => ⟨disableFacet_off h, fun hstays => ?stays⟩, fun b a h => ?kill, fun p => ⟨?_, ?_, ?_⟩, fun v => ⟨wardenDisableFacet_off, fun hv => ?_⟩,
    fun p a h hfacet hp => disableFacet_calm h hfacet (hcalm p hp).2 (hcalm p hp).1, fun b a h he => ?killed, fun c a h => ⟨fun hruns => ?runs, quiesceCluster_stopped h⟩,
    fun v hv hp => wardenDisableFacet_calm hv (hcalm v hp).2 (hcalm v hp).1, fun v hv he => ?wardenKilled, fun v hv => exec_wardenQuiesceCluster hv,
    fun v hv hq => ?freed, fun v hv hq => ?notQuiesced, fun v => ?refused⟩
  case stays => rw [exec_disableFacet h, hstays, if_neg Bool.false_ne_true]
  case kill =>
    obtain ⟨t, hexec, hrfx, -⟩ := killBeam_done h
    exact ⟨t, hexec, hrfx⟩
  case killed =>
    obtain ⟨t, hexec, hrfx, hkilled⟩ := killBeam_done h
    exact ⟨t, hexec, hkilled he, hrfx⟩
  case runs => exact (exec_quiesceCluster h).trans (by rw [if_neg (by rw [show allStopped (quiesceOp s c) c = false from hruns]; decide)]; rfl)
  case wardenKilled => exact ⟨_, exec_wardenKillBeam hv, (killOp_noErrors he v).congr ⟨rfl, rfl, rfl⟩ ⟨rfl, rfl, rfl⟩, rfl⟩
  case freed => rw [exec_releaseQuiesce hv, if_pos hq]
  case notQuiesced => exact (exec_releaseQuiesce hv).trans (by rw [hq, if_neg Bool.false_ne_true])
  case refused =>
    obtain ⟨hfar, habsent, -⟩ := answered_object s (disableOp s v, none) 255 (nFacets s) v
    obtain ⟨hfarKill, habsentKill, -⟩ := answered_object s (killOp s v, none) 65535 (nBeams s) v
    obtain ⟨hfarHold, habsentHold, -⟩ := answered_object s (quiesceOp s v, none) 31 (nClusters s) v
    obtain ⟨hfarFree, habsentFree, -⟩ := answered_object s
      (if !(getCluster s v).quiesced then (s, some 0x04000001) else (modCluster s v fun x => { x with quiesced := false }, none)) 31 (nClusters s) v
    exact ⟨fun h => congrArg _ (hfar h), fun h => congrArg _ (hfarKill h), fun h => ⟨congrArg _ (hfarHold h), congrArg _ (hfarFree h)⟩,
      fun h hm => congrArg _ (habsent h hm), fun h hm => congrArg _ (habsentKill h hm),
      fun h hm => ⟨congrArg _ (habsentHold h hm), congrArg _ (habsentFree h hm)⟩⟩
  · intro h
    show execDisableFacet p s = _
    rw [execDisableFacet, h]
  · intro h
    show execKillBeam p s = _
    rw [execKillBeam, h]
  · intro h
    show execQuiesceCluster p s = _
    rw [execQuiesceCluster, h]
  · exact ⟨_, exec_wardenKillBeam hv, rfl⟩

end Sys2Proof.Machine

/-! SUPPORT. Octets a port writes: what they leave alone in any memory, and what a quiet memory then holds (R157, R173, R175, R179). -/

namespace Sys2Proof.Machine

/-! ### The units stand (R175, R186) -/

namespace UnitsStand

theorem setCluster (s : State) (c : Nat) (v : Cluster) : UnitsStand s (setCluster s c v) := ⟨rfl, rfl, rfl⟩

theorem endLoanAt (s : State) (w : Nat) : UnitsStand s (endLoanAt s w) := by
  unfold Machine.endLoanAt
  split
  · exact refl s
  split
  · exact refl s
  · exact .ite (restoreLoan ..) (refl s)

theorem clash (s : State) (w i fi j fj : Nat) : UnitsStand s (clash s w i fi j fj) := by
  unfold Machine.clash
  dsimp only
  split
  · exact .ite (modCluster ..) (((modCluster ..).trans (modBank ..)).trans (setClevt ..))
  · exact .ite (setCluster ..) ((setCluster ..).trans (setClevt ..))
  · exact .ite (setCluster ..) ((setCluster ..).trans (setClevt ..))
  · exact refl s

theorem meetCopies (s : State) (c m f w : Nat) : UnitsStand s (meetCopies s c m f w) := by
  unfold Machine.meetCopies
  split
  · exact refl s
  · exact .trans (t := { s with free := s.free + 1 }) ⟨rfl, rfl, rfl⟩ (foldl (fun t n => clash ..) _ _)

theorem portWrite (s : State) (m f w : Nat) (data : BitVec 64) (mask : Byte) : UnitsStand s (portWrite s m f w data mask) := by
  have hmerged : UnitsStand s (match mergeOf (Machine.endLoanAt s w) w with
      | some e => if coreMaster e.core = m then Machine.endLoanAt s w else Machine.clash (Machine.endLoanAt s w) w (coreMaster e.core) 0 m f
      | none => Machine.endLoanAt s w) := by
    split
    · exact .ite (endLoanAt ..) ((endLoanAt ..).trans (clash ..))
    · exact endLoanAt ..
  unfold Machine.portWrite
  refine .trans ?_ ((forceMerge ..).trans (memWrite ..))
  split
  · exact hmerged.trans (meetCopies ..)
  · exact hmerged.trans (meetCopies ..)
  · exact hmerged.trans (meetCopies ..)
  · exact hmerged

theorem portWriteBytes (m f j : Nat) (s : State) (a : Nat) (v : Octets) : UnitsStand s (portWriteBytes m f j s a v) := by
  induction j generalizing s a v with
  | zero => exact refl s
  | succ j ih =>
    cases v with
    | nil => exact refl s
    | cons b v => exact (portWrite ..).trans (ih ..)

end UnitsStand

/-! ### A quiet memory (R157, R175, R180, R185) -/

/-- No word has an error, no merge entry waits, no window is on loan and no copy is under way. -/
structure QuietMem (s : State) : Prop where
  ecc : s.ecc = []
  wf : Mem.wf s.mem = true
  bank : ∀ c k, (getBank s c k).merge = [] ∧ (getBank s c k).loan = none
  copy : ∀ e ∈ s.cores, e.2.u.copy = none

namespace QuietMem

variable {s : State} (h : QuietMem s)
include h

theorem withMem {m : List Host.Cell} (hm : Mem.wf m = true) : QuietMem { s with mem := m } := ⟨h.ecc, hm, h.bank, h.copy⟩

theorem mergeOf_eq (w : Nat) : mergeOf s w = none := by
  unfold mergeOf
  split
  · rfl
  next c k _ => rw [(h.bank c k).1, List.find?_nil]

theorem forceMerge_eq (w : Nat) : forceMerge s w = s := by
  unfold forceMerge
  split
  · rfl
  next c k _ => rw [(h.bank c k).1, List.find?_nil]

theorem meetCopies_eq (c m f w : Nat) : meetCopies s c m f w = s := by
  have hnone : copyRivals s c m w = [] := by
    rw [copyRivals, List.map_eq_nil_iff, List.filter_eq_nil_iff]
    intro e he
    rw [h.copy e he]
    simp
  rw [meetCopies, hnone]

/-- A port's write is a write of the word's bytes. -/
theorem portWrite_eq (m f w : Nat) (data : BitVec 64) (mask : Byte) :
    portWrite s m f w data mask = setRawWord s w (mergeBytes (rawWord s w) data mask) := by
  cases hp : placeOf w <;>
    simp only [portWrite, endLoanAt_noLoan fun c k => (h.bank c k).2, h.mergeOf_eq, hp, h.meetCopies_eq, h.forceMerge_eq, memWrite_noErrors h.ecc]

end QuietMem

/-- The bytes of the number a list of octets stands for. -/
theorem octet_ofLe (v : Octets) {i : Nat} (hi : i < v.length) : BitVec.ofNat 8 (ofLe v / 256 ^ i) = v.getD i 0 := by
  have hoct := congrArg (fun l => l[i]?) (leOctets_ofLe v)
  rw [leOctets_eq_map] at hoct
  simp only [List.getElem?_map, List.getElem?_range hi, Option.map_some] at hoct
  rw [List.getD_eq_getElem?_getD, ← hoct, Option.getD_some]

/-- A port writes the octets of the first word, then the rest. -/
theorem portWriteBytes_succ (m f j : Nat) (s : State) (a : Nat) {v : Octets} (hv : v ≠ []) :
    let k := min (8 - a % 8) v.length
    portWriteBytes m f (j + 1) s a v =
      portWriteBytes m f j (portWrite s m f (a / 8) (BitVec.ofNat 64 (ofLe (v.take k) * 256 ^ (a % 8))) (maskOf (a % 8) k)) (a + k) (v.drop k) := by
  cases v with
  | nil => exact absurd rfl hv
  | cons b v => rfl

/-- Octets written through a port stand in a quiet memory from their address on, and nothing else changes. -/
theorem portWriteBytes_quiet (m f : Nat) (j : Nat) {s : State} (h : QuietMem s) {a : Nat} {v : Octets} (hfuel : v ≠ [] → v.length + a % 8 ≤ 8 * j) :
    ∃ mem, portWriteBytes m f j s a v = { s with mem } ∧ Mem.wf mem = true ∧
      ∀ x, Mem.read x mem = if a ≤ x ∧ x < a + v.length then v.getD (x - a) 0 else Mem.read x s.mem := by
  induction j generalizing s a v with
  | zero =>
    have hv : v = [] := by
      by_contra hne
      have := hfuel hne
      have := List.length_pos_iff.2 hne
      omega
    subst hv
    exact ⟨s.mem, rfl, h.wf, fun x => (if_neg (by rw [List.length_nil]; omega)).symm⟩
  | succ j ih =>
    by_cases hv : v = []
    · subst hv
      exact ⟨s.mem, rfl, h.wf, fun x => (if_neg (by rw [List.length_nil]; omega)).symm⟩
    have hlen := hfuel hv
    have hsucc := portWriteBytes_succ m f j s a hv
    dsimp only at hsucc
    rw [h.portWrite_eq] at hsucc
    generalize hk : min (8 - a % 8) v.length = k at hsucc
    have hpart : (v.take k).length = k := List.length_take_of_le (by omega)
    have hone := read_merged h.wf a k (ofLe (v.take k)) (by omega)
    obtain ⟨mem, hstep, hwf, hread⟩ := ih (h.withMem (wf_setRawWord h.wf (a / 8) (mergeBytes (rawWord s (a / 8))
      (BitVec.ofNat 64 (ofLe (v.take k) * 256 ^ (a % 8))) (maskOf (a % 8) k)))) (a := a + k) (v := v.drop k) (fun hne => by
        have := List.length_pos_iff.2 hne
        rw [List.length_drop] at *
        omega)
    refine ⟨mem, hsucc.trans hstep, hwf, fun x => ?_⟩
    rw [hread, List.length_drop]
    by_cases hrest : a + k ≤ x ∧ x < a + k + (v.length - k)
    · rw [if_pos hrest, if_pos (by omega), List.getD_eq_getElem?_getD, List.getD_eq_getElem?_getD, List.getElem?_drop,
        show k + (x - (a + k)) = x - a by omega]
    · rw [if_neg hrest]
      refine (hone x).trans ?_
      by_cases hfirst : a ≤ x ∧ x < a + k
      · rw [if_pos hfirst, if_pos (by omega), octet_ofLe _ (by omega), List.getD_eq_getElem?_getD, List.getD_eq_getElem?_getD,
          List.getElem?_take_of_lt (by omega)]
      · rw [if_neg hfirst, if_neg (by omega)]

/-- Octets read back where they stand. -/
theorem readAll_of_read {a : Nat} {v : Octets} {m : List Host.Cell} (h : ∀ x, a ≤ x → x < a + v.length → Mem.read x m = v.getD (x - a) 0) :
    Mem.readAll a v.length m = v := by
  refine List.ext_getElem (Mem.readAll_length ..) fun i hi hi' => ?_
  simp only [Mem.readAll_eq_map, List.getElem_map, List.getElem_range', Nat.one_mul]
  rw [h _ (by omega) (by omega), Nat.add_sub_cancel_left, List.getD_eq_getElem _ _ hi']

end Sys2Proof.Machine

/-! SUPPORT. A frame received: its lookup as it arrives, its reception, the ring (R220, R221, R232, R238, R244, R250). -/

namespace Sys2Proof.Machine

/-! ### The lookup (R220, R221, R295) -/

theorem setBeevt_only (s : State) (q bit i : Nat) :
    setBeevt s q bit i = { s with quads := (setBeevt s q bit i).quads, router := (setBeevt s q bit i).router } ∧
      (∀ r, r ≠ q → getQuad (setBeevt s q bit i) r = getQuad s r) ∧
      getQuad (setBeevt s q bit i) q = { getQuad s q with beevt := (getQuad s q).beevt ||| (1#8 <<< bit) } := by
  unfold setBeevt
  dsimp only
  split <;> exact ⟨rfl, fun r hr => getQuad_setQuad_ne s hr _, getQuad_setQuad ..⟩

section Arrive

variable {s : State} {p : Nat}

theorem arrive_mgmt {fr : Frame} (h : classify s fr ≠ .ordinary) (plain : Octets) : arrive s p fr plain = (s, .mgmt) := if_pos h

variable (he : s.ecc = []) (hface : faceOf s p = p) {fr : Frame} (hc : classify s fr = .ordinary)
include he hface hc

/-- A key that no valid way has is a miss, counted at its quadrant. -/
theorem arrive_miss (hmiss : (beamSearch (frameKey p fr) (beamWays (frameKey p fr)) s none).2.1 = none) (plain : Octets) :
    let q := keyFacet (frameKey p fr) / 64
    arrive s p fr plain =
      (setBeevt (modQuad s q fun v => { v with bemiss := if v.bemiss = 0xFFFFFFFF#32 then v.bemiss else v.bemiss + 1 }) q 3 2, .miss) := by
  obtain ⟨hstate, -⟩ := beamSearch_noErrors he (frameKey p fr) (beamWays (frameKey p fr)) none
  have hord : ¬ classify s fr ≠ .ordinary := not_not.2 hc
  simp only [arrive, if_neg hord, hface, hmiss, hstate]

/-- A beam found that neither is poisoned nor relays is cached in the cluster that serves the facet. -/
theorem arrive_found {b : Nat} (hfound : (beamSearch (frameKey p fr) (beamWays (frameKey p fr)) s none).2.1 = some b)
    (hp : (getBeam s b).poison = false) (hr : (getBeam s b).relay = false) (plain : Octets) :
    arrive s p fr plain = (cacheBeam s (servingCluster s (p / 8)) b, .found b) := by
  obtain ⟨hstate, -⟩ := beamSearch_noErrors he (frameKey p fr) (beamWays (frameKey p fr)) none
  have hord : ¬ classify s fr ≠ .ordinary := not_not.2 hc
  simp only [arrive, if_neg hord, hface, hfound, hstate, hp, hr, Bool.false_eq_true, if_false]

end Arrive

theorem exec_arrivalLookup {s : State} {p : Nat} (hrun : (getFacet s p).state = 3) (fr : Frame) :
    ∃ plain, exec (.arrivalLookup p fr) s =
      .next (modFacet (arrive (dropRx s p) p fr plain).1 p fun f => { f with look := some (arrive (dropRx s p) p fr plain).2 }) :=
  ⟨plainOf s p s.tb fr, (if_neg (not_not.2 hrun) : execArrivalLookup p fr s = _)⟩

section Lookup

variable {s : State} {p : Nat} (hrun : (getFacet s p).state = 3) (hidle : (getFacet s p).look = none)
include hrun hidle

/-- With no frame arriving, the lookup is entered in what it leaves of the state. -/
theorem arrivalLookup_idle (fr : Frame) {t : State} {l : Lookup} (h : ∀ plain, arrive (modFacet s p fun f => { f with look := none }) p fr plain = (t, l))
    (hfacets : t.facets = (modFacet s p fun f => { f with look := none }).facets) :
    exec (.arrivalLookup p fr) s = .next (modFacet t p fun f => { f with look := some l }) ∧
      (∀ q, q ≠ p → getFacet (modFacet t p fun f => { f with look := some l }) q = getFacet s q) ∧
      getFacet (modFacet t p fun f => { f with look := some l }) p = { getFacet s p with look := some l } := by
  obtain ⟨plain, hexec⟩ := exec_arrivalLookup hrun fr
  rw [dropRx_idle hidle, h plain] at hexec
  refine ⟨hexec, fun q hq => ?_, ?_⟩
  · rw [getFacet_modFacet_ne _ hq, getFacet_of_facets hfacets, getFacet_modFacet_ne _ hq]
  · rw [getFacet_modFacet, getFacet_of_facets hfacets, getFacet_modFacet]

theorem arrivalLookup_mgmt {fr : Frame} (hc : classify s fr ≠ .ordinary) :
    ∃ t, exec (.arrivalLookup p fr) s = .next t ∧ t = { s with facets := t.facets } ∧ (∀ q, q ≠ p → getFacet t q = getFacet s q) ∧
      getFacet t p = { getFacet s p with look := some .mgmt } := by
  obtain ⟨hexec, hothers, hlook⟩ := arrivalLookup_idle hrun hidle fr (fun plain => arrive_mgmt (s := modFacet s p fun f => { f with look := none }) hc plain) rfl
  exact ⟨_, hexec, rfl, hothers, hlook⟩

variable (he : s.ecc = []) (hface : (getFacet s p).standsFor = none) {fr : Frame} (hc : classify s fr = .ordinary)
include he hface hc

omit hrun hidle hc in
/-- The frame dropped before changes neither the facet the search is for nor what it finds. -/
theorem search_idle (fr : Frame) :
    let s1 := modFacet s p fun f => { f with look := none }
    faceOf s1 p = p ∧ (beamSearch (frameKey p fr) (beamWays (frameKey p fr)) s1 none).2.1 =
      (beamSearch (frameKey p fr) (beamWays (frameKey p fr)) s none).2.1 := by
  intro s1
  have he1 : s1.ecc = [] := he
  refine ⟨?_, (beamSearch_noErrors he1 ..).2.trans (beamSearch_noErrors he ..).2.symm⟩
  rw [faceOf, getFacet_modFacet, hface, Option.getD_none]

theorem arrivalLookup_miss (hmiss : (beamSearch (frameKey p fr) (beamWays (frameKey p fr)) s none).2.1 = none) :
    let q := keyFacet (frameKey p fr) / 64
    ∃ t, exec (.arrivalLookup p fr) s = .next t ∧ t = { s with facets := t.facets, quads := t.quads, router := t.router } ∧
      (∀ r, r ≠ p → getFacet t r = getFacet s r) ∧ getFacet t p = { getFacet s p with look := some .miss } ∧ (∀ r, r ≠ q → getQuad t r = getQuad s r) ∧
      getQuad t q = { getQuad s q with
        bemiss := if (getQuad s q).bemiss = 0xFFFFFFFF#32 then 0xFFFFFFFF#32 else (getQuad s q).bemiss + 1, beevt := (getQuad s q).beevt ||| 8#8 } := by
  intro q
  obtain ⟨hface', hsearch⟩ := search_idle he hface fr
  have hframe := setBeevt_only (modQuad (modFacet s p fun f => { f with look := none }) q
    fun v => { v with bemiss := if v.bemiss = 0xFFFFFFFF#32 then v.bemiss else v.bemiss + 1 }) q 3 2
  obtain ⟨hframe, hquads, hquad⟩ := hframe
  obtain ⟨hexec, hothers, hlook⟩ := arrivalLookup_idle hrun hidle fr
    (fun plain => arrive_miss (s := modFacet s p fun f => { f with look := none }) he hface' hc (hsearch.trans hmiss) plain) (by rw [hframe]; rfl)
  refine ⟨_, hexec, ?_, hothers, hlook, fun r hr => ?_, ?_⟩
  · generalize setBeevt _ q 3 2 = t at hframe
    exact congrArg (fun x : State => { x with facets := (modFacet t p fun f => { f with look := some .miss }).facets }) hframe
  · exact (hquads r hr).trans (getQuad_modQuad_ne _ hr _)
  · refine hquad.trans ?_
    rw [getQuad_modQuad, show getQuad (modFacet s p fun f => { f with look := none }) q = getQuad s q from rfl]
    by_cases hmax : (getQuad s q).bemiss = 0xFFFFFFFF#32
    · simp only [hmax]
      rfl
    · simp only [if_neg hmax]
      rfl

theorem arrivalLookup_found {b : Nat} (hfound : (beamSearch (frameKey p fr) (beamWays (frameKey p fr)) s none).2.1 = some b)
    (hp : (getBeam s b).poison = false) (hr : (getBeam s b).relay = false) :
    ∃ t, exec (.arrivalLookup p fr) s = .next t ∧ t = { s with facets := t.facets, clusters := t.clusters } ∧
      (∀ r, r ≠ p → getFacet t r = getFacet s r) ∧ getFacet t p = { getFacet s p with look := some (.found b) } := by
  obtain ⟨hface', hsearch⟩ := search_idle he hface fr
  obtain ⟨hexec, hothers, hlook⟩ := arrivalLookup_idle hrun hidle fr
    (fun plain => arrive_found (s := modFacet s p fun f => { f with look := none }) he hface' hc (hsearch.trans hfound) hp hr plain) rfl
  exact ⟨_, hexec, rfl, hothers, hlook⟩

end Lookup

/-! ### A frame with code violations (R236, R238, R244, R261) -/

theorem exec_frameReception_beam {s : State} {p : Nat} (hrun : (getFacet s p).state = 3) (he : isEther s p = false) (h0 h1 h2 : Word) (pay : Octets) (crc : Word)
    (sof : Nat) (viol : Bool) :
    exec (.frameReception p { frame := .beam h0 h1 h2 pay crc, sof, viol }) s = .next (receiveBeam s p h0 h1 h2 pay crc sof viol) :=
  (if_neg (not_not.2 hrun)).trans (congrArg Host.Outcome.next (if_neg (by rw [he]; decide)))

theorem receiveBeam_violated (s : State) (p : Nat) (h0 h1 h2 : Word) (pay : Octets) (crc : Word) (sof : Nat) :
    receiveBeam s p h0 h1 h2 pay crc sof true = ackFrame (countBad (dropRx s p) p 2) p (field h0 0 9) 2 (field h0 16 16) sof := by
  have hcheck : rxCheck s p h0 h1 h2 pay crc sof true = .fails 2 := by
    unfold rxCheck
    exact if_pos rfl
  simp only [receiveBeam, hcheck]

theorem facets_countFacetBy (s : State) (p sub n : Nat) : (countFacetBy s p sub n).facets = s.facets := by
  unfold countFacetBy
  split <;> rfl

/-- The bad frame and its code violations count in the error window. -/
theorem getFacet_countBad_violated (s : State) (p : Nat) :
    getFacet (countBad s p 2) p = { getFacet s p with winErrs := (getFacet s p).winErrs + 1 + Config.violations s.free } := by
  have hbase : getFacet (countFacetBy { s with free := s.free + 1 } p 9 (max 1 (Config.violations s.free))) p = getFacet s p :=
    getFacet_of_facets (s := s) (facets_countFacetBy { s with free := s.free + 1 } ..) p
  simp only [countBad, if_true, or_true, getFacet_modFacet, hbase]

theorem ackFrame_keeps (s : State) (q slot status seq sof : Nat) :
    (getFacet (ackFrame s q slot status seq sof) q).state = (getFacet s q).state ∧
      (getFacet (ackFrame s q slot status seq sof) q).winErrs = (getFacet s q).winErrs := by
  unfold ackFrame
  dsimp only
  split
  · exact ⟨rfl, rfl⟩
  split_ifs
  · exact ⟨rfl, rfl⟩
  · rw [getFacet_modFacet]
    exact ⟨rfl, rfl⟩
  · exact ⟨rfl, rfl⟩
  · rw [getFacet_modFacet]
    exact ⟨rfl, rfl⟩

/-- Whatever memory holds and whatever was arriving, the frame is counted in the error window. -/
theorem receiveBeam_violated_counts (s : State) (p : Nat) (h0 h1 h2 : Word) (pay : Octets) (crc : Word) (sof : Nat) :
    (getFacet (receiveBeam s p h0 h1 h2 pay crc sof true) p).state = (getFacet s p).state ∧
      (getFacet (receiveBeam s p h0 h1 h2 pay crc sof true) p).winErrs = (getFacet s p).winErrs + 1 + Config.violations s.free := by
  have hdrop := BeamsBut.dropRx s p
  have hstate := (SteadyBut.dropRx (P := fun _ => False) s p).link p id
  obtain ⟨hack, hackErrs⟩ := ackFrame_keeps (countBad (dropRx s p) p 2) p (field h0 0 9) 2 (field h0 16 16) sof
  rw [receiveBeam_violated, hack, hackErrs, getFacet_countBad_violated]
  exact ⟨hstate, by rw [hdrop.winErrs, hdrop.free]⟩

/-- A slot frame received in its window is acknowledged in the slot's reverse slot (R244). -/
theorem ackFrame_reverse {s : State} {q slot sof : Nat} {e : SlotEnt} (hslot : slotAt (getFacet s q).active slot = some e) (hdir : rxDir s q e.dir = true)
    (hwin : inWindow (getFacet s q).active (getFacet s q).train.delay e sof = true) (hrev : e.rev ≠ 0x1FF) (status seq : Nat) :
    ackFrame s q slot status seq sof = modFacet s q fun f => { f with acks := f.acks ++ [{ slot, status, seq }] } := by
  simp only [ackFrame, hslot, hdir, hwin, Bool.not_true, Bool.false_eq_true, if_false, Bool.and_false, if_neg hrev]

theorem ackFrame_unscheduled (s : State) (q status seq sof : Nat) : ackFrame s q 0x1FF status seq sof = s := by
  have hnone : slotAt (getFacet s q).active 0x1FF = none := if_pos rfl
  simp only [ackFrame, hnone]

/-- An entry of a facet's status object is none of its configuration object. -/
theorem entKey_stat_ne_cfg (p q : Nat) {i j : Nat} (hi : i < 256) (hj : j < 256) (h : i ≠ j) : entKey (0x3100 + p) i ≠ entKey (0x3000 + q) j := by
  unfold entKey
  omega

/-- The direction of a slot rests on the facet's role, its training and the chain position. -/
theorem rxDir_congr {s t : State} {q : Nat} (hrole : ent t (0x3000 + q) 2 = ent s (0x3000 + q) 2) (htrain : (getFacet t q).train = (getFacet s q).train)
    (hchain : t.chain = s.chain) (dir : Nat) : rxDir t q dir = rxDir s q dir := by
  have hr : facetRole t q = facetRole s q := hrole
  simp only [rxDir, isEther, isTail, isHead, relayTail, relayHead, hr, htrain, hchain]

section Violated

variable {s : State} {p : Nat} (hrun : (getFacet s p).state = 3) (hether : isEther s p = false) (hretired : (getFacet s p).retired = false)
  (hidle : (getFacet s p).look = none) (h0 h1 h2 : Word) (pay : Octets) (crc : Word) (sof : Nat)
include hrun hether hretired hidle

theorem frameReception_violated {e : SlotEnt} (hslot : slotAt (getFacet s p).active (field h0 0 9) = some e) (hdir : rxDir s p e.dir = true)
    (hwin : inWindow (getFacet s p).active (getFacet s p).train.delay e sof = true) (hrev : e.rev ≠ 0x1FF) :
    ∃ t, exec (.frameReception p { frame := .beam h0 h1 h2 pay crc, sof, viol := true }) s = .next t ∧
      t = { s with facets := t.facets, ent := t.ent, free := s.free + 1 } ∧ (∀ q, q ≠ p → getFacet t q = getFacet s q) ∧
      getFacet t p = { getFacet s p with
        winErrs := (getFacet s p).winErrs + 1 + Config.violations s.free
        acks := (getFacet s p).acks ++ [{ slot := field h0 0 9, status := 2, seq := field h0 16 16 }] } ∧
      ent t (0x3100 + p) 9 = min 0xFFFFFFFF (ent s (0x3100 + p) 9 + max 1 (Config.violations s.free)) := by
  let s1 := modFacet s p fun f => { f with look := none }
  let s2 := setEnt { s1 with free := s.free + 1 } (0x3100 + p) 9 (min 0xFFFFFFFF (ent s (0x3100 + p) 9 + max 1 (Config.violations s.free)))
  let s3 := modFacet s2 p fun f => { f with winErrs := f.winErrs + 1 + Config.violations s.free }
  have hret1 : (getFacet s1 p).retired = false := by rw [getFacet_modFacet]; exact hretired
  have hbad : countBad s1 p 2 = s3 := by
    have hcount : countFacetBy { s1 with free := s.free + 1 } p 9 (max 1 (Config.violations s.free)) = s2 :=
      if_neg (by rw [show (getFacet { s1 with free := s.free + 1 } p).retired = false from hret1]; decide)
    simp only [countBad, if_true, or_true]
    exact congrArg (fun t => modFacet t p fun f => { f with winErrs := f.winErrs + 1 + Config.violations s.free }) hcount
  have hget3 : getFacet s3 p = { getFacet s p with look := none, winErrs := (getFacet s p).winErrs + 1 + Config.violations s.free } := by
    rw [getFacet_modFacet, show getFacet s2 p = getFacet s1 p from rfl, getFacet_modFacet]
  have hrole : ent s3 (0x3000 + p) 2 = ent s (0x3000 + p) 2 := Tab.get_put_ne _ (entKey_stat_ne_cfg p p (by decide) (by decide) (by decide)).symm ..
  have hack : ackFrame s3 p (field h0 0 9) 2 (field h0 16 16) sof =
      modFacet s3 p fun f => { f with acks := f.acks ++ [{ slot := field h0 0 9, status := 2, seq := field h0 16 16 }] } := by
    refine ackFrame_reverse (by rw [hget3]; exact hslot) ?_ (by rw [hget3]; exact hwin) hrev ..
    rw [rxDir_congr hrole (by rw [hget3]) rfl]
    exact hdir
  have hexec := exec_frameReception_beam hrun hether h0 h1 h2 pay crc sof true
  rw [receiveBeam_violated, dropRx_idle hidle, hbad, hack] at hexec
  refine ⟨_, hexec, rfl, fun q hq => ?_, ?_, Tab.get_put_same ..⟩
  · rw [getFacet_modFacet_ne _ hq, getFacet_modFacet_ne _ hq, show getFacet s2 q = getFacet s1 q from rfl, getFacet_modFacet_ne _ hq]
  · rw [getFacet_modFacet, hget3]
    simp only [hidle]

end Violated

/-- A frame that arrives out of RUN only ends the reception. -/
theorem frameReception_down {s : State} {p : Nat} (hdown : (getFacet s p).state ≠ 3) (hidle : (getFacet s p).look = none) (fr : RxFrame) :
    ∃ t, exec (.frameReception p fr) s = .next t ∧ t = { s with facets := t.facets } ∧ ∀ q, getFacet t q = getFacet s q := by
  refine ⟨_, (if_pos hdown).trans (congrArg _ (dropRx_idle hidle)), rfl, fun q => ?_⟩
  by_cases hq : q = p
  · rw [hq, getFacet_modFacet]
    simp only [← hidle]
  · exact getFacet_modFacet_ne s hq _

end Sys2Proof.Machine

/-! SUPPORT. A good frame of a beam found: its buffer, its counts and the post that waits (R221, R238, R250). -/

namespace Sys2Proof.Machine

theorem fosterOf_nil {s : State} (h : s.foster = []) (c : Nat) : fosterOf s c = none := by
  unfold fosterOf
  rw [h]
  rfl

theorem unserved_nil {s : State} (h : s.foster = []) (c : Nat) : unserved s c = false := by
  unfold unserved
  rw [h]
  rfl

theorem ringAddr_own {s : State} {p : Nat} (h : fosterOf s (p / 8) = none) (idx : Nat) :
    ringAddr s p idx = bankBase (p / 8) 0 + ((getFacet s p).ringBase - 0x100000 + idx * 2048) := by simp only [ringAddr, h]

/-- Memory holds `v` from `a` on and is the memory `m` elsewhere. -/
def Holds (m : List Host.Cell) (a : Nat) (v : Octets) (m' : List Host.Cell) : Prop :=
  Mem.readAll a v.length m' = v ∧ ∀ y, y < a ∨ a + v.length ≤ y → Mem.read y m' = Mem.read y m

/-- Octets written through a port of a quiet memory. -/
theorem portWriteBytes_holds (m f j : Nat) {s : State} (h : QuietMem s) {a : Nat} {v : Octets} (hfuel : v.length + a % 8 ≤ 8 * j) :
    ∃ mem, portWriteBytes m f j s a v = { s with mem } ∧ Holds s.mem a v mem := by
  obtain ⟨mem, hstep, -, hread⟩ := portWriteBytes_quiet m f j h fun _ => hfuel
  refine ⟨mem, hstep, readAll_of_read fun x hx hx' => ?_, fun y hy => ?_⟩
  · rw [hread, if_pos ⟨hx, hx'⟩]
  · rw [hread, if_neg (by omega)]

/-- A frame goes to its buffer in the bank of the facet's own cluster (R250). -/
theorem writeRing_own {s : State} (h : QuietMem s) {p : Nat} (hown : fosterOf s (p / 8) = none) (idx : Nat) (v : Octets) :
    ∃ mem, writeRing s p idx v = { s with mem } ∧ Holds s.mem (bankBase (p / 8) 0 + ((getFacet s p).ringBase - 0x100000 + idx * 2048)) v mem := by
  simp only [writeRing, hown]
  rw [ringAddr_own hown]
  exact portWriteBytes_holds 8 (p % 8) _ h (by omega)

/-- A good frame counts once, and its octets in another counter (R355). -/
theorem countGood_counts {s : State} {p : Nat} (hr : (getFacet s p).retired = false) (n : Nat) :
    ∃ e, countGood s p n = { s with ent := e } ∧ ent { s with ent := e } (0x3100 + p) 4 = (ent s (0x3100 + p) 4 + 1) % 2 ^ 64 := by
  have hcounts : ∀ (t : State) (sub m : Nat), (getFacet t p).retired = false →
      bumpCounter t p sub m = setEnt t (0x3100 + p) sub ((ent t (0x3100 + p) sub + m) % 2 ^ 64) := fun t sub m ht => by
    rw [bumpCounter, ht, if_neg Bool.false_ne_true]
  refine ⟨_, (congrArg (fun t => bumpCounter t p 5 n) (hcounts s 4 1 hr)).trans (hcounts _ 5 n hr), ?_⟩
  refine (Tab.get_put_ne _ ?_ ..).trans (Tab.get_put_same ..)
  unfold entKey
  omega

section Stock

variable {s : State} (h : QuietMem s) {p : Nat} (hface : (getFacet s p).standsFor = none) (hown : fosterOf s (p / 8) = none)
  (hr : (getFacet s p).retired = false)
include h hface hown hr

theorem stockFrame_own (idx b : Nat) (v : Octets) (slot : Nat) (retry : Bool) (ts : Nat) :
    ∃ t, stockFrame s p idx (some b) v slot retry ts = t ∧ t = { s with facets := t.facets, mem := t.mem, ent := t.ent } ∧
      (∀ q, q ≠ p → getFacet t q = getFacet s q) ∧
      getFacet t p = { getFacet s p with
        bufs := Tab.put idx (.beam b) (getFacet s p).bufs, nextBuf := (idx + 1) % (getFacet s p).ringN
        posts := (getFacet s p).posts ++ [{ beam := some b, idx, retry, len := v.length, slot, ts, waited := false, again := false }] } ∧
      Holds s.mem (bankBase (p / 8) 0 + ((getFacet s p).ringBase - 0x100000 + idx * 2048)) v t.mem ∧
      ent t (0x3100 + p) 4 = (ent s (0x3100 + p) 4 + 1) % 2 ^ 64 := by
  have hself : faceOf s p = p := by rw [faceOf, hface, Option.getD_none]
  have htaken : getFacet (takeBuf s p idx (.beam b)) p =
      { getFacet s p with bufs := Tab.put idx (.beam b) (getFacet s p).bufs, nextBuf := (idx + 1) % (getFacet s p).ringN } := getFacet_modFacet ..
  have hquiet : QuietMem (takeBuf s p idx (.beam b)) := ⟨h.ecc, h.wf, h.bank, h.copy⟩
  obtain ⟨mem, hring, hholds⟩ := writeRing_own hquiet hown idx v
  obtain ⟨e, hgood, hcount⟩ := countGood_counts (s := { takeBuf s p idx (.beam b) with mem }) (p := p) (congrArg Facet.retired htaken |>.trans hr) v.length
  have hkept : ∀ q, getFacet { takeBuf s p idx (.beam b) with mem, ent := e } q = getFacet (takeBuf s p idx (.beam b)) q := getFacet_of_facets rfl
  rw [htaken] at hholds
  refine ⟨_, rfl, ?_⟩
  simp only [stockFrame, hself, hring, hgood]
  refine ⟨rfl, fun q hq => ?_, ?_, hholds, hcount⟩
  · exact (getFacet_modFacet_ne _ hq _).trans ((hkept q).trans (getFacet_modFacet_ne s hq _))
  · rw [getFacet_modFacet, hkept, htaken]

end Stock

/-- A good frame outside the slots that finds its buffer is delivered and not acknowledged (R238, R244). -/
theorem receiveBeam_unscheduled {s : State} {p : Nat} {h0 h1 h2 : Word} {pay : Octets} {crc : Word} {sof : Nat} {plain : Octets} {l : Lookup} {t : State}
    (hcheck : rxCheck s p h0 h1 h2 pay crc sof false = .good plain) (hretry : h0.getLsbD 12 = false) (hslot : field h0 0 9 = 0x1FF)
    (hlook : (getFacet s p).look = some l)
    (hdeliver : deliver (modFacet s p fun f => { f with look := none }) p l (.beam h0 h1 h2 pay crc) plain (field h0 0 9) false sof = some t) :
    receiveBeam s p h0 h1 h2 pay crc sof false = t := by
  have hentered : lookupOf s p (.beam h0 h1 h2 pay crc) plain = (modFacet s p fun f => { f with look := none }, l) := by simp only [lookupOf, hlook]
  simp only [receiveBeam, hcheck, hretry, Bool.false_and, Bool.false_eq_true, if_false, hentered, hdeliver, if_pos hslot]
  rw [hslot, ackFrame_unscheduled]

theorem deliver_found {s : State} {p b idx : Nat} (hface : (getFacet s p).standsFor = none) (hserved : unserved s (p / 8) = false)
    (hfree : nextFree (getFacet s p) = some idx) (f : Frame) (plain : Octets) (slot : Nat) (retry : Bool) (ts : Nat) :
    deliver s p (.found b) f plain slot retry ts = some (stockFrame (countBeam s b f) p idx (some b) (storedOctets f plain) slot retry ts) := by
  have hself : faceOf s p = p := by rw [faceOf, hface, Option.getD_none]
  simp only [deliver, hself, hserved, hfree, Option.isNone_some, Bool.false_eq_true, if_false]

/-- One facet and one beam changed. -/
theorem modBeam_modFacet_only (s : State) (p : Nat) (g : Facet → Facet) (b : Nat) (k : BeamCtx → BeamCtx) :
    ∃ t, modBeam (modFacet s p g) b k = t ∧ t = { s with facets := t.facets, beams := t.beams } ∧ (∀ q, q ≠ p → getFacet t q = getFacet s q) ∧
      getFacet t p = g (getFacet s p) ∧ (∀ a, a ≠ b → getBeam t a = getBeam s a) ∧ getBeam t b = k (getBeam s b) := by
  refine ⟨_, rfl, rfl, fun q hq => ?_, ?_, fun a ha => getBeam_modBeam_ne _ ha _, getBeam_modBeam ..⟩
  · exact getFacet_modFacet_ne s hq g
  · exact getFacet_modFacet s p g

section Good

variable {s : State} (h : QuietMem s) (hfoster : s.foster = []) {p : Nat} (hrun : (getFacet s p).state = 3) (hether : isEther s p = false)
  (hface : (getFacet s p).standsFor = none) (hretired : (getFacet s p).retired = false)
include h hfoster hrun hether hface hretired

theorem frameReception_good {h0 h1 h2 : Word} {pay : Octets} {crc : Word} {sof b idx : Nat} {plain : Octets}
    (hcheck : rxCheck s p h0 h1 h2 pay crc sof false = .good plain) (hretry : h0.getLsbD 12 = false) (hlook : (getFacet s p).look = some (.found b))
    (hfree : nextFree (getFacet s p) = some idx) (hslot : field h0 0 9 = 0x1FF) :
    let v := storedOctets (.beam h0 h1 h2 pay crc) plain
    ∃ t, exec (.frameReception p { frame := .beam h0 h1 h2 pay crc, sof, viol := false }) s = .next t ∧
      t = { s with facets := t.facets, beams := t.beams, mem := t.mem, ent := t.ent } ∧ (∀ q, q ≠ p → getFacet t q = getFacet s q) ∧
      getFacet t p = { getFacet s p with
        look := none, bufs := Tab.put idx (.beam b) (getFacet s p).bufs, nextBuf := (idx + 1) % (getFacet s p).ringN
        posts := (getFacet s p).posts ++
          [{ beam := some b, idx, retry := false, len := v.length, slot := field h0 0 9, ts := sof, waited := false, again := false }] } ∧
      Holds s.mem (bankBase (p / 8) 0 + ((getFacet s p).ringBase - 0x100000 + idx * 2048)) v t.mem ∧ (∀ a, a ≠ b → getBeam t a = getBeam s a) ∧
      getBeam t b = { getBeam s b with
        rxframes := (getBeam s b).rxframes + 1, rxbytes := (getBeam s b).rxbytes + BitVec.ofNat 32 (field h1 16 11) } ∧
      ent t (0x3100 + p) 4 = (ent s (0x3100 + p) 4 + 1) % 2 ^ 64 := by
  intro v
  obtain ⟨u, hu, huframe, huothers, hufacet, hubeams, hubeam⟩ := modBeam_modFacet_only s p (fun f => { f with look := none }) b
    fun x => { x with rxframes := x.rxframes + 1, rxbytes := x.rxbytes + BitVec.ofNat 32 (field h1 16 11) }
  have hcounted : countBeam (modFacet s p fun f => { f with look := none }) b (.beam h0 h1 h2 pay crc) = u :=
    (engineMod_noErrors (s := modFacet s p _) h.ecc b 2 _).trans hu
  have hquiet : QuietMem u := by rw [huframe]; exact ⟨h.ecc, h.wf, h.bank, h.copy⟩
  obtain ⟨t, hstock, hframe, hothers, hfacet, hholds, hcount⟩ := stockFrame_own hquiet (p := p) (by rw [hufacet]; exact hface)
    (by rw [huframe]; exact fosterOf_nil hfoster _) (by rw [hufacet]; exact hretired) idx b v (field h0 0 9) false sof
  have hdeliver : deliver (modFacet s p fun f => { f with look := none }) p (.found b) (.beam h0 h1 h2 pay crc) plain (field h0 0 9) false sof = some t := by
    rw [deliver_found (s := modFacet s p _) (idx := idx) (by rw [getFacet_modFacet]; exact hface) (unserved_nil hfoster _) (by rw [getFacet_modFacet]; exact hfree),
      hcounted, hstock]
  have hbeams : ∀ a, getBeam t a = getBeam u a := getBeam_of_beams (by rw [hframe])
  refine ⟨t, (exec_frameReception_beam hrun hether ..).trans (congrArg _ (receiveBeam_unscheduled hcheck hretry hslot hlook hdeliver)), ?_,
    fun q hq => (hothers q hq).trans (huothers q hq), ?_, ?_, fun a ha => (hbeams a).trans (hubeams a ha), (hbeams b).trans hubeam, ?_⟩
  · rw [hframe, huframe]
  · rw [hfacet, hufacet]
  · rw [hufacet, huframe] at hholds
    exact hholds
  · rw [hcount, huframe]
    rfl

end Good

end Sys2Proof.Machine

/-! SUPPORT. A post written to its core's queue, and the queue's and the ring's own registers (R250, R251, R252, R255). -/

namespace Sys2Proof.Machine

/-! ### The queue (R251) -/

theorem rqFull_iff (q : Queues) : rqFull q = true ↔ q.rqTail = (q.rqHead + 1) % q.rqN.toNat := beq_iff_eq

theorem postOctets_length (p : Nat) (x : RxPost) : (postOctets p x).length = 16 := by simp [postOctets]

/-- A queue whose head has moved, and the doorbell it rings. -/
def headMoved (t : State) (n head : Nat) (rings : Bool) : State :=
  if rings then raise (modCore t n fun k => { k with q := { k.q with rqHead := head } }) (560 + n)
  else modCore t n fun k => { k with q := { k.q with rqHead := head } }

theorem headMoved_only (t : State) (n head : Nat) (rings : Bool) :
    headMoved t n head rings = { t with cores := (headMoved t n head rings).cores, router := (headMoved t n head rings).router } ∧
      (∀ m, m ≠ n → getCore (headMoved t n head rings) m = getCore t m) ∧
      getCore (headMoved t n head rings) n = { getCore t n with q := { (getCore t n).q with rqHead := head } } ∧
      (headMoved t n head rings).router.raised = if rings then t.router.raised ++ [560 + n] else t.router.raised := by
  have hothers := fun m (hm : m ≠ n) => getCore_modCore_ne t hm fun k => { k with q := { k.q with rqHead := head } }
  have hsame := getCore_modCore t n fun k => { k with q := { k.q with rqHead := head } }
  cases rings with
  | false => exact ⟨rfl, hothers, hsame, rfl⟩
  | true => exact ⟨rfl, hothers, hsame, rfl⟩

theorem queuePost_eq (s : State) (n p : Nat) (x : RxPost) :
    let q := (getCore s n).q
    queuePost s n p x = headMoved
      (portWriteBytes (if (fosterOf s (p / 8)).isSome then 10 else 8) (if (fosterOf s (p / 8)).isSome then 0 else p % 8) 4 s
        (xramBase (n / 4) + q.rqBase.toNat * 16 + q.rqHead * 16) (postOctets p x))
      n ((q.rqHead + 1) % q.rqN.toNat) (q.rqDben && q.rqHead == q.rqTail) := rfl

/-- Whatever memory holds, the facets stand and the head advances. -/
theorem queuePost_units (s : State) (n p : Nat) (x : RxPost) :
    (queuePost s n p x).facets = s.facets ∧
      (getCore (queuePost s n p x) n).q.rqHead = ((getCore s n).q.rqHead + 1) % (getCore s n).q.rqN.toNat := by
  rw [queuePost_eq]
  generalize hwritten : portWriteBytes _ _ 4 s _ _ = t
  have hstand : UnitsStand s t := hwritten ▸ UnitsStand.portWriteBytes ..
  obtain ⟨hframe, -, hcore, -⟩ := headMoved_only t n (((getCore s n).q.rqHead + 1) % (getCore s n).q.rqN.toNat)
    ((getCore s n).q.rqDben && (getCore s n).q.rqHead == (getCore s n).q.rqTail)
  rw [hcore, hframe]
  exact ⟨hstand.facets, rfl⟩

/-- In a quiet memory and with no foster cluster, the post stands at the head, which advances, and an empty queue's doorbell is raised. -/
theorem queuePost_quiet {s : State} (h : QuietMem s) {p : Nat} (hown : fosterOf s (p / 8) = none) (n : Nat) (x : RxPost) :
    ∃ t, queuePost s n p x = t ∧ t = { s with cores := t.cores, mem := t.mem, router := t.router } ∧ (∀ m, m ≠ n → getCore t m = getCore s m) ∧
      getCore t n = { getCore s n with
        q := { (getCore s n).q with rqHead := ((getCore s n).q.rqHead + 1) % (getCore s n).q.rqN.toNat } } ∧
      Holds s.mem (xramBase (n / 4) + (getCore s n).q.rqBase.toNat * 16 + (getCore s n).q.rqHead * 16) (postOctets p x) t.mem ∧
      t.router.raised = if (getCore s n).q.rqDben = true ∧ (getCore s n).q.rqHead = (getCore s n).q.rqTail then s.router.raised ++ [560 + n]
        else s.router.raised := by
  obtain ⟨mem, hwritten, hholds⟩ := portWriteBytes_holds 8 (p % 8) 4 h
    (a := xramBase (n / 4) + (getCore s n).q.rqBase.toNat * 16 + (getCore s n).q.rqHead * 16) (v := postOctets p x) (by rw [postOctets_length]; omega)
  have hkept : ∀ m, getCore { s with mem } m = getCore s m := getCore_of_cores rfl
  obtain ⟨hframe, hothers, hcore, hraised⟩ := headMoved_only { s with mem } n (((getCore s n).q.rqHead + 1) % (getCore s n).q.rqN.toNat)
    ((getCore s n).q.rqDben && (getCore s n).q.rqHead == (getCore s n).q.rqTail)
  refine ⟨_, rfl, ?_⟩
  simp only [queuePost_eq, hown, Option.isSome_none, Bool.false_eq_true, if_false, hwritten]
  generalize headMoved { s with mem } n _ _ = t at hframe hothers hcore hraised
  refine ⟨?_, fun m hm => (hothers m hm).trans (hkept m), hcore, ?_, ?_⟩
  · rw [hframe]
  · rw [hframe]
    exact hholds
  · rw [hraised]
    simp only [Bool.and_eq_true, beq_iff_eq]

/-! ### The oldest post of a facet (R251, R252) -/

section Post

variable {s : State} {p : Nat} {x : RxPost} {xs : List RxPost} (hposts : (getFacet s p).posts = x :: xs) (hown : fosterOf s (p / 8) = none)
include hposts hown

/-- The post of a beam that is gone frees its buffer. -/
theorem rxPost_gone {b : Nat} (hb : x.beam = some b) (hv : (getBeam s b).valid = false) :
    ∃ t, exec (.rxPost p) s = .next t ∧ t = { s with facets := t.facets } ∧ (∀ q, q ≠ p → getFacet t q = getFacet s q) ∧
      getFacet t p = { getFacet s p with posts := xs, bufs := Tab.put x.idx .free (getFacet s p).bufs } := by
  refine ⟨freeBuf (modFacet s p fun f => { f with posts := xs }) p x.idx, ?_, rfl, fun q hq => ?_, ?_⟩
  · show execRxPost p s = _
    simp only [execRxPost, hposts, hown, hb, hv, Option.isSome_none, Bool.false_and, Bool.false_eq_true, if_false, Bool.not_false, if_true]
  · exact (getFacet_modFacet_ne _ hq _).trans (getFacet_modFacet_ne s hq _)
  · rw [freeBuf, getFacet_modFacet, getFacet_modFacet]

section Live

variable {n : Nat} (hlive : ∀ b, x.beam = some b → (getBeam s b).valid = true) (htarget : postTarget s p x = some n)
include hlive htarget

/-- A live post to a full queue waits and is told of once. -/
theorem exec_rxPost_full (hfull : rqFull (getCore s n).q = true) : exec (.rxPost p) s =
    .next (if x.waited then s else setFevt (modFacet s p fun f => { f with posts := { x with waited := true } :: xs }) p (fevtBit 1)) := by
  show execRxPost p s = _
  cases hb : x.beam with
  | none =>
    simp only [execRxPost, hposts, hown, hb, htarget, hfull, Option.isSome_none, Bool.false_and, Bool.false_eq_true, if_false, if_true]
    split <;> rfl
  | some b =>
    simp only [execRxPost, hposts, hown, hb, hlive b hb, htarget, hfull, Option.isSome_none, Bool.false_and, Bool.false_eq_true, if_false, Bool.not_true, if_true]
    split <;> rfl

variable (hroom : rqFull (getCore s n).q = false)
include hroom

omit hlive in
/-- A miss is posted, and nothing waits for it. -/
theorem exec_rxPost_miss (hb : x.beam = none) : exec (.rxPost p) s = .next (queuePost (modFacet s p fun f => { f with posts := xs }) n p x) := by
  show execRxPost p s = _
  simp only [execRxPost, hposts, hown, hb, htarget, hroom, Option.isSome_none, Bool.false_and, Bool.false_eq_true, if_false]

/-- A beam's frame is posted and held, and counted at its beam unless it is posted again. -/
theorem exec_rxPost_beam {b : Nat} (hb : x.beam = some b) {u : State}
    (hu : modFacet (queuePost (modFacet s p fun f => { f with posts := xs }) n p x) p
      (fun f => { f with held := f.held ++ [{ x with waited := false, again := false }] }) = u) :
    exec (.rxPost p) s = .next (if x.again then u
      else engineMod u b 4 fun y => { y with heldrx := if y.heldrx = 0xFF#8 then y.heldrx else y.heldrx + 1 }) := by
  subst hu
  show execRxPost p s = _
  simp only [execRxPost, hposts, hown, hb, hlive b hb, htarget, hroom, Option.isSome_none, Bool.false_and, Bool.false_eq_true, if_false, Bool.not_true]

/-- Whatever memory holds, the post is taken and the queue's head advances. -/
theorem rxPost_posted :
    ∃ t, exec (.rxPost p) s = .next t ∧ (getFacet t p).posts = xs ∧
      (getCore t n).q.rqHead = ((getCore s n).q.rqHead + 1) % (getCore s n).q.rqN.toNat := by
  obtain ⟨hfacets, hhead⟩ := queuePost_units (modFacet s p fun f => { f with posts := xs }) n p x
  have htaken : (getFacet (queuePost (modFacet s p fun f => { f with posts := xs }) n p x) p).posts = xs := by
    rw [getFacet_of_facets hfacets, getFacet_modFacet]
  cases hb : x.beam with
  | none => exact ⟨_, exec_rxPost_miss hposts hown htarget hroom hb, htaken, hhead⟩
  | some b =>
    have hexec := exec_rxPost_beam hposts hown hlive htarget hroom hb rfl
    refine ⟨_, hexec, ?_⟩
    split
    · exact ⟨by rw [getFacet_modFacet]; exact htaken, hhead⟩
    · have hstand := UnitsStand.engineMod (modFacet (queuePost (modFacet s p fun f => { f with posts := xs }) n p x) p
        (fun f => { f with held := f.held ++ [{ x with waited := false, again := false }] })) b 4
        fun y => { y with heldrx := if y.heldrx = 0xFF#8 then y.heldrx else y.heldrx + 1 }
      rw [getFacet_of_facets hstand.facets, getCore_of_cores hstand.cores, getFacet_modFacet]
      exact ⟨htaken, hhead⟩

end Live

section Owner

variable {b : Nat} (hb : x.beam = some b) (hv : (getBeam s b).valid = true) (hlens : (getBeam s b).owner.toNat < 128)
  (hserves : coreServes s (getBeam s b).owner.toNat = true)
include hb hv hlens hserves

omit hposts hown hv in
theorem postTarget_owner : postTarget s p x = some (getBeam s b).owner.toNat := by
  have hnot : isWarden (getBeam s b).owner.toNat = false := decide_eq_false (Nat.not_le.2 hlens)
  simp only [postTarget, hb, hserves, hnot, Bool.not_false, Bool.and_self, if_true]

omit hposts hown hlens hserves in
theorem live_of_valid : ∀ a, x.beam = some a → (getBeam s a).valid = true := fun a ha => by
  rw [← Option.some.inj (hb.symm.trans ha)]
  exact hv

theorem rxPost_full (hfull : rqFull (getCore s (getBeam s b).owner.toNat).q = true) :
    (x.waited = true → exec (.rxPost p) s = .next s) ∧
      (x.waited = false → ∃ t, exec (.rxPost p) s = .next t ∧ t = { s with facets := t.facets, router := t.router } ∧
        (∀ q, q ≠ p → getFacet t q = getFacet s q) ∧
        getFacet t p = { getFacet s p with posts := { x with waited := true } :: xs, fevt := (getFacet s p).fevt ||| 2#16 }) := by
  have hexec := exec_rxPost_full hposts hown (live_of_valid hb hv) (postTarget_owner (p := p) hb hlens hserves) hfull
  refine ⟨fun hw => by rw [hexec, if_pos hw], fun hw => ?_⟩
  have honly := (FacetOnly.modFacet s p fun f => { f with posts := { x with waited := true } :: xs }).trans (.setFevt _ p (fevtBit 1))
  refine ⟨_, hexec.trans (by rw [hw, if_neg Bool.false_ne_true]), honly.frame, honly.others, ?_⟩
  rw [getFacet_setFevt, getFacet_modFacet]
  rfl

theorem rxPost_room (h : QuietMem s) (hroom : rqFull (getCore s (getBeam s b).owner.toNat).q = false) (hagain : x.again = false) :
    let n := (getBeam s b).owner.toNat
    let k := getCore s n
    ∃ t, exec (.rxPost p) s = .next t ∧
      t = { s with facets := t.facets, cores := t.cores, beams := t.beams, mem := t.mem, router := t.router } ∧
      (∀ q, q ≠ p → getFacet t q = getFacet s q) ∧
      getFacet t p = { getFacet s p with posts := xs, held := (getFacet s p).held ++ [{ x with waited := false, again := false }] } ∧
      (∀ m, m ≠ n → getCore t m = getCore s m) ∧
      getCore t n = { k with q := { k.q with rqHead := (k.q.rqHead + 1) % k.q.rqN.toNat } } ∧
      Holds s.mem (xramBase (n / 4) + k.q.rqBase.toNat * 16 + k.q.rqHead * 16) (postOctets p x) t.mem ∧
      t.router.raised = (if k.q.rqDben = true ∧ k.q.rqHead = k.q.rqTail then s.router.raised ++ [560 + n] else s.router.raised) ∧
      getBeam t b = { getBeam s b with
        heldrx := if (getBeam s b).heldrx = 0xFF#8 then 0xFF#8 else (getBeam s b).heldrx + 1 } ∧
      ∀ a, a ≠ b → getBeam t a = getBeam s a := by
  intro n k
  have hquiet : QuietMem (modFacet s p fun f => { f with posts := xs }) := ⟨h.ecc, h.wf, h.bank, h.copy⟩
  obtain ⟨u, hqueue, hframe, hothers, hcore, hholds, hraised⟩ := queuePost_quiet hquiet hown n x
  have hexec := exec_rxPost_beam hposts hown (live_of_valid hb hv) (postTarget_owner (p := p) hb hlens hserves) hroom hb rfl
  have hheld : (modFacet u p fun f => { f with held := f.held ++ [{ x with waited := false, again := false }] }).ecc = [] := by
    rw [hframe]
    exact h.ecc
  rw [hqueue, hagain, if_neg Bool.false_ne_true, engineMod_noErrors hheld] at hexec
  have hfacets : ∀ q, getFacet u q = getFacet (modFacet s p fun f => { f with posts := xs }) q := getFacet_of_facets (by rw [hframe])
  have hbeams : ∀ a, getBeam u a = getBeam s a := getBeam_of_beams (by rw [hframe]; rfl)
  obtain ⟨t, ht, htframe, htothers, htfacet, htbeams, htbeam⟩ := modBeam_modFacet_only u p
    (fun f => { f with held := f.held ++ [{ x with waited := false, again := false }] }) b
    fun y => { y with heldrx := if y.heldrx = 0xFF#8 then y.heldrx else y.heldrx + 1 }
  have hcores : ∀ m, getCore t m = getCore u m := getCore_of_cores (by rw [htframe])
  rw [ht] at hexec
  refine ⟨t, hexec, ?_, fun q hq => ?_, ?_, fun m hm => (hcores m).trans (hothers m hm), (hcores n).trans hcore, ?_, ?_, ?_,
    fun a ha => (htbeams a ha).trans (hbeams a)⟩
  · rw [htframe, hframe]
    rfl
  · rw [htothers q hq, hfacets, getFacet_modFacet_ne s hq]
  · rw [htfacet, hfacets, getFacet_modFacet]
  · rw [htframe]
    exact hholds
  · rw [htframe]
    exact hraised
  · rw [htbeam, hbeams]
    by_cases hfull : (getBeam s b).heldrx = 0xFF#8
    · simp only [hfull]
    · simp only [if_neg hfull]

end Owner

end Post

/-! ### The registers of the ring and of the queue (R250, R255) -/

/-- A buffer is freed by its index where it was posted with MISS = 1. -/
theorem exec_rxfreeWrite {s : State} {p : Nat} (hp : p < nFacets s) (v : Word) :
    let f := getFacet s p
    let i := field v 0 6
    let miss := Tab.get (fun _ => BufUse.free) i f.bufs = .miss ∧ ∀ x ∈ f.posts, x.idx ≠ i
    (miss → exec (.rxfreeWrite p v) s = .next (setFacet s p { f with bufs := Tab.put i .free f.bufs })) ∧
      (¬ miss → exec (.rxfreeWrite p v) s = .next s) := by
  intro f i miss
  have hmiss : (Tab.get (fun _ => BufUse.free) i f.bufs = .miss ∧ !(f.posts.any fun x => x.idx == i)) ↔ miss := and_congr_right' (by simp)
  have hexec : exec (.rxfreeWrite p v) s = .next (rxfreeWrite s p v) := congrArg Host.Outcome.next (if_pos hp)
  exact ⟨fun h => hexec.trans (congrArg _ (if_pos (hmiss.2 h))), fun h => hexec.trans (congrArg _ (if_neg fun h' => h (hmiss.1 h')))⟩

theorem exec_rqcfgWrite {s : State} {n : Nat} (hn : corePresent s n = true) (v : Word) : exec (.rqcfgWrite n v) s = .next (rqcfgWrite s n v) :=
  congrArg Host.Outcome.next (if_pos hn)

/-! ### Any memory -/

theorem frameReception_next {s : State} {p : Nat} (hrun : (getFacet s p).state = 3) (fr : RxFrame) : ∃ t, exec (.frameReception p fr) s = .next t := by
  obtain ⟨frame, sof, viol⟩ := fr
  cases frame <;> exact ⟨_, if_neg (not_not.2 hrun)⟩

/-- Settles O48: the lookup, the reception and the post, each first in any memory and then exactly in a quiet one, and the two registers. -/
theorem framesAreReceivedAndPosted : Obligations.FramesAreReceivedAndPosted := by
  unfold Obligations.FramesAreReceivedAndPosted
  refine ⟨fun s p => ⟨fun fr => ⟨fun h => if_pos h, fun h => ?looked⟩, fun hrun hether h0 h1 h2 pay crc sof => ?violated, fun hrun => frameReception_next hrun,
    fun hposts => ?none, fun x xs hposts hown => ⟨fun b hb hv => rxPost_gone hposts hown hb hv, fun n hlive htarget hroom =>
      rxPost_posted hposts hown hlive htarget hroom⟩⟩, fun s p hecc hwf hbank hfoster hcopy => ?quiet, fun s p v hp => exec_rxfreeWrite hp v,
    fun s n v hn => ⟨fun h => (exec_rqcfgWrite hn v).trans (congrArg _ (if_pos h)), fun h => (exec_rqcfgWrite hn v).trans (congrArg _ (if_neg (Nat.not_lt.2 h)))⟩⟩
  case looked =>
    obtain ⟨plain, hexec⟩ := exec_arrivalLookup h fr
    exact ⟨_, hexec, by rw [getFacet_modFacet]; rfl⟩
  case violated =>
    obtain ⟨hstate, herrs⟩ := receiveBeam_violated_counts s p h0 h1 h2 pay crc sof
    exact ⟨_, exec_frameReception_beam hrun hether .., hstate.trans hrun, herrs⟩
  case none =>
    show execRxPost p s = _
    rw [execRxPost, hposts]
  case quiet =>
    have h : QuietMem s := ⟨hecc, hwf, hbank, hcopy⟩
    refine ⟨fun hrun hidle hface fr => ⟨arrivalLookup_mgmt hrun hidle, fun hc => ⟨arrivalLookup_miss hrun hidle hecc hface hc, fun b hfound hp hr =>
        arrivalLookup_found hrun hidle hecc hface hc hfound hp hr⟩⟩, frameReception_down, fun hrun hether hface hretired h0 h1 h2 pay crc sof =>
      ⟨fun hidle e hslot hdir hwin hrev => frameReception_violated hrun hether hretired hidle h0 h1 h2 pay crc sof hslot hdir hwin hrev,
        fun b idx plain hcheck hretry hlook hfree hslot _ => frameReception_good h hfoster hrun hether hface hretired hcheck hretry hlook hfree hslot⟩,
      fun x xs b hposts hb hv hlens hserves => ⟨fun hfull => rxPost_full hposts (fosterOf_nil hfoster _) hb hv hlens hserves ((rqFull_iff _).2 hfull),
        fun hroom hagain => rxPost_room hposts (fosterOf_nil hfoster _) hb hv hlens hserves h
          (Bool.eq_false_iff.2 fun hfull => hroom ((rqFull_iff _).1 hfull)) hagain⟩⟩

end Sys2Proof.Machine

/-! SUPPORT. A facet that stands in for another takes its pending table as its role is written: the event is the other facet's (R241, R264). -/

namespace Sys2Proof.Machine

/-- Facet 0, in OFF with nothing under way, stands in for facet 1 and holds a pending table. -/
def strayStandby : State :=
  modFacet (setEnt State.reset 0x3000 1 1) 0 fun f => { f with standsFor := some 1, pendTab := some Expo.dflt }

/-- FEVT of a facet after a command. -/
def fevtAfter (p : Nat) : Host.Outcome State Fault Refusal → Option (BitVec 16)
  | .next t => some (getFacet t p).fevt
  | _ => none

/-- The table comes into force as facet 0 leaves OFF, and FEVT.SCHED is set at the facet it stands in for. -/
theorem fevtAfter_roleWrite : fevtAfter 1 (exec (.roleWrite 0 2) strayStandby) = some 0x1000#16 := by decide +kernel

/-- Refutes O43: nothing under way on a facet, as the statement has it, leaves open that the facet stands in for another. A pending table that ROLE_WRITE
brings into force is then told to that other facet, which the statement has stand: in `strayStandby` facet 1 gets FEVT.SCHED. -/
theorem not_facetConfigurationWrites : ¬ Obligations.FacetConfigurationWrites := by
  unfold Obligations.FacetConfigurationWrites
  intro h
  obtain ⟨-, hwrites⟩ := h strayStandby 0
  obtain ⟨-, hroles, -⟩ := hwrites (by decide)
  obtain ⟨-, -, -, hcalm, -⟩ := hroles 2
  obtain ⟨t, hexec, -, -, -, hothers, -⟩ := hcalm (by decide) (by decide) ⟨rfl, rfl, rfl, rfl, rfl, rfl, .inl rfl⟩
  have hfevt := fevtAfter_roleWrite
  rw [hexec] at hfevt
  have hstands : getFacet t 1 = getFacet strayStandby 1 := hothers 1 (by decide)
  rw [fevtAfter, hstands] at hfevt
  exact absurd hfevt (by decide)

end Sys2Proof.Machine

/-! SUPPORT. One facet with its events and its counters, its link state, its training begun anew (R247, R255, R355). -/

namespace Sys2Proof.Machine

/-! ### One facet (R255) -/

theorem modFacet_modFacet (s : State) (p : Nat) (g h : Facet → Facet) : modFacet (modFacet s p g) p h = modFacet s p fun f => h (g f) := by
  simp only [modFacet, getFacet_setFacet, setFacet_setFacet]

namespace FacetOnly

variable {p : Nat} {s t : State}

theorem setFacet (s : State) (p : Nat) (f : Facet) : FacetOnly p s (setFacet s p f) := ⟨rfl, fun _ hq => getFacet_setFacet_ne s hq f⟩

theorem ite {c : Prop} [Decidable c] {u : State} (h1 : FacetOnly p s t) (h2 : FacetOnly p s u) : FacetOnly p s (if c then t else u) := by
  split <;> assumption

theorem ent (h : FacetOnly p s t) : t.ent = s.ent := by rw [h.frame]

theorem tb (h : FacetOnly p s t) : t.tb = s.tb := by rw [h.frame]

/-- A command that changes facet `p` and raises its events. -/
theorem exec {c : Instr} (h : FacetOnly p s t) (hexec : exec c s = .next t) {P : Facet → Prop} (hP : P (getFacet t p)) :
    ∃ t, Machine.exec c s = .next t ∧ t = { s with facets := t.facets, router := t.router } ∧ (∀ q, q ≠ p → getFacet t q = getFacet s q) ∧
      P (getFacet t p) := ⟨t, hexec, h.frame, h.others, hP⟩

end FacetOnly

theorem getFacet_setLinkState {s : State} {p st : Nat} (h : (getFacet s p).state ≠ st) :
    getFacet (setLinkState s p st) p = { getFacet s p with state := st, fevt := (getFacet s p).fevt ||| 0x100#16 } := by
  rw [setLinkState, if_neg h, getFacet_setFevt, getFacet_modFacet]
  rfl

/-- Training begun at timebase `tb`: what the last attempt counted is forgotten. -/
def restarted (x : Training) (tb : Nat) : Training :=
  { x with start := tb, probes := 0, echoes := 0, sum := 0, ready := false, good := 0, missed := 0, seen := false, holdTo := 0, lastCyc := none }

theorem startTraining_eq (s : State) (p : Nat) : startTraining s p = modFacet s p fun f => { f with train := restarted f.train s.tb } := rfl

/-! ### One facet and its counters (R355) -/

/-- Nothing but facet `p`, its events and its counters has changed. -/
structure FacetCounts (p : Nat) (s t : State) : Prop where
  frame : t = { s with facets := t.facets, router := t.router, ent := t.ent }
  others : ∀ q, q ≠ p → getFacet t q = getFacet s q
  entries : ∀ i j, i ≠ 0x3100 + p → j < 256 → ent t i j = ent s i j

namespace FacetCounts

variable {p : Nat} {s t u : State}

theorem of_only (h : FacetOnly p s t) : FacetCounts p s t :=
  ⟨h.frame.trans (by rw [h.ent]), h.others, fun i j _ _ => by rw [Machine.ent, h.ent, Machine.ent]⟩

theorem refl (s : State) : FacetCounts p s s := of_only (.refl s)

theorem trans (h1 : FacetCounts p s t) (h2 : FacetCounts p t u) : FacetCounts p s u :=
  ⟨h2.frame.trans (congrArg (fun x : State => { x with facets := u.facets, router := u.router, ent := u.ent }) h1.frame),
    fun q hq => (h2.others q hq).trans (h1.others q hq), fun i j hi hj => (h2.entries i j hi hj).trans (h1.entries i j hi hj)⟩

theorem ite {c : Prop} [Decidable c] (h1 : FacetCounts p s t) (h2 : FacetCounts p s u) : FacetCounts p s (if c then t else u) := by
  split <;> assumption

theorem setEnt (s : State) (p : Nat) {j : Nat} (hj : j < 256) (v : Nat) : FacetCounts p s (setEnt s (0x3100 + p) j v) :=
  ⟨rfl, fun _ _ => rfl, fun _ _ hi hk => ent_setEnt_ne s v hk hj fun h => hi (congrArg Prod.fst h)⟩

theorem countFacet (s : State) (p : Nat) {j : Nat} (hj : j < 256) : FacetCounts p s (countFacet s p j) := .ite (refl s) (setEnt s p hj _)

theorem countFacetBy (s : State) (p : Nat) {j : Nat} (hj : j < 256) (n : Nat) : FacetCounts p s (countFacetBy s p j n) :=
  .ite (refl s) (setEnt s p hj _)

theorem bumpCounter (s : State) (p : Nat) {j : Nat} (hj : j < 256) (n : Nat) : FacetCounts p s (bumpCounter s p j n) :=
  .ite (refl s) (setEnt s p hj _)

end FacetCounts

end Sys2Proof.Machine

/-! SUPPORT. A facet that retires, and the supervision that leads to it (R247, R261, R262, R263, R281). -/

namespace Sys2Proof.Machine

/-! ### Retirement (R262, R281) -/

/-- Whatever was under way, the facet reads RETIRED with its criterion, and drops its answers, ACKs and reflex requests. -/
theorem retireFacet_gone (s : State) (p criterion : Nat) :
    let g := getFacet (retireFacet s p criterion) p
    g.state = 5 ∧ g.retired = true ∧ g.criterion = criterion ∧ g.acks = [] ∧ g.answers = [] ∧ g.rfx = [] := by
  unfold retireFacet
  dsimp only
  generalize (if (standbyReady s p && (getFacet s p).standsFor.isNone) = true then keepAll _ p else loseAll _ p) = x
  have hfacets : ∀ (c : Prop) [Decidable c] (t : State) (code code' : Nat) (d d' : Octets),
      (if c then emergency (emergency t code 0 d) code' 0 d' else emergency t code 0 d).facets = t.facets := fun c _ t code code' d d' =>
    (UnitsStand.ite ((UnitsStand.emergency ..).trans (.emergency ..)) (.emergency ..)).facets
  rw [getFacet_of_facets (hfacets ..), getFacet_modFacet]
  exact ⟨setLinkState_state .., rfl, rfl, rfl, rfl, rfl⟩

/-- Nothing is under way on the facet, no standby is named for it and no retired facet waits for it. -/
structure Unburdened (s : State) (p : Nat) : Prop extends Calm (getFacet s p) where
  deferred : (getFacet s p).deferred = []
  queue : (getFacet s p).queue = []
  standsFor : (getFacet s p).standsFor = none
  serves : ∀ r, r / 8 = p / 8 → (getFacet s r).deputy ≠ some p
  standby : ent s (0x3000 + p) 0x0A = 0xFFFF

namespace Unburdened

variable {s t : State} {p : Nat}

/-- Changes of the facet's supervision leave it so. -/
theorem of_only (h : Unburdened s p) (ht : FacetOnly p s t)
    (hf : getFacet t p = { getFacet s p with
      train := (getFacet t p).train, winSec := (getFacet t p).winSec, winErrs := (getFacet t p).winErrs, winBad := (getFacet t p).winBad
      fevt := (getFacet t p).fevt }) : Unburdened t p := by
  obtain ⟨⟨hlook, hlane, hback, hawait, hretry⟩, hdeferred, hqueue, hstands, hserves, hstandby⟩ := h
  refine ⟨⟨?_, ?_, ?_, ?_, ?_⟩, ?_, ?_, ?_, fun r hr => ?_, ?_⟩
  case refine_9 =>
    by_cases hrp : r = p
    · subst hrp
      rw [hf]
      exact hserves r rfl
    · rw [ht.others r hrp]
      exact hserves r hr
  case refine_10 => rw [ent, ht.ent]; exact hstandby
  all_goals rw [hf]; assumption

variable (h : Unburdened s p)
include h

theorem servedBy_eq : servedBy s p = [] := by
  rw [servedBy, List.filter_eq_nil_iff]
  intro r hr
  obtain ⟨i, hi, rfl⟩ := List.mem_map.1 hr
  have hi := List.mem_range.1 hi
  simpa using h.serves (p / 8 * 8 + i) (by omega)

theorem dropRx_eq : dropRx s p = modFacet s p fun f => { f with look := none } := dropRx_idle h.look

theorem loseAll_eq : loseAll (modFacet s p fun f => { f with look := none }) p =
    modFacet s p fun f => { f with look := none, lane := none, back := none, await := [], retry := [], deferred := [], queue := [] } := by
  unfold loseAll
  simp only [getFacet_modFacet, lanesOf, h.lane, h.back, h.await, h.retry, h.deferred, h.queue, Option.toList_none, List.map_nil, List.append_nil,
    List.foldl_nil, modFacet_modFacet]

theorem not_ready : (standbyReady s p && (getFacet s p).standsFor.isNone) = false := by
  have hfar : ¬ 0xFFFF < nFacets s := by
    unfold nFacets
    split <;> omega
  simp only [standbyReady, cfg, h.standby, hfar, decide_false, Bool.false_and]

end Unburdened

theorem head_emergency (s : State) (code origin : Nat) (data : Octets) :
    (emergency s code origin data).errs.head? = some { code, origin, time := s.tb, data } := by
  unfold emergency
  dsimp only
  split <;> rfl

/-- An emergency is logged, counted and queued. -/
theorem emergency_only (s : State) (code origin : Nat) (data : Octets) :
    ∃ ent errs emerg, emergency s code origin data = { s with ent, errs, emerg } := by
  unfold emergency
  dsimp only
  split <;> exact ⟨_, _, _, rfl⟩

/-- With nothing to hand over, a retirement changes the facet alone and logs 0x8110 with no standby. -/
theorem retireFacet_unburdened {s : State} {p : Nat} (h : Unburdened s p) (criterion : Nat) :
    let t := retireFacet s p criterion
    t = { s with facets := t.facets, router := t.router, ent := t.ent, errs := t.errs, emerg := t.emerg } ∧
      (∀ q, q ≠ p → getFacet t q = getFacet s q) ∧
      ((getFacet t p).deputy = none ∧ (getFacet t p).ringBase = (getFacet s p).ringBase ∧ (getFacet t p).posts = (getFacet s p).posts) ∧
      t.errs.head? = some { code := 0x8110, origin := 0, time := s.tb, data := leOctets 2 p ++ [BitVec.ofNat 8 criterion] ++ leOctets 2 0xFFFF } := by
  let s1 := modFacet s p fun f => { f with look := none, lane := none, back := none, await := [], retry := [], deferred := [], queue := [] }
  let s2 := modFacet (setLinkState s1 p 5) p fun f =>
    { f with retired := true, criterion, deputy := none, standsFor := none, acks := [], ackOut := [], answers := [], rfx := [], look := none }
  have heq : retireFacet s p criterion = emergency s2 0x8110 0 (facetData p criterion 0xFFFF) := by
    have hq : cfg s p 0x0A = 0xFFFF := h.standby
    unfold retireFacet
    simp only [h.not_ready, h.servedBy_eq, List.foldl_nil, h.dropRx_eq, h.loseAll_eq, hq, Bool.false_eq_true, if_false, Bool.not_false, Bool.true_and, bne_self_eq_false]
    rfl
  have honly : FacetOnly p s s2 := ((FacetOnly.modFacet ..).trans (.setLinkState ..)).trans (.modFacet ..)
  have hlink : getFacet (setLinkState s1 p 5) p = { getFacet s1 p with
      state := (getFacet (setLinkState s1 p 5) p).state, fevt := (getFacet (setLinkState s1 p 5) p).fevt } := by
    by_cases hs : (getFacet s1 p).state = 5
    · rw [setLinkState, if_pos hs]
    · rw [getFacet_setLinkState hs]
  have hframe : let t := emergency s2 0x8110 0 (facetData p criterion 0xFFFF)
      t = { s2 with ent := t.ent, errs := t.errs, emerg := t.emerg } := by
    obtain ⟨ent, errs, emerg, h⟩ := emergency_only s2 0x8110 0 (facetData p criterion 0xFFFF)
    rw [h]
  have hhead := head_emergency s2 0x8110 0 (facetData p criterion 0xFFFF)
  have hfacets : ∀ q, getFacet (emergency s2 0x8110 0 (facetData p criterion 0xFFFF)) q = getFacet s2 q := fun q => getFacet_of_facets (UnitsStand.emergency ..).facets q
  dsimp only
  rw [heq]
  generalize emergency s2 0x8110 0 (facetData p criterion 0xFFFF) = t at hframe hhead hfacets
  refine ⟨?_, fun q hq => (hfacets q).trans (honly.others q hq), ?_, hhead.trans (by rw [honly.tb]; rfl)⟩
  · have hfacets' : t.facets = s2.facets := by rw [hframe]
    have hrouter' : t.router = s2.router := by rw [hframe]
    rw [hfacets', hrouter']
    exact hframe.trans (congrArg (fun x : State => { x with ent := t.ent, errs := t.errs, emerg := t.emerg }) honly.frame)
  · rw [hfacets, getFacet_modFacet, hlink, getFacet_modFacet]
    exact ⟨rfl, rfl, rfl⟩

/-! ### The supervision (R247, R261) -/

theorem watched_iff (f : Facet) :
    watched f = true ↔ f.train.reached = true ∧ f.stopped = false ∧ f.ftctl = 0 ∧ f.state ≠ 0 ∧ f.state ≠ 5 := by
  simp [watched, and_assoc]

section Supervision

variable {s : State} {p : Nat} (hp : p < nFacets s)
include hp

/-- The window closed, whatever its errors. -/
def windowClosed (s : State) (p : Nat) (bad : Nat) : State :=
  modFacet s p fun f => { f with winSec := s.tb / 1000000000, winErrs := 0, winBad := bad }

theorem errorWindowEnd_good (hdue : (getFacet s p).winSec < s.tb / 1000000000)
    (h : watched (getFacet s p) = false ∨ (getFacet s p).winErrs ≤ ent s (0x3000 + p) 0x0B) :
    exec (.errorWindowEnd p) s = .next (windowClosed s p 0) := by
  show execErrorWindowEnd p s = _
  rw [execErrorWindowEnd, if_neg (by omega)]
  by_cases hw : watched (getFacet s p) = false
  · simp only [hw, Bool.not_false, if_true, modFacet_setFacet]
    rfl
  · simp only [Bool.not_eq_false] at hw
    simp only [hw, Bool.not_true, Bool.false_eq_true, if_false, cfg, h.resolve_left (by rw [hw]; decide), if_true, modFacet_setFacet]
    rfl

theorem errorWindowEnd_bad (hdue : (getFacet s p).winSec < s.tb / 1000000000) (hw : watched (getFacet s p) = true)
    (h : ent s (0x3000 + p) 0x0B < (getFacet s p).winErrs) :
    let t := setFevt (windowClosed s p ((getFacet s p).winBad + 1)) p (fevtBit 11)
    exec (.errorWindowEnd p) s = .next (if 2 ≤ (getFacet s p).winBad then retireFacet t p 2 else t) := by
  show execErrorWindowEnd p s = _
  rw [execErrorWindowEnd, if_neg (by omega)]
  simp only [hw, Bool.not_true, Bool.false_eq_true, if_false, cfg, if_neg (Nat.not_le.2 h), modFacet_setFacet, Nat.reduceLeDiff]
  rfl

theorem signalLossTimeout_retires {at_ : Nat} (hlost : (getFacet s p).lostAt = some at_) (hlong : at_ + 10000000 < s.tb)
    (hw : watched (getFacet s p) = true) : exec (.signalLossTimeout p) s = .next (retireFacet s p 1) := by
  show execSignalLossTimeout p s = _
  simp only [execSignalLossTimeout, hlost, hp, hw, hlong, and_self, if_true]

/-- An attempt at training that has lasted 10 ms has failed. -/
theorem trainingTimeout_failed (ht : (getFacet s p).state = 1 ∨ (getFacet s p).state = 4) (hold : (getFacet s p).train.holdTo = 0)
    (hlong : (getFacet s p).train.start + 10000000 ≤ s.tb) : exec (.trainingTimeout p) s = .next (failedAttempt s p) := by
  have htrains : training (getFacet s p) = true := by simpa [training] using ht
  show execTrainingTimeout p s = _
  simp only [execTrainingTimeout, hp, htrains, hold, hlong, and_self, if_true, ne_eq, not_true_eq_false, if_false]

/-- Training begun again with one more failed attempt counted. -/
def attemptFailed (s : State) (p : Nat) : State :=
  modFacet s p fun f => { f with train := { restarted f.train s.tb with fails := f.train.fails + 1 } }

omit hp in
theorem failedAttempt_counted (hr : (getFacet s p).train.reached = true) :
    failedAttempt s p = if 5 ≤ (getFacet s p).train.fails + 1 ∧ watched (getFacet s p) = true then retireFacet (attemptFailed s p) p 3
      else attemptFailed s p := by
  have hcounted : modFacet (startTraining s p) p (fun f => { f with train := { f.train with fails := (getFacet s p).train.fails + 1 } }) = attemptFailed s p := by
    rw [startTraining_eq, modFacet_modFacet]
    rfl
  simp only [failedAttempt, hr, Bool.not_true, Bool.false_eq_true, if_false, hcounted]

end Supervision

/-- Settles O45: each time-out either retires the facet or closes its window; a retirement ends the same whatever was under way, and with nothing
under way leaves all else but its log entry. -/
theorem facetErrorWindowsAndRetirement : Obligations.FacetErrorWindowsAndRetirement := by
  unfold Obligations.FacetErrorWindowsAndRetirement
  intro s p hp f now calm seen retires gone
  have hwatched : seen → watched f = true := (watched_iff f).2
  have hcalm : calm → Unburdened s p := fun ⟨hlook, hlane, hback, hawait, hretry, hdeferred, hqueue, hstands, hserves, hstandby⟩ =>
    ⟨⟨hlook, hlane, hback, hawait, hretry⟩, hdeferred, hqueue, hstands, hserves, hstandby⟩
  have hgone : ∀ {c : Instr} {t : State} {n : Nat}, exec c s = .next (retireFacet t p n) → gone c n := fun {c t n} hexec =>
    ⟨_, hexec, retireFacet_gone t p n⟩
  have hretires : ∀ {c : Instr} {t : State} {n : Nat}, exec c s = .next (retireFacet t p n) → FacetOnly p s t → Unburdened t p →
      ((getFacet t p).ringBase = f.ringBase ∧ (getFacet t p).posts = f.posts) → retires c n := fun {c t n} hexec honly hfree ⟨hring, hposts⟩ => by
    obtain ⟨hframe, hothers, ⟨hdeputy, hring', hposts'⟩, hhead⟩ := retireFacet_unburdened hfree n
    obtain ⟨hstate, hretired, hcriterion, hacks, hanswers, hrfx⟩ := retireFacet_gone t p n
    refine ⟨_, hexec, hframe.trans ?_, fun q hq => (hothers q hq).trans (honly.others q hq),
      ⟨hstate, hretired, hcriterion, hdeputy, hacks, hanswers, hrfx, hring'.trans hring, hposts'.trans hposts⟩, hhead.trans (by rw [honly.tb])⟩
    generalize retireFacet t p n = u
    exact congrArg (fun x : State => { x with facets := u.facets, router := u.router, ent := u.ent, errs := u.errs, emerg := u.emerg }) honly.frame
  have hwindow : FacetOnly p s (setFevt (windowClosed s p (f.winBad + 1)) p (fevtBit 11)) := (FacetOnly.modFacet ..).trans (.setFevt ..)
  have hwindow' : getFacet (setFevt (windowClosed s p (f.winBad + 1)) p (fevtBit 11)) p =
      { f with winSec := now, winErrs := 0, winBad := f.winBad + 1, fevt := f.fevt ||| 0x800#16 } := by
    rw [getFacet_setFevt, windowClosed, getFacet_modFacet]
    rfl
  have hattempt : getFacet (attemptFailed s p) p = { f with train := { restarted f.train s.tb with fails := f.train.fails + 1 } } := getFacet_modFacet ..
  have hbad : f.winSec < now → seen → ent s (0x3000 + p) 0x0B < f.winErrs → 2 ≤ f.winBad →
      exec (.errorWindowEnd p) s = .next (retireFacet (setFevt (windowClosed s p (f.winBad + 1)) p (fevtBit 11)) p 2) := fun hdue hseen herrs htwo =>
    (errorWindowEnd_bad hp hdue (hwatched hseen) herrs).trans (by rw [if_pos htwo])
  have hfifth : f.state = 1 ∨ f.state = 4 → f.train.holdTo = 0 → f.train.start + 10000000 ≤ s.tb → 4 ≤ f.train.fails → seen →
      exec (.trainingTimeout p) s = .next (retireFacet (attemptFailed s p) p 3) := fun ht hold hlong hfour hseen =>
    (trainingTimeout_failed hp ht hold hlong).trans (by
      rw [failedAttempt_counted hseen.1, if_pos ⟨Nat.succ_le_succ hfour, hwatched hseen⟩])
  refine ⟨fun hdue hseen herrs htwo => hgone (hbad hdue hseen herrs htwo), fun at_ hlost hlong hseen => hgone (signalLossTimeout_retires hp hlost hlong (hwatched hseen)),
    fun hlost => ?noLoss, fun ht hold hlong hfour hseen => hgone (hfifth ht hold hlong hfour hseen), fun hearly => if_pos (.inr hearly), fun hdue hgood => ?goodWindow,
    fun hdue hseen herrs => ⟨fun hfew => ?badWindow, fun htwo hc => hretires (hbad hdue hseen herrs htwo) hwindow ((hcalm hc).of_only hwindow ?_) ?_⟩,
    fun at_ hlost hlong hseen hc => hretires (signalLossTimeout_retires hp hlost hlong (hwatched hseen)) (.refl s) (hcalm hc) ⟨rfl, rfl⟩,
    fun ht hold hlong hfour hseen hc => hretires (hfifth ht hold hlong hfour hseen) (.modFacet ..) ((hcalm hc).of_only (.modFacet ..) ?_) ?_⟩
  case noLoss =>
    show execSignalLossTimeout p s = _
    rw [execSignalLossTimeout, show (getFacet s p).lostAt = none from hlost]
  case goodWindow =>
    have hgood' : watched f = false ∨ f.winErrs ≤ ent s (0x3000 + p) 0x0B := hgood.imp (fun h => Bool.eq_false_iff.2 fun hw => h ((watched_iff f).1 hw)) id
    exact ⟨_, errorWindowEnd_good hp hdue hgood', rfl, fun q hq => getFacet_modFacet_ne s hq _, getFacet_modFacet ..⟩
  case badWindow =>
    exact ⟨_, (errorWindowEnd_bad hp hdue (hwatched hseen) herrs).trans (by rw [if_neg (Nat.not_le.2 hfew)]), hwindow.frame, hwindow.others, hwindow'⟩
  · rw [hwindow']
  · rw [hwindow']
    exact ⟨rfl, rfl⟩
  · rw [hattempt]
  · rw [hattempt]
    exact ⟨rfl, rfl⟩

end Sys2Proof.Machine

/-! SUPPORT. What completions, deferrals, relay ends and tables coming into force leave alone of a facet (R241, R246, R249, R253). -/

namespace Sys2Proof.Machine

/-! ### Completions (R253) -/

/-- The facets have changed in their events, ring buffers and completion entries alone: what a completion shows. -/
structure Shown (s t : State) : Prop where
  facet : ∀ p, getFacet t p =
    { getFacet s p with fevt := (getFacet t p).fevt, bufs := (getFacet t p).bufs, staging := (getFacet t p).staging }

namespace Shown

variable {s t u : State}

theorem of_facets (h : t.facets = s.facets) : Shown s t := ⟨fun p => by rw [getFacet_of_facets h]⟩

theorem refl (s : State) : Shown s s := of_facets rfl

theorem trans (h1 : Shown s t) (h2 : Shown t u) : Shown s u := ⟨fun p => (h2.facet p).trans (congrArg
  (fun f : Facet => { f with fevt := (getFacet u p).fevt, bufs := (getFacet u p).bufs, staging := (getFacet u p).staging }) (h1.facet p))⟩

theorem ite {c : Prop} [Decidable c] (h1 : Shown s t) (h2 : Shown s u) : Shown s (if c then t else u) := by split <;> assumption

theorem of_only {p : Nat} (h : FacetOnly p s t)
    (hf : getFacet t p = { getFacet s p with fevt := (getFacet t p).fevt, bufs := (getFacet t p).bufs, staging := (getFacet t p).staging }) : Shown s t := by
  refine ⟨fun q => ?_⟩
  by_cases hq : q = p
  · rw [hq]
    exact hf
  · rw [h.others q hq]

theorem setFacet {p : Nat} {f : Facet} (hf : f = { getFacet s p with fevt := f.fevt, bufs := f.bufs, staging := f.staging }) :
    Shown s (setFacet s p f) := of_only (.setFacet s p f) (by rw [getFacet_setFacet]; exact hf)

theorem setFevt (s : State) (p : Nat) (mask : BitVec 16) : Shown s (setFevt s p mask) := of_only (.setFevt s p mask) (by rw [getFacet_setFevt])

theorem countFacet (s : State) (p sub : Nat) : Shown s (countFacet s p sub) := .ite (refl s) (of_facets rfl)

theorem bumpCounter (s : State) (p sub n : Nat) : Shown s (bumpCounter s p sub n) := .ite (refl s) (of_facets rfl)

theorem countResult (s : State) (p : Nat) (d : TxDesc) (result : Nat) : Shown s (countResult s p d result) :=
  .ite ((bumpCounter ..).trans (bumpCounter ..)) (.ite (countFacet ..) (refl s))

theorem pushStaging (s : State) (p lc : Nat) (e : Done) : Shown s (pushStaging s p lc e) := by
  unfold Machine.pushStaging
  dsimp only
  split
  · exact setFacet rfl
  · exact (setFacet rfl).trans (countFacet ..)

theorem showDone (s : State) (p : Nat) : Shown s (showDone s p) := .ite (setFevt ..) (refl s)

theorem sendPacket (s : State) (vc : Nat) (kind : PacketKind) (route : List Nat) (octets : Nat) (body : PktBody) :
    Shown s (sendPacket s vc kind route octets body) := by
  obtain ⟨x, h⟩ := sendPacket_only s vc kind route octets body
  rw [h]
  exact of_facets rfl

theorem pushRtxDone (s : State) (n id : Nat) (d : Done) : Shown s (pushRtxDone s n id d) := of_facets rfl

theorem freeBuf (s : State) (face idx : Nat) : Shown s (freeBuf s face idx) := setFacet rfl

theorem completeDesc (s : State) (p : Nat) (d : TxDesc) (result : Nat) : Shown s (completeDesc s p d result) := by
  have hcount := countResult s p d result
  unfold Machine.completeDesc
  cases d.poster with
  | own => exact refl s
  | staging lc => exact (hcount.trans (pushStaging ..)).trans (showDone ..)
  | fabric n => exact (hcount.trans (.ite (pushRtxDone ..) (sendPacket ..))).trans (showDone ..)
  | relay g idx => exact (hcount.trans (freeBuf ..)).trans (showDone ..)

end Shown

/-! ### The lane and its training (R246, R247, R249) -/

/-- Of a facet: its training, what is seen of the signal and the errors of its window. -/
def laneView (f : Facet) : Training × Bool × Option Nat × Nat := (f.train, f.signal, f.lostAt, f.winErrs)

/-- These stand in every facet. -/
structure LaneKept (s t : State) : Prop where
  facet : ∀ p, laneView (getFacet t p) = laneView (getFacet s p)

namespace LaneKept

variable {s t u : State}

theorem train (h : LaneKept s t) (p : Nat) : (getFacet t p).train = (getFacet s p).train := congrArg Prod.fst (h.facet p)

theorem signal (h : LaneKept s t) (p : Nat) : (getFacet t p).signal = (getFacet s p).signal := congrArg (fun v => v.2.1) (h.facet p)

theorem lostAt (h : LaneKept s t) (p : Nat) : (getFacet t p).lostAt = (getFacet s p).lostAt := congrArg (fun v => v.2.2.1) (h.facet p)

theorem winErrs (h : LaneKept s t) (p : Nat) : (getFacet t p).winErrs = (getFacet s p).winErrs := congrArg (fun v => v.2.2.2) (h.facet p)

theorem of_facets (h : t.facets = s.facets) : LaneKept s t := ⟨fun p => by rw [getFacet_of_facets h]⟩

theorem refl (s : State) : LaneKept s s := ⟨fun _ => rfl⟩

theorem trans (h1 : LaneKept s t) (h2 : LaneKept t u) : LaneKept s u := ⟨fun p => (h2.facet p).trans (h1.facet p)⟩

theorem ite {c : Prop} [Decidable c] (h1 : LaneKept s t) (h2 : LaneKept s u) : LaneKept s (if c then t else u) := by split <;> assumption

theorem foldl {α : Type} {f : State → α → State} (h : ∀ t x, LaneKept t (f t x)) (l : List α) (s : State) : LaneKept s (l.foldl f s) :=
  foldl_rel refl trans h l s

theorem of_shown (h : Shown s t) : LaneKept s t := ⟨fun p => by rw [h.facet p]; rfl⟩

theorem setFacet {p : Nat} {f : Facet} (hf : laneView f = laneView (getFacet s p)) : LaneKept s (setFacet s p f) := by
  refine ⟨fun q => ?_⟩
  by_cases hq : q = p
  · rw [hq, getFacet_setFacet, hf]
  · rw [getFacet_setFacet_ne s hq]

theorem modFacet (s : State) (p : Nat) {g : Facet → Facet} (hg : ∀ f, laneView (g f) = laneView f) : LaneKept s (modFacet s p g) := setFacet (hg _)

theorem setFevt (s : State) (p : Nat) (mask : BitVec 16) : LaneKept s (setFevt s p mask) := of_shown (.setFevt ..)

theorem setLinkState (s : State) (p st : Nat) : LaneKept s (setLinkState s p st) :=
  .ite (refl s) ((modFacet s p (g := fun f => { f with state := st }) fun _ => rfl).trans (setFevt ..))

theorem completeDesc (s : State) (p : Nat) (d : TxDesc) (result : Nat) : LaneKept s (completeDesc s p d result) := of_shown (.completeDesc ..)

theorem deferFrame (q : Nat) (s : State) (d : TxDesc) : LaneKept s (deferFrame q s d) := by
  refine .ite ((completeDesc ..).trans (setFevt ..)) (((modFacet s q ?_).trans (of_shown (.countFacet ..))).trans (setFevt ..))
  exact fun _ => rfl

theorem deferAll (s : State) (q : Nat) : LaneKept s (deferAll s q) := by
  refine (modFacet s q ?_).trans (foldl (fun t d => deferFrame q t d) _ _)
  exact fun _ => rfl

theorem relayEnd (s : State) (e id : Nat) (good : Bool) : LaneKept s (relayEnd s e id good) := by
  unfold Machine.relayEnd
  dsimp only
  split
  · exact setFacet rfl
  refine .trans (setFacet ?_) (foldl (fun t d => ?_) _ _)
  · rfl
  have hbuf : LaneKept t (match d.poster with | .relay p i => Machine.freeBuf t p i | _ => t) := by
    split
    · exact of_shown (.freeBuf ..)
    · exact refl t
  split
  · exact hbuf.trans (of_facets (UnitsStand.engineMod ..).facets)
  · exact hbuf

theorem endRelay (s : State) (q : Nat) (l : Option Lookup) : LaneKept s (endRelay s q l) := by
  unfold Machine.endRelay
  split
  · exact .ite (relayEnd ..) (of_shown (.sendPacket ..))
  · exact refl s

theorem dropRx (s : State) (q : Nat) : LaneKept s (dropRx s q) :=
  (modFacet s q (g := fun f => { f with look := none }) fun _ => rfl).trans (endRelay ..)

theorem applyTable (s : State) (q : Nat) (x : Expo) : LaneKept s (applyTable s q x) := by
  refine .trans (.trans (setFacet ?_) (foldl (fun t d => completeDesc t q d 11) _ _)) (setFevt ..)
  rfl

theorem applyReached (s : State) (q : Nat) : LaneKept s (applyReached s q) := by
  unfold Machine.applyReached
  split
  · exact .ite (applyTable ..) (refl s)
  · exact refl s

end LaneKept

end Sys2Proof.Machine

/-! SUPPORT. Training: a table coming into force, SYNC entered, the training sets sent and taken (R236, R241, R247, R248). -/

namespace Sys2Proof.Machine

/-! ### A table comes into force, SYNC is entered (R241, R247) -/

/-- With no frame deferred the table of a facet that stands in for none changes that facet alone. -/
theorem applyTable_plain {s : State} {p : Nat} (hdeferred : (getFacet s p).deferred = []) (hstands : (getFacet s p).standsFor = none) (x : Expo) :
    FacetOnly p s (applyTable s p x) ∧ getFacet (applyTable s p x) p =
      { getFacet s p with active := x, pendTab := none, fevt := (getFacet s p).fevt ||| 0x1000#16 } := by
  have heq : applyTable s p x = setFevt (setFacet s p { getFacet s p with active := x, pendTab := none }) p (fevtBit 12) := by
    simp only [applyTable, hdeferred, List.filter_nil, List.foldl_nil, faceOf, getFacet_setFacet, hstands, Option.getD_none]
  rw [heq]
  refine ⟨(FacetOnly.setFacet ..).trans (.setFevt ..), ?_⟩
  rw [getFacet_setFevt, getFacet_setFacet]
  rfl

/-- The pending table whose ACT has come at cycle `n`. -/
def tableDue (f : Facet) (n : Nat) : Option Expo := f.pendTab.filter fun x => actReached x n

/-- A table due is in force, and without one nothing changes. -/
theorem applyReached_plain {s : State} {p : Nat}
    (h : tableDue (getFacet s p) (getFacet s p).cyc = none ∨ ((getFacet s p).deferred = [] ∧ (getFacet s p).standsFor = none)) :
    let due := tableDue (getFacet s p) (getFacet s p).cyc
    FacetOnly p s (applyReached s p) ∧ getFacet (applyReached s p) p =
      { getFacet s p with
        active := due.getD (getFacet s p).active
        pendTab := (getFacet (applyReached s p) p).pendTab
        fevt := (getFacet s p).fevt ||| if due = none then 0#16 else 0x1000#16 } := by
  intro due
  cases hpend : (getFacet s p).pendTab with
  | none =>
    have hdue : due = none := congrArg (Option.filter _) hpend
    have heq : applyReached s p = s := by simp only [applyReached, hpend]
    rw [heq, hdue, if_pos rfl, BitVec.or_zero]
    exact ⟨.refl s, rfl⟩
  | some x =>
    have heq : applyReached s p = if actReached x (getFacet s p).cyc then applyTable s p x else s := by simp only [applyReached, hpend]
    have hdue : due = if actReached x (getFacet s p).cyc then some x else none := (congrArg (Option.filter _) hpend).trans (Option.filter_some ..)
    by_cases hact : actReached x (getFacet s p).cyc = true
    · rw [if_pos hact] at heq hdue
      obtain ⟨hdeferred, hstands⟩ := h.resolve_left (by rw [show tableDue _ _ = due from rfl, hdue]; exact Option.some_ne_none x)
      obtain ⟨honly, hfacet⟩ := applyTable_plain hdeferred hstands x
      rw [heq, hfacet, hdue, if_neg (Option.some_ne_none x)]
      exact ⟨honly, rfl⟩
    · rw [if_neg hact] at heq hdue
      rw [heq, hdue, if_pos rfl, BitVec.or_zero]
      exact ⟨.refl s, rfl⟩

/-- Training as SYNC is entered. -/
def synced (x : Training) : Training := { x with good := 0, missed := 0, seen := false, lastCyc := none }

/-- Whatever the table does, the facet is in SYNC and its training stands but for the count of CYCs. -/
theorem enterSync_reached (s : State) (p : Nat) :
    (getFacet (enterSync s p) p).state = 2 ∧ (getFacet (enterSync s p) p).train = synced (getFacet s p).train := by
  refine ⟨setLinkState_state .., ?_⟩
  unfold enterSync
  dsimp only
  rw [(LaneKept.setLinkState ..).train, getFacet_modFacet, (LaneKept.applyReached ..).train, getFacet_modFacet]
  rfl

/-- SYNC entered with no deferred frame losing its slot: the cycle in hand is that of the table in force. -/
theorem enterSync_plain {s : State} {p : Nat} (hstate : (getFacet s p).state ≠ 2) :
    let f := getFacet s p
    let due := tableDue f (cycleNo f.active s.tb)
    due = none ∨ (f.deferred = [] ∧ f.standsFor = none) →
      FacetOnly p s (enterSync s p) ∧
        (let g := getFacet (enterSync s p) p
        g.active = due.getD f.active ∧ g.cyc = cycleNo g.active s.tb ∧ g.fevt = f.fevt ||| (if due = none then 0x100#16 else 0x1100#16) ∧
          g.queue = f.queue ∧ g.trnOut = f.trnOut) := by
  intro f due h
  let s0 := modFacet s p fun f => { f with cyc := cycleNo f.active s.tb }
  have hs0 : getFacet s0 p = { f with cyc := cycleNo f.active s.tb } := getFacet_modFacet ..
  have hdue : tableDue (getFacet s0 p) (getFacet s0 p).cyc = due := by rw [hs0]; rfl
  obtain ⟨honly, hfacet⟩ := applyReached_plain (s := s0) (p := p) (by rw [hdue, hs0]; exact h)
  rw [hdue] at hfacet
  let s1 := modFacet (applyReached s0 p) p fun f =>
    let n := cycleNo f.active (applyReached s0 p).tb
    { f with cyc := n, prep := n, opened := [], carried := [], train := synced f.train }
  have hs1 : getFacet s1 p = _ := getFacet_modFacet ..
  have htb : (applyReached s0 p).tb = s.tb := honly.tb
  rw [hfacet, hs0, htb] at hs1
  have heq : enterSync s p = setLinkState s1 p 2 := rfl
  have hlink := getFacet_setLinkState (s := s1) (p := p) (st := 2) (by rw [hs1]; exact hstate)
  rw [heq, hlink, hs1]
  refine ⟨(((FacetOnly.modFacet ..).trans honly).trans (.modFacet ..)).trans (.setLinkState ..), rfl, rfl, ?_, rfl, rfl⟩
  split
  · rw [BitVec.or_zero]
  · rw [BitVec.or_assoc]
    rfl

end Sys2Proof.Machine

/-! SUPPORT. The training sets of a link, sent and received (R236, R247, R248). -/

namespace Sys2Proof.Machine

/-! ### The peer's position (R235, R247) -/

theorem samePos_iff (s : State) (p pos : Nat) : samePos s p pos = true ↔ facetRole s p = 6 ∧ s.chain = some pos := by
  simp [samePos]

/-- The facet with the peer's position as a training set of chain position `pos` gives it. -/
def peerTaken (s : State) (p pos : Nat) : Facet :=
  if facetRole s p = 6 then { getFacet s p with train := { (getFacet s p).train with peer := BitVec.ofNat 8 pos } } else getFacet s p

/-- A training set brings nothing but the peer. -/
theorem peerTaken_eq (s : State) (p pos : Nat) :
    peerTaken s p pos = { getFacet s p with train := { (getFacet s p).train with peer := (peerTaken s p pos).train.peer } } := by
  unfold peerTaken
  split <;> rfl

section Peer

variable {s : State} {p pos : Nat}

theorem takePeer_unread (h : facetRole s p ≠ 6) : takePeer s p pos = s := if_pos h

theorem takePeer_read (h6 : facetRole s p = 6) (h : s.chain ≠ some pos) :
    takePeer s p pos = modFacet s p fun f => { f with train := { f.train with peer := BitVec.ofNat 8 pos } } :=
  (if_neg (not_not.2 h6)).trans (if_neg h)

/-- An equal position is shown by FEVT.STATE. -/
theorem takePeer_equal (h6 : facetRole s p = 6) (h : s.chain = some pos) :
    takePeer s p pos = setFevt (modFacet s p fun f => { f with train := { f.train with peer := BitVec.ofNat 8 pos } }) p (fevtBit 8) :=
  (if_neg (not_not.2 h6)).trans (if_pos h)

/-- With unequal positions what follows changes the facet with its peer taken. -/
theorem modFacet_takePeer (h : ¬ (facetRole s p = 6 ∧ s.chain = some pos)) (g : Facet → Facet) :
    modFacet (takePeer s p pos) p g = setFacet s p (g (peerTaken s p pos)) ∧ getFacet (takePeer s p pos) p = peerTaken s p pos := by
  by_cases h6 : facetRole s p = 6
  · rw [takePeer_read h6 fun hc => h ⟨h6, hc⟩, modFacet_modFacet, getFacet_modFacet, peerTaken, if_pos h6]
    exact ⟨rfl, rfl⟩
  · rw [takePeer_unread h6, peerTaken, if_neg h6]
    exact ⟨rfl, rfl⟩

end Peer

/-! ### The sets (R236, R247, R248) -/

section Sets

variable {s : State} {p : Nat} (hmay : mayTrain s p = true)
include hmay

theorem not_synced_of_mayTrain : (getFacet s p).state ≠ 2 := by
  simp only [mayTrain, training, Bool.and_eq_true, Bool.or_eq_true, beq_iff_eq] at hmay
  omega

theorem trnProbe_due (hhead : isHead s p = true) (hdue : (getFacet s p).train.start + (getFacet s p).train.probes * 1000 ≤ s.tb) :
    exec (.trnProbe p) s = .next (setFacet s p { getFacet s p with
      trnOut := some { type := 0, pos := trnPos s p, value := s.tb, leave := s.tb }
      train := { (getFacet s p).train with probes := (getFacet s p).train.probes + 1 } }) := by
  show execTrnProbe p s = _
  simp only [execTrnProbe, hmay, hhead, hdue, decide_true, Bool.and_self, if_true, sendTrn, modFacet_modFacet]
  rfl

section Probe

variable (htail : isTail s p = true) {pos ts : Nat} (hts : ts < 2 ^ 64)
include htail hts

theorem exec_trnProbeReception : exec (.trnProbeReception p pos ts) s = .next (takePeer (sendTrn s p 1 ts (s.tb + 64)) p pos) := by
  show execTrnProbeReception p pos ts s = _
  simp only [execTrnProbeReception, hmay, htail, hts, decide_true, Bool.and_self, if_true]

theorem trnProbeReception_equal (h6 : facetRole s p = 6) (hchain : s.chain = some pos) :
    ∃ t, exec (.trnProbeReception p pos ts) s = .next t ∧ FacetOnly p s t ∧ getFacet t p = { getFacet s p with
      trnOut := some { type := 1, pos := trnPos s p, value := ts, leave := s.tb + 64 }
      train := { (getFacet s p).train with peer := BitVec.ofNat 8 pos }, fevt := (getFacet s p).fevt ||| 0x100#16 } := by
  refine ⟨_, (exec_trnProbeReception hmay htail hts).trans (congrArg _ (takePeer_equal (s := sendTrn s p 1 ts (s.tb + 64)) h6 hchain)),
    ((FacetOnly.modFacet ..).trans (.modFacet ..)).trans (.setFevt ..), ?_⟩
  rw [getFacet_setFevt, getFacet_modFacet, sendTrn, getFacet_modFacet]
  rfl

end Probe

section Echo

variable (hhead : isHead s p = true) (pos sent arrived : Nat)
include hhead

theorem trnEchoReception_equal (h6 : facetRole s p = 6) (hchain : s.chain = some pos) :
    ∃ t, exec (.trnEchoReception p pos sent arrived) s = .next t ∧ FacetOnly p s t ∧
      getFacet t p = { peerTaken s p pos with fevt := (getFacet s p).fevt ||| 0x100#16 } := by
  refine ⟨takePeer s p pos, ?_, ?_, ?_⟩
  · show execTrnEchoReception p pos sent arrived s = _
    simp only [execTrnEchoReception, hmay, hhead, Bool.and_self, Bool.not_true, Bool.false_eq_true, if_false, (samePos_iff s p pos).2 ⟨h6, hchain⟩, if_true]
  · rw [takePeer_equal h6 hchain]
    exact (FacetOnly.modFacet ..).trans (.setFevt ..)
  · rw [takePeer_equal h6 hchain, getFacet_setFevt, getFacet_modFacet, peerTaken, if_pos h6]
    rfl

variable {pos} (hne : ¬ (facetRole s p = 6 ∧ s.chain = some pos))
include hne

/-- The sum of the echoes with this one taken in. -/
def echoSum (f : Facet) (sent arrived : Nat) : Nat := f.train.sum + (arrived - sent - 64)

/-- The facet after its 16th echo, its delay `d` measured. -/
def measured (h : Facet) (d : Nat) : Facet := { h with train := { h.train with echoes := 0, sum := 0, delay := d } }

theorem trnEchoReception_eq :
    let f := getFacet s p
    let h := peerTaken s p pos
    let d := (echoSum f sent arrived + 31) / 32
    exec (.trnEchoReception p pos sent arrived) s = .next (
      if f.train.echoes + 1 < 16 then setFacet s p { h with train := { h.train with echoes := f.train.echoes + 1, sum := echoSum f sent arrived } }
      else if f.active.revgap < 2 * d + 64 then
        setFevt (setFacet s p { h with train := { (measured h d).train with holdTo := s.tb + 10000000 } }) p (fevtBit 13)
      else enterSync (setFacet s p { h with
        train := { (measured h d).train with ready := true }, trnOut := some { type := 2, pos := trnPos s p, value := d, leave := s.tb } }) p) := by
  intro f h d
  have htaken := modFacet_takePeer hne
  have hget : getFacet (takePeer s p pos) p = h := (htaken id).2
  have hh : h = { f with train := { f.train with peer := h.train.peer } } := peerTaken_eq s p pos
  have hechoes : h.train.echoes = f.train.echoes := by rw [hh]
  have hsum : h.train.sum = f.train.sum := by rw [hh]
  have hgap : h.active.revgap = f.active.revgap := by rw [hh]
  have htb : (takePeer s p pos).tb = s.tb := by
    by_cases h6 : facetRole s p = 6
    · rw [takePeer_read h6 fun hc => hne ⟨h6, hc⟩]
      rfl
    · rw [takePeer_unread h6]
  have hfar : samePos s p pos = false := Bool.eq_false_iff.2 fun hc => hne ((samePos_iff s p pos).1 hc)
  have htrn : ∀ x, trnPos (setFacet s p x) p = trnPos s p := fun _ => rfl
  show execTrnEchoReception p pos sent arrived s = _
  simp only [execTrnEchoReception, hmay, hhead, Bool.and_self, Bool.not_true, Bool.false_eq_true, if_false, hfar, hget, (htaken _).1, hechoes, hsum,
    getFacet_setFacet, sendTrn, modFacet_setFacet, htrn]
  by_cases hfew : f.train.echoes + 1 < 16
  · rw [if_pos hfew, if_pos hfew]
    rfl
  · rw [if_neg hfew, if_neg hfew]
    by_cases hlate : f.active.revgap < 2 * d + 64
    · rw [if_pos hlate]
      exact if_pos (lt_of_eq_of_lt hgap hlate)
    · rw [if_neg hlate]
      exact if_neg fun hc => hlate (lt_of_eq_of_lt hgap.symm hc)

variable (hlast : (getFacet s p).train.echoes = 15)
include hlast

/-- The 16th echo of a link too long for its REVGAP: the lane is held for 10 ms. -/
theorem trnEchoReception_late (hlate : (getFacet s p).active.revgap < 2 * ((echoSum (getFacet s p) sent arrived + 31) / 32) + 64) :
    exec (.trnEchoReception p pos sent arrived) s = .next (setFevt (setFacet s p { peerTaken s p pos with
      train := { (measured (peerTaken s p pos) ((echoSum (getFacet s p) sent arrived + 31) / 32)).train with holdTo := s.tb + 10000000 } }) p (fevtBit 13)) :=
  (trnEchoReception_eq hmay hhead sent arrived hne).trans (by rw [if_neg (by omega), if_pos hlate])

/-- The 16th echo of another: TRN ready leaves and SYNC is entered. -/
theorem trnEchoReception_last (hfit : 2 * ((echoSum (getFacet s p) sent arrived + 31) / 32) + 64 ≤ (getFacet s p).active.revgap) :
    let d := (echoSum (getFacet s p) sent arrived + 31) / 32
    exec (.trnEchoReception p pos sent arrived) s = .next (enterSync (setFacet s p { getFacet s p with
      train := { (measured (peerTaken s p pos) d).train with ready := true }
      trnOut := some { type := 2, pos := trnPos s p, value := d, leave := s.tb } }) p) :=
  (trnEchoReception_eq hmay hhead sent arrived hne).trans (by
    rw [if_neg (by omega), if_neg (Nat.not_lt.2 hfit)]
    refine congrArg (fun f => Host.Outcome.next (enterSync (setFacet s p f) p)) ?_
    unfold measured peerTaken
    split <;> rfl)

end Echo

section Ready

variable (htail : isTail s p = true) (d : Nat)
include htail

theorem exec_trnReadyReception : exec (.trnReadyReception p d) s = .next (
    if samePos s p (getFacet s p).train.peer.toNat then s
    else enterSync (modFacet s p fun f => { f with train := { f.train with delay := d } }) p) := by
  show execTrnReadyReception p d s = _
  simp only [execTrnReadyReception, hmay, htail, Bool.true_and]
  cases samePos s p (getFacet s p).train.peer.toNat <;> rfl

end Ready

end Sets

end Sys2Proof.Machine

/-! SUPPORT. The CYCs of the other end, and a timebase disciplined by them (R247, R248, R419, R420, R422). -/

namespace Sys2Proof.Machine

theorem setLock_stands (s : State) (v : Nat) : (setLock s v).facets = s.facets ∧ (setLock s v).clock.off = s.clock.off := by
  unfold setLock
  split <;> exact ⟨rfl, rfl⟩

theorem judgeOffset_stands (s : State) (src : Nat) (off : Int) :
    (judgeOffset s src off).facets = s.facets ∧ (judgeOffset s src off).clock.off = s.clock.off := by
  have hite : ∀ {c : Prop} [Decidable c] {t u : State}, t.facets = s.facets ∧ t.clock.off = s.clock.off → u.facets = s.facets ∧ u.clock.off = s.clock.off →
      (if c then t else u).facets = s.facets ∧ (if c then t else u).clock.off = s.clock.off := fun h1 h2 => by split <;> assumption
  exact hite (hite (setLock_stands ..) ⟨rfl, rfl⟩) (hite (setLock_stands ..) (setLock_stands ..))

/-- With a link in SYNC or RUN a measurement makes no step: it changes no facet, and TBOFF holds the offset, clamped to 32 bits. -/
theorem measureOffset_running {s : State} (h : linksRun s = true) (src : Nat) (off : Int) :
    (measureOffset s src off).facets = s.facets ∧ (measureOffset s src off).clock.off = max (-2147483648) (min off 2147483647) := by
  unfold measureOffset
  simp only [h, Bool.not_true, Bool.false_eq_true, and_false, if_false]
  exact judgeOffset_stands _ src off

section Cyc

variable {s : State} {p : Nat}

theorem linksRun_of_relay (hp : p < nFacets s) (hrole : facetRole s p = 6) (hup : (getFacet s p).state = 2 ∨ (getFacet s p).state = 3) : linksRun s = true := by
  have hlink : linkUp (getFacet s p) = true := by simpa [linkUp] using hup
  refine List.any_eq_true.2 ⟨p, List.mem_range.2 hp, ?_⟩
  rw [hrole, hlink]
  rfl

/-- Training once a CYC is judged. -/
def cycTaken (x : Training) (good : Bool) (cyc : Nat) : Training :=
  { x with seen := true, missed := 0, good := if good then goodInRow x cyc else 0, lastCyc := if good then some cyc else none }

/-- In SYNC the second good CYC in a row enters RUN. -/
theorem cycReceive_sync (hsync : (getFacet s p).state = 2) (cyc arrived : Nat) :
    let good := cycGood (getFacet s p).active (getFacet s p).train.delay cyc arrived
    let s1 := modFacet s p fun f => { f with train := cycTaken f.train good cyc }
    cycReceive s p cyc arrived = if 2 ≤ (cycTaken (getFacet s p).train good cyc).good then enterRun s1 p else s1 := if_pos hsync

/-- In RUN a bad one is told of at a tail. -/
theorem cycReceive_run (hrun : (getFacet s p).state = 3) (cyc arrived : Nat) :
    let good := cycGood (getFacet s p).active (getFacet s p).train.delay cyc arrived
    let s1 := modFacet s p fun f => { f with train := cycTaken f.train good cyc }
    cycReceive s p cyc arrived = if !good && isTail s p then setFevt s1 (faceOf s1 p) (fevtBit 14) else s1 :=
  if_neg (by rw [hrun]; decide)

/-- The bad CYC a tail tells of. -/
theorem cycReceive_bad (hrun : (getFacet s p).state = 3) (hstands : (getFacet s p).standsFor = none) (htail : isTail s p = true) {cyc arrived : Nat}
    (hbad : cycGood (getFacet s p).active (getFacet s p).train.delay cyc arrived = false) :
    FacetOnly p s (cycReceive s p cyc arrived) ∧ getFacet (cycReceive s p cyc arrived) p = { getFacet s p with
      train := { (getFacet s p).train with seen := true, missed := 0, good := 0, lastCyc := none }, fevt := (getFacet s p).fevt ||| 0x4000#16 } := by
  let s1 := modFacet s p fun f => { f with train := cycTaken f.train false cyc }
  have hs1 : getFacet s1 p = { getFacet s p with train := cycTaken (getFacet s p).train false cyc } := getFacet_modFacet ..
  have hface : faceOf s1 p = p := by
    rw [faceOf, hs1]
    exact congrArg (fun o => o.getD p) hstands
  have heq : cycReceive s p cyc arrived = setFevt s1 p (fevtBit 14) := by
    rw [cycReceive_run hrun, hbad, htail]
    exact congrArg (fun q => setFevt s1 q (fevtBit 14)) hface
  rw [heq, getFacet_setFevt, hs1]
  exact ⟨(FacetOnly.modFacet ..).trans (.setFevt ..), rfl⟩

theorem enterRun_plain {s : State} {p : Nat} (h : (getFacet s p).state ≠ 3) :
    FacetOnly p s (enterRun s p) ∧ getFacet (enterRun s p) p = { getFacet s p with
      state := 3, train := { (getFacet s p).train with reached := true, fails := 0, good := 0, missed := 0 }
      fevt := (getFacet s p).fevt ||| 0x100#16 } := by
  refine ⟨(FacetOnly.modFacet ..).trans (.setLinkState ..), ?_⟩
  rw [enterRun, getFacet_setLinkState (by rw [getFacet_modFacet]; exact h), getFacet_modFacet]

/-- Whatever it finds, a CYC leaves the link up and its number kept if it is good. -/
theorem cycReceive_keeps (hup : (getFacet s p).state = 2 ∨ (getFacet s p).state = 3) (cyc arrived : Nat) :
    let good := cycGood (getFacet s p).active (getFacet s p).train.delay cyc arrived
    let t := cycReceive s p cyc arrived
    nFacets t = nFacets s ∧ t.ent = s.ent ∧ ((getFacet t p).state = 2 ∨ (getFacet t p).state = 3) ∧
      (getFacet t p).train.lastCyc = (if good then some cyc else none) ∧
      ((getFacet s p).state = 2 → 2 ≤ (cycTaken (getFacet s p).train good cyc).good → (getFacet t p).state = 3) := by
  intro good t
  let s1 := modFacet s p fun f => { f with train := cycTaken f.train good cyc }
  have hs1 : getFacet s1 p = { getFacet s p with train := cycTaken (getFacet s p).train good cyc } := getFacet_modFacet ..
  rcases hup with hsync | hrun
  · have ht : t = _ := cycReceive_sync hsync cyc arrived
    by_cases htwo : 2 ≤ (cycTaken (getFacet s p).train good cyc).good
    · rw [if_pos htwo] at ht
      obtain ⟨honly, hfacet⟩ := enterRun_plain (s := s1) (p := p) (by rw [hs1, hsync]; decide)
      rw [ht, hfacet, honly.ent, hs1]
      refine ⟨?_, rfl, .inr rfl, rfl, fun _ _ => rfl⟩
      rw [honly.frame]
      rfl
    · rw [if_neg htwo] at ht
      rw [ht, hs1]
      exact ⟨rfl, rfl, .inl hsync, rfl, fun _ h => absurd h htwo⟩
  · have ht : t = _ := cycReceive_run hrun cyc arrived
    rw [ht]
    refine ⟨?_, ?_, .inr ?_, ?_, fun h => absurd (hrun.symm.trans h) (by decide)⟩
    case refine_3 => exact ((SteadyBut.ite (P := fun _ => False) (.setFevt ..) (.refl s1)).link p id).trans (by rw [hs1]; exact hrun)
    case refine_4 => rw [(LaneKept.ite (.setFevt ..) (.refl s1)).train p, hs1]; rfl
    all_goals
      split
      · rw [(FacetOnly.setFevt ..).frame]; rfl
      · rfl

section Reception

variable (hp : p < nFacets s) (hether : isEther s p = false) (cyc ts arrived : Nat)
include hp hether

omit hp hether in
theorem cycReception_down (h2 : (getFacet s p).state ≠ 2) (h3 : (getFacet s p).state ≠ 3) : exec (.cycReception p cyc ts arrived) s = .next s := by
  have hdown : linkUp (getFacet s p) = false := by simp [linkUp, h2, h3]
  show execCycReception p cyc ts arrived s = _
  simp only [execCycReception, hdown, Bool.false_eq_true, false_and, and_false, if_false]

theorem exec_cycReception (hup : (getFacet s p).state = 2 ∨ (getFacet s p).state = 3) : exec (.cycReception p cyc ts arrived) s = .next (
    if timeSource s = 3 ∧ facetRole s p = 6 ∧ (getFacet s p).train.peer ≠ 0xFF#8 ∧ relayTail s p = true then
      measureOffset (cycReceive s p cyc arrived) 3 ((arrived : Int) - ts - (getFacet s p).train.delay)
    else cycReceive s p cyc arrived) := by
  have hlink : linkUp (getFacet s p) = true := by simpa [linkUp] using hup
  show execCycReception p cyc ts arrived s = _
  simp only [execCycReception, cycSupervise, hp, hlink, hether, Bool.not_false, Bool.and_self, if_true, true_and, and_self]

theorem cycReception_any (hup : (getFacet s p).state = 2 ∨ (getFacet s p).state = 3) :
    let f := getFacet s p
    let good := cycGood f.active f.train.delay cyc arrived
    ∃ t, exec (.cycReception p cyc ts arrived) s = .next t ∧ (getFacet t p).train.lastCyc = (if good then some cyc else none) ∧
      (f.state = 2 → good = true → f.train.good = 1 → (∃ c, f.train.lastCyc = some c ∧ cyc = (c + 1) % 2 ^ 32) → (getFacet t p).state = 3) ∧
      (timeSource s = 3 → facetRole s p = 6 → f.train.peer ≠ 0xFF#8 → relayTail s p = true →
        t.clock.off = max (-2147483648) (min ((arrived : Int) - ts - f.train.delay) 2147483647)) := by
  intro f good
  obtain ⟨hpart, hent, hstill, hlast, hentered⟩ := cycReceive_keeps hup cyc arrived
  have hexec := exec_cycReception hp hether cyc ts arrived hup
  have hsecond : f.state = 2 → good = true → f.train.good = 1 → (∃ c, f.train.lastCyc = some c ∧ cyc = (c + 1) % 2 ^ 32) →
      (getFacet (cycReceive s p cyc arrived) p).state = 3 := fun hsync hgood hone ⟨c, hc, hcyc⟩ => hentered hsync (by
    have hgood' : cycGood (getFacet s p).active (getFacet s p).train.delay cyc arrived = true := hgood
    simp only [cycTaken, hgood', if_true, goodInRow, show (getFacet s p).train.lastCyc = some c from hc, if_pos hcyc, show (getFacet s p).train.good = 1 from hone]
    exact Nat.le_refl 2)
  by_cases hdisc : timeSource s = 3 ∧ facetRole s p = 6 ∧ (getFacet s p).train.peer ≠ 0xFF#8 ∧ relayTail s p = true
  · rw [if_pos hdisc] at hexec
    have hrole : facetRole (cycReceive s p cyc arrived) p = 6 := by rw [facetRole, cfg, ent, hent]; exact hdisc.2.1
    obtain ⟨hfacets, hoff⟩ := measureOffset_running (linksRun_of_relay (by rw [hpart]; exact hp) hrole hstill) 3 ((arrived : Int) - ts - (getFacet s p).train.delay)
    refine ⟨_, hexec, ?_, ?_, fun _ _ _ _ => hoff⟩ <;> rw [getFacet_of_facets hfacets]
    · exact hlast
    · exact hsecond
  · rw [if_neg hdisc] at hexec
    exact ⟨_, hexec, hlast, hsecond, fun h1 h2 h3 h4 => absurd ⟨h1, h2, h3, h4⟩ hdisc⟩

/-- A facet whose CYCs discipline nothing only judges them. -/
theorem exec_cycReception_undisciplined (hdisc : timeSource s ≠ 3 ∨ facetRole s p ≠ 6) (hup : (getFacet s p).state = 2 ∨ (getFacet s p).state = 3) :
    exec (.cycReception p cyc ts arrived) s = .next (cycReceive s p cyc arrived) :=
  (exec_cycReception hp hether cyc ts arrived hup).trans (by rw [if_neg fun ⟨hsource, hrole, _⟩ => hdisc.elim (· hsource) (· hrole)])

end Reception

end Cyc

end Sys2Proof.Machine

/-! SUPPORT. Signal and synchronisation of a lane, lost and found, and the attempts at training (R232, R236, R247, R248, R250, R261). -/

namespace Sys2Proof.Machine

section Loss

variable {s : State} {p : Nat}

/-- Training begun again in another link state: of the facet's lane only its training is new. -/
theorem startTraining_of_kept {t : State} (h : LaneKept s t) (st : Nat) :
    let u := startTraining (setLinkState t p st) p
    (getFacet u p).state = st ∧ (laneView (getFacet u p)).2 = (laneView (getFacet s p)).2 := by
  dsimp only
  rw [startTraining_eq, getFacet_modFacet]
  have hview := (h.trans (.setLinkState t p st)).facet p
  exact ⟨setLinkState_state .., show (laneView (getFacet (setLinkState t p st) p)).2 = _ from congrArg Prod.snd hview⟩

/-- The state a link goes to as it loses its signal or synchronisation. -/
def lossGoes (s : State) (p : Nat) : Nat :=
  if (getFacet s p).state = 3 then (if isEther s p then 1 else 4) else (getFacet s p).state

/-- Whatever was under way, the link goes there, and what is seen of the signal and the errors stands. -/
theorem lostSync_goes (s : State) (p : Nat) :
    (getFacet (lostSync s p) p).state = lossGoes s p ∧ (laneView (getFacet (lostSync s p) p)).2 = (laneView (getFacet s p)).2 := by
  have hdropped : LaneKept s (deferAll (dropRx s p) p) := (LaneKept.dropRx ..).trans (.deferAll ..)
  unfold lossGoes lostSync
  dsimp only
  by_cases hrun : (getFacet s p).state = 3
  · simp only [hrun, if_true]
    split
    · exact startTraining_of_kept hdropped 1
    · refine startTraining_of_kept (hdropped.trans (.modFacet _ p ?_)) 4
      exact fun _ => rfl
  · simp only [hrun, if_false]
    split_ifs
    · exact ⟨rfl, rfl⟩
    · rw [getFacet_modFacet]
      exact ⟨rfl, rfl⟩
    · rw [getFacet_modFacet]
      exact ⟨rfl, rfl⟩
    · exact ⟨rfl, rfl⟩

/-- What a lost signal makes of a Beam link's facet. -/
structure LinkLost (tb : Nat) (f x : Facet) : Prop where
  trains : f.state = 1 ∨ f.state = 4 → x = { f with train := { f.train with echoes := 0, sum := 0 } }
  sync : f.state = 2 → x = { f with train := { f.train with good := 0, lastCyc := none } }
  run : f.state = 3 → Calm f → x.state = 4 ∧ x.train = restarted f.train tb ∧ x.fevt = f.fevt ||| 0x100#16 ∧ x.queue = f.queue

/-- From RUN with nothing under way the link goes to RETRAIN. -/
theorem retrain_calm (hrun : (getFacet s p).state = 3) (hcalm : Calm (getFacet s p)) :
    FacetOnly p s (retrain s p) ∧ (let x := getFacet (retrain s p) p
      x.state = 4 ∧ x.train = restarted (getFacet s p).train s.tb ∧ x.fevt = (getFacet s p).fevt ||| 0x100#16 ∧ x.queue = (getFacet s p).queue) := by
  have hidle : unfinished (getFacet (dropRx s p) p) = [] := by
    rw [dropRx_idle hcalm.look, getFacet_modFacet]
    simp [unfinished, lanesOf, hcalm.lane, hcalm.back, hcalm.await, hcalm.retry]
  let s1 := modFacet (deferAll (dropRx s p) p) p fun f => { f with acks := [], ackOut := [] }
  have hfacet : getFacet s1 p = { getFacet s p with
      look := none, await := [], retry := [], lane := keepUnscheduled (getFacet s p).lane, back := keepUnscheduled (getFacet s p).back
      acks := [], ackOut := [] } := by
    rw [getFacet_modFacet, deferAll_idle hidle, dropRx_idle hcalm.look, getFacet_modFacet, getFacet_modFacet]
  have honly : FacetOnly p s s1 := by
    refine .trans ?_ (.modFacet ..)
    rw [deferAll_idle hidle, dropRx_idle hcalm.look]
    exact (FacetOnly.modFacet ..).trans (.modFacet ..)
  have heq : retrain s p = startTraining (setLinkState s1 p 4) p := rfl
  have hlink := getFacet_setLinkState (s := s1) (p := p) (st := 4) (by rw [hfacet, hrun]; decide)
  have htb : (setLinkState s1 p 4).tb = s.tb := (honly.trans (.setLinkState ..)).tb
  rw [heq, startTraining_eq, htb, getFacet_modFacet, hlink, hfacet]
  exact ⟨(honly.trans (.setLinkState ..)).trans (.modFacet ..), rfl, rfl, rfl, rfl⟩

theorem lostSync_beam (hether : isEther s p = false)
    (h : ((getFacet s p).state = 1 ∨ (getFacet s p).state = 4) ∨ (getFacet s p).state = 2 ∨ ((getFacet s p).state = 3 ∧ Calm (getFacet s p))) :
    FacetOnly p s (lostSync s p) ∧ LinkLost s.tb (getFacet s p) (getFacet (lostSync s p) p) := by
  rcases h with htrains | hsync | ⟨hrun, hcalm⟩
  · have h2 : (getFacet s p).state ≠ 2 := by omega
    have h3 : (getFacet s p).state ≠ 3 := by omega
    have ht : training (getFacet s p) = true := by simpa [training] using htrains
    have heq : lostSync s p = modFacet s p fun f => { f with train := { f.train with echoes := 0, sum := 0 } } := by
      simp only [lostSync, hether, Bool.false_eq_true, if_false, h3, h2, ht, if_true]
    rw [heq]
    exact ⟨.modFacet .., fun _ => getFacet_modFacet .., fun hc => absurd hc h2, fun hc => absurd hc h3⟩
  · have heq : lostSync s p = modFacet s p fun f => { f with train := { f.train with good := 0, lastCyc := none } } := by
      simp [lostSync, hether, hsync]
    rw [heq]
    exact ⟨.modFacet .., fun hc => by omega, fun _ => getFacet_modFacet .., fun hc => by omega⟩
  · have heq : lostSync s p = retrain s p := by
      simp only [lostSync, hether, Bool.false_eq_true, if_false, hrun, if_true]
    obtain ⟨honly, hlost⟩ := retrain_calm hrun hcalm
    rw [heq]
    exact ⟨honly, fun hc => by omega, fun hc => by omega, fun _ _ => hlost⟩

/-- Four code violations are counted of a Beam link, and one loss of an Ethernet one. -/
def lossErrors (s : State) (p : Nat) : Nat := if isEther s p then 1 else 4

/-- The facet with the loss of synchronisation counted at :09 and in its error window. -/
def lossCounted (s : State) (p : Nat) : State :=
  modFacet (countFacetBy s p 9 (lossErrors s p)) p fun f => { f with winErrs := f.winErrs + lossErrors s p }

theorem getFacet_lossCounted (s : State) (p : Nat) :
    getFacet (lossCounted s p) p = { getFacet s p with winErrs := (getFacet s p).winErrs + lossErrors s p } := by
  rw [lossCounted, getFacet_modFacet, getFacet_of_facets (facets_countFacetBy ..)]

theorem lossCounted_counts (s : State) (p : Nat) : FacetCounts p s (lossCounted s p) :=
  (FacetCounts.countFacetBy s p (by decide) _).trans (.of_only (.modFacet ..))

theorem isEther_lossCounted (s : State) (p : Nat) : isEther (lossCounted s p) p = isEther s p := by
  unfold isEther facetRole cfg
  rw [(lossCounted_counts s p).entries _ _ (by omega) (by decide)]

theorem ent_setEnt_key (s : State) {i j a b : Nat} (v : Nat) (h : entKey i j ≠ entKey a b) : ent (setEnt s a b v) i j = ent s i j :=
  Tab.get_put_ne _ h ..

section Exec

variable (hp : p < nFacets s) (hup : (getFacet s p).state ≠ 0 ∧ (getFacet s p).state ≠ 5) (hmirror : isMirror s p = false)
include hp hup hmirror

theorem exec_lossOfSignal (hsignal : (getFacet s p).signal = true) :
    exec (.lossOfSignal p) s = .next (lostSync (setFacet s p { getFacet s p with signal := false, lostAt := some s.tb }) p) := by
  show execLossOfSignal p s = _
  simp only [execLossOfSignal, loseSignal, hp, hsignal, hup, hmirror, Bool.false_eq_true, not_false_eq_true, and_self, if_true, ne_eq]
  rfl

theorem exec_lossOfSynchronisation : exec (.lossOfSynchronisation p) s = .next (lostSync (lossCounted s p) p) := by
  show execLossOfSynchronisation p s = _
  simp only [execLossOfSynchronisation, hp, hup, hmirror, Bool.false_eq_true, not_false_eq_true, and_self, if_true, ne_eq]
  rfl

end Exec

/-- A mirror's lane, a facet in OFF or retired and one that is not there have no signal to lose. -/
theorem exec_loss_ignored (h : nFacets s ≤ p ∨ (getFacet s p).state = 0 ∨ (getFacet s p).state = 5 ∨ isMirror s p = true) :
    exec (.lossOfSignal p) s = .next s ∧ exec (.lossOfSynchronisation p) s = .next s := by
  constructor
  · show execLossOfSignal p s = _
    unfold execLossOfSignal loseSignal
    dsimp only
    split
    · rw [if_neg]
      rintro ⟨-, h0, h5, hm⟩
      rcases h with h | h | h | h
      · omega
      · exact h0 h
      · exact h5 h
      · exact hm h
    · rfl
  · refine if_neg ?_
    rintro ⟨hp, h0, h5, hm⟩
    rcases h with h | h | h | h
    · omega
    · exact h0 h
    · exact h5 h
    · exact hm h

end Loss

end Sys2Proof.Machine

/-! SUPPORT. Signal, ring and Ethernet link as they come up, attempts at training that end, and O44 (R232, R247, R248, R250, R261, R461). -/

namespace Sys2Proof.Machine

section Found

variable {s : State} {p : Nat}

theorem exec_signalDetectReturn (hp : p < nFacets s) (hballs : ballsDriven s = false) :
    exec (.signalDetectReturn p) s = .next (setFacet s p { getFacet s p with signal := true, lostAt := none }) := by
  show execSignalDetectReturn p s = _
  simp only [execSignalDetectReturn, hp, hballs, Bool.not_false, and_self, if_true]
  rfl

theorem exec_ringReload (hreload : (getFacet s p).reload = true) (hfree : ∀ e ∈ (getFacet s p).bufs, e.2 = .free) :
    exec (.ringReload p) s = .next (setFacet s p { getFacet s p with
      ringBase := ent s (0x3000 + p) 0x0C, ringN := ent s (0x3000 + p) 0x0D, bufs := [], nextBuf := 0, reload := false }) := by
  have hempty : ringEmpty (getFacet s p) = true := by
    simpa [ringEmpty] using fun a b hab => hfree (a, b) hab
  show execRingReload p s = _
  simp only [execRingReload, hreload, hempty, Bool.and_self, if_true]
  rfl

/-- A facet of an Ethernet link that starts its cycles. -/
def etherStarted (s : State) (p : Nat) : State :=
  modFacet s p fun f => { f with cyc := cycleNo f.active s.tb, prep := cycleNo f.active s.tb, opened := [], carried := [] }

/-- From TRAIN the facet enters RUN at the cycle in hand. -/
theorem enterRun_etherStarted (htrain : (getFacet s p).state = 1) :
    FacetOnly p s (enterRun (etherStarted s p) p) ∧ (let g := getFacet (enterRun (etherStarted s p) p) p
      g.state = 3 ∧ g.train.reached = true ∧ g.cyc = cycleNo (getFacet s p).active s.tb ∧ g.queue = (getFacet s p).queue) := by
  have hfacet : getFacet (etherStarted s p) p = _ := getFacet_modFacet ..
  obtain ⟨honly, hrun⟩ := enterRun_plain (s := etherStarted s p) (p := p) (by rw [hfacet, htrain]; decide)
  rw [hrun, hfacet]
  exact ⟨(FacetOnly.modFacet ..).trans honly, rfl, rfl, rfl, rfl⟩

section Ether

variable (hp : p < nFacets s) (hether : isEther s p = true) (htrain : (getFacet s p).state = 1) (hsignal : (getFacet s p).signal = true)
include hp hether htrain hsignal

theorem exec_ethernetLinkUp (h : negotiates s p = true → Config.partnerFd s.free p = true) :
    exec (.ethernetLinkUp p) s = .next (enterRun (etherStarted (if negotiates s p then { s with free := s.free + 1 } else s) p) p) := by
  have hfd : ¬ (negotiates s p = true ∧ Config.partnerFd s.free p = false) := fun ⟨hn, hf⟩ => by
    rw [h hn] at hf
    cases hf
  show execEthernetLinkUp p s = _
  simp only [execEthernetLinkUp, hp, hether, htrain, hsignal, and_self, if_true, if_neg hfd]
  rfl

theorem exec_ethernetLinkUp_refused (hneg : negotiates s p = true) (hfd : Config.partnerFd s.free p = false) (hretired : (getFacet s p).retired = false) :
    exec (.ethernetLinkUp p) s = .next (bumpEnt { s with free := s.free + 1 } (0x3100 + p) 0x15) := by
  have hcount : countFacet { s with free := s.free + 1 } p 0x15 = bumpEnt { s with free := s.free + 1 } (0x3100 + p) 0x15 :=
    if_neg (show ¬ (getFacet s p).retired = true by rw [hretired]; decide)
  show execEthernetLinkUp p s = _
  simp only [execEthernetLinkUp, hp, hether, htrain, hsignal, and_self, if_true, hneg, hfd, hcount]

end Ether

/-- A lane's hold of 10 ms after a REVGAP error has ended. -/
theorem trainingTimeout_held (hp : p < nFacets s) (ht : (getFacet s p).state = 1 ∨ (getFacet s p).state = 4) (hheld : (getFacet s p).train.holdTo ≠ 0)
    (hdue : (getFacet s p).train.holdTo ≤ s.tb) : exec (.trainingTimeout p) s = .next (startTraining s p) := by
  have htrains : training (getFacet s p) = true := by simpa [training] using ht
  show execTrainingTimeout p s = _
  simp only [execTrainingTimeout, hp, htrains, and_self, if_true, hheld, ne_eq, not_false_eq_true, hdue]

/-- An attempt that fails before RUN was reached is not counted. -/
theorem failedAttempt_uncounted (hr : (getFacet s p).train.reached = false) : failedAttempt s p = startTraining s p := by
  simp only [failedAttempt, hr, Bool.not_false, if_true]

end Found

/-- SYNC entered once training `x` has left its mark on the facet. -/
theorem enterSync_trained {s : State} {p : Nat} (hstate : (getFacet s p).state ≠ 2) (x : Training) (o : Option TrnSet) :
    let f := getFacet s p
    let due := tableDue f (cycleNo f.active s.tb)
    due = none ∨ (f.deferred = [] ∧ f.standsFor = none) →
      let t := enterSync (setFacet s p { f with train := x, trnOut := o }) p
      FacetOnly p s t ∧ (let g := getFacet t p
        (g.state = 2 ∧ g.train.delay = x.delay ∧ g.active = due.getD f.active ∧ g.cyc = cycleNo g.active s.tb ∧
          g.fevt = f.fevt ||| (if due = none then 0x100#16 else 0x1100#16) ∧ g.queue = f.queue) ∧
        g.trnOut = o ∧ g.train.ready = x.ready) := by
  intro f due h t
  let s1 := setFacet s p { f with train := x, trnOut := o }
  have hget : getFacet s1 p = { f with train := x, trnOut := o } := getFacet_setFacet ..
  have hplain := enterSync_plain (s := s1) (p := p) (by rw [hget]; exact hstate)
  obtain ⟨hsync, htrain⟩ := enterSync_reached s1 p
  rw [hget] at hplain htrain
  obtain ⟨honly, hactive, hcyc, hfevt, hqueue, htrn⟩ := hplain h
  exact ⟨(FacetOnly.setFacet ..).trans honly, ⟨hsync, by rw [htrain]; rfl, hactive, hcyc, hfevt, hqueue⟩, htrn, by rw [htrain]; rfl⟩

/-- Settles O44: one lemma above for each command, put together. -/
theorem facetTrainingAndSync : Obligations.FacetTrainingAndSync := by
  unfold Obligations.FacetTrainingAndSync
  intro s p f only sets again trains now tableFits entered
  refine ⟨fun hmay => ⟨fun hhead hdue => trnProbe_due hmay hhead hdue, fun htail pos ts hts => ?probe, fun hhead pos sent arrived => ?echo,
      fun htail hsame d => ?readySame, fun htail hfar d => ?readyAny, fun htail hfar hfits d => ?ready⟩,
    fun hp hether cyc ts arrived => ⟨cycReception_down cyc ts arrived, cycReception_any hp hether cyc ts arrived⟩,
    fun hp hether hdisc cyc ts arrived => ?cyc, fun hmirror => exec_loss_ignored (.inr (.inr (.inr hmirror))),
    fun hp h0 h5 hmirror => ⟨fun hsignal => ?signalGoes, ?syncGoes⟩,
    fun h => exec_loss_ignored (h.imp id (Or.imp id .inl)),
    fun hp h0 h5 hether hmirror => ?beam, fun hp hballs => exec_signalDetectReturn hp hballs, fun hp hether htrain hsignal => ?etherUp,
    fun hreload hfree => exec_ringReload hreload hfree, fun hp ht hold hlong => ⟨fun hr => ?uncounted, fun hr hfew => ?counted⟩,
    fun hp ht hheld hdue => trainingTimeout_held hp ht hheld hdue⟩
  case probe =>
    refine ⟨fun h6 => ?_, fun h6 hchain => ?_, fun h6 hchain => ?_⟩
    · exact (exec_trnProbeReception hmay htail hts).trans (congrArg _ (takePeer_unread (s := sendTrn s p 1 ts (s.tb + 64)) h6))
    · refine (exec_trnProbeReception hmay htail hts).trans (congrArg _ ?_)
      rw [takePeer_read (s := sendTrn s p 1 ts (s.tb + 64)) h6 hchain, sendTrn, modFacet_modFacet]
      rfl
    · obtain ⟨t, hexec, honly, hfacet⟩ := trnProbeReception_equal hmay htail hts h6 hchain
      exact ⟨t, hexec, honly.frame, honly.others, hfacet⟩
  case echo =>
    intro sum d h same
    have hstate := not_synced_of_mayTrain hmay
    refine ⟨fun hsame => ?_, fun hne hfew => ?_, fun hne hechoes hfit => ⟨_, trnEchoReception_last hmay hhead sent arrived hne hechoes hfit, ?_⟩,
      fun hne hechoes hlate => ?_, fun hne hechoes hfit hfits => ?_⟩
    · obtain ⟨t, hexec, honly, hfacet⟩ := trnEchoReception_equal hmay hhead pos sent arrived hsame.1 hsame.2
      exact ⟨t, hexec, honly.frame, honly.others, hfacet⟩
    · exact (trnEchoReception_eq hmay hhead sent arrived hne).trans (by rw [if_pos (Nat.succ_lt_succ hfew)]; rfl)
    · rw [(enterSync_reached ..).2, getFacet_setFacet]
      exact ⟨(enterSync_reached ..).1, rfl, rfl⟩
    · have honly := (FacetOnly.setFacet s p { h with train := { (measured h d).train with holdTo := s.tb + 10000000 } }).trans (.setFevt _ p (fevtBit 13))
      refine ⟨_, trnEchoReception_late hmay hhead sent arrived hne hechoes hlate, honly.frame, honly.others, ?_⟩
      rw [getFacet_setFevt, getFacet_setFacet, show (peerTaken s p pos).fevt = f.fevt by rw [peerTaken_eq]]
      rfl
    · obtain ⟨honly, hentered, htrn, hrdy⟩ := enterSync_trained hstate { (measured h d).train with ready := true }
        (some { type := 2, pos := trnPos s p, value := d, leave := s.tb }) hfits
      exact ⟨_, trnEchoReception_last hmay hhead sent arrived hne hechoes hfit, honly.frame, honly.others, hentered, htrn, hrdy⟩
  case readySame => exact (exec_trnReadyReception hmay htail d).trans (by rw [hsame]; rfl)
  case readyAny =>
    refine ⟨_, (exec_trnReadyReception hmay htail d).trans (by rw [hfar]; rfl), (enterSync_reached ..).1, ?_⟩
    rw [(enterSync_reached ..).2, getFacet_modFacet]
    rfl
  case ready =>
    obtain ⟨honly, hentered, htrn, -⟩ := enterSync_trained (not_synced_of_mayTrain hmay) { f.train with delay := d } f.trnOut hfits
    exact ⟨_, (exec_trnReadyReception hmay htail d).trans (by rw [hfar]; rfl), honly.frame, honly.others, hentered, htrn⟩
  case cyc =>
    intro good row
    have hrow : row = goodInRow f.train cyc := by
      unfold goodInRow
      rfl
    let s1 := setFacet s p { f with train := cycTaken f.train good cyc }
    have hs1 : getFacet s1 p = { f with train := cycTaken f.train good cyc } := getFacet_setFacet ..
    have hsync : f.state = 2 → exec (.cycReception p cyc ts arrived) s =
        .next (if 2 ≤ (if good then row else 0) then enterRun s1 p else s1) := fun h2 =>
      (exec_cycReception_undisciplined hp hether cyc ts arrived hdisc (.inl h2)).trans (by rw [cycReceive_sync h2, hrow]; rfl)
    refine ⟨fun h2 hgood htwo => ?_, fun h2 hgood hone => ?_, fun h2 hbad => ?_, fun h3 hstands hbad htail => ?_⟩
    · obtain ⟨honly, hfacet⟩ := enterRun_plain (s := s1) (p := p) (by rw [hs1]; exact fun h => by cases h2.symm.trans h)
      refine ⟨_, (hsync h2).trans (by rw [hgood, if_pos rfl, if_pos htwo]), ((FacetOnly.setFacet ..).trans honly).frame, ((FacetOnly.setFacet ..).trans honly).others, ?_⟩
      rw [hfacet, hs1]
      exact ⟨rfl, rfl, rfl, rfl, rfl⟩
    · refine (hsync h2).trans ?_
      rw [hgood, if_pos rfl, if_neg (Nat.not_le.2 hone)]
      simp only [s1, cycTaken, hgood, if_true, hrow]
    · refine (hsync h2).trans ?_
      rw [hbad, if_neg Bool.false_ne_true, if_neg (by decide)]
      simp only [s1, cycTaken, hbad, Bool.false_eq_true, if_false]
    · obtain ⟨honly, hfacet⟩ := cycReceive_bad h3 hstands htail hbad
      exact ⟨_, exec_cycReception_undisciplined hp hether cyc ts arrived hdisc (.inr h3), honly.frame, honly.others, hfacet⟩
  case signalGoes =>
    obtain ⟨hstate, hview⟩ := lostSync_goes (setFacet s p { f with signal := false, lostAt := some s.tb }) p
    refine ⟨_, exec_lossOfSignal hp ⟨h0, h5⟩ hmirror hsignal, ?_, ?_, ?_⟩
    · exact (congrArg Prod.fst hview).trans (by rw [getFacet_setFacet]; rfl)
    · exact (congrArg (fun v => v.2.1) hview).trans (by rw [getFacet_setFacet])
    · rw [hstate, lossGoes, getFacet_setFacet]
      rfl
  case syncGoes =>
    obtain ⟨hstate, hview⟩ := lostSync_goes (lossCounted s p) p
    refine ⟨_, exec_lossOfSynchronisation hp ⟨h0, h5⟩ hmirror, ?_, ?_⟩
    · rw [hstate, lossGoes, getFacet_lossCounted, isEther_lossCounted]
    · exact (congrArg (fun v => v.2.2) hview).trans (by rw [getFacet_lossCounted])
  case beam =>
    intro calm lost hlive
    have hready : ∀ {t : State} (g : Facet), isEther t p = false → getFacet t p = g → g.state = f.state → (Calm f → Calm g) →
        FacetOnly p t (lostSync t p) ∧ LinkLost t.tb g (getFacet (lostSync t p) p) := fun {t} g het hg hst hc => by
      rw [← hg]
      refine lostSync_beam het ?_
      rw [hg, hst]
      exact hlive.imp id (Or.imp id fun ⟨h3, hlook, hlane, hback, hawait, hretry⟩ => ⟨h3, hc ⟨hlook, hlane, hback, hawait, hretry⟩⟩)
    refine ⟨fun hsignal => ?_, fun hretired => ?_⟩
    · let g : Facet := { f with signal := false, lostAt := some s.tb }
      obtain ⟨honly, hlost⟩ := hready (t := setFacet s p g) g hether (getFacet_setFacet ..) rfl fun hc => ⟨hc.look, hc.lane, hc.back, hc.await, hc.retry⟩
      have hview := (lostSync_goes (setFacet s p g) p).2
      rw [getFacet_setFacet] at hview
      exact ⟨_, exec_lossOfSignal hp ⟨h0, h5⟩ hmirror hsignal, ((FacetOnly.setFacet ..).trans honly).frame, ((FacetOnly.setFacet ..).trans honly).others,
        congrArg Prod.fst hview, congrArg (fun v => v.2.1) hview, hlost.trains, hlost.sync,
        fun h3 ⟨hlook, hlane, hback, hawait, hretry⟩ => hlost.run h3 ⟨hlook, hlane, hback, hawait, hretry⟩⟩
    · have hcounts := lossCounted_counts s p
      let g : Facet := { f with winErrs := f.winErrs + 4 }
      have hg : getFacet (lossCounted s p) p = g := by rw [getFacet_lossCounted, lossErrors, hether]; rfl
      have htb : (lossCounted s p).tb = s.tb := by rw [hcounts.frame]
      obtain ⟨honly, hlost⟩ := hready g (by rw [isEther_lossCounted, hether]) hg rfl fun hc => ⟨hc.look, hc.lane, hc.back, hc.await, hc.retry⟩
      have hall := hcounts.trans (.of_only honly)
      have hview := (lostSync_goes (lossCounted s p) p).2
      have hent : (lostSync (lossCounted s p) p).ent = (setEnt s (0x3100 + p) 9 (min 0xFFFFFFFF (ent s (0x3100 + p) 9 + 4))).ent := by
        rw [honly.ent, lossCounted, lossErrors, countFacetBy, hretired, hether]
        rfl
      rw [hg] at hview
      rw [htb] at hlost
      exact ⟨_, exec_lossOfSynchronisation hp ⟨h0, h5⟩ hmirror, hall.frame, hall.others, congrArg (fun v => v.2.2) hview,
        ⟨hlost.trains, hlost.sync, fun h3 ⟨hlook, hlane, hback, hawait, hretry⟩ => hlost.run h3 ⟨hlook, hlane, hback, hawait, hretry⟩⟩,
        by rw [ent, hent]; exact ent_setEnt .., fun i j h => by rw [ent, hent]; exact ent_setEnt_key s _ h⟩
  case etherUp =>
    refine ⟨fun hneg => ?_, fun hneg hfd => ?_, fun hneg hfd hretired => ?_⟩
    · obtain ⟨honly, hup⟩ := enterRun_etherStarted htrain
      exact ⟨_, (exec_ethernetLinkUp hp hether htrain hsignal fun h => by rw [hneg] at h; cases h).trans (by rw [hneg]; rfl), honly.frame, honly.others, hup⟩
    · obtain ⟨honly, hup⟩ := enterRun_etherStarted (s := { s with free := s.free + 1 }) htrain
      exact ⟨_, (exec_ethernetLinkUp hp hether htrain hsignal fun _ => hfd).trans (by rw [hneg]; rfl), honly.frame, honly.others, hup⟩
    · exact ⟨_, exec_ethernetLinkUp_refused hp hether htrain hsignal hneg hfd hretired, rfl, ent_setEnt .., fun i j h => ent_setEnt_key _ _ h⟩
  case uncounted => exact (trainingTimeout_failed hp ht hold hlong).trans (congrArg _ (failedAttempt_uncounted hr))
  case counted =>
    refine ⟨attemptFailed s p, (trainingTimeout_failed hp ht hold hlong).trans ?_, rfl, fun q hq => getFacet_modFacet_ne s hq _, getFacet_modFacet ..⟩
    rw [failedAttempt_counted hr, if_neg fun h => Nat.not_le.2 (Nat.succ_lt_succ hfew) h.1]

end Sys2Proof.Machine

/-! SUPPORT. A frame over a window whose shadow runs on into beam SRAM: the start of the frame, which ends the loan, changes a beam (R186, R211). -/

namespace Sys2Proof.Machine

/-- An unscheduled frame of 8 octets at the last window of bank 3 of cluster 31. -/
def windowFrame : TxDesc :=
  { id := 0, face := 0, got := 8, poster := .staging 0, addr := 0x02FFFF00, len := 8, slot := 0x1FF, tsreq := false, onestep := false, tag := none,
    cookie := 0, held := false, defers := 0, tries := 0, sent := false, cyc := 0, seq := 0 }

/-- The words of the shadow before its last one: as many as lie between that window and the first word of beam SRAM. -/
def shadowHead : List (BitVec 64 × Nat) := List.replicate 2097184 (0#64, 0)

/-- The window is on loan, and the shadow's last word, of beam SRAM, is an uncorrectable one. -/
def overlongLoan : Loan := { win := 1023, shadow := shadowHead ++ [(0#64, 2)] }

/-- Facet 0 is in RUN with the frame queued, 1 µs into its cycle. -/
def overlongState : State :=
  modFacet (modBank { State.reset with tb := 1000 } 31 3 fun b => { b with loan := some overlongLoan }) 0 fun f => { f with state := 3, queue := [windowFrame] }

/-- The same with the frame taken from the queue. -/
def overlongTaken : State := dequeue overlongState 0 [0]

theorem length_shadowHead : shadowHead.length = 2097184 := by rw [shadowHead, List.length_replicate]

theorem exec_overlong : exec (.unscheduledFrameStart 0) overlongState = .next (startLane overlongTaken 0 windowFrame false false (tenths overlongTaken)) := by
  have hrun : (getFacet overlongState 0).state = 3 ∧ (getFacet overlongState 0).lane.isNone = true ∧ gapOver overlongState 0 = true := by decide +kernel
  have hanswers : (getFacet overlongState 0).answers = [] := by decide +kernel
  have hquiet : quiet overlongState 0 = false := by decide +kernel
  have hqueue : (getFacet overlongState 0).queue.length = 1 := by decide +kernel
  have hfirst : unscheduled (getFacet overlongState 0) = [windowFrame] := by decide +kernel
  have hever : everFits overlongState 0 windowFrame.len = true := by decide +kernel
  have hnow : fitsNow overlongState 0 windowFrame.len = true := by decide +kernel
  show execUnscheduledFrameStart 0 overlongState = _
  simp only [execUnscheduledFrameStart, hrun, hanswers, hquiet, hqueue, takeUnscheduled, hfirst, hever, hnow, and_self, if_true, Bool.false_eq_true,
    if_false, Bool.not_true]
  rfl

/-- The start of a frame that is no retry changes beams only as the loans it ends do. -/
theorem beams_startLane (s : State) (q : Nat) (d : TxDesc) (margin : Bool) (start : Nat) :
    (startLane s q d margin false start).beams = (endFrameLoans s d.addr d.len).beams := rfl

theorem endFrameLoans_word (s : State) {w : Nat} : endFrameLoans s (8 * w) 8 = endLoanAt s w := by
  have hw : 8 * w / 8 = w := by omega
  have h1 : ¬ 8 * (w + 1) < 8 * w + 8 := by omega
  have h2 : ¬ 8 * (w + 2) < 8 * w + 8 := by omega
  unfold endFrameLoans
  simp [List.range_succ, hw, h1, h2]

/-- A newly poisoned word of beam SRAM poisons its beam. -/
theorem poison_newPoison {s : State} {w q : Nat} (h : placeOf w = .beam q) : (getBeam (newPoison s w) ((8 * w - beamBase) / 64)).poison = true := by
  have hplace : (getBeam (reportPlace (setEcc s w 3) w (.beam q)) ((8 * w - beamBase) / 64)).poison = true := by
    unfold reportPlace
    dsimp only
    split
    · rw [getBeam_setBeam]
    · unfold setBeevt
      dsimp only
      split <;> exact congrArg BeamCtx.poison (getBeam_setBeam ..)
  rw [newPoison, h]
  exact hplace

/-- The last word of a shadow, found uncorrectable, is poisoned last. -/
theorem restoreWords_snoc (w0 : Nat) (l : List (BitVec 64 × Nat)) (v : BitVec 64) (s : State) :
    ∃ t, restoreWords w0 0 (l ++ [(v, 2)]) s = newPoison t (w0 + l.length) := by
  refine ⟨setEcc (setRawWord (restoreWords w0 0 l s) (w0 + l.length) v) (w0 + l.length) 0, ?_⟩
  rw [restoreWords, List.zipIdx_append, List.foldl_append, Nat.zero_add]
  rfl

theorem beams_modBank (s : State) (c k : Nat) (f : Bank → Bank) : (modBank s c k f).beams = s.beams := rfl

theorem loan_overlongTaken : (getBank overlongTaken 31 3).loan = some overlongLoan :=
  congrArg Bank.loan (getBank_modBank { State.reset with tb := 1000 } 31 3 fun b => { b with loan := some overlongLoan })

/-- The frame reads one word of the window. -/
theorem endFrameLoans_overlong : endFrameLoans overlongTaken windowFrame.addr windowFrame.len = restoreLoan overlongTaken 31 3 := by
  refine (endFrameLoans_word (w := 0x5FFFE0) overlongTaken).trans ?_
  simp only [endLoanAt, show bankAt (8 * 0x5FFFE0) = some (31, 3) by decide, loan_overlongTaken, overlongLoan, if_pos]

/-- The last of the restored words lies in beam SRAM. -/
theorem restoreLoan_overlong : ∃ t, (restoreLoan overlongTaken 31 3).beams = (newPoison t 0x800000).beams := by
  obtain ⟨t, ht⟩ := restoreWords_snoc (windowBase 31 3 1023) shadowHead 0#64 overlongTaken
  rw [length_shadowHead, show windowBase 31 3 1023 + 2097184 = 0x800000 by decide] at ht
  refine ⟨t, ?_⟩
  rw [restoreLoan_eq loan_overlongTaken, beams_modBank]
  simp only [overlongLoan, ht]

theorem poison_overlong : (getBeam (startLane overlongTaken 0 windowFrame false false (tenths overlongTaken)) 0).poison = true := by
  obtain ⟨t, ht⟩ := restoreLoan_overlong
  have hpoison := poison_newPoison (s := t) (w := 0x800000) (q := 0) (by decide)
  unfold getBeam at hpoison ⊢
  rw [beams_startLane, endFrameLoans_overlong, ht]
  exact hpoison

/-- Refutes O46: a frame that starts ends the loans of the words it reads, and nothing holds the shadow of a loan to its window. In `overlongState`
the restored words reach beam SRAM, where one found uncorrectable poisons beam 0, which the statement has stand. -/
theorem not_scheduleStartsFrames : ¬ Obligations.ScheduleStartsFrames := by
  unfold Obligations.ScheduleStartsFrames
  intro h
  obtain ⟨-, -, -, -, -, -, -, -, -, -, hstarts, -⟩ := h overlongState 0
  obtain ⟨-, hunscheduled⟩ := hstarts (by decide +kernel) (by decide +kernel) (by decide +kernel) (by decide +kernel)
  obtain ⟨hfits, -⟩ := hunscheduled windowFrame [] (by decide +kernel) (by decide +kernel) (by decide +kernel) (by decide +kernel) (by decide +kernel)
  obtain ⟨t, hexec, hframe, -⟩ := hfits (by decide +kernel)
  have hbeams : t.beams = overlongState.beams := by rw [hframe]
  have ht : t = _ := Host.Outcome.next.inj (hexec.symm.trans exec_overlong)
  have hclean : (getBeam overlongState 0).poison = false := by decide +kernel
  have hpoison := poison_overlong
  rw [← ht, getBeam, hbeams, ← getBeam, hclean] at hpoison
  cases hpoison

end Sys2Proof.Machine

/-! SUPPORT. What the checks of memory leave alone of the facets and their entries (R180, R183 to R187, R210, R225). -/

namespace Sys2Proof.Machine

/-- The facets and the objects from 0x3000 up stand, and so do the timebase and the numbering of descriptors. -/
structure FacetsStand (s t : State) : Prop where
  facets : t.facets = s.facets
  tb : t.tb = s.tb
  nextId : t.nextId = s.nextId
  entries : ∀ i j, 0x3000 ≤ i → j < 256 → ent t i j = ent s i j

namespace FacetsStand

variable {s t u : State}

theorem of_fields (hf : t.facets = s.facets) (htb : t.tb = s.tb) (hid : t.nextId = s.nextId) (hent : t.ent = s.ent) : FacetsStand s t :=
  ⟨hf, htb, hid, fun i j _ _ => by rw [ent, hent, ent]⟩

theorem refl (s : State) : FacetsStand s s := of_fields rfl rfl rfl rfl

theorem trans (h1 : FacetsStand s t) (h2 : FacetsStand t u) : FacetsStand s u :=
  ⟨h2.facets.trans h1.facets, h2.tb.trans h1.tb, h2.nextId.trans h1.nextId, fun i j hi hj => (h2.entries i j hi hj).trans (h1.entries i j hi hj)⟩

theorem ite {c : Prop} [Decidable c] (h1 : FacetsStand s t) (h2 : FacetsStand s u) : FacetsStand s (if c then t else u) := by split <;> assumption

theorem foldl {α : Type} {f : State → α → State} (h : ∀ t x, FacetsStand t (f t x)) (l : List α) (s : State) : FacetsStand s (l.foldl f s) :=
  foldl_rel refl trans h l s

/-! One named update. -/

theorem raise (s : State) (src : Nat) : FacetsStand s (raise s src) := of_fields rfl rfl rfl rfl
theorem setEcc (s : State) (w v : Nat) : FacetsStand s (setEcc s w v) := of_fields rfl rfl rfl rfl
theorem setRawWord (s : State) (w : Nat) (v : BitVec 64) : FacetsStand s (setRawWord s w v) := of_fields rfl rfl rfl rfl
theorem modCluster (s : State) (c : Nat) (f : Cluster → Cluster) : FacetsStand s (modCluster s c f) := of_fields rfl rfl rfl rfl
theorem modBank (s : State) (c k : Nat) (f : Bank → Bank) : FacetsStand s (modBank s c k f) := of_fields rfl rfl rfl rfl
theorem modQuad (s : State) (q : Nat) (f : Quad → Quad) : FacetsStand s (modQuad s q f) := of_fields rfl rfl rfl rfl
theorem setBeam (s : State) (b : Nat) (x : BeamCtx) : FacetsStand s (setBeam s b x) := of_fields rfl rfl rfl rfl

theorem bumpEnt (s : State) {i j : Nat} (hi : i < 0x3000) (hj : j < 256) : FacetsStand s (bumpEnt s i j) :=
  ⟨rfl, rfl, rfl, fun a b ha hb => ent_setEnt_ne s _ hb hj fun h => by
    obtain ⟨rfl, rfl⟩ := Prod.mk.inj h
    omega⟩

theorem logErr (s : State) (code origin : Nat) (data : Octets) : FacetsStand s (logErr s code origin data) :=
  .trans (t := { s with errs := ({ code, origin, time := s.tb, data } :: s.errs).take 64 }) (of_fields rfl rfl rfl rfl) (bumpEnt _ (by decide) (by decide))

theorem emergency (s : State) (code origin : Nat) (data : Octets) : FacetsStand s (emergency s code origin data) :=
  (logErr s code origin data).trans (.ite (of_fields rfl rfl rfl rfl) (bumpEnt _ (by decide) (by decide)))

theorem setClevt (s : State) (c : Nat) (mask : Word) : FacetsStand s (setClevt s c mask) := .ite (of_fields rfl rfl rfl rfl) (of_fields rfl rfl rfl rfl)

theorem setBeevt (s : State) (q bit i : Nat) : FacetsStand s (setBeevt s q bit i) := .ite (of_fields rfl rfl rfl rfl) (of_fields rfl rfl rfl rfl)

theorem setHistory (s : State) (p : Place) (h : List Corr) : FacetsStand s (setHistory s p h) := by
  cases p with
  | scratch n => exact .ite (of_fields rfl rfl rfl rfl) (modCluster ..)
  | _ => exact of_fields rfl rfl rfl rfl

/-! Checks and corrections of words (R180, R183, R184). -/

theorem reportPlace (s : State) (w : Nat) (p : Place) : FacetsStand s (reportPlace s w p) := by
  cases p with
  | bank c k => exact setClevt ..
  | beam q => exact .ite (setBeam ..) ((setBeam ..).trans (setBeevt ..))
  | xram c => exact setClevt ..
  | bits c => exact setClevt ..
  | scratch n => exact .ite (raise ..) (setClevt ..)
  | mgmt => exact raise ..
  | other => exact refl s

theorem newPoison (s : State) (w : Nat) : FacetsStand s (newPoison s w) :=
  (((setEcc s w 3).trans (reportPlace ..)).trans (logErr ..)).trans (bumpEnt _ (by decide) (by decide))

theorem permanentWord (s : State) (w : Nat) : FacetsStand s (permanentWord s w) := by
  unfold Machine.permanentWord
  split
  · exact .ite ((modBank ..).trans (setClevt ..)) (((modBank ..).trans (setClevt ..)).trans (emergency ..))
  · exact .ite (modQuad ..) (((modQuad ..).trans (setBeevt ..)).trans (emergency ..))
  · exact refl s
  · exact bumpEnt _ (by decide) (by decide)

theorem noteCorrection (s : State) (w : Nat) : FacetsStand s (noteCorrection s w) := by
  refine (bumpEnt s (i := 0x2400) (j := 6) (by decide) (by decide)).trans ?_
  unfold Machine.noteCorrection
  dsimp only
  split
  · exact .ite ((setHistory ..).trans (permanentWord ..)) (setHistory ..)
  · refine .ite (setHistory ..) ?_
    split
    · exact (setHistory ..).trans (modBank ..)
    · exact setHistory ..

theorem checkWord (s : State) (w : Nat) : FacetsStand s (checkWord s w).1 := by
  unfold Machine.checkWord
  split
  · exact refl s
  · exact (setEcc ..).trans (noteCorrection ..)
  · exact newPoison ..
  · exact refl s

theorem engineCheck (s : State) (b i : Nat) : FacetsStand s (engineCheck s b i).1 :=
  (checkWord s (beamWordNo b + i)).trans (.ite (.ite (refl _) ((setBeam ..).trans (setBeevt ..))) (refl _))

theorem engineMod (s : State) (b i : Nat) (g : BeamCtx → BeamCtx) : FacetsStand s (engineMod s b i g) := (engineCheck s b i).trans (setBeam ..)

/-! A read by the transmit DMA (R186, R254). -/

theorem restoreLoan (s : State) (c k : Nat) : FacetsStand s (restoreLoan s c k) := by
  unfold Machine.restoreLoan
  split
  · exact refl s
  · refine (foldl (fun t e => ?_) _ s).trans (modBank ..)
    exact .ite (((setRawWord ..).trans (setEcc ..)).trans (newPoison ..)) ((setRawWord ..).trans (setEcc ..))

theorem endLoanAt (s : State) (w : Nat) : FacetsStand s (endLoanAt s w) := by
  unfold Machine.endLoanAt
  split
  · exact refl s
  · split
    · exact refl s
    · exact .ite (restoreLoan ..) (refl s)

theorem portRead (s : State) (w : Nat) : FacetsStand s (portRead s w).1 := (endLoanAt s w).trans (checkWord ..)

theorem portReadBytes (f : Nat) (s : State) (a n : Nat) : FacetsStand s (portReadBytes f s a n).1 := by
  induction f generalizing s a n with
  | zero => exact refl s
  | succ f ih =>
    unfold Machine.portReadBytes
    split
    · exact refl s
    · exact (portRead s (a / 8)).trans (ih ..)

/-- A read as it ended. -/
theorem of_read {f a n : Nat} {bytes : Octets} {bad : Bool} (h : Machine.portReadBytes f s a n = (u, bytes, bad)) : FacetsStand s u := by
  have hread := portReadBytes f s a n
  rwa [h] at hread

/-! What facets and their entries give stands. -/

variable (h : FacetsStand s t) (p : Nat)
include h

theorem getFacet_eq : getFacet t p = getFacet s p := getFacet_of_facets h.facets p

theorem cfg_eq {j : Nat} (hj : j < 256) : cfg t p j = cfg s p j := h.entries _ _ (by omega) hj

theorem isEther_eq : isEther t p = isEther s p := by rw [isEther, facetRole, h.cfg_eq p (by decide)]; rfl

theorem laneTime_eq : laneTime t p = laneTime s p := by rw [laneTime, facetMode, h.cfg_eq p (by decide)]; rfl

theorem laneGap_eq : laneGap t p = laneGap s p := by rw [laneGap, h.isEther_eq]; rfl

theorem badEnd_eq : badEnd t p = badEnd s p := by
  rw [badEnd, h.isEther_eq, facetMode, h.cfg_eq p (by decide)]
  rfl

theorem stampAt_eq (start : Nat) : stampAt t p start = stampAt s p start := by
  rw [stampAt, stampLead, h.isEther_eq, h.laneTime_eq]
  rfl

end FacetsStand

end Sys2Proof.Machine

/-! SUPPORT. The completion of a descriptor of a staging set, and the end of a frame on the lane (R234, R244, R253, R254). -/

namespace Sys2Proof.Machine

/-! ### A completion (R253) -/

theorem countResult_counts (s : State) (p : Nat) (d : TxDesc) (result : Nat) : FacetCounts p s (countResult s p d result) :=
  .ite ((FacetCounts.bumpCounter s p (by decide) _).trans (.bumpCounter _ p (by decide) _)) (.ite (.countFacet s p (by decide)) (.refl s))

theorem facets_countFacet (s : State) (p sub : Nat) : (countFacet s p sub).facets = s.facets := by
  unfold countFacet
  split <;> rfl

theorem facets_bumpCounter (s : State) (p sub n : Nat) : (bumpCounter s p sub n).facets = s.facets := by
  unfold bumpCounter
  split <;> rfl

theorem facets_countResult (s : State) (p : Nat) (d : TxDesc) (result : Nat) : (countResult s p d result).facets = s.facets := by
  unfold countResult
  split
  · exact (facets_bumpCounter ..).trans (facets_bumpCounter ..)
  · split
    · exact facets_countFacet ..
    · rfl

/-- The facet with an entry of result `result` in the FIFO of local core `lc`. -/
def entered (f : Facet) (lc cookie result : Nat) : Facet :=
  { f with staging := Tab.put lc { stagingOf f lc with done := pushDone (stagingOf f lc).done { cookie, result } } f.staging }

theorem pushStaging_entered (s : State) (p lc : Nat) (e : Done) :
    FacetCounts p s (pushStaging s p lc e) ∧ getFacet (pushStaging s p lc e) p = entered (getFacet s p) lc e.cookie e.result := by
  have hfacets : (pushStaging s p lc e).facets = (setFacet s p (entered (getFacet s p) lc e.cookie e.result)).facets := by
    unfold pushStaging
    dsimp only
    split
    · rfl
    · exact facets_countFacet ..
  refine ⟨.ite (.of_only (.setFacet ..)) (.trans (.of_only (.setFacet ..)) (.countFacet _ p (by decide))), ?_⟩
  rw [getFacet_of_facets hfacets, getFacet_setFacet]

/-- The facet with FEVT.TXDONE set where FEVEN has it. -/
def doneShown (f : Facet) : Facet := { f with fevt := if f.feven.getLsbD 3 then f.fevt ||| 8#16 else f.fevt }

theorem showDone_shown (s : State) (p : Nat) : FacetOnly p s (showDone s p) ∧ getFacet (showDone s p) p = doneShown (getFacet s p) := by
  unfold showDone doneShown
  split
  · exact ⟨.setFevt .., getFacet_setFevt ..⟩
  · exact ⟨.refl s, rfl⟩

/-- A descriptor of a staging set of facet `p`, at its own facet, enters the set's FIFO and is shown. -/
theorem completeDesc_staging {d : TxDesc} {lc p : Nat} (hposter : d.poster = .staging lc) (hface : d.face = p) (s : State) (result : Nat) :
    FacetCounts p s (completeDesc s p d result) ∧
      getFacet (completeDesc s p d result) p = doneShown (entered (getFacet s p) lc d.cookie result) := by
  have heq : completeDesc s p d result = showDone (pushStaging (countResult s p d result) p lc { cookie := d.cookie, result }) p := by
    simp only [completeDesc, hposter, hface, reduceCtorEq, if_false]
  obtain ⟨hpush, hentered⟩ := pushStaging_entered (countResult s p d result) p lc { cookie := d.cookie, result }
  obtain ⟨hshow, hshown⟩ := showDone_shown (pushStaging (countResult s p d result) p lc { cookie := d.cookie, result }) p
  rw [heq, hshown, hentered, getFacet_of_facets (facets_countResult ..)]
  exact ⟨((countResult_counts ..).trans hpush).trans (.of_only hshow), rfl⟩

/-- Of memory read as `u`, facet `p` has become `g` and completed a descriptor of its staging set `lc`; `n` numbers the next descriptor. -/
structure Finished (s u t : State) (p lc : Nat) (g : Facet) (n cookie result : Nat) : Prop where
  frame : t = { u with facets := t.facets, router := t.router, ent := t.ent, nextId := n }
  others : ∀ q, q ≠ p → getFacet t q = getFacet s q
  entries : ∀ i j, i ≠ 0x3100 + p → j < 256 → ent t i j = ent u i j
  facet : getFacet t p = { g with
    staging := Tab.put lc { stagingOf (getFacet s p) lc with done := pushDone (stagingOf (getFacet s p) lc).done { cookie, result } } g.staging
    fevt := if (getFacet s p).feven.getLsbD 3 then g.fevt ||| 8#16 else g.fevt }

/-- A completion finishes what led to it. -/
theorem finished_completeDesc {s u v : State} {p lc n : Nat} {g : Facet} {d : TxDesc} (hposter : d.poster = .staging lc) (hface : d.face = p)
    (hu : u.facets = s.facets) (hv : FacetOnly p { u with nextId := n } v) (hg : getFacet v p = g) (hstaging : g.staging = (getFacet s p).staging)
    (hfeven : g.feven = (getFacet s p).feven) (result : Nat) : Finished s u (completeDesc v p d result) p lc g n d.cookie result := by
  obtain ⟨hcounts, hfacet⟩ := completeDesc_staging hposter hface v result
  have hall := (FacetCounts.of_only hv).trans hcounts
  refine ⟨hall.frame, fun q hq => (hall.others q hq).trans (getFacet_of_facets hu q), hall.entries, ?_⟩
  rw [hfacet, hg]
  unfold doneShown entered stagingOf
  rw [hstaging, hfeven]

/-- As `finished_completeDesc` after a read of memory, which takes no number. -/
theorem finished_of_read {s u v : State} {p lc : Nat} {g : Facet} {d : TxDesc} (hposter : d.poster = .staging lc) (hface : d.face = p)
    (hu : FacetsStand s u) (hv : FacetOnly p u v) (hg : getFacet v p = g) (hstaging : g.staging = (getFacet s p).staging)
    (hfeven : g.feven = (getFacet s p).feven) (result : Nat) : Finished s u (completeDesc v p d result) p lc g s.nextId d.cookie result := by
  have hnumber : { u with nextId := s.nextId } = u := by rw [← hu.nextId]
  exact finished_completeDesc hposter hface hu.facets (hnumber.symm ▸ hv) hg hstaging hfeven result

/-! ### The end of a frame (R234, R244, R245, R254) -/

/-- The frame is off the lane with its ending. -/
def laneEnded (f : Facet) (e : FrameEnd) : Facet := { f with lane := none, endOut := some e }

/-- The facet after the timestamp of a frame, where one is asked for. -/
def stamped (f : Facet) (l : LaneTx) (ts : Nat) : Facet :=
  if l.desc.tsreq then { f with txts := f.txts ++ [{ beam := l.desc.tag.getD 0, slot := l.desc.slot, ts }], fevt := f.fevt ||| 0x10#16 } else f

/-- A timestamp changes the FIFO and its event. -/
theorem stamped_eq (f : Facet) (l : LaneTx) (ts : Nat) : stamped f l ts = { f with txts := (stamped f l ts).txts, fevt := (stamped f l ts).fevt } := by
  unfold stamped
  split <;> rfl

theorem pushTs_room {s : State} {p : Nat} {l : LaneTx} (hface : l.desc.face = p) (hroom : l.desc.tsreq = true → (getFacet s p).txts.length < 16) :
    FacetOnly p s (pushTs s p l) ∧ getFacet (pushTs s p l) p = stamped (getFacet s p) l (stampAt s p l.start) := by
  cases hts : l.desc.tsreq with
  | false =>
    have heq : pushTs s p l = s := by simp only [pushTs, hts, Bool.not_false, if_true]
    rw [heq, stamped, hts]
    exact ⟨.refl s, rfl⟩
  | true =>
    have heq : pushTs s p l = setFevt (setFacet s p { getFacet s p with
        txts := (getFacet s p).txts ++ [{ beam := l.desc.tag.getD 0, slot := l.desc.slot, ts := stampAt s p l.start }] }) p (fevtBit 4) := by
      simp only [pushTs, hts, hface, hroom hts, Bool.not_true, Bool.false_eq_true, if_false, if_true]
    rw [heq, getFacet_setFevt, getFacet_setFacet, stamped, hts]
    exact ⟨(FacetOnly.setFacet ..).trans (.setFevt ..), rfl⟩

/-- Whatever a timestamp does, the lane and its ending stand. -/
theorem pushTs_keeps (s : State) (p : Nat) (l : LaneTx) (q : Nat) :
    (getFacet (pushTs s p l) q).lane = (getFacet s q).lane ∧ (getFacet (pushTs s p l) q).endOut = (getFacet s q).endOut := by
  unfold pushTs
  dsimp only
  split
  · exact ⟨rfl, rfl⟩
  split
  · by_cases hq : q = l.desc.face
    · rw [hq, getFacet_setFevt, getFacet_setFacet]
      exact ⟨rfl, rfl⟩
    · rw [(FacetOnly.setFevt ..).others q hq, getFacet_setFacet_ne s hq]
      exact ⟨rfl, rfl⟩
  · rw [getFacet_of_facets (facets_countFacet ..)]
    exact ⟨rfl, rfl⟩

/-- A frame sent leaves the lane and its ending as they are. -/
theorem frameSent_keeps (s : State) (p : Nat) (l : LaneTx) :
    (getFacet (frameSent s p l) p).lane = (getFacet s p).lane ∧ (getFacet (frameSent s p l) p).endOut = (getFacet s p).endOut := by
  have hcomplete : (getFacet (completeDesc s p l.desc 0) p).lane = (getFacet s p).lane ∧ (getFacet (completeDesc s p l.desc 0) p).endOut = (getFacet s p).endOut := by
    rw [(Shown.completeDesc s p l.desc 0).facet p]
    exact ⟨rfl, rfl⟩
  have hwait : ∀ a : AwaitAck, (getFacet (modFacet s p fun f => { f with await := f.await ++ [a] }) p).lane = (getFacet s p).lane ∧
      (getFacet (modFacet s p fun f => { f with await := f.await ++ [a] }) p).endOut = (getFacet s p).endOut := fun a => by
    rw [getFacet_modFacet]
    exact ⟨rfl, rfl⟩
  unfold frameSent
  dsimp only
  split
  · exact hwait _
  split
  · exact hcomplete
  split
  · exact hcomplete
  · exact hwait _

section Sent

variable {s : State} {p : Nat} {l : LaneTx}

theorem frameSent_margin (hmargin : l.margin = true) : frameSent s p l =
    modFacet s p fun f => { f with await := f.await ++ [{ desc := l.desc, margin := true, deadline := l.stop + ackWait s p }] } := by
  simp only [frameSent, hmargin, if_true]

variable (hmargin : l.margin = false)
include hmargin

theorem frameSent_reverse {e r : SlotEnt} (he : slotAt (getFacet s p).active l.desc.slot = some e) (hr : slotAt (getFacet s p).active e.rev = some r) :
    frameSent s p l =
      modFacet s p fun f => { f with await := f.await ++ [{ desc := l.desc, margin := false, deadline := slotDeadline s p r }] } := by
  simp only [frameSent, hmargin, Bool.false_eq_true, if_false, he, hr]

theorem frameSent_unacked
    (h : slotAt (getFacet s p).active l.desc.slot = none ∨ ∃ e, slotAt (getFacet s p).active l.desc.slot = some e ∧ e.rev = 0x1FF) :
    frameSent s p l = completeDesc s p l.desc 0 := by
  rcases h with h | ⟨e, he, hrev⟩
  · simp only [frameSent, hmargin, Bool.false_eq_true, if_false, h]
  · have hnone : slotAt (getFacet s p).active e.rev = none := if_pos hrev
    simp only [frameSent, hmargin, Bool.false_eq_true, if_false, he, hnone]

end Sent

section Lane

variable {s : State} {p : Nat} {l : LaneTx} (hlane : (getFacet s p).lane = some l)
include hlane

theorem transmitCompletion_due (hstop : l.stop ≤ 10 * s.tb) (hgot : l.desc.len ≤ l.desc.got)
    (hmargin : l.margin = true → l.stop ≤ 10 * boundaryAt (getFacet s p).active ((getFacet s p).cyc + 1)) :
    exec (.transmitCompletion p) s = .next (finishLane s p l) := by
  have hdue : laneDue s p l = true := by
    have htime : l.stop ≤ tenths s := hstop
    have hbound : (l.margin && decide (10 * boundaryAt (getFacet s p).active ((getFacet s p).cyc + 1) < l.stop)) = false := by
      cases hm : l.margin with
      | false => rfl
      | true => simpa using hmargin hm
    simp only [laneDue, htime, hgot, hbound, decide_true, Bool.not_false, Bool.and_self]
  show execTransmitCompletion p s = _
  simp only [execTransmitCompletion, hlane, Option.filter_some, hdue, if_true]

/-- A frame of no margin attempt has only its time and its data to wait for. -/
theorem transmitCompletion_unbound (hstop : l.stop ≤ 10 * s.tb) (hgot : l.desc.len ≤ l.desc.got) (hmargin : l.margin = false) :
    exec (.transmitCompletion p) s = .next (finishLane s p l) :=
  transmitCompletion_due hlane hstop hgot fun h => by rw [hmargin] at h; cases h

theorem transmitCompletion_early (hback : (getFacet s p).back = none) (hstop : 10 * s.tb < l.stop) : exec (.transmitCompletion p) s = .next s := by
  have hdue : laneDue s p l = false := by
    have htime : ¬ l.stop ≤ tenths s := Nat.not_le.2 hstop
    simp only [laneDue, htime, decide_false, Bool.false_and]
  show execTransmitCompletion p s = _
  simp only [execTransmitCompletion, hlane, hback, Option.filter_some, hdue, Bool.false_eq_true, if_false, Option.filter_none]

theorem transmitDataError_bad (hbad : (failLane s p l).2 = true) : exec (.transmitDataError p) s = .next (failLane s p l).1 := by
  show execTransmitDataError p s = _
  simp only [execTransmitDataError, hlane, hbad, if_true]

theorem transmitDataError_good (hback : (getFacet s p).back = none) (hgood : (failLane s p l).2 = false) : exec (.transmitDataError p) s = .next s := by
  show execTransmitDataError p s = _
  simp only [execTransmitDataError, hlane, hback, hgood, Bool.false_eq_true, if_false]

end Lane

/-- With nothing on the lane no frame ends. -/
theorem transmit_idle {s : State} {p : Nat} (hlane : (getFacet s p).lane = none) (hback : (getFacet s p).back = none) :
    exec (.transmitCompletion p) s = .next s ∧ exec (.transmitDataError p) s = .next s := by
  constructor
  · show execTransmitCompletion p s = _
    simp only [execTransmitCompletion, hlane, hback, Option.filter_none]
  · show execTransmitDataError p s = _
    simp only [execTransmitDataError, hlane, hback, Bool.false_eq_true, if_false]

section Read

variable {s u : State} {p : Nat} {l : LaneTx} {bytes : Octets}

theorem finishLane_own (hown : l.desc.poster = .own) : finishLane s p l = modFacet s p fun f => laneEnded f .good := if_pos hown

/-- The frame of another poster, its words read good. -/
theorem finishLane_read (hown : l.desc.poster ≠ .own) (hread : portReadBytes (l.desc.len / 8 + 3) s l.desc.addr l.desc.len = (u, bytes, false)) :
    finishLane s p l = frameSent (pushTs (modFacet u p fun f => laneEnded f .good) p l) p l := by
  simp only [finishLane, if_neg hown, hread, Bool.false_eq_true, if_false]
  rfl

theorem failLane_good {bad : Bool} (hread : portReadBytes (l.desc.len / 8 + 3) s l.desc.addr l.desc.len = (u, bytes, bad))
    (h : l.desc.poster = .own ∨ bad = false) : failLane s p l = (s, false) := by
  by_cases hown : l.desc.poster = .own
  · exact if_pos hown
  · simp only [failLane, if_neg hown, hread, h.resolve_left hown, Bool.false_eq_true, if_false]

/-- A frame whose words read bad is broken off and completes with 12. -/
theorem transmitDataError_broken (hlane : (getFacet s p).lane = some l) (hown : l.desc.poster ≠ .own)
    (hread : portReadBytes (l.desc.len / 8 + 3) s l.desc.addr l.desc.len = (u, bytes, true)) :
    exec (.transmitDataError p) s = .next (completeDesc (breakOff u p) p l.desc 12) := by
  have hfail : failLane s p l = (completeDesc (breakOff u p) p l.desc 12, true) := by simp only [failLane, if_neg hown, hread, if_true]
  exact (transmitDataError_bad hlane (by rw [hfail])).trans (by rw [hfail])

end Read

end Sys2Proof.Machine

/-! SUPPORT. Posts, ACKs and their deadlines, and O47 (R244, R245, R253, R255). -/

namespace Sys2Proof.Machine

/-! ### Posts (R253) -/

/-- The descriptor numbers go on by one. -/
def numbered (s : State) : State := { s with nextId := s.nextId + 1 }

theorem laneOf_congr {s t : State} (h : t.facets = s.facets) (p : Nat) : laneOf t p = laneOf s p := by
  simp only [laneOf, getFacet_of_facets h]

/-- The descriptor's beam with one more held descriptor, if it has one. -/
def heldCounted (s : State) (d : TxDesc) : State :=
  match d.tag with
  | some b => engineMod s b 4 fun x => { x with heldtx := x.heldtx + 1 }
  | none => s

theorem heldCounted_stands (s : State) (d : TxDesc) : FacetsStand s (heldCounted s d) := by
  unfold heldCounted
  split
  · exact .engineMod ..
  · exact .refl s

section Post

variable {s : State} {p n : Nat} {txa txl v : Word} {d : TxDesc}

theorem postAt_retired (hretired : (getFacet s p).retired = true) (hdeputy : (getFacet s p).deputy = none) :
    postAt s p n txa txl v d = completeDesc (numbered s) p d 5 := by
  have h : ((getFacet (numbered s) p).retired && (getFacet (numbered s) p).deputy.isNone) = true := by
    rw [show getFacet (numbered s) p = getFacet s p from rfl, hretired, hdeputy]
    rfl
  exact if_pos h

variable (hserved : (getFacet s p).retired = false ∨ (getFacet s p).deputy ≠ none)
include hserved

theorem not_gone : ((getFacet (numbered s) p).retired && (getFacet (numbered s) p).deputy.isNone) = false := by
  rw [show getFacet (numbered s) p = getFacet s p from rfl]
  rcases hserved with h | h
  · rw [h, Bool.false_and]
  · rw [Option.isNone_eq_false_iff.2 (Option.isSome_iff_ne_none.2 h), Bool.and_false]

theorem postAt_refused {r : Nat} (hcheck : postCheck s p n txa txl v = some r) :
    postAt s p n txa txl v d = completeDesc (if r = 6 then incDrops (numbered s) (field v 0 16) else numbered s) p d r := by
  have hcheck' : postCheck (numbered s) p n txa txl v = some r := hcheck
  have h := not_gone hserved
  unfold numbered at hcheck' h ⊢
  simp only [postAt, h, Bool.false_eq_true, if_false, hcheck']

theorem postAt_queued (hcheck : postCheck s p n txa txl v = none) :
    postAt s p n txa txl v d = modFacet (heldCounted (numbered s) d) (laneOf s p) fun f => { f with queue := f.queue ++ [d] } := by
  have hcheck' : postCheck (numbered s) p n txa txl v = none := hcheck
  have h := not_gone hserved
  have hlane : laneOf (heldCounted (numbered s) d) p = laneOf s p := laneOf_congr (heldCounted_stands (numbered s) d).facets p
  rw [← hlane]
  unfold numbered at hcheck' h ⊢
  simp only [postAt, h, Bool.false_eq_true, if_false, hcheck']
  rfl

end Post

/-- Whatever the checks find, one number is used. -/
theorem nextId_postAt (s : State) (p n : Nat) (txa txl v : Word) (d : TxDesc) : (postAt s p n txa txl v d).nextId = s.nextId + 1 := by
  have hcomplete : ∀ (t : State) (r : Nat), (completeDesc t p d r).nextId = t.nextId := fun t r => by rw [(Completes.completeDesc t p d r).frame]
  by_cases hgone : (getFacet s p).retired = true ∧ (getFacet s p).deputy = none
  · rw [postAt_retired hgone.1 hgone.2, hcomplete]
    rfl
  have hserved : (getFacet s p).retired = false ∨ (getFacet s p).deputy ≠ none := (not_and_or.1 hgone).imp (Bool.not_eq_true _).mp id
  cases hcheck : postCheck s p n txa txl v with
  | some r =>
    rw [postAt_refused hserved hcheck, hcomplete]
    split
    · exact (FacetsStand.engineMod (numbered s) ..).nextId
    · rfl
  | none =>
    rw [postAt_queued hserved hcheck]
    exact (heldCounted_stands (numbered s) d).nextId

/-- The descriptor of a post of local core `lc` at facet `p`. -/
def postedDesc (s : State) (p lc : Nat) (v : Word) : TxDesc :=
  let st := stagingOf (getFacet s p) lc
  mkDesc s (.staging lc) p (p / 8) st.txa st.txl v

section Write

variable {s : State} {p lc : Nat} (hp : p < nFacets s) (hlc : lc < 4) (v : Word)
include hp hlc

theorem exec_txpostWrite : exec (.txpostWrite p lc v) s =
    .next (postAt s p (p / 8 * 4 + lc) (stagingOf (getFacet s p) lc).txa (stagingOf (getFacet s p) lc).txl v (postedDesc s p lc v)) := by
  show execTxpostWrite p lc v s = _
  rw [execTxpostWrite, if_pos ⟨hp, hlc⟩]
  rfl

theorem exec_txdoneRead : exec (.txdoneRead p lc) s = .next { (txdoneRead s p lc).1 with rdata := some (txdoneRead s p lc).2 } := by
  show execTxdoneRead p lc s = _
  simp only [execTxdoneRead, hp, hlc, and_self, if_true]

omit hlc in
theorem exec_txts2Read : exec (.txts2Read p) s = .next { (txts2Read s p).1 with rdata := some (txts2Read s p).2 } := by
  show execTxts2Read p s = _
  simp only [execTxts2Read, hp, if_true]

end Write

/-! ### ACKs (R244, R245) -/

section Ack

variable {s : State} {p slot status seq : Nat}

theorem ackReception_unknown (h : ∀ a ∈ (getFacet s p).await, a.desc.slot ≠ slot ∨ a.desc.seq ≠ seq) : exec (.ackReception p slot status seq) s = .next s := by
  have hnone : (getFacet s p).await.find? (fun a => a.desc.slot == slot && a.desc.seq == seq) = none := by
    refine List.find?_eq_none.2 fun a ha => ?_
    simpa [← not_and_or] using h a ha
  show execAckReception p slot status seq s = _
  rw [execAckReception, hnone]

/-- The facet with the frame `d` no longer awaiting its ACK. -/
def ackTaken (s : State) (p : Nat) (d : TxDesc) : State := modFacet s p fun f => { f with await := f.await.filter fun y => y.desc.id != d.id }

variable {a : AwaitAck} (hfind : (getFacet s p).await.find? (fun a => a.desc.slot == slot && a.desc.seq == seq) = some a)
include hfind

theorem ackReception_ignored (h : a.deadline < 10 * s.tb ∨ 4 < status) : exec (.ackReception p slot status seq) s = .next s := by
  show execAckReception p slot status seq s = _
  simp only [execAckReception, hfind]
  exact if_pos h

section Taken

variable (htime : 10 * s.tb ≤ a.deadline)
include htime

theorem ackReception_taken (hstatus : status ≤ 4) : exec (.ackReception p slot status seq) s = .next (
    if status = 0 then completeDesc (ackTaken s p a.desc) p a.desc 0
    else if status = 3 then completeDesc (ackTaken s p a.desc) p a.desc 4 else failFrame s p a) := by
  have hlive : ¬ (a.deadline < tenths s ∨ 4 < status) := not_or.2 ⟨Nat.not_lt.2 htime, Nat.not_lt.2 hstatus⟩
  show execAckReception p slot status seq s = _
  simp only [execAckReception, hfind, if_neg hlive]
  split
  · rfl
  · split <;> rfl

theorem ackReception_good (h : status = 0) : exec (.ackReception p slot status seq) s = .next (completeDesc (ackTaken s p a.desc) p a.desc 0) :=
  (ackReception_taken hfind htime (by omega)).trans (congrArg _ (if_pos h))

theorem ackReception_dropped (h : status = 3) : exec (.ackReception p slot status seq) s = .next (completeDesc (ackTaken s p a.desc) p a.desc 4) :=
  (ackReception_taken hfind htime (by omega)).trans (congrArg _ ((if_neg (by omega)).trans (if_pos h)))

theorem ackReception_failed (h : status = 1 ∨ status = 2 ∨ status = 4) : exec (.ackReception p slot status seq) s = .next (failFrame s p a) :=
  (ackReception_taken hfind htime (by omega)).trans (congrArg _ ((if_neg (by omega)).trans (if_neg (by omega))))

end Taken

end Ack

theorem ackDeadline_none {s : State} {p : Nat} (h : ∀ a ∈ (getFacet s p).await, 10 * s.tb ≤ a.deadline) : exec (.ackDeadline p) s = .next s := by
  have hnone : (getFacet s p).await.find? (fun a => decide (a.deadline < tenths s)) = none :=
    List.find?_eq_none.2 fun a ha => by rw [decide_eq_true_iff]; exact Nat.not_lt.2 (h a ha)
  show execAckDeadline p s = _
  rw [execAckDeadline, hnone]

theorem ackDeadline_failed {s : State} {p : Nat} {a : AwaitAck} (h : (getFacet s p).await.find? (fun a => decide (a.deadline < 10 * s.tb)) = some a) :
    exec (.ackDeadline p) s = .next (failFrame s p a) := by
  show execAckDeadline p s = _
  rw [execAckDeadline, show (getFacet s p).await.find? (fun a => decide (a.deadline < tenths s)) = some a from h]

end Sys2Proof.Machine

/-! SUPPORT. Frames of a staging set end, and O47 (R234, R244, R245, R253 to R255). -/

namespace Sys2Proof.Machine

theorem FacetOnly.laneTime_eq {p : Nat} {s t : State} (h : FacetOnly p s t) (q : Nat) : laneTime t q = laneTime s q := by
  simp only [laneTime, facetMode, cfg, Machine.ent, h.ent]

section Lane

variable {s u : State} {p : Nat} {l : LaneTx} {bytes : Octets} {bad : Bool}

/-- Whoever posted a frame, at its end it leaves the lane as a good one. -/
theorem finishLane_leaves (hread : portReadBytes (l.desc.len / 8 + 3) s l.desc.addr l.desc.len = (u, bytes, bad)) (h : l.desc.poster = .own ∨ bad = false) :
    (getFacet (finishLane s p l) p).lane = none ∧ (getFacet (finishLane s p l) p).endOut = some .good := by
  by_cases hown : l.desc.poster = .own
  · rw [finishLane_own hown, getFacet_modFacet]
    exact ⟨rfl, rfl⟩
  · rw [h.resolve_left hown] at hread
    obtain ⟨hlane, hend⟩ := frameSent_keeps (pushTs (modFacet u p fun f => laneEnded f .good) p l) p l
    obtain ⟨hlane', hend'⟩ := pushTs_keeps (modFacet u p fun f => laneEnded f .good) p l p
    rw [finishLane_read hown hread, hlane, hend, hlane', hend', getFacet_modFacet]
    exact ⟨rfl, rfl⟩

/-- The facet with its frame broken off: the gap of a bad frame follows. -/
def brokenOff (s : State) (p : Nat) : Facet :=
  { laneEnded (getFacet s p) (badEnd s p) with gapTo := tenths s + (1 + laneGap s p) * laneTime s p }

theorem getFacet_breakOff (hu : FacetsStand s u) : getFacet (breakOff u p) p = brokenOff s p := by
  rw [breakOff, getFacet_modFacet, hu.getFacet_eq, hu.badEnd_eq, hu.laneGap_eq, hu.laneTime_eq, tenths, hu.tb]
  rfl

/-- A frame broken off leaves the lane as a bad one. -/
theorem completeDesc_breakOff_leaves (hu : FacetsStand s u) (d : TxDesc) (result : Nat) :
    let t := completeDesc (breakOff u p) p d result
    (getFacet t p).lane = none ∧ (getFacet t p).endOut = some (badEnd s p) := by
  dsimp only
  rw [(Shown.completeDesc (breakOff u p) p d result).facet p, getFacet_breakOff hu]
  exact ⟨rfl, rfl⟩

/-- The facet as the frame has left the lane, with its timestamp. -/
def sentFacet (s : State) (p : Nat) (l : LaneTx) : Facet := stamped (laneEnded (getFacet s p) .good) l (stampAt s p l.start)

theorem sentFacet_eq (s : State) (p : Nat) (l : LaneTx) : sentFacet s p l = { getFacet s p with
    lane := none, endOut := some .good, txts := (sentFacet s p l).txts, fevt := (sentFacet s p l).fevt } := stamped_eq ..

section Staging

variable {lc : Nat} (hposter : l.desc.poster = .staging lc) (hface : l.desc.face = p) (hroom : l.desc.tsreq = true → (getFacet s p).txts.length < 16)
  (hread : portReadBytes (l.desc.len / 8 + 3) s l.desc.addr l.desc.len = (u, bytes, false))
include hposter hface hroom hread

/-- The state that decides what becomes of the frame. -/
theorem finishLane_sent : ∃ v, finishLane s p l = frameSent v p l ∧ FacetOnly p u v ∧ getFacet v p = sentFacet s p l := by
  have hu := FacetsStand.of_read hread
  have hgone : getFacet (modFacet u p fun f => laneEnded f .good) p = laneEnded (getFacet s p) .good := by rw [getFacet_modFacet, hu.getFacet_eq]
  obtain ⟨honly, hfacet⟩ := pushTs_room (s := modFacet u p fun f => laneEnded f .good) hface (by rw [hgone]; exact hroom)
  refine ⟨_, finishLane_read (by rw [hposter]; exact Poster.noConfusion) hread, (FacetOnly.modFacet ..).trans honly, ?_⟩
  rw [hfacet, hgone, show stampAt (modFacet u p fun f => laneEnded f .good) p l.start = stampAt u p l.start from rfl, hu.stampAt_eq]
  rfl

end Staging

end Lane

theorem modBeam_numbered (s : State) (b : Nat) (g : BeamCtx → BeamCtx) :
    modBeam (numbered s) b g = { setBeam s b (g (getBeam s b)) with nextId := s.nextId + 1 } := rfl

section Held

variable {s : State} {p lc : Nat} {v : Word}

theorem heldCounted_untagged (hv : v.getLsbD 16 = false) : heldCounted (numbered s) (postedDesc s p lc v) = numbered s := by
  have htag : (postedDesc s p lc v).tag = none := if_neg (by rw [hv]; decide)
  rw [heldCounted, htag]

/-- A tagged post counts in its beam's HELDTX. -/
theorem heldCounted_tagged (hv : v.getLsbD 16 = true) (hecc : s.ecc = []) : heldCounted (numbered s) (postedDesc s p lc v) =
    { setBeam s (field v 0 16) { getBeam s (field v 0 16) with heldtx := (getBeam s (field v 0 16)).heldtx + 1 } with nextId := s.nextId + 1 } := by
  have htag : (postedDesc s p lc v).tag = some (field v 0 16) := if_pos hv
  simp only [heldCounted, htag]
  rw [engineMod_noErrors (s := numbered s) hecc, modBeam_numbered]

/-- A post that is queued changes the beams alone beside its queue and the numbers. -/
theorem heldCounted_frame (hecc : v.getLsbD 16 = true → s.ecc = []) :
    let t := heldCounted (numbered s) (postedDesc s p lc v)
    t = { s with beams := t.beams, nextId := s.nextId + 1 } := by
  cases hv : v.getLsbD 16 with
  | false =>
    rw [heldCounted_untagged hv]
    rfl
  | true =>
    rw [heldCounted_tagged hv (hecc hv)]
    rfl

theorem modFacet_frame {w : State} {n : Nat} (h : w = { s with beams := w.beams, nextId := n }) (p : Nat) (g : Facet → Facet) :
    modFacet w p g = { s with facets := (modFacet w p g).facets, beams := (modFacet w p g).beams, nextId := n } :=
  congrArg (fun x : State => { x with facets := (modFacet w p g).facets }) h

end Held

/-- An ACK in time takes the frame from the wait, and puts one that failed into the retry queue. -/
theorem ackTaken_keeps (s : State) (p status : Nat) (a : AwaitAck) :
    let t := if status = 0 then completeDesc (ackTaken s p a.desc) p a.desc 0
      else if status = 3 then completeDesc (ackTaken s p a.desc) p a.desc 4 else failFrame s p a
    (getFacet t p).await = ((getFacet s p).await.filter fun y => y.desc.id != a.desc.id) ∧
      (getFacet t p).retry = if status = 0 ∨ status = 3 then (getFacet s p).retry else (getFacet s p).retry ++ [a.desc] := by
  have hcomplete : ∀ result, (getFacet (completeDesc (ackTaken s p a.desc) p a.desc result) p).await = ((getFacet s p).await.filter fun y => y.desc.id != a.desc.id) ∧
      (getFacet (completeDesc (ackTaken s p a.desc) p a.desc result) p).retry = (getFacet s p).retry := fun result => by
    rw [(Shown.completeDesc (ackTaken s p a.desc) p a.desc result).facet p, ackTaken, getFacet_modFacet]
    exact ⟨rfl, rfl⟩
  dsimp only
  by_cases h0 : status = 0
  · rw [if_pos h0, if_pos (.inl h0)]
    exact hcomplete 0
  by_cases h3 : status = 3
  · rw [if_neg h0, if_pos h3, if_pos (.inr h3)]
    exact hcomplete 4
  · rw [if_neg h0, if_neg h3, if_neg (not_or.2 ⟨h0, h3⟩), failFrame, getFacet_modFacet]
    exact ⟨rfl, rfl⟩

/-- Settles O47: posts, ends of frames and ACKs each take their frame where R253 and R244 have it; what is left unchanged is that of a completion,
with what reading the frame's words did before it. -/
theorem framesCompleteAndAreAcknowledged : Obligations.FramesCompleteAndAreAcknowledged := by
  unfold Obligations.FramesCompleteAndAreAcknowledged
  constructor
  · intro s p f leaves
    refine ⟨fun l u bytes bad hlane hread => ⟨fun hstop hgot hmargin h => ?_, fun hown hbad => ?_,
        fun hback h => transmitDataError_good hlane hback (by rw [failLane_good hread h]), fun hback hstop => transmitCompletion_early hlane hback hstop⟩,
      transmit_idle, fun slot status seq a hfind htime hstatus => ?_, ackDeadline_none, fun hp lc hlc v => ?_⟩
    · exact ⟨_, transmitCompletion_due hlane hstop hgot hmargin, finishLane_leaves hread h⟩
    · subst hbad
      exact ⟨_, transmitDataError_broken hlane hown hread, completeDesc_breakOff_leaves (.of_read hread) l.desc 12⟩
    · exact ⟨_, ackReception_taken hfind htime hstatus, ackTaken_keeps ..⟩
    · refine ⟨_, exec_txpostWrite hp hlc v, nextId_postAt .., fun hserved hcheck => ⟨postedDesc s p lc v, ?_, rfl, rfl, rfl⟩⟩
      rw [postAt_queued hserved hcheck, getFacet_modFacet, (heldCounted_stands ..).getFacet_eq]
      rfl
  · intro s p lc hstands f st time finished finishes sets
    have hfinishes : ∀ {c : Instr} {u t : State} {g : Facet} {n cookie result : Nat}, exec c s = .next t → Finished s u t p lc g n cookie result →
        finishes c u g n cookie result := fun {c u t g n cookie result} hexec h => ⟨t, hexec, h.frame, h.others, h.entries, h.facet⟩
    have hsets : ∀ {c : Instr} {u t : State}, exec c s = .next t → u.facets = s.facets → FacetOnly p u t → sets c u (getFacet t p) :=
      fun {c u t} hexec hu h => ⟨t, hexec, h.frame, fun q hq => (h.others q hq).trans (getFacet_of_facets hu q), rfl⟩
    refine ⟨fun hp hlc v => ?posts, fun l u bytes hlane hposter hface hstop hgot hroom hread => ?ends,
      fun l u bytes hlane hposter hface hread => ?broken, fun l hlane hown hmargin hstop hgot => ?own,
      fun slot status seq => ⟨ackReception_unknown, fun a hfind hposter hface =>
        ⟨ackReception_ignored hfind, fun htime => ⟨fun h => ?ackGood, fun h => ?ackDropped, fun h => ?ackFailed⟩⟩⟩,
      fun a hfind => ?deadline, fun hp hlc => ⟨fun h => ?noDone, fun d ds h => ?done, fun h => ?noStamp, fun y ys h => ?stamp⟩⟩
    case posts =>
      intro core
      have hexec := exec_txpostWrite hp hlc v
      have hposter : (postedDesc s p lc v).poster = .staging lc := rfl
      have hface : (postedDesc s p lc v).face = p := rfl
      refine ⟨fun hretired hdeputy => ?_, fun hretired hdeputy => ⟨fun r hcheck hr => ?_, fun hcheck hecc => ?_, fun hcheck hecc => ?_⟩⟩
      · exact hfinishes (hexec.trans (congrArg _ (postAt_retired hretired hdeputy))) (finished_completeDesc hposter hface rfl (.refl _) rfl rfl rfl 5)
      · refine hfinishes (hexec.trans (congrArg _ (postAt_refused (.inl hretired) hcheck))) ?_
        rw [if_neg hr]
        exact finished_completeDesc hposter hface rfl (.refl _) rfl rfl rfl r
      · intro b x
        refine hfinishes (hexec.trans (congrArg _ (postAt_refused (.inl hretired) hcheck))) ?_
        rw [if_pos rfl, incDrops, engineMod_noErrors (s := numbered s) hecc, modBeam_numbered]
        exact finished_completeDesc (s := s) (u := setBeam s b { x with drops := if x.drops = 0xFFFFFFFF#32 then x.drops else x.drops + 1 }) (n := s.nextId + 1)
          hposter hface rfl (.refl _) rfl rfl rfl 6
      · have hlane : laneOf s p = p := by rw [laneOf, show (getFacet s p).deputy = none from hdeputy]
        have hqueued := hexec.trans (congrArg _ (postAt_queued (.inl hretired) hcheck))
        have hframe := heldCounted_frame (p := p) (lc := lc) hecc
        have hfacets := (heldCounted_stands (numbered s) (postedDesc s p lc v)).facets
        rw [hlane] at hqueued
        refine ⟨_, postedDesc s p lc v, hqueued, ?_, fun q hq => ?_, ?_, rfl, rfl, rfl, rfl, rfl, rfl, fun hv => ?_, fun hv => ?_⟩
        · exact modFacet_frame hframe p _
        · rw [getFacet_modFacet_ne _ hq, getFacet_of_facets hfacets]
          rfl
        · rw [getFacet_modFacet, getFacet_of_facets hfacets]
          rfl
        · rw [heldCounted_untagged hv]
          rfl
        · rw [heldCounted_tagged hv (hecc hv)]
          exact ⟨getBeam_setBeam .., fun b hb => getBeam_setBeam_ne s hb _⟩
    case ends =>
      intro sent g
      have hu := FacetsStand.of_read hread
      obtain ⟨v, hfinish, honly, hfacet⟩ := finishLane_sent hposter hface hroom hread
      have hactive : (getFacet v p).active = f.active := by rw [hfacet, sentFacet_eq]
      have hdelay : (getFacet v p).train.delay = f.train.delay := by rw [hfacet, sentFacet_eq]
      have hcyc : (getFacet v p).cyc = f.cyc := by rw [hfacet, sentFacet_eq]
      have hawait : (getFacet v p).await = f.await := by rw [hfacet, sentFacet_eq]
      have htime : laneTime v p = time := (honly.laneTime_eq p).trans (hu.laneTime_eq p)
      have hwaits : ∀ a : AwaitAck, exec (.transmitCompletion p) s = .next (modFacet v p fun f => { f with await := f.await ++ [a] }) →
          sets (.transmitCompletion p) u { g with await := f.await ++ [a] } := fun a hexec => by
        have h := hsets hexec hu.facets (honly.trans (.modFacet ..))
        rwa [getFacet_modFacet, hawait, hfacet] at h
      refine ⟨fun hmargin hslot => ?_, fun hmargin e r he hr => ?_, fun hmargin hbound => ?_⟩
      · refine hfinishes ((transmitCompletion_unbound hlane hstop hgot hmargin).trans
          (congrArg _ (hfinish.trans (frameSent_unacked hmargin (by rw [hactive]; exact hslot))))) ?_
        refine finished_of_read hposter hface hu honly hfacet ?_ ?_ 0
        · rw [sentFacet_eq]
        · rw [sentFacet_eq]
      · refine hwaits _ ((transmitCompletion_unbound hlane hstop hgot hmargin).trans
          (congrArg _ (hfinish.trans ((frameSent_reverse hmargin (by rw [hactive]; exact he) (by rw [hactive]; exact hr)).trans ?_))))
        rw [slotDeadline, hactive, hdelay, hcyc, htime]
        rfl
      · refine hwaits _ ((transmitCompletion_due hlane hstop hgot fun _ => hbound).trans (congrArg _ (hfinish.trans ((frameSent_margin hmargin).trans ?_))))
        rw [ackWait, hdelay, htime]
    case broken =>
      have hu := FacetsStand.of_read hread
      exact hfinishes (transmitDataError_broken hlane (by rw [hposter]; exact Poster.noConfusion) hread)
        (finished_of_read hposter hface hu (.modFacet ..) (getFacet_breakOff hu) rfl rfl 12)
    case own =>
      have h := hsets ((transmitCompletion_unbound hlane hstop hgot hmargin).trans (by rw [finishLane_own hown])) rfl (.modFacet ..)
      rwa [getFacet_modFacet] at h
    case ackGood =>
      exact hfinishes (ackReception_good hfind htime h) (finished_of_read hposter hface (.refl s) (.modFacet ..) (getFacet_modFacet ..) rfl rfl 0)
    case ackDropped =>
      exact hfinishes (ackReception_dropped hfind htime h) (finished_of_read hposter hface (.refl s) (.modFacet ..) (getFacet_modFacet ..) rfl rfl 4)
    case ackFailed =>
      have hfail := hsets (ackReception_failed hfind htime h) rfl (.modFacet ..)
      rwa [failFrame, getFacet_modFacet] at hfail
    case deadline =>
      have hfail := hsets (ackDeadline_failed hfind) rfl (.modFacet ..)
      rwa [failFrame, getFacet_modFacet] at hfail
    case noDone =>
      rw [exec_txdoneRead hp hlc, txdoneRead, show (stagingOf (getFacet s p) lc).done = [] from h]
    case done =>
      rw [exec_txdoneRead hp hlc, txdoneRead, show (stagingOf (getFacet s p) lc).done = d :: ds from h]
      rfl
    case noStamp =>
      rw [exec_txts2Read hp, txts2Read, show (getFacet s p).txts = [] from h]
    case stamp =>
      rw [exec_txts2Read hp, txts2Read, show (getFacet s p).txts = y :: ys from h]
      rfl

end Sys2Proof.Machine
